-- ==== Sys2Proof/Word.lean ====
section
/-! DEFINITION. Word types and their plainest arithmetic (R3, R199). -/
namespace Sys2Proof

abbrev Byte := BitVec 8
abbrev Half := BitVec 16
abbrev Word32 := BitVec 32
/-- A scalar register, an address while it is computed, an 8-byte memory word. -/
abbrev Word := BitVec 64
/-- A v or k register (R199). -/
abbrev Vec := BitVec 1024
/-- A d register: one descriptor of eight words (R409). -/
abbrev Desc512 := BitVec 512
/-- The bytes of a tile or an accumulator: 16 KiB (R199). -/
abbrev TileBytes := BitVec 131072
/-- A 10-bit cause code (R8). -/
abbrev Cause := BitVec 10

/-- `k` ones at the low end of a word of width `w`. -/
def onesLow (w k : Nat) : BitVec w := BitVec.ofNat w (2 ^ k - 1)

/-- All ones when the condition holds, else zero (R320). -/
def maskOf (b : Bool) : Word := if b then BitVec.allOnes 64 else 0#64

end Sys2Proof
end

