-- ==== Sys2Proof/Config.lean ====
section
/-! DEFINITION. What an implementation fixes (fused values) and the values the manual leaves open (R468, R60, R140).
Every constant here is opaque: no proof can see a value of it. -/
namespace Sys2Proof.Config

/-- What the fuses of a core's stand table hold before the bounds of R75. -/
opaque standFuse : Nat → Nat → Nat
/-- Frequency floor of an operating point in MHz (R75). -/
def floorMhz : Nat → Nat
  | 0 => 600 | 1 => 1000 | 2 => 1400 | 3 => 1800 | 4 => 2300 | 5 => 2800 | 6 => 3200 | _ => 3600
/-- Entry of the stand table: at least its point's floor, at least the entry below, at most 4,400 (R13, R75). Every table that R75
allows is one of these. -/
def standMhz (core : Nat) : Nat → Nat
  | 0 => min 4400 (max (floorMhz 0) (standFuse core 0))
  | p + 1 => min 4400 (max (max (floorMhz (p + 1)) (standFuse core (p + 1))) (standMhz core p))
/-- STANDn of a core in MHz: fused at test (R75, R76). Core id, point. -/
def stand (core point : Nat) : BitVec 16 := BitVec.ofNat 16 (standMhz core point)
/-- EQ.PJ: picojoules per energy unit, fused (R83). -/
opaque eqPj : BitVec 16
/-- ENGW: engine draws, fused (R84). -/
opaque engw : BitVec 40
/-- PHTOT of rail i: regulator phases fitted, fused (R89). -/
opaque phasesFitted : Nat → BitVec 8
/-- LIMIT of rail i, fused (R89). -/
opaque railLimit : Nat → BitVec 16
/-- THERM.TRIP, fused (R92). -/
opaque thermTrip : BitVec 8
/-- MG_IANA: the enterprise number, fused (R66). -/
opaque iana : BitVec 32
/-- REFCLK cycles that pass during the n-th step (R435, R468: the manual gives no time). -/
opaque refclkOfStep : Nat → Nat
/-- The n-th free bit string: a value the manual leaves open and a run may give any content. -/
opaque freeValue : Nat → BitVec 1024
/-- The set of the 8-way second-level TLB in which a page stands, and which entry leaves a full TLB at the n-th such choice (R129: the
capacities are given, the index and the replacement are not). -/
opaque tlbSet : Nat → Nat
opaque tlbVictim : Nat → Nat
/-- Whether the sorting stage takes a core's update pairs while others of it are on their way, by the count of free values (R169; log 105). -/
opaque sortTakes : Nat → Bool
/-- The set of the scalar data cache in which a line stands, and which line leaves a full set at the n-th such choice (R139). -/
opaque sdcSet : Nat → Nat
opaque sdcVictim : Nat → Nat
/-- Which line leaves a full instruction cache at the n-th such choice (R140). -/
opaque icacheVictim : Nat → Nat
/-- Whether the scalar data cache still holds a line at the n-th question (R139). -/
opaque sdcHolds : Nat → Bool
/-- Whether a fetch returns the line the L1 instruction cache kept, at the n-th question (R140: old bytes or new). -/
opaque icacheOld : Nat → Bool
/-- The four vendor public keys in ROM, and their revocation fuses (R53). -/
opaque vendorKey : Nat → BitVec 544
opaque keyRevoked : Nat → Bool
/-- XMSS-SHAKE_20_256 verification under a public key of a signature over a header (R52, R53): the published standard, as a predicate. -/
opaque xmssVerify : BitVec 544 → BitVec 2048 → BitVec 22560 → Bool
/-- The device identity key's signature with an index over bytes (R57, R58). -/
opaque identitySign : Nat → List Byte → BitVec 22560
/-- The n-th signature over bytes of the attestation key with a given public key (R58, R59). -/
opaque attSign : BitVec 544 → Nat → List Byte → BitVec 20000
/-- Whether the root of trust can sign the dump (R73). -/
opaque dumpSigns : Nat → Bool
/-- Entry address of the I/O-die firmware on control core c (R51: the image is loaded, its entry is not in the manual). -/
opaque firmwareEntry : Nat → Word
/-- Sensor and regulator readings of management telemetry (R67): the n-th reading. -/
opaque telemetry : Nat → BitVec 1024

/-- Whether HBM is held in self-refresh across the n-th package reset (R74). -/
opaque selfRefresh : Nat → Bool
/-- Whether a port can reach a node: the port map (R21). Node, port. -/
opaque portReaches : Nat → Nat → Bool

end Sys2Proof.Config
end

