-- ==== Sys2Proof/Syntax.lean ====
section
/-! DEFINITION. The instructions: one constructor for every row of the opcode table. Operand structures hold the fields of a
slot word and its extension, already decoded (R298-R302); an event row (R469) carries what the event brings. -/
namespace Sys2Proof

/-- The ten slots in template order (R198). -/
inductive Slot where
  | s | x | v0 | v1 | m | k | c0 | c1 | y | f
deriving DecidableEq, Repr

/-- Which sequencer issues: a compute core's main sequencer, a control core's, or a service sequencer (R303). -/
inductive Issuer where
  | cmp | ctl | svc
deriving DecidableEq, Repr

/-- An arrival attached to an operation by its extension word (R299). -/
inductive Arrival where
  | flag (f : BitVec 4)
  | barrier (g : BitVec 6)
deriving DecidableEq, Repr

/-- What every slot operation carries: its slot, its guard and its arrival (R298, R299). -/
structure OpInfo where
  slot : Slot
  pn : BitVec 4
  pi : Bool
  arr : Option Arrival
deriving DecidableEq, Repr

/-- The five files that xfr and chk name (R322, R348). -/
inductive RFile where
  | s | x | v | k | p
deriving DecidableEq, Repr

/-- How dfpk and dfex name their field: an immediate, or a register (R328). -/
inductive FieldSel where
  | imm (pos : BitVec 6) (wid : BitVec 7)
  | reg (b : BitVec 5)
deriving DecidableEq, Repr

/-- Form A with two sources (R317). -/
structure RRR where
  d : BitVec 5
  a : BitVec 5
  b : BitVec 5
deriving DecidableEq, Repr

/-- Form A with one source. -/
structure RR where
  d : BitVec 5
  a : BitVec 5
deriving DecidableEq, Repr

/-- Form I: destination, source, sign-extended immediate (R318, R300). -/
structure RImm where
  d : BitVec 5
  a : BitVec 5
  imm : BitVec 34
deriving DecidableEq, Repr

/-- Immediate shift: the count is 6 bits, the rest reserved (R318). -/
structure RShift where
  d : BitVec 5
  a : BitVec 5
  sh : BitVec 6
deriving DecidableEq, Repr

/-- Form L: destination and sign-extended immediate (R319, R368). -/
structure RLong where
  d : BitVec 5
  imm : BitVec 39
deriving DecidableEq, Repr

/-- Compare with a register (R320). -/
structure CmpReg where
  pd : BitVec 4
  cc : BitVec 4
  a : BitVec 5
  b : BitVec 5
deriving DecidableEq, Repr

/-- Compare with an immediate (R320). -/
structure CmpImm where
  pd : BitVec 4
  cc : BitVec 4
  a : BitVec 5
  imm : BitVec 29
deriving DecidableEq, Repr

/-- Predicate logic (R321). -/
structure PredLogic where
  pd : BitVec 4
  a : BitVec 4
  b : BitVec 4
deriving DecidableEq, Repr

/-- Conditional transfer: form I, displacement in words (R323). -/
structure BrReg where
  a : BitVec 5
  disp : BitVec 34
deriving DecidableEq, Repr

/-- loop: level, count register, final bundle in words (R325). -/
structure LoopReg where
  lv : BitVec 3
  a : BitVec 5
  fin : BitVec 12
deriving DecidableEq, Repr

/-- loopi: level, count, final bundle in words (R325). -/
structure LoopImm where
  lv : BitVec 3
  n : BitVec 29
  fin : BitVec 12
deriving DecidableEq, Repr

/-- Scalar scratchpad load (R375). -/
structure SpLoad where
  d : BitVec 5
  base : BitVec 5
  ix : BitVec 5
  sx : BitVec 1
  am : BitVec 2
  z : BitVec 2
  cls : BitVec 4
  disp : BitVec 15
deriving DecidableEq, Repr

/-- Scalar store, scratchpad or global (R375). -/
structure SpStore where
  d : BitVec 5
  base : BitVec 5
  ix : BitVec 5
  am : BitVec 2
  z : BitVec 2
  cls : BitVec 4
  disp : BitVec 15
deriving DecidableEq, Repr

/-- Scalar global load (R375). -/
structure GlLoad where
  d : BitVec 5
  base : BitVec 5
  ix : BitVec 5
  sx : BitVec 1
  am : BitVec 2
  z : BitVec 2
  cls : BitVec 4
  tok : BitVec 3
  u : BitVec 2
  disp : BitVec 15
deriving DecidableEq, Repr

/-- Returning atomic of width 32 or 64 (R382). -/
structure Atomic where
  d : BitVec 5
  base : BitVec 5
  a : BitVec 5
  w : BitVec 1
  cls : BitVec 4
  tok : BitVec 3
  disp : BitVec 15
deriving DecidableEq, Repr

/-- Returning 64-bit atomic (R382). -/
structure BitAtomic where
  d : BitVec 5
  base : BitVec 5
  a : BitVec 5
  cls : BitVec 4
  tok : BitVec 3
  disp : BitVec 15
deriving DecidableEq, Repr

/-- PLSET: limit in PAYLOAD[14:8] (R382). -/
structure PlsetArgs where
  d : BitVec 5
  base : BitVec 5
  a : BitVec 5
  cls : BitVec 4
  tok : BitVec 3
  lim : BitVec 7
  disp : BitVec 8
deriving DecidableEq, Repr

/-- Update pair (R374, R385). -/
structure UpdArgs where
  d : BitVec 5
  base : BitVec 5
  ix : BitVec 5
  idx : BitVec 1
  cls : BitVec 4
  rgn : BitVec 8
  disp : BitVec 9
deriving DecidableEq, Repr

/-- Prefetch hint (R381). -/
structure PrefArgs where
  base : BitVec 5
  lvl : BitVec 2
  u : BitVec 2
  disp : BitVec 15
deriving DecidableEq, Repr

/-- waitline: time-out code, Q layout (R329). -/
structure WaitlineArgs where
  d : BitVec 5
  base : BitVec 5
  ix : BitVec 5
  tmo : BitVec 5
  cls : BitVec 4
  tok : BitVec 3
  disp : BitVec 15
deriving DecidableEq, Repr

/-- Block system-register move: offset s[A] + off (R430). -/
structure IoMove where
  d : BitVec 5
  a : BitVec 5
  off : BitVec 20
deriving DecidableEq, Repr

/-- Compare and advance (R333). -/
structure CadvArgs where
  d : BitVec 5
  a : BitVec 5
  b : BitVec 5
  sg : BitVec 1
  pd : BitVec 4
  step : BitVec 24
deriving DecidableEq, Repr

/-- Push of one address without index (R336). -/
structure AqPush where
  base : BitVec 4
  z : BitVec 3
  cls : BitVec 4
  tok : BitVec 3
  u : BitVec 2
  disp : BitVec 15
deriving DecidableEq, Repr

/-- Push of one indexed address (R336). -/
structure AqPushIdx where
  base : BitVec 4
  ix : BitVec 4
  z : BitVec 3
  cls : BitVec 4
  tok : BitVec 3
  u : BitVec 2
  disp : BitVec 15
deriving DecidableEq, Repr

/-- Push of a strided run; d is the count register (R336). -/
structure AqRun where
  d : BitVec 4
  base : BitVec 4
  ix : BitVec 4
  z : BitVec 3
  cls : BitVec 4
  tok : BitVec 3
  u : BitVec 2
  disp : BitVec 15
deriving DecidableEq, Repr

/-- Integer vector operation with two sources; w is log2(e/8) (R352, R353). -/
structure VInt3 where
  d : BitVec 5
  a : BitVec 5
  b : BitVec 5
  w : BitVec 2
deriving DecidableEq, Repr

/-- Integer vector operation with one source. -/
structure VInt2 where
  d : BitVec 5
  a : BitVec 5
  w : BitVec 2
deriving DecidableEq, Repr

/-- Integer vector operation with a count K (R357, R367). -/
structure VIntK where
  d : BitVec 5
  a : BitVec 5
  k : BitVec 7
  w : BitVec 2
deriving DecidableEq, Repr

/-- Integer vector compare (R358). -/
structure VCmp where
  pd : BitVec 4
  cc : BitVec 4
  a : BitVec 5
  b : BitVec 5
  w : BitVec 2
deriving DecidableEq, Repr

/-- Floating vector compare (R358). -/
structure VFCmp where
  pd : BitVec 4
  cc : BitVec 4
  a : BitVec 5
  b : BitVec 5
  fmt : BitVec 4
deriving DecidableEq, Repr

/-- Select by predicate (R359). -/
structure VSel where
  d : BitVec 5
  a : BitVec 5
  b : BitVec 5
  c : BitVec 4
  w : BitVec 2
deriving DecidableEq, Repr

/-- Floating operation with two sources and a rounding (R352, R360). -/
structure VFp3 where
  d : BitVec 5
  a : BitVec 5
  b : BitVec 5
  str : BitVec 4
  sat : BitVec 1
  rm : BitVec 3
  fmt : BitVec 4
deriving DecidableEq, Repr

/-- Floating operation with one source and a rounding. -/
structure VFp2 where
  d : BitVec 5
  a : BitVec 5
  str : BitVec 4
  sat : BitVec 1
  rm : BitVec 3
  fmt : BitVec 4
deriving DecidableEq, Repr

/-- Floating operation with two sources and no rounding. -/
structure VFmt3 where
  d : BitVec 5
  a : BitVec 5
  b : BitVec 5
  fmt : BitVec 4
deriving DecidableEq, Repr

/-- Floating operation with one source and no rounding. -/
structure VFmt2 where
  d : BitVec 5
  a : BitVec 5
  fmt : BitVec 4
deriving DecidableEq, Repr

/-- Conversion (R362). -/
structure VCvt where
  d : BitVec 5
  a : BitVec 5
  part : BitVec 3
  str : BitVec 4
  sat : BitVec 1
  rm : BitVec 3
  fmt2 : BitVec 4
  fmt : BitVec 4
deriving DecidableEq, Repr

/-- Quantisation to a block format; b receives the entries (R363). -/
structure VQnt where
  d : BitVec 5
  a : BitVec 5
  b : BitVec 5
  part : BitVec 3
  str : BitVec 4
  sat : BitVec 1
  rm : BitVec 3
  fmt : BitVec 4
deriving DecidableEq, Repr

/-- Expansion of blocks (R364). -/
structure VDqnt where
  d : BitVec 5
  a : BitVec 5
  b : BitVec 5
  part : BitVec 3
  str : BitVec 4
  sat : BitVec 1
  rm : BitVec 3
  fmt2 : BitVec 4
  fmt : BitVec 4
deriving DecidableEq, Repr

/-- Floating reduction or scan (R365). -/
structure VRed where
  d : BitVec 5
  a : BitVec 5
  str : BitVec 4
  rm : BitVec 3
  fmt : BitVec 4
deriving DecidableEq, Repr

/-- Element extraction across two registers (R367). -/
structure VExt where
  d : BitVec 5
  a : BitVec 5
  b : BitVec 5
  k : BitVec 7
  w : BitVec 2
deriving DecidableEq, Repr

/-- Row write with the row in K (R371). -/
structure TileRow where
  d : BitVec 5
  t : BitVec 4
  part : BitVec 2
  k : BitVec 7
  w : BitVec 2
deriving DecidableEq, Repr

/-- Row write with the row in a register (R371). -/
structure TileRowReg where
  d : BitVec 5
  t : BitVec 4
  b : BitVec 5
  part : BitVec 2
  w : BitVec 2
deriving DecidableEq, Repr

/-- Vector access without a token (R374, R378). -/
structure VSp where
  d : BitVec 5
  base : BitVec 5
  ix : BitVec 5
  idx : BitVec 1
  g : BitVec 2
  sz : BitVec 2
  cls : BitVec 4
  disp : BitVec 15
deriving DecidableEq, Repr

/-- Vector global load (R378). -/
structure VLoad where
  d : BitVec 5
  base : BitVec 5
  ix : BitVec 5
  idx : BitVec 1
  g : BitVec 2
  sz : BitVec 2
  cls : BitVec 4
  tok : BitVec 3
  u : BitVec 2
  disp : BitVec 15
deriving DecidableEq, Repr

/-- Vector atomic; w is log2(E/8) (R384). -/
structure VAtomic where
  d : BitVec 5
  base : BitVec 5
  w : BitVec 2
  cls : BitVec 4
  disp : BitVec 15
deriving DecidableEq, Repr

/-- Vector of update pairs (R386). -/
structure VUpdArgs where
  d : BitVec 5
  base : BitVec 5
  cls : BitVec 4
  rgn : BitVec 8
deriving DecidableEq, Repr

/-- Pop from the data queue (R387). -/
structure DqPop where
  d : BitVec 5
  z : BitVec 3
  c : BitVec 5
  p : BitVec 5
deriving DecidableEq, Repr

/-- mldb: B tile, scale pair, WW, S (R392). -/
structure MldbArgs where
  a : BitVec 4
  q : BitVec 3
  ww : BitVec 1
  s : BitVec 1
deriving DecidableEq, Repr

/-- mma: accumulator, A tile, AF, WW, OW (R392). -/
structure MmaArgs where
  d : BitVec 2
  a : BitVec 4
  af : BitVec 2
  ww : BitVec 1
  ow : BitVec 1
deriving DecidableEq, Repr

/-- mmas: as mma, with the A scale pair (R392). -/
structure MmasArgs where
  d : BitVec 2
  a : BitVec 4
  q : BitVec 3
  af : BitVec 2
  ww : BitVec 1
  ow : BitVec 1
deriving DecidableEq, Repr

/-- mdrain: tile, accumulator, mode (R392, R400). -/
structure MdrainArgs where
  d : BitVec 4
  a : BitVec 2
  sat : BitVec 1
  rm : BitVec 3
  str : BitVec 4
deriving DecidableEq, Repr

/-- mzacc: accumulator, format, shape minus one (R399). -/
structure MzaccArgs where
  d : BitVec 2
  af : BitVec 2
  rows : BitVec 6
  cols : BitVec 6
deriving DecidableEq, Repr

/-- mcv: tile, pair, roles (R401). -/
structure McvArgs where
  d : BitVec 4
  q : BitVec 3
  ww : BitVec 1
  rb : BitVec 1
  ra : BitVec 1
deriving DecidableEq, Repr

/-- mfill (R403). -/
structure MfillArgs where
  d : BitVec 4
  v : BitVec 24
deriving DecidableEq, Repr

/-- kld, kst (R405, R406). -/
structure KMem where
  d : BitVec 4
  base : BitVec 4
  pos : BitVec 2
  sz : BitVec 2
  cls : BitVec 4
  disp : BitVec 15
deriving DecidableEq, Repr

/-- kfill (R405). -/
structure KfillArgs where
  d : BitVec 4
  v : BitVec 16
deriving DecidableEq, Repr

/-- kspr with an immediate (R405). -/
structure KsprArgs where
  d : BitVec 4
  v : BitVec 8
deriving DecidableEq, Repr

/-- cpy (R412). -/
structure CopyArgs where
  d : BitVec 4
  cls : BitVec 4
  tok : BitVec 3
  u : BitVec 2
deriving DecidableEq, Repr

/-- gath, scat (R412). -/
structure IndexedCopy where
  d : BitVec 4
  ix : BitVec 4
  cls : BitVec 4
  tok : BitVec 3
  u : BitVec 2
deriving DecidableEq, Repr

/-- tldi (R412, R420). -/
structure TileLoad where
  t : BitVec 4
  base : BitVec 4
  trl : BitVec 1
  spc : BitVec 1
  cls : BitVec 4
  tok : BitVec 3
  u : BitVec 2
  disp : BitVec 15
deriving DecidableEq, Repr

/-- tsti (R412, R420). -/
structure TileStore where
  t : BitVec 4
  base : BitVec 4
  trl : BitVec 1
  spc : BitVec 1
  cls : BitVec 4
  tok : BitVec 3
  disp : BitVec 15
deriving DecidableEq, Repr

/-- cpub: index among the plan entries (R422). -/
structure CpubArgs where
  buf : BitVec 10
deriving DecidableEq, Repr

/-- stmap (R423). -/
structure StmapArgs where
  win : BitVec 3
  a : BitVec 4
deriving DecidableEq, Repr

/-- stfl (R424). -/
structure StflArgs where
  inv : BitVec 1
  all : BitVec 1
  win : BitVec 3
  cls : BitVec 4
  tok : BitVec 3
deriving DecidableEq, Repr

/-- chint (R425). -/
structure ChintArgs where
  base : BitVec 4
  un : BitVec 1
  cls : BitVec 4
  pages : BitVec 15
deriving DecidableEq, Repr

/-- cnput, cnget (R426). -/
structure NetCopy where
  d : BitVec 4
  cls : BitVec 4
  tok : BitVec 3
deriving DecidableEq, Repr

/-- dld, dst (R421). -/
structure DescMove where
  d : BitVec 4
  base : BitVec 4
  one : BitVec 1
  word : BitVec 3
  ba : BitVec 1
  cls : BitVec 4
  off : BitVec 15
deriving DecidableEq, Repr

/-- wait: first token and mask (R339). -/
structure WaitArgs where
  a : BitVec 3
  mask : BitVec 8
deriving DecidableEq, Repr

/-- Flag wait: n in PAYLOAD and B (R341). -/
structure FwaitArgs where
  f : BitVec 4
  n : BitVec 16
deriving DecidableEq, Repr

/-- fpost: n minus one (R342). -/
structure FpostArgs where
  f : BitVec 4
  n : BitVec 15
deriving DecidableEq, Repr

/-- fset (R342). -/
structure FsetArgs where
  f : BitVec 4
  v : BitVec 16
deriving DecidableEq, Repr

/-- rpost: target D and B (R343). -/
structure RpostArgs where
  thi : BitVec 5
  f : BitVec 4
  tlo : BitVec 5
  n : BitVec 15
deriving DecidableEq, Repr

/-- rpost with the target in a predicate (R343). -/
structure RpostPred where
  f : BitVec 4
  p : BitVec 4
  n : BitVec 15
deriving DecidableEq, Repr

/-- Barrier number (R344). -/
structure BarrArgs where
  g : BitVec 6
deriving DecidableEq, Repr

/-- fence: kinds, scope, complement of the class mask (R347). -/
structure FenceArgs where
  kind : BitVec 5
  scope : BitVec 3
  ncls : BitVec 16
deriving DecidableEq, Repr

/-- fork: entry, target (R349). -/
structure ForkArgs where
  entry : BitVec 29
  b : BitVec 5
  dyn : BitVec 1
  mem : BitVec 2
deriving DecidableEq, Repr

/-- fprobe: predicate, entry, target (R349). -/
structure FprobeArgs where
  pd : BitVec 4
  entry : BitVec 29
  b : BitVec 5
  dyn : BitVec 1
  mem : BitVec 2
deriving DecidableEq, Repr

/-- Random words (R370). -/
structure VRndArgs where
  d : BitVec 5
  str : BitVec 4
deriving DecidableEq, Repr

/-- Form J: displacement in words (R323). -/
structure Disp where
  disp : BitVec 44
deriving DecidableEq, Repr

/-- jr (R323). -/
structure JrArgs where
  a : BitVec 5
deriving DecidableEq, Repr

/-- mtcfg: tile, source (R327). -/
structure MtcfgArgs where
  t : BitVec 4
  a : BitVec 5
deriving DecidableEq, Repr

/-- mftcfg: destination, tile (R327). -/
structure MftcfgArgs where
  d : BitVec 5
  t : BitVec 4
deriving DecidableEq, Repr

/-- Per-core system-register move (R430). -/
structure SrMove where
  d : BitVec 5
  n : BitVec 10
deriving DecidableEq, Repr

/-- trap (R432). -/
structure TrapArgs where
  imm : BitVec 6
deriving DecidableEq, Repr

/-- One source register. -/
structure OneReg where
  a : BitVec 5
deriving DecidableEq, Repr

/-- Two source registers. -/
structure TwoReg where
  a : BitVec 5
  b : BitVec 5
deriving DecidableEq, Repr

/-- No operand; FN selects. -/
structure ZeroFn where
deriving DecidableEq, Repr

/-- launch (R330). -/
structure LaunchArgs where
  d : BitVec 5
  a : BitVec 5
  b : BitVec 5
deriving DecidableEq, Repr

/-- mtrn, mtcpy: two tiles (R402, R404). -/
structure TilePair where
  d : BitVec 4
  a : BitVec 4
deriving DecidableEq, Repr

/-- kmov, kspr from a register: two k registers (R405). -/
structure KPair where
  d : BitVec 4
  a : BitVec 4
deriving DecidableEq, Repr

/-- Row read of a tile or accumulator with the row in K (R371). -/
structure TileRead where
  d : BitVec 5
  t : BitVec 5
  part : BitVec 2
  k : BitVec 7
  w : BitVec 2
deriving DecidableEq, Repr

/-- Row read with the row in a register (R371). -/
structure TileReadReg where
  d : BitVec 5
  t : BitVec 5
  b : BitVec 5
  part : BitVec 2
  w : BitVec 2
deriving DecidableEq, Repr

/-- xfr: files, registers and element (R322). -/
structure Xfer where
  src : RFile
  dst : RFile
  d : BitVec 5
  a : BitVec 5
  e : BitVec 4
deriving DecidableEq, Repr

/-- dfpk, dfex (R328). -/
structure DescField where
  d : BitVec 5
  a : BitVec 5
  f : FieldSel
deriving DecidableEq, Repr

/-- chk: two registers with their files (R348). -/
structure ChkArgs where
  fa : RFile
  a : BitVec 5
  fb : RFile
  b : BitVec 5
deriving DecidableEq, Repr

/-- A firmware image as it was read: header, body and signature one after the other, and whether flash could be read (R51-R54). -/
structure BootImage where
  bytes : List Byte
  readOk : Bool
deriving DecidableEq, Repr

/-- What an OFT frame asks for or answers (R17, R19, R21). -/
inductive OftBody where
  /-- one run of elements of 2^esz bytes of a put; bit i of `poison` says that byte i is poisoned -/
  | put (win : BitVec 6) (off : Nat) (data : List Byte) (poison : Nat) (esz : BitVec 3) (last : Bool) (post : Option (BitVec 9 × BitVec 4))
  /-- one run of elements of a get, n bytes; `last` marks the last run of the command -/
  | get (win : BitVec 6) (off : Nat) (n : Nat) (esz : BitVec 3) (last : Bool)
  | getResp (data : List Byte) (poison : Nat) (last : Bool)
  | ack
  | nak (cause : BitVec 10)
deriving DecidableEq, Repr

/-- An OFT frame: EtherType, sending node, its number in its stream, by which a duplicate and a gap show (R18, R20), and the command it belongs
to: issuing core, class, number of the command at that core (log 32). -/
structure OftFrame where
  etype : BitVec 16
  src : BitVec 12
  num : Nat
  core : BitVec 9
  cls : BitVec 4
  cmd : Nat
  body : OftBody
deriving DecidableEq, Repr

/-- What a port receives (R16, R25). -/
inductive PortFrame where
  /-- a codeword that the FEC cannot correct -/
  | garbled
  /-- a frame; one whose EtherType is not OFT_ETYPE is no OFT frame -/
  | frame (f : OftFrame)
deriving DecidableEq, Repr

/-- What a rail's regulator reports (R90): the rail, and whether its current is over EFF. -/
structure RailCurrent where
  rail : BitVec 3
  high : Bool
deriving DecidableEq, Repr

/-- What a patrol-scrub step reads (R144, R145, R146); and errors that strike storage which no injection register reaches: a word of a
core's scratchpad (R131), what a core keeps for its rollback (R238). They stand here because the table has no row of their own. -/
inductive ScrubTarget where
  | l2set (slice : Nat) (set : Nat)
  | hbmWord (pa : BitVec 52)
  | spWord (core word : Nat) (uncorrectable : Bool)
  | kept (core : Nat)
  | parity (core line : Nat)
deriving DecidableEq, Repr

/-- One constructor for every row of spec/opcode_table.json, in its order. -/
inductive Instr where
  | packageReset
  | bootImageVerify (img : BootImage)
  | clusterPowerUp (n : BitVec 6)
  | arrayPowerGate (core : Nat)
  | arrayEnable (core : Nat)
  | oftFrameReceive (port : BitVec 3) (f : PortFrame)
  | oftPutFlagIncrement (k : Nat)
  | oftRetransmit (k : Nat)
  | oftAckTimeout (k : Nat)
  | portLinkDown (port : BitVec 3)
  | portLinkUp (port : BitVec 3) (full : Bool)
  | portFailover (node : BitVec 12) (cls : BitVec 4) (port : BitVec 3)
  | portStatClr (port : BitVec 3)
  | portDisable (port : BitVec 3)
  | hostMemRead (pa : BitVec 52) (n : Nat)
  | hostMemWrite (pa : BitVec 52) (data : List Byte)
  | backInvalidateResponse (line : BitVec 46)
  | hostSnoop (line : BitVec 46)
  | hostAccessTimeout (core k : Nat)
  | hostLinkDown
  | hostLinkTrain (width : BitVec 5) (rate : BitVec 8)
  | streamEnable (n : BitVec 6)
  | launchComplete (k : Nat)
  | expPortIsolate
  | expIsolationEnd
  | expPoisonSweepDone
  | expRetrain
  | expLinkChange (up : Bool) (speed : BitVec 2) (capacity : Nat)
  | tier2ReadResponse (pa : BitVec 52) (poison : Bool)
  | bootFromHost (img : List Byte)
  | verifyAndWriteFlash (img : List Byte)
  | attestationRequest (nonce : BitVec 256)
  | keyLoad (k : BitVec 6)
  | keyGen (k : BitVec 6)
  | keyZero (k : BitVec 6)
  | keyCommandComplete (k : BitVec 6)
  | setEndpointId (eid : BitVec 8)
  | getEndpointId
  | getMessageTypeSupport
  | i3cDynamicAddressAssignment (addr : BitVec 7)
  | cap (msg : BitVec 384)
  | readTelemetry
  | dumpStatus
  | alertAcknowledge (kind : BitVec 8)
  | packageFatal (cause : Cause)
  | rotWatchdogExpire
  | thermalTrip
  | dumpWritten
  | dumpRelease
  | settlingWindowEnd (core : Nat)
  | railOvercurrent (rail : BitVec 3)
  | railCeilingLowerStep (rail : RailCurrent)
  | railCeilingRaiseStep (rail : BitVec 3)
  | phaseFail (rail : BitVec 3)
  | thermalCeilingStep (die : BitVec 2) (temp : BitVec 8)
  | grantRecompute (used : Nat)
  | placementDecision
  | chunkStart (core : Nat)
  | tailTileRequest (core : Nat)
  | preemptRequest (core : Nat)
  | preemptGraceExpire (core : Nat)
  | chunkSwitchIn (core : Nat)
  | checkpointBoundOverrun (core : Nat)
  | gangStart (launch : Nat)
  | gangWaitTimeout (launch : Nat)
  | barrierArrival (k : Nat)
  | homeSliceAccess (k : Nat)
  | sliceRetireComplete (slice : Nat)
  | l2FillReturn (pa : BitVec 52)
  | patrolScrub (t : ScrubTarget)
  | blazeMapSave
  | errorInject
  | updatePairAdmit (k : Nat)
  | regionRegisterWrite (off : Nat) (v : Word)
  | bundleIssue (core : Nat)
  | stallBundle (core : Nat)
  | stretchCycle (core : Nat)
  | serviceBundleIssue (core : Nat)
  | handlerStart (core : Nat)
  | serviceTimer (core : Nat)
  | coreResume (core : Nat)
  | contextTerminate (ctx : BitVec 6) (cause : Cause)
  | contextTerminationDone (ctx : BitVec 6)
  | fsqEnable
  | bankFillStart (core : Nat)
  | bankFillDone (core : Nat)
  | sideCarComputeDone (core : Nat)
  | passStart (core : Nat)
  | passDrainDone (core : Nat)
  | tileUnitOpDone (core : Nat)
  | engineCauseReport (core : Nat)
  | copyComplete (core k : Nat)
  | queueLoaderRead (core : Nat)
  | dqEntryFilled (core : Nat)
  | globalLoadComplete (core k : Nat)
  | atomicComplete (core k : Nat)
  | remotePostDeliver (k : Nat)
  | waitlineWake (core k : Nat)
  | waitlineTimeout (core k : Nat)
  | launchAnswer (core : Nat)
  | registerWrite (off : Nat) (v : Word)
  | nop (o : OpInfo)
  | add (o : OpInfo) (r : RRR)
  | sub (o : OpInfo) (r : RRR)
  | and (o : OpInfo) (r : RRR)
  | or (o : OpInfo) (r : RRR)
  | xor (o : OpInfo) (r : RRR)
  | andn (o : OpInfo) (r : RRR)
  | shl (o : OpInfo) (r : RRR)
  | shr (o : OpInfo) (r : RRR)
  | sra (o : OpInfo) (r : RRR)
  | rol (o : OpInfo) (r : RRR)
  | mul (o : OpInfo) (r : RRR)
  | mulhs (o : OpInfo) (r : RRR)
  | mulhu (o : OpInfo) (r : RRR)
  | min (o : OpInfo) (r : RRR)
  | max (o : OpInfo) (r : RRR)
  | minu (o : OpInfo) (r : RRR)
  | maxu (o : OpInfo) (r : RRR)
  | addw (o : OpInfo) (r : RRR)
  | subw (o : OpInfo) (r : RRR)
  | movr (o : OpInfo) (r : RR)
  | addImm (o : OpInfo) (r : RImm)
  | andImm (o : OpInfo) (r : RImm)
  | orImm (o : OpInfo) (r : RImm)
  | xorImm (o : OpInfo) (r : RImm)
  | shlImm (o : OpInfo) (r : RShift)
  | shrImm (o : OpInfo) (r : RShift)
  | sraImm (o : OpInfo) (r : RShift)
  | mulImm (o : OpInfo) (r : RImm)
  | mov (o : OpInfo) (r : RLong)
  | movhi (o : OpInfo) (r : RLong)
  | cmp (o : OpInfo) (r : CmpReg)
  | cmpImm (o : OpInfo) (r : CmpImm)
  | pand (o : OpInfo) (r : PredLogic)
  | por (o : OpInfo) (r : PredLogic)
  | pxor (o : OpInfo) (r : PredLogic)
  | pandn (o : OpInfo) (r : PredLogic)
  | xfr (o : OpInfo) (r : Xfer)
  | br (o : OpInfo) (r : Disp)
  | call (o : OpInfo) (r : Disp)
  | brz (o : OpInfo) (r : BrReg)
  | brnz (o : OpInfo) (r : BrReg)
  | ret (o : OpInfo)
  | jr (o : OpInfo) (r : JrArgs)
  | loop (o : OpInfo) (r : LoopReg)
  | loopi (o : OpInfo) (r : LoopImm)
  | mtcfg (o : OpInfo) (r : MtcfgArgs)
  | mftcfg (o : OpInfo) (r : MftcfgArgs)
  | dfpk (o : OpInfo) (r : DescField)
  | dfex (o : OpInfo) (r : DescField)
  | dfexS (o : OpInfo) (r : DescField)
  | ldsp (o : OpInfo) (r : SpLoad)
  | stsp (o : OpInfo) (r : SpStore)
  | ld (o : OpInfo) (r : GlLoad)
  | st (o : OpInfo) (r : SpStore)
  | atomAdd (o : OpInfo) (r : Atomic)
  | atomAnd (o : OpInfo) (r : Atomic)
  | atomOr (o : OpInfo) (r : Atomic)
  | atomXor (o : OpInfo) (r : Atomic)
  | atomSmin (o : OpInfo) (r : Atomic)
  | atomSmax (o : OpInfo) (r : Atomic)
  | atomUmin (o : OpInfo) (r : Atomic)
  | atomUmax (o : OpInfo) (r : Atomic)
  | atomSwap (o : OpInfo) (r : Atomic)
  | atomCas (o : OpInfo) (r : Atomic)
  | atomBfi (o : OpInfo) (r : BitAtomic)
  | atomFfcs (o : OpInfo) (r : BitAtomic)
  | atomPlset (o : OpInfo) (r : PlsetArgs)
  | upd (o : OpInfo) (r : UpdArgs)
  | pref (o : OpInfo) (r : PrefArgs)
  | waitline (o : OpInfo) (r : WaitlineArgs)
  | launch (o : OpInfo) (r : LaunchArgs)
  | exit (o : OpInfo)
  | mfsr (o : OpInfo) (r : SrMove)
  | mfsrIo (o : OpInfo) (r : IoMove)
  | mtsr (o : OpInfo) (r : SrMove)
  | mtsrIo (o : OpInfo) (r : IoMove)
  | trap (o : OpInfo) (r : TrapArgs)
  | eret (o : OpInfo)
  | sret (o : OpInfo)
  | tlbiAll (o : OpInfo) (r : ZeroFn)
  | tlbiCtx (o : OpInfo) (r : OneReg)
  | tlbiPage (o : OpInfo) (r : TwoReg)
  | cmntIcinv (o : OpInfo) (r : ZeroFn)
  | cmntIcinvPkg (o : OpInfo) (r : ZeroFn)
  | cmntSdcinv (o : OpInfo) (r : ZeroFn)
  | cmntWbctx (o : OpInfo) (r : OneReg)
  | cadv (o : OpInfo) (r : CadvArgs)
  | popc (o : OpInfo) (r : RR)
  | clz (o : OpInfo) (r : RR)
  | ctz (o : OpInfo) (r : RR)
  | bscan (o : OpInfo) (r : RRR)
  | bscanc (o : OpInfo) (r : RRR)
  | aqp (o : OpInfo) (r : AqPush)
  | aqpIdx (o : OpInfo) (r : AqPushIdx)
  | aqps (o : OpInfo) (r : AqRun)
  | vadd (o : OpInfo) (r : VInt3)
  | vsub (o : OpInfo) (r : VInt3)
  | vmul (o : OpInfo) (r : VInt3)
  | vmulhs (o : OpInfo) (r : VInt3)
  | vmulhu (o : OpInfo) (r : VInt3)
  | vmin (o : OpInfo) (r : VInt3)
  | vmax (o : OpInfo) (r : VInt3)
  | vminu (o : OpInfo) (r : VInt3)
  | vmaxu (o : OpInfo) (r : VInt3)
  | vadds (o : OpInfo) (r : VInt3)
  | vsubs (o : OpInfo) (r : VInt3)
  | vaddus (o : OpInfo) (r : VInt3)
  | vsubus (o : OpInfo) (r : VInt3)
  | vabs (o : OpInfo) (r : VInt2)
  | vneg (o : OpInfo) (r : VInt2)
  | vand (o : OpInfo) (r : VInt3)
  | vor (o : OpInfo) (r : VInt3)
  | vxor (o : OpInfo) (r : VInt3)
  | vandn (o : OpInfo) (r : VInt3)
  | vmov (o : OpInfo) (r : VInt2)
  | vmulq (o : OpInfo) (r : VInt3)
  | vmac (o : OpInfo) (r : VInt3)
  | vmacs (o : OpInfo) (r : VInt3)
  | vmacwl (o : OpInfo) (r : VInt3)
  | vmacwh (o : OpInfo) (r : VInt3)
  | vshl (o : OpInfo) (r : VInt3)
  | vshr (o : OpInfo) (r : VInt3)
  | vsra (o : OpInfo) (r : VInt3)
  | vrol (o : OpInfo) (r : VInt3)
  | vshlImm (o : OpInfo) (r : VIntK)
  | vshrImm (o : OpInfo) (r : VIntK)
  | vsraImm (o : OpInfo) (r : VIntK)
  | vrolImm (o : OpInfo) (r : VIntK)
  | vcmp (o : OpInfo) (r : VCmp)
  | vfcmp (o : OpInfo) (r : VFCmp)
  | vsel (o : OpInfo) (r : VSel)
  | vfadd (o : OpInfo) (r : VFp3)
  | vfsub (o : OpInfo) (r : VFp3)
  | vfmul (o : OpInfo) (r : VFp3)
  | vfdiv (o : OpInfo) (r : VFp3)
  | vfsqrt (o : OpInfo) (r : VFp2)
  | vfmin (o : OpInfo) (r : VFmt3)
  | vfmax (o : OpInfo) (r : VFmt3)
  | vfabs (o : OpInfo) (r : VFmt2)
  | vfneg (o : OpInfo) (r : VFmt2)
  | vfma (o : OpInfo) (r : VFp3)
  | vfms (o : OpInfo) (r : VFp3)
  | vfnma (o : OpInfo) (r : VFp3)
  | vfnms (o : OpInfo) (r : VFp3)
  | vcvt (o : OpInfo) (r : VCvt)
  | vqntE2m1s (o : OpInfo) (r : VQnt)
  | vqntE4m3 (o : OpInfo) (r : VQnt)
  | vqntE5m2 (o : OpInfo) (r : VQnt)
  | vdqnt (o : OpInfo) (r : VDqnt)
  | vradd (o : OpInfo) (r : VInt2)
  | vrmin (o : OpInfo) (r : VInt2)
  | vrmax (o : OpInfo) (r : VInt2)
  | vrminu (o : OpInfo) (r : VInt2)
  | vrmaxu (o : OpInfo) (r : VInt2)
  | vrand (o : OpInfo) (r : VInt2)
  | vror (o : OpInfo) (r : VInt2)
  | vrxor (o : OpInfo) (r : VInt2)
  | vrfadd (o : OpInfo) (r : VRed)
  | vrfmin (o : OpInfo) (r : VRed)
  | vrfmax (o : OpInfo) (r : VRed)
  | vscanadd (o : OpInfo) (r : VInt2)
  | vscanaddx (o : OpInfo) (r : VInt2)
  | vscanmax (o : OpInfo) (r : VInt2)
  | vscanmin (o : OpInfo) (r : VInt2)
  | vscanmaxu (o : OpInfo) (r : VInt2)
  | vscanminu (o : OpInfo) (r : VInt2)
  | vscanfadd (o : OpInfo) (r : VRed)
  | vperm (o : OpInfo) (r : VInt3)
  | vrot (o : OpInfo) (r : VIntK)
  | vext (o : OpInfo) (r : VExt)
  | vzipl (o : OpInfo) (r : VInt3)
  | vziph (o : OpInfo) (r : VInt3)
  | vuzpe (o : OpInfo) (r : VInt3)
  | vuzpo (o : OpInfo) (r : VInt3)
  | vsplat (o : OpInfo) (r : VIntK)
  | vrev (o : OpInfo) (r : VInt2)
  | vrcp (o : OpInfo) (r : VFp2)
  | vrsqrt (o : OpInfo) (r : VFp2)
  | vexp2 (o : OpInfo) (r : VFp2)
  | vlog2 (o : OpInfo) (r : VFp2)
  | vsinpi (o : OpInfo) (r : VFp2)
  | vcospi (o : OpInfo) (r : VFp2)
  | vtanh (o : OpInfo) (r : VFp2)
  | vsigm (o : OpInfo) (r : VFp2)
  | vrnd (o : OpInfo) (r : VRndArgs)
  | vbcast (o : OpInfo) (r : RLong)
  | vtrd (o : OpInfo) (r : TileRead)
  | vtrdReg (o : OpInfo) (r : TileReadReg)
  | vtwr (o : OpInfo) (r : TileRow)
  | vtwrReg (o : OpInfo) (r : TileRowReg)
  | vldsp (o : OpInfo) (r : VSp)
  | vstsp (o : OpInfo) (r : VSp)
  | vld (o : OpInfo) (r : VLoad)
  | vst (o : OpInfo) (r : VSp)
  | vamoAdd (o : OpInfo) (r : VAtomic)
  | vamoAnd (o : OpInfo) (r : VAtomic)
  | vamoOr (o : OpInfo) (r : VAtomic)
  | vamoXor (o : OpInfo) (r : VAtomic)
  | vamoSmin (o : OpInfo) (r : VAtomic)
  | vamoSmax (o : OpInfo) (r : VAtomic)
  | vamoUmin (o : OpInfo) (r : VAtomic)
  | vamoUmax (o : OpInfo) (r : VAtomic)
  | vamoSwap (o : OpInfo) (r : VAtomic)
  | vupd (o : OpInfo) (r : VUpdArgs)
  | dqpop (o : OpInfo) (r : DqPop)
  | mldb (o : OpInfo) (r : MldbArgs)
  | mswap (o : OpInfo)
  | mma (o : OpInfo) (r : MmaArgs)
  | mmas (o : OpInfo) (r : MmasArgs)
  | mdrain (o : OpInfo) (r : MdrainArgs)
  | mzacc (o : OpInfo) (r : MzaccArgs)
  | mcv (o : OpInfo) (r : McvArgs)
  | mtrn (o : OpInfo) (r : TilePair)
  | mfill (o : OpInfo) (r : MfillArgs)
  | mtcpy (o : OpInfo) (r : TilePair)
  | kld (o : OpInfo) (r : KMem)
  | kst (o : OpInfo) (r : KMem)
  | kmov (o : OpInfo) (r : KPair)
  | kfill (o : OpInfo) (r : KfillArgs)
  | kspr (o : OpInfo) (r : KsprArgs)
  | ksprReg (o : OpInfo) (r : KPair)
  | cpy (o : OpInfo) (r : CopyArgs)
  | gath (o : OpInfo) (r : IndexedCopy)
  | scat (o : OpInfo) (r : IndexedCopy)
  | tldi (o : OpInfo) (r : TileLoad)
  | tsti (o : OpInfo) (r : TileStore)
  | cpub (o : OpInfo) (r : CpubArgs)
  | stmap (o : OpInfo) (r : StmapArgs)
  | stfl (o : OpInfo) (r : StflArgs)
  | chint (o : OpInfo) (r : ChintArgs)
  | cnput (o : OpInfo) (r : NetCopy)
  | cnget (o : OpInfo) (r : NetCopy)
  | dld (o : OpInfo) (r : DescMove)
  | dst (o : OpInfo) (r : DescMove)
  | wait (o : OpInfo) (r : WaitArgs)
  | fwait (o : OpInfo) (r : FwaitArgs)
  | fwaitC (o : OpInfo) (r : FwaitArgs)
  | fwaitEq (o : OpInfo) (r : FwaitArgs)
  | fpost (o : OpInfo) (r : FpostArgs)
  | fset (o : OpInfo) (r : FsetArgs)
  | rpost (o : OpInfo) (r : RpostArgs)
  | rpostRel (o : OpInfo) (r : RpostArgs)
  | rpostPred (o : OpInfo) (r : RpostPred)
  | barr (o : OpInfo) (r : BarrArgs)
  | bwait (o : OpInfo) (r : BarrArgs)
  | rdv (o : OpInfo) (r : BarrArgs)
  | fence (o : OpInfo) (r : FenceArgs)
  | chk (o : OpInfo) (r : ChkArgs)
  | fork (o : OpInfo) (r : ForkArgs)
  | fprobe (o : OpInfo) (r : FprobeArgs)
  | fprobeF (o : OpInfo) (r : FprobeArgs)
  | hostLineCacheFill (line : BitVec 46) (excl : Bool) (data : List Byte)
  | powerLoss
deriving DecidableEq, Repr

end Sys2Proof
end

