-- ==== Sys2Proof/WellFormed.lean ====
section
/-! DEFINITION. Which terms of Instr are instructions: the selectors, reserved fields and register files of R298-R303. -/
namespace Sys2Proof

/-- A register field of the S or X slot: x0-x15 in the X slot, e0-e7 on the service sequencer (R196, R302, R315). -/
def gprOk (sl : Slot) (svc : Bool) (r : BitVec 5) : Bool :=
  if svc then decide (r < 8#5) else (sl != .x || decide (r < 16#5))

/-- A register of one of the five files of R322 (R302). -/
def fileOk (f : RFile) (r : BitVec 5) : Bool :=
  match f with
  | .s | .v => true
  | .x | .k | .p => decide (r < 16#5)

/-- v and k are 1,024 bits wide; s, x and p are 64 bits wide (R322, R348). -/
def RFile.wide : RFile → Bool
  | .v | .k => true
  | .s | .x | .p => false

/-- The limits of an operand structure, in the order of R303: selectors that the table lists, fields that the other fields
leave reserved, register fields within their files. -/
structure Limits (α : Type) where
  sel : α → Bool := fun _ => true
  res : Bool → α → Bool := fun _ _ => true
  regs : Slot → Bool → α → Bool := fun _ _ _ => true

/-- All limits together. -/
def Limits.ok {α : Type} (l : Limits α) (sl : Slot) (svc : Bool) (r : α) : Bool := l.sel r && l.res svc r && l.regs sl svc r

def RRR.limits : Limits RRR := { regs := fun sl svc r => gprOk sl svc r.d && gprOk sl svc r.a && gprOk sl svc r.b }
def RR.limits : Limits RR := { regs := fun sl svc r => gprOk sl svc r.d && gprOk sl svc r.a }
def RImm.limits : Limits RImm := { regs := fun sl svc r => gprOk sl svc r.d && gprOk sl svc r.a }
def RShift.limits : Limits RShift := { regs := fun sl svc r => gprOk sl svc r.d && gprOk sl svc r.a }
def RLong.limits : Limits RLong := { regs := fun sl svc r => gprOk sl svc r.d }
def CmpReg.limits : Limits CmpReg := { sel := fun r => r.cc < 12#4, regs := fun sl svc r => gprOk sl svc r.a && gprOk sl svc r.b }
def CmpImm.limits : Limits CmpImm := { sel := fun r => r.cc < 12#4, regs := fun sl svc r => gprOk sl svc r.a }
def PredLogic.limits : Limits PredLogic := {}
def BrReg.limits : Limits BrReg := { regs := fun sl svc r => gprOk sl svc r.a }
def LoopReg.limits : Limits LoopReg := { regs := fun sl svc r => gprOk sl svc r.a }
def LoopImm.limits : Limits LoopImm := {}
def SpLoad.limits : Limits SpLoad := { sel := fun r => r.am != 3#2 && !(r.sx == 1#1 && r.z == 3#2), res := fun _ r => (r.am == 1#2 || r.ix == 0#5) && (r.am != 2#2 || r.base == 0#5), regs := fun sl svc r => gprOk sl svc r.d && gprOk sl svc r.base && gprOk sl svc r.ix }
def SpStore.limits : Limits SpStore := { sel := fun r => r.am != 3#2, res := fun _ r => (r.am == 1#2 || r.ix == 0#5) && (r.am != 2#2 || r.base == 0#5), regs := fun sl svc r => gprOk sl svc r.d && gprOk sl svc r.base && gprOk sl svc r.ix }
def GlLoad.limits : Limits GlLoad := { sel := fun r => r.am != 3#2 && !(r.sx == 1#1 && r.z == 3#2), res := fun svc r => (r.am == 1#2 || r.ix == 0#5) && (r.am != 2#2 || r.base == 0#5) && (!svc || r.tok == 0#3), regs := fun sl svc r => gprOk sl svc r.d && gprOk sl svc r.base && gprOk sl svc r.ix }
def Atomic.limits : Limits Atomic := { res := fun svc r => (!svc || r.tok == 0#3), regs := fun sl svc r => gprOk sl svc r.d && gprOk sl svc r.base && gprOk sl svc r.a }
def BitAtomic.limits : Limits BitAtomic := { res := fun svc r => (!svc || r.tok == 0#3), regs := fun sl svc r => gprOk sl svc r.d && gprOk sl svc r.base && gprOk sl svc r.a }
def PlsetArgs.limits : Limits PlsetArgs := { res := fun svc r => (!svc || r.tok == 0#3), regs := fun sl svc r => gprOk sl svc r.d && gprOk sl svc r.base && gprOk sl svc r.a }
def UpdArgs.limits : Limits UpdArgs := { regs := fun sl svc r => gprOk sl svc r.d && gprOk sl svc r.base && gprOk sl svc r.ix }
def PrefArgs.limits : Limits PrefArgs := { sel := fun r => r.lvl < 2#2, regs := fun sl svc r => gprOk sl svc r.base }
def WaitlineArgs.limits : Limits WaitlineArgs := { regs := fun sl svc r => gprOk sl svc r.d && gprOk sl svc r.base && gprOk sl svc r.ix }
def IoMove.limits : Limits IoMove := { regs := fun sl svc r => gprOk sl svc r.d && gprOk sl svc r.a }
def CadvArgs.limits : Limits CadvArgs := { regs := fun sl svc r => gprOk sl svc r.d && gprOk sl svc r.a && gprOk sl svc r.b && (!svc || r.pd == 0#4) }
def AqPush.limits : Limits AqPush := { sel := fun r => r.z < 6#3 }
def AqPushIdx.limits : Limits AqPushIdx := { sel := fun r => r.z < 6#3 }
def AqRun.limits : Limits AqRun := { sel := fun r => r.z < 6#3 }
def VInt3.limits : Limits VInt3 := {}
def VInt2.limits : Limits VInt2 := {}
def VIntK.limits : Limits VIntK := {}
def VCmp.limits : Limits VCmp := { sel := fun r => r.cc < 12#4 }
def VFCmp.limits : Limits VFCmp := { sel := fun r => r.cc < 8#4 }
def VSel.limits : Limits VSel := {}
def VFp3.limits : Limits VFp3 := { res := fun _ r => (r.rm == 5#3 || r.str == 0#4) }
def VFp2.limits : Limits VFp2 := { res := fun _ r => (r.rm == 5#3 || r.str == 0#4) }
def VFmt3.limits : Limits VFmt3 := {}
def VFmt2.limits : Limits VFmt2 := {}
def VCvt.limits : Limits VCvt := { res := fun _ r => (r.rm == 5#3 || r.str == 0#4) }
def VQnt.limits : Limits VQnt := { res := fun _ r => (r.rm == 5#3 || r.str == 0#4) }
def VDqnt.limits : Limits VDqnt := { res := fun _ r => (r.rm == 5#3 || r.str == 0#4) }
def VRed.limits : Limits VRed := { res := fun _ r => (r.rm == 5#3 || r.str == 0#4) }
def VExt.limits : Limits VExt := {}
def TileRow.limits : Limits TileRow := {}
def TileRowReg.limits : Limits TileRowReg := {}
def VSp.limits : Limits VSp := { sel := fun r => r.sz != 3#2, res := fun _ r => (r.idx == 1#1 || r.ix == 0#5) }
def VLoad.limits : Limits VLoad := { sel := fun r => r.sz != 3#2, res := fun _ r => (r.idx == 1#1 || r.ix == 0#5) }
def VAtomic.limits : Limits VAtomic := {}
def VUpdArgs.limits : Limits VUpdArgs := {}
def DqPop.limits : Limits DqPop := { sel := fun r => r.z < 6#3 }
def MldbArgs.limits : Limits MldbArgs := { res := fun _ r => (r.s == 1#1 || r.q == 0#3) }
def MmaArgs.limits : Limits MmaArgs := { sel := fun r => r.af != 0#2 }
def MmasArgs.limits : Limits MmasArgs := { sel := fun r => r.af != 0#2 }
def MdrainArgs.limits : Limits MdrainArgs := { res := fun _ r => (r.rm == 5#3 || r.str == 0#4) }
def MzaccArgs.limits : Limits MzaccArgs := { sel := fun r => r.af != 0#2 }
def McvArgs.limits : Limits McvArgs := { sel := fun r => (r.ra == 1#1 || r.rb == 1#1) }
def MfillArgs.limits : Limits MfillArgs := {}
def KMem.limits : Limits KMem := { sel := fun r => r.sz != 3#2 }
def KfillArgs.limits : Limits KfillArgs := {}
def KsprArgs.limits : Limits KsprArgs := {}
def CopyArgs.limits : Limits CopyArgs := {}
def IndexedCopy.limits : Limits IndexedCopy := {}
def TileLoad.limits : Limits TileLoad := {}
def TileStore.limits : Limits TileStore := {}
def CpubArgs.limits : Limits CpubArgs := {}
def StmapArgs.limits : Limits StmapArgs := {}
def StflArgs.limits : Limits StflArgs := { res := fun _ r => (r.all == 0#1 || r.win == 0#3) }
def ChintArgs.limits : Limits ChintArgs := {}
def NetCopy.limits : Limits NetCopy := {}
def DescMove.limits : Limits DescMove := { res := fun _ r => (r.ba == 1#1 || r.base == 0#4) && (r.one == 1#1 || r.word == 0#3) }
def WaitArgs.limits : Limits WaitArgs := {}
def FwaitArgs.limits : Limits FwaitArgs := {}
def FpostArgs.limits : Limits FpostArgs := {}
def FsetArgs.limits : Limits FsetArgs := {}
def RpostArgs.limits : Limits RpostArgs := {}
def RpostPred.limits : Limits RpostPred := { regs := fun _ svc r => (!svc || r.p == 0#4) }
def BarrArgs.limits : Limits BarrArgs := {}
def FenceArgs.limits : Limits FenceArgs := { res := fun _ r => r.scope < 5#3 }
def ForkArgs.limits : Limits ForkArgs := { res := fun _ r => (if r.dyn == 1#1 then r.b < 16#5 else r.b == 0#5) }
def FprobeArgs.limits : Limits FprobeArgs := { res := fun _ r => (if r.dyn == 1#1 then r.b < 16#5 else r.b == 0#5) }
def VRndArgs.limits : Limits VRndArgs := {}
def Disp.limits : Limits Disp := {}
def JrArgs.limits : Limits JrArgs := { regs := fun sl svc r => gprOk sl svc r.a }
def MtcfgArgs.limits : Limits MtcfgArgs := { regs := fun sl svc r => gprOk sl svc r.a }
def MftcfgArgs.limits : Limits MftcfgArgs := { regs := fun sl svc r => gprOk sl svc r.d }
def SrMove.limits : Limits SrMove := { regs := fun sl svc r => gprOk sl svc r.d }
def TrapArgs.limits : Limits TrapArgs := {}
def OneReg.limits : Limits OneReg := { regs := fun sl svc r => gprOk sl svc r.a }
def TwoReg.limits : Limits TwoReg := { regs := fun sl svc r => gprOk sl svc r.a && gprOk sl svc r.b }
def ZeroFn.limits : Limits ZeroFn := {}
def LaunchArgs.limits : Limits LaunchArgs := { regs := fun sl svc r => gprOk sl svc r.d && gprOk sl svc r.a && gprOk sl svc r.b }
def TilePair.limits : Limits TilePair := {}
def KPair.limits : Limits KPair := {}
def TileRead.limits : Limits TileRead := { res := fun _ r => r.t < 20#5 }
def TileReadReg.limits : Limits TileReadReg := { res := fun _ r => r.t < 20#5 }
def Xfer.limits : Limits Xfer :=
  { sel := fun r => r.src != r.dst
    res := fun _ r => r.src.wide != r.dst.wide || r.e == 0#4
    regs := fun _ _ r => fileOk r.dst r.d && fileOk r.src r.a }
def DescField.limits : Limits DescField :=
  { regs := fun sl svc r => gprOk sl svc r.d && gprOk sl svc r.a && (match r.f with | .imm _ _ => true | .reg b => gprOk sl svc b) }
def ChkArgs.limits : Limits ChkArgs :=
  { sel := fun r => r.fa.wide == r.fb.wide
    regs := fun _ _ r => fileOk r.fa r.a && fileOk r.fb r.b }

/-- The field is an immediate: it stands in the extension word, so an operation with an arrival has no register form (R328). -/
def FieldSel.isImm : FieldSel → Bool
  | .imm _ _ => true
  | .reg _ => false

/-- The guard and the arrival (R196, R298, R299): PN = 0 with PI = 1 is reserved; the service sequencer has p0 alone and no arrival. -/
def OpInfo.ok (svc : Bool) (slots : List Slot) (o : OpInfo) : Bool :=
  slots.contains o.slot && !(o.pn == 0#4 && o.pi) && (!svc || (o.pn == 0#4 && o.arr.isNone))

/-- Well-formedness on a main sequencer (svc = false) or on a service sequencer (svc = true). Events are well formed when the
agent they name exists (R4, R22, R150). -/
def WellFormed (svc : Bool) : Instr → Bool
  | .packageReset => true
  | .bootImageVerify _ => true
  | .clusterPowerUp _ => true
  | .arrayPowerGate core => decide (core < 264)
  | .arrayEnable core => decide (core < 264)
  | .oftFrameReceive _ _ => true
  | .oftPutFlagIncrement _ => true
  | .oftRetransmit _ => true
  | .oftAckTimeout _ => true
  | .portLinkDown _ => true
  | .portLinkUp _ _ => true
  | .portFailover _ _ _ => true
  | .portStatClr _ => true
  | .portDisable _ => true
  | .hostMemRead _ _ => true
  | .hostMemWrite _ _ => true
  | .backInvalidateResponse _ => true
  | .hostSnoop _ => true
  | .hostAccessTimeout core _ => decide (core < 264)
  | .hostLinkDown => true
  | .hostLinkTrain _ _ => true
  | .streamEnable _ => true
  | .launchComplete _ => true
  | .expPortIsolate => true
  | .expIsolationEnd => true
  | .expPoisonSweepDone => true
  | .expRetrain => true
  | .expLinkChange _ _ _ => true
  | .tier2ReadResponse _ _ => true
  | .bootFromHost _ => true
  | .verifyAndWriteFlash _ => true
  | .attestationRequest _ => true
  | .keyLoad _ => true
  | .keyGen _ => true
  | .keyZero _ => true
  | .keyCommandComplete _ => true
  | .setEndpointId _ => true
  | .getEndpointId => true
  | .getMessageTypeSupport => true
  | .i3cDynamicAddressAssignment _ => true
  | .cap _ => true
  | .readTelemetry => true
  | .dumpStatus => true
  | .alertAcknowledge _ => true
  | .packageFatal _ => true
  | .rotWatchdogExpire => true
  | .thermalTrip => true
  | .dumpWritten => true
  | .dumpRelease => true
  | .settlingWindowEnd core => decide (core < 264)
  | .railOvercurrent rail => decide (rail < 7#3)
  | .railCeilingLowerStep rail => decide (rail.rail < 7#3)
  | .railCeilingRaiseStep rail => decide (rail < 7#3)
  | .phaseFail rail => decide (rail < 7#3)
  | .thermalCeilingStep _ _ => true
  | .grantRecompute _ => true
  | .placementDecision => true
  | .chunkStart core => decide (core < 264)
  | .tailTileRequest core => decide (core < 264)
  | .preemptRequest core => decide (core < 264)
  | .preemptGraceExpire core => decide (core < 264)
  | .chunkSwitchIn core => decide (core < 264)
  | .checkpointBoundOverrun core => decide (core < 264)
  | .gangStart _ => true
  | .gangWaitTimeout _ => true
  | .barrierArrival _ => true
  | .homeSliceAccess _ => true
  | .sliceRetireComplete slice => decide (slice < 192)
  | .l2FillReturn _ => true
  | .patrolScrub t => match t with
    | .spWord core word _ => decide (core < 264) && decide (word < 131072)
    | .kept core => decide (core < 264)
    | .parity core line => decide (core < 264 ∧ line < 2 ^ 46)
    | _ => true
  | .blazeMapSave => true
  | .errorInject => true
  | .updatePairAdmit _ => true
  | .regionRegisterWrite off _ => decide (off < 1048576) && off % 8 == 0
  | .bundleIssue core => decide (core < 264)
  | .stallBundle core => decide (core < 264)
  | .stretchCycle core => decide (core < 264)
  | .serviceBundleIssue core => decide (core < 264)
  | .handlerStart core => decide (core < 264)
  | .serviceTimer core => decide (core < 264)
  | .coreResume core => decide (core < 264)
  | .contextTerminate _ _ => true
  | .contextTerminationDone _ => true
  | .fsqEnable => true
  | .bankFillStart core => decide (core < 264)
  | .bankFillDone core => decide (core < 264)
  | .sideCarComputeDone core => decide (core < 264)
  | .passStart core => decide (core < 264)
  | .passDrainDone core => decide (core < 264)
  | .tileUnitOpDone core => decide (core < 264)
  | .engineCauseReport core => decide (core < 264)
  | .copyComplete core _ => decide (core < 264)
  | .queueLoaderRead core => decide (core < 264)
  | .dqEntryFilled core => decide (core < 264)
  | .globalLoadComplete core _ => decide (core < 264)
  | .atomicComplete core _ => decide (core < 264)
  | .remotePostDeliver _ => true
  | .waitlineWake core _ => decide (core < 264)
  | .waitlineTimeout core _ => decide (core < 264)
  | .launchAnswer core => decide (core < 264)
  | .registerWrite off _ => decide (off < 2 ^ 28) && off % 8 == 0
  | .nop o => o.ok svc [.s, .x]
  | .add o r => o.ok svc [.s, .x] && RRR.limits.ok o.slot svc r
  | .sub o r => o.ok svc [.s, .x] && RRR.limits.ok o.slot svc r
  | .and o r => o.ok svc [.s, .x] && RRR.limits.ok o.slot svc r
  | .or o r => o.ok svc [.s, .x] && RRR.limits.ok o.slot svc r
  | .xor o r => o.ok svc [.s, .x] && RRR.limits.ok o.slot svc r
  | .andn o r => o.ok svc [.s, .x] && RRR.limits.ok o.slot svc r
  | .shl o r => o.ok svc [.s, .x] && RRR.limits.ok o.slot svc r
  | .shr o r => o.ok svc [.s, .x] && RRR.limits.ok o.slot svc r
  | .sra o r => o.ok svc [.s, .x] && RRR.limits.ok o.slot svc r
  | .rol o r => o.ok svc [.s, .x] && RRR.limits.ok o.slot svc r
  | .mul o r => o.ok svc [.s, .x] && RRR.limits.ok o.slot svc r
  | .mulhs o r => o.ok svc [.s, .x] && RRR.limits.ok o.slot svc r
  | .mulhu o r => o.ok svc [.s, .x] && RRR.limits.ok o.slot svc r
  | .min o r => o.ok svc [.s, .x] && RRR.limits.ok o.slot svc r
  | .max o r => o.ok svc [.s, .x] && RRR.limits.ok o.slot svc r
  | .minu o r => o.ok svc [.s, .x] && RRR.limits.ok o.slot svc r
  | .maxu o r => o.ok svc [.s, .x] && RRR.limits.ok o.slot svc r
  | .addw o r => o.ok svc [.s, .x] && RRR.limits.ok o.slot svc r
  | .subw o r => o.ok svc [.s, .x] && RRR.limits.ok o.slot svc r
  | .movr o r => o.ok svc [.s, .x] && RR.limits.ok o.slot svc r
  | .addImm o r => o.ok svc [.s, .x] && RImm.limits.ok o.slot svc r
  | .andImm o r => o.ok svc [.s, .x] && RImm.limits.ok o.slot svc r
  | .orImm o r => o.ok svc [.s, .x] && RImm.limits.ok o.slot svc r
  | .xorImm o r => o.ok svc [.s, .x] && RImm.limits.ok o.slot svc r
  | .shlImm o r => o.ok svc [.s, .x] && RShift.limits.ok o.slot svc r
  | .shrImm o r => o.ok svc [.s, .x] && RShift.limits.ok o.slot svc r
  | .sraImm o r => o.ok svc [.s, .x] && RShift.limits.ok o.slot svc r
  | .mulImm o r => o.ok svc [.s, .x] && RImm.limits.ok o.slot svc r
  | .mov o r => o.ok svc [.s, .x] && RLong.limits.ok o.slot svc r
  | .movhi o r => o.ok svc [.s, .x] && RLong.limits.ok o.slot svc r
  | .cmp o r => o.ok svc [.s, .x] && CmpReg.limits.ok o.slot svc r
  | .cmpImm o r => o.ok svc [.s, .x] && CmpImm.limits.ok o.slot svc r
  | .pand o r => o.ok svc [.s] && PredLogic.limits.ok o.slot svc r
  | .por o r => o.ok svc [.s] && PredLogic.limits.ok o.slot svc r
  | .pxor o r => o.ok svc [.s] && PredLogic.limits.ok o.slot svc r
  | .pandn o r => o.ok svc [.s] && PredLogic.limits.ok o.slot svc r
  | .xfr o r => o.ok svc [.s] && Xfer.limits.ok o.slot svc r
  | .br o r => o.ok svc [.s] && Disp.limits.ok o.slot svc r
  | .call o r => o.ok svc [.s] && Disp.limits.ok o.slot svc r
  | .brz o r => o.ok svc [.s] && BrReg.limits.ok o.slot svc r
  | .brnz o r => o.ok svc [.s] && BrReg.limits.ok o.slot svc r
  | .ret o => o.ok svc [.s]
  | .jr o r => o.ok svc [.s] && JrArgs.limits.ok o.slot svc r
  | .loop o r => o.ok svc [.s] && LoopReg.limits.ok o.slot svc r
  | .loopi o r => o.ok svc [.s] && LoopImm.limits.ok o.slot svc r
  | .mtcfg o r => o.ok svc [.s] && MtcfgArgs.limits.ok o.slot svc r
  | .mftcfg o r => o.ok svc [.s] && MftcfgArgs.limits.ok o.slot svc r
  | .dfpk o r => o.ok svc [.s] && DescField.limits.ok o.slot svc r && (r.f.isImm || o.arr.isNone)
  | .dfex o r => o.ok svc [.s] && DescField.limits.ok o.slot svc r && (r.f.isImm || o.arr.isNone)
  | .dfexS o r => o.ok svc [.s] && DescField.limits.ok o.slot svc r && (r.f.isImm || o.arr.isNone)
  | .ldsp o r => o.ok svc [.s] && SpLoad.limits.ok o.slot svc r
  | .stsp o r => o.ok svc [.s] && SpStore.limits.ok o.slot svc r
  | .ld o r => o.ok svc [.s] && GlLoad.limits.ok o.slot svc r
  | .st o r => o.ok svc [.s] && SpStore.limits.ok o.slot svc r
  | .atomAdd o r => o.ok svc [.s] && Atomic.limits.ok o.slot svc r
  | .atomAnd o r => o.ok svc [.s] && Atomic.limits.ok o.slot svc r
  | .atomOr o r => o.ok svc [.s] && Atomic.limits.ok o.slot svc r
  | .atomXor o r => o.ok svc [.s] && Atomic.limits.ok o.slot svc r
  | .atomSmin o r => o.ok svc [.s] && Atomic.limits.ok o.slot svc r
  | .atomSmax o r => o.ok svc [.s] && Atomic.limits.ok o.slot svc r
  | .atomUmin o r => o.ok svc [.s] && Atomic.limits.ok o.slot svc r
  | .atomUmax o r => o.ok svc [.s] && Atomic.limits.ok o.slot svc r
  | .atomSwap o r => o.ok svc [.s] && Atomic.limits.ok o.slot svc r
  | .atomCas o r => o.ok svc [.s] && Atomic.limits.ok o.slot svc r
  | .atomBfi o r => o.ok svc [.s] && BitAtomic.limits.ok o.slot svc r
  | .atomFfcs o r => o.ok svc [.s] && BitAtomic.limits.ok o.slot svc r
  | .atomPlset o r => o.ok svc [.s] && PlsetArgs.limits.ok o.slot svc r
  | .upd o r => o.ok svc [.s] && UpdArgs.limits.ok o.slot svc r
  | .pref o r => o.ok svc [.s] && PrefArgs.limits.ok o.slot svc r
  | .waitline o r => o.ok svc [.s] && WaitlineArgs.limits.ok o.slot svc r
  | .launch o r => o.ok svc [.s] && LaunchArgs.limits.ok o.slot svc r
  | .exit o => o.ok svc [.s]
  | .mfsr o r => o.ok svc [.s] && SrMove.limits.ok o.slot svc r
  | .mfsrIo o r => o.ok svc [.s] && IoMove.limits.ok o.slot svc r
  | .mtsr o r => o.ok svc [.s] && SrMove.limits.ok o.slot svc r
  | .mtsrIo o r => o.ok svc [.s] && IoMove.limits.ok o.slot svc r
  | .trap o r => o.ok svc [.s] && TrapArgs.limits.ok o.slot svc r
  | .eret o => o.ok svc [.s]
  | .sret o => o.ok svc [.s]
  | .tlbiAll o r => o.ok svc [.s] && ZeroFn.limits.ok o.slot svc r
  | .tlbiCtx o r => o.ok svc [.s] && OneReg.limits.ok o.slot svc r
  | .tlbiPage o r => o.ok svc [.s] && TwoReg.limits.ok o.slot svc r
  | .cmntIcinv o r => o.ok svc [.s] && ZeroFn.limits.ok o.slot svc r
  | .cmntIcinvPkg o r => o.ok svc [.s] && ZeroFn.limits.ok o.slot svc r
  | .cmntSdcinv o r => o.ok svc [.s] && ZeroFn.limits.ok o.slot svc r
  | .cmntWbctx o r => o.ok svc [.s] && OneReg.limits.ok o.slot svc r
  | .cadv o r => o.ok svc [.x] && CadvArgs.limits.ok o.slot svc r
  | .popc o r => o.ok svc [.x] && RR.limits.ok o.slot svc r
  | .clz o r => o.ok svc [.x] && RR.limits.ok o.slot svc r
  | .ctz o r => o.ok svc [.x] && RR.limits.ok o.slot svc r
  | .bscan o r => o.ok svc [.x] && RRR.limits.ok o.slot svc r
  | .bscanc o r => o.ok svc [.x] && RRR.limits.ok o.slot svc r
  | .aqp o r => o.ok svc [.x] && AqPush.limits.ok o.slot svc r
  | .aqpIdx o r => o.ok svc [.x] && AqPushIdx.limits.ok o.slot svc r
  | .aqps o r => o.ok svc [.x] && AqRun.limits.ok o.slot svc r
  | .vadd o r => o.ok svc [.v0, .v1] && VInt3.limits.ok o.slot svc r
  | .vsub o r => o.ok svc [.v0, .v1] && VInt3.limits.ok o.slot svc r
  | .vmul o r => o.ok svc [.v0, .v1] && VInt3.limits.ok o.slot svc r
  | .vmulhs o r => o.ok svc [.v0, .v1] && VInt3.limits.ok o.slot svc r
  | .vmulhu o r => o.ok svc [.v0, .v1] && VInt3.limits.ok o.slot svc r
  | .vmin o r => o.ok svc [.v0, .v1] && VInt3.limits.ok o.slot svc r
  | .vmax o r => o.ok svc [.v0, .v1] && VInt3.limits.ok o.slot svc r
  | .vminu o r => o.ok svc [.v0, .v1] && VInt3.limits.ok o.slot svc r
  | .vmaxu o r => o.ok svc [.v0, .v1] && VInt3.limits.ok o.slot svc r
  | .vadds o r => o.ok svc [.v0, .v1] && VInt3.limits.ok o.slot svc r
  | .vsubs o r => o.ok svc [.v0, .v1] && VInt3.limits.ok o.slot svc r
  | .vaddus o r => o.ok svc [.v0, .v1] && VInt3.limits.ok o.slot svc r
  | .vsubus o r => o.ok svc [.v0, .v1] && VInt3.limits.ok o.slot svc r
  | .vabs o r => o.ok svc [.v0, .v1] && VInt2.limits.ok o.slot svc r
  | .vneg o r => o.ok svc [.v0, .v1] && VInt2.limits.ok o.slot svc r
  | .vand o r => o.ok svc [.v0, .v1] && VInt3.limits.ok o.slot svc r
  | .vor o r => o.ok svc [.v0, .v1] && VInt3.limits.ok o.slot svc r
  | .vxor o r => o.ok svc [.v0, .v1] && VInt3.limits.ok o.slot svc r
  | .vandn o r => o.ok svc [.v0, .v1] && VInt3.limits.ok o.slot svc r
  | .vmov o r => o.ok svc [.v0, .v1] && VInt2.limits.ok o.slot svc r
  | .vmulq o r => o.ok svc [.v0, .v1] && VInt3.limits.ok o.slot svc r
  | .vmac o r => o.ok svc [.v0, .v1] && VInt3.limits.ok o.slot svc r
  | .vmacs o r => o.ok svc [.v0, .v1] && VInt3.limits.ok o.slot svc r
  | .vmacwl o r => o.ok svc [.v0, .v1] && VInt3.limits.ok o.slot svc r
  | .vmacwh o r => o.ok svc [.v0, .v1] && VInt3.limits.ok o.slot svc r
  | .vshl o r => o.ok svc [.v0, .v1] && VInt3.limits.ok o.slot svc r
  | .vshr o r => o.ok svc [.v0, .v1] && VInt3.limits.ok o.slot svc r
  | .vsra o r => o.ok svc [.v0, .v1] && VInt3.limits.ok o.slot svc r
  | .vrol o r => o.ok svc [.v0, .v1] && VInt3.limits.ok o.slot svc r
  | .vshlImm o r => o.ok svc [.v0, .v1] && VIntK.limits.ok o.slot svc r
  | .vshrImm o r => o.ok svc [.v0, .v1] && VIntK.limits.ok o.slot svc r
  | .vsraImm o r => o.ok svc [.v0, .v1] && VIntK.limits.ok o.slot svc r
  | .vrolImm o r => o.ok svc [.v0, .v1] && VIntK.limits.ok o.slot svc r
  | .vcmp o r => o.ok svc [.v0, .v1] && VCmp.limits.ok o.slot svc r
  | .vfcmp o r => o.ok svc [.v0, .v1] && VFCmp.limits.ok o.slot svc r
  | .vsel o r => o.ok svc [.v0, .v1] && VSel.limits.ok o.slot svc r
  | .vfadd o r => o.ok svc [.v0, .v1] && VFp3.limits.ok o.slot svc r
  | .vfsub o r => o.ok svc [.v0, .v1] && VFp3.limits.ok o.slot svc r
  | .vfmul o r => o.ok svc [.v0, .v1] && VFp3.limits.ok o.slot svc r
  | .vfdiv o r => o.ok svc [.v0, .v1] && VFp3.limits.ok o.slot svc r
  | .vfsqrt o r => o.ok svc [.v0, .v1] && VFp2.limits.ok o.slot svc r
  | .vfmin o r => o.ok svc [.v0, .v1] && VFmt3.limits.ok o.slot svc r
  | .vfmax o r => o.ok svc [.v0, .v1] && VFmt3.limits.ok o.slot svc r
  | .vfabs o r => o.ok svc [.v0, .v1] && VFmt2.limits.ok o.slot svc r
  | .vfneg o r => o.ok svc [.v0, .v1] && VFmt2.limits.ok o.slot svc r
  | .vfma o r => o.ok svc [.v0, .v1] && VFp3.limits.ok o.slot svc r
  | .vfms o r => o.ok svc [.v0, .v1] && VFp3.limits.ok o.slot svc r
  | .vfnma o r => o.ok svc [.v0, .v1] && VFp3.limits.ok o.slot svc r
  | .vfnms o r => o.ok svc [.v0, .v1] && VFp3.limits.ok o.slot svc r
  | .vcvt o r => o.ok svc [.v0, .v1] && VCvt.limits.ok o.slot svc r
  | .vqntE2m1s o r => o.ok svc [.v0, .v1] && VQnt.limits.ok o.slot svc r
  | .vqntE4m3 o r => o.ok svc [.v0, .v1] && VQnt.limits.ok o.slot svc r
  | .vqntE5m2 o r => o.ok svc [.v0, .v1] && VQnt.limits.ok o.slot svc r
  | .vdqnt o r => o.ok svc [.v0, .v1] && VDqnt.limits.ok o.slot svc r
  | .vradd o r => o.ok svc [.v0, .v1] && VInt2.limits.ok o.slot svc r
  | .vrmin o r => o.ok svc [.v0, .v1] && VInt2.limits.ok o.slot svc r
  | .vrmax o r => o.ok svc [.v0, .v1] && VInt2.limits.ok o.slot svc r
  | .vrminu o r => o.ok svc [.v0, .v1] && VInt2.limits.ok o.slot svc r
  | .vrmaxu o r => o.ok svc [.v0, .v1] && VInt2.limits.ok o.slot svc r
  | .vrand o r => o.ok svc [.v0, .v1] && VInt2.limits.ok o.slot svc r
  | .vror o r => o.ok svc [.v0, .v1] && VInt2.limits.ok o.slot svc r
  | .vrxor o r => o.ok svc [.v0, .v1] && VInt2.limits.ok o.slot svc r
  | .vrfadd o r => o.ok svc [.v0, .v1] && VRed.limits.ok o.slot svc r
  | .vrfmin o r => o.ok svc [.v0, .v1] && VRed.limits.ok o.slot svc r
  | .vrfmax o r => o.ok svc [.v0, .v1] && VRed.limits.ok o.slot svc r
  | .vscanadd o r => o.ok svc [.v0, .v1] && VInt2.limits.ok o.slot svc r
  | .vscanaddx o r => o.ok svc [.v0, .v1] && VInt2.limits.ok o.slot svc r
  | .vscanmax o r => o.ok svc [.v0, .v1] && VInt2.limits.ok o.slot svc r
  | .vscanmin o r => o.ok svc [.v0, .v1] && VInt2.limits.ok o.slot svc r
  | .vscanmaxu o r => o.ok svc [.v0, .v1] && VInt2.limits.ok o.slot svc r
  | .vscanminu o r => o.ok svc [.v0, .v1] && VInt2.limits.ok o.slot svc r
  | .vscanfadd o r => o.ok svc [.v0, .v1] && VRed.limits.ok o.slot svc r
  | .vperm o r => o.ok svc [.v0, .v1] && VInt3.limits.ok o.slot svc r
  | .vrot o r => o.ok svc [.v0, .v1] && VIntK.limits.ok o.slot svc r
  | .vext o r => o.ok svc [.v0, .v1] && VExt.limits.ok o.slot svc r
  | .vzipl o r => o.ok svc [.v0, .v1] && VInt3.limits.ok o.slot svc r
  | .vziph o r => o.ok svc [.v0, .v1] && VInt3.limits.ok o.slot svc r
  | .vuzpe o r => o.ok svc [.v0, .v1] && VInt3.limits.ok o.slot svc r
  | .vuzpo o r => o.ok svc [.v0, .v1] && VInt3.limits.ok o.slot svc r
  | .vsplat o r => o.ok svc [.v0, .v1] && VIntK.limits.ok o.slot svc r
  | .vrev o r => o.ok svc [.v0, .v1] && VInt2.limits.ok o.slot svc r
  | .vrcp o r => o.ok svc [.v0, .v1] && VFp2.limits.ok o.slot svc r
  | .vrsqrt o r => o.ok svc [.v0, .v1] && VFp2.limits.ok o.slot svc r
  | .vexp2 o r => o.ok svc [.v0, .v1] && VFp2.limits.ok o.slot svc r
  | .vlog2 o r => o.ok svc [.v0, .v1] && VFp2.limits.ok o.slot svc r
  | .vsinpi o r => o.ok svc [.v0, .v1] && VFp2.limits.ok o.slot svc r
  | .vcospi o r => o.ok svc [.v0, .v1] && VFp2.limits.ok o.slot svc r
  | .vtanh o r => o.ok svc [.v0, .v1] && VFp2.limits.ok o.slot svc r
  | .vsigm o r => o.ok svc [.v0, .v1] && VFp2.limits.ok o.slot svc r
  | .vrnd o r => o.ok svc [.v0, .v1] && VRndArgs.limits.ok o.slot svc r
  | .vbcast o r => o.ok svc [.v0, .v1] && RLong.limits.ok o.slot svc r
  | .vtrd o r => o.ok svc [.v0, .v1] && TileRead.limits.ok o.slot svc r
  | .vtrdReg o r => o.ok svc [.v0, .v1] && TileReadReg.limits.ok o.slot svc r
  | .vtwr o r => o.ok svc [.v0, .v1] && TileRow.limits.ok o.slot svc r
  | .vtwrReg o r => o.ok svc [.v0, .v1] && TileRowReg.limits.ok o.slot svc r
  | .vldsp o r => o.ok svc [.v0, .v1] && VSp.limits.ok o.slot svc r
  | .vstsp o r => o.ok svc [.v0, .v1] && VSp.limits.ok o.slot svc r
  | .vld o r => o.ok svc [.v0, .v1] && VLoad.limits.ok o.slot svc r
  | .vst o r => o.ok svc [.v0, .v1] && VSp.limits.ok o.slot svc r
  | .vamoAdd o r => o.ok svc [.v0, .v1] && VAtomic.limits.ok o.slot svc r
  | .vamoAnd o r => o.ok svc [.v0, .v1] && VAtomic.limits.ok o.slot svc r
  | .vamoOr o r => o.ok svc [.v0, .v1] && VAtomic.limits.ok o.slot svc r
  | .vamoXor o r => o.ok svc [.v0, .v1] && VAtomic.limits.ok o.slot svc r
  | .vamoSmin o r => o.ok svc [.v0, .v1] && VAtomic.limits.ok o.slot svc r
  | .vamoSmax o r => o.ok svc [.v0, .v1] && VAtomic.limits.ok o.slot svc r
  | .vamoUmin o r => o.ok svc [.v0, .v1] && VAtomic.limits.ok o.slot svc r
  | .vamoUmax o r => o.ok svc [.v0, .v1] && VAtomic.limits.ok o.slot svc r
  | .vamoSwap o r => o.ok svc [.v0, .v1] && VAtomic.limits.ok o.slot svc r
  | .vupd o r => o.ok svc [.v0, .v1] && VUpdArgs.limits.ok o.slot svc r
  | .dqpop o r => o.ok svc [.v0, .v1] && DqPop.limits.ok o.slot svc r
  | .mldb o r => o.ok svc [.m] && MldbArgs.limits.ok o.slot svc r
  | .mswap o => o.ok svc [.m]
  | .mma o r => o.ok svc [.m] && MmaArgs.limits.ok o.slot svc r
  | .mmas o r => o.ok svc [.m] && MmasArgs.limits.ok o.slot svc r
  | .mdrain o r => o.ok svc [.m] && MdrainArgs.limits.ok o.slot svc r
  | .mzacc o r => o.ok svc [.m] && MzaccArgs.limits.ok o.slot svc r
  | .mcv o r => o.ok svc [.m] && McvArgs.limits.ok o.slot svc r
  | .mtrn o r => o.ok svc [.m] && TilePair.limits.ok o.slot svc r
  | .mfill o r => o.ok svc [.m] && MfillArgs.limits.ok o.slot svc r
  | .mtcpy o r => o.ok svc [.m] && TilePair.limits.ok o.slot svc r
  | .kld o r => o.ok svc [.k] && KMem.limits.ok o.slot svc r
  | .kst o r => o.ok svc [.k] && KMem.limits.ok o.slot svc r
  | .kmov o r => o.ok svc [.k] && KPair.limits.ok o.slot svc r
  | .kfill o r => o.ok svc [.k] && KfillArgs.limits.ok o.slot svc r
  | .kspr o r => o.ok svc [.k] && KsprArgs.limits.ok o.slot svc r
  | .ksprReg o r => o.ok svc [.k] && KPair.limits.ok o.slot svc r
  | .cpy o r => o.ok svc [.c0, .c1] && CopyArgs.limits.ok o.slot svc r
  | .gath o r => o.ok svc [.c0, .c1] && IndexedCopy.limits.ok o.slot svc r
  | .scat o r => o.ok svc [.c0, .c1] && IndexedCopy.limits.ok o.slot svc r
  | .tldi o r => o.ok svc [.c0, .c1] && TileLoad.limits.ok o.slot svc r
  | .tsti o r => o.ok svc [.c0, .c1] && TileStore.limits.ok o.slot svc r
  | .cpub o r => o.ok svc [.c0, .c1] && CpubArgs.limits.ok o.slot svc r
  | .stmap o r => o.ok svc [.c0, .c1] && StmapArgs.limits.ok o.slot svc r
  | .stfl o r => o.ok svc [.c0, .c1] && StflArgs.limits.ok o.slot svc r
  | .chint o r => o.ok svc [.c0, .c1] && ChintArgs.limits.ok o.slot svc r
  | .cnput o r => o.ok svc [.c0, .c1] && NetCopy.limits.ok o.slot svc r
  | .cnget o r => o.ok svc [.c0, .c1] && NetCopy.limits.ok o.slot svc r
  | .dld o r => o.ok svc [.c0, .c1] && DescMove.limits.ok o.slot svc r
  | .dst o r => o.ok svc [.c0, .c1] && DescMove.limits.ok o.slot svc r
  | .wait o r => o.ok svc [.y] && WaitArgs.limits.ok o.slot svc r
  | .fwait o r => o.ok svc [.y] && FwaitArgs.limits.ok o.slot svc r
  | .fwaitC o r => o.ok svc [.y] && FwaitArgs.limits.ok o.slot svc r
  | .fwaitEq o r => o.ok svc [.y] && FwaitArgs.limits.ok o.slot svc r
  | .fpost o r => o.ok svc [.y] && FpostArgs.limits.ok o.slot svc r
  | .fset o r => o.ok svc [.y] && FsetArgs.limits.ok o.slot svc r
  | .rpost o r => o.ok svc [.y] && RpostArgs.limits.ok o.slot svc r
  | .rpostRel o r => o.ok svc [.y] && RpostArgs.limits.ok o.slot svc r
  | .rpostPred o r => o.ok svc [.y] && RpostPred.limits.ok o.slot svc r
  | .barr o r => o.ok svc [.y] && BarrArgs.limits.ok o.slot svc r
  | .bwait o r => o.ok svc [.y] && BarrArgs.limits.ok o.slot svc r
  | .rdv o r => o.ok svc [.y] && BarrArgs.limits.ok o.slot svc r
  | .fence o r => o.ok svc [.y] && FenceArgs.limits.ok o.slot svc r
  | .chk o r => o.ok svc [.y] && ChkArgs.limits.ok o.slot svc r
  | .fork o r => o.ok svc [.f] && ForkArgs.limits.ok o.slot svc r
  | .fprobe o r => o.ok svc [.f] && FprobeArgs.limits.ok o.slot svc r
  | .fprobeF o r => o.ok svc [.f] && FprobeArgs.limits.ok o.slot svc r
  | .hostLineCacheFill _ _ _ => true
  | .powerLoss => true

end Sys2Proof
end

