-- ==== Sys2Proof/Decode.lean ====
section
/-! DEFINITION. Decoding of slot words and bundles (R295-R312), total, each rejection naming its cause code; then the encoder. -/
namespace Sys2Proof

/-- `w` bits of `x` from bit `lo` up. -/
def fld {n : Nat} (x : BitVec n) (lo w : Nat) : BitVec w := BitVec.ofNat w (x.toNat / 2 ^ lo)

/-- A slot word with its extension, in fields (R298, R299). -/
structure SlotBits where
  ex : Bool
  op : BitVec 6
  pn : BitVec 4
  pi : Bool
  body : BitVec 20
  av : Bool
  ag : Bool
  an : BitVec 6
  pl : BitVec 24
deriving DecidableEq, Repr

def bit0 (x : BitVec 1) : Bool := x == 1#1

/-- The fields of a word and its extension; without EX the extension reads as zero (R299). With EX = 1 forms I, L, P and J take PAYLOAD into
their immediate even where it is 0 (R300), which the last sentence of R299 denies for a negative one: R300 is followed (DEDUCED, log 116). -/
def SlotBits.ofWords (w ext : Word32) : SlotBits :=
  let ex := bit0 (fld w 31 1)
  let e := if ex then ext else 0#32
  ⟨ex, fld w 25 6, fld w 21 4, bit0 (fld w 20 1), fld w 0 20, bit0 (fld e 31 1), bit0 (fld e 30 1), fld e 24 6, fld e 0 24⟩

/-- How the fields of one operand structure lie in the body and PAYLOAD of a word (R300, R301, R352): reading, reserved bits,
writing (the row's selector given), and whether the operands need an extension word. -/
structure Form (α : Type) where
  get : Bool → BitVec 20 → BitVec 24 → α
  zero : Bool → BitVec 20 → BitVec 24 → Bool
  body : Nat → α → BitVec 20
  pl : α → BitVec 24
  ext : α → Bool := fun r => pl r != 0#24

def RRR.form : Form RRR where
  get _ b _ := ⟨fld b 15 5, fld b 10 5, fld b 5 5⟩
  zero _ _ p := p == 0#24
  body k r := BitVec.ofNat 20 ((((r.d.toNat) * 32 + r.a.toNat) * 32 + r.b.toNat) * 32 + k)
  pl _ := 0#24
def RR.form : Form RR where
  get _ b _ := ⟨fld b 15 5, fld b 10 5⟩
  zero _ b p := fld b 5 5 == 0#5 && p == 0#24
  body k r := BitVec.ofNat 20 ((((r.d.toNat) * 32 + r.a.toNat) * 32) * 32 + k)
  pl _ := 0#24
def RImm.form : Form RImm where
  get ex b p := ⟨fld b 15 5, fld b 10 5, (if ex then BitVec.ofNat 34 (p.toNat * 1024 + (fld b 0 10).toNat) else (fld b 0 10).signExtend 34)⟩
  zero _ _ _ := true
  body _ r := BitVec.ofNat 20 (((r.d.toNat) * 32 + r.a.toNat) * 1024 + (fld r.imm 0 10).toNat)
  pl r := fld r.imm 10 24
  ext r := (fld r.imm 0 10).signExtend 34 != r.imm
def RShift.form : Form RShift where
  get _ b _ := ⟨fld b 15 5, fld b 10 5, fld b 0 6⟩
  zero _ b p := fld b 6 4 == 0#4 && p == 0#24
  body _ r := BitVec.ofNat 20 ((((r.d.toNat) * 32 + r.a.toNat) * 16) * 64 + r.sh.toNat)
  pl _ := 0#24
def RLong.form : Form RLong where
  get ex b p := ⟨fld b 15 5, (if ex then BitVec.ofNat 39 (p.toNat * 32768 + (fld b 0 15).toNat) else (fld b 0 15).signExtend 39)⟩
  zero _ _ _ := true
  body _ r := BitVec.ofNat 20 ((r.d.toNat) * 32768 + (fld r.imm 0 15).toNat)
  pl r := fld r.imm 15 24
  ext r := (fld r.imm 0 15).signExtend 39 != r.imm
def CmpReg.form : Form CmpReg where
  get _ b _ := ⟨fld b 16 4, fld b 12 4, fld b 7 5, fld b 2 5⟩
  zero _ b p := fld b 0 2 == 0#2 && p == 0#24
  body _ r := BitVec.ofNat 20 (((((r.pd.toNat) * 16 + r.cc.toNat) * 32 + r.a.toNat) * 32 + r.b.toNat) * 4)
  pl _ := 0#24
def CmpImm.form : Form CmpImm where
  get ex b p := ⟨fld b 16 4, fld b 12 4, fld b 7 5, (if ex then BitVec.ofNat 29 (p.toNat * 32 + (fld b 2 5).toNat) else (fld b 2 5).signExtend 29)⟩
  zero _ b _ := fld b 0 1 == 0#1
  body _ r := BitVec.ofNat 20 ((((((r.pd.toNat) * 16 + r.cc.toNat) * 32 + r.a.toNat) * 32 + (fld r.imm 0 5).toNat) * 2 + 1) * 2)
  pl r := fld r.imm 5 24
  ext r := (fld r.imm 0 5).signExtend 29 != r.imm
def PredLogic.form : Form PredLogic where
  get _ b _ := ⟨fld b 16 4, fld b 7 4, fld b 2 4⟩
  zero _ b p := fld b 11 1 == 0#1 && fld b 6 1 == 0#1 && fld b 0 2 == 0#2 && p == 0#24
  body k r := BitVec.ofNat 20 (((((((r.pd.toNat) * 16 + k) * 2) * 16 + r.a.toNat) * 2) * 16 + r.b.toNat) * 4)
  pl _ := 0#24
def BrReg.form : Form BrReg where
  get ex b p := ⟨fld b 10 5, (if ex then BitVec.ofNat 34 (p.toNat * 1024 + (fld b 0 10).toNat) else (fld b 0 10).signExtend 34)⟩
  zero _ b _ := fld b 15 5 == 0#5
  body _ r := BitVec.ofNat 20 ((r.a.toNat) * 1024 + (fld r.disp 0 10).toNat)
  pl r := fld r.disp 10 24
  ext r := (fld r.disp 0 10).signExtend 34 != r.disp
def LoopReg.form : Form LoopReg where
  get _ b _ := ⟨fld b 17 3, fld b 12 5, fld b 0 12⟩
  zero _ _ p := p == 0#24
  body _ r := BitVec.ofNat 20 (((r.lv.toNat) * 32 + r.a.toNat) * 4096 + r.fin.toNat)
  pl _ := 0#24
def LoopImm.form : Form LoopImm where
  get _ b p := ⟨fld b 17 3, BitVec.ofNat 29 (p.toNat * 32 + (fld b 12 5).toNat), fld b 0 12⟩
  zero _ _ _ := true
  body _ r := BitVec.ofNat 20 (((r.lv.toNat) * 32 + (fld r.n 0 5).toNat) * 4096 + r.fin.toNat)
  pl r := fld r.n 5 24
  ext r := fld r.n 5 24 != 0#24
def SpLoad.form : Form SpLoad where
  get _ b p := ⟨fld b 15 5, fld b 10 5, fld b 5 5, fld b 4 1, fld b 2 2, fld b 0 2, fld p 20 4, fld p 0 15⟩
  zero _ _ p := fld p 15 5 == 0#5
  body _ r := BitVec.ofNat 20 ((((((r.d.toNat) * 32 + r.base.toNat) * 32 + r.ix.toNat) * 2 + r.sx.toNat) * 4 + r.am.toNat) * 4 + r.z.toNat)
  pl r := BitVec.ofNat 24 (((r.cls.toNat) * 32) * 32768 + r.disp.toNat)
def SpStore.form : Form SpStore where
  get _ b p := ⟨fld b 15 5, fld b 10 5, fld b 5 5, fld b 2 2, fld b 0 2, fld p 20 4, fld p 0 15⟩
  zero _ b p := fld b 4 1 == 0#1 && fld p 15 5 == 0#5
  body _ r := BitVec.ofNat 20 ((((((r.d.toNat) * 32 + r.base.toNat) * 32 + r.ix.toNat) * 2) * 4 + r.am.toNat) * 4 + r.z.toNat)
  pl r := BitVec.ofNat 24 (((r.cls.toNat) * 32) * 32768 + r.disp.toNat)
def GlLoad.form : Form GlLoad where
  get _ b p := ⟨fld b 15 5, fld b 10 5, fld b 5 5, fld b 4 1, fld b 2 2, fld b 0 2, fld p 20 4, fld p 17 3, (fld p 15 2) ^^^ 2#2, fld p 0 15⟩
  zero _ _ _ := true
  body _ r := BitVec.ofNat 20 ((((((r.d.toNat) * 32 + r.base.toNat) * 32 + r.ix.toNat) * 2 + r.sx.toNat) * 4 + r.am.toNat) * 4 + r.z.toNat)
  pl r := BitVec.ofNat 24 ((((r.cls.toNat) * 8 + r.tok.toNat) * 4 + (r.u ^^^ 2#2).toNat) * 32768 + r.disp.toNat)
def Atomic.form : Form Atomic where
  get _ b p := ⟨fld b 15 5, fld b 10 5, fld b 5 5, fld b 4 1, fld p 20 4, fld p 17 3, fld p 0 15⟩
  zero _ _ p := fld p 15 2 == 0#2
  body k r := BitVec.ofNat 20 (((((r.d.toNat) * 32 + r.base.toNat) * 32 + r.a.toNat) * 2 + r.w.toNat) * 16 + k)
  pl r := BitVec.ofNat 24 ((((r.cls.toNat) * 8 + r.tok.toNat) * 4) * 32768 + r.disp.toNat)
def BitAtomic.form : Form BitAtomic where
  get _ b p := ⟨fld b 15 5, fld b 10 5, fld b 5 5, fld p 20 4, fld p 17 3, fld p 0 15⟩
  zero _ _ p := fld p 15 2 == 0#2
  body k r := BitVec.ofNat 20 ((((r.d.toNat) * 32 + r.base.toNat) * 32 + r.a.toNat) * 32 + k)
  pl r := BitVec.ofNat 24 ((((r.cls.toNat) * 8 + r.tok.toNat) * 4) * 32768 + r.disp.toNat)
def PlsetArgs.form : Form PlsetArgs where
  get _ b p := ⟨fld b 15 5, fld b 10 5, fld b 5 5, fld p 20 4, fld p 17 3, fld p 8 7, fld p 0 8⟩
  zero _ _ p := fld p 15 2 == 0#2
  body k r := BitVec.ofNat 20 ((((r.d.toNat) * 32 + r.base.toNat) * 32 + r.a.toNat) * 32 + k)
  pl r := BitVec.ofNat 24 (((((r.cls.toNat) * 8 + r.tok.toNat) * 4) * 128 + r.lim.toNat) * 256 + r.disp.toNat)
def UpdArgs.form : Form UpdArgs where
  get _ b p := ⟨fld b 15 5, fld b 10 5, fld b 5 5, fld b 0 1, fld p 20 4, fld p 9 8, fld p 0 9⟩
  zero _ b p := fld b 1 4 == 0#4 && fld p 17 3 == 0#3
  body _ r := BitVec.ofNat 20 (((((r.d.toNat) * 32 + r.base.toNat) * 32 + r.ix.toNat) * 16) * 2 + r.idx.toNat)
  pl r := BitVec.ofNat 24 ((((r.cls.toNat) * 8) * 256 + r.rgn.toNat) * 512 + r.disp.toNat)
def PrefArgs.form : Form PrefArgs where
  get _ b p := ⟨fld b 10 5, fld b 0 2, (fld p 15 2) ^^^ 2#2, fld p 0 15⟩
  zero _ b p := fld b 15 5 == 0#5 && fld b 5 5 == 0#5 && fld b 2 3 == 0#3 && fld p 17 7 == 0#7
  body _ r := BitVec.ofNat 20 ((((r.base.toNat) * 32) * 8) * 4 + r.lvl.toNat)
  pl r := BitVec.ofNat 24 (((r.u ^^^ 2#2).toNat) * 32768 + r.disp.toNat)
def WaitlineArgs.form : Form WaitlineArgs where
  get _ b p := ⟨fld b 15 5, fld b 10 5, fld b 5 5, fld b 0 5, fld p 20 4, fld p 17 3, fld p 0 15⟩
  zero _ _ p := fld p 15 2 == 0#2
  body _ r := BitVec.ofNat 20 ((((r.d.toNat) * 32 + r.base.toNat) * 32 + r.ix.toNat) * 32 + r.tmo.toNat)
  pl r := BitVec.ofNat 24 ((((r.cls.toNat) * 8 + r.tok.toNat) * 4) * 32768 + r.disp.toNat)
def IoMove.form : Form IoMove where
  get _ b p := ⟨fld b 15 5, fld b 10 5, fld p 0 20⟩
  zero _ b p := fld b 5 5 == 0#5 && fld b 0 5 == 0#5 && fld p 20 3 == 0#3
  body _ r := BitVec.ofNat 20 ((((r.d.toNat) * 32 + r.a.toNat) * 32) * 32)
  pl r := BitVec.ofNat 24 (((1) * 8) * 1048576 + r.off.toNat)
def CadvArgs.form : Form CadvArgs where
  get _ b p := ⟨fld b 15 5, fld b 10 5, fld b 5 5, fld b 4 1, fld b 0 4, fld p 0 24⟩
  zero _ _ _ := true
  body _ r := BitVec.ofNat 20 (((((r.d.toNat) * 32 + r.a.toNat) * 32 + r.b.toNat) * 2 + r.sg.toNat) * 16 + r.pd.toNat)
  pl r := BitVec.ofNat 24 (r.step.toNat)
def AqPush.form : Form AqPush where
  get _ b p := ⟨fld b 10 4, fld b 0 3, fld p 20 4, fld p 17 3, (fld p 15 2) ^^^ 2#2, fld p 0 15⟩
  zero _ b _ := fld b 15 5 == 0#5 && fld b 14 1 == 0#1 && fld b 5 5 == 0#5
  body k r := BitVec.ofNat 20 ((((r.base.toNat) * 32) * 4 + k) * 8 + r.z.toNat)
  pl r := BitVec.ofNat 24 ((((r.cls.toNat) * 8 + r.tok.toNat) * 4 + (r.u ^^^ 2#2).toNat) * 32768 + r.disp.toNat)
def AqPushIdx.form : Form AqPushIdx where
  get _ b p := ⟨fld b 10 4, fld b 5 4, fld b 0 3, fld p 20 4, fld p 17 3, (fld p 15 2) ^^^ 2#2, fld p 0 15⟩
  zero _ b _ := fld b 15 5 == 0#5 && fld b 14 1 == 0#1 && fld b 9 1 == 0#1
  body k r := BitVec.ofNat 20 (((((r.base.toNat) * 2) * 16 + r.ix.toNat) * 4 + k) * 8 + r.z.toNat)
  pl r := BitVec.ofNat 24 ((((r.cls.toNat) * 8 + r.tok.toNat) * 4 + (r.u ^^^ 2#2).toNat) * 32768 + r.disp.toNat)
def AqRun.form : Form AqRun where
  get _ b p := ⟨fld b 15 4, fld b 10 4, fld b 5 4, fld b 0 3, fld p 20 4, fld p 17 3, (fld p 15 2) ^^^ 2#2, fld p 0 15⟩
  zero _ b _ := fld b 19 1 == 0#1 && fld b 14 1 == 0#1 && fld b 9 1 == 0#1
  body k r := BitVec.ofNat 20 (((((((r.d.toNat) * 2) * 16 + r.base.toNat) * 2) * 16 + r.ix.toNat) * 4 + k) * 8 + r.z.toNat)
  pl r := BitVec.ofNat 24 ((((r.cls.toNat) * 8 + r.tok.toNat) * 4 + (r.u ^^^ 2#2).toNat) * 32768 + r.disp.toNat)
def VInt3.form : Form VInt3 where
  get _ b p := ⟨fld b 15 5, fld b 10 5, fld b 5 5, (fld p 0 2) ^^^ 2#2⟩
  zero _ _ p := fld p 2 22 == 0#22
  body k r := BitVec.ofNat 20 ((((r.d.toNat) * 32 + r.a.toNat) * 32 + r.b.toNat) * 32 + k)
  pl r := BitVec.ofNat 24 ((r.w ^^^ 2#2).toNat)
def VInt2.form : Form VInt2 where
  get _ b p := ⟨fld b 15 5, fld b 10 5, (fld p 0 2) ^^^ 2#2⟩
  zero _ b p := fld b 5 5 == 0#5 && fld p 2 22 == 0#22
  body k r := BitVec.ofNat 20 ((((r.d.toNat) * 32 + r.a.toNat) * 32) * 32 + k)
  pl r := BitVec.ofNat 24 ((r.w ^^^ 2#2).toNat)
def VIntK.form : Form VIntK where
  get _ b p := ⟨fld b 15 5, fld b 10 5, fld p 17 7, (fld p 0 2) ^^^ 2#2⟩
  zero _ b p := fld b 5 5 == 0#5 && fld p 2 15 == 0#15
  body k r := BitVec.ofNat 20 ((((r.d.toNat) * 32 + r.a.toNat) * 32) * 32 + k)
  pl r := BitVec.ofNat 24 (((r.k.toNat) * 32768) * 4 + (r.w ^^^ 2#2).toNat)
def VCmp.form : Form VCmp where
  get _ b p := ⟨fld b 16 4, fld b 12 4, fld b 7 5, fld b 2 5, (fld p 0 2) ^^^ 2#2⟩
  zero _ b p := fld b 0 2 == 0#2 && fld p 2 22 == 0#22
  body _ r := BitVec.ofNat 20 (((((r.pd.toNat) * 16 + r.cc.toNat) * 32 + r.a.toNat) * 32 + r.b.toNat) * 4)
  pl r := BitVec.ofNat 24 ((r.w ^^^ 2#2).toNat)
def VFCmp.form : Form VFCmp where
  get _ b p := ⟨fld b 16 4, fld b 12 4, fld b 7 5, fld b 2 5, (fld p 0 4) ^^^ 9#4⟩
  zero _ b p := fld b 0 2 == 0#2 && fld p 4 20 == 0#20
  body _ r := BitVec.ofNat 20 (((((r.pd.toNat) * 16 + r.cc.toNat) * 32 + r.a.toNat) * 32 + r.b.toNat) * 4)
  pl r := BitVec.ofNat 24 ((r.fmt ^^^ 9#4).toNat)
def VSel.form : Form VSel where
  get _ b p := ⟨fld b 15 5, fld b 10 5, fld b 5 5, fld b 0 4, (fld p 0 2) ^^^ 2#2⟩
  zero _ b p := fld b 4 1 == 0#1 && fld p 2 22 == 0#22
  body _ r := BitVec.ofNat 20 (((((r.d.toNat) * 32 + r.a.toNat) * 32 + r.b.toNat) * 2) * 16 + r.c.toNat)
  pl r := BitVec.ofNat 24 ((r.w ^^^ 2#2).toNat)
def VFp3.form : Form VFp3 where
  get _ b p := ⟨fld b 15 5, fld b 10 5, fld b 5 5, fld p 12 4, fld p 11 1, fld p 8 3, (fld p 0 4) ^^^ 9#4⟩
  zero _ _ p := fld p 16 8 == 0#8 && fld p 4 4 == 0#4
  body k r := BitVec.ofNat 20 ((((r.d.toNat) * 32 + r.a.toNat) * 32 + r.b.toNat) * 32 + k)
  pl r := BitVec.ofNat 24 (((((r.str.toNat) * 2 + r.sat.toNat) * 8 + r.rm.toNat) * 16) * 16 + (r.fmt ^^^ 9#4).toNat)
def VFp2.form : Form VFp2 where
  get _ b p := ⟨fld b 15 5, fld b 10 5, fld p 12 4, fld p 11 1, fld p 8 3, (fld p 0 4) ^^^ 9#4⟩
  zero _ b p := fld b 5 5 == 0#5 && fld p 16 8 == 0#8 && fld p 4 4 == 0#4
  body k r := BitVec.ofNat 20 ((((r.d.toNat) * 32 + r.a.toNat) * 32) * 32 + k)
  pl r := BitVec.ofNat 24 (((((r.str.toNat) * 2 + r.sat.toNat) * 8 + r.rm.toNat) * 16) * 16 + (r.fmt ^^^ 9#4).toNat)
def VFmt3.form : Form VFmt3 where
  get _ b p := ⟨fld b 15 5, fld b 10 5, fld b 5 5, (fld p 0 4) ^^^ 9#4⟩
  zero _ _ p := fld p 4 20 == 0#20
  body k r := BitVec.ofNat 20 ((((r.d.toNat) * 32 + r.a.toNat) * 32 + r.b.toNat) * 32 + k)
  pl r := BitVec.ofNat 24 ((r.fmt ^^^ 9#4).toNat)
def VFmt2.form : Form VFmt2 where
  get _ b p := ⟨fld b 15 5, fld b 10 5, (fld p 0 4) ^^^ 9#4⟩
  zero _ b p := fld b 5 5 == 0#5 && fld p 4 20 == 0#20
  body k r := BitVec.ofNat 20 ((((r.d.toNat) * 32 + r.a.toNat) * 32) * 32 + k)
  pl r := BitVec.ofNat 24 ((r.fmt ^^^ 9#4).toNat)
def VCvt.form : Form VCvt where
  get _ b p := ⟨fld b 15 5, fld b 10 5, fld b 0 3, fld p 12 4, fld p 11 1, fld p 8 3, (fld p 4 4) ^^^ 9#4, (fld p 0 4) ^^^ 9#4⟩
  zero _ b p := fld b 3 7 == 0#7 && fld p 16 8 == 0#8
  body _ r := BitVec.ofNat 20 ((((r.d.toNat) * 32 + r.a.toNat) * 128) * 8 + r.part.toNat)
  pl r := BitVec.ofNat 24 (((((r.str.toNat) * 2 + r.sat.toNat) * 8 + r.rm.toNat) * 16 + (r.fmt2 ^^^ 9#4).toNat) * 16 + (r.fmt ^^^ 9#4).toNat)
def VQnt.form : Form VQnt where
  get _ b p := ⟨fld b 15 5, fld b 10 5, fld b 5 5, fld b 0 3, fld p 12 4, fld p 11 1, fld p 8 3, (fld p 0 4) ^^^ 9#4⟩
  zero _ _ p := fld p 16 8 == 0#8 && fld p 4 4 == 0#4
  body k r := BitVec.ofNat 20 (((((r.d.toNat) * 32 + r.a.toNat) * 32 + r.b.toNat) * 4 + k) * 8 + r.part.toNat)
  pl r := BitVec.ofNat 24 (((((r.str.toNat) * 2 + r.sat.toNat) * 8 + r.rm.toNat) * 16) * 16 + (r.fmt ^^^ 9#4).toNat)
def VDqnt.form : Form VDqnt where
  get _ b p := ⟨fld b 15 5, fld b 10 5, fld b 5 5, fld b 0 3, fld p 12 4, fld p 11 1, fld p 8 3, (fld p 4 4) ^^^ 9#4, (fld p 0 4) ^^^ 9#4⟩
  zero _ _ p := fld p 16 8 == 0#8
  body k r := BitVec.ofNat 20 (((((r.d.toNat) * 32 + r.a.toNat) * 32 + r.b.toNat) * 4 + k) * 8 + r.part.toNat)
  pl r := BitVec.ofNat 24 (((((r.str.toNat) * 2 + r.sat.toNat) * 8 + r.rm.toNat) * 16 + (r.fmt2 ^^^ 9#4).toNat) * 16 + (r.fmt ^^^ 9#4).toNat)
def VRed.form : Form VRed where
  get _ b p := ⟨fld b 15 5, fld b 10 5, fld p 12 4, fld p 8 3, (fld p 0 4) ^^^ 9#4⟩
  zero _ b p := fld b 5 5 == 0#5 && fld p 16 8 == 0#8 && fld p 11 1 == 0#1 && fld p 4 4 == 0#4
  body k r := BitVec.ofNat 20 ((((r.d.toNat) * 32 + r.a.toNat) * 32) * 32 + k)
  pl r := BitVec.ofNat 24 (((((r.str.toNat) * 2) * 8 + r.rm.toNat) * 16) * 16 + (r.fmt ^^^ 9#4).toNat)
def VExt.form : Form VExt where
  get _ b p := ⟨fld b 15 5, fld b 10 5, fld b 5 5, fld p 17 7, (fld p 0 2) ^^^ 2#2⟩
  zero _ _ p := fld p 2 15 == 0#15
  body k r := BitVec.ofNat 20 ((((r.d.toNat) * 32 + r.a.toNat) * 32 + r.b.toNat) * 32 + k)
  pl r := BitVec.ofNat 24 (((r.k.toNat) * 32768) * 4 + (r.w ^^^ 2#2).toNat)
def TileRow.form : Form TileRow where
  get _ b p := ⟨fld b 15 5, fld b 10 4, fld b 0 2, fld p 17 7, (fld p 0 2) ^^^ 2#2⟩
  zero _ b p := fld b 14 1 == 0#1 && fld b 5 5 == 0#5 && fld b 2 2 == 0#2 && fld p 2 15 == 0#15
  body k r := BitVec.ofNat 20 (((((((r.d.toNat) * 2) * 16 + r.t.toNat) * 32) * 2 + k) * 4) * 4 + r.part.toNat)
  pl r := BitVec.ofNat 24 (((r.k.toNat) * 32768) * 4 + (r.w ^^^ 2#2).toNat)
def TileRowReg.form : Form TileRowReg where
  get _ b p := ⟨fld b 15 5, fld b 10 4, fld b 5 5, fld b 0 2, (fld p 0 2) ^^^ 2#2⟩
  zero _ b p := fld b 14 1 == 0#1 && fld b 2 2 == 0#2 && fld p 2 22 == 0#22
  body k r := BitVec.ofNat 20 (((((((r.d.toNat) * 2) * 16 + r.t.toNat) * 32 + r.b.toNat) * 2 + k) * 4) * 4 + r.part.toNat)
  pl r := BitVec.ofNat 24 ((r.w ^^^ 2#2).toNat)
def VSp.form : Form VSp where
  get _ b p := ⟨fld b 15 5, fld b 10 5, fld b 5 5, fld b 4 1, fld b 2 2, fld b 0 2, fld p 20 4, fld p 0 15⟩
  zero _ _ p := fld p 15 5 == 0#5
  body _ r := BitVec.ofNat 20 ((((((r.d.toNat) * 32 + r.base.toNat) * 32 + r.ix.toNat) * 2 + r.idx.toNat) * 4 + r.g.toNat) * 4 + r.sz.toNat)
  pl r := BitVec.ofNat 24 (((r.cls.toNat) * 32) * 32768 + r.disp.toNat)
def VLoad.form : Form VLoad where
  get _ b p := ⟨fld b 15 5, fld b 10 5, fld b 5 5, fld b 4 1, fld b 2 2, fld b 0 2, fld p 20 4, fld p 17 3, (fld p 15 2) ^^^ 2#2, fld p 0 15⟩
  zero _ _ _ := true
  body _ r := BitVec.ofNat 20 ((((((r.d.toNat) * 32 + r.base.toNat) * 32 + r.ix.toNat) * 2 + r.idx.toNat) * 4 + r.g.toNat) * 4 + r.sz.toNat)
  pl r := BitVec.ofNat 24 ((((r.cls.toNat) * 8 + r.tok.toNat) * 4 + (r.u ^^^ 2#2).toNat) * 32768 + r.disp.toNat)
def VAtomic.form : Form VAtomic where
  get _ b p := ⟨fld b 15 5, fld b 10 5, fld b 5 2, fld p 20 4, fld p 0 15⟩
  zero _ b p := fld b 7 3 == 0#3 && fld b 4 1 == 0#1 && fld p 15 5 == 0#5
  body k r := BitVec.ofNat 20 ((((((r.d.toNat) * 32 + r.base.toNat) * 8) * 4 + r.w.toNat) * 2) * 16 + k)
  pl r := BitVec.ofNat 24 (((r.cls.toNat) * 32) * 32768 + r.disp.toNat)
def VUpdArgs.form : Form VUpdArgs where
  get _ b p := ⟨fld b 15 5, fld b 10 5, fld p 20 4, fld p 9 8⟩
  zero _ b p := fld b 0 10 == 0#10 && fld p 17 3 == 0#3 && fld p 0 9 == 0#9
  body _ r := BitVec.ofNat 20 (((r.d.toNat) * 32 + r.base.toNat) * 1024)
  pl r := BitVec.ofNat 24 ((((r.cls.toNat) * 8) * 256 + r.rgn.toNat) * 512)
def DqPop.form : Form DqPop where
  get _ b _ := ⟨fld b 15 5, fld b 10 3, fld b 5 5, fld b 0 5⟩
  zero _ b p := fld b 13 2 == 0#2 && p == 0#24
  body _ r := BitVec.ofNat 20 (((((r.d.toNat) * 4) * 8 + r.z.toNat) * 32 + r.c.toNat) * 32 + r.p.toNat)
  pl _ := 0#24
def MldbArgs.form : Form MldbArgs where
  get _ b _ := ⟨fld b 10 4, fld b 5 3, fld b 1 1, fld b 0 1⟩
  zero _ b p := fld b 14 6 == 0#6 && fld b 8 2 == 0#2 && fld b 2 3 == 0#3 && p == 0#24
  body _ r := BitVec.ofNat 20 ((((((r.a.toNat) * 4) * 8 + r.q.toNat) * 8) * 2 + r.ww.toNat) * 2 + r.s.toNat)
  pl _ := 0#24
def MmaArgs.form : Form MmaArgs where
  get _ b _ := ⟨fld b 15 2, fld b 10 4, fld b 2 2, fld b 1 1, fld b 0 1⟩
  zero _ b p := fld b 17 3 == 0#3 && fld b 14 1 == 0#1 && fld b 5 5 == 0#5 && fld b 4 1 == 0#1 && p == 0#24
  body _ r := BitVec.ofNat 20 ((((((((r.d.toNat) * 2) * 16 + r.a.toNat) * 32) * 2) * 4 + r.af.toNat) * 2 + r.ww.toNat) * 2 + r.ow.toNat)
  pl _ := 0#24
def MmasArgs.form : Form MmasArgs where
  get _ b _ := ⟨fld b 15 2, fld b 10 4, fld b 5 3, fld b 2 2, fld b 1 1, fld b 0 1⟩
  zero _ b p := fld b 17 3 == 0#3 && fld b 14 1 == 0#1 && fld b 8 2 == 0#2 && fld b 4 1 == 0#1 && p == 0#24
  body _ r := BitVec.ofNat 20 (((((((((r.d.toNat) * 2) * 16 + r.a.toNat) * 4) * 8 + r.q.toNat) * 2) * 4 + r.af.toNat) * 2 + r.ww.toNat) * 2 + r.ow.toNat)
  pl _ := 0#24
def MdrainArgs.form : Form MdrainArgs where
  get _ b p := ⟨fld b 15 4, fld b 10 2, fld b 3 1, fld b 0 3, fld p 0 4⟩
  zero _ b p := fld b 19 1 == 0#1 && fld b 12 3 == 0#3 && fld b 4 6 == 0#6 && fld p 4 20 == 0#20
  body _ r := BitVec.ofNat 20 ((((((r.d.toNat) * 8) * 4 + r.a.toNat) * 64) * 2 + r.sat.toNat) * 8 + r.rm.toNat)
  pl r := BitVec.ofNat 24 (r.str.toNat)
def MzaccArgs.form : Form MzaccArgs where
  get _ b p := ⟨fld b 15 2, fld b 0 2, fld p 6 6, fld p 0 6⟩
  zero _ b p := fld b 17 3 == 0#3 && fld b 2 13 == 0#13 && fld p 12 12 == 0#12
  body _ r := BitVec.ofNat 20 (((r.d.toNat) * 8192) * 4 + r.af.toNat)
  pl r := BitVec.ofNat 24 ((r.rows.toNat) * 64 + r.cols.toNat)
def McvArgs.form : Form McvArgs where
  get _ b _ := ⟨fld b 15 4, fld b 5 3, fld b 2 1, fld b 1 1, fld b 0 1⟩
  zero _ b p := fld b 19 1 == 0#1 && fld b 8 7 == 0#7 && fld b 3 2 == 0#2 && p == 0#24
  body _ r := BitVec.ofNat 20 (((((((r.d.toNat) * 128) * 8 + r.q.toNat) * 4) * 2 + r.ww.toNat) * 2 + r.rb.toNat) * 2 + r.ra.toNat)
  pl _ := 0#24
def MfillArgs.form : Form MfillArgs where
  get _ b p := ⟨fld b 15 4, fld p 0 24⟩
  zero _ b _ := fld b 19 1 == 0#1 && fld b 0 15 == 0#15
  body _ r := BitVec.ofNat 20 ((r.d.toNat) * 32768)
  pl r := BitVec.ofNat 24 (r.v.toNat)
def KMem.form : Form KMem where
  get _ b p := ⟨fld b 15 4, fld b 10 4, fld b 2 2, fld b 0 2, fld p 20 4, fld p 0 15⟩
  zero _ b p := fld b 19 1 == 0#1 && fld b 14 1 == 0#1 && fld b 4 6 == 0#6 && fld p 15 5 == 0#5
  body _ r := BitVec.ofNat 20 ((((((r.d.toNat) * 2) * 16 + r.base.toNat) * 64) * 4 + r.pos.toNat) * 4 + r.sz.toNat)
  pl r := BitVec.ofNat 24 (((r.cls.toNat) * 32) * 32768 + r.disp.toNat)
def KfillArgs.form : Form KfillArgs where
  get _ b p := ⟨fld b 15 4, fld p 0 16⟩
  zero _ b p := fld b 19 1 == 0#1 && fld b 5 10 == 0#10 && fld p 16 8 == 0#8
  body k r := BitVec.ofNat 20 (((r.d.toNat) * 1024) * 32 + k)
  pl r := BitVec.ofNat 24 (r.v.toNat)
def KsprArgs.form : Form KsprArgs where
  get _ b p := ⟨fld b 15 4, fld p 0 8⟩
  zero _ b p := fld b 19 1 == 0#1 && fld b 5 10 == 0#10 && fld p 8 16 == 0#16
  body k r := BitVec.ofNat 20 (((r.d.toNat) * 1024) * 32 + k)
  pl r := BitVec.ofNat 24 (r.v.toNat)
def CopyArgs.form : Form CopyArgs where
  get _ b p := ⟨fld b 15 4, fld p 20 4, fld p 17 3, (fld p 15 2) ^^^ 2#2⟩
  zero _ b p := fld b 19 1 == 0#1 && fld b 0 15 == 0#15 && fld p 0 15 == 0#15
  body _ r := BitVec.ofNat 20 ((r.d.toNat) * 32768)
  pl r := BitVec.ofNat 24 ((((r.cls.toNat) * 8 + r.tok.toNat) * 4 + (r.u ^^^ 2#2).toNat) * 32768)
def IndexedCopy.form : Form IndexedCopy where
  get _ b p := ⟨fld b 15 4, fld b 5 4, fld p 20 4, fld p 17 3, (fld p 15 2) ^^^ 2#2⟩
  zero _ b p := fld b 19 1 == 0#1 && fld b 9 6 == 0#6 && fld b 0 5 == 0#5 && fld p 0 15 == 0#15
  body _ r := BitVec.ofNat 20 ((((r.d.toNat) * 64) * 16 + r.ix.toNat) * 32)
  pl r := BitVec.ofNat 24 ((((r.cls.toNat) * 8 + r.tok.toNat) * 4 + (r.u ^^^ 2#2).toNat) * 32768)
def TileLoad.form : Form TileLoad where
  get _ b p := ⟨fld b 15 4, fld b 10 4, fld b 1 1, fld b 0 1, fld p 20 4, fld p 17 3, (fld p 15 2) ^^^ 2#2, fld p 0 15⟩
  zero _ b _ := fld b 19 1 == 0#1 && fld b 14 1 == 0#1 && fld b 2 8 == 0#8
  body _ r := BitVec.ofNat 20 ((((((r.t.toNat) * 2) * 16 + r.base.toNat) * 256) * 2 + r.trl.toNat) * 2 + r.spc.toNat)
  pl r := BitVec.ofNat 24 ((((r.cls.toNat) * 8 + r.tok.toNat) * 4 + (r.u ^^^ 2#2).toNat) * 32768 + r.disp.toNat)
def TileStore.form : Form TileStore where
  get _ b p := ⟨fld b 15 4, fld b 10 4, fld b 1 1, fld b 0 1, fld p 20 4, fld p 17 3, fld p 0 15⟩
  zero _ b p := fld b 19 1 == 0#1 && fld b 14 1 == 0#1 && fld b 2 8 == 0#8 && fld p 15 2 == 0#2
  body _ r := BitVec.ofNat 20 ((((((r.t.toNat) * 2) * 16 + r.base.toNat) * 256) * 2 + r.trl.toNat) * 2 + r.spc.toNat)
  pl r := BitVec.ofNat 24 ((((r.cls.toNat) * 8 + r.tok.toNat) * 4) * 32768 + r.disp.toNat)
def CpubArgs.form : Form CpubArgs where
  get _ b _ := ⟨fld b 10 10⟩
  zero _ b p := fld b 0 10 == 0#10 && p == 0#24
  body _ r := BitVec.ofNat 20 ((r.buf.toNat) * 1024)
  pl _ := 0#24
def StmapArgs.form : Form StmapArgs where
  get _ b _ := ⟨fld b 15 3, fld b 10 4⟩
  zero _ b p := fld b 18 2 == 0#2 && fld b 14 1 == 0#1 && fld b 0 10 == 0#10 && p == 0#24
  body _ r := BitVec.ofNat 20 ((((r.win.toNat) * 2) * 16 + r.a.toNat) * 1024)
  pl _ := 0#24
def StflArgs.form : Form StflArgs where
  get _ b p := ⟨fld b 4 1, fld b 3 1, fld b 0 3, fld p 20 4, fld p 17 3⟩
  zero _ b p := fld b 5 15 == 0#15 && fld p 0 17 == 0#17
  body _ r := BitVec.ofNat 20 (((r.inv.toNat) * 2 + r.all.toNat) * 8 + r.win.toNat)
  pl r := BitVec.ofNat 24 (((r.cls.toNat) * 8 + r.tok.toNat) * 131072)
def ChintArgs.form : Form ChintArgs where
  get _ b p := ⟨fld b 10 4, fld b 0 1, fld p 20 4, fld p 0 15⟩
  zero _ b p := fld b 14 6 == 0#6 && fld b 1 9 == 0#9 && fld p 15 5 == 0#5
  body _ r := BitVec.ofNat 20 (((r.base.toNat) * 512) * 2 + r.un.toNat)
  pl r := BitVec.ofNat 24 (((r.cls.toNat) * 32) * 32768 + r.pages.toNat)
def NetCopy.form : Form NetCopy where
  get _ b p := ⟨fld b 15 4, fld p 20 4, fld p 17 3⟩
  zero _ b p := fld b 19 1 == 0#1 && fld b 0 15 == 0#15 && fld p 0 17 == 0#17
  body _ r := BitVec.ofNat 20 ((r.d.toNat) * 32768)
  pl r := BitVec.ofNat 24 (((r.cls.toNat) * 8 + r.tok.toNat) * 131072)
def DescMove.form : Form DescMove where
  get _ b p := ⟨fld b 15 4, fld b 10 4, fld b 4 1, fld b 1 3, fld b 0 1, fld p 20 4, fld p 0 15⟩
  zero _ b p := fld b 19 1 == 0#1 && fld b 14 1 == 0#1 && fld b 5 5 == 0#5 && fld p 15 5 == 0#5
  body _ r := BitVec.ofNat 20 (((((((r.d.toNat) * 2) * 16 + r.base.toNat) * 32) * 2 + r.one.toNat) * 8 + r.word.toNat) * 2 + r.ba.toNat)
  pl r := BitVec.ofNat 24 (((r.cls.toNat) * 32) * 32768 + r.off.toNat)
def WaitArgs.form : Form WaitArgs where
  get _ b p := ⟨fld b 10 3, fld p 0 8⟩
  zero _ b p := fld b 13 7 == 0#7 && fld b 0 10 == 0#10 && fld p 8 16 == 0#16
  body _ r := BitVec.ofNat 20 ((r.a.toNat) * 1024)
  pl r := BitVec.ofNat 24 (r.mask.toNat)
def FwaitArgs.form : Form FwaitArgs where
  get _ b p := ⟨fld b 10 4, BitVec.ofNat 16 ((fld p 0 11).toNat * 32 + (fld b 5 5).toNat)⟩
  zero _ b p := fld b 14 6 == 0#6 && fld p 11 13 == 0#13
  body k r := BitVec.ofNat 20 (((r.f.toNat) * 32 + (fld r.n 0 5).toNat) * 32 + k)
  pl r := BitVec.ofNat 24 (fld r.n 5 11).toNat
  ext r := fld r.n 5 11 != 0#11
def FpostArgs.form : Form FpostArgs where
  get _ b p := ⟨fld b 10 4, fld p 0 15⟩
  zero _ b p := fld b 14 6 == 0#6 && fld b 5 5 == 0#5 && fld p 15 9 == 0#9
  body k r := BitVec.ofNat 20 (((r.f.toNat) * 32) * 32 + k)
  pl r := BitVec.ofNat 24 (r.n.toNat)
def FsetArgs.form : Form FsetArgs where
  get _ b p := ⟨fld b 10 4, fld p 0 16⟩
  zero _ b p := fld b 14 6 == 0#6 && fld b 5 5 == 0#5 && fld p 16 8 == 0#8
  body k r := BitVec.ofNat 20 (((r.f.toNat) * 32) * 32 + k)
  pl r := BitVec.ofNat 24 (r.v.toNat)
def RpostArgs.form : Form RpostArgs where
  get _ b p := ⟨fld b 15 5, fld b 10 4, fld b 5 5, fld p 0 15⟩
  zero _ b p := fld b 14 1 == 0#1 && fld p 15 9 == 0#9
  body k r := BitVec.ofNat 20 (((((r.thi.toNat) * 2) * 16 + r.f.toNat) * 32 + r.tlo.toNat) * 32 + k)
  pl r := BitVec.ofNat 24 (r.n.toNat)
def RpostPred.form : Form RpostPred where
  get _ b p := ⟨fld b 10 4, fld b 5 4, fld p 0 15⟩
  zero _ b p := fld b 14 6 == 0#6 && fld b 9 1 == 0#1 && fld p 15 9 == 0#9
  body k r := BitVec.ofNat 20 ((((r.f.toNat) * 2) * 16 + r.p.toNat) * 32 + k)
  pl r := BitVec.ofNat 24 (r.n.toNat)
def BarrArgs.form : Form BarrArgs where
  get _ b _ := ⟨fld b 10 6⟩
  zero _ b p := fld b 16 4 == 0#4 && fld b 0 10 == 0#10 && p == 0#24
  body _ r := BitVec.ofNat 20 ((r.g.toNat) * 1024)
  pl _ := 0#24
def FenceArgs.form : Form FenceArgs where
  get _ b p := ⟨fld b 15 5, fld b 0 3, fld p 0 16⟩
  zero _ b p := fld b 3 12 == 0#12 && fld p 16 8 == 0#8
  body _ r := BitVec.ofNat 20 (((r.kind.toNat) * 4096) * 8 + r.scope.toNat)
  pl r := BitVec.ofNat 24 (r.ncls.toNat)
def ForkArgs.form : Form ForkArgs where
  get ex b p := ⟨(if ex then BitVec.ofNat 29 (p.toNat * 32 + (fld b 10 5).toNat) else (fld b 10 5).signExtend 29), fld b 5 5, fld b 2 1, fld b 0 2⟩
  zero _ b _ := fld b 15 5 == 0#5 && fld b 3 2 == 0#2
  body _ r := BitVec.ofNat 20 ((((((fld r.entry 0 5).toNat) * 32 + r.b.toNat) * 4) * 2 + r.dyn.toNat) * 4 + r.mem.toNat)
  pl r := fld r.entry 5 24
  ext r := (fld r.entry 0 5).signExtend 29 != r.entry
def FprobeArgs.form : Form FprobeArgs where
  get ex b p := ⟨fld b 15 4, (if ex then BitVec.ofNat 29 (p.toNat * 32 + (fld b 10 5).toNat) else (fld b 10 5).signExtend 29), fld b 5 5, fld b 2 1, fld b 0 2⟩
  zero _ b _ := fld b 19 1 == 0#1 && fld b 4 1 == 0#1
  body k r := BitVec.ofNat 20 (((((((r.pd.toNat) * 32 + (fld r.entry 0 5).toNat) * 32 + r.b.toNat) * 2) * 2 + k) * 2 + r.dyn.toNat) * 4 + r.mem.toNat)
  pl r := fld r.entry 5 24
  ext r := (fld r.entry 0 5).signExtend 29 != r.entry
def VRndArgs.form : Form VRndArgs where
  get _ b p := ⟨fld b 15 5, fld p 12 4⟩
  zero _ b p := fld b 5 10 == 0#10 && fld p 16 8 == 0#8 && fld p 0 12 == 0#12
  body k r := BitVec.ofNat 20 (((r.d.toNat) * 1024) * 32 + k)
  pl r := BitVec.ofNat 24 ((r.str.toNat) * 4096)
def Disp.form : Form Disp where
  get ex b p := ⟨(if ex then BitVec.ofNat 44 (p.toNat * 1048576 + (fld b 0 20).toNat) else (fld b 0 20).signExtend 44)⟩
  zero _ _ _ := true
  body _ r := BitVec.ofNat 20 ((fld r.disp 0 20).toNat)
  pl r := fld r.disp 20 24
  ext r := (fld r.disp 0 20).signExtend 44 != r.disp
def JrArgs.form : Form JrArgs where
  get _ b _ := ⟨fld b 10 5⟩
  zero _ b p := fld b 15 5 == 0#5 && fld b 0 10 == 0#10 && p == 0#24
  body _ r := BitVec.ofNat 20 ((r.a.toNat) * 1024)
  pl _ := 0#24
def MtcfgArgs.form : Form MtcfgArgs where
  get _ b _ := ⟨fld b 15 4, fld b 10 5⟩
  zero _ b p := fld b 19 1 == 0#1 && fld b 0 10 == 0#10 && p == 0#24
  body _ r := BitVec.ofNat 20 (((r.t.toNat) * 32 + r.a.toNat) * 1024)
  pl _ := 0#24
def MftcfgArgs.form : Form MftcfgArgs where
  get _ b _ := ⟨fld b 15 5, fld b 10 4⟩
  zero _ b p := fld b 14 1 == 0#1 && fld b 0 10 == 0#10 && p == 0#24
  body _ r := BitVec.ofNat 20 ((((r.d.toNat) * 2) * 16 + r.t.toNat) * 1024)
  pl _ := 0#24
def SrMove.form : Form SrMove where
  get _ b _ := ⟨fld b 15 5, fld b 0 10⟩
  zero _ b p := fld b 10 5 == 0#5 && p == 0#24
  body _ r := BitVec.ofNat 20 (((r.d.toNat) * 32) * 1024 + r.n.toNat)
  pl _ := 0#24
def TrapArgs.form : Form TrapArgs where
  get _ b _ := ⟨fld b 0 6⟩
  zero _ b p := fld b 6 14 == 0#14 && p == 0#24
  body _ r := BitVec.ofNat 20 (r.imm.toNat)
  pl _ := 0#24
def OneReg.form : Form OneReg where
  get _ b _ := ⟨fld b 10 5⟩
  zero _ b p := fld b 15 5 == 0#5 && fld b 5 5 == 0#5 && p == 0#24
  body k r := BitVec.ofNat 20 (((r.a.toNat) * 32) * 32 + k)
  pl _ := 0#24
def TwoReg.form : Form TwoReg where
  get _ b _ := ⟨fld b 10 5, fld b 5 5⟩
  zero _ b p := fld b 15 5 == 0#5 && p == 0#24
  body k r := BitVec.ofNat 20 (((r.a.toNat) * 32 + r.b.toNat) * 32 + k)
  pl _ := 0#24
def ZeroFn.form : Form ZeroFn where
  get _ _ _ := ⟨⟩
  zero _ b p := fld b 5 15 == 0#15 && p == 0#24
  body k _ := BitVec.ofNat 20 (k)
  pl _ := 0#24
def LaunchArgs.form : Form LaunchArgs where
  get _ b _ := ⟨fld b 15 5, fld b 10 5, fld b 5 5⟩
  zero _ b p := fld b 0 5 == 0#5 && p == 0#24
  body _ r := BitVec.ofNat 20 ((((r.d.toNat) * 32 + r.a.toNat) * 32 + r.b.toNat) * 32)
  pl _ := 0#24
def TilePair.form : Form TilePair where
  get _ b _ := ⟨fld b 15 4, fld b 10 4⟩
  zero _ b p := fld b 19 1 == 0#1 && fld b 14 1 == 0#1 && fld b 0 10 == 0#10 && p == 0#24
  body _ r := BitVec.ofNat 20 ((((r.d.toNat) * 2) * 16 + r.a.toNat) * 1024)
  pl _ := 0#24
def KPair.form : Form KPair where
  get _ b _ := ⟨fld b 15 4, fld b 10 4⟩
  zero _ b p := fld b 19 1 == 0#1 && fld b 14 1 == 0#1 && fld b 5 5 == 0#5 && p == 0#24
  body k r := BitVec.ofNat 20 (((((r.d.toNat) * 2) * 16 + r.a.toNat) * 32) * 32 + k)
  pl _ := 0#24
def TileRead.form : Form TileRead where
  get _ b p := ⟨fld b 15 5, fld b 10 5, fld b 0 2, fld p 17 7, (fld p 0 2) ^^^ 2#2⟩
  zero _ b p := fld b 5 5 == 0#5 && fld b 2 2 == 0#2 && fld p 2 15 == 0#15
  body k r := BitVec.ofNat 20 ((((((r.d.toNat) * 32 + r.t.toNat) * 32) * 2 + k) * 4) * 4 + r.part.toNat)
  pl r := BitVec.ofNat 24 (((r.k.toNat) * 32768) * 4 + (r.w ^^^ 2#2).toNat)
def TileReadReg.form : Form TileReadReg where
  get _ b p := ⟨fld b 15 5, fld b 10 5, fld b 5 5, fld b 0 2, (fld p 0 2) ^^^ 2#2⟩
  zero _ b p := fld b 2 2 == 0#2 && fld p 2 22 == 0#22
  body k r := BitVec.ofNat 20 ((((((r.d.toNat) * 32 + r.t.toNat) * 32 + r.b.toNat) * 2 + k) * 4) * 4 + r.part.toNat)
  pl r := BitVec.ofNat 24 ((r.w ^^^ 2#2).toNat)

/-- The file codes of xfr and chk (R322). -/
def RFile.code : RFile → Nat
  | .s => 0 | .x => 1 | .v => 2 | .k => 3 | .p => 4
def RFile.ofCode : Nat → RFile
  | 0 => .s | 1 => .x | 2 => .v | 3 => .k | _ => .p
/-- FN of xfr: 4 × source + the position of the destination among the other four (R322). -/
def Xfer.fn (src dst : RFile) : Nat := 4 * src.code + (if dst.code < src.code then dst.code else dst.code - 1)
def Xfer.form : Form Xfer where
  get _ b _ :=
    let f := (fld b 0 5).toNat
    let s := f / 4
    let j := f % 4
    ⟨RFile.ofCode s, RFile.ofCode (if j < s then j else j + 1), fld b 15 5, fld b 10 5, fld b 5 4⟩
  zero _ b p := fld b 9 1 == 0#1 && p == 0#24
  body _ r := BitVec.ofNat 20 (((r.d.toNat * 32 + r.a.toNat) * 32 + r.e.toNat) * 32 + Xfer.fn r.src r.dst)
  pl _ := 0#24
def DescField.form : Form DescField where
  get ex b p := ⟨fld b 15 5, fld b 10 5, if ex then .imm (fld p 0 6) (fld p 6 7) else .reg (fld b 5 5)⟩
  zero ex b p := if ex then fld b 5 5 == 0#5 && fld p 13 11 == 0#11 else true
  body k r := BitVec.ofNat 20 (((r.d.toNat * 32 + r.a.toNat) * 32 + (match r.f with | .imm _ _ => 0 | .reg b => b.toNat)) * 32 + k)
  pl r := match r.f with
    | .imm pos wid => BitVec.ofNat 24 (wid.toNat * 64 + pos.toNat)
    | .reg _ => 0#24
  ext r := match r.f with | .imm _ _ => true | .reg _ => false
def ChkArgs.form : Form ChkArgs where
  get _ b _ := ⟨RFile.ofCode (fld b 0 3).toNat, fld b 10 5, RFile.ofCode (fld b 15 3).toNat, fld b 5 5⟩
  zero _ b p := fld b 18 2 == 0#2 && fld b 3 2 == 0#2 && p == 0#24
  body _ r := BitVec.ofNat 20 (((r.fb.code * 32 + r.a.toNat) * 32 + r.b.toNat) * 32 + r.fa.code)
  pl _ := 0#24

/-- What the checks on one word share: the slot, the sequencer, and whether guard and extension are as R298 and R299 ask. -/
structure Head where
  sl : Slot
  svc : Bool
  guardFile : Bool
  hdrOk : Bool

/-- The checks of R303 that follow the choice of the row, in their order: the other selectors, reserved bits, register files. -/
def checkForm {α : Type} (f : Form α) (l : Limits α) (h : Head) (ex : Bool) (b : BitVec 20) (p : BitVec 24) : Except Cause Unit :=
  let r := f.get ex b p
  if !l.sel r then .error 1#10
  else if !(h.hdrOk && f.zero ex b p && l.res h.svc r) then .error 2#10
  else if !(h.guardFile && l.regs h.sl h.svc r) then .error (if h.svc then 7#10 else 2#10)
  else .ok ()

/-- The same for an operation of form Z: the body and PAYLOAD are reserved. -/
def checkZ (h : Head) (b : BitVec 20) (p : BitVec 24) : Except Cause Unit :=
  if !(h.hdrOk && b == 0#20 && p == 0#24) then .error 2#10
  else if !h.guardFile then .error (if h.svc then 7#10 else 2#10)
  else .ok ()

/-- The rows of the table that have an encoding: what a slot word selects before its operands are read. -/
inductive Row where
  | nop | add | sub | and | or | xor | andn | shl
  | shr | sra | rol | mul | mulhs | mulhu | min | max
  | minu | maxu | addw | subw | movr | addImm | andImm | orImm
  | xorImm | shlImm | shrImm | sraImm | mulImm | mov | movhi | cmp
  | cmpImm | pand | por | pxor | pandn | xfr | br | call
  | brz | brnz | ret | jr | loop | loopi | mtcfg | mftcfg
  | dfpk | dfex | dfexS | ldsp | stsp | ld | st | atomAdd
  | atomAnd | atomOr | atomXor | atomSmin | atomSmax | atomUmin | atomUmax | atomSwap
  | atomCas | atomBfi | atomFfcs | atomPlset | upd | pref | waitline | launch
  | exit | mfsr | mfsrIo | mtsr | mtsrIo | trap | eret | sret
  | tlbiAll | tlbiCtx | tlbiPage | cmntIcinv | cmntIcinvPkg | cmntSdcinv | cmntWbctx | cadv
  | popc | clz | ctz | bscan | bscanc | aqp | aqpIdx | aqps
  | vadd | vsub | vmul | vmulhs | vmulhu | vmin | vmax | vminu
  | vmaxu | vadds | vsubs | vaddus | vsubus | vabs | vneg | vand
  | vor | vxor | vandn | vmov | vmulq | vmac | vmacs | vmacwl
  | vmacwh | vshl | vshr | vsra | vrol | vshlImm | vshrImm | vsraImm
  | vrolImm | vcmp | vfcmp | vsel | vfadd | vfsub | vfmul | vfdiv
  | vfsqrt | vfmin | vfmax | vfabs | vfneg | vfma | vfms | vfnma
  | vfnms | vcvt | vqntE2m1s | vqntE4m3 | vqntE5m2 | vdqnt | vradd | vrmin
  | vrmax | vrminu | vrmaxu | vrand | vror | vrxor | vrfadd | vrfmin
  | vrfmax | vscanadd | vscanaddx | vscanmax | vscanmin | vscanmaxu | vscanminu | vscanfadd
  | vperm | vrot | vext | vzipl | vziph | vuzpe | vuzpo | vsplat
  | vrev | vrcp | vrsqrt | vexp2 | vlog2 | vsinpi | vcospi | vtanh
  | vsigm | vrnd | vbcast | vtrd | vtrdReg | vtwr | vtwrReg | vldsp
  | vstsp | vld | vst | vamoAdd | vamoAnd | vamoOr | vamoXor | vamoSmin
  | vamoSmax | vamoUmin | vamoUmax | vamoSwap | vupd | dqpop | mldb | mswap
  | mma | mmas | mdrain | mzacc | mcv | mtrn | mfill | mtcpy
  | kld | kst | kmov | kfill | kspr | ksprReg | cpy | gath
  | scat | tldi | tsti | cpub | stmap | stfl | chint | cnput
  | cnget | dld | dst | wait | fwait | fwaitC | fwaitEq | fpost
  | fset | rpost | rpostRel | rpostPred | barr | bwait | rdv | fence
  | chk | fork | fprobe | fprobeF
deriving DecidableEq, Repr

def rowSX00 (_ex : Bool) (_b : BitVec 20) (_p : BitVec 24) : Except Cause Row :=
  .ok .nop
def rowSX01 (_ex : Bool) (b : BitVec 20) (_p : BitVec 24) : Except Cause Row :=
  match (fld b 0 5).toNat with
    | 0 => .ok .add
    | 1 => .ok .sub
    | 2 => .ok .and
    | 3 => .ok .or
    | 4 => .ok .xor
    | 5 => .ok .andn
    | 6 => .ok .shl
    | 7 => .ok .shr
    | 8 => .ok .sra
    | 9 => .ok .rol
    | 10 => .ok .mul
    | 11 => .ok .mulhs
    | 12 => .ok .mulhu
    | 13 => .ok .min
    | 14 => .ok .max
    | 15 => .ok .minu
    | 16 => .ok .maxu
    | 17 => .ok .addw
    | 18 => .ok .subw
    | 19 => .ok .movr
    | _ => .error 1#10
def rowSX02 (_ex : Bool) (_b : BitVec 20) (_p : BitVec 24) : Except Cause Row :=
  .ok .addImm
def rowSX03 (_ex : Bool) (_b : BitVec 20) (_p : BitVec 24) : Except Cause Row :=
  .ok .andImm
def rowSX04 (_ex : Bool) (_b : BitVec 20) (_p : BitVec 24) : Except Cause Row :=
  .ok .orImm
def rowSX05 (_ex : Bool) (_b : BitVec 20) (_p : BitVec 24) : Except Cause Row :=
  .ok .xorImm
def rowSX06 (_ex : Bool) (_b : BitVec 20) (_p : BitVec 24) : Except Cause Row :=
  .ok .shlImm
def rowSX07 (_ex : Bool) (_b : BitVec 20) (_p : BitVec 24) : Except Cause Row :=
  .ok .shrImm
def rowSX08 (_ex : Bool) (_b : BitVec 20) (_p : BitVec 24) : Except Cause Row :=
  .ok .sraImm
def rowSX09 (_ex : Bool) (_b : BitVec 20) (_p : BitVec 24) : Except Cause Row :=
  .ok .mulImm
def rowSX0A (_ex : Bool) (_b : BitVec 20) (_p : BitVec 24) : Except Cause Row :=
  .ok .mov
def rowSX0B (_ex : Bool) (_b : BitVec 20) (_p : BitVec 24) : Except Cause Row :=
  .ok .movhi
def rowSX0C (_ex : Bool) (b : BitVec 20) (_p : BitVec 24) : Except Cause Row :=
  if fld b 1 1 == 0#1 then .ok .cmp else .ok .cmpImm
/-- The operations that the S and X maps share (R304, R306). -/
def rowSX (op : Nat) (ex : Bool) (b : BitVec 20) (p : BitVec 24) : Except Cause Row :=
  match op with
  | 0 => rowSX00 ex b p
  | 1 => rowSX01 ex b p
  | 2 => rowSX02 ex b p
  | 3 => rowSX03 ex b p
  | 4 => rowSX04 ex b p
  | 5 => rowSX05 ex b p
  | 6 => rowSX06 ex b p
  | 7 => rowSX07 ex b p
  | 8 => rowSX08 ex b p
  | 9 => rowSX09 ex b p
  | 10 => rowSX0A ex b p
  | 11 => rowSX0B ex b p
  | 12 => rowSX0C ex b p
  | _ => .error 1#10

def rowS0D (_ex : Bool) (b : BitVec 20) (_p : BitVec 24) : Except Cause Row :=
  match (fld b 12 4).toNat with
    | 0 => .ok .pand
    | 1 => .ok .por
    | 2 => .ok .pxor
    | 3 => .ok .pandn
    | _ => .error 1#10
def rowS0E (_ex : Bool) (b : BitVec 20) (_p : BitVec 24) : Except Cause Row :=
  if (fld b 0 5).toNat < 20 then .ok .xfr else .error 0x001#10
def rowS10 (_ex : Bool) (_b : BitVec 20) (_p : BitVec 24) : Except Cause Row :=
  .ok .br
def rowS11 (_ex : Bool) (_b : BitVec 20) (_p : BitVec 24) : Except Cause Row :=
  .ok .call
def rowS12 (_ex : Bool) (_b : BitVec 20) (_p : BitVec 24) : Except Cause Row :=
  .ok .brz
def rowS13 (_ex : Bool) (_b : BitVec 20) (_p : BitVec 24) : Except Cause Row :=
  .ok .brnz
def rowS14 (_ex : Bool) (_b : BitVec 20) (_p : BitVec 24) : Except Cause Row :=
  .ok .ret
def rowS15 (_ex : Bool) (_b : BitVec 20) (_p : BitVec 24) : Except Cause Row :=
  .ok .jr
def rowS16 (_ex : Bool) (_b : BitVec 20) (_p : BitVec 24) : Except Cause Row :=
  .ok .loop
def rowS17 (_ex : Bool) (_b : BitVec 20) (_p : BitVec 24) : Except Cause Row :=
  .ok .loopi
def rowS18 (_ex : Bool) (_b : BitVec 20) (_p : BitVec 24) : Except Cause Row :=
  .ok .mtcfg
def rowS19 (_ex : Bool) (_b : BitVec 20) (_p : BitVec 24) : Except Cause Row :=
  .ok .mftcfg
def rowS1A (_ex : Bool) (b : BitVec 20) (_p : BitVec 24) : Except Cause Row :=
  if fld b 0 5 == 0#5 then .ok .dfpk else .error 1#10
def rowS1B (_ex : Bool) (b : BitVec 20) (_p : BitVec 24) : Except Cause Row :=
  match (fld b 0 5).toNat with
    | 0 => .ok .dfex
    | 1 => .ok .dfexS
    | _ => .error 1#10
def rowS20 (_ex : Bool) (_b : BitVec 20) (_p : BitVec 24) : Except Cause Row :=
  .ok .ldsp
def rowS21 (_ex : Bool) (_b : BitVec 20) (_p : BitVec 24) : Except Cause Row :=
  .ok .stsp
def rowS22 (_ex : Bool) (_b : BitVec 20) (_p : BitVec 24) : Except Cause Row :=
  .ok .ld
def rowS23 (_ex : Bool) (_b : BitVec 20) (_p : BitVec 24) : Except Cause Row :=
  .ok .st
def rowS24 (_ex : Bool) (b : BitVec 20) (_p : BitVec 24) : Except Cause Row :=
  match (fld b 0 4).toNat with
    | 0 => .ok .atomAdd
    | 1 => .ok .atomAnd
    | 2 => .ok .atomOr
    | 3 => .ok .atomXor
    | 4 => .ok .atomSmin
    | 5 => .ok .atomSmax
    | 6 => .ok .atomUmin
    | 7 => .ok .atomUmax
    | 8 => .ok .atomSwap
    | 9 => .ok .atomCas
    | 10 => if fld b 4 1 == 1#1 then .ok .atomBfi else .error 1#10
    | 11 => if fld b 4 1 == 1#1 then .ok .atomFfcs else .error 1#10
    | 12 => if fld b 4 1 == 1#1 then .ok .atomPlset else .error 1#10
    | _ => .error 1#10
def rowS25 (_ex : Bool) (_b : BitVec 20) (_p : BitVec 24) : Except Cause Row :=
  .ok .upd
def rowS26 (_ex : Bool) (_b : BitVec 20) (_p : BitVec 24) : Except Cause Row :=
  .ok .pref
def rowS28 (_ex : Bool) (_b : BitVec 20) (_p : BitVec 24) : Except Cause Row :=
  .ok .waitline
def rowS29 (_ex : Bool) (_b : BitVec 20) (_p : BitVec 24) : Except Cause Row :=
  .ok .launch
def rowS2A (_ex : Bool) (_b : BitVec 20) (_p : BitVec 24) : Except Cause Row :=
  .ok .exit
def rowS30 (ex : Bool) (_b : BitVec 20) (p : BitVec 24) : Except Cause Row :=
  if ex && fld p 23 1 == 1#1 then .ok .mfsrIo else .ok .mfsr
def rowS31 (ex : Bool) (_b : BitVec 20) (p : BitVec 24) : Except Cause Row :=
  if ex && fld p 23 1 == 1#1 then .ok .mtsrIo else .ok .mtsr
def rowS32 (_ex : Bool) (_b : BitVec 20) (_p : BitVec 24) : Except Cause Row :=
  .ok .trap
def rowS33 (_ex : Bool) (_b : BitVec 20) (_p : BitVec 24) : Except Cause Row :=
  .ok .eret
def rowS34 (_ex : Bool) (_b : BitVec 20) (_p : BitVec 24) : Except Cause Row :=
  .ok .sret
def rowS35 (_ex : Bool) (b : BitVec 20) (_p : BitVec 24) : Except Cause Row :=
  match (fld b 0 5).toNat with
    | 0 => .ok .tlbiAll
    | 1 => .ok .tlbiCtx
    | 2 => .ok .tlbiPage
    | _ => .error 1#10
def rowS36 (_ex : Bool) (b : BitVec 20) (_p : BitVec 24) : Except Cause Row :=
  match (fld b 0 5).toNat with
    | 0 => .ok .cmntIcinv
    | 1 => .ok .cmntIcinvPkg
    | 2 => .ok .cmntSdcinv
    | 3 => .ok .cmntWbctx
    | _ => .error 1#10
/-- The S map beyond the shared operations (R304). -/
def rowS (op : Nat) (ex : Bool) (b : BitVec 20) (p : BitVec 24) : Except Cause Row :=
  match op with
  | 13 => rowS0D ex b p
  | 14 => rowS0E ex b p
  | 16 => rowS10 ex b p
  | 17 => rowS11 ex b p
  | 18 => rowS12 ex b p
  | 19 => rowS13 ex b p
  | 20 => rowS14 ex b p
  | 21 => rowS15 ex b p
  | 22 => rowS16 ex b p
  | 23 => rowS17 ex b p
  | 24 => rowS18 ex b p
  | 25 => rowS19 ex b p
  | 26 => rowS1A ex b p
  | 27 => rowS1B ex b p
  | 32 => rowS20 ex b p
  | 33 => rowS21 ex b p
  | 34 => rowS22 ex b p
  | 35 => rowS23 ex b p
  | 36 => rowS24 ex b p
  | 37 => rowS25 ex b p
  | 38 => rowS26 ex b p
  | 40 => rowS28 ex b p
  | 41 => rowS29 ex b p
  | 42 => rowS2A ex b p
  | 48 => rowS30 ex b p
  | 49 => rowS31 ex b p
  | 50 => rowS32 ex b p
  | 51 => rowS33 ex b p
  | 52 => rowS34 ex b p
  | 53 => rowS35 ex b p
  | 54 => rowS36 ex b p
  | _ => rowSX op ex b p

def rowX10 (_ex : Bool) (_b : BitVec 20) (_p : BitVec 24) : Except Cause Row :=
  .ok .cadv
def rowX11 (_ex : Bool) (b : BitVec 20) (_p : BitVec 24) : Except Cause Row :=
  match (fld b 0 5).toNat with
    | 0 => .ok .popc
    | 1 => .ok .clz
    | 2 => .ok .ctz
    | _ => .error 1#10
def rowX12 (_ex : Bool) (b : BitVec 20) (_p : BitVec 24) : Except Cause Row :=
  match (fld b 0 5).toNat with
    | 0 => .ok .bscan
    | 1 => .ok .bscanc
    | _ => .error 1#10
def rowX18 (_ex : Bool) (b : BitVec 20) (_p : BitVec 24) : Except Cause Row :=
  match (fld b 3 2).toNat with
    | 0 => .ok .aqp
    | 1 => .ok .aqpIdx
    | _ => .error 1#10
def rowX19 (_ex : Bool) (b : BitVec 20) (_p : BitVec 24) : Except Cause Row :=
  match (fld b 3 2).toNat with
    | 0 => .ok .aqps
    | _ => .error 1#10
/-- The X map beyond the shared operations (R306). -/
def rowX (op : Nat) (ex : Bool) (b : BitVec 20) (p : BitVec 24) : Except Cause Row :=
  match op with
  | 16 => rowX10 ex b p
  | 17 => rowX11 ex b p
  | 18 => rowX12 ex b p
  | 24 => rowX18 ex b p
  | 25 => rowX19 ex b p
  | _ => rowSX op ex b p

def rowV01 (_ex : Bool) (b : BitVec 20) (_p : BitVec 24) : Except Cause Row :=
  match (fld b 0 5).toNat with
    | 0 => .ok .vadd
    | 1 => .ok .vsub
    | 2 => .ok .vmul
    | 3 => .ok .vmulhs
    | 4 => .ok .vmulhu
    | 5 => .ok .vmin
    | 6 => .ok .vmax
    | 7 => .ok .vminu
    | 8 => .ok .vmaxu
    | 9 => .ok .vadds
    | 10 => .ok .vsubs
    | 11 => .ok .vaddus
    | 12 => .ok .vsubus
    | 13 => .ok .vabs
    | 14 => .ok .vneg
    | 15 => .ok .vand
    | 16 => .ok .vor
    | 17 => .ok .vxor
    | 18 => .ok .vandn
    | 19 => .ok .vmov
    | 20 => .ok .vmulq
    | 21 => .ok .vmac
    | 22 => .ok .vmacs
    | 23 => .ok .vmacwl
    | 24 => .ok .vmacwh
    | _ => .error 1#10
def rowV02 (_ex : Bool) (b : BitVec 20) (_p : BitVec 24) : Except Cause Row :=
  match (fld b 0 5).toNat with
    | 0 => .ok .vshl
    | 1 => .ok .vshr
    | 2 => .ok .vsra
    | 3 => .ok .vrol
    | 4 => .ok .vshlImm
    | 5 => .ok .vshrImm
    | 6 => .ok .vsraImm
    | 7 => .ok .vrolImm
    | _ => .error 1#10
def rowV03 (_ex : Bool) (_b : BitVec 20) (_p : BitVec 24) : Except Cause Row :=
  .ok .vcmp
def rowV04 (_ex : Bool) (b : BitVec 20) (_p : BitVec 24) : Except Cause Row :=
  match (fld b 0 5).toNat with
    | 0 => .ok .vfadd
    | 1 => .ok .vfsub
    | 2 => .ok .vfmul
    | 3 => .ok .vfdiv
    | 4 => .ok .vfsqrt
    | 5 => .ok .vfmin
    | 6 => .ok .vfmax
    | 7 => .ok .vfabs
    | 8 => .ok .vfneg
    | _ => .error 1#10
def rowV05 (_ex : Bool) (b : BitVec 20) (_p : BitVec 24) : Except Cause Row :=
  match (fld b 0 5).toNat with
    | 0 => .ok .vfma
    | 1 => .ok .vfms
    | 2 => .ok .vfnma
    | 3 => .ok .vfnms
    | _ => .error 1#10
def rowV06 (_ex : Bool) (_b : BitVec 20) (_p : BitVec 24) : Except Cause Row :=
  .ok .vfcmp
def rowV07 (_ex : Bool) (_b : BitVec 20) (_p : BitVec 24) : Except Cause Row :=
  .ok .vsel
def rowV08 (_ex : Bool) (_b : BitVec 20) (_p : BitVec 24) : Except Cause Row :=
  .ok .vcvt
def rowV09 (_ex : Bool) (b : BitVec 20) (_p : BitVec 24) : Except Cause Row :=
  match (fld b 3 2).toNat with
    | 0 => .ok .vqntE2m1s
    | 1 => .ok .vqntE4m3
    | 2 => .ok .vqntE5m2
    | 3 => .ok .vdqnt
    | _ => .error 1#10
def rowV0A (_ex : Bool) (b : BitVec 20) (_p : BitVec 24) : Except Cause Row :=
  match (fld b 0 5).toNat with
    | 0 => .ok .vradd
    | 1 => .ok .vrmin
    | 2 => .ok .vrmax
    | 3 => .ok .vrminu
    | 4 => .ok .vrmaxu
    | 5 => .ok .vrand
    | 6 => .ok .vror
    | 7 => .ok .vrxor
    | 8 => .ok .vrfadd
    | 9 => .ok .vrfmin
    | 10 => .ok .vrfmax
    | _ => .error 1#10
def rowV0B (_ex : Bool) (b : BitVec 20) (_p : BitVec 24) : Except Cause Row :=
  match (fld b 0 5).toNat with
    | 0 => .ok .vscanadd
    | 1 => .ok .vscanaddx
    | 2 => .ok .vscanmax
    | 3 => .ok .vscanmin
    | 4 => .ok .vscanmaxu
    | 5 => .ok .vscanminu
    | 6 => .ok .vscanfadd
    | _ => .error 1#10
def rowV0C (_ex : Bool) (b : BitVec 20) (_p : BitVec 24) : Except Cause Row :=
  match (fld b 0 5).toNat with
    | 0 => .ok .vperm
    | 1 => .ok .vrot
    | 2 => .ok .vext
    | 3 => .ok .vzipl
    | 4 => .ok .vziph
    | 5 => .ok .vuzpe
    | 6 => .ok .vuzpo
    | 7 => .ok .vsplat
    | 8 => .ok .vrev
    | _ => .error 1#10
def rowV0D (_ex : Bool) (b : BitVec 20) (_p : BitVec 24) : Except Cause Row :=
  match (fld b 0 5).toNat with
    | 0 => .ok .vrcp
    | 1 => .ok .vrsqrt
    | 2 => .ok .vexp2
    | 3 => .ok .vlog2
    | 4 => .ok .vsinpi
    | 5 => .ok .vcospi
    | 6 => .ok .vtanh
    | 7 => .ok .vsigm
    | _ => .error 1#10
def rowV0E (_ex : Bool) (b : BitVec 20) (_p : BitVec 24) : Except Cause Row :=
  match (fld b 0 5).toNat with
    | 0 => .ok .vrnd
    | _ => .error 1#10
def rowV0F (_ex : Bool) (_b : BitVec 20) (_p : BitVec 24) : Except Cause Row :=
  .ok .vbcast
def rowV10 (_ex : Bool) (b : BitVec 20) (_p : BitVec 24) : Except Cause Row :=
  match (fld b 4 1).toNat with
    | 0 => .ok .vtrd
    | 1 => .ok .vtrdReg
    | _ => .error 1#10
def rowV11 (_ex : Bool) (b : BitVec 20) (_p : BitVec 24) : Except Cause Row :=
  match (fld b 4 1).toNat with
    | 0 => .ok .vtwr
    | 1 => .ok .vtwrReg
    | _ => .error 1#10
def rowV20 (_ex : Bool) (_b : BitVec 20) (_p : BitVec 24) : Except Cause Row :=
  .ok .vldsp
def rowV21 (_ex : Bool) (_b : BitVec 20) (_p : BitVec 24) : Except Cause Row :=
  .ok .vstsp
def rowV22 (_ex : Bool) (_b : BitVec 20) (_p : BitVec 24) : Except Cause Row :=
  .ok .vld
def rowV23 (_ex : Bool) (_b : BitVec 20) (_p : BitVec 24) : Except Cause Row :=
  .ok .vst
def rowV24 (_ex : Bool) (b : BitVec 20) (_p : BitVec 24) : Except Cause Row :=
  match (fld b 0 4).toNat with
    | 0 => .ok .vamoAdd
    | 1 => .ok .vamoAnd
    | 2 => .ok .vamoOr
    | 3 => .ok .vamoXor
    | 4 => .ok .vamoSmin
    | 5 => .ok .vamoSmax
    | 6 => .ok .vamoUmin
    | 7 => .ok .vamoUmax
    | 8 => .ok .vamoSwap
    | _ => .error 1#10
def rowV25 (_ex : Bool) (_b : BitVec 20) (_p : BitVec 24) : Except Cause Row :=
  .ok .vupd
def rowV26 (_ex : Bool) (_b : BitVec 20) (_p : BitVec 24) : Except Cause Row :=
  .ok .dqpop
/-- The V map (R307). -/
def rowV (op : Nat) (ex : Bool) (b : BitVec 20) (p : BitVec 24) : Except Cause Row :=
  match op with
  | 1 => rowV01 ex b p
  | 2 => rowV02 ex b p
  | 3 => rowV03 ex b p
  | 4 => rowV04 ex b p
  | 5 => rowV05 ex b p
  | 6 => rowV06 ex b p
  | 7 => rowV07 ex b p
  | 8 => rowV08 ex b p
  | 9 => rowV09 ex b p
  | 10 => rowV0A ex b p
  | 11 => rowV0B ex b p
  | 12 => rowV0C ex b p
  | 13 => rowV0D ex b p
  | 14 => rowV0E ex b p
  | 15 => rowV0F ex b p
  | 16 => rowV10 ex b p
  | 17 => rowV11 ex b p
  | 32 => rowV20 ex b p
  | 33 => rowV21 ex b p
  | 34 => rowV22 ex b p
  | 35 => rowV23 ex b p
  | 36 => rowV24 ex b p
  | 37 => rowV25 ex b p
  | 38 => rowV26 ex b p
  | _ => .error 1#10

def rowM01 (_ex : Bool) (_b : BitVec 20) (_p : BitVec 24) : Except Cause Row :=
  .ok .mldb
def rowM02 (_ex : Bool) (_b : BitVec 20) (_p : BitVec 24) : Except Cause Row :=
  .ok .mswap
def rowM03 (_ex : Bool) (_b : BitVec 20) (_p : BitVec 24) : Except Cause Row :=
  .ok .mma
def rowM04 (_ex : Bool) (_b : BitVec 20) (_p : BitVec 24) : Except Cause Row :=
  .ok .mmas
def rowM05 (_ex : Bool) (_b : BitVec 20) (_p : BitVec 24) : Except Cause Row :=
  .ok .mdrain
def rowM06 (_ex : Bool) (_b : BitVec 20) (_p : BitVec 24) : Except Cause Row :=
  .ok .mzacc
def rowM07 (_ex : Bool) (_b : BitVec 20) (_p : BitVec 24) : Except Cause Row :=
  .ok .mcv
def rowM08 (_ex : Bool) (_b : BitVec 20) (_p : BitVec 24) : Except Cause Row :=
  .ok .mtrn
def rowM09 (_ex : Bool) (_b : BitVec 20) (_p : BitVec 24) : Except Cause Row :=
  .ok .mfill
def rowM0A (_ex : Bool) (_b : BitVec 20) (_p : BitVec 24) : Except Cause Row :=
  .ok .mtcpy
/-- The M map (R308). -/
def rowM (op : Nat) (ex : Bool) (b : BitVec 20) (p : BitVec 24) : Except Cause Row :=
  match op with
  | 1 => rowM01 ex b p
  | 2 => rowM02 ex b p
  | 3 => rowM03 ex b p
  | 4 => rowM04 ex b p
  | 5 => rowM05 ex b p
  | 6 => rowM06 ex b p
  | 7 => rowM07 ex b p
  | 8 => rowM08 ex b p
  | 9 => rowM09 ex b p
  | 10 => rowM0A ex b p
  | _ => .error 1#10

def rowK01 (_ex : Bool) (_b : BitVec 20) (_p : BitVec 24) : Except Cause Row :=
  .ok .kld
def rowK02 (_ex : Bool) (_b : BitVec 20) (_p : BitVec 24) : Except Cause Row :=
  .ok .kst
def rowK03 (_ex : Bool) (b : BitVec 20) (_p : BitVec 24) : Except Cause Row :=
  match (fld b 0 5).toNat with
    | 0 => .ok .kmov
    | 1 => .ok .kfill
    | _ => .error 1#10
def rowK04 (_ex : Bool) (b : BitVec 20) (_p : BitVec 24) : Except Cause Row :=
  match (fld b 0 5).toNat with
    | 0 => .ok .kspr
    | 1 => .ok .ksprReg
    | _ => .error 1#10
/-- The K map (R309). -/
def rowK (op : Nat) (ex : Bool) (b : BitVec 20) (p : BitVec 24) : Except Cause Row :=
  match op with
  | 1 => rowK01 ex b p
  | 2 => rowK02 ex b p
  | 3 => rowK03 ex b p
  | 4 => rowK04 ex b p
  | _ => .error 1#10

def rowC01 (_ex : Bool) (_b : BitVec 20) (_p : BitVec 24) : Except Cause Row :=
  .ok .cpy
def rowC02 (_ex : Bool) (_b : BitVec 20) (_p : BitVec 24) : Except Cause Row :=
  .ok .gath
def rowC03 (_ex : Bool) (_b : BitVec 20) (_p : BitVec 24) : Except Cause Row :=
  .ok .scat
def rowC04 (_ex : Bool) (_b : BitVec 20) (_p : BitVec 24) : Except Cause Row :=
  .ok .tldi
def rowC05 (_ex : Bool) (_b : BitVec 20) (_p : BitVec 24) : Except Cause Row :=
  .ok .tsti
def rowC06 (_ex : Bool) (_b : BitVec 20) (_p : BitVec 24) : Except Cause Row :=
  .ok .cpub
def rowC07 (_ex : Bool) (_b : BitVec 20) (_p : BitVec 24) : Except Cause Row :=
  .ok .stmap
def rowC08 (_ex : Bool) (_b : BitVec 20) (_p : BitVec 24) : Except Cause Row :=
  .ok .stfl
def rowC09 (_ex : Bool) (_b : BitVec 20) (_p : BitVec 24) : Except Cause Row :=
  .ok .chint
def rowC0A (_ex : Bool) (_b : BitVec 20) (_p : BitVec 24) : Except Cause Row :=
  .ok .cnput
def rowC0B (_ex : Bool) (_b : BitVec 20) (_p : BitVec 24) : Except Cause Row :=
  .ok .cnget
def rowC0C (_ex : Bool) (_b : BitVec 20) (_p : BitVec 24) : Except Cause Row :=
  .ok .dld
def rowC0D (_ex : Bool) (_b : BitVec 20) (_p : BitVec 24) : Except Cause Row :=
  .ok .dst
/-- The C map (R310). -/
def rowC (op : Nat) (ex : Bool) (b : BitVec 20) (p : BitVec 24) : Except Cause Row :=
  match op with
  | 1 => rowC01 ex b p
  | 2 => rowC02 ex b p
  | 3 => rowC03 ex b p
  | 4 => rowC04 ex b p
  | 5 => rowC05 ex b p
  | 6 => rowC06 ex b p
  | 7 => rowC07 ex b p
  | 8 => rowC08 ex b p
  | 9 => rowC09 ex b p
  | 10 => rowC0A ex b p
  | 11 => rowC0B ex b p
  | 12 => rowC0C ex b p
  | 13 => rowC0D ex b p
  | _ => .error 1#10

def rowY01 (_ex : Bool) (_b : BitVec 20) (_p : BitVec 24) : Except Cause Row :=
  .ok .wait
def rowY02 (_ex : Bool) (b : BitVec 20) (_p : BitVec 24) : Except Cause Row :=
  match (fld b 0 5).toNat with
    | 0 => .ok .fwait
    | 1 => .ok .fwaitC
    | 2 => .ok .fwaitEq
    | _ => .error 1#10
def rowY03 (_ex : Bool) (b : BitVec 20) (_p : BitVec 24) : Except Cause Row :=
  match (fld b 0 5).toNat with
    | 0 => .ok .fpost
    | 1 => .ok .fset
    | _ => .error 1#10
def rowY04 (_ex : Bool) (b : BitVec 20) (_p : BitVec 24) : Except Cause Row :=
  match (fld b 0 5).toNat with
    | 0 => .ok .rpost
    | 1 => .ok .rpostRel
    | 2 => .ok .rpostPred
    | _ => .error 1#10
def rowY05 (_ex : Bool) (_b : BitVec 20) (_p : BitVec 24) : Except Cause Row :=
  .ok .barr
def rowY06 (_ex : Bool) (_b : BitVec 20) (_p : BitVec 24) : Except Cause Row :=
  .ok .bwait
def rowY07 (_ex : Bool) (_b : BitVec 20) (_p : BitVec 24) : Except Cause Row :=
  .ok .rdv
def rowY08 (_ex : Bool) (_b : BitVec 20) (_p : BitVec 24) : Except Cause Row :=
  .ok .fence
def rowY09 (_ex : Bool) (b : BitVec 20) (_p : BitVec 24) : Except Cause Row :=
  if (fld b 0 3).toNat < 5 ∧ (fld b 15 3).toNat < 5 then .ok .chk else .error 0x001#10
/-- The Y map (R311). -/
def rowY (op : Nat) (ex : Bool) (b : BitVec 20) (p : BitVec 24) : Except Cause Row :=
  match op with
  | 1 => rowY01 ex b p
  | 2 => rowY02 ex b p
  | 3 => rowY03 ex b p
  | 4 => rowY04 ex b p
  | 5 => rowY05 ex b p
  | 6 => rowY06 ex b p
  | 7 => rowY07 ex b p
  | 8 => rowY08 ex b p
  | 9 => rowY09 ex b p
  | _ => .error 1#10

def rowF01 (_ex : Bool) (_b : BitVec 20) (_p : BitVec 24) : Except Cause Row :=
  .ok .fork
def rowF02 (_ex : Bool) (b : BitVec 20) (_p : BitVec 24) : Except Cause Row :=
  match (fld b 3 1).toNat with
    | 0 => .ok .fprobe
    | 1 => .ok .fprobeF
    | _ => .error 1#10
/-- The F map (R312). -/
def rowF (op : Nat) (ex : Bool) (b : BitVec 20) (p : BitVec 24) : Except Cause Row :=
  match op with
  | 1 => rowF01 ex b p
  | 2 => rowF02 ex b p
  | _ => .error 1#10

/-- The On column of the maps (R304-R312): who issues an OP of a slot. An OP that no map lists is not looked up here. -/
def issues (iss : Issuer) (sl : Slot) (op : Nat) : Bool :=
  match sl with
  | .s =>
    match op with
    | 0x0C | 0x0D | 0x0E | 0x16 | 0x17 => iss != .svc
    | 0x18 | 0x19 | 0x25 | 0x2A => iss == .cmp
    | 0x28 | 0x29 | 0x33 | 0x35 => iss == .ctl
    | 0x34 => iss == .svc
    | _ => true
  | .x => match op with
    | 0x0C | 0x18 | 0x19 => iss != .svc
    | _ => true
  | .v0 | .v1 => match op with
    | 0x10 | 0x11 | 0x24 | 0x25 => iss == .cmp
    | _ => iss != .svc
  | .m | .k => iss == .cmp
  | .c0 => match op with
    | 0x04 | 0x05 => iss == .cmp
    | _ => iss != .svc
  | .c1 => iss == .cmp
  | .y => match op with
    | 0x01 | 0x09 => iss != .svc
    | 0x05 | 0x06 | 0x07 => iss == .cmp
    | _ => true
  | .f => iss == .cmp

/-- The slots that a core kind or sequencer has (R195, R198). -/
def hasSlot (iss : Issuer) (sl : Slot) : Bool :=
  match iss with
  | .cmp => true
  | .ctl => match sl with | .m | .k | .c1 => false | _ => true
  | .svc => match sl with | .s | .x | .y => true | _ => false

/-- The arrival of the extension (R299): AN[5:4] is zero for a flag. -/
def arrivalOf (s : SlotBits) : Option Arrival :=
  if !s.av then none else if s.ag then some (.barrier s.an) else some (.flag (fld s.an 0 4))
def extOk (svc : Bool) (s : SlotBits) : Bool :=
  if s.av then !svc && (s.ag || fld s.an 4 2 == 0#2) else !s.ag && s.an == 0#6

/-- The map of a slot. -/
def rowOf (sl : Slot) (op : Nat) (ex : Bool) (b : BitVec 20) (p : BitVec 24) : Except Cause Row :=
  match sl with
  | .s => rowS op ex b p
  | .x => rowX op ex b p
  | .v0 | .v1 => rowV op ex b p
  | .m => rowM op ex b p
  | .k => rowK op ex b p
  | .c0 | .c1 => rowC op ex b p
  | .y => rowY op ex b p
  | .f => rowF op ex b p

/-- The checks on the operands of a row. -/
def Row.check (r : Row) (h : Head) (ex : Bool) (b : BitVec 20) (p : BitVec 24) : Except Cause Unit :=
  match r with
  | .nop => checkZ h b p
  | .add => checkForm RRR.form RRR.limits h ex b p
  | .sub => checkForm RRR.form RRR.limits h ex b p
  | .and => checkForm RRR.form RRR.limits h ex b p
  | .or => checkForm RRR.form RRR.limits h ex b p
  | .xor => checkForm RRR.form RRR.limits h ex b p
  | .andn => checkForm RRR.form RRR.limits h ex b p
  | .shl => checkForm RRR.form RRR.limits h ex b p
  | .shr => checkForm RRR.form RRR.limits h ex b p
  | .sra => checkForm RRR.form RRR.limits h ex b p
  | .rol => checkForm RRR.form RRR.limits h ex b p
  | .mul => checkForm RRR.form RRR.limits h ex b p
  | .mulhs => checkForm RRR.form RRR.limits h ex b p
  | .mulhu => checkForm RRR.form RRR.limits h ex b p
  | .min => checkForm RRR.form RRR.limits h ex b p
  | .max => checkForm RRR.form RRR.limits h ex b p
  | .minu => checkForm RRR.form RRR.limits h ex b p
  | .maxu => checkForm RRR.form RRR.limits h ex b p
  | .addw => checkForm RRR.form RRR.limits h ex b p
  | .subw => checkForm RRR.form RRR.limits h ex b p
  | .movr => checkForm RR.form RR.limits h ex b p
  | .addImm => checkForm RImm.form RImm.limits h ex b p
  | .andImm => checkForm RImm.form RImm.limits h ex b p
  | .orImm => checkForm RImm.form RImm.limits h ex b p
  | .xorImm => checkForm RImm.form RImm.limits h ex b p
  | .shlImm => checkForm RShift.form RShift.limits h ex b p
  | .shrImm => checkForm RShift.form RShift.limits h ex b p
  | .sraImm => checkForm RShift.form RShift.limits h ex b p
  | .mulImm => checkForm RImm.form RImm.limits h ex b p
  | .mov => checkForm RLong.form RLong.limits h ex b p
  | .movhi => checkForm RLong.form RLong.limits h ex b p
  | .cmp => checkForm CmpReg.form CmpReg.limits h ex b p
  | .cmpImm => checkForm CmpImm.form CmpImm.limits h ex b p
  | .pand => checkForm PredLogic.form PredLogic.limits h ex b p
  | .por => checkForm PredLogic.form PredLogic.limits h ex b p
  | .pxor => checkForm PredLogic.form PredLogic.limits h ex b p
  | .pandn => checkForm PredLogic.form PredLogic.limits h ex b p
  | .xfr => checkForm Xfer.form Xfer.limits h ex b p
  | .br => checkForm Disp.form Disp.limits h ex b p
  | .call => checkForm Disp.form Disp.limits h ex b p
  | .brz => checkForm BrReg.form BrReg.limits h ex b p
  | .brnz => checkForm BrReg.form BrReg.limits h ex b p
  | .ret => checkZ h b p
  | .jr => checkForm JrArgs.form JrArgs.limits h ex b p
  | .loop => checkForm LoopReg.form LoopReg.limits h ex b p
  | .loopi => checkForm LoopImm.form LoopImm.limits h ex b p
  | .mtcfg => checkForm MtcfgArgs.form MtcfgArgs.limits h ex b p
  | .mftcfg => checkForm MftcfgArgs.form MftcfgArgs.limits h ex b p
  | .dfpk => checkForm DescField.form DescField.limits h ex b p
  | .dfex => checkForm DescField.form DescField.limits h ex b p
  | .dfexS => checkForm DescField.form DescField.limits h ex b p
  | .ldsp => checkForm SpLoad.form SpLoad.limits h ex b p
  | .stsp => checkForm SpStore.form SpStore.limits h ex b p
  | .ld => checkForm GlLoad.form GlLoad.limits h ex b p
  | .st => checkForm SpStore.form SpStore.limits h ex b p
  | .atomAdd => checkForm Atomic.form Atomic.limits h ex b p
  | .atomAnd => checkForm Atomic.form Atomic.limits h ex b p
  | .atomOr => checkForm Atomic.form Atomic.limits h ex b p
  | .atomXor => checkForm Atomic.form Atomic.limits h ex b p
  | .atomSmin => checkForm Atomic.form Atomic.limits h ex b p
  | .atomSmax => checkForm Atomic.form Atomic.limits h ex b p
  | .atomUmin => checkForm Atomic.form Atomic.limits h ex b p
  | .atomUmax => checkForm Atomic.form Atomic.limits h ex b p
  | .atomSwap => checkForm Atomic.form Atomic.limits h ex b p
  | .atomCas => checkForm Atomic.form Atomic.limits h ex b p
  | .atomBfi => checkForm BitAtomic.form BitAtomic.limits h ex b p
  | .atomFfcs => checkForm BitAtomic.form BitAtomic.limits h ex b p
  | .atomPlset => checkForm PlsetArgs.form PlsetArgs.limits h ex b p
  | .upd => checkForm UpdArgs.form UpdArgs.limits h ex b p
  | .pref => checkForm PrefArgs.form PrefArgs.limits h ex b p
  | .waitline => checkForm WaitlineArgs.form WaitlineArgs.limits h ex b p
  | .launch => checkForm LaunchArgs.form LaunchArgs.limits h ex b p
  | .exit => checkZ h b p
  | .mfsr => checkForm SrMove.form SrMove.limits h ex b p
  | .mfsrIo => checkForm IoMove.form IoMove.limits h ex b p
  | .mtsr => checkForm SrMove.form SrMove.limits h ex b p
  | .mtsrIo => checkForm IoMove.form IoMove.limits h ex b p
  | .trap => checkForm TrapArgs.form TrapArgs.limits h ex b p
  | .eret => checkZ h b p
  | .sret => checkZ h b p
  | .tlbiAll => checkForm ZeroFn.form ZeroFn.limits h ex b p
  | .tlbiCtx => checkForm OneReg.form OneReg.limits h ex b p
  | .tlbiPage => checkForm TwoReg.form TwoReg.limits h ex b p
  | .cmntIcinv => checkForm ZeroFn.form ZeroFn.limits h ex b p
  | .cmntIcinvPkg => checkForm ZeroFn.form ZeroFn.limits h ex b p
  | .cmntSdcinv => checkForm ZeroFn.form ZeroFn.limits h ex b p
  | .cmntWbctx => checkForm OneReg.form OneReg.limits h ex b p
  | .cadv => checkForm CadvArgs.form CadvArgs.limits h ex b p
  | .popc => checkForm RR.form RR.limits h ex b p
  | .clz => checkForm RR.form RR.limits h ex b p
  | .ctz => checkForm RR.form RR.limits h ex b p
  | .bscan => checkForm RRR.form RRR.limits h ex b p
  | .bscanc => checkForm RRR.form RRR.limits h ex b p
  | .aqp => checkForm AqPush.form AqPush.limits h ex b p
  | .aqpIdx => checkForm AqPushIdx.form AqPushIdx.limits h ex b p
  | .aqps => checkForm AqRun.form AqRun.limits h ex b p
  | .vadd => checkForm VInt3.form VInt3.limits h ex b p
  | .vsub => checkForm VInt3.form VInt3.limits h ex b p
  | .vmul => checkForm VInt3.form VInt3.limits h ex b p
  | .vmulhs => checkForm VInt3.form VInt3.limits h ex b p
  | .vmulhu => checkForm VInt3.form VInt3.limits h ex b p
  | .vmin => checkForm VInt3.form VInt3.limits h ex b p
  | .vmax => checkForm VInt3.form VInt3.limits h ex b p
  | .vminu => checkForm VInt3.form VInt3.limits h ex b p
  | .vmaxu => checkForm VInt3.form VInt3.limits h ex b p
  | .vadds => checkForm VInt3.form VInt3.limits h ex b p
  | .vsubs => checkForm VInt3.form VInt3.limits h ex b p
  | .vaddus => checkForm VInt3.form VInt3.limits h ex b p
  | .vsubus => checkForm VInt3.form VInt3.limits h ex b p
  | .vabs => checkForm VInt2.form VInt2.limits h ex b p
  | .vneg => checkForm VInt2.form VInt2.limits h ex b p
  | .vand => checkForm VInt3.form VInt3.limits h ex b p
  | .vor => checkForm VInt3.form VInt3.limits h ex b p
  | .vxor => checkForm VInt3.form VInt3.limits h ex b p
  | .vandn => checkForm VInt3.form VInt3.limits h ex b p
  | .vmov => checkForm VInt2.form VInt2.limits h ex b p
  | .vmulq => checkForm VInt3.form VInt3.limits h ex b p
  | .vmac => checkForm VInt3.form VInt3.limits h ex b p
  | .vmacs => checkForm VInt3.form VInt3.limits h ex b p
  | .vmacwl => checkForm VInt3.form VInt3.limits h ex b p
  | .vmacwh => checkForm VInt3.form VInt3.limits h ex b p
  | .vshl => checkForm VInt3.form VInt3.limits h ex b p
  | .vshr => checkForm VInt3.form VInt3.limits h ex b p
  | .vsra => checkForm VInt3.form VInt3.limits h ex b p
  | .vrol => checkForm VInt3.form VInt3.limits h ex b p
  | .vshlImm => checkForm VIntK.form VIntK.limits h ex b p
  | .vshrImm => checkForm VIntK.form VIntK.limits h ex b p
  | .vsraImm => checkForm VIntK.form VIntK.limits h ex b p
  | .vrolImm => checkForm VIntK.form VIntK.limits h ex b p
  | .vcmp => checkForm VCmp.form VCmp.limits h ex b p
  | .vfcmp => checkForm VFCmp.form VFCmp.limits h ex b p
  | .vsel => checkForm VSel.form VSel.limits h ex b p
  | .vfadd => checkForm VFp3.form VFp3.limits h ex b p
  | .vfsub => checkForm VFp3.form VFp3.limits h ex b p
  | .vfmul => checkForm VFp3.form VFp3.limits h ex b p
  | .vfdiv => checkForm VFp3.form VFp3.limits h ex b p
  | .vfsqrt => checkForm VFp2.form VFp2.limits h ex b p
  | .vfmin => checkForm VFmt3.form VFmt3.limits h ex b p
  | .vfmax => checkForm VFmt3.form VFmt3.limits h ex b p
  | .vfabs => checkForm VFmt2.form VFmt2.limits h ex b p
  | .vfneg => checkForm VFmt2.form VFmt2.limits h ex b p
  | .vfma => checkForm VFp3.form VFp3.limits h ex b p
  | .vfms => checkForm VFp3.form VFp3.limits h ex b p
  | .vfnma => checkForm VFp3.form VFp3.limits h ex b p
  | .vfnms => checkForm VFp3.form VFp3.limits h ex b p
  | .vcvt => checkForm VCvt.form VCvt.limits h ex b p
  | .vqntE2m1s => checkForm VQnt.form VQnt.limits h ex b p
  | .vqntE4m3 => checkForm VQnt.form VQnt.limits h ex b p
  | .vqntE5m2 => checkForm VQnt.form VQnt.limits h ex b p
  | .vdqnt => checkForm VDqnt.form VDqnt.limits h ex b p
  | .vradd => checkForm VInt2.form VInt2.limits h ex b p
  | .vrmin => checkForm VInt2.form VInt2.limits h ex b p
  | .vrmax => checkForm VInt2.form VInt2.limits h ex b p
  | .vrminu => checkForm VInt2.form VInt2.limits h ex b p
  | .vrmaxu => checkForm VInt2.form VInt2.limits h ex b p
  | .vrand => checkForm VInt2.form VInt2.limits h ex b p
  | .vror => checkForm VInt2.form VInt2.limits h ex b p
  | .vrxor => checkForm VInt2.form VInt2.limits h ex b p
  | .vrfadd => checkForm VRed.form VRed.limits h ex b p
  | .vrfmin => checkForm VRed.form VRed.limits h ex b p
  | .vrfmax => checkForm VRed.form VRed.limits h ex b p
  | .vscanadd => checkForm VInt2.form VInt2.limits h ex b p
  | .vscanaddx => checkForm VInt2.form VInt2.limits h ex b p
  | .vscanmax => checkForm VInt2.form VInt2.limits h ex b p
  | .vscanmin => checkForm VInt2.form VInt2.limits h ex b p
  | .vscanmaxu => checkForm VInt2.form VInt2.limits h ex b p
  | .vscanminu => checkForm VInt2.form VInt2.limits h ex b p
  | .vscanfadd => checkForm VRed.form VRed.limits h ex b p
  | .vperm => checkForm VInt3.form VInt3.limits h ex b p
  | .vrot => checkForm VIntK.form VIntK.limits h ex b p
  | .vext => checkForm VExt.form VExt.limits h ex b p
  | .vzipl => checkForm VInt3.form VInt3.limits h ex b p
  | .vziph => checkForm VInt3.form VInt3.limits h ex b p
  | .vuzpe => checkForm VInt3.form VInt3.limits h ex b p
  | .vuzpo => checkForm VInt3.form VInt3.limits h ex b p
  | .vsplat => checkForm VIntK.form VIntK.limits h ex b p
  | .vrev => checkForm VInt2.form VInt2.limits h ex b p
  | .vrcp => checkForm VFp2.form VFp2.limits h ex b p
  | .vrsqrt => checkForm VFp2.form VFp2.limits h ex b p
  | .vexp2 => checkForm VFp2.form VFp2.limits h ex b p
  | .vlog2 => checkForm VFp2.form VFp2.limits h ex b p
  | .vsinpi => checkForm VFp2.form VFp2.limits h ex b p
  | .vcospi => checkForm VFp2.form VFp2.limits h ex b p
  | .vtanh => checkForm VFp2.form VFp2.limits h ex b p
  | .vsigm => checkForm VFp2.form VFp2.limits h ex b p
  | .vrnd => checkForm VRndArgs.form VRndArgs.limits h ex b p
  | .vbcast => checkForm RLong.form RLong.limits h ex b p
  | .vtrd => checkForm TileRead.form TileRead.limits h ex b p
  | .vtrdReg => checkForm TileReadReg.form TileReadReg.limits h ex b p
  | .vtwr => checkForm TileRow.form TileRow.limits h ex b p
  | .vtwrReg => checkForm TileRowReg.form TileRowReg.limits h ex b p
  | .vldsp => checkForm VSp.form VSp.limits h ex b p
  | .vstsp => checkForm VSp.form VSp.limits h ex b p
  | .vld => checkForm VLoad.form VLoad.limits h ex b p
  | .vst => checkForm VSp.form VSp.limits h ex b p
  | .vamoAdd => checkForm VAtomic.form VAtomic.limits h ex b p
  | .vamoAnd => checkForm VAtomic.form VAtomic.limits h ex b p
  | .vamoOr => checkForm VAtomic.form VAtomic.limits h ex b p
  | .vamoXor => checkForm VAtomic.form VAtomic.limits h ex b p
  | .vamoSmin => checkForm VAtomic.form VAtomic.limits h ex b p
  | .vamoSmax => checkForm VAtomic.form VAtomic.limits h ex b p
  | .vamoUmin => checkForm VAtomic.form VAtomic.limits h ex b p
  | .vamoUmax => checkForm VAtomic.form VAtomic.limits h ex b p
  | .vamoSwap => checkForm VAtomic.form VAtomic.limits h ex b p
  | .vupd => checkForm VUpdArgs.form VUpdArgs.limits h ex b p
  | .dqpop => checkForm DqPop.form DqPop.limits h ex b p
  | .mldb => checkForm MldbArgs.form MldbArgs.limits h ex b p
  | .mswap => checkZ h b p
  | .mma => checkForm MmaArgs.form MmaArgs.limits h ex b p
  | .mmas => checkForm MmasArgs.form MmasArgs.limits h ex b p
  | .mdrain => checkForm MdrainArgs.form MdrainArgs.limits h ex b p
  | .mzacc => checkForm MzaccArgs.form MzaccArgs.limits h ex b p
  | .mcv => checkForm McvArgs.form McvArgs.limits h ex b p
  | .mtrn => checkForm TilePair.form TilePair.limits h ex b p
  | .mfill => checkForm MfillArgs.form MfillArgs.limits h ex b p
  | .mtcpy => checkForm TilePair.form TilePair.limits h ex b p
  | .kld => checkForm KMem.form KMem.limits h ex b p
  | .kst => checkForm KMem.form KMem.limits h ex b p
  | .kmov => checkForm KPair.form KPair.limits h ex b p
  | .kfill => checkForm KfillArgs.form KfillArgs.limits h ex b p
  | .kspr => checkForm KsprArgs.form KsprArgs.limits h ex b p
  | .ksprReg => checkForm KPair.form KPair.limits h ex b p
  | .cpy => checkForm CopyArgs.form CopyArgs.limits h ex b p
  | .gath => checkForm IndexedCopy.form IndexedCopy.limits h ex b p
  | .scat => checkForm IndexedCopy.form IndexedCopy.limits h ex b p
  | .tldi => checkForm TileLoad.form TileLoad.limits h ex b p
  | .tsti => checkForm TileStore.form TileStore.limits h ex b p
  | .cpub => checkForm CpubArgs.form CpubArgs.limits h ex b p
  | .stmap => checkForm StmapArgs.form StmapArgs.limits h ex b p
  | .stfl => checkForm StflArgs.form StflArgs.limits h ex b p
  | .chint => checkForm ChintArgs.form ChintArgs.limits h ex b p
  | .cnput => checkForm NetCopy.form NetCopy.limits h ex b p
  | .cnget => checkForm NetCopy.form NetCopy.limits h ex b p
  | .dld => checkForm DescMove.form DescMove.limits h ex b p
  | .dst => checkForm DescMove.form DescMove.limits h ex b p
  | .wait => checkForm WaitArgs.form WaitArgs.limits h ex b p
  | .fwait => checkForm FwaitArgs.form FwaitArgs.limits h ex b p
  | .fwaitC => checkForm FwaitArgs.form FwaitArgs.limits h ex b p
  | .fwaitEq => checkForm FwaitArgs.form FwaitArgs.limits h ex b p
  | .fpost => checkForm FpostArgs.form FpostArgs.limits h ex b p
  | .fset => checkForm FsetArgs.form FsetArgs.limits h ex b p
  | .rpost => checkForm RpostArgs.form RpostArgs.limits h ex b p
  | .rpostRel => checkForm RpostArgs.form RpostArgs.limits h ex b p
  | .rpostPred => checkForm RpostPred.form RpostPred.limits h ex b p
  | .barr => checkForm BarrArgs.form BarrArgs.limits h ex b p
  | .bwait => checkForm BarrArgs.form BarrArgs.limits h ex b p
  | .rdv => checkForm BarrArgs.form BarrArgs.limits h ex b p
  | .fence => checkForm FenceArgs.form FenceArgs.limits h ex b p
  | .chk => checkForm ChkArgs.form ChkArgs.limits h ex b p
  | .fork => checkForm ForkArgs.form ForkArgs.limits h ex b p
  | .fprobe => checkForm FprobeArgs.form FprobeArgs.limits h ex b p
  | .fprobeF => checkForm FprobeArgs.form FprobeArgs.limits h ex b p

/-- The instruction of a row with the operands of a word. The compiler's limit on constructor numbers makes this
noncomputable; the machine runs rows by Row.run, which the laws show to be exec of this instruction. -/
noncomputable def Row.instr (r : Row) (o : OpInfo) (ex : Bool) (b : BitVec 20) (p : BitVec 24) : Instr :=
  match r with
  | .nop => .nop o
  | .add => .add o (RRR.form.get ex b p)
  | .sub => .sub o (RRR.form.get ex b p)
  | .and => .and o (RRR.form.get ex b p)
  | .or => .or o (RRR.form.get ex b p)
  | .xor => .xor o (RRR.form.get ex b p)
  | .andn => .andn o (RRR.form.get ex b p)
  | .shl => .shl o (RRR.form.get ex b p)
  | .shr => .shr o (RRR.form.get ex b p)
  | .sra => .sra o (RRR.form.get ex b p)
  | .rol => .rol o (RRR.form.get ex b p)
  | .mul => .mul o (RRR.form.get ex b p)
  | .mulhs => .mulhs o (RRR.form.get ex b p)
  | .mulhu => .mulhu o (RRR.form.get ex b p)
  | .min => .min o (RRR.form.get ex b p)
  | .max => .max o (RRR.form.get ex b p)
  | .minu => .minu o (RRR.form.get ex b p)
  | .maxu => .maxu o (RRR.form.get ex b p)
  | .addw => .addw o (RRR.form.get ex b p)
  | .subw => .subw o (RRR.form.get ex b p)
  | .movr => .movr o (RR.form.get ex b p)
  | .addImm => .addImm o (RImm.form.get ex b p)
  | .andImm => .andImm o (RImm.form.get ex b p)
  | .orImm => .orImm o (RImm.form.get ex b p)
  | .xorImm => .xorImm o (RImm.form.get ex b p)
  | .shlImm => .shlImm o (RShift.form.get ex b p)
  | .shrImm => .shrImm o (RShift.form.get ex b p)
  | .sraImm => .sraImm o (RShift.form.get ex b p)
  | .mulImm => .mulImm o (RImm.form.get ex b p)
  | .mov => .mov o (RLong.form.get ex b p)
  | .movhi => .movhi o (RLong.form.get ex b p)
  | .cmp => .cmp o (CmpReg.form.get ex b p)
  | .cmpImm => .cmpImm o (CmpImm.form.get ex b p)
  | .pand => .pand o (PredLogic.form.get ex b p)
  | .por => .por o (PredLogic.form.get ex b p)
  | .pxor => .pxor o (PredLogic.form.get ex b p)
  | .pandn => .pandn o (PredLogic.form.get ex b p)
  | .xfr => .xfr o (Xfer.form.get ex b p)
  | .br => .br o (Disp.form.get ex b p)
  | .call => .call o (Disp.form.get ex b p)
  | .brz => .brz o (BrReg.form.get ex b p)
  | .brnz => .brnz o (BrReg.form.get ex b p)
  | .ret => .ret o
  | .jr => .jr o (JrArgs.form.get ex b p)
  | .loop => .loop o (LoopReg.form.get ex b p)
  | .loopi => .loopi o (LoopImm.form.get ex b p)
  | .mtcfg => .mtcfg o (MtcfgArgs.form.get ex b p)
  | .mftcfg => .mftcfg o (MftcfgArgs.form.get ex b p)
  | .dfpk => .dfpk o (DescField.form.get ex b p)
  | .dfex => .dfex o (DescField.form.get ex b p)
  | .dfexS => .dfexS o (DescField.form.get ex b p)
  | .ldsp => .ldsp o (SpLoad.form.get ex b p)
  | .stsp => .stsp o (SpStore.form.get ex b p)
  | .ld => .ld o (GlLoad.form.get ex b p)
  | .st => .st o (SpStore.form.get ex b p)
  | .atomAdd => .atomAdd o (Atomic.form.get ex b p)
  | .atomAnd => .atomAnd o (Atomic.form.get ex b p)
  | .atomOr => .atomOr o (Atomic.form.get ex b p)
  | .atomXor => .atomXor o (Atomic.form.get ex b p)
  | .atomSmin => .atomSmin o (Atomic.form.get ex b p)
  | .atomSmax => .atomSmax o (Atomic.form.get ex b p)
  | .atomUmin => .atomUmin o (Atomic.form.get ex b p)
  | .atomUmax => .atomUmax o (Atomic.form.get ex b p)
  | .atomSwap => .atomSwap o (Atomic.form.get ex b p)
  | .atomCas => .atomCas o (Atomic.form.get ex b p)
  | .atomBfi => .atomBfi o (BitAtomic.form.get ex b p)
  | .atomFfcs => .atomFfcs o (BitAtomic.form.get ex b p)
  | .atomPlset => .atomPlset o (PlsetArgs.form.get ex b p)
  | .upd => .upd o (UpdArgs.form.get ex b p)
  | .pref => .pref o (PrefArgs.form.get ex b p)
  | .waitline => .waitline o (WaitlineArgs.form.get ex b p)
  | .launch => .launch o (LaunchArgs.form.get ex b p)
  | .exit => .exit o
  | .mfsr => .mfsr o (SrMove.form.get ex b p)
  | .mfsrIo => .mfsrIo o (IoMove.form.get ex b p)
  | .mtsr => .mtsr o (SrMove.form.get ex b p)
  | .mtsrIo => .mtsrIo o (IoMove.form.get ex b p)
  | .trap => .trap o (TrapArgs.form.get ex b p)
  | .eret => .eret o
  | .sret => .sret o
  | .tlbiAll => .tlbiAll o (ZeroFn.form.get ex b p)
  | .tlbiCtx => .tlbiCtx o (OneReg.form.get ex b p)
  | .tlbiPage => .tlbiPage o (TwoReg.form.get ex b p)
  | .cmntIcinv => .cmntIcinv o (ZeroFn.form.get ex b p)
  | .cmntIcinvPkg => .cmntIcinvPkg o (ZeroFn.form.get ex b p)
  | .cmntSdcinv => .cmntSdcinv o (ZeroFn.form.get ex b p)
  | .cmntWbctx => .cmntWbctx o (OneReg.form.get ex b p)
  | .cadv => .cadv o (CadvArgs.form.get ex b p)
  | .popc => .popc o (RR.form.get ex b p)
  | .clz => .clz o (RR.form.get ex b p)
  | .ctz => .ctz o (RR.form.get ex b p)
  | .bscan => .bscan o (RRR.form.get ex b p)
  | .bscanc => .bscanc o (RRR.form.get ex b p)
  | .aqp => .aqp o (AqPush.form.get ex b p)
  | .aqpIdx => .aqpIdx o (AqPushIdx.form.get ex b p)
  | .aqps => .aqps o (AqRun.form.get ex b p)
  | .vadd => .vadd o (VInt3.form.get ex b p)
  | .vsub => .vsub o (VInt3.form.get ex b p)
  | .vmul => .vmul o (VInt3.form.get ex b p)
  | .vmulhs => .vmulhs o (VInt3.form.get ex b p)
  | .vmulhu => .vmulhu o (VInt3.form.get ex b p)
  | .vmin => .vmin o (VInt3.form.get ex b p)
  | .vmax => .vmax o (VInt3.form.get ex b p)
  | .vminu => .vminu o (VInt3.form.get ex b p)
  | .vmaxu => .vmaxu o (VInt3.form.get ex b p)
  | .vadds => .vadds o (VInt3.form.get ex b p)
  | .vsubs => .vsubs o (VInt3.form.get ex b p)
  | .vaddus => .vaddus o (VInt3.form.get ex b p)
  | .vsubus => .vsubus o (VInt3.form.get ex b p)
  | .vabs => .vabs o (VInt2.form.get ex b p)
  | .vneg => .vneg o (VInt2.form.get ex b p)
  | .vand => .vand o (VInt3.form.get ex b p)
  | .vor => .vor o (VInt3.form.get ex b p)
  | .vxor => .vxor o (VInt3.form.get ex b p)
  | .vandn => .vandn o (VInt3.form.get ex b p)
  | .vmov => .vmov o (VInt2.form.get ex b p)
  | .vmulq => .vmulq o (VInt3.form.get ex b p)
  | .vmac => .vmac o (VInt3.form.get ex b p)
  | .vmacs => .vmacs o (VInt3.form.get ex b p)
  | .vmacwl => .vmacwl o (VInt3.form.get ex b p)
  | .vmacwh => .vmacwh o (VInt3.form.get ex b p)
  | .vshl => .vshl o (VInt3.form.get ex b p)
  | .vshr => .vshr o (VInt3.form.get ex b p)
  | .vsra => .vsra o (VInt3.form.get ex b p)
  | .vrol => .vrol o (VInt3.form.get ex b p)
  | .vshlImm => .vshlImm o (VIntK.form.get ex b p)
  | .vshrImm => .vshrImm o (VIntK.form.get ex b p)
  | .vsraImm => .vsraImm o (VIntK.form.get ex b p)
  | .vrolImm => .vrolImm o (VIntK.form.get ex b p)
  | .vcmp => .vcmp o (VCmp.form.get ex b p)
  | .vfcmp => .vfcmp o (VFCmp.form.get ex b p)
  | .vsel => .vsel o (VSel.form.get ex b p)
  | .vfadd => .vfadd o (VFp3.form.get ex b p)
  | .vfsub => .vfsub o (VFp3.form.get ex b p)
  | .vfmul => .vfmul o (VFp3.form.get ex b p)
  | .vfdiv => .vfdiv o (VFp3.form.get ex b p)
  | .vfsqrt => .vfsqrt o (VFp2.form.get ex b p)
  | .vfmin => .vfmin o (VFmt3.form.get ex b p)
  | .vfmax => .vfmax o (VFmt3.form.get ex b p)
  | .vfabs => .vfabs o (VFmt2.form.get ex b p)
  | .vfneg => .vfneg o (VFmt2.form.get ex b p)
  | .vfma => .vfma o (VFp3.form.get ex b p)
  | .vfms => .vfms o (VFp3.form.get ex b p)
  | .vfnma => .vfnma o (VFp3.form.get ex b p)
  | .vfnms => .vfnms o (VFp3.form.get ex b p)
  | .vcvt => .vcvt o (VCvt.form.get ex b p)
  | .vqntE2m1s => .vqntE2m1s o (VQnt.form.get ex b p)
  | .vqntE4m3 => .vqntE4m3 o (VQnt.form.get ex b p)
  | .vqntE5m2 => .vqntE5m2 o (VQnt.form.get ex b p)
  | .vdqnt => .vdqnt o (VDqnt.form.get ex b p)
  | .vradd => .vradd o (VInt2.form.get ex b p)
  | .vrmin => .vrmin o (VInt2.form.get ex b p)
  | .vrmax => .vrmax o (VInt2.form.get ex b p)
  | .vrminu => .vrminu o (VInt2.form.get ex b p)
  | .vrmaxu => .vrmaxu o (VInt2.form.get ex b p)
  | .vrand => .vrand o (VInt2.form.get ex b p)
  | .vror => .vror o (VInt2.form.get ex b p)
  | .vrxor => .vrxor o (VInt2.form.get ex b p)
  | .vrfadd => .vrfadd o (VRed.form.get ex b p)
  | .vrfmin => .vrfmin o (VRed.form.get ex b p)
  | .vrfmax => .vrfmax o (VRed.form.get ex b p)
  | .vscanadd => .vscanadd o (VInt2.form.get ex b p)
  | .vscanaddx => .vscanaddx o (VInt2.form.get ex b p)
  | .vscanmax => .vscanmax o (VInt2.form.get ex b p)
  | .vscanmin => .vscanmin o (VInt2.form.get ex b p)
  | .vscanmaxu => .vscanmaxu o (VInt2.form.get ex b p)
  | .vscanminu => .vscanminu o (VInt2.form.get ex b p)
  | .vscanfadd => .vscanfadd o (VRed.form.get ex b p)
  | .vperm => .vperm o (VInt3.form.get ex b p)
  | .vrot => .vrot o (VIntK.form.get ex b p)
  | .vext => .vext o (VExt.form.get ex b p)
  | .vzipl => .vzipl o (VInt3.form.get ex b p)
  | .vziph => .vziph o (VInt3.form.get ex b p)
  | .vuzpe => .vuzpe o (VInt3.form.get ex b p)
  | .vuzpo => .vuzpo o (VInt3.form.get ex b p)
  | .vsplat => .vsplat o (VIntK.form.get ex b p)
  | .vrev => .vrev o (VInt2.form.get ex b p)
  | .vrcp => .vrcp o (VFp2.form.get ex b p)
  | .vrsqrt => .vrsqrt o (VFp2.form.get ex b p)
  | .vexp2 => .vexp2 o (VFp2.form.get ex b p)
  | .vlog2 => .vlog2 o (VFp2.form.get ex b p)
  | .vsinpi => .vsinpi o (VFp2.form.get ex b p)
  | .vcospi => .vcospi o (VFp2.form.get ex b p)
  | .vtanh => .vtanh o (VFp2.form.get ex b p)
  | .vsigm => .vsigm o (VFp2.form.get ex b p)
  | .vrnd => .vrnd o (VRndArgs.form.get ex b p)
  | .vbcast => .vbcast o (RLong.form.get ex b p)
  | .vtrd => .vtrd o (TileRead.form.get ex b p)
  | .vtrdReg => .vtrdReg o (TileReadReg.form.get ex b p)
  | .vtwr => .vtwr o (TileRow.form.get ex b p)
  | .vtwrReg => .vtwrReg o (TileRowReg.form.get ex b p)
  | .vldsp => .vldsp o (VSp.form.get ex b p)
  | .vstsp => .vstsp o (VSp.form.get ex b p)
  | .vld => .vld o (VLoad.form.get ex b p)
  | .vst => .vst o (VSp.form.get ex b p)
  | .vamoAdd => .vamoAdd o (VAtomic.form.get ex b p)
  | .vamoAnd => .vamoAnd o (VAtomic.form.get ex b p)
  | .vamoOr => .vamoOr o (VAtomic.form.get ex b p)
  | .vamoXor => .vamoXor o (VAtomic.form.get ex b p)
  | .vamoSmin => .vamoSmin o (VAtomic.form.get ex b p)
  | .vamoSmax => .vamoSmax o (VAtomic.form.get ex b p)
  | .vamoUmin => .vamoUmin o (VAtomic.form.get ex b p)
  | .vamoUmax => .vamoUmax o (VAtomic.form.get ex b p)
  | .vamoSwap => .vamoSwap o (VAtomic.form.get ex b p)
  | .vupd => .vupd o (VUpdArgs.form.get ex b p)
  | .dqpop => .dqpop o (DqPop.form.get ex b p)
  | .mldb => .mldb o (MldbArgs.form.get ex b p)
  | .mswap => .mswap o
  | .mma => .mma o (MmaArgs.form.get ex b p)
  | .mmas => .mmas o (MmasArgs.form.get ex b p)
  | .mdrain => .mdrain o (MdrainArgs.form.get ex b p)
  | .mzacc => .mzacc o (MzaccArgs.form.get ex b p)
  | .mcv => .mcv o (McvArgs.form.get ex b p)
  | .mtrn => .mtrn o (TilePair.form.get ex b p)
  | .mfill => .mfill o (MfillArgs.form.get ex b p)
  | .mtcpy => .mtcpy o (TilePair.form.get ex b p)
  | .kld => .kld o (KMem.form.get ex b p)
  | .kst => .kst o (KMem.form.get ex b p)
  | .kmov => .kmov o (KPair.form.get ex b p)
  | .kfill => .kfill o (KfillArgs.form.get ex b p)
  | .kspr => .kspr o (KsprArgs.form.get ex b p)
  | .ksprReg => .ksprReg o (KPair.form.get ex b p)
  | .cpy => .cpy o (CopyArgs.form.get ex b p)
  | .gath => .gath o (IndexedCopy.form.get ex b p)
  | .scat => .scat o (IndexedCopy.form.get ex b p)
  | .tldi => .tldi o (TileLoad.form.get ex b p)
  | .tsti => .tsti o (TileStore.form.get ex b p)
  | .cpub => .cpub o (CpubArgs.form.get ex b p)
  | .stmap => .stmap o (StmapArgs.form.get ex b p)
  | .stfl => .stfl o (StflArgs.form.get ex b p)
  | .chint => .chint o (ChintArgs.form.get ex b p)
  | .cnput => .cnput o (NetCopy.form.get ex b p)
  | .cnget => .cnget o (NetCopy.form.get ex b p)
  | .dld => .dld o (DescMove.form.get ex b p)
  | .dst => .dst o (DescMove.form.get ex b p)
  | .wait => .wait o (WaitArgs.form.get ex b p)
  | .fwait => .fwait o (FwaitArgs.form.get ex b p)
  | .fwaitC => .fwaitC o (FwaitArgs.form.get ex b p)
  | .fwaitEq => .fwaitEq o (FwaitArgs.form.get ex b p)
  | .fpost => .fpost o (FpostArgs.form.get ex b p)
  | .fset => .fset o (FsetArgs.form.get ex b p)
  | .rpost => .rpost o (RpostArgs.form.get ex b p)
  | .rpostRel => .rpostRel o (RpostArgs.form.get ex b p)
  | .rpostPred => .rpostPred o (RpostPred.form.get ex b p)
  | .barr => .barr o (BarrArgs.form.get ex b p)
  | .bwait => .bwait o (BarrArgs.form.get ex b p)
  | .rdv => .rdv o (BarrArgs.form.get ex b p)
  | .fence => .fence o (FenceArgs.form.get ex b p)
  | .chk => .chk o (ChkArgs.form.get ex b p)
  | .fork => .fork o (ForkArgs.form.get ex b p)
  | .fprobe => .fprobe o (FprobeArgs.form.get ex b p)
  | .fprobeF => .fprobeF o (FprobeArgs.form.get ex b p)

/-- The row of a slot word in fields, or the first cause of R303. -/
def decodeRow (iss : Issuer) (sl : Slot) (s : SlotBits) : Except Cause Row :=
  let svc := iss == .svc
  if !issues iss sl s.op.toNat then .error 1#10
  else match rowOf sl s.op.toNat s.ex s.body s.pl with
    | .error c => .error c
    | .ok r =>
      match r.check ⟨sl, svc, !svc || s.pn == 0#4, !(s.pn == 0#4 && s.pi) && extOk svc s⟩ s.ex s.body s.pl with
      | .error c => .error c
      | .ok () => .ok r

/-- Guard and arrival of a slot word in fields. -/
def SlotBits.info (sl : Slot) (s : SlotBits) : OpInfo := ⟨sl, s.pn, s.pi, arrivalOf s⟩

/-- The operation of a slot word in fields. -/
noncomputable def decodeBits (iss : Issuer) (sl : Slot) (s : SlotBits) : Except Cause Instr :=
  match decodeRow iss sl s with
  | .error c => .error c
  | .ok r => .ok (r.instr (s.info sl) s.ex s.body s.pl)

/-- The operation of a slot word and its extension word. -/
noncomputable def decodeSlot (iss : Issuer) (sl : Slot) (w ext : Word32) : Except Cause Instr := decodeBits iss sl (SlotBits.ofWords w ext)

/-- The slots in template order: bit 31 of the header is S, bit 22 is F (R198). -/
def slotList : List Slot := [.s, .x, .v0, .v1, .m, .k, .c0, .c1, .y, .f]

/-- A bundle header (R295). -/
structure Header where
  tpl : BitVec 10
  stop : Bool
  ck : Bool
  ew : BitVec 4
  opt : BitVec 3
  opc : Bool
  len : BitVec 5
  rsv : BitVec 7
deriving DecidableEq, Repr

def Header.ofWord (w : Word32) : Header :=
  ⟨fld w 22 10, bit0 (fld w 21 1), bit0 (fld w 20 1), fld w 16 4, fld w 13 3, bit0 (fld w 12 1), fld w 7 5, fld w 0 7⟩

/-- The slots that the template names, in order. -/
def Header.slots (h : Header) : List Slot :=
  ((slotList.zip (List.range 10)).filter fun q => h.tpl.getLsbD (9 - q.2)).map Prod.fst

/-- A bundle cut into slot words with their extensions (R297). -/
structure Bundle where
  hdr : Header
  words : List (Slot × Word32 × Word32)
deriving DecidableEq, Repr

/-- The words after the header laid to the template (R297): cause 0x005 when they are too few or too many. -/
def layWords : List Slot → List Word32 → Except Cause (List (Slot × Word32 × Word32))
  | [], [] => .ok []
  | [], _ :: _ => .error 5#10
  | _ :: _, [] => .error 5#10
  | sl :: ss, w :: ws =>
    if bit0 (fld w 31 1) then
      match ws with
      | [] => .error 5#10
      | e :: ws' => (layWords ss ws').map ((sl, w, e) :: ·)
    else (layWords ss ws).map ((sl, w, 0#32) :: ·)

/-- R297 after the words are fetched: the reserved header bits, then the layout. The caller has checked LEN. -/
def cutBundle (h : Header) (ws : List Word32) : Except Cause Bundle :=
  if h.rsv != 0#7 then .error 2#10
  else match layWords h.slots ws with
    | .error c => .error c
    | .ok l => if h.tpl == 0#10 then .error 5#10 else .ok ⟨h, l⟩

/-- Words of a bundle of `n` bytes held least significant bit first. -/
def wordsOf (n x : Nat) : List Word32 := (List.range n).map fun i => BitVec.ofNat 32 (x / 2 ^ (32 * i))

/-- The first slot, in template order, whose map accepts the word on a main sequencer, else on the service sequencer. The
table's rows of two slots may share a word; a word alone does not name its slot (log 9). -/
noncomputable def decodeAnySlot (w ext : Word32) : Option Instr :=
  let try1 (iss : Issuer) (sl : Slot) : Option Instr := (decodeSlot iss sl w ext).toOption
  (slotList.findSome? (try1 .cmp)).orElse fun _ => (slotList.findSome? (try1 .ctl)).orElse fun _ => slotList.findSome? (try1 .svc)

/-- The instruction the decoder reads from a table row's word: the slot word is the first word, its extension the second. -/
noncomputable def decodeTableWord (nbits w : Nat) : Option Instr :=
  if nbits ≤ 64 then decodeAnySlot (BitVec.ofNat 32 w) (BitVec.ofNat 32 (w / 2 ^ 32)) else none

/-! The encoder. -/

/-- The encoded parts of a slot operation: OP, body, PAYLOAD, and whether the operands need the extension word. -/
structure Enc where
  op : BitVec 6
  body : BitVec 20
  pl : BitVec 24
  ext : Bool
deriving DecidableEq, Repr

def Form.enc {α : Type} (f : Form α) (op k : Nat) (r : α) : Enc := ⟨BitVec.ofNat 6 op, f.body k r, f.pl r, f.ext r⟩

/-- OP, body and PAYLOAD of every slot operation; an event has no encoding (R469). -/
def encodeParts : Instr → Option (OpInfo × Enc)
  | .packageReset => none
  | .bootImageVerify _ => none
  | .clusterPowerUp _ => none
  | .arrayPowerGate _ => none
  | .arrayEnable _ => none
  | .oftFrameReceive _ _ => none
  | .oftPutFlagIncrement _ => none
  | .oftRetransmit _ => none
  | .oftAckTimeout _ => none
  | .portLinkDown _ => none
  | .portLinkUp _ _ => none
  | .portFailover _ _ _ => none
  | .portStatClr _ => none
  | .portDisable _ => none
  | .hostMemRead _ _ => none
  | .hostMemWrite _ _ => none
  | .backInvalidateResponse _ => none
  | .hostSnoop _ => none
  | .hostAccessTimeout _ _ => none
  | .hostLinkDown => none
  | .hostLinkTrain _ _ => none
  | .streamEnable _ => none
  | .launchComplete _ => none
  | .expPortIsolate => none
  | .expIsolationEnd => none
  | .expPoisonSweepDone => none
  | .expRetrain => none
  | .expLinkChange _ _ _ => none
  | .tier2ReadResponse _ _ => none
  | .bootFromHost _ => none
  | .verifyAndWriteFlash _ => none
  | .attestationRequest _ => none
  | .keyLoad _ => none
  | .keyGen _ => none
  | .keyZero _ => none
  | .keyCommandComplete _ => none
  | .setEndpointId _ => none
  | .getEndpointId => none
  | .getMessageTypeSupport => none
  | .i3cDynamicAddressAssignment _ => none
  | .cap _ => none
  | .readTelemetry => none
  | .dumpStatus => none
  | .alertAcknowledge _ => none
  | .packageFatal _ => none
  | .rotWatchdogExpire => none
  | .thermalTrip => none
  | .dumpWritten => none
  | .dumpRelease => none
  | .settlingWindowEnd _ => none
  | .railOvercurrent _ => none
  | .railCeilingLowerStep _ => none
  | .railCeilingRaiseStep _ => none
  | .phaseFail _ => none
  | .thermalCeilingStep _ _ => none
  | .grantRecompute _ => none
  | .placementDecision => none
  | .chunkStart _ => none
  | .tailTileRequest _ => none
  | .preemptRequest _ => none
  | .preemptGraceExpire _ => none
  | .chunkSwitchIn _ => none
  | .checkpointBoundOverrun _ => none
  | .gangStart _ => none
  | .gangWaitTimeout _ => none
  | .barrierArrival _ => none
  | .homeSliceAccess _ => none
  | .sliceRetireComplete _ => none
  | .l2FillReturn _ => none
  | .patrolScrub _ => none
  | .blazeMapSave => none
  | .errorInject => none
  | .updatePairAdmit _ => none
  | .regionRegisterWrite _ _ => none
  | .bundleIssue _ => none
  | .stallBundle _ => none
  | .stretchCycle _ => none
  | .serviceBundleIssue _ => none
  | .handlerStart _ => none
  | .serviceTimer _ => none
  | .coreResume _ => none
  | .contextTerminate _ _ => none
  | .contextTerminationDone _ => none
  | .fsqEnable => none
  | .bankFillStart _ => none
  | .bankFillDone _ => none
  | .sideCarComputeDone _ => none
  | .passStart _ => none
  | .passDrainDone _ => none
  | .tileUnitOpDone _ => none
  | .engineCauseReport _ => none
  | .copyComplete _ _ => none
  | .queueLoaderRead _ => none
  | .dqEntryFilled _ => none
  | .globalLoadComplete _ _ => none
  | .atomicComplete _ _ => none
  | .remotePostDeliver _ => none
  | .waitlineWake _ _ => none
  | .waitlineTimeout _ _ => none
  | .launchAnswer _ => none
  | .registerWrite _ _ => none
  | .nop o => some (o, ⟨0#6, 0#20, 0#24, false⟩)
  | .add o r => some (o, RRR.form.enc 1 0 r)
  | .sub o r => some (o, RRR.form.enc 1 1 r)
  | .and o r => some (o, RRR.form.enc 1 2 r)
  | .or o r => some (o, RRR.form.enc 1 3 r)
  | .xor o r => some (o, RRR.form.enc 1 4 r)
  | .andn o r => some (o, RRR.form.enc 1 5 r)
  | .shl o r => some (o, RRR.form.enc 1 6 r)
  | .shr o r => some (o, RRR.form.enc 1 7 r)
  | .sra o r => some (o, RRR.form.enc 1 8 r)
  | .rol o r => some (o, RRR.form.enc 1 9 r)
  | .mul o r => some (o, RRR.form.enc 1 10 r)
  | .mulhs o r => some (o, RRR.form.enc 1 11 r)
  | .mulhu o r => some (o, RRR.form.enc 1 12 r)
  | .min o r => some (o, RRR.form.enc 1 13 r)
  | .max o r => some (o, RRR.form.enc 1 14 r)
  | .minu o r => some (o, RRR.form.enc 1 15 r)
  | .maxu o r => some (o, RRR.form.enc 1 16 r)
  | .addw o r => some (o, RRR.form.enc 1 17 r)
  | .subw o r => some (o, RRR.form.enc 1 18 r)
  | .movr o r => some (o, RR.form.enc 1 19 r)
  | .addImm o r => some (o, RImm.form.enc 2 0 r)
  | .andImm o r => some (o, RImm.form.enc 3 0 r)
  | .orImm o r => some (o, RImm.form.enc 4 0 r)
  | .xorImm o r => some (o, RImm.form.enc 5 0 r)
  | .shlImm o r => some (o, RShift.form.enc 6 0 r)
  | .shrImm o r => some (o, RShift.form.enc 7 0 r)
  | .sraImm o r => some (o, RShift.form.enc 8 0 r)
  | .mulImm o r => some (o, RImm.form.enc 9 0 r)
  | .mov o r => some (o, RLong.form.enc 10 0 r)
  | .movhi o r => some (o, RLong.form.enc 11 0 r)
  | .cmp o r => some (o, CmpReg.form.enc 12 0 r)
  | .cmpImm o r => some (o, CmpImm.form.enc 12 0 r)
  | .pand o r => some (o, PredLogic.form.enc 13 0 r)
  | .por o r => some (o, PredLogic.form.enc 13 1 r)
  | .pxor o r => some (o, PredLogic.form.enc 13 2 r)
  | .pandn o r => some (o, PredLogic.form.enc 13 3 r)
  | .xfr o r => some (o, Xfer.form.enc 14 0 r)
  | .br o r => some (o, Disp.form.enc 16 0 r)
  | .call o r => some (o, Disp.form.enc 17 0 r)
  | .brz o r => some (o, BrReg.form.enc 18 0 r)
  | .brnz o r => some (o, BrReg.form.enc 19 0 r)
  | .ret o => some (o, ⟨20#6, 0#20, 0#24, false⟩)
  | .jr o r => some (o, JrArgs.form.enc 21 0 r)
  | .loop o r => some (o, LoopReg.form.enc 22 0 r)
  | .loopi o r => some (o, LoopImm.form.enc 23 0 r)
  | .mtcfg o r => some (o, MtcfgArgs.form.enc 24 0 r)
  | .mftcfg o r => some (o, MftcfgArgs.form.enc 25 0 r)
  | .dfpk o r => some (o, DescField.form.enc 26 0 r)
  | .dfex o r => some (o, DescField.form.enc 27 0 r)
  | .dfexS o r => some (o, DescField.form.enc 27 1 r)
  | .ldsp o r => some (o, SpLoad.form.enc 32 0 r)
  | .stsp o r => some (o, SpStore.form.enc 33 0 r)
  | .ld o r => some (o, GlLoad.form.enc 34 0 r)
  | .st o r => some (o, SpStore.form.enc 35 0 r)
  | .atomAdd o r => some (o, Atomic.form.enc 36 0 r)
  | .atomAnd o r => some (o, Atomic.form.enc 36 1 r)
  | .atomOr o r => some (o, Atomic.form.enc 36 2 r)
  | .atomXor o r => some (o, Atomic.form.enc 36 3 r)
  | .atomSmin o r => some (o, Atomic.form.enc 36 4 r)
  | .atomSmax o r => some (o, Atomic.form.enc 36 5 r)
  | .atomUmin o r => some (o, Atomic.form.enc 36 6 r)
  | .atomUmax o r => some (o, Atomic.form.enc 36 7 r)
  | .atomSwap o r => some (o, Atomic.form.enc 36 8 r)
  | .atomCas o r => some (o, Atomic.form.enc 36 9 r)
  | .atomBfi o r => some (o, BitAtomic.form.enc 36 26 r)
  | .atomFfcs o r => some (o, BitAtomic.form.enc 36 27 r)
  | .atomPlset o r => some (o, PlsetArgs.form.enc 36 28 r)
  | .upd o r => some (o, UpdArgs.form.enc 37 0 r)
  | .pref o r => some (o, PrefArgs.form.enc 38 0 r)
  | .waitline o r => some (o, WaitlineArgs.form.enc 40 0 r)
  | .launch o r => some (o, LaunchArgs.form.enc 41 0 r)
  | .exit o => some (o, ⟨42#6, 0#20, 0#24, false⟩)
  | .mfsr o r => some (o, SrMove.form.enc 48 0 r)
  | .mfsrIo o r => some (o, IoMove.form.enc 48 0 r)
  | .mtsr o r => some (o, SrMove.form.enc 49 0 r)
  | .mtsrIo o r => some (o, IoMove.form.enc 49 0 r)
  | .trap o r => some (o, TrapArgs.form.enc 50 0 r)
  | .eret o => some (o, ⟨51#6, 0#20, 0#24, false⟩)
  | .sret o => some (o, ⟨52#6, 0#20, 0#24, false⟩)
  | .tlbiAll o r => some (o, ZeroFn.form.enc 53 0 r)
  | .tlbiCtx o r => some (o, OneReg.form.enc 53 1 r)
  | .tlbiPage o r => some (o, TwoReg.form.enc 53 2 r)
  | .cmntIcinv o r => some (o, ZeroFn.form.enc 54 0 r)
  | .cmntIcinvPkg o r => some (o, ZeroFn.form.enc 54 1 r)
  | .cmntSdcinv o r => some (o, ZeroFn.form.enc 54 2 r)
  | .cmntWbctx o r => some (o, OneReg.form.enc 54 3 r)
  | .cadv o r => some (o, CadvArgs.form.enc 16 0 r)
  | .popc o r => some (o, RR.form.enc 17 0 r)
  | .clz o r => some (o, RR.form.enc 17 1 r)
  | .ctz o r => some (o, RR.form.enc 17 2 r)
  | .bscan o r => some (o, RRR.form.enc 18 0 r)
  | .bscanc o r => some (o, RRR.form.enc 18 1 r)
  | .aqp o r => some (o, AqPush.form.enc 24 0 r)
  | .aqpIdx o r => some (o, AqPushIdx.form.enc 24 1 r)
  | .aqps o r => some (o, AqRun.form.enc 25 0 r)
  | .vadd o r => some (o, VInt3.form.enc 1 0 r)
  | .vsub o r => some (o, VInt3.form.enc 1 1 r)
  | .vmul o r => some (o, VInt3.form.enc 1 2 r)
  | .vmulhs o r => some (o, VInt3.form.enc 1 3 r)
  | .vmulhu o r => some (o, VInt3.form.enc 1 4 r)
  | .vmin o r => some (o, VInt3.form.enc 1 5 r)
  | .vmax o r => some (o, VInt3.form.enc 1 6 r)
  | .vminu o r => some (o, VInt3.form.enc 1 7 r)
  | .vmaxu o r => some (o, VInt3.form.enc 1 8 r)
  | .vadds o r => some (o, VInt3.form.enc 1 9 r)
  | .vsubs o r => some (o, VInt3.form.enc 1 10 r)
  | .vaddus o r => some (o, VInt3.form.enc 1 11 r)
  | .vsubus o r => some (o, VInt3.form.enc 1 12 r)
  | .vabs o r => some (o, VInt2.form.enc 1 13 r)
  | .vneg o r => some (o, VInt2.form.enc 1 14 r)
  | .vand o r => some (o, VInt3.form.enc 1 15 r)
  | .vor o r => some (o, VInt3.form.enc 1 16 r)
  | .vxor o r => some (o, VInt3.form.enc 1 17 r)
  | .vandn o r => some (o, VInt3.form.enc 1 18 r)
  | .vmov o r => some (o, VInt2.form.enc 1 19 r)
  | .vmulq o r => some (o, VInt3.form.enc 1 20 r)
  | .vmac o r => some (o, VInt3.form.enc 1 21 r)
  | .vmacs o r => some (o, VInt3.form.enc 1 22 r)
  | .vmacwl o r => some (o, VInt3.form.enc 1 23 r)
  | .vmacwh o r => some (o, VInt3.form.enc 1 24 r)
  | .vshl o r => some (o, VInt3.form.enc 2 0 r)
  | .vshr o r => some (o, VInt3.form.enc 2 1 r)
  | .vsra o r => some (o, VInt3.form.enc 2 2 r)
  | .vrol o r => some (o, VInt3.form.enc 2 3 r)
  | .vshlImm o r => some (o, VIntK.form.enc 2 4 r)
  | .vshrImm o r => some (o, VIntK.form.enc 2 5 r)
  | .vsraImm o r => some (o, VIntK.form.enc 2 6 r)
  | .vrolImm o r => some (o, VIntK.form.enc 2 7 r)
  | .vcmp o r => some (o, VCmp.form.enc 3 0 r)
  | .vfcmp o r => some (o, VFCmp.form.enc 6 0 r)
  | .vsel o r => some (o, VSel.form.enc 7 0 r)
  | .vfadd o r => some (o, VFp3.form.enc 4 0 r)
  | .vfsub o r => some (o, VFp3.form.enc 4 1 r)
  | .vfmul o r => some (o, VFp3.form.enc 4 2 r)
  | .vfdiv o r => some (o, VFp3.form.enc 4 3 r)
  | .vfsqrt o r => some (o, VFp2.form.enc 4 4 r)
  | .vfmin o r => some (o, VFmt3.form.enc 4 5 r)
  | .vfmax o r => some (o, VFmt3.form.enc 4 6 r)
  | .vfabs o r => some (o, VFmt2.form.enc 4 7 r)
  | .vfneg o r => some (o, VFmt2.form.enc 4 8 r)
  | .vfma o r => some (o, VFp3.form.enc 5 0 r)
  | .vfms o r => some (o, VFp3.form.enc 5 1 r)
  | .vfnma o r => some (o, VFp3.form.enc 5 2 r)
  | .vfnms o r => some (o, VFp3.form.enc 5 3 r)
  | .vcvt o r => some (o, VCvt.form.enc 8 0 r)
  | .vqntE2m1s o r => some (o, VQnt.form.enc 9 0 r)
  | .vqntE4m3 o r => some (o, VQnt.form.enc 9 1 r)
  | .vqntE5m2 o r => some (o, VQnt.form.enc 9 2 r)
  | .vdqnt o r => some (o, VDqnt.form.enc 9 3 r)
  | .vradd o r => some (o, VInt2.form.enc 10 0 r)
  | .vrmin o r => some (o, VInt2.form.enc 10 1 r)
  | .vrmax o r => some (o, VInt2.form.enc 10 2 r)
  | .vrminu o r => some (o, VInt2.form.enc 10 3 r)
  | .vrmaxu o r => some (o, VInt2.form.enc 10 4 r)
  | .vrand o r => some (o, VInt2.form.enc 10 5 r)
  | .vror o r => some (o, VInt2.form.enc 10 6 r)
  | .vrxor o r => some (o, VInt2.form.enc 10 7 r)
  | .vrfadd o r => some (o, VRed.form.enc 10 8 r)
  | .vrfmin o r => some (o, VRed.form.enc 10 9 r)
  | .vrfmax o r => some (o, VRed.form.enc 10 10 r)
  | .vscanadd o r => some (o, VInt2.form.enc 11 0 r)
  | .vscanaddx o r => some (o, VInt2.form.enc 11 1 r)
  | .vscanmax o r => some (o, VInt2.form.enc 11 2 r)
  | .vscanmin o r => some (o, VInt2.form.enc 11 3 r)
  | .vscanmaxu o r => some (o, VInt2.form.enc 11 4 r)
  | .vscanminu o r => some (o, VInt2.form.enc 11 5 r)
  | .vscanfadd o r => some (o, VRed.form.enc 11 6 r)
  | .vperm o r => some (o, VInt3.form.enc 12 0 r)
  | .vrot o r => some (o, VIntK.form.enc 12 1 r)
  | .vext o r => some (o, VExt.form.enc 12 2 r)
  | .vzipl o r => some (o, VInt3.form.enc 12 3 r)
  | .vziph o r => some (o, VInt3.form.enc 12 4 r)
  | .vuzpe o r => some (o, VInt3.form.enc 12 5 r)
  | .vuzpo o r => some (o, VInt3.form.enc 12 6 r)
  | .vsplat o r => some (o, VIntK.form.enc 12 7 r)
  | .vrev o r => some (o, VInt2.form.enc 12 8 r)
  | .vrcp o r => some (o, VFp2.form.enc 13 0 r)
  | .vrsqrt o r => some (o, VFp2.form.enc 13 1 r)
  | .vexp2 o r => some (o, VFp2.form.enc 13 2 r)
  | .vlog2 o r => some (o, VFp2.form.enc 13 3 r)
  | .vsinpi o r => some (o, VFp2.form.enc 13 4 r)
  | .vcospi o r => some (o, VFp2.form.enc 13 5 r)
  | .vtanh o r => some (o, VFp2.form.enc 13 6 r)
  | .vsigm o r => some (o, VFp2.form.enc 13 7 r)
  | .vrnd o r => some (o, VRndArgs.form.enc 14 0 r)
  | .vbcast o r => some (o, RLong.form.enc 15 0 r)
  | .vtrd o r => some (o, TileRead.form.enc 16 0 r)
  | .vtrdReg o r => some (o, TileReadReg.form.enc 16 1 r)
  | .vtwr o r => some (o, TileRow.form.enc 17 0 r)
  | .vtwrReg o r => some (o, TileRowReg.form.enc 17 1 r)
  | .vldsp o r => some (o, VSp.form.enc 32 0 r)
  | .vstsp o r => some (o, VSp.form.enc 33 0 r)
  | .vld o r => some (o, VLoad.form.enc 34 0 r)
  | .vst o r => some (o, VSp.form.enc 35 0 r)
  | .vamoAdd o r => some (o, VAtomic.form.enc 36 0 r)
  | .vamoAnd o r => some (o, VAtomic.form.enc 36 1 r)
  | .vamoOr o r => some (o, VAtomic.form.enc 36 2 r)
  | .vamoXor o r => some (o, VAtomic.form.enc 36 3 r)
  | .vamoSmin o r => some (o, VAtomic.form.enc 36 4 r)
  | .vamoSmax o r => some (o, VAtomic.form.enc 36 5 r)
  | .vamoUmin o r => some (o, VAtomic.form.enc 36 6 r)
  | .vamoUmax o r => some (o, VAtomic.form.enc 36 7 r)
  | .vamoSwap o r => some (o, VAtomic.form.enc 36 8 r)
  | .vupd o r => some (o, VUpdArgs.form.enc 37 0 r)
  | .dqpop o r => some (o, DqPop.form.enc 38 0 r)
  | .mldb o r => some (o, MldbArgs.form.enc 1 0 r)
  | .mswap o => some (o, ⟨2#6, 0#20, 0#24, false⟩)
  | .mma o r => some (o, MmaArgs.form.enc 3 0 r)
  | .mmas o r => some (o, MmasArgs.form.enc 4 0 r)
  | .mdrain o r => some (o, MdrainArgs.form.enc 5 0 r)
  | .mzacc o r => some (o, MzaccArgs.form.enc 6 0 r)
  | .mcv o r => some (o, McvArgs.form.enc 7 0 r)
  | .mtrn o r => some (o, TilePair.form.enc 8 0 r)
  | .mfill o r => some (o, MfillArgs.form.enc 9 0 r)
  | .mtcpy o r => some (o, TilePair.form.enc 10 0 r)
  | .kld o r => some (o, KMem.form.enc 1 0 r)
  | .kst o r => some (o, KMem.form.enc 2 0 r)
  | .kmov o r => some (o, KPair.form.enc 3 0 r)
  | .kfill o r => some (o, KfillArgs.form.enc 3 1 r)
  | .kspr o r => some (o, KsprArgs.form.enc 4 0 r)
  | .ksprReg o r => some (o, KPair.form.enc 4 1 r)
  | .cpy o r => some (o, CopyArgs.form.enc 1 0 r)
  | .gath o r => some (o, IndexedCopy.form.enc 2 0 r)
  | .scat o r => some (o, IndexedCopy.form.enc 3 0 r)
  | .tldi o r => some (o, TileLoad.form.enc 4 0 r)
  | .tsti o r => some (o, TileStore.form.enc 5 0 r)
  | .cpub o r => some (o, CpubArgs.form.enc 6 0 r)
  | .stmap o r => some (o, StmapArgs.form.enc 7 0 r)
  | .stfl o r => some (o, StflArgs.form.enc 8 0 r)
  | .chint o r => some (o, ChintArgs.form.enc 9 0 r)
  | .cnput o r => some (o, NetCopy.form.enc 10 0 r)
  | .cnget o r => some (o, NetCopy.form.enc 11 0 r)
  | .dld o r => some (o, DescMove.form.enc 12 0 r)
  | .dst o r => some (o, DescMove.form.enc 13 0 r)
  | .wait o r => some (o, WaitArgs.form.enc 1 0 r)
  | .fwait o r => some (o, FwaitArgs.form.enc 2 0 r)
  | .fwaitC o r => some (o, FwaitArgs.form.enc 2 1 r)
  | .fwaitEq o r => some (o, FwaitArgs.form.enc 2 2 r)
  | .fpost o r => some (o, FpostArgs.form.enc 3 0 r)
  | .fset o r => some (o, FsetArgs.form.enc 3 1 r)
  | .rpost o r => some (o, RpostArgs.form.enc 4 0 r)
  | .rpostRel o r => some (o, RpostArgs.form.enc 4 1 r)
  | .rpostPred o r => some (o, RpostPred.form.enc 4 2 r)
  | .barr o r => some (o, BarrArgs.form.enc 5 0 r)
  | .bwait o r => some (o, BarrArgs.form.enc 6 0 r)
  | .rdv o r => some (o, BarrArgs.form.enc 7 0 r)
  | .fence o r => some (o, FenceArgs.form.enc 8 0 r)
  | .chk o r => some (o, ChkArgs.form.enc 9 0 r)
  | .fork o r => some (o, ForkArgs.form.enc 1 0 r)
  | .fprobe o r => some (o, FprobeArgs.form.enc 2 0 r)
  | .fprobeF o r => some (o, FprobeArgs.form.enc 2 1 r)
  | .hostLineCacheFill _ _ _ => none
  | .powerLoss => none

def Arrival.ag : Arrival → Bool
  | .flag _ => false
  | .barrier _ => true
def Arrival.an : Arrival → BitVec 6
  | .flag f => f.setWidth 6
  | .barrier g => g

/-- The fields of the word and extension of a slot operation. -/
def Enc.bits (o : OpInfo) (e : Enc) : SlotBits :=
  let ex := e.ext || o.arr.isSome
  ⟨ex, e.op, o.pn, o.pi, e.body, o.arr.isSome, (match o.arr with | some a => a.ag | none => false),
    (match o.arr with | some a => a.an | none => 0#6), if ex then e.pl else 0#24⟩

def b2n (b : Bool) : Nat := if b then 1 else 0

/-- The slot word and the extension word of the fields (R298, R299). -/
def SlotBits.word (s : SlotBits) : Word32 :=
  BitVec.ofNat 32 ((((b2n s.ex * 64 + s.op.toNat) * 16 + s.pn.toNat) * 2 + b2n s.pi) * 1048576 + s.body.toNat)
def SlotBits.extWord (s : SlotBits) : Word32 :=
  BitVec.ofNat 32 (((b2n s.av * 2 + b2n s.ag) * 64 + s.an.toNat) * 16777216 + s.pl.toNat)

/-- The words of a slot operation: the slot word, then the extension word when one is needed. -/
def encode (i : Instr) : List Word32 :=
  match encodeParts i with
  | none => []
  | some (o, e) => let s := e.bits o; if s.ex then [s.word, s.extWord] else [s.word]

/-- Decoding of the words of one slot operation in a given slot. -/
noncomputable def decodeWords (iss : Issuer) (sl : Slot) : List Word32 → Except Cause Instr
  | [w] => decodeSlot iss sl w 0#32
  | [w, e] => decodeSlot iss sl w e
  | _ => .error 5#10

/-- The slot of an operation; events stand in no slot. -/
def Instr.slot? (i : Instr) : Option Slot := (encodeParts i).map fun q => q.1.slot

end Sys2Proof
end

