-- ==== Sys2Proof/Machine/State.lean ====
section
/-! DEFINITION. The state of the package as plain data, the reasons a step can stop, and the state after reset. -/
namespace Sys2Proof.Machine

/-- A finite map: keys strictly rising, each listed once (SMap.Sorted). Registers list only values that are not zero. -/
abbrev SMap (α : Type) := List (Nat × α)

/-- Where a fixed-latency result lands (R204). -/
inductive Dest where
  | s (r : Nat) | x (r : Nat) | v (r : Nat) | k (r : Nat) | d (r : Nat) | p (r : Nat)
  /-- the poison bits of a k register, one per 32-byte piece (R406) -/
  | kp (r : Nat)
  /-- a 32-byte scratchpad sector: value and byte mask in bits (R204, R376) -/
  | sp (sector : Nat)
  | tcfg (t : Nat)
  /-- 128 bytes of a tile from byte `off` (R371) -/
  | tile (t off : Nat)
deriving DecidableEq, Repr

/-- A result in flight: it becomes visible to the bundle that is `left` issued bundles ahead (R204). -/
structure Landing where
  left : Nat
  dst : Dest
  val : Vec
  mask : Vec
deriving DecidableEq, Repr

/-- A wait token: count and recorded cause, 0 for none (R202). -/
structure Token where
  cnt : Nat := 0
  cause : Cause := 0
deriving DecidableEq, Repr

/-- One hardware loop level (R209, R210). -/
structure LoopLv where
  body : Word := 0
  last : Word := 0
  iter : Word32 := 0
  act : Bool := false
deriving DecidableEq, Repr

/-- The state that the checkpoint copy holds (R218 step 2). -/
structure Arch where
  s : SMap Word := []
  x : SMap Word := []
  v : SMap Vec := []
  k : SMap Vec := []
  kp : SMap (BitVec 4) := []
  d : SMap Desc512 := []
  p : SMap Word := []
  tok : SMap Token := []
  f : SMap Half := []
  /-- TCFG without SCA and SCB, which the tile's side-car gives (R252) -/
  tcfg : SMap Word32 := []
  loops : SMap LoopLv := []
  /-- mapping bit of each shadowed plan buffer, by plan index (R134) -/
  shadow : SMap Bool := []
  seed : Word := 0
  srctr : SMap Word := []
  /-- the active bank: false is B0 (R242) -/
  bank : Bool := false
  /-- results in flight, in order of issue -/
  lands : List Landing := []
deriving DecidableEq, Repr

/-- One role of a side-car in the layout of the trailer (R245, R419): valid, key, unit exponents, flags, squares. -/
structure SideCar where
  valid : Bool := false
  fmt : BitVec 4 := 0
  ww : Bool := false
  /-- the 128 spare bytes of the key (E2M1S) -/
  spares : Vec := 0
  /-- E[i][blk], 16 bits at 4i + 2blk bytes -/
  e : BitVec 2048 := 0
  /-- flags at byte 2i + blk: [0] NaN, [1] +Inf, [2] -Inf, [3] zero -/
  flags : Vec := 0
  /-- R[l][i][blk] at 1,024l + 16i + 8blk bytes, or C of digit column c at 16c + 8blk -/
  sq : BitVec 32768 := 0
deriving DecidableEq, Repr

/-- A tile: bytes, side-car roles, poison bit and recorded address of each 32-byte piece (R245, R251). -/
structure Tile where
  bytes : TileBytes := 0
  a : SideCar := {}
  b : SideCar := {}
  poison : BitVec 512 := 0
  paddr : SMap Word := []
deriving DecidableEq, Repr

/-- An accumulator: bytes, format (0 none, 1 INT32, 2 FP32, 3 FP64), shape, SAT (R249). -/
structure Acc where
  bytes : TileBytes := 0
  fmt : BitVec 2 := 0
  rows : Nat := 0
  cols : Nat := 0
  sat : Bool := false
deriving DecidableEq, Repr

/-- A stationary bank in the fields of its image (R241, R242). -/
structure Bank where
  /-- digits, row k at byte 64k -/
  digits : BitVec 32768 := 0
  c : BitVec 8192 := 0
  e : BitVec 2048 := 0
  flags : Vec := 0
  scale : BitVec 2048 := 0
  fmt : BitVec 4 := 0
  ww : Bool := false
  s : Bool := false
  n : Nat := 64
  kb : Nat := 64
  stale : Bool := false
  /-- poison of bank rows and of scale entries (R251): row k, then 64 + 2j + blk -/
  poison : BitVec 192 := 0
  paddr : SMap Word := []
  /-- the elements of the tile it was loaded from and their shape: what the special-value path examines (R250) -/
  src : TileBytes := 0
  srcCfg : Word32 := 0
deriving DecidableEq, Repr

/-- One touched piece of a global access: virtual and physical address, bytes, place in the register (R380). -/
structure Piece where
  va : Nat
  pa : Nat
  n : Nat
  off : Nat
  /-- key slot of the page, 64 for none -/
  key : Nat := 64
deriving DecidableEq, Repr

/-- What an operation of a bundle does to the memory system on the way to its effect. It stands though the bundle ends in a cause (R126,
R131, R142-R146, R149). -/
inductive Touch where
  /-- a walk for the page of an address -/
  | page (va : Nat)
  /-- a fill of a scratchpad sector through its stash window -/
  | fill (k : Nat)
  /-- a read of scratchpad bytes, which finds their errors -/
  | scan (sa n : Nat)
  /-- a prefetch of a line: pa, key slot, reuse value -/
  | line (pa key u : Nat)
  /-- a piece that an operation reads at issue: its reuse value, and whether it is a small load -/
  | piece (p : Piece) (u : Nat) (small : Bool)
  /-- an atomic's read at the home: pa, bytes, key slot -/
  | home (pa n key : Nat)
  /-- a write of the service sequencer that ended in a cause: pa, byte mask, bytes, key slot -/
  | write (pa mask : Nat) (b : List Byte) (key : Nat)
deriving DecidableEq, Repr

/-- A cause on its way to a trap record: cause, FADDR, slot code, INFO (R229). -/
structure TrapInfo where
  cause : Cause
  faddr : Word := 0
  slot : BitVec 4 := 0xF
  info : Word := 0
  /-- BADDR and SEGLEN, when the cause is charged to another bundle than the one at issue (R219, R394) -/
  site : Option (Word × Nat) := none
  /-- the token whose cause the wait took (R339) -/
  token : Option Nat := none
  /-- the bank whose corrections failed and the A tile of the pass, for 0x043 (R248) -/
  stale : Option (Bool × Nat) := none
  /-- what the operations of the bundle had touched when it came, in order -/
  did : List Touch := []
deriving DecidableEq, Repr

/-- Where the value of a pending load goes. -/
inductive LoadDst where
  | s (r : Nat) (z : Nat) (sx : Bool)
  /-- vector register and the mask of its active bits -/
  | v (r : Nat) (mask : Vec)
  /-- e register of the service sequencer -/
  | e (r : Nat) (z : Nat) (sx : Bool)
deriving DecidableEq, Repr

/-- A global load on its way (R377, R380). -/
structure PLoad where
  seq : Nat
  tok : Nat
  dst : LoadDst
  pieces : List Piece
  cls : Nat
  u : Nat
  /-- how many entries of the release buffer precede it in program order (R177) -/
  relN : Nat := 0
  arr : Option Arrival := none
  /-- the bundle that holds the access, and the bundles counted before it (R219, R463) -/
  site : Word × Nat := (0, 0)
deriving DecidableEq, Repr

/-- A returning atomic that has been performed and has not yet delivered (R383). -/
structure PAtom where
  seq : Nat
  tok : Nat
  dst : Nat
  res : Word
  cause : Cause
  relN : Nat := 0
  arr : Option Arrival := none
  pa : Nat := 0
deriving DecidableEq, Repr

/-- Entries of the release buffer (R218, R220). -/
inductive Rel where
  /-- bytes of one 32-byte piece: its aligned physical address and key slot, value and byte mask -/
  | store (pa key cls : Nat) (val : BitVec 256) (mask : BitVec 32)
  /-- operator, element width in bits, operands, mask of active elements -/
  | vamo (pa key cls aop w : Nat) (val : BitVec 256) (mask : BitVec 32)
  | pair (pa key rgn cls : Nat) (val : Word)
  | post (target flag n : Nat)
  | arrive (g : Nat)
  /-- a deferred command: the seq of its entry among the core's commands -/
  | cmd (seq : Nat)
  /-- what a command which starts at issue makes at its commit, by the command's number; a post takes an entry (R220, R415) -/
  | late (seq : Nat) (post : Bool)
  /-- the barrier arrival that an operation under way makes when it retires, in the operation's place, by its number (R218, R280, R299) -/
  | due (seq g : Nat)
  /-- an arrival event on its way: target core, handler, first address, bytes, and the token of its command (R415, R427) -/
  | event (target hn first bytes tok : Nat)
  /-- a FENCE among the withheld operations: it takes no entry (R186) -/
  | mark (kinds cls : Nat)
deriving DecidableEq, Repr

/-- Kinds of copy-slot commands that engines run. -/
inductive CmdKind where
  | cpy | gath | scat | cnput | cnget
  | tldi (t : Nat) (addr : Word) (trl spc : Bool)
  | tsti (t : Nat) (addr : Word) (trl spc : Bool)
  | stfl (wins : List Nat) (inv : Bool)
deriving DecidableEq, Repr

/-- A stash window: base, size in 64-byte units, scratchpad base, enabled (R132). -/
structure Window where
  gva : Word := 0
  spbase : Nat := 0
  size : Nat := 0
  en : Bool := false
deriving DecidableEq, Repr

/-- A command of a copy engine (R413-R427). -/
structure Cmd where
  seq : Nat
  /-- engine 0 or 1 -/
  eng : Nat
  tok : Nat
  cls : Nat
  u : Nat
  kind : CmdKind
  desc : Desc512
  /-- the index words of gath and scat, read when the command starts -/
  index : List Nat := []
  /-- it starts at commit (R414) -/
  deferred : Bool
  /-- it counts as released: its token changes reach the checkpoint copy too (R202) -/
  released : Bool := false
  started : Bool := false
  /-- source bytes with their poison, in flat order, read when the command started (tile and scratchpad sources) -/
  src : List (Byte × Bool) := []
  /-- the source has been read -/
  captured : Bool := false
  /-- a cause met when it read its index words (R142) -/
  bad : Cause := 0
  /-- its first frame has gone out (R18), and data that has come back -/
  sent : Bool := false
  /-- transfers of 256 bytes that it has started, and how many it makes in all, once that is known (R84, R87) -/
  moved : Nat := 0
  parts : Option Nat := none
  /-- mapping bits of the shadowed buffers of the core it writes to, as they stood when it started (R134, R414) -/
  hid : SMap Bool := []
  relN : Nat := 0
  arr : Option Arrival := none
  /-- the bundle that holds it, and the bundles counted before it (R463) -/
  site : Word × Nat := (0, 0)
  /-- the stash windows that it uses, when its own bundle changed them (R423) -/
  wins : Option (SMap Window) := none
deriving DecidableEq, Repr

/-- What a pass takes from its bank at issue: format, scales, shape (R391, R397). -/
structure BankTag where
  fmt : BitVec 4 := 0
  s : Bool := false
  n : Nat := 64
  kb : Nat := 64
  scale : BitVec 2048 := 0
  /-- poison of the scale entries, bit 2j + blk -/
  poison : BitVec 128 := 0
deriving DecidableEq, Repr

/-- Matrix-engine operations with the operands they captured at issue (R391-R404). -/
inductive MatOp where
  /-- what the fill gives its bank: the bank's own fields change when it ends (R242, R395) -/
  | mldb (t : Nat) (ww s : Bool) (bank : Bool) (fmt : BitVec 4) (n kb : Nat) (e0 e1 : Vec) (kp : BitVec 8)
  | pass (acc t : Nat) (ow ww scaled : Bool) (af : BitVec 2) (bank : Bool) (e0 e1 : Vec) (kp : BitVec 8) (tag : BankTag)
  | drain (t acc : Nat) (rm : BitVec 3) (sat : Bool) (rnd : List Word)
  | zacc (acc : Nat) (af : BitVec 2) (rows cols : Nat)
  | cv (t : Nat) (ra rb ww : Bool) (e0 e1 : Vec)
  | trn (d a : Nat)
  | fill (t : Nat) (v : BitVec 24)
  | tcpy (d a : Nat)
deriving DecidableEq, Repr

structure PMat where
  seq : Nat
  op : MatOp
  /-- the bundle that issued it, and the bundles counted before it (R219, R394) -/
  site : Word × Nat
  /-- a fill that runs, a pass that streams or drains (R393) -/
  started : Bool := false
  /-- the side-car role it started with -/
  side : SideCar := {}
  /-- a cause that the engine found and reports next (R394) -/
  found : Option TrapInfo := none
  relN : Nat := 0
  arr : Option Arrival := none
deriving DecidableEq, Repr

/-- An entry of AQ (R336). -/
structure AqEntry where
  seq : Nat
  tok : Nat
  z : Nat
  pieces : List Piece
  cls : Nat
  u : Nat
  relN : Nat := 0
  /-- the arrival of the push, on its last entry -/
  arr : Option Arrival := none
  /-- the bundle that holds the push, and the bundles counted before it (R463) -/
  site : Word × Nat := (0, 0)
deriving DecidableEq, Repr

/-- An entry of DQ: size, data when it is in place, cause when it carries poison or isolation (R337). -/
structure DqEntry where
  seq : Nat
  tok : Nat
  z : Nat
  pieces : List Piece
  cls : Nat
  relN : Nat := 0
  data : Option (BitVec 256) := none
  cause : Cause := 0
  /-- reuse value of its read (R381, R387) -/
  u : Nat := 2
  site : Word × Nat := (0, 0)
deriving DecidableEq, Repr

/-- A watch of waitline (R329). -/
structure Watch where
  seq : Nat
  tok : Nat
  dst : Nat
  pa : Nat
  va : Nat
  /-- it sleeps: neither written nor timed out -/
  asleep : Bool
  cause : Cause
  tmo : BitVec 5
  relN : Nat := 0
  arr : Option Arrival := none
  /-- the class of its load, and the key slot of its page -/
  cls : Nat := 0
  key : Nat := 64
deriving DecidableEq, Repr

/-- A stash sector (R132, R133): the bytes written since its fill (in this segment when the undo log holds the sector), whether
the other bytes hold memory's content, and the physical sector with the key slot of its page once the core is registered as a sharer; and
whether isolation filled it as poison (R45). No entry: invalid. -/
structure StashSector where
  mask : BitVec 32 := 0
  full : Bool := false
  pa : Option Nat := none
  key : Nat := 64
  iso : Bool := false
deriving DecidableEq, Repr

/-- One entry of the undo log: scratchpad sector, bytes, poison, stash state before the segment wrote it (R222). -/
structure Undo where
  sector : Nat
  bytes : BitVec 256
  poison : Bool
  stash : Option StashSector
  /-- its words with an uncorrectable error, and with one inverted bit -/
  err : BitVec 4 := 0
  cor : BitVec 4 := 0
deriving DecidableEq, Repr

/-- One entry of the atomic replay log (R221). -/
structure Replay where
  addr : Word
  w64 : Bool
  aop : Nat
  res : Word
deriving DecidableEq, Repr

/-- A slot of the copy-on-write pool: the committed tile or accumulator (R220). -/
inductive Cow where
  | tile (t : Nat) (old : Tile)
  | acc (a : Nat) (old : Acc)
deriving DecidableEq, Repr

/-- What a block move, eret, tlbi or cmnt does once every earlier operation of its sequencer has been performed (R430, R433, R436, R437). -/
inductive SysOp where
  /-- offset, s register, and the bundles counted once its own had issued -/
  | ioRead (off : Nat) (d : BitVec 5) (count : Nat)
  | ioWrite (off : Nat) (v : Word)
  | eret (core : Nat)
  /-- the context and the address of the entries that go; all, where none is named -/
  | tlbi (ctx va : Option Nat)
  | icinv
  | icinvPkg
  | sdcinv
  | wbctx (ctx : Nat)
deriving DecidableEq, Repr

/-- A held condition at the group boundary (R208, R338). -/
inductive Hold where
  /-- the awaited tokens, the bundle that waits, and the bundles issued before it (R339) -/
  | tokens (set : List Nat) (baddr : Word) (count : Nat)
  | flagGe (f n : Nat)
  | flagGeSub (f n : Nat)
  | flagEq (f n : Nat)
  | barrier (g : Nat)
  /-- fence: kinds, scope, classes covered, and every operation up to seq (R185) -/
  | fence (kinds scope cls seq : Nat)
  /-- the waiting part of a rendezvous (R346) -/
  | rdv (g : Nat)
  | cpub (buf : Nat) (seq : Nat)
  /-- the Distributor's answer to a launch (R330) -/
  | launch (rec : Word) (ctx : Nat) (d : Nat)
  /-- an operation that waits for those numbered below it -/
  | sys (op : SysOp) (seq : Nat)
deriving DecidableEq, Repr

/-- Changes of a flag within the group so far, for R207 and R340. -/
inductive FlagUse where
  | write | incr | wait | read
deriving DecidableEq, Repr

/-- A post to a flag of its own core that has not yet taken effect (R342): it waits for every operation up to `upto` and, when
`withheld`, for the commit. A set stands before the increments of its own bundle (R340). -/
structure Post where
  flag : Nat
  set : Bool
  n : Half
  upto : Nat
  withheld : Bool
  /-- its segment has committed -/
  committed : Bool := false
  /-- the bundle that made it, by the number of its first operation -/
  bundle : Nat
  /-- how many entries of the release buffer precede it in program order (R183) -/
  relN : Nat := 0
deriving DecidableEq, Repr

/-- What a command that started at issue makes only at its commit: a post to another core, an arrival event (R415); with the command's
number, by which the post takes its place in program order. -/
structure Later where
  seq : Nat
  post : Option (Nat × Nat)
  /-- target core, handler, first scratchpad address, bytes -/
  event : Option (Nat × Nat × Nat × Nat)
  tok : Nat
deriving DecidableEq, Repr

/-- What the segment holds back (R219, R220). -/
structure Seg where
  ckaddr : Word := 0
  ck : Arch := {}
  count : Nat := 0
  rolls : Nat := 0
  replayed : Bool := false
  rel : List Rel := []
  undo : List Undo := []
  pool : List Cow := []
  log : List Replay := []
  logPos : Nat := 0
  q : Nat := 0
  staged0 : Nat := 0
  staged1 : Nat := 0
  /-- targets reserved by FORK, with entry and s24-s31 (R349) -/
  forks : List (Nat × Word × List Word) := []
  posts : List Post := []
  later : List Later := []
  /-- a rdv whose commit was made and whose arrival stands released: its hold alone is left (R346) -/
  rdvDone : Bool := false
  /-- no bundle has issued since the commit that opened the segment: its ck bundle commits again when a resume issues it (R217) -/
  again : Bool := false
  /-- the core stands at its checkpoint after a rollback or a switch-in and no bundle has issued since (R221, R346) -/
  restart : Bool := false
  /-- EXIT has issued and waits for its commit; then its run is over and only the end of the chunk is left (R331) -/
  exiting : Bool := false
  exitDone : Bool := false
deriving DecidableEq, Repr

/-- The issue group so far (R207). -/
structure Group where
  n : Nat := 0
  /-- destinations written, as (file, number) -/
  wrote : List (Nat × Nat) := []
  /-- spans of scratchpad words written: first and last -/
  spWrote : List (Nat × Nat) := []
  flags : List (Nat × FlagUse) := []
  holds : List Hold := []
  pushed : Bool := false
  popped : Bool := false
deriving DecidableEq, Repr

/-- An arrival event of a service sequencer (R427). -/
structure ArrEvent where
  hn : BitVec 4
  sa : Word
  bytes : Word
  core : Word
deriving DecidableEq, Repr

/-- The service sequencer (R427, R435). -/
structure Svc where
  pc : Word := 0
  busy : Bool := false
  notices : BitVec 4 := 0
  tpend : Bool := false
  queue : List ArrEvent := []
  base : Word := 0
  tcmp : Word := 0
  /-- a cause that stopped its handler, taken at the main sequencer's next commit (R227) -/
  trap : Option (TrapInfo × Word) := none
  hold : List Hold := []
  /-- results that the next bundle of the handler sees -/
  lands : List (Nat × Word) := []
deriving DecidableEq, Repr

/-- The kernel that a chunk runs, as the Distributor keeps it from the descriptor (R294). -/
structure Kernel where
  entry : Word := 0
  nlev : Nat := 0
  kinds : List Nat := []
  bmask : Half := 0
  latdecl : Word32 := 0
  cap : Word32 := 0
  leak : BitVec 20 := 0
  plan : List Word := []
deriving DecidableEq, Repr

/-- A chunk: its launch, flat range, what is left of it, resident state when it was switched out (R99, R111, R113). -/
structure Chunk where
  launch : Nat
  ctx : Nat
  prio : Nat
  lo : Nat
  hi : Nat
  /-- next tile to run -/
  next : Nat
  /-- the tile run in progress -/
  cur : Nat
  gang : Bool
  /-- a forked run: forker core (R121) -/
  forked : Option Nat := none
  /-- the core whose chunk it is part of (R121, R349) -/
  root : Nat := 0
  started : Bool := false
  /-- SEQ of its launch, for the trap record (R229) -/
  lrec : Word := 0
deriving DecidableEq, Repr

/-- State saved with a switched-out chunk (R235). -/
structure Saved where
  chunk : Chunk
  kernel : Kernel
  arch : Arch
  ckaddr : Word
  tiles : SMap Tile
  accs : SMap Acc
  b0 : Bank
  b1 : Bank
  log : List Replay
  wins : SMap Window
  svbase : Word
  tcmp : Word
  sq : List ArrEvent
  /-- scratchpad bytes of banks that had to be saved (R111) -/
  banks : SMap Byte
  savedMask : Half
  spPoison : SMap Unit
  parked : Bool
  /-- flag increments posted while it was out (R343) -/
  posts : SMap Half
  rolls : Nat
  /-- arrivals released, and a rendezvous that has arrived (R344, R346) -/
  arrived : SMap Nat
  rdvDone : Bool
  /-- its entitlement to an automatic replay is used (R215), and e0-e7 -/
  replayed : Bool
  e : SMap Word
  /-- a cause of its service sequencer that waits for the next commit (R227) -/
  strap : Option (TrapInfo × Word) := none
deriving DecidableEq, Repr

/-- What the main sequencer does. -/
inductive RunState where
  | idle | running | parked | rolling
deriving DecidableEq, Repr

/-- A trap record (R229). -/
structure TrapRec where
  cause : Cause := 0
  slot : BitVec 4 := 0
  kind : Byte := 0
  ctx : BitVec 6 := 0
  rolls : Byte := 0
  core : Half := 0
  baddr : Word := 0
  faddr : Word := 0
  ckaddr : Word := 0
  lrec : Word := 0
  seglen : Word32 := 0
  time : Word := 0
  info : Word := 0
deriving DecidableEq, Repr

/-- A core (R195-R216 and the chapters that give it state). -/
structure Core where
  run : RunState := .idle
  pc : Word := 0
  arch : Arch := {}
  seg : Seg := {}
  grp : Group := {}
  e : SMap Word := []
  svc : Svc := {}
  tiles : SMap Tile := []
  accs : SMap Acc := []
  b0 : Bank := {}
  b1 : Bank := {}
  /-- committed copies of the banks (R242) -/
  cb0 : Bank := {}
  cb1 : Bank := {}
  loads : List PLoad := []
  atoms : List PAtom := []
  cmds : List Cmd := []
  mq : List PMat := []
  aq : List AqEntry := []
  dq : List DqEntry := []
  watches : List Watch := []
  sp : SMap Byte := []
  spPoison : SMap Unit := []
  /-- words of the scratchpad with an uncorrectable error, and with one inverted bit (R131) -/
  spErr : SMap Unit := []
  spCor : SMap Unit := []
  wins : SMap Window := []
  stash : SMap StashSector := []
  /-- bundles of the loop buffer, by address, as their words (R211) -/
  lbuf : SMap (List Word32) := []
  opReq : BitVec 3 := 0
  opEff : BitVec 3 := 0
  opCeil : BitVec 3 := 7
  opPwin : Bool := false
  opHwin : Bool := false
  /-- a request kept for the end of a hardware window, and a ceiling that waits for the end of a window (R80) -/
  opKept : Option (BitVec 3) := none
  opWait : Option (BitVec 3) := none
  mhz : Half := 0
  eprof : Word := 0xFFFFF000FFFFFFFF#64
  /-- levels of the two buckets in units (R86) -/
  elvl : Rat := 0
  elvlS : Rat := 0
  /-- notice 0x180 may be sent (R88) -/
  earm : Bool := true
  latdecl : Word := 0x00624211#64
  cmiss : Word32 := 0
  fscore : BitVec 9 := 0
  kernel : Kernel := {}
  chunk : Option Chunk := none
  queue : List Chunk := []
  resident : List Saved := []
  /-- a pre-emption request with the bundles of grace left (R113) -/
  preempt : Option Nat := none
  /-- a reservation by a FORK or a gang (R116, R121) -/
  reserved : Option Nat := none
  trec : TrapRec := {}
  /-- the trap record waits for room in the fault-service queue (R230) -/
  recHeld : Bool := false
  icache : SMap (List Byte) := []
  sdc : SMap Unit := []
  arrayOn : Bool := false
  arrayEn : Bool := false
  /-- arrivals of this chunk released so far, by barrier (R344) -/
  arrived : SMap Nat := []
  /-- an uncorrectable error stands in the undo log, the checkpoint copy or the pool (R238) -/
  keepErr : Bool := false
  /-- the host access that the core makes next within a step takes longer than 1 ms (R31) -/
  hostSlow : Bool := false
deriving DecidableEq, Repr

/-- A line of an L2 slice (R136, R137, R167); data stands in memory, poison in the sector map. -/
structure L2Line where
  tag : Nat
  valid : BitVec 2
  dirty : BitVec 2
  owner : BitVec 6
  rrpv : BitVec 2
  u : Bool
  resv : Bool
  /-- key slot under which it is written back -/
  key : Nat
deriving DecidableEq, Repr

/-- A deck entry's combined value (R163, R164, R167). -/
structure DeckVal where
  val : BitVec 128
  nan : Bool := false
  pinf : Bool := false
  ninf : Bool := false
  oor : Bool := false
  neg0 : Bool := false
deriving DecidableEq, Repr

/-- A released entry that has not yet been performed (R174, R218). -/
structure Flight where
  seq : Nat
  core : Nat
  ctx : Nat
  rel : Rel
  /-- the REFCLK cycle of its release (R118) -/
  time : Word := 0
deriving DecidableEq, Repr

/-- What the bundle at issue gives its operations (R204, R323). -/
structure Issue where
  core : Nat := 0
  svc : Bool := false
  haddr : Word := 0
  len : Nat := 0
  ck : Bool := false
  stop : Bool := false
  /-- a taken transfer of the bundle -/
  target : Option Word := none
  /-- the transfer is a br, brz, brnz or jr, which leaves loop bodies (R326) -/
  leaves : Bool := false
  /-- an operation of the bundle ended in a trap, or cannot yet issue -/
  trap : Option TrapInfo := none
  stall : Bool := false
  /-- exit was executed -/
  exit : Bool := false
  /-- entries of the release buffer when the bundle's operations began: what its loads see withheld (R204) -/
  relN : Nat := 0
  /-- numbers of operations and results in flight from here on belong to the bundle itself, whose reads and writes of tiles do not
  meet (R203, R204) -/
  since : Option (Nat × Nat) := none
  /-- increments that this bundle has made of each flag (R340) -/
  incs : SMap Half := []
  /-- what its operations have touched so far -/
  did : List Touch := []
  /-- the stash windows as they stood before a stmap of the bundle (R423) -/
  wins : Option (SMap Window) := none
deriving DecidableEq, Repr

/-- A leaf that a TLB holds (R129). -/
structure Leaf where
  pte : Word
  level : Nat
deriving DecidableEq, Repr

/-- A record on its way to the fault-service queue (R230): TYPE, CTX byte, body, and the core whose trap record it is. -/
structure FsqRec where
  typ : Nat
  ctx : Nat
  body : List Byte
  core : Option Nat
deriving DecidableEq, Repr

/-- A launch that the Distributor holds: waiting, then placed (R34, R104-R116, R330). -/
structure Launch where
  id : Nat
  ctx : Nat
  seq : Word32 := 0
  kernel : Kernel := {}
  prio : Nat := 0
  gang : Bool := false
  feedback : Bool := false
  irq : Bool := false
  ordered : Bool := false
  bounds : List Nat := []
  arga : Word := 0
  argb : Word := 0
  caddr : Word := 0
  cval : Word := 0
  vec : Nat := 0
  placed : Bool := false
  /-- status with which it completes, when that is settled before its chunks end (R39, R294, R233) -/
  status : Option Nat := none
  /-- chunks of a gang, by core, that start together; a launch that is no gang lists none (R116) -/
  members : List (Nat × Nat × Nat) := []
  /-- the gang's chunks have started -/
  started : Bool := false
  /-- participants whose work on the launch is not finished (R107) -/
  working : List Nat := []
  /-- cores of each tail pool, its next tile and its end (R106, R107) -/
  tails : List (List Nat × Nat × Nat) := []
  /-- it has waited 1 ms (R116) -/
  waited : Bool := false
deriving DecidableEq, Repr

/-- A gang barrier in use: its gang, members, phase start, and arrivals of each member not yet taken by a phase (R117-R119). -/
structure Barrier where
  launch : Nat
  members : List Nat
  start : Nat
  arrivals : List (Nat × Nat) := []
deriving DecidableEq, Repr

/-- A flag increment that an OFT put has still to make: context of the window, core and flag; then the put that names it: port,
node, core, class and number of the command (R19, R20). -/
structure NetInc where
  ctx : Nat
  core : Nat
  flag : Nat
  port : Nat
  src : Nat
  from' : Nat
  cls : Nat
  cmd : Nat
deriving DecidableEq, Repr

/-- The boot mailbox line (R56). -/
structure Mailbox where
  cmd : Word := 0
  addr : Word := 0
  len : Word := 0
  status : Word := 0x20
  /-- the command that was accepted and runs: 1, 2, or 0 for none -/
  run : Nat := 0
deriving DecidableEq, Repr

/-- The package outside the cores and memory: links, root of trust, management, power manager, Distributor. -/
structure Pkg where
  /-- the host link is up, with lanes and rate in GT/s (R28, R31) -/
  hostUp : Bool := false
  hostWidth : BitVec 5 := 0
  hostRate : BitVec 8 := 0
  /-- lines that the host holds, and those it has been asked to give up (R30) -/
  hostHeld : SMap Unit := []
  snooped : SMap Unit := []
  /-- host lines in the host-line cache, true when exclusive (R29, R152) -/
  hostCache : SMap Bool := []
  /-- HEAD as read at the enable of a stream (R36) -/
  streamHead : SMap Word := []
  /-- port of a traffic pair, by node × 16 + class (R20) -/
  portOf : SMap Nat := []
  incs : List NetInc := []
  /-- frames sent so far in each stream of this node, and performed so far of each stream of others; frames that wait for their turn;
  the command of a stream that has failed (R18, R20, R21; log 32) -/
  oftSent : SMap Nat := []
  oftNext : SMap Nat := []
  oftAhead : List (BitVec 3 × OftFrame) := []
  oftFailed : SMap Nat := []
  /-- sent puts whose chunk has ended, by core (R20) -/
  loose : List (Nat × Cmd) := []
  /-- accesses that wait for a key command, and sectors whose writeback waits for one, with the slot (R62) -/
  held : List Instr := []
  keyLate : SMap Nat := []
  /-- base of the HDM decoder, and the words of BAR2: MSI-X table and pending-bit array (R29; log 68) -/
  hdmBase : BitVec 52 := 0
  bar2 : SMap Word := []
  /-- isolation poison is being invalidated (R45) -/
  sweep : Bool := false
  /-- clusters that have powered up, by start number (R26) -/
  powered : BitVec 64 := 0
  /-- firmware images started, and whether the boot has stopped (R53, R55) -/
  stage : Nat := 0
  stopped : Bool := false
  meas : SMap (BitVec 512) := []
  /-- fused minimum of each image, and the SVN of images with COMMIT (R54) -/
  svnMin : SMap Nat := []
  commits : SMap Nat := []
  /-- the identity index and the signatures that the attestation key has made (R57, R58) -/
  attIndex : Nat := 0
  attUsed : Nat := 0
  /-- the attestation public key, and the identity index and signature that certify it (R58, R59) -/
  attKey : BitVec 544 := 0
  attCert : Nat := 0
  attSig : BitVec 22560 := 0
  mbox : Mailbox := {}
  /-- key commands in progress, by slot (R61) -/
  keyOp : SMap Nat := []
  /-- endpoint id, I3C address, caps and last accepted SEQ, pending alert kinds (R66-R70) -/
  eid : Byte := 0
  i3c : BitVec 7 := 0
  capHall : Nat := 0
  capHost : Nat := 0
  capSeq : Option Word := none
  alerts : SMap Unit := []
  /-- rails whose cores are in forced energy stalls (R90) -/
  railOver : SMap Unit := []
  /-- temperature of each compute die, in degrees (R92) -/
  dieTemp : SMap Byte := []
  /-- grants have been computed, and the U of the last computation (R95) -/
  granted : Bool := false
  used : Nat := 0
  launches : List Launch := []
  nextLaunch : Nat := 0
  /-- credits left in the round; none listed: 1, the SHARE of reset (R109) -/
  credits : SMap Nat := []
  bars : SMap Barrier := []
  /-- terminations in progress (R233) -/
  terming : SMap Cause := []
  /-- record number of the next entry of the fault-service queue (R231) -/
  fsqTail : Nat := 0
  errLog : List (List Byte) := []
  /-- the dump is being written, and a second error struck meanwhile (R73) -/
  dumping : Bool := false
  dumpPartial : Bool := false
  /-- the blaze map as board flash holds it (R144) -/
  blazeFlash : SMap Half := []
deriving DecidableEq, Repr

/-- Why a step stops with a fault. Nothing the spec gives an effect ends here. -/
inductive Fault where
  /-- Raised by no instruction: the event names an agent that does not exist (Instr is not well formed). Safe: the package has no such agent. -/
  | noSuchAgent
deriving DecidableEq, Repr

/-- Why a step is refused. -/
inductive Refusal where
  /-- No meaning in this model yet: raised by the arms of exec that are still to be written. Safe. -/
  | notModelled (mnemonic : String)
deriving DecidableEq, Repr

/-- The package. -/
structure State where
  cores : SMap Core := []
  pkg : Pkg := {}
  /-- the I/O-die register block, by byte offset of the 64-bit register (R22, R430) -/
  io : SMap Word := []
  /-- memory bytes by 52-bit physical address; an unlisted byte reads 0 (log 4) -/
  mem : List Host.Cell := []
  /-- poisoned 32-byte sectors of memory, as seen through L2 (R142) -/
  poison : SMap Unit := []
  /-- sectors of tier 2 that isolation filled as poison: consuming one raises 0x241 (R45) -/
  isoPoison : SMap Unit := []
  /-- key under which a sector's content in HBM or tier 2 is encrypted; none listed: in the clear (R60) -/
  keyTag : SMap (BitVec 512) := []
  /-- the key that a slot holds (R61) -/
  keys : SMap (BitVec 512) := []
  /-- content of a sector in HBM or tier 2 where it differs from what L2 holds, and poison there below a good sector of L2 (R136) -/
  back : SMap (BitVec 256) := []
  backPoison : SMap Unit := []
  tlb : SMap Leaf := []
  recq : List FsqRec := []
  /-- the capacity in bytes that the linked expander reports (R127, R43) -/
  expCap : Nat := 0
  /-- lost lines whose contexts' running cores are still to be stopped: context and line (R146 step 6) -/
  stopq : List (Nat × Nat) := []
  /-- contexts whose waiting launches are on hold (R146 step 7) -/
  onHold : SMap Unit := []
  /-- uncorrectable words in HBM and in L2, by word number (R143-R146, R462) -/
  hbmErr : SMap Unit := []
  l2Err : SMap Unit := []
  /-- words with one inverted bit, in HBM and in L2 -/
  hbmCor : SMap Unit := []
  l2Cor : SMap Unit := []
  /-- L2 lines, by (slice × 8,192 + set) × 16 + way (R136) -/
  l2 : SMap L2Line := []
  /-- disabled ways by slice × 8,192 + set (R144), and corrected-error counts by way -/
  blaze : SMap Half := []
  wayCnt : SMap (BitVec 2) := []
  /-- deck entries by key, for each slice × 256 + region (R167) -/
  deck : SMap (SMap DeckVal) := []
  /-- spill runs, by slice × 256 + region: offset and entries of each (R167) -/
  runs : SMap (List (Nat × Nat)) := []
  /-- released entries not yet performed, oldest first -/
  flight : List Flight := []
  /-- messages sent to the outside (R42, R67, R70, R425) -/
  out : List (Nat × List Byte) := []
  /-- events that arrive next -/
  agenda : List Instr := []
  /-- the core whose turn it is -/
  turn : Nat := 0
  /-- order of issue of outstanding operations -/
  seq : Nat := 0
  /-- the model's counter of free values -/
  fresh : Nat := 0
  issue : Issue := {}
  /-- REFCLK cycles since reset (R435) -/
  tmr : Word := 0
  /-- the package-fatal cause that stopped it, 0 for none (R71) -/
  fatal : Cause := 0
deriving DecidableEq, Repr

/-- The package right after reset (R26, R103): every register reads its reset value, which for the I/O-die block stands in
ioReg; nothing is listed in memory (log 3, 4). -/
def State.reset : State := {}

end Sys2Proof.Machine
end

