-- ==== Sys2Proof/Machine/Maps.lean ====
section
/-! DEFINITION. Finite maps in one canonical form, bytes and numbers (R3). -/
namespace Sys2Proof.Machine

variable {α : Type}

/-- Keys strictly rise. -/
def SMap.Sorted : SMap α → Bool
  | [] => true
  | [_] => true
  | (i, _) :: (j, b) :: r => decide (i < j) && SMap.Sorted ((j, b) :: r)

def SMap.get? : SMap α → Nat → Option α
  | [], _ => none
  | (k, v) :: r, i => if k = i then some v else SMap.get? r i

def SMap.ins : SMap α → Nat → α → SMap α
  | [], i, v => [(i, v)]
  | (k, w) :: r, i, v => if i < k then (i, v) :: (k, w) :: r else if i = k then (i, v) :: r else (k, w) :: SMap.ins r i v

def SMap.del : SMap α → Nat → SMap α
  | [], _ => []
  | (k, w) :: r, i => if k = i then SMap.del r i else (k, w) :: SMap.del r i

/-- Reading with a default for unlisted keys. -/
def SMap.getD (m : SMap α) (i : Nat) (d : α) : α := (m.get? i).getD d

/-- Writing in canonical form: the default value is not listed. -/
def SMap.put [DecidableEq α] (d : α) (m : SMap α) (i : Nat) (v : α) : SMap α := if v = d then m.del i else m.ins i v

def SMap.has (m : SMap α) (i : Nat) : Bool := (m.get? i).isSome

/-- Sets of numbers. -/
def SMap.mark (m : SMap Unit) (i : Nat) (b : Bool) : SMap Unit := if b then m.ins i () else m.del i

/-- Canonical form with elided default `d`. -/
def SMap.wf [DecidableEq α] (d : α) (m : SMap α) : Bool := m.Sorted && m.all fun q => decide (q.2 ≠ d)

/-- The bytes of a number, little-endian (R3). -/
def bytesOf : Nat → Nat → List Byte
  | 0, _ => []
  | n + 1, x => BitVec.ofNat 8 x :: bytesOf n (x / 256)

/-- The number that bytes hold, little-endian. -/
def natOf : List Byte → Nat
  | [] => 0
  | b :: r => b.toNat + 256 * natOf r

/-- A sequence of `n` bytes of a map from address `a`. -/
def readMap (m : SMap Byte) (a : Nat) : Nat → List Byte
  | 0 => []
  | n + 1 => m.getD a 0 :: readMap m (a + 1) n

/-- Writing bytes from address `a` on. -/
def writeMap (m : SMap Byte) (a : Nat) : List Byte → SMap Byte
  | [] => m
  | b :: r => writeMap (m.put 0 a b) (a + 1) r

/-- `w` bits of a number from bit `lo` up. -/
def bits (x lo w : Nat) : Nat := x / 2 ^ lo % 2 ^ w

/-- Signed reading of the low `w` bits of a number. -/
def sgn (w x : Nat) : Int := let y := x % 2 ^ w; if y < 2 ^ (w - 1) then (y : Int) else (y : Int) - (2 ^ w : Nat)

/-- The low `w` bits of an integer, two's complement. -/
def wrapI (w : Nat) (i : Int) : Nat := (i % (2 ^ w : Nat)).toNat

/-- `x` with bits [lo, lo + w) replaced. -/
def setBits {n : Nat} (x : BitVec n) (lo w v : Nat) : BitVec n :=
  let m := BitVec.ofNat n ((2 ^ w - 1) * 2 ^ lo)
  (x &&& ~~~m) ||| (BitVec.ofNat n (v % 2 ^ w * 2 ^ lo))

/-- Bits of `x` where `m` is 0, of `v` where it is 1. -/
def blend {n : Nat} (x v m : BitVec n) : BitVec n := (x &&& ~~~m) ||| (v &&& m)

/-- The indices 0 to n − 1 whose bit is set. -/
def ones {n : Nat} (x : BitVec n) : List Nat := (List.range n).filter fun i => x.getLsbD i

/-- `f` folded over 0 to n − 1. -/
def foldN {β : Type} (n : Nat) (init : β) (f : Nat → β → β) : β := (List.range n).foldl (fun b i => f i b) init

end Sys2Proof.Machine
end

