-- ==== Sys2Proof/Machine/Fp.lean ====
section
/-! DEFINITION. Number formats, exact values and the one rounding (R255-R270). -/
namespace Sys2Proof.Machine

/-- A floating format (R257): width, precision with the implicit bit, exponent bits, bias; E4M3 alone has no infinities. -/
structure Fmt where
  w : Nat
  p : Nat
  eb : Nat
  bias : Nat
  noInf : Bool := false
deriving DecidableEq, Repr

def fE4M3 : Fmt := ⟨8, 4, 4, 7, true⟩
def fE5M2 : Fmt := ⟨8, 3, 5, 15, false⟩
def fBF16 : Fmt := ⟨16, 8, 8, 127, false⟩
def fFP16 : Fmt := ⟨16, 11, 5, 15, false⟩
def fFP32 : Fmt := ⟨32, 24, 8, 127, false⟩
def fFP64 : Fmt := ⟨64, 53, 11, 1023, false⟩

/-- The floating format of a code (R255). -/
def floatOf : Nat → Option Fmt
  | 4 => some fE4M3 | 5 => some fE5M2 | 7 => some fBF16 | 8 => some fFP16 | 9 => some fFP32 | 10 => some fFP64 | _ => none

/-- Width in bits of a format code (R255); 0 for a reserved code. -/
def fmtWidth : Nat → Nat
  | 0 | 1 | 4 | 5 => 8
  | 2 | 7 | 8 => 16
  | 3 | 9 => 32
  | 6 => 4
  | 10 => 64
  | _ => 0

def emin (f : Fmt) : Int := 1 - f.bias
/-- Exponent of the last place of the smallest numbers. -/
def qmin (f : Fmt) : Int := 1 - f.bias - (f.p - 1)

/-- An exact value: NaN, an infinity, or ± m × 2^e with m = 0 for a signed zero. -/
inductive FVal where
  | nan
  | inf (neg : Bool)
  | num (neg : Bool) (m : Nat) (e : Int)
deriving DecidableEq, Repr

def FVal.isNan : FVal → Bool
  | .nan => true
  | _ => false
def FVal.isZero : FVal → Bool
  | .num _ 0 _ => true
  | _ => false
def FVal.neg : FVal → FVal
  | .nan => .nan
  | .inf b => .inf !b
  | .num b m e => .num (!b) m e

/-- The value of a code (R258). -/
def decF (f : Fmt) (x : Nat) : FVal :=
  let fr := f.p - 1
  let s := bits x (f.w - 1) 1 == 1
  let ex := bits x fr f.eb
  let fc := bits x 0 fr
  if ex = 2 ^ f.eb - 1 ∧ f.noInf = false then (if fc = 0 then .inf s else .nan)
  else if f.noInf = true ∧ ex = 2 ^ f.eb - 1 ∧ fc = 2 ^ fr - 1 then .nan
  else if ex = 0 then .num s fc (qmin f)
  else .num s (2 ^ fr + fc) (qmin f + (ex - 1 : Nat))

/-- The default NaN (R258). -/
def nanOf (f : Fmt) : Nat :=
  if f.noInf then 2 ^ (f.w - 1) - 1 else (2 ^ f.eb - 1) * 2 ^ (f.p - 1) + 2 ^ (f.p - 2)
/-- The largest finite magnitude as a code without sign (R257). -/
def maxCode (f : Fmt) : Nat := if f.noInf then 2 ^ (f.w - 1) - 2 else (2 ^ f.eb - 1) * 2 ^ (f.p - 1) - 1
def infCode (f : Fmt) : Nat := if f.noInf then nanOf f else (2 ^ f.eb - 1) * 2 ^ (f.p - 1)

/-- Rounding modes (R267). -/
inductive Mode where
  | rne | rtz | rdn | rup | rna | sr
deriving DecidableEq, Repr

def modeOf (rm : BitVec 3) : Option Mode :=
  match rm.toNat with
  | 0 => some .rne | 1 => some .rtz | 2 => some .rdn | 3 => some .rup | 4 => some .rna | 5 => some .sr | _ => none

/-- m × 2^e (plus a part below 2^e when `st`) rounded to a multiple of 2^q, as the multiplier (R267, R270). `u` is the random
value of the element under SR; `neg` is the sign of the value. -/
def roundAt (mode : Mode) (u : Nat) (neg : Bool) (m : Nat) (e : Int) (st : Bool) (q : Int) : Nat :=
  if q ≤ e then m * 2 ^ (e - q).toNat
  else
    let k := (q - e).toNat
    let lo := m / 2 ^ k
    let rem := m % 2 ^ k
    let half := 2 ^ (k - 1)
    if rem = 0 ∧ st = false then lo
    else
      let up := match mode with
        | .rne => decide (half < rem) || (rem == half && (st || lo % 2 == 1))
        | .rtz => false
        | .rdn => neg
        | .rup => !neg
        | .rna => decide (half ≤ rem)
        | .sr =>
          if neg then
            -- lo of R270 is the value of greater magnitude
            let t := 2 ^ k - rem
            let f := (if st then t * 2 ^ 32 - 1 else t * 2 ^ 32) / 2 ^ k
            !decide (2 ^ 32 ≤ f + u)
          else decide (2 ^ 32 ≤ rem * 2 ^ 32 / 2 ^ k + u)
      if up then lo + 1 else lo

/-- floor(log2) of a positive number. -/
def ilog2 (m : Nat) : Nat := Nat.log2 m

/-- Sign bit of a format. -/
def signBit (f : Fmt) (neg : Bool) : Nat := if neg then 2 ^ (f.w - 1) else 0

/-- The code of r × 2^q for r ≤ 2^p and q at least qmin, without overflow. -/
def codeOf (f : Fmt) (r : Nat) (q : Int) : Nat :=
  let h := 2 ^ (f.p - 1)
  if r < h then r
  else (q - qmin f).toNat * h + r

/-- The result of an overflow, or of an exact infinity when `exact` (R268). -/
def overflowCode (f : Fmt) (mode : Mode) (sat neg : Bool) : Nat :=
  let toMax := sat || (match mode with | .rne | .rna | .sr => false | .rtz => true | .rdn => !neg | .rup => neg)
  if toMax then signBit f neg + maxCode f
  else if f.noInf then nanOf f else signBit f neg + infCode f

/-- Round(x, F, rm, sat) of a finite magnitude with sticky part (R268, R313). -/
def roundMag (f : Fmt) (mode : Mode) (sat : Bool) (u : Nat) (neg : Bool) (m : Nat) (e : Int) (st : Bool) : Nat :=
  if m = 0 then signBit f neg
  else
    let ex := e + ilog2 m
    let q := max ex (emin f) - ((f.p : Int) - 1)
    let r := roundAt mode u neg m e st q
    let c := codeOf f r q
    if maxCode f < c then overflowCode f mode sat neg else signBit f neg + c

/-- Round(x, F, rm, sat) (R266, R268). -/
def roundF (f : Fmt) (mode : Mode) (sat : Bool) (u : Nat) (x : FVal) : Nat :=
  match x with
  | .nan => nanOf f
  | .inf neg => if sat then signBit f neg + maxCode f else if f.noInf then nanOf f else signBit f neg + infCode f
  | .num neg m e => roundMag f mode sat u neg m e false

/-- Signed exact numbers i × 2^e. -/
def FVal.ofInt (i : Int) (e : Int) (zneg : Bool) : FVal := if i = 0 then .num zneg 0 0 else .num (decide (i < 0)) i.natAbs e
def sgnd (neg : Bool) (m : Nat) : Int := if neg then -(m : Int) else m

/-- a + b exactly; an exact zero sum of opposite signs is −0 under RDN alone (R266). -/
def addF (rdn : Bool) : FVal → FVal → FVal
  | .nan, _ => .nan
  | _, .nan => .nan
  | .inf a, .inf b => if a = b then .inf a else .nan
  | .inf a, _ => .inf a
  | _, .inf b => .inf b
  | .num a ma ea, .num b mb eb =>
    if ma = 0 ∧ mb = 0 then (if a = b then .num a 0 0 else .num rdn 0 0)
    else if ma = 0 then .num b mb eb
    else if mb = 0 then .num a ma ea
    else
      let e := min ea eb
      .ofInt (sgnd a (ma * 2 ^ (ea - e).toNat) + sgnd b (mb * 2 ^ (eb - e).toNat)) e rdn

def mulF : FVal → FVal → FVal
  | .nan, _ => .nan
  | _, .nan => .nan
  | .inf a, .inf b => .inf (a != b)
  | .inf a, .num b m _ => if m = 0 then .nan else .inf (a != b)
  | .num a m _, .inf b => if m = 0 then .nan else .inf (a != b)
  | .num a ma ea, .num b mb eb => .num (a != b) (ma * mb) (ea + eb)

/-- A value with a sticky part: strictly between m × 2^e and (m + 1) × 2^e when `st`. -/
structure Near where
  neg : Bool
  m : Nat
  e : Int
  st : Bool
deriving DecidableEq, Repr

/-- A result that may need rounding. -/
inductive RVal where
  | exact (x : FVal)
  | near (x : Near)
deriving DecidableEq, Repr

def roundR (f : Fmt) (mode : Mode) (sat : Bool) (u : Nat) : RVal → Nat
  | .exact x => roundF f mode sat u x
  | .near n => roundMag f mode sat u n.neg n.m n.e n.st

/-- a ÷ b (R360), with 128 or more significant bits before the sticky part. -/
def divF : FVal → FVal → RVal
  | .nan, _ => .exact .nan
  | _, .nan => .exact .nan
  | .inf _, .inf _ => .exact .nan
  | .inf a, .num b _ _ => .exact (.inf (a != b))
  | .num a _ _, .inf b => .exact (.num (a != b) 0 0)
  | .num a ma ea, .num b mb eb =>
    if mb = 0 then (if ma = 0 then .exact .nan else .exact (.inf (a != b)))
    else if ma = 0 then .exact (.num (a != b) 0 0)
    else
      let k := 130 + ilog2 mb
      let n := ma * 2 ^ k
      .near ⟨a != b, n / mb, ea - eb - k, n % mb != 0⟩

/-- floor(√x) by bits from 2^k down. -/
def isqrtAux (x : Nat) : Nat → Nat → Nat
  | 0, r => r
  | k + 1, r => let c := r + 2 ^ k; isqrtAux x k (if c * c ≤ x then c else r)
def isqrt (x : Nat) : Nat := isqrtAux x (ilog2 x / 2 + 1) 0

/-- √a (R360). -/
def sqrtF : FVal → RVal
  | .nan => .exact .nan
  | .inf a => .exact (if a then .nan else .inf false)
  | .num a m e =>
    if m = 0 then .exact (.num a 0 0)
    else if a then .exact .nan
    else
      let k : Nat := 260 + (if (e - 260) % 2 = 0 then 0 else 1)
      let n := m * 2 ^ k
      let r := isqrt n
      .near ⟨false, r, (e - k) / 2, r * r != n⟩

/-- The order of two values that are not NaN. -/
def cmpF : FVal → FVal → Ordering
  | .inf a, .inf b => if a = b then .eq else if a then .lt else .gt
  | .inf a, _ => if a then .lt else .gt
  | _, .inf b => if b then .gt else .lt
  | .num a ma ea, .num b mb eb =>
    let e := min ea eb
    compare (sgnd a (ma * 2 ^ (ea - e).toNat)) (sgnd b (mb * 2 ^ (eb - e).toNat))
  | _, _ => .eq

def FVal.isNeg : FVal → Bool
  | .inf b => b
  | .num b _ _ => b
  | .nan => false

/-- minimumNumber and maximumNumber with −0 < +0 (R163, R360): true when the first of two codes is taken. -/
def takesFirst (max : Bool) (x y : FVal) : Bool :=
  match cmpF x y with
  | .lt => !max
  | .gt => max
  | .eq => if max then !x.isNeg || y.isNeg else x.isNeg || !y.isNeg

def minmaxF (f : Fmt) (max : Bool) (a b : Nat) : Nat :=
  let x := decF f a
  let y := decF f b
  if x.isNan && y.isNan then nanOf f
  else if x.isNan then b
  else if y.isNan then a
  else if takesFirst max x y then a else b

/-- The floating conditions of R358. -/
def fcond (cc : Nat) (x y : FVal) : Bool :=
  let un := x.isNan || y.isNan
  let o := cmpF x y
  match cc with
  | 0 => !un && o == .eq
  | 1 => un || o != .eq
  | 2 => !un && o == .lt
  | 3 => !un && o != .gt
  | 4 => !un && o == .gt
  | 5 => !un && o != .lt
  | 6 => un
  | _ => !un

/-- The integer formats: width and signedness (R256). -/
def intOf : Nat → Option (Nat × Bool)
  | 0 => some (8, true) | 1 => some (8, false) | 2 => some (16, true) | 3 => some (32, true) | _ => none

def intMin (w : Nat) (s : Bool) : Int := if s then -(2 ^ (w - 1) : Nat) else 0
def intMax (w : Nat) (s : Bool) : Int := if s then (2 ^ (w - 1) : Nat) - 1 else (2 ^ w : Nat) - 1
/-- Sat(x, lo, hi) (R313). -/
def satI (x lo hi : Int) : Int := if x < lo then lo else if hi < x then hi else x

/-- A value rounded to an integer in a mode. -/
def roundInt (mode : Mode) (u : Nat) (neg : Bool) (m : Nat) (e : Int) : Int := sgnd neg (roundAt mode u neg m e false 0)

/-- The conversion of R269 between format codes, E2M1S apart. -/
def convert (src dst : Nat) (mode : Mode) (sat : Bool) (u : Nat) (x : Nat) : Nat :=
  match intOf src, floatOf src, intOf dst, floatOf dst with
  | some (ws, ss), _, some (wd, sd), _ =>
    let v : Int := if ss then sgn ws x else (x % 2 ^ ws : Nat)
    wrapI wd (if sat then satI v (intMin wd sd) (intMax wd sd) else v)
  | some (ws, ss), _, none, some f =>
    let v : Int := if ss then sgn ws x else (x % 2 ^ ws : Nat)
    roundF f mode sat u (.ofInt v 0 false)
  | none, some g, some (wd, sd), _ =>
    match decF g x with
    | .nan => 0
    | .inf neg => wrapI wd (if neg then intMin wd sd else intMax wd sd)
    | .num neg m e => wrapI wd (satI (roundInt mode u neg m e) (intMin wd sd) (intMax wd sd))
  | none, some g, none, some f => roundF f mode sat u (decF g x)
  | _, _, _, _ => 0

/-- g of an E2M1S code with the block's spare (R260). -/
def e2m1g (spare code : Nat) : Int :=
  let mag : Int := match code % 8 with | 0 => 0 | 1 => 2 | 2 => 4 | 3 => 6 | 4 => 8 | 5 => 12 | 6 => 16 | _ => 24
  if code % 16 = 8 then sgn 8 spare else if 8 ≤ code % 16 then -mag else mag

/-! Random streams (R271). -/
def rotl64 (v n : Nat) : Nat := (v * 2 ^ n + v / 2 ^ (64 - n)) % 2 ^ 64
def mixStep (ab : Nat × Nat) (r rs : Nat) : Nat × Nat :=
  let a := (ab.1 + ab.2 + (r + 1) * 0x9E3779B97F4A7C15) % 2 ^ 64
  let b := rotl64 ab.2 rs ^^^ a
  (rotl64 a 32, b)
/-- Mix(a, b) of R271. -/
def mix (a b : Nat) : Nat :=
  let r := ([17, 31, 47, 11, 23, 39].zip (List.range 6)).foldl (fun ab q => mixStep ab q.2 q.1) (a, b)
  r.1 ^^^ r.2
/-- Word(s) at counter value `ctr`. -/
def randWord (seed core stream ctr : Nat) : Nat := mix (mix seed (core * 16 + stream)) ctr

end Sys2Proof.Machine
end

