-- ==== Sys2Proof/Machine/Aes.lean ====
section
/-! DEFINITION. AES-256 (FIPS 197) and its XTS mode (IEEE 1619) on one data unit of 32 bytes, the published standards that R60 names
(log 89). -/
namespace Sys2Proof.Machine.Aes

/-- Product with x in GF(2^8), and by any element. -/
def xtime (b : Nat) : Nat := if b < 128 then 2 * b else (2 * b % 256) ^^^ 0x1B
def gmul (a : Nat) : Nat → Nat → Nat
  | 0, _ => 0
  | fuel + 1, b => (if b % 2 = 1 then a else 0) ^^^ xtime (gmul a fuel (b / 2))
/-- The inverse in GF(2^8) as the power 254, and the S-box. -/
def ginv (a : Nat) : Nat :=
  let m (x y : Nat) : Nat := gmul x 8 y
  let a2 := m a a
  let a3 := m a2 a
  let a6 := m a3 a3
  let a12 := m a6 a6
  let a15 := m a12 a3
  let a30 := m a15 a15
  let a60 := m a30 a30
  let a120 := m a60 a60
  let a126 := m a120 a6
  let a127 := m a126 a
  m a127 a127
def rol8 (b k : Nat) : Nat := (b * 2 ^ k % 256) + b / 2 ^ (8 - k)
def sub (b : Nat) : Nat :=
  let i := ginv b
  i ^^^ rol8 i 1 ^^^ rol8 i 2 ^^^ rol8 i 3 ^^^ rol8 i 4 ^^^ 0x63
def unsub (b : Nat) : Nat := ginv (rol8 b 1 ^^^ rol8 b 3 ^^^ rol8 b 6 ^^^ 0x05)

/-- A block: sixteen bytes, column by column. -/
abbrev Block := List Nat
def at' (l : List Nat) (i : Nat) : Nat := (l[i]?).getD 0
def xorB (a b : Block) : Block := (a.zip b).map fun q => q.1 ^^^ q.2

/-- The 60 words of the key schedule, last word first. -/
def expand (key : List Nat) : Nat → List (List Nat)
  | 0 => ((List.range 8).map fun i => (key.drop (4 * i)).take 4).reverse
  | n + 1 =>
    let w := expand key n
    let i := 8 + n
    let t := (w[0]?).getD []
    let t := if i % 8 = 0 then
        let r := (t.drop 1 ++ t.take 1).map sub
        [at' r 0 ^^^ ((List.range (i / 8 - 1)).foldl (fun c _ => xtime c) 1), at' r 1, at' r 2, at' r 3]
      else if i % 8 = 4 then t.map sub else t
    xorB t ((w[7]?).getD []) :: w
/-- The fifteen round keys. -/
def roundKeys (key : List Nat) : List Block :=
  let w := (expand key 52).reverse
  (List.range 15).map fun r => ((w.drop (4 * r)).take 4).flatten

def shiftRows (b : Block) : Block := (List.range 16).map fun i => at' b ((i / 4 + i % 4) % 4 * 4 + i % 4)
def unshiftRows (b : Block) : Block := (List.range 16).map fun i => at' b ((i / 4 + 4 - i % 4) % 4 * 4 + i % 4)
/-- Each column times the circulant matrix of a row. -/
def mixWith (m : List Nat) (b : Block) : Block :=
  (List.range 16).map fun i => (List.range 4).foldl (fun t j => t ^^^ gmul (at' b (i / 4 * 4 + j)) 8 (at' m ((j + 4 - i % 4) % 4))) 0
def mix : Block → Block := mixWith [2, 3, 1, 1]
def unmix : Block → Block := mixWith [14, 11, 13, 9]

def encBlock (ks : List Block) (b : Block) : Block :=
  let k (i : Nat) : Block := (ks[i]?).getD []
  let b := (List.range 13).foldl (fun b i => xorB (mix (shiftRows (b.map sub))) (k (i + 1))) (xorB b (k 0))
  xorB (shiftRows (b.map sub)) (k 14)
def decBlock (ks : List Block) (b : Block) : Block :=
  let k (i : Nat) : Block := (ks[i]?).getD []
  let b := (unshiftRows (xorB b (k 14))).map unsub
  let b := (List.range 13).foldl (fun b i => (unshiftRows (unmix (xorB b (k (13 - i))))).map unsub) b
  xorB b (k 0)

/-- The tweak of the next block: the product with x in GF(2^128). -/
def nextTweak (t : Block) : Block :=
  let n := t.foldr (fun b s => b + 256 * s) 0
  let v := if n < 2 ^ 127 then 2 * n else (2 * n % 2 ^ 128) ^^^ 0x87
  (List.range 16).map fun i => v / 256 ^ i % 256
def nats (n x : Nat) : List Nat := (bytesOf n x).map BitVec.toNat
/-- XTS over the two blocks of a data unit under a key of 64 bytes, its two halves in order. -/
def xts (dec : Bool) (key : BitVec 512) (tweak : Nat) (v : BitVec 256) : BitVec 256 :=
  let kb := nats 64 key.toNat
  let k1 := roundKeys (kb.take 32)
  let t0 := encBlock (roundKeys (kb.drop 32)) (nats 16 tweak)
  let b := nats 32 v.toNat
  let one (t p : Block) : Block := xorB ((if dec then decBlock else encBlock) k1 (xorB p t)) t
  let out := one t0 (b.take 16) ++ one (nextTweak t0) (b.drop 16)
  BitVec.ofNat 256 (natOf (out.map (BitVec.ofNat 8)))
/-- Under no key the bytes stand in the clear. -/
def encrypt (key : Option (BitVec 512)) (tweak : Nat) (v : BitVec 256) : BitVec 256 :=
  match key with | some k => xts false k tweak v | none => v
def decrypt (key : Option (BitVec 512)) (tweak : Nat) (v : BitVec 256) : BitVec 256 :=
  match key with | some k => xts true k tweak v | none => v

end Sys2Proof.Machine.Aes
end

