-- ==== Sys2Proof/Machine/Io.lean ====
section
/-! DEFINITION. The I/O-die register block: which offsets name registers, their reset values, which bits a write changes (R5, R6,
R430). What a write does beyond its own bits stands in the file of the unit it belongs to. -/
namespace Sys2Proof.Machine

/-- A register: reset value, bits that a write sets, bits that a 1 clears, and bits written only while `lock` is 0. -/
structure IoReg where
  reset : Word := 0
  rw : Word := 0
  w1c : Word := 0
  /-- bits writable while bit `lock` of the register reads 0 (RWL) -/
  rwl : Word := 0
  lock : Nat := 64
  /-- reads as zero -/
  wo : Bool := false
deriving DecidableEq, Repr

/-- Bits hi to lo. -/
def bitsMask (hi lo : Nat) : Word := BitVec.ofNat 64 (2 ^ (hi + 1) - 2 ^ lo)

/-- The index of `o` in a run of `n` registers from `base`, `step` bytes apart. -/
def ioIdx (o base step n : Nat) : Option Nat :=
  if base ≤ o ∧ (o - base) % step = 0 ∧ (o - base) / step < n then some ((o - base) / step) else none

/-- The register at an offset (R430 check 3 answers none). PWR_LIMIT.LOCK: once set it stays 1, whatever is written, for R93 does not say
whether a write of 0 ends the lock; so do DUMP_BASE.LOCK and MG_KLOCK (R5, R68, R72; DESIGN CHOICE, log 98). -/
def ioReg (o : Nat) : Option IoReg :=
  let pick (base step n : Nat) (f : Nat → IoReg) : Option IoReg := (ioIdx o base step n).map f
  let one (base : Nat) (r : IoReg) : Option IoReg := if o = base then some r else none
  -- package and links (R22-R25)
  (one 0x0400 { rwl := bitsMask 12 0, lock := 12 }) <|>
  (one 0x0408 { reset := 0x00C8, rw := bitsMask 15 0 }) <|>
  (one 0x0410 { reset := 0x88B5, rw := bitsMask 15 0 }) <|>
  (pick 0x0480 8 8 fun _ => { reset := 1, rw := bitsMask 1 0, w1c := bitsMask 7 5 }) <|>
  -- expander (R46-R48)
  (one 0x0500 { rw := bitsMask 0 0 }) <|>
  (one 0x0508 {}) <|>
  (one 0x0510 { reset := 0x0032, rw := bitsMask 15 0 }) <|>
  -- OFT windows (R438)
  (pick 0x0C00 16 64 fun _ => { rw := bitsMask 63 58 ||| bitsMask 51 16 ||| bitsMask 2 0 }) <|>
  (pick 0x0C08 16 64 fun _ => { rw := bitsMask 31 0 }) <|>
  -- launch streams (R32)
  (pick 0x1000 16 64 fun _ => { rw := bitsMask 51 7 }) <|>
  (pick 0x1008 16 64 fun n => { reset := BitVec.ofNat 64 n, rw := bitsMask 14 6, w1c := bitsMask 15 15 }) <|>
  -- keys (R61, R63, R65)
  (pick 0x2000 16 64 fun _ => { rw := bitsMask 5 4 }) <|>
  (pick 0x2400 8 8 fun _ => { rw := bitsMask 63 0, wo := true }) <|>
  (pick 0x2800 8 64 fun n => { reset := BitVec.ofNat 64 (n * 257), rw := bitsMask 13 8 ||| bitsMask 5 0 }) <|>
  (pick 0x15000 8 768 fun _ => { rw := bitsMask 6 0 }) <|>
  -- power (R83, R89-R96, R76)
  (one 0x4000 { reset := 2100, rwl := bitsMask 16 16 ||| bitsMask 11 0, lock := 16 }) <|>
  (one 0x4008 { w1c := bitsMask 6 0 }) <|>
  (one 0x4010 { reset := Config.eqPj.setWidth 64 }) <|>
  (one 0x4018 { reset := (Config.thermTrip.setWidth 64 <<< 16) ||| 95, rw := bitsMask 7 0 }) <|>
  (pick 0x4040 8 7 fun i =>
    { reset := (Config.phasesFitted i).setWidth 64 <<< 40 ||| (Config.phasesFitted i).setWidth 64 <<< 32 |||
        (Config.railLimit i).setWidth 64 <<< 16 ||| (Config.railLimit i).setWidth 64, rw := bitsMask 15 0 }) <|>
  (pick 0x4100 8 8 fun p =>
    { reset := BitVec.ofNat 64 (2100 * 2 ^ 32 + (if p = 0 then 1 else 0)), rw := bitsMask 43 32 ||| bitsMask 27 16 ||| bitsMask 10 8 ||| bitsMask 0 0 }) <|>
  (pick 0x4140 8 8 fun _ => {}) <|>
  (pick 0x4180 8 8 fun _ => { w1c := bitsMask 20 16 }) <|>
  (pick 0x4200 8 16 fun _ => { rw := 0x7777777777777777#64 }) <|>
  (pick 0x5000 8 528 fun i =>
    let c := i / 2
    let p := i % 2 * 4
    { reset := (Config.stand c p).setWidth 64 ||| (Config.stand c (p + 1)).setWidth 64 <<< 16 |||
        (Config.stand c (p + 2)).setWidth 64 <<< 32 ||| (Config.stand c (p + 3)).setWidth 64 <<< 48 }) <|>
  -- Distributor (R108-R120)
  (pick 0x6200 8 64 fun _ => { rw := bitsMask 63 0 }) <|>
  (one 0x6800 { reset := BitVec.ofNat 64 (1600 * 16 + 1), rw := bitsMask 35 0 }) <|>
  (one 0x6808 { reset := BitVec.ofNat 64 (2 * 2 ^ 48 + 65536 * 2 ^ 24 + 4096), rw := bitsMask 51 48 ||| bitsMask 44 24 ||| bitsMask 19 0 }) <|>
  (pick 0x6900 8 64 fun _ => { reset := 16, rw := bitsMask 11 4 }) <|>
  (pick 0x6C00 8 256 fun _ => { reset := 256, rw := bitsMask 8 0 }) <|>
  (if o % 64 < 48 then pick 0x17000 8 512 fun _ => {} else none) <|>
  -- memory (R125, R135, R144-R150, R159, R161, R343, R462)
  (pick 0x8000 8 64 fun _ => { rw := bitsMask 51 13 ||| bitsMask 0 0 }) <|>
  (one 0x8200 { reset := 240, rw := bitsMask 15 0 }) <|>
  (pick 0x8210 8 3 fun _ => { reset := bitsMask 63 0 }) <|>
  (one 0x8230 {}) <|>
  (one 0x8300 { rw := bitsMask 51 3 }) <|>
  (one 0x8308 { rwl := bitsMask 7 7 ||| bitsMask 3 0, lock := 7 }) <|>
  (pick 0x8800 8 1024 fun _ => { rw := bitsMask 63 63 ||| bitsMask 35 0 }) <|>
  (pick 0xA800 8 64 fun _ => { rw := bitsMask 0 0 }) <|>
  (pick 0xB000 8 256 fun _ => { rw := bitsMask 63 0 }) <|>
  (pick 0xC000 8 512 fun i =>
    { reset := BitVec.ofNat 64 (natOf ((List.range 8).map fun j => BitVec.ofNat 8 ((8 * i + j) % 192))) }) <|>
  (pick 0xD000 32 256 fun _ => { rw := bitsMask 63 58 ||| bitsMask 51 6 ||| bitsMask 0 0 }) <|>
  (pick 0xD008 32 256 fun _ => { rw := bitsMask 47 40 ||| bitsMask 35 0 }) <|>
  (pick 0xD010 32 256 fun _ => { rw := bitsMask 51 0 }) <|>
  (pick 0xD018 32 256 fun _ => { rw := bitsMask 15 0, w1c := bitsMask 16 16 }) <|>
  (pick 0x14800 8 64 fun _ => { rw := bitsMask 15 0 }) <|>
  -- traps and termination (R229-R236)
  (one 0xF000 { rw := bitsMask 51 7 }) <|>
  (one 0xF008 { rw := bitsMask 15 15 ||| bitsMask 12 8 }) <|>
  (pick 0xF100 8 264 fun _ => {}) <|>
  (pick 0xFA00 8 64 fun _ => { rw := bitsMask 9 0 }) <|>
  (pick 0xFC00 8 64 fun _ => { rw := bitsMask 51 29 ||| bitsMask 0 0 }) <|>
  (pick 0x10000 8 2112 fun _ => {}) <|>
  -- platform (R55, R58, R65, R66, R68, R72, R74)
  (one 0x0600 {}) <|>
  (one 0x0608 {}) <|>
  (one 0x0610 {}) <|>
  (one 0x0700 { reset := Config.iana.setWidth 64 }) <|>
  (one 0x0718 { rwl := bitsMask 0 0, lock := 0 }) <|>
  (pick 0x0720 8 4 fun _ => { rw := bitsMask 63 0, wo := true }) <|>
  (one 0x0800 { rwl := bitsMask 51 29 ||| bitsMask 0 0, lock := 0 }) <|>
  (one 0x0808 { w1c := bitsMask 0 0 })

/-- The stored content of a register: what was last put there, else its reset value. -/
def State.ioGet (s : State) (o : Nat) : Word := s.io.getD o (match ioReg o with | some r => r.reset | none => 0)

/-- The machine itself sets a register. -/
def State.ioSet (s : State) (o : Nat) (v : Word) : State := { s with io := s.io.ins o v }

/-- The value a write leaves in the register's own bits (R5, R6). -/
def IoReg.written (r : IoReg) (old v : Word) : Word :=
  let locked := r.lock < 64 && old.getLsbD r.lock
  let rw := r.rw ||| (if locked then 0 else r.rwl)
  ((old &&& ~~~rw) ||| (v &&& rw)) &&& ~~~(v &&& r.w1c)

end Sys2Proof.Machine
end

