-- ==== Sys2Proof/Machine/Memory.lean ====
section
/-! DEFINITION. Physical memory as bytes, page-table walks, key slots (R60-R64, R124-R128). -/
namespace Sys2Proof.Machine

/-- The tiers of the physical map (R124). -/
inductive Tier where
  | hbm | tier2 | host | none
deriving DecidableEq, Repr

def tierOf (pa : Nat) : Tier :=
  if pa < 0x006000000000 then .hbm
  else if 0x8000000000000 ≤ pa ∧ pa < 0x8040000000000 then .tier2
  else if 0xC000000000000 ≤ pa ∧ pa < 0x10000000000000 then .host
  else .none

/-- The canonical form of memory: addresses strictly rise, and no entry holds what an unlisted address reads as (log 4). -/
def Memory.wf (m : List Host.Cell) : Bool := SMap.wf 0 m

def State.readPhys (s : State) (pa n : Nat) : List Byte := readMap s.mem pa n
def State.readWord (s : State) (pa : Nat) : Word := BitVec.ofNat 64 (natOf (s.readPhys pa 8))
def State.writePhys (s : State) (pa : Nat) (b : List Byte) : State := { s with mem := writeMap s.mem pa b }

/-- Bytes under a mask: byte i is written where bit i of the mask is set. -/
def writeMasked (m : SMap Byte) (a : Nat) (mask : Nat) : List Byte → SMap Byte
  | [] => m
  | b :: r => writeMasked (if mask % 2 = 1 then m.put 0 a b else m) (a + 1) (mask / 2) r

/-- A fresh free value (log 6). -/
def State.free (s : State) : Vec × State := (Config.freeValue s.fresh, { s with fresh := s.fresh + 1 })

/-- The sectors that `n` bytes from `pa` touch. -/
def sectorsOf (pa n : Nat) : List Nat := if n = 0 then [] else (List.range ((pa + n - 1) / 32 - pa / 32 + 1)).map (pa / 32 + ·)

def State.poisoned (s : State) (pa n : Nat) : Bool := (sectorsOf pa n).any fun k => s.poison.has k

/-- The key in force in a slot: none in the clear (R61). -/
def State.keyOf (s : State) (slot : Nat) : Option (BitVec 512) :=
  if 64 ≤ slot then none else if (s.ioGet (0x2000 + 16 * slot)).getLsbD 5 then none else s.keys.get? slot
/-- The 32 bytes that a sector shows. -/
def State.sectorOf (s : State) (k : Nat) : BitVec 256 := BitVec.ofNat 256 (natOf (s.readPhys (k * 32) 32))
/-- The content of a sector in HBM or tier 2, below L2. -/
def State.below (s : State) (k : Nat) : BitVec 256 := (s.back.get? k).getD (s.sectorOf k)
/-- The tweak of a sector: its address in HBM or in tier 2, by sectors (R60, R124). -/
def sectorTweak (k : Nat) : Nat := if tierOf (k * 32) = .tier2 then k - 0x8000000000000 / 32 else k
/-- The bytes as they stand there, encrypted. -/
def State.cipher (s : State) (k : Nat) : BitVec 256 := Aes.encrypt (s.keyTag.get? k) (sectorTweak k) (s.below k)
/-- The sector as it reads under a key, none in the clear (R60). -/
def State.readUnder (s : State) (k : Nat) (key : Option (BitVec 512)) : BitVec 256 :=
  if key = s.keyTag.get? k then s.below k else Aes.decrypt key (sectorTweak k) (s.cipher k)
/-- Bytes read from HBM under a key, past L2. -/
def State.readBelow (s : State) (pa n : Nat) (key : Option (BitVec 512)) : List Byte :=
  (((sectorsOf pa n).flatMap fun k => bytesOf 32 (s.readUnder k key).toNat).drop (pa % 32)).take n
/-- L2 is about to hold other bytes or other poison than the memory below it: those below are kept. -/
def State.keepBelow (s : State) (k : Nat) : State :=
  if s.back.has k then s
  else { s with back := s.back.ins k (s.sectorOf k), backPoison := s.backPoison.mark k (s.backPoison.has k || s.poison.has k) }
/-- L2 gives a sector up without a writeback: what stands below shows again. -/
def State.showBelow (s : State) (k : Nat) : State :=
  match s.back.get? k with
  | some v =>
    { (s.writePhys (k * 32) (bytesOf 32 v.toNat)) with
      back := s.back.del k, poison := s.poison.mark k (s.backPoison.has k), backPoison := s.backPoison.del k, isoPoison := s.isoPoison.del k }
  | none => if s.backPoison.has k then { s with poison := s.poison.ins k (), backPoison := s.backPoison.del k } else s

def State.keyUsable (s : State) (slot : Nat) : Bool :=
  let r := s.ioGet (0x2000 + 16 * slot)
  r.getLsbD 6 || r.getLsbD 5

/-- The slots of context n (R63). -/
def State.ptkOf (s : State) (ctx : Nat) : Nat := ((s.ioGet (0x2800 + 8 * ctx)).toNat / 256) % 64
def State.ownOf (s : State) (ctx : Nat) : Nat := (s.ioGet (0x2800 + 8 * ctx)).toNat % 64

/-- The kind of an access, for the permission check (R128). -/
inductive AccKind where
  | load | store | atomic | fetch
deriving DecidableEq, Repr

/-- A page-table entry in fields (R127). -/
structure Pte where
  key : Nat
  tier : Nat
  rsv : Bool
  frame : Nat
  usr : Bool
  x : Bool
  w : Bool
  r : Bool
  leaf : Bool
  v : Bool
deriving DecidableEq, Repr

def Pte.ofWord (e : Word) : Pte :=
  let n := e.toNat
  ⟨bits n 58 6, bits n 56 2, bits n 52 4 != 0 || bits n 6 10 != 0, bits n 16 36, e.getLsbD 5, e.getLsbD 4, e.getLsbD 3, e.getLsbD 2, e.getLsbD 1, e.getLsbD 0⟩

/-- VA index of a level and its place (R126). -/
def levelIndex (level va : Nat) : Nat :=
  match level with
  | 1 => bits va 42 10
  | 2 => bits va 29 13
  | _ => bits va 16 13

/-- The tier that a TIER field names. -/
def tierField : Nat → Tier
  | 0 => .hbm
  | 1 => .tier2
  | 2 => .host
  | _ => .none

/-- The format checks of R127 on an entry of a level. -/
def Pte.malformed (e : Pte) (level : Nat) : Bool :=
  e.rsv ||
  (if e.leaf then
      (level == 1 && bits e.frame 0 26 != 0) || (level == 2 && bits e.frame 0 13 != 0) || (e.w && !e.r) || e.tier == 3
    else level == 3 || e.tier != 0)

/-- A walk: the leaf with its level and the entry addresses read, or the cause (R126-R128 checks 2 and 3). -/
def walk (s : State) (va : Nat) : Nat → Nat → Nat → List Nat → Except Cause (Leaf × List Nat)
  | 0, _, _, _ => .error 0x084#10
  | fuel + 1, level, base, seen =>
    let a := base + 8 * levelIndex level va
    let w := s.readWord a
    let e := Pte.ofWord w
    if s.poisoned a 8 then .error 0x141#10
    else if !e.v then .error 0x080#10
    else if e.malformed level then .error 0x084#10
    else if e.leaf then .ok (⟨w, level⟩, seen ++ [a])
    else walk s va fuel (level + 1) (e.frame * 65536) (seen ++ [a])

/-- The physical address that a leaf gives a virtual address (R126). -/
def Leaf.phys (l : Leaf) (va : Nat) : Nat :=
  let f := (Pte.ofWord l.pte).frame * 65536
  match l.level with
  | 1 => f / 2 ^ 42 * 2 ^ 42 + va % 2 ^ 42
  | 2 => f / 2 ^ 29 * 2 ^ 29 + va % 2 ^ 29
  | _ => f + va % 65536

/-- The root of a context, when it is valid (R125). -/
def State.root (s : State) (ctx : Nat) : Option Nat :=
  let r := s.ioGet (0x8000 + 8 * ctx)
  if r.getLsbD 0 then some (r.toNat / 8192 * 8192) else none

/-- Walk from the root (R126): key slot of the walk under R64 included. -/
def State.walkVa (s : State) (ctx va : Nat) : Except Cause (Leaf × List Nat) :=
  match s.root ctx with
  | none => .error 0x080#10
  | some b => if !s.keyUsable (s.ptkOf ctx) then .error 0x202#10 else walk s va 3 1 b []

/-- The expander's capacity in bytes while it is linked (R127): none when no expander is linked. -/
def State.tier2Cap (s : State) : Option Nat := if (s.ioGet 0x0508).getLsbD 1 then some s.expCap else none

/-- Whether a 64 KiB frame is in the retired-page list (R147). -/
def State.retired (s : State) (pa : Nat) : Bool :=
  s.io.any fun q => decide (0x8800 ≤ q.1 ∧ q.1 < 0x8800 + 8192) && q.2.getLsbD 63 && q.2.toNat % 2 ^ 36 == pa / 65536

/-- Bytes that a leaf of a level maps. -/
def leafSize (level : Nat) : Nat := match level with | 1 => 2 ^ 42 | 2 => 2 ^ 29 | _ => 2 ^ 16
/-- An entry of a TLB of a core: context, page size and page number (R129). Unit 0 is the instruction TLB, 1 the data TLB, 2 the
second level. -/
def tlbKey (unit core ctx level va : Nat) : Nat := (((unit * 1024 + core) * 64 + ctx) * 4 + level) * 2 ^ 36 + va / leafSize level
def tlbCtx (key : Nat) : Nat := key / 2 ^ 38 % 64
/-- The leaf that one TLB of a core holds for an address. -/
def State.tlbIn (s : State) (unit core ctx va : Nat) : Option Leaf := [3, 2, 1].findSome? fun l => s.tlb.get? (tlbKey unit core ctx l va)
/-- A TLB takes a leaf: 32 entries for instructions, 64 for data, 8 in a set of the second level; a full one gives an entry up (R129;
log 11). -/
def State.tlbAdd (s : State) (unit core ctx va : Nat) (l : Leaf) : State :=
  let key := tlbKey unit core ctx l.level va
  let set (k : Nat) : Nat := Config.tlbSet (k % 2 ^ 44) % 256
  let rivals := s.tlb.filter fun q => q.1 / 2 ^ 44 == unit * 1024 + core && (unit != 2 || set q.1 == set key)
  let s : State := if rivals.length < (match unit with | 0 => 32 | 1 => 64 | _ => 8) then s
    else match rivals[Config.tlbVictim s.fresh % rivals.length]? with
      | some q => { s with tlb := s.tlb.del q.1, fresh := s.fresh + 1 }
      | none => s
  { s with tlb := s.tlb.ins key l }
/-- A leaf maps the 64 KiB frame of a physical address. -/
def Leaf.covers (l : Leaf) (pa : Nat) : Bool := (Pte.ofWord l.pte).frame * 65536 / leafSize l.level == pa / leafSize l.level
/-- Every TLB of the package loses a frame (R129). -/
def State.tlbLose (s : State) (pa : Nat) : State := { s with tlb := s.tlb.filter fun q => !q.2.covers pa }

/-- Who accesses: context (64 for none) and supervisor privilege. -/
structure Who where
  ctx : Nat
  sup : Bool
  core : Nat
deriving DecidableEq, Repr

/-- Checks 3 to 6 of R128 on a leaf, for one page of an access: the physical address or the cause. -/
def State.checkLeaf (s : State) (w : Who) (k : AccKind) (l : Leaf) (va : Nat) : Except Cause Nat :=
  let e := Pte.ofWord l.pte
  let pa := l.phys va
  let page := pa / 65536 * 65536
  if tierOf page ≠ tierField e.tier then .error 0x084#10
  else if e.tier == 1 && (match s.tier2Cap with | some c => decide (c ≤ page - 0x8000000000000) | none => false) then .error 0x084#10
  else if (match k with | .load => !e.r | .store => !e.w | .atomic => !(e.r && e.w) | .fetch => !e.x) || (!w.sup && !e.usr) then .error 0x081#10
  else if !(e.key == s.ownOf w.ctx || (s.ioGet (0x2000 + 16 * e.key)).getLsbD 4) then .error 0x201#10
  else if !s.keyUsable e.key then .error 0x202#10
  else if !w.sup && s.retired pa then .error 0x085#10
  else .ok pa

end Sys2Proof.Machine
end

