-- ==== Sys2Proof/Machine/L2.lean ====
section
/-! DEFINITION. The package L2, decks and spill runs, the home slice's errors (R135-R149, R152-R170, R469, R470). Data stand in
memory; a line of L2 carries the state that decides fills, writebacks, charges and containment. -/
namespace Sys2Proof.Machine

/-- Index of a line in SMAP, and its set (R135). -/
def l2Idx (line : Nat) : Nat := bits line 0 12 ^^^ bits line 12 12 ^^^ bits line 24 12 ^^^ bits line 36 10
def l2Set (line : Nat) : Nat := bits line 0 13 ^^^ bits line 13 13

/-- The home slice of a line (R135). -/
def State.home (s : State) (line : Nat) : Nat := bits (s.ioGet (0xC000 + l2Idx line / 8 * 8)).toNat (8 * (l2Idx line % 8)) 8

/-- Number of a set of a slice, and of a way of it. -/
def setNo (slice set : Nat) : Nat := slice * 8192 + set
def wayNo (sn way : Nat) : Nat := sn * 16 + way

/-- Ways of a set that are not disabled, lowest first (R144). -/
def State.usable (s : State) (sn : Nat) : List Nat := (List.range 16).filter fun w => !(s.blaze.getD sn 0).getLsbD w

/-- The reserved ways of a set (R138). -/
def State.reservedWays (s : State) (sn : Nat) : List Nat :=
  let us := s.usable sn
  let r := min (min (bits (s.ioGet 0x6808).toNat 48 4) 8) (us.length - 2)
  us.drop (us.length - r)

/-- The way that holds a line. -/
def State.wayOf (s : State) (line : Nat) : Option Nat :=
  let sn := setNo (s.home line) (l2Set line)
  (List.range 16).find? fun w => match s.l2.get? (wayNo sn w) with | some l => l.tag == line | none => false

def State.lineOf (s : State) (line : Nat) : Option (Nat × L2Line) :=
  match s.wayOf line with
  | none => none
  | some w => let n := wayNo (setNo (s.home line) (l2Set line)) w; (s.l2.get? n).map fun l => (n, l)

/-- Charging (R149): FILL 0, WB 1, UPD 2, ENERGY 3. Context 64 is nobody. -/
def State.charge (s : State) (ctx k n : Nat) : State :=
  if ctx < 64 then s.ioSet (0xB000 + 32 * ctx + 8 * k) (s.ioGet (0xB000 + 32 * ctx + 8 * k) + BitVec.ofNat 64 n) else s

/-- A memory-error record (R148), on its way to the fault-service queue. -/
def memRec (kind flags owner req unit set way pa : Nat) (time : Word) : List Byte :=
  bytesOf 1 kind ++ bytesOf 1 flags ++ bytesOf 1 owner ++ bytesOf 1 req ++ bytesOf 2 unit ++ bytesOf 2 set ++ bytesOf 1 way ++
    bytesOf 7 0 ++ bytesOf 8 pa ++ bytesOf 8 time.toNat
def State.record (s : State) (kind flags owner req unit set way pa : Nat) : State :=
  { s with recq := s.recq ++ [⟨2, 0, memRec kind flags owner req unit set way pa s.tmr, none⟩] }
def reqByte (ctx : Nat) : Nat := if ctx < 64 then 64 + ctx else 0
/-- The record of an event on a line. -/
def State.lineRecord (s : State) (kind flags owner ctx line way : Nat) : State :=
  s.record kind flags owner (reqByte ctx) (s.home line) (l2Set line) way (line * 64)

/-- Uncorrectable words of a sector, in HBM and in L2 (word numbers pa ÷ 8). -/
def errIn (m : SMap Unit) (sector : Nat) : Bool := (List.range 4).any fun i => m.has (sector * 4 + i)
def clearErr (m : SMap Unit) (sector : Nat) : SMap Unit := (List.range 4).foldl (fun m i => m.del (sector * 4 + i)) m

/-- Enter a frame in the retired-page list: the list and whether it was full (R147). Every TLB loses the frame (R129). -/
def State.retireFrame (s : State) (pa : Nat) : State × Bool :=
  let frame := pa / 65536
  if s.retired pa then (s, false)
  else match (List.range 1024).find? fun i => !(s.ioGet (0x8800 + 8 * i)).getLsbD 63 with
    | none => (s, true)
    | some i =>
      ((s.tlbLose pa).ioSet (0x8800 + 8 * i) (BitVec.ofNat 64 (2 ^ 63 + frame)), false)

/-- L2 holds the sector. -/
def State.inL2 (s : State) (k : Nat) : Bool :=
  match s.lineOf (k / 2) with | some (_, l) => l.valid.getLsbD (k % 2) | none => false
/-- The key of a sector that a write through `slot` leaves in HBM or tier 2; a write that names no slot keeps the sector's key (R60,
log 13). While a key command runs on the slot the write waits for it, and then stands under the new key (R62, State.keyDone). Under a
slot that ZERO has emptied the spec gives no outcome: the sector stands in the clear (DESIGN CHOICE, log 90). -/
def State.encrypt (s : State) (sector slot : Nat) : State :=
  if 64 ≤ slot then s
  else
    { s with
      keyTag := match s.keyOf slot with | some k => s.keyTag.ins sector k | none => s.keyTag.del sector
      pkg := { s.pkg with keyLate := if s.pkg.keyOp.has slot then s.pkg.keyLate.ins sector slot else s.pkg.keyLate.del sector } }

/-- Tier-2 writes under isolation are discarded and counted (R45). What counts as one write the spec does not say: a dirty sector that is
written back counts one, and so does each piece of a write that is not cached (DESIGN CHOICE, log 91). -/
def State.iso (s : State) : Bool := (s.ioGet 0x0508).getLsbD 0
def State.wdrop (s : State) : State :=
  let v := (s.ioGet 0x0508).toNat
  let c := bits v 16 16
  s.ioSet 0x0508 (BitVec.ofNat 64 (v % 65536 + min (c + 1) 65535 * 65536))

/-- A sector has been written below L2 as L2 shows it: its key, and no error left there. -/
def State.storeBelow (s : State) (sec slot : Nat) : State :=
  { (s.encrypt sec slot) with hbmErr := clearErr s.hbmErr sec, hbmCor := clearErr s.hbmCor sec, back := s.back.del sec, backPoison := s.backPoison.del sec }

/-- Dirty sectors of a line that hold a corrected word record it as they are written back (R142), but for those of `skip`, in the bits of
FLAGS. -/
def State.noteCor (s : State) (n : Nat) (l : L2Line) (skip ctx : Nat) : State :=
  let s := ((List.range 2).filter fun i => l.dirty.getLsbD i && errIn s.l2Cor (l.tag * 2 + i) && !skip.testBit (i + 1)).foldl (fun s i =>
    s.lineRecord 1 (2 * 2 ^ i) 0 ctx l.tag (n % 16)) s
  { s with l2Cor := clearErr (clearErr s.l2Cor (l.tag * 2)) (l.tag * 2 + 1) }
/-- Write back the dirty sectors of a line of L2 (R136): charge WB, note the key, clean. Under isolation the bytes are lost, though
L2 shows them until it gives the line up (R45). A line of tier 2 that is written back while no expander is linked stands below as if it had
arrived: R43 gives the cause of an access, and no access is there that could take it (DESIGN CHOICE, log 119). -/
def State.writeBack (s : State) (n : Nat) (l : L2Line) (chargeTo : Nat) : State :=
  let s := [0, 1].foldl (fun s i =>
    if l.dirty.getLsbD i then
      let s := s.charge chargeTo 1 32
      if tierOf (l.tag * 64) = .tier2 ∧ s.iso then s.wdrop else s.storeBelow (l.tag * 2 + i) l.key
    else s) s
  { s with l2 := s.l2.ins n { l with dirty := 0 } }

/-- A waitline watch sleeps until its line is written, or invalidated where it is held (R37, R329). -/
def State.wake (s : State) (line : Nat) : State :=
  { s with cores := s.cores.map fun q =>
      (q.1, { q.2 with watches := q.2.watches.map fun w => if w.pa / 64 = line then { w with asleep := false } else w }) }
/-- A way gives its line up: what stands below shows, errors of the copy are gone, and sleeps on the line end. -/
def State.dropLine (s : State) (n : Nat) : State :=
  match s.l2.get? n with
  | none => s
  | some l =>
    let s := (s.showBelow (l.tag * 2)).showBelow (l.tag * 2 + 1)
    let clr (m : SMap Unit) : SMap Unit := clearErr (clearErr m (l.tag * 2)) (l.tag * 2 + 1)
    ({ s with l2 := s.l2.del n, l2Err := clr s.l2Err, l2Cor := clr s.l2Cor } : State).wake l.tag
/-- Set a way's disabled bit and drop its line (R144, R146). -/
def State.disableWay (s : State) (n : Nat) : State :=
  let sn := n / 16
  let s := s.dropLine n
  { s with blaze := s.blaze.ins sn (s.blaze.getD sn 0 ||| BitVec.ofNat 16 (2 ^ (n % 16))), wayCnt := s.wayCnt.del n }
/-- The dirty sectors of a line that hold an uncorrectable word. -/
def State.dirtyBad (s : State) (l : L2Line) : BitVec 2 :=
  BitVec.ofNat 2 (((List.range 2).filter fun i => l.dirty.getLsbD i && errIn s.l2Err (l.tag * 2 + i)).foldl (fun t i => t + 2 ^ i) 0)

/-! Other copies of a sector (R133, R139, R175). -/

/-- Channel of back-invalidate snoops, among the messages sent to the outside. -/
def chSnoop : Nat := 6
def State.send (s : State) (ch : Nat) (b : List Byte) : State := { s with out := s.out ++ [(ch, b)] }
/-- A stash sector of a physical sector that another agent has written: its written bytes stay, the rest is stale (R133). -/
def StashSector.stale (t : StashSector) (sector : Nat) : StashSector := if t.pa = some sector then { t with full := false } else t
/-- Invalidate the copies of a sector that another agent writes: scalar data caches, and stash sectors, which keep their written
bytes and lose the rest, as the undo log keeps them too (R133, R139, R175). The writer's own scalar data cache is updated; a core that writes back its own stash
sector (`own`) keeps it. -/
def State.invalidate (s : State) (sector : Nat) (writer : Nat) (own : Bool) : State :=
  { s with cores := s.cores.map fun q =>
      (q.1, { q.2 with
        sdc := if q.1 = writer then q.2.sdc else q.2.sdc.del (sector / 2)
        stash := if q.1 = writer ∧ own then q.2.stash
          else (q.2.stash.map fun e => (e.1, e.2.stale sector)).filter fun e => e.2.full || e.2.mask != 0 || e.2.pa != some sector ||
            q.2.seg.undo.any fun u => u.sector == e.1 && u.stash.any fun t => t.mask != 0
        seg := if q.1 = writer ∧ own then q.2.seg
          else { q.2.seg with undo := q.2.seg.undo.map fun u => { u with stash := u.stash.map fun t => t.stale sector } } }) }
/-- A line that the host holds is asked back, and given up within the step (R30, log 39). -/
def State.snoopNow (s : State) (line : Nat) : State :=
  if s.pkg.hostHeld.has line then
    let s := if s.pkg.snooped.has line then s else s.send chSnoop (bytesOf 8 (line * 64))
    { s with pkg := { s.pkg with hostHeld := s.pkg.hostHeld.del line, snooped := s.pkg.snooped.del line } }
  else s
/-- Everything that a write of a sector by `writer` does to other copies: cores, the host unless it writes itself (agent 264), and sleeps
on its line. -/
def State.dropCopies (s : State) (sector writer : Nat) (own : Bool) : State :=
  let s := s.invalidate sector writer own
  (if writer = 264 then s else s.snoopNow (sector / 2)).wake (sector / 2)

/-! Fills (R45, R60, R136, R470). -/

/-- One access at the home slice. -/
structure L2Acc where
  /-- requesting context, 64 for none -/
  ctx : Nat
  /-- key slot of the page -/
  key : Nat
  /-- sectors touched, and those that a write covers whole -/
  secs : BitVec 2
  full : BitVec 2 := 0
  /-- the words of the line that a write replaces whole (R469) -/
  words : BitVec 8 := 0
  /-- the words that a write replaces in part, which it reads -/
  part : BitVec 8 := 0
  write : Bool := false
  /-- owner tag that a write leaves (R136) -/
  owner : Option Nat := none
  /-- a write-through of the host, a control core or the Distributor -/
  through : Bool := false
  u : Nat := 2
  /-- switched-out state allocates in reserved ways (R138) -/
  resv : Bool := false
  /-- it takes no line that is not there: a spill run (R167) -/
  bare : Bool := false
deriving DecidableEq, Repr

/-- Fill one sector from its tier (R470, R45, R60): a sector stored under another key shows unrelated bytes. One that the expander holds
poisoned fills poisoned, with a record (R141, R148). -/
def State.fillSector (s : State) (line i : Nat) (a : L2Acc) : State :=
  let sec := line * 2 + i
  let s := s.charge a.ctx 0 32
  if tierOf (line * 64) = .tier2 ∧ s.iso then
    let s := s.keepBelow sec
    { s with poison := s.poison.ins sec (), isoPoison := s.isoPoison.ins sec () }
  else if errIn s.hbmErr sec then
    let s := s.keepBelow sec
    let s := { s with poison := s.poison.ins sec () }
    s.lineRecord 7 (2 * 2 ^ i) 0 a.ctx line ((s.wayOf line).getD 0)
  else
    let s := if errIn s.hbmCor sec then s.lineRecord 1 (2 * 2 ^ i) 0 a.ctx line ((s.wayOf line).getD 0) else s
    let s := if tierOf (line * 64) = .tier2 ∧ s.poison.has sec then s.lineRecord 7 (2 * 2 ^ i) 0 a.ctx line ((s.wayOf line).getD 0) else s
    if 64 ≤ a.key ∨ s.keyOf a.key = s.keyTag.get? sec then s
    else
      let v := s.readUnder sec (s.keyOf a.key)
      (s.keepBelow sec).writePhys (sec * 32) (bytesOf 32 v.toNat)

/-- A clean sector with an uncorrectable word is refetched from its tier as though it had missed (R143). `flags` are those of the record. -/
def State.refetch (s : State) (n line i flags : Nat) (a : L2Acc) : State :=
  let sec := line * 2 + i
  let s := ({ s with l2Err := clearErr s.l2Err sec, l2Cor := clearErr s.l2Cor sec } : State).lineRecord 2 flags 0 a.ctx line (n % 16)
  (s.showBelow sec).fillSector line i a

/-- Every sector that isolation filled as poison is invalidated: its tier shows again (R45, R141). -/
def State.sweepDone (s : State) : State :=
  let s := s.isoPoison.foldl (fun s q =>
    let s := ({ s with poison := s.poison.del q.1 }.showBelow q.1).wake (q.1 / 2)
    match s.lineOf (q.1 / 2) with
    | some (n, l) =>
      let m := ~~~(BitVec.ofNat 2 (2 ^ (q.1 % 2)))
      { s with l2 := s.l2.ins n { l with valid := l.valid &&& m, dirty := l.dirty &&& m } }
    | none => s) s
  { s with isoPoison := [], pkg := { s.pkg with sweep := false } }

/-! Decks (R163-R168). -/

/-- Operator, element width in bytes and window of a region (R161, R163). -/
def State.rgnOp (s : State) (r : Nat) : Nat := bits (s.ioGet (0xD008 + 32 * r)).toNat 32 4
def State.rgnFxp (s : State) (r : Nat) : Nat := bits (s.ioGet (0xD008 + 32 * r)).toNat 40 8
def State.rgnLines (s : State) (r : Nat) : Nat := bits (s.ioGet (0xD008 + 32 * r)).toNat 0 32
def State.rgnCtx (s : State) (r : Nat) : Nat := bits (s.ioGet (0xD000 + 32 * r)).toNat 58 6
def State.rgnBase (s : State) (r : Nat) : Nat := bits (s.ioGet (0xD000 + 32 * r)).toNat 6 46 * 64
def State.rgnV (s : State) (r : Nat) : Bool := (s.ioGet (0xD000 + 32 * r)).getLsbD 0
def opWidth (op : Nat) : Nat := if op = 1 ∨ op = 8 ∨ op = 9 ∨ op = 10 then 8 else 4

/-- Take one FP32 value into an exact sum (R164). -/
def fxTake (fxp : Nat) (d : DeckVal) (v : Nat) : DeckVal :=
  let d := { d with neg0 := d.neg0 && v == 0x80000000 }
  match decF fFP32 v with
  | .nan => { d with nan := true }
  | .inf neg => if neg then { d with ninf := true } else { d with pinf := true }
  | .num neg m e =>
    let q := roundAt .rne 0 neg m e false ((fxp : Int) - 149)
    if 2 ^ 112 ≤ q then { d with oor := true } else { d with val := d.val + BitVec.ofInt 128 (sgnd neg q) }

/-- What one pair brings as a deck entry (R163): COUNT counts one. -/
def deckOf (op fxp v : Nat) : DeckVal :=
  if op = 12 then fxTake fxp { val := 0, neg0 := true } (v % 2 ^ 32)
  else if op = 11 then { val := 1 }
  else { val := BitVec.ofNat 128 (v % 2 ^ (8 * opWidth op)) }

/-- Combination of two values under an operator other than FADD32X (R163). -/
def combine (op x y : Nat) : Nat :=
  match op with
  | 0 => (x + y) % 2 ^ 32
  | 1 => (x + y) % 2 ^ 64
  | 2 => min x y
  | 3 => max x y
  | 4 => if sgn 32 x ≤ sgn 32 y then x else y
  | 5 => if sgn 32 x ≤ sgn 32 y then y else x
  | 6 => minmaxF fFP32 false x y
  | 7 => minmaxF fFP32 true x y
  | 8 => x ||| y
  | 9 => x &&& y
  | 10 => x ^^^ y
  | _ => min (x + y) (2 ^ 32 - 1)

/-- Combination of two deck entries of one key. -/
def DeckVal.join (op : Nat) (a b : DeckVal) : DeckVal :=
  if op = 12 then ⟨a.val + b.val, a.nan || b.nan, a.pinf || b.pinf, a.ninf || b.ninf, a.oor || b.oor, a.neg0 && b.neg0⟩
  else { a with val := BitVec.ofNat 128 (combine op a.val.toNat b.val.toNat) }

/-- The memory value after an entry is applied, and whether OOR is set (R163, R164). FMIN32 and FMAX32 of two NaNs give the
default NaN. -/
def applyVal (op fxp : Nat) (d : DeckVal) (mem : Nat) : Nat × Bool :=
  if op = 12 then
    let d := fxTake fxp d mem
    if d.nan || (d.pinf && d.ninf) || d.oor then (0x7FC00000, d.oor)
    else if d.pinf then (0x7F800000, false)
    else if d.ninf then (0xFF800000, false)
    else if d.val = 0 then (if d.neg0 then 0x80000000 else 0, false)
    else (roundF fFP32 .rne false 0 (.ofInt d.val.toInt ((fxp : Int) - 149) false), false)
  else (combine op mem d.val.toNat, false)

/-- Bytes of a run entry (R167). -/
def runEntry (op key : Nat) (d : DeckVal) : List Byte :=
  if op = 12 then
    bytesOf 8 key ++ bytesOf 16 d.val.toNat ++
      bytesOf 8 ((if d.nan then 1 else 0) + (if d.pinf then 2 else 0) + (if d.ninf then 4 else 0) + (if d.oor then 8 else 0) + (if d.neg0 then 16 else 0))
  else bytesOf 8 key ++ bytesOf 8 d.val.toNat
def runSize (op : Nat) : Nat := if op = 12 then 32 else 16
def runDecode (op : Nat) (b : List Byte) : Nat × DeckVal :=
  let key := natOf (b.take 8) % 2 ^ 52
  if op = 12 then
    let f := natOf ((b.drop 24).take 8)
    (key, ⟨BitVec.ofNat 128 (natOf ((b.drop 8).take 16)), f % 2 == 1, f / 2 % 2 == 1, f / 4 % 2 == 1, f / 8 % 2 == 1, f / 16 % 2 == 1⟩)
  else (key, { val := BitVec.ofNat 128 (natOf ((b.drop 8).take 8)) })

/-- The spill part of a region at a slice: first byte and size (R167). -/
def State.spillPart (s : State) (r slice : Nat) : Nat × Nat :=
  let c := (s.ioGet (0xD010 + 32 * r)).toNat
  let p := bits c 0 16 * 65536 / 192 / 64 * 64
  (bits c 16 36 * 65536 + slice * p, p)

/-- Whether the range of region r includes a line, by the pages of its range (R168). -/
def State.rgnHasLine (s : State) (r line : Nat) : Bool :=
  let base := s.rgnBase r
  let len := 64 * s.rgnLines r
  let pages := if len = 0 then 0 else (base + len - 1) / 65536 - base / 65536 + 1
  (List.range pages).any fun i =>
    let va := (base / 65536 + i) * 65536
    match s.walkVa (s.rgnCtx r) va with
    | .error _ => false
    | .ok (l, _) =>
      let pa := l.phys va
      pa / 65536 == line * 64 / 65536 &&
        (let a := va + line * 64 % 65536; decide (base ≤ a ∧ a < base + len))

/-- The sectors of the runs of a region at a slice. -/
def State.runSectors (s : State) (r slice : Nat) : List Nat :=
  (s.runs.getD (slice * 256 + r) []).flatMap fun q => sectorsOf ((s.spillPart r slice).1 + q.1) (q.2 * runSize (s.rgnOp r))
/-- Read the entries of the runs of a region at a slice from HBM under the slot OWN of its context, with whether a sector was
uncorrectable (R60, R167). -/
def State.readRuns (s : State) (r slice : Nat) : List (Nat × DeckVal) × Bool :=
  let op := s.rgnOp r
  let start := (s.spillPart r slice).1
  let es := (s.runs.getD (slice * 256 + r) []).flatMap fun q => (List.range q.2).map fun i => start + q.1 + i * runSize op
  let key := s.keyOf (s.ownOf (s.rgnCtx r))
  (es.map fun a => runDecode op (s.readBelow a (runSize op) key), (s.runSectors r slice).any fun k => errIn s.hbmErr k || s.poison.has k)

/-- Fill the missing sectors of a line for the apply, each as a fill of the region's context (R168 step 2, R470). -/
def State.deckFill (s : State) (line ctx : Nat) : State :=
  [0, 1].foldl (fun s i => match s.lineOf line with
    | none => s
    | some (n, l) =>
      if l.valid.getLsbD i then s
      else ({ s with l2 := s.l2.ins n { l with valid := l.valid ||| BitVec.ofNat 2 (2 ^ i) } }).fillSector line i { ctx, key := l.key, secs := 3 }) s

/-- OVF of a region is set (R164). -/
def State.overflowed (s : State) (r : Nat) : State := s.ioSet (0xD018 + 32 * r) (s.ioGet (0xD018 + 32 * r) ||| 0x10000#64)
/-- One key of an apply: combine with memory, write, mark dirty with the owner tag (R168 steps 3 and 4). The value is performed at
package scope: no other copy keeps the old bytes (R175, R189). A poisoned sector stays as it is; its entry's own OOR still counts (R164). -/
def State.applyKey (s : State) (op fxp ctx r key : Nat) (d : DeckVal) : State :=
  let w := opWidth op
  let sec := key / 32
  let line := s.lineOf (key / 64)
  let s := (if line.isSome then s.keepBelow sec else s).dropCopies sec 1000 false
  let s := if s.poison.has sec then (if op = 12 ∧ d.oor then s.overflowed r else s)
    else
      let (v, oor) := applyVal op fxp d (natOf (s.readPhys key w))
      let s := s.writePhys key (bytesOf w v)
      if oor then s.overflowed r else s
  match line with
  | none => s
  | some (n, l) => { s with l2 := s.l2.ins n { l with dirty := l.dirty ||| BitVec.ofNat 2 (2 ^ (sec % 2)), owner := BitVec.ofNat 6 ctx } }
/-- What the apply finds as it reads a sector: a clean one with an uncorrectable word is refetched (R143); a dirty one is poisoned from here
on, so that its entries are consumed, and its loss follows the apply (R146). Answers whether something is left to follow. -/
def State.applyCheck (s : State) (ctx sec : Nat) : Bool × State :=
  match s.lineOf (sec / 2) with
  | none => (false, s)
  | some (n, l) =>
    if !l.valid.getLsbD (sec % 2) then (false, s)
    else if errIn s.l2Err sec then
      if l.dirty.getLsbD (sec % 2) then (true, { s with poison := s.poison.ins sec () })
      else (false, s.refetch n (sec / 2) (sec % 2) (2 * 2 ^ (sec % 2)) { ctx, key := l.key, secs := 3 })
    else (errIn s.l2Cor sec, s)

/-- The regions that may hold entries for a line at its slice, in increasing id (R168). -/
def State.rgnsFor (s : State) (line : Nat) : List Nat :=
  let slice := s.home line
  (List.range 256).filter fun r =>
    let k := slice * 256 + r
    (s.deck.getD k []).any (fun q => q.1 / 64 == line) || (!(s.runs.getD k []).isEmpty && s.rgnHasLine r line)

/-- Apply region r at a slice (R168). Answers the sectors whose errors, found by its reads, have still to be dealt with. -/
def State.applyOne (s : State) (r slice : Nat) : List Nat × State :=
  let op := s.rgnOp r
  let fxp := s.rgnFxp r
  let ctx := s.rgnCtx r
  let k := slice * 256 + r
  let deck := s.deck.getD k []
  let (runs, bad) := s.readRuns r slice
  let runs := runs.filter fun q => decide (s.home (q.1 / 64) = slice ∧ q.1 % opWidth op = 0) && s.rgnHasLine r (q.1 / 64)
  let all := runs.foldl (fun m q => m.ins q.1 (match m.get? q.1 with | some d => d.join op q.2 | none => q.2)) deck
  let nrun := (s.runs.getD k []).foldl (fun t q => t + q.2) 0
  let s := s.charge ctx 0 (nrun * runSize op)
  -- corrected words of the runs (R142)
  let s := (s.runSectors r slice).foldl (fun s q => if errIn s.hbmCor q then s.lineRecord 1 (2 * 2 ^ (q % 2)) 0 ctx (q / 2) 0 else s) s
  let s := (all.map fun q => q.1 / 64).foldl (fun s line => s.deckFill line ctx) s
  let secs := all.foldl (fun (m : SMap Unit) q => m.ins (q.1 / 32) ()) []
  let (found, s) := if bad then ([], s) else secs.foldl (fun (q : List Nat × State) x =>
    let (f, s) := q.2.applyCheck ctx x.1
    (if f then q.1 ++ [x.1] else q.1, s)) ([], s)
  let us := s.l2.filter fun q => q.1 / 16 / 8192 == slice && q.2.u && s.rgnHasLine r q.2.tag
  let s := if bad && op == 12 && deck.any (fun q => q.2.oor) then s.overflowed r else s
  let s := if bad then
      -- the keys are unknown: poison the lines in state U of the region's range
      us.foldl (fun s q =>
        let s := s.deckFill q.2.tag ctx
        let s := ((s.keepBelow (q.2.tag * 2)).keepBelow (q.2.tag * 2 + 1)).dropCopies (q.2.tag * 2) 1000 false
        let s := s.dropCopies (q.2.tag * 2 + 1) 1000 false
        let s := { s with poison := (s.poison.ins (q.2.tag * 2) ()).ins (q.2.tag * 2 + 1) () }
        let s := match s.l2.get? q.1 with
          | some l => { s with l2 := s.l2.ins q.1 { l with dirty := 3, owner := BitVec.ofNat 6 ctx } }
          | none => s
        s.lineRecord 7 6 0 ctx q.2.tag (q.1 % 16)) s
    else all.foldl (fun s q => s.applyKey op fxp ctx r q.1 q.2) s
  -- free the entries, empty the spill part, clear U where no other region holds entries
  let s := { s with deck := s.deck.del k, runs := s.runs.del k }
  let keys := if bad then us.map fun q => q.2.tag else all.map fun q => q.1 / 64
  (found, keys.foldl (fun s line =>
    match s.lineOf line with
    | none => s
    | some (n, l) => if (s.rgnsFor line).isEmpty then { s with l2 := s.l2.ins n { l with u := false } } else s) s)

/-- Every region that may hold entries for a line is applied, in increasing id. -/
def State.applyRest (s : State) (line : Nat) : List Nat × State :=
  (s.rgnsFor line).foldl (fun (q : List Nat × State) r => let (f, s) := q.2.applyOne r (s.home line); (q.1 ++ f, s)) ([], s)

/-! Containment (R144, R146). -/

/-- Steps 3 to 7 of R146 on the line of a way, and the record; `bad` are its failed sectors, which are poisoned. -/
def State.loseCore (s : State) (n tag : Nat) (owner bad : Nat) (scrub : Bool) (ctx : Nat) : State :=
  let s := match s.l2.get? n with | some l => (s.noteCor n l (2 * bad) ctx).writeBack n l l.owner.toNat | none => s
  let s := s.disableWay n
  let (s, full) := s.retireFrame (tag * 64)
  let flags := (if full then 1 else 0) + 2 * bad + (if scrub then 8 else 0)
  { (s.lineRecord 3 flags owner ctx tag (n % 16)) with stopq := s.stopq ++ [(owner, tag)], onHold := s.onHold.ins owner () }
/-- The failed sectors of a line are poisoned. -/
def State.poisonBad (s : State) (l : L2Line) : State :=
  (ones (s.dirtyBad l)).foldl (fun s i =>
    { s with poison := s.poison.ins (l.tag * 2 + i) (), l2Err := clearErr s.l2Err (l.tag * 2 + i) }) s
/-- A corrected error found in a way: its record, and its count, or that the way has to go. -/
def State.countUp (s : State) (n line flags ctx : Nat) : Bool × State :=
  let s := s.lineRecord 1 flags 0 ctx line (n % 16)
  let k := s.wayCnt.getD n 0
  if k ≠ 3 then (false, { s with wayCnt := s.wayCnt.ins n (k + 1) }) else (true, s)
/-- A way is disabled, a dirty line being written back first in corrected form (R144). -/
def State.wayGone (s : State) (n line flags ctx : Nat) : State :=
  match s.l2.get? n with
  | some l =>
    let s := s.noteCor n l flags ctx
    let bad := s.dirtyBad l
    if bad ≠ 0 then (s.poisonBad l).loseCore n l.tag l.owner.toNat bad.toNat false ctx
    else ((s.writeBack n l l.owner.toNat).disableWay n).lineRecord 4 flags 0 ctx line (n % 16)
  | none => (s.disableWay n).lineRecord 4 flags 0 ctx line (n % 16)

/-- The errors that an apply found: each line is lost, or its way counts, once its other entries have been applied (R144, R146). -/
def State.settle : Nat → List Nat → State → State
  | 0, _, s => s
  | _, [], s => s
  | fuel + 1, sec :: rest, s =>
    match s.lineOf (sec / 2) with
    | none => State.settle fuel rest s
    | some (n, l) =>
      let bad := s.dirtyBad l
      if bad ≠ 0 then
        let (more, s) := (s.poisonBad l).applyRest l.tag
        State.settle fuel (rest ++ more) (s.loseCore n l.tag l.owner.toNat bad.toNat false 64)
      else if errIn s.l2Cor sec then
        let flags := 2 * 2 ^ (sec % 2)
        match s.countUp n l.tag flags 64 with
        | (false, s) => State.settle fuel rest s
        | (true, s) =>
          let (more, s) := s.applyRest l.tag
          State.settle fuel (rest ++ more) (s.wayGone n l.tag flags 64)
      else State.settle fuel rest s
/-- Apply region r at a slice, with what its reads find. -/
def State.applyRegion (s : State) (r slice : Nat) : State := let (found, s) := s.applyOne r slice; State.settle 64 found s

/-- The read trigger of R168 on a line. -/
def State.applyLine (s : State) (line : Nat) : State :=
  match s.lineOf line with
  | none => s
  | some (_, l) =>
    if l.u then
      let s := (s.rgnsFor line).foldl (fun s r => s.applyRegion r (s.home line)) s
      match s.lineOf line with
      | some (n, l) => { s with l2 := s.l2.ins n { l with u := false } }
      | none => s
    else s

/-- A dirty line with an uncorrectable word: the steps of R146 in order. -/
def State.loseLine (s : State) (n : Nat) (scrub : Bool) (ctx : Nat) : State :=
  match s.l2.get? n with
  | none => s
  | some l =>
    let bad := s.dirtyBad l
    ((s.poisonBad l).applyLine l.tag).loseCore n l.tag l.owner.toNat bad.toNat scrub ctx
/-- A corrected error found in a way: its count rises, and at 3 the way is disabled, a dirty line being written back first in
corrected form, after its pending entries have been applied (R137, R144). -/
def State.countCorrected (s : State) (n line flags ctx : Nat) : State :=
  match s.countUp n line flags ctx with
  | (false, s) => s
  | (true, s) => (match s.l2.get? n with | some l => s.applyLine l.tag | none => s).wayGone n line flags ctx
/-- Take a line out of a way, as an eviction does: apply, write back, drop (R136, R137). A writeback finds the errors of what it
reads (R143, R144, R146). -/
def State.evict (s : State) (n : Nat) : State :=
  match s.l2.get? n with
  | none => s
  | some l0 =>
    let s := s.applyLine l0.tag
    match s.l2.get? n with
    | none => s
    | some l =>
      if s.dirtyBad l ≠ 0 then s.loseLine n false 64
      else
        let cor := (List.range 2).filter fun i => l.dirty.getLsbD i && errIn s.l2Cor (l.tag * 2 + i)
        let s := (s.writeBack n l l.owner.toNat).dropLine n
        cor.foldl (fun s i => s.countCorrected n l.tag (2 * 2 ^ i) 64) s

/-! Slice retirement (R145). -/

/-- A slice that still lives and has a set with fewer than 2 usable ways. -/
def State.sliceDue (s : State) (slice : Nat) : Bool :=
  s.blaze.any (fun q => q.1 / 8192 == slice && decide ((s.usable q.1).length < 2)) && (s.ioGet (0x8210 + 8 * (slice / 64))).getLsbD (slice % 64)
/-- Steps 2 to 5 of R145; a slice retires only when it must. -/
def State.retireSlice (s : State) (slice : Nat) : State :=
  let live (s : State) (k : Nat) : Bool := (s.ioGet (0x8210 + 8 * (k / 64))).getLsbD (k % 64)
  if !s.sliceDue slice then s
  else
    let s := (List.range 256).foldl (fun s r => if s.deck.has (slice * 256 + r) || s.runs.has (slice * 256 + r) then s.applyRegion r slice else s) s
    let s := s.l2.foldl (fun s q => if q.1 / 16 / 8192 = slice then s.evict q.1 else s) s
    let o := 0x8210 + 8 * (slice / 64)
    let s := s.ioSet o (setBits (s.ioGet o) (slice % 64) 1 0)
    let next (k : Nat) : Nat := ((List.range 192).map fun i => (k + 1 + i) % 192).find? (fun j => live s j) |>.getD k
    let (s, _) := (List.range 4096).foldl (fun (q : State × Nat) i =>
      let o := 0xC000 + i / 8 * 8
      if bits (q.1.ioGet o).toNat (8 * (i % 8)) 8 = slice then (q.1.ioSet o (setBits (q.1.ioGet o) (8 * (i % 8)) 8 (next q.2)), next q.2) else q) (s, slice)
    s.record 5 0 0 0 slice 0 0 0

/-- The way for a new line of a set: the lowest invalid candidate, else the lowest with RRPV 3, the others ageing (R137). -/
def State.victim (s : State) (sn : Nat) (cands : List Nat) : Option (Nat × State) :=
  match cands.find? fun w => !s.l2.has (wayNo sn w) with
  | some w => some (w, s)
  | none =>
    let top := cands.foldl (fun t w => max t (match s.l2.get? (wayNo sn w) with | some l => l.rrpv.toNat | none => 0)) 0
    match cands.find? fun w => match s.l2.get? (wayNo sn w) with | some l => l.rrpv.toNat == top | none => false with
    | none => none
    | some w =>
      some (w, { s with l2 := cands.foldl (fun m c => match m.get? (wayNo sn c) with
        | some l => m.ins (wayNo sn c) { l with rrpv := BitVec.ofNat 2 (l.rrpv.toNat + (3 - top)) } | none => m) s.l2 })

/-- The way of a line that has still to be allocated: switched-out state takes an invalid reserved way or none (R138). -/
def State.wayFor (s : State) (line : Nat) (resv : Bool) : Option (Nat × State) :=
  let sn := setNo (s.home line) (l2Set line)
  let res := s.reservedWays sn
  if resv then (res.find? fun w => !s.l2.has (wayNo sn w)).map fun w => (w, s)
  else s.victim sn ((s.usable sn).filter fun w => !res.contains w)
/-- A slice that must retire does so before it takes a request to a line (R145). -/
def State.readySlice (s : State) (line : Nat) : State := s.retireSlice (s.home line)
/-- Allocate a line with no valid sector, at a slice that has retired if it had to (R145). A way that its own eviction disables is not taken: another one is looked for, at the new home
when the slice has to retire (R144-R146). -/
def State.allocateIn : Nat → Nat → L2Acc → State → State
  | 0, _, _, s => s
  | fuel + 1, line, a, s =>
    match s.wayFor line a.resv with
    | none => s
    | some (w, s) =>
      let sn := setNo (s.home line) (l2Set line)
      let s := s.evict (wayNo sn w)
      if (s.usable sn).contains w then { s with l2 := s.l2.ins (wayNo sn w) ⟨line, 0, 0, 0, BitVec.ofNat 2 a.u, false, a.resv, a.key⟩ }
      else State.allocateIn fuel line a (s.readySlice line)
def State.allocate (s : State) (line : Nat) (a : L2Acc) : State := State.allocateIn 17 line a (s.readySlice line)

/-- Words of a sector that an access does not replace whole, and those that it does. -/
def keptWords (sector : Nat) (words : BitVec 8) : List Nat := ((List.range 4).filter fun i => !words.getLsbD (sector % 2 * 4 + i)).map fun i => sector * 4 + i
def goneWords (sector : Nat) (words : BitVec 8) : List Nat := ((List.range 4).filter fun i => words.getLsbD (sector % 2 * 4 + i)).map fun i => sector * 4 + i
def State.forgetWords (s : State) (l : List Nat) : State :=
  { s with l2Err := l.foldl SMap.del s.l2Err, l2Cor := l.foldl SMap.del s.l2Cor }

/-- An uncorrectable word of a valid sector found by an access: a clean sector is refetched (R143), a dirty line is lost (R146). -/
def State.checkErr (s : State) (line i : Nat) (a : L2Acc) : State :=
  let sec := line * 2 + i
  match s.lineOf line with
  | none => s
  | some (n, l) =>
    if l.valid.getLsbD i && !errIn s.l2Err sec && errIn s.l2Cor sec then s.countCorrected n line (2 * 2 ^ i) a.ctx
    else if !(l.valid.getLsbD i && errIn s.l2Err sec) then s
    else if l.dirty.getLsbD i then s.loseLine n false a.ctx
    else s.refetch n line i (2 * 2 ^ i) a

/-- One sector of an access: find the errors of the words it reads, fill it when it is missing and not written whole. -/
def State.needSector (s : State) (line i : Nat) (a : L2Acc) : State :=
  let sec := line * 2 + i
  if !a.secs.getLsbD i then s
  else if a.full.getLsbD i then { (s.forgetWords (goneWords sec 255)) with isoPoison := s.isoPoison.del sec }
  else
    let s := if a.write then s.forgetWords (goneWords sec a.words) else s
    -- a write that is cached reads only the words that it replaces in part
    let blind := a.write && !a.through && !(goneWords sec a.part).any fun w => s.l2Err.has w || s.l2Cor.has w
    let s := if blind then s else s.checkErr line i a
    match s.lineOf line with
    | none => s
    | some (_, l) => if l.valid.getLsbD i || a.through then s else s.fillSector line i a

/-- A write of a sector that is not resident merges at its memory controller: an uncorrectable word that it does not replace leaves the
sector poisoned there (R469), a corrected one is recorded (R142). The controller reads the sector and writes it back under the write's
key (R60). -/
def State.mergeBelow (s : State) (line i : Nat) (a : L2Acc) : State :=
  let sec := line * 2 + i
  if a.full.getLsbD i then
    let s := s.storeBelow sec a.key
    { s with poison := s.poison.del sec }
  else
    let kept := keptWords sec a.words
    let s := if kept.any fun w => s.hbmErr.has w then ({ s with poison := s.poison.ins sec () } : State).lineRecord 7 (2 * 2 ^ i) 0 a.ctx line 0 else s
    let s := if kept.any fun w => s.hbmCor.has w then s.lineRecord 1 (2 * 2 ^ i) 0 a.ctx line 0 else s
    let s := if 64 ≤ a.key then s else s.writePhys (sec * 32) (bytesOf 32 (s.readUnder sec (s.keyOf a.key)).toNat)
    { (s.encrypt sec a.key) with hbmErr := (goneWords sec a.words).foldl SMap.del s.hbmErr, hbmCor := clearErr s.hbmCor sec }

/-- What a write leaves behind in a resident sector: poison cleared by a whole sector (R142), dirty bit and owner tag, or the
write-through of R136. -/
def State.wroteSector (s : State) (line i : Nat) (a : L2Acc) : State :=
  let sec := line * 2 + i
  match s.lineOf line with
  | none => if a.secs.getLsbD i then s.mergeBelow line i a else s
  | some (n, l) =>
    let one : BitVec 2 := BitVec.ofNat 2 (2 ^ i)
    if !a.secs.getLsbD i then s
    else if a.through && !l.valid.getLsbD i then s.mergeBelow line i a
    else
      let s := if a.full.getLsbD i then { s with poison := s.poison.del sec } else s
      if a.through then
        let s := s.storeBelow sec a.key
        { s with l2 := s.l2.ins n { l with dirty := l.dirty &&& ~~~one } }
      else
        let s := s.keepBelow sec
        { s with l2 := s.l2.ins n { l with valid := l.valid ||| one, dirty := l.dirty ||| one, owner := match a.owner with | some o => BitVec.ofNat 6 o | none => l.owner, key := if 64 ≤ a.key then l.key else a.key } }
/-- Switched-out state for which no reserved way is free goes straight to HBM, as a writeback of its context (R138, R149, R235). -/
def State.spillLine (s : State) (line : Nat) (a : L2Acc) : State :=
  [0, 1].foldl (fun s i => if a.secs.getLsbD i then (s.mergeBelow line i a).charge a.ctx 1 32 else s) s

/-- An access to one line of tier 0b00 or 0b01 at its home slice (R136, R137, R168). The bytes themselves are read or written by
the caller. A slice that must retire retires before it takes the access (R145), and a sweep of isolation poison ends before a read of
tier 2 (R45). A write-through that covers no whole sector allocates nothing; what a write covers whole it allocates without a fill (R136). -/
def State.l2Access (s : State) (line : Nat) (a : L2Acc) : State :=
  let s := s.readySlice line
  let s := if s.pkg.sweep && decide (tierOf (line * 64) = .tier2) then s.sweepDone else s
  let s := s.applyLine line
  let hit := (s.wayOf line).isSome
  if a.resv && !hit && (s.wayFor line true).isNone then s.spillLine line a
  else
    -- the sectors that stand in the line afterwards
    let kept : BitVec 2 := if a.bare then 0 else if a.through then a.full else a.secs
    let s := if hit || kept == 0 then s else s.allocate line a
    let s := s.needSector line 0 a
    -- the way was disabled on the way: the sectors still to come take another one, all of them for a write (R136)
    let gone (s : State) : Bool := kept != 0 && (s.wayOf line).isNone
    let lost := gone s && !a.write
    let s := if lost && a.secs.getLsbD 1 then s.allocate line a else s
    let s := s.needSector line 1 a
    let s := if a.write && gone s then ((s.allocate line a).needSector line 0 a).needSector line 1 a else s
    let s := match s.lineOf line with
      | none => s
      | some (n, l) =>
        let r := if hit then min l.rrpv.toNat a.u else a.u
        { s with l2 := s.l2.ins n { l with valid := l.valid ||| (if lost then kept &&& 2 else kept), rrpv := BitVec.ofNat 2 r } }
    if a.write then (s.wroteSector line 0 a).wroteSector line 1 a else s

/-- The sectors of a line that a run of bytes touches, and those it covers whole. -/
def secsOf (line pa n : Nat) : BitVec 2 × BitVec 2 :=
  let t (i : Nat) : Bool := decide (pa < line * 64 + 32 * i + 32 ∧ line * 64 + 32 * i < pa + n)
  let f (i : Nat) : Bool := decide (pa ≤ line * 64 + 32 * i ∧ line * 64 + 32 * i + 32 ≤ pa + n)
  (BitVec.ofNat 2 ((if t 0 then 1 else 0) + (if t 1 then 2 else 0)), BitVec.ofNat 2 ((if f 0 then 1 else 0) + (if f 1 then 2 else 0)))

/-- The lines that a run of bytes touches. -/
def linesOf (pa n : Nat) : List Nat := if n = 0 then [] else (List.range ((pa + n - 1) / 64 - pa / 64 + 1)).map (pa / 64 + ·)

/-- Whether L2 caches an address (R124). -/
def l2Cached (pa : Nat) : Bool := match tierOf pa with | .hbm | .tier2 => true | _ => false

/-- Touch L2 for a read of n bytes. -/
def State.l2Read (s : State) (pa n ctx key u : Nat) : State :=
  if l2Cached pa then (linesOf pa n).foldl (fun s l => s.l2Access l { ctx, key, secs := (secsOf l pa n).1, u }) s else s

/-- The words of a line that bytes under a mask from an address replace whole. -/
def wordsOf (line pa mask : Nat) : BitVec 8 :=
  BitVec.ofNat 8 (((List.range 8).filter fun i => decide (pa ≤ line * 64 + 8 * i) && decide (bits mask (line * 64 + 8 * i - pa) 8 = 255)).foldl (fun t i => t + 2 ^ i) 0)
/-- The words that they replace in part. -/
def partsOf (line pa mask : Nat) : BitVec 8 :=
  BitVec.ofNat 8 (((List.range 8).filter fun i =>
    let a := line * 64 + 8 * i
    let m := if pa ≤ a then bits mask (a - pa) 8 else if pa < a + 8 then bits mask 0 (a + 8 - pa) else 0
    decide (m ≠ 0) && !(wordsOf line pa mask).getLsbD i).foldl (fun t i => t + 2 ^ i) 0)
/-- Touch L2 for a write of n bytes, each line with the access `a` on the sectors and words that the write covers; then write them under a
byte mask. -/
def State.l2Put (s : State) (pa : Nat) (mask : Nat) (b : List Byte) (a : L2Acc) : State :=
  let n := b.length
  let whole := mask % 2 ^ n == 2 ^ n - 1
  let s := if l2Cached pa then
      (linesOf pa n).foldl (fun s l =>
        let (t, f) := secsOf l pa n
        s.l2Access l { a with secs := t, full := if whole then f else 0, words := wordsOf l pa mask, part := partsOf l pa mask, write := true }) s
    else s
  if tierOf pa = .tier2 ∧ s.iso ∧ a.through then s.wdrop
  else { s with mem := writeMasked s.mem pa mask b }
def State.l2Write (s : State) (pa : Nat) (mask : Nat) (b : List Byte) (ctx key : Nat) (owner : Option Nat) (through resv : Bool) : State :=
  s.l2Put pa mask b { ctx, key, secs := 0, owner, through, resv }

/-- Consuming bytes: the cause when a sector is poisoned (R142, R45), 0 for none. -/
def State.consume (s : State) (pa n : Nat) : Cause :=
  if (sectorsOf pa n).any fun k => s.isoPoison.has k && s.poison.has k then 0x241#10
  else if s.poisoned pa n then 0x141#10 else 0

/-- Free room at a slice for a new key of region r: spill a region's entries as one run, or apply the region (R167, steps 1 to 3). The
run is written through: no other copy of its sectors keeps the old bytes (R30, R175). -/
def State.deckRoom (s : State) (r slice : Nat) : State :=
  let here := s.deck.getD (slice * 256 + r) []
  let size := s.deck.foldl (fun t q => if q.1 / 256 == slice then t + q.2.length else t) 0
  let quota := max (bits (s.ioGet (0xD018 + 32 * r)).toNat 0 16) 1
  if here.length < quota ∧ size < 4096 then s
  else
    let biggest := (List.range 256).foldl (fun (b : Nat × Nat) q =>
      let n := (s.deck.getD (slice * 256 + q) []).length
      if b.2 < n then (q, n) else b) (r, 0)
    let c := if 4096 ≤ size ∧ here.isEmpty then biggest.1 else r
    let ck := slice * 256 + c
    let (start, p) := s.spillPart c slice
    let used := (s.runs.getD ck []).foldl (fun t q => t + q.2 * runSize (s.rgnOp c)) 0
    let es := s.deck.getD ck []
    let need := es.length * runSize (s.rgnOp c)
    if used + need ≤ p ∧ ¬ es.isEmpty then
      let b := es.flatMap fun q => runEntry (s.rgnOp c) q.1 q.2
      let own := s.rgnCtx c
      let s := s.charge own 1 need
      let s := (sectorsOf (start + used) need).foldl (fun s k => s.dropCopies k 1000 false) s
      let s := s.l2Put (start + used) (2 ^ need - 1) b { ctx := 64, key := s.ownOf own, secs := 0, through := true, bare := true }
      { s with runs := s.runs.ins ck (s.runs.getD ck [] ++ [(used, es.length)]), deck := s.deck.del ck }
    else s.applyRegion c slice
/-- Room for a key of region r at the home of its line, and a tag for the line. -/
def State.pairRoom (s : State) (key slot r ctx : Nat) : State :=
  let line := key / 64
  let s := if (s.deck.getD (s.home line * 256 + r) []).has key then s else s.deckRoom r (s.home line)
  if (s.wayOf line).isSome then s else s.allocate line { ctx, key := slot, secs := 0 }
/-- Admission of a released pair, whose page has the key slot `slot` (R167). The line has its tag before the entry stands in the deck:
what the allocation evicts is applied without it. A slice that retires meanwhile leaves both to the new home (R145). -/
def State.takePair (s : State) (key slot r v ctx : Nat) : State :=
  let op := s.rgnOp r
  let line := key / 64
  let s := s.readySlice line
  let s := s.charge ctx 2 (opWidth op)
  let entry := deckOf op (s.rgnFxp r) v
  let s := (s.pairRoom key slot r ctx).pairRoom key slot r ctx
  let k := s.home line * 256 + r
  let here := s.deck.getD k []
  let s := { s with deck := s.deck.ins k (here.ins key (match here.get? key with | some d => d.join op entry | none => entry)) }
  match s.lineOf line with
  | some (n, l) => { s with l2 := s.l2.ins n { l with u := true } }
  | none => s

end Sys2Proof.Machine
end

