-- ==== Sys2Proof/Machine/Ops.lean ====
section
/-! DEFINITION. The named operations over registers, scratchpad, tokens, flags and translated memory; landing; rollback, taking a
trap and resuming (R196-R206, R218-R232). -/
namespace Sys2Proof.Machine

/-! Cores. -/

/-- A core right after reset (R82, R103). -/
def Core.reset (c : Nat) : Core := { mhz := Config.stand c 0 }
def State.core (s : State) (c : Nat) : Core := s.cores.getD c (Core.reset c)
def State.setCore (s : State) (c : Nat) (k : Core) : State := { s with cores := s.cores.ins c k }
def State.modCore (s : State) (c : Nat) (f : Core → Core) : State := s.setCore c (f (s.core c))
/-- The core whose bundle is at issue. -/
def State.cur (s : State) : Core := s.core s.issue.core
def State.modCur (s : State) (f : Core → Core) : State := s.modCore s.issue.core f
/-- Control cores are 256 to 263 (R4). -/
def isCtl (c : Nat) : Bool := decide (256 ≤ c)
/-- The context that a core runs for: none for a control core (R429) or an idle core. -/
def State.ctxOf (s : State) (c : Nat) : Nat := if isCtl c then 64 else match (s.core c).chunk with | some k => k.ctx | none => 64
/-- Who accesses memory: a control core's main sequencer is the supervisor (R429). -/
def State.who (s : State) : Who := ⟨s.ctxOf s.issue.core, isCtl s.issue.core && !s.issue.svc, s.issue.core⟩
def State.supervisor (s : State) : Bool := isCtl s.issue.core && !s.issue.svc

/-! Registers. -/

def Core.rS (c : Core) (r : Nat) : Word := c.arch.s.getD r 0
def Core.rX (c : Core) (r : Nat) : Word := c.arch.x.getD r 0
def Core.rV (c : Core) (r : Nat) : Vec := c.arch.v.getD r 0
def Core.rK (c : Core) (r : Nat) : Vec := c.arch.k.getD r 0
def Core.rD (c : Core) (r : Nat) : Desc512 := c.arch.d.getD r 0
/-- p0 reads all ones (R201). -/
def Core.rP (c : Core) (r : Nat) : Word := if r = 0 then BitVec.allOnes 64 else c.arch.p.getD r 0
def Core.rE (c : Core) (r : Nat) : Word := c.e.getD r 0
def Core.rF (c : Core) (r : Nat) : Half := c.arch.f.getD r 0

/-- A register of the S or X slot: the service sequencer names e0-e7 (R196, R315). -/
def State.gpr (s : State) (sl : Slot) (r : BitVec 5) : Word :=
  if s.issue.svc then s.cur.rE r.toNat else if sl = .x then s.cur.rX r.toNat else s.cur.rS r.toNat

/-- Word w of a descriptor register (R409). -/
def dWord (d : Desc512) (w : Nat) : Word := d.extractLsb' (64 * w) 64
/-- Element j of width e of a vector register (R351). -/
def elem (e : Nat) (v : Vec) (j : Nat) : Nat := v.toNat / 2 ^ (e * j) % 2 ^ e
/-- Element 0 at width 64, as a base or index (R374). -/
def v64 (v : Vec) : Word := v.setWidth 64

/-! Landing (R204, R205, R212, R213). -/

/-- The units of R212. -/
inductive LatUnit where
  | salu | xalu | vint | vflt | xfer | sload
deriving DecidableEq, Repr

/-- The latencies of this part (R204). -/
def LatUnit.lat : LatUnit → Nat
  | .salu => 1 | .xalu => 1 | .vint => 2 | .vflt => 4 | .xfer => 2 | .sload => 6
/-- Place of the declaration in LATDECL (R212). -/
def LatUnit.lo : LatUnit → Nat
  | .salu => 0 | .xalu => 4 | .vint => 8 | .vflt => 12 | .xfer => 16 | .sload => 20
/-- Where a result of a unit lands: its declared position under stretch (R213). -/
def Core.latency (c : Core) (u : LatUnit) : Nat := if c.latdecl.getLsbD 24 then bits c.latdecl.toNat u.lo 4 else u.lat

def Core.landIn (c : Core) (left : Nat) (dst : Dest) (val mask : Vec) : Core :=
  { c with arch := { c.arch with lands := c.arch.lands ++ [⟨left, dst, val, mask⟩] } }
/-- Land(reg, value, L) with the latency of a unit, under a bit mask. -/
def State.land (s : State) (u : LatUnit) (dst : Dest) (val mask : Vec) : State :=
  s.modCur fun c => c.landIn (c.latency u) dst val mask
def full64 : Vec := BitVec.ofNat 1024 (2 ^ 64 - 1)
def fullVec : Vec := BitVec.allOnes 1024

/-- A 64-bit result of the S or X slot lands in its register; on the service sequencer the next bundle reads it (R196). -/
def State.landG (s : State) (sl : Slot) (d : BitVec 5) (v : Word) : State :=
  if s.issue.svc then s.modCur fun c => { c with svc := { c.svc with lands := c.svc.lands ++ [(d.toNat, v)] } }
  else if sl = .x then s.land .xalu (.x d.toNat) (v.setWidth 1024) full64
  else s.land .salu (.s d.toNat) (v.setWidth 1024) full64
/-- A predicate result; a write to p0 is discarded (R201). -/
def State.landP (s : State) (u : LatUnit) (pd : BitVec 4) (v mask : Word) : State :=
  if pd = 0 then s else s.land u (.p pd.toNat) (v.setWidth 1024) (mask.setWidth 1024)
def State.landV (s : State) (u : LatUnit) (d : BitVec 5) (v mask : Vec) : State := s.land u (.v d.toNat) v mask

/-- The 32 bytes of a scratchpad sector as a number, little-endian. -/
def Core.spSector (c : Core) (k : Nat) : BitVec 256 := BitVec.ofNat 256 (natOf (readMap c.sp (k * 32) 32))
/-- Bytes of a mask of bits: bit i is set when byte i of the mask is. -/
def byteMask (n : Nat) (m : Nat) : Nat := ((List.range n).filter fun i => m / 2 ^ (8 * i) % 256 != 0).foldl (fun t i => t + 2 ^ i) 0
/-- 0xFF in byte i for each set bit i. -/
def spread (n m : Nat) : Nat := ((List.range n).filter fun i => m.testBit i).foldl (fun t i => t + 255 * 2 ^ (8 * i)) 0

/-- Errors of the scratchpad words that a write of bytes under a mask replaces whole (R131). -/
def Core.spFresh (c : Core) (k mask : Nat) : Core :=
  let gone (m : SMap Unit) : SMap Unit := ((List.range 4).filter fun i => bits mask (8 * i) 8 == 255).foldl (fun m i => m.del (k * 4 + i)) m
  { c with spErr := gone c.spErr, spCor := gone c.spCor }
/-- Poison of the scratchpad after bytes of a sector are written (R142). -/
def Core.spWrote (c : Core) (k : Nat) (whole poisoned : Bool) : Core :=
  let c := if whole then c.spFresh k (2 ^ 32 - 1) else c
  if poisoned then { c with spPoison := c.spPoison.ins k () }
  else if whole then { c with spPoison := c.spPoison.del k } else c

/-- Poison of a tile after bytes [off, off + n) are written from clean data (R142). -/
def Tile.wrote (t : Tile) (off n : Nat) : Tile :=
  (List.range 512).foldl (fun t i =>
    if off ≤ 32 * i ∧ 32 * i + 32 ≤ off + n then { t with poison := t.poison &&& ~~~(BitVec.ofNat 512 (2 ^ i)), paddr := t.paddr.del i } else t) t

/-- The window that covers a scratchpad sector. -/
def Core.winOfSp (c : Core) (sa : Nat) : Option (Nat × Window) :=
  c.wins.find? fun q => q.2.en && decide (q.2.spbase ≤ sa ∧ sa < q.2.spbase + 64 * q.2.size)
/-- Bytes of a sector noted as written, when it lies in a stash window (R132). -/
def Core.stashMark (c : Core) (k : Nat) (bmask : Nat) : Core :=
  if (c.winOfSp (k * 32)).isSome then
    let t := (c.stash.get? k).getD {}
    { c with stash := c.stash.ins k { t with mask := t.mask ||| BitVec.ofNat 32 bmask } }
  else c

/-- One result lands. A scratchpad store made through a stash window marks its bytes written as they land. -/
def Core.landOne (c : Core) (l : Landing) : Core :=
  let a := c.arch
  let w64 (m : SMap Word) (r : Nat) : SMap Word := m.put 0 r (blend (m.getD r 0) (l.val.setWidth 64) (l.mask.setWidth 64))
  match l.dst with
  | .s r => { c with arch := { a with s := w64 a.s r } }
  | .x r => { c with arch := { a with x := w64 a.x r } }
  | .p r => { c with arch := { a with p := w64 a.p r } }
  | .v r => { c with arch := { a with v := a.v.put 0 r (blend (a.v.getD r 0) l.val l.mask) } }
  | .k r => { c with arch := { a with k := a.k.put 0 r (blend (a.k.getD r 0) l.val l.mask) } }
  | .kp r => { c with arch := { a with kp := a.kp.put 0 r (blend (a.kp.getD r 0) (l.val.setWidth 4) (l.mask.setWidth 4)) } }
  | .d r => { c with arch := { a with d := a.d.put 0 r (blend (a.d.getD r 0) (l.val.setWidth 512) (l.mask.setWidth 512)) } }
  | .tcfg t =>
    -- the write invalidates both roles (R246, R327)
    let old := c.tiles.getD t {}
    { c with arch := { a with tcfg := a.tcfg.put 0 t (l.val.setWidth 32) }
             tiles := c.tiles.put {} t { old with a := { old.a with valid := false }, b := { old.b with valid := false } } }
  | .sp k =>
    let m := byteMask 32 (l.mask.toNat % 2 ^ 256)
    let c := if l.mask.getLsbD 257 then c.stashMark k m else c
    ({ c with sp := writeMasked c.sp (k * 32) m (bytesOf 32 (l.val.toNat % 2 ^ 256)) }.spFresh k m).spWrote k (m == 2 ^ 32 - 1) (l.mask.getLsbD 256)
  | .tile t off =>
    let old := c.tiles.getD t {}
    let m : TileBytes := (l.mask.setWidth 131072) <<< (8 * off)
    let v : TileBytes := (l.val.setWidth 131072) <<< (8 * off)
    let bm := byteMask 128 l.mask.toNat * 2 ^ (off % 32)
    let nt : Tile := { old with bytes := blend old.bytes v m, a := { old.a with valid := false }, b := { old.b with valid := false } }
    let nt := (List.range 5).foldl (fun t i => if bm / 2 ^ (32 * i) % 2 ^ 32 = 2 ^ 32 - 1 then t.wrote (off / 32 * 32 + 32 * i) 32 else t) nt
    { c with tiles := c.tiles.ins t nt }

/-- One issued bundle goes by: results whose position it is land, in order of issue (R204, R205). -/
def Core.tick (c : Core) : Core :=
  let due := c.arch.lands.filter fun l => decide (l.left ≤ 1)
  let rest := (c.arch.lands.filter fun l => decide (1 < l.left)).map fun l => { l with left := l.left - 1 }
  due.foldl Core.landOne { c with arch := { c.arch with lands := rest } }

/-- Every result in flight lands, in order of issue (R331). -/
def Core.landAll (c : Core) : Core := c.arch.lands.foldl Core.landOne { c with arch := { c.arch with lands := [] } }

/-- The address of the service sequencer's next bundle. -/
def Core.svcAt (c : Core) (pc : Word) : Core := { c with svc := { c.svc with pc := pc } }
/-- Results of the service sequencer become visible. -/
def Core.svcLand (c : Core) : Core :=
  { c with e := c.svc.lands.foldl (fun m q => m.put 0 q.1 q.2) c.e, svc := { c.svc with lands := [] } }

/-! Guards (R201). -/

def Core.guardBit (c : Core) (o : OpInfo) (i : Nat) : Bool := (c.rP o.pn.toNat).getLsbD i != o.pi
/-- The guard of a scalar operation: bit 0. -/
def State.guard0 (s : State) (o : OpInfo) : Bool := s.cur.guardBit o 0
/-- The guard of element j at width e: bit floor(j × e ÷ 16). -/
def State.guardE (s : State) (o : OpInfo) (e j : Nat) : Bool := s.cur.guardBit o (j * e / 16)
/-- Bits of the elements whose guard is true, for n elements of e bits. -/
def State.guardMask (s : State) (o : OpInfo) (e n : Nat) : Vec :=
  BitVec.ofNat 1024 (((List.range n).filter fun j => s.guardE o e j).foldl (fun t j => t + (2 ^ e - 1) * 2 ^ (e * j)) 0)

/-! Results of an operation. -/

abbrev Res := Except TrapInfo State
def trapC {α : Type} (c : Cause) : Except TrapInfo α := .error { cause := c }
def trapA {α : Type} (c : Cause) (va : Nat) : Except TrapInfo α := .error { cause := c, faddr := BitVec.ofNat 64 va }
/-- Raise a cause when a condition holds. -/
def raiseIf (b : Bool) (c : Cause) : Except TrapInfo Unit := if b then trapC c else .ok ()
def raiseAt (b : Bool) (c : Cause) (va : Nat) : Except TrapInfo Unit := if b then trapA c va else .ok ()

/-! Wait tokens (R202). -/

def Arch.tokOf (a : Arch) (t : Nat) : Token := a.tok.getD t {}
def Arch.setTok (a : Arch) (t : Nat) (v : Token) : Arch := { a with tok := a.tok.put {} t v }
/-- Add n to the count of a token, or 0x0C2. -/
def State.tokAdd (s : State) (t n : Nat) : Res :=
  let k := s.cur.arch.tokOf t
  if 255 < k.cnt + n then trapC 0x0C2#10
  else .ok (s.modCur fun c => { c with arch := c.arch.setTok t { k with cnt := k.cnt + n } })
/-- One operation of a token completes, perhaps with a cause: the first cause is recorded. -/
def Arch.tokDone (a : Arch) (t : Nat) (cause : Cause) : Arch :=
  let k := a.tokOf t
  a.setTok t { cnt := k.cnt - 1, cause := if k.cause = 0 then cause else k.cause }
/-- The same on a core; `released` reaches the checkpoint copy too (R202). -/
def Core.tokDone (c : Core) (t : Nat) (cause : Cause) (released : Bool) : Core :=
  let c := { c with arch := c.arch.tokDone t cause }
  if released then { c with seg := { c.seg with ck := c.seg.ck.tokDone t cause } } else c

/-! Flags (R199, R340). -/

def Arch.flagAdd (a : Arch) (f : Nat) (n : Half) : Arch := { a with f := a.f.put 0 f (a.f.getD f 0 + n) }
def Arch.flagSet (a : Arch) (f : Nat) (v : Half) : Arch := { a with f := a.f.put 0 f v }
/-- A change by another agent or by the service sequencer: it outlives a rollback (R199). -/
def Core.flagForeign (c : Core) (f : Nat) (n : Half) : Core :=
  { c with arch := c.arch.flagAdd f n, seg := { c.seg with ck := c.seg.ck.flagAdd f n } }
/-- A change by the main sequencer itself. -/
def Core.flagOwn (c : Core) (f : Nat) (n : Half) : Core := { c with arch := c.arch.flagAdd f n }

/-! Scratchpad (R131, R376). -/

/-- Steps 2 and 3 of R376 on one address. -/
def Core.spCheck (c : Core) (ctl : Bool) (sa : Nat) : Except TrapInfo Unit :=
  if 2 ^ 20 ≤ sa then trapC 0x086#10
  else if !ctl && !c.kernel.bmask.getLsbD (sa / 65536) then trapC 0x087#10
  else .ok ()
def State.spCheck (s : State) (sa : Nat) : Except TrapInfo Unit := s.cur.spCheck (isCtl s.issue.core) sa

/-- The window that covers a virtual address. -/
def Core.winOfVa (c : Core) (va : Nat) : Option (Nat × Window) :=
  c.wins.find? fun q => q.2.en && decide (q.2.gva.toNat ≤ va ∧ va < q.2.gva.toNat + 64 * q.2.size)

/-- The two copies of a shadowed buffer, as the plan word places them: first byte and size (R134, R294). -/
def planBuf (w : Word) : Nat × Nat := (bits w.toNat 28 4 * 65536 + bits w.toNat 0 16, bits w.toNat 16 12 * 32)
/-- A scratchpad address as its copies stand: a set mapping bit exchanges the two copies of a shadowed buffer (R134). -/
def Core.spVis (c : Core) (sa : Nat) : Nat :=
  match (c.kernel.plan.zip (List.range c.kernel.plan.length)).find? fun q =>
      q.1.getLsbD 32 && c.arch.shadow.getD q.2 false && decide ((planBuf q.1).1 ≤ sa ∧ sa < (planBuf q.1).1 + 2 * (planBuf q.1).2) with
  | none => sa
  | some q => if sa < (planBuf q.1).1 + (planBuf q.1).2 then sa + (planBuf q.1).2 else sa - (planBuf q.1).2
/-- Where an engine write to an address lands: the copy of a shadowed buffer that was hidden under the mapping bits `m` (R134, R414), and
whether it is hidden. -/
def Core.spHid (c : Core) (m : SMap Bool) (sa : Nat) : Nat × Bool :=
  match c.kernel.plan.find? fun w => w.getLsbD 32 && decide ((planBuf w).1 ≤ sa ∧ sa < (planBuf w).1 + (planBuf w).2) with
  | none => (sa, false)
  | some w => ({ c with arch := { c.arch with shadow := m } }.spVis (sa + (planBuf w).2), true)

/-- The words of a sector that a map of words names, and the map with those words for the sector. -/
def wordBits (m : SMap Unit) (k : Nat) : BitVec 4 := BitVec.ofNat 4 (((List.range 4).filter fun i => m.has (k * 4 + i)).foldl (fun t i => t + 2 ^ i) 0)
def setWords (m : SMap Unit) (k : Nat) (b : BitVec 4) : SMap Unit := (List.range 4).foldl (fun m i => m.mark (k * 4 + i) (b.getLsbD i)) m
/-- Undo entry for the first write of the segment to a sector (R220, R222): its bytes with the errors of their words, which poison them
(R131). From then on the mask of a stash sector counts the segment's own bytes. -/
def Core.undoFor (c : Core) (k : Nat) : Except TrapInfo Core :=
  if c.seg.undo.any fun u => u.sector == k then .ok c
  else if 512 ≤ c.seg.undo.length then trapC 0x1C3#10
  else .ok { c with
    seg := { c.seg with undo := ⟨k, c.spSector k, c.spPoison.has k || errIn c.spErr k, c.stash.get? k, wordBits c.spErr k, wordBits c.spCor k⟩ :: c.seg.undo }
    stash := match c.stash.get? k with | some t => c.stash.ins k { t with mask := 0 } | none => c.stash }

/-- An operation that cannot issue yet: the whole bundle waits (R208). -/
def State.stallNow (s : State) : State := { s with issue := { s.issue with stall := true } }
/-- Stalls are inserted at group boundaries only (R207, R208). -/
def State.mayStall (s : State) : Bool := s.cur.grp.n == 0

/-! Copy-on-write pool (R220, R224). -/

def Core.tile (c : Core) (t : Nat) : Tile := c.tiles.getD t {}
def Core.acc (c : Core) (a : Nat) : Acc := c.accs.getD a {}
/-- The first write of the segment to a tile takes a slot. -/
def Core.cowTile (c : Core) (t : Nat) : Except TrapInfo Core :=
  if c.seg.pool.any fun q => match q with | .tile i _ => i == t | _ => false then .ok c
  else if 8 ≤ c.seg.pool.length then trapC 0x1C1#10
  else .ok { c with seg := { c.seg with pool := .tile t (c.tile t) :: c.seg.pool } }
def Core.cowAcc (c : Core) (a : Nat) : Except TrapInfo Core :=
  if c.seg.pool.any fun q => match q with | .acc i _ => i == a | _ => false then .ok c
  else if 8 ≤ c.seg.pool.length then trapC 0x1C1#10
  else .ok { c with seg := { c.seg with pool := .acc a (c.acc a) :: c.seg.pool } }

/-- Operations that the segment withholds. -/
def Rel.takesEntry : Rel → Bool
  | .mark _ _ => false
  | .late _ p => p
  | _ => true
def Core.withheld (c : Core) : List Rel := c.seg.rel.filter Rel.takesEntry
/-- One resident chunk of a context, of those that the core has switched out (R343 names no order among several: the one it switched out
last; DESIGN CHOICE, log 87). -/
def Core.modResident (c : Core) (ctx : Nat) (f : Saved → Saved) : Core :=
  let rec go : List Saved → List Saved
    | [] => []
    | r :: l => if r.chunk.ctx = ctx then f r :: l else r :: go l
  { c with resident := go c.resident }
/-- Whether the first n of them hold one that is no mark. -/
def Core.withheldIn (c : Core) (n : Nat) : Bool := (c.seg.rel.take n).any Rel.takesEntry
/-- Entries of the release buffer in use. An arrival has its entry from the issue of its operation on, so that the limit is found before
that operation has an effect (R220; DEDUCED, log 84). -/
def Core.relCount (c : Core) : Nat := c.withheld.length
/-- The entry of the barrier arrival that operation `seq` makes when it retires. -/
def Core.arrivalDue (c : Core) (arr : Option Arrival) (seq : Nat) : Core :=
  match arr with
  | some (.barrier g) => { c with seg := { c.seg with rel := c.seg.rel ++ [.due seq g.toNat] } }
  | _ => c
/-- A release-buffer entry, or 0x1C2 (R220). -/
def Core.release (c : Core) (r : Rel) : Except TrapInfo Core :=
  if 512 ≤ c.relCount then trapC 0x1C2#10 else .ok { c with seg := { c.seg with rel := c.seg.rel ++ [r] } }

/-! Rollback (R224) and the trap record (R229). -/

/-- Restore the sectors of the undo log, newest first (R224 step 4). -/
def Core.unwindUndo (c : Core) : Core :=
  c.seg.undo.foldl (fun c u =>
    let c := { c with
      sp := writeMap c.sp (u.sector * 32) (bytesOf 32 u.bytes.toNat), spPoison := c.spPoison.mark u.sector u.poison
      spErr := setWords c.spErr u.sector u.err, spCor := setWords c.spCor u.sector u.cor }
    if (c.winOfSp (u.sector * 32)).isSome then
      match u.stash with
      | none => { c with stash := c.stash.del u.sector }
      | some b => { c with stash := c.stash.ins u.sector b }
    else c) c
/-- Restore the pool (R224 step 5). A role that mcv or a pass computed stays with a tile that is not restored (R247, R401). -/
def Core.unwindPool (c : Core) : Core :=
  c.seg.pool.foldl (fun c q => match q with
    | .tile t o => { c with tiles := c.tiles.ins t o }
    | .acc a o => { c with accs := c.accs.ins a o }) c

/-- The rollback of the main sequencer, steps 1 to 6 of R224: the core stands at its checkpoint. -/
def Core.rollback (c : Core) : Core :=
  let c := { c with mq := [], loads := [], atoms := [], cmds := c.cmds.filter (·.released), aq := [], dq := [], watches := [] }
  let c := c.unwindUndo.unwindPool
  { c with
    b0 := c.cb0, b1 := c.cb1, arch := c.seg.ck, pc := c.seg.ckaddr, grp := {}, lbuf := []
    seg := { c.seg with
      rel := [], undo := [], pool := [], logPos := 0, q := 0, staged0 := 0, staged1 := 0, forks := [], posts := c.seg.posts.filter (·.committed), later := []
      count := 0, exiting := false, rolls := min (c.seg.rolls + 1) 255, restart := true } }

/-- A FORK reservation is freed (R223). -/
def State.freeForks (s : State) (c : Nat) : State :=
  (s.core c).seg.forks.foldl (fun s f => s.modCore f.1 fun k => if k.reserved = some c then { k with reserved := none } else k) s

/-- Severity C of R238: the park is context-fatal. -/
def contextFatal (c : Cause) : Bool :=
  c == 0x142#10 || c == 0x144#10 || c == 0x145#10 || c == 0x1C5#10 || c == 0x1C8#10 || c == 0x1C9#10

/-- Bytes of a trap record (R229). -/
def TrapRec.bytes (r : TrapRec) : List Byte :=
  bytesOf 2 r.cause.toNat ++ bytesOf 1 r.slot.toNat ++ bytesOf 1 r.kind.toNat ++ bytesOf 1 r.ctx.toNat ++ bytesOf 1 r.rolls.toNat ++
    bytesOf 2 r.core.toNat ++ bytesOf 8 r.baddr.toNat ++ bytesOf 8 r.faddr.toNat ++ bytesOf 8 r.ckaddr.toNat ++ bytesOf 8 r.lrec.toNat ++
    bytesOf 4 r.seglen.toNat ++ bytesOf 4 0 ++ bytesOf 8 r.time.toNat ++ bytesOf 8 r.info.toNat

/-- Package-fatal (R71): the first cause stands. A dump starts, unless one is in the granule (LOST); a second condition makes a dump
that is being written partial (R73, R74). After a dump that ended with FAIL, READY reads 0: a further condition starts another dump, and FAIL stays at
1, of which the spec says nothing (DESIGN CHOICE, log 110). -/
def State.packageFatal (s : State) (c : Cause) : State :=
  let stat := s.ioGet 0x0808
  let s := { s with fatal := if s.fatal = 0 then c else s.fatal }
  if stat.getLsbD 0 then s.ioSet 0x0808 (setBits stat 16 16 (min (bits stat.toNat 16 16 + 1) 0xFFFF))
  else if s.pkg.dumping then { s with pkg := { s.pkg with dumpPartial := true } }
  else { s with pkg := { s.pkg with dumping := true } }

/-- After a 0x043: the A role of the pass's tile is invalid and the bank's corrections are stale (R248). -/
def Core.staleBank (c : Core) (b : Bool) (t : Nat) : Core :=
  let old := c.tile t
  let c := { c with tiles := c.tiles.ins t { old with a := { old.a with valid := false } } }
  if b then { c with b1 := { c.b1 with stale := true }, cb1 := { c.cb1 with stale := true } }
  else { c with b0 := { c.b0 with stale := true }, cb0 := { c.cb0 with stale := true } }

/-- Bundles counted before the one at the pc: EXIT has been counted while it waits for its commit (R219, R229). -/
def Seg.before (g : Seg) : Nat := if g.exiting then g.count - 1 else g.count
/-- Taking a trap on the main sequencer of core c: rollback, trap record, park, and delivery to the fault-service queue
(R224, R229, R230). A trap of core 256 itself is package-fatal (R234). `kind` is KIND of the record. -/
def State.park (s : State) (c : Nat) (t : TrapInfo) (haddr : Word) (kind : Nat) : State :=
  let k := s.core c
  -- a rollback that meets an error in what it restores from (R238)
  let (t, kind) : TrapInfo × Nat := if k.keepErr ∧ kind ≠ 5 then ({ cause := if isCtl c then 0x208#10 else 0x145#10, slot := t.slot }, 4) else (t, kind)
  let site := t.site.getD (haddr, k.seg.before)
  let s := s.freeForks c
  let k := (s.core c).rollback
  let k := match t.token with
    | some n =>
      let clr (a : Arch) : Arch := a.setTok n { a.tokOf n with cause := 0 }
      { k with arch := clr k.arch, seg := { k.seg with ck := clr k.seg.ck } }
    | none => k
  let k := match t.stale with | some (b, tl) => k.staleBank b tl | none => k
  let r : TrapRec :=
    { cause := t.cause, slot := t.slot, kind := BitVec.ofNat 8 kind, ctx := BitVec.ofNat 6 (s.ctxOf c), rolls := BitVec.ofNat 8 k.seg.rolls
      core := BitVec.ofNat 16 c, baddr := site.1, faddr := t.faddr, ckaddr := k.seg.ckaddr
      lrec := (match k.chunk with | some ch => ch.lrec | none => 0), seglen := BitVec.ofNat 32 site.2, time := s.tmr, info := t.info }
  let s := s.setCore c { k with run := .parked, trec := r, keepErr := false }
  let s := if kind = 3 ∨ kind = 5 then s else { s with recq := s.recq ++ [⟨1, 0, r.bytes, some c⟩] }
  -- an uncorrectable error in a control core's state is package-fatal (R71)
  if t.cause = 0x208#10 then s.packageFatal 0x208#10 else if c = 256 then s.packageFatal 0x20C#10 else s

/-- A cause of the service sequencer stops its handler; the main sequencer stops at its next commit (R227). -/
def State.parkSvc (s : State) (c : Nat) (t : TrapInfo) (haddr : Word) : State :=
  s.modCore c fun k => { k with svc := { k.svc with busy := false, hold := [], trap := some ({ t with slot := 0xD }, haddr) } }

/-- A first CHK mismatch rolls back and restarts without a record (R215). -/
def State.chkReplay (s : State) (c : Nat) : State :=
  if (s.core c).keepErr then s.park c { cause := 0x145#10 } s.issue.haddr 4
  else
    let s := s.freeForks c
    s.modCore c fun k => let k := k.rollback; { k with seg := { k.seg with replayed := true, again := false } }

/-- Taking a cause that the bundle at issue raised: the ONE place where an operation becomes a trap. -/
def State.takeTrap (s : State) (t : TrapInfo) : State :=
  let c := s.issue.core
  -- its own access found the loss of a dirty line: the core stops as the others do, and no record is queued (R146, R463)
  let s' := if t.cause = 0x142#10 then
      (if s.issue.svc then s.modCore c fun k => { k with svc := { k.svc with busy := false, hold := [], lands := [] } } else s).park c { t with slot := 0xF } s.issue.haddr 5
    else if s.issue.svc then s.parkSvc c t s.issue.haddr
    else if t.cause = 0x140#10 then
      (if (s.core c).seg.replayed then s.park c { t with cause := 0x144#10 } s.issue.haddr 4 else s.chkReplay c)
    else s.park c t s.issue.haddr (if contextFatal t.cause then 4 else 1)
  { s' with issue := { s'.issue with trap := some t } }

/-- The return from a trap: resume a parked core at its checkpoint (R232, R433). -/
def State.resume (s : State) (c : Nat) : State :=
  s.modCore c fun k => if k.run = .parked then { k with run := .running } else k

/-! Energy (R84-R87, R149). -/

def Core.eCap (c : Core) : Nat := bits c.eprof.toNat 0 32
def Core.eLeak (c : Core) : Nat := bits c.eprof.toNat 44 20
/-- Units are added: a service bundle's to the service bucket while it has room (R86). -/
def Core.addUnits (c : Core) (n : Nat) (svc : Bool) : Core :=
  let room : Rat := (c.eCap : Rat) / 16 - c.elvlS
  let own : Rat := if svc then (if room < 0 then 0 else if (n : Rat) < room then n else room) else 0
  { c with elvlS := c.elvlS + own, elvl := c.elvl + ((n : Rat) - own) }
/-- The same, counted for the context of the core's chunk (R149). -/
def State.spend (s : State) (core n : Nat) (svc : Bool) : State :=
  (s.modCore core fun c => c.addUnits n svc).charge (s.ctxOf core) 3 n
/-- No engine of the core starts a new pass or part of a transfer (R87). -/
def Core.enginesHeld (c : Core) : Bool := decide ((c.eCap : Rat) * 3 / 2 < c.elvl)
/-- ENGW field i (R84). -/
def engUnits (i : Nat) : Nat := bits Config.engw.toNat (8 * i) 8
/-- Units of a copy of n bytes. -/
def copyUnits (n : Nat) : Nat := engUnits 4 * ((n + 255) / 256)
/-- Units of a pass of a format: 8-bit and E2M1S, 16-bit, FP32, FP64. -/
def passUnits (fmt : Nat) : Nat := engUnits (match fmt with | 9 => 2 | 10 => 3 | 2 => 1 | 7 => 1 | 8 => 1 | _ => 0)

end Sys2Proof.Machine
end

