-- ==== Sys2Proof/Machine/Global.lean ====
section
/-! DEFINITION. Accesses of an agent to physical memory: recalls of stash sectors, links, home slice (R30, R31, R43-R45, R133, R136,
R142, R175), and the stash and load paths of a core (R132, R139, R177). -/
namespace Sys2Proof.Machine

/-! Errors of the scratchpad (R131, R148). -/

/-- Reading sectors of a core's scratchpad finds their errors: an uncorrectable word poisons its sector, a corrected one is written
back. UNIT and SET of a corrected word's record are not given: as for KIND 0x06 (DESIGN CHOICE, log 71). -/
def State.spScan (s : State) (core sa n : Nat) : State :=
  (sectorsOf sa n).foldl (fun s k =>
    let c := s.core core
    let bad := errIn c.spErr k
    let cor := errIn c.spCor k
    if !bad && !cor then s
    else
      let s := s.setCore core { c with
        spErr := clearErr c.spErr k, spCor := clearErr c.spCor k, spPoison := if bad then c.spPoison.ins k () else c.spPoison }
      s.record (if bad then 6 else 1) (2 * 2 ^ (k % 2)) 0 (reqByte (s.ctxOf core)) core (k * 32 / 64) 0 0) s

/-! Recalls (R133). -/

/-- What a core answers to a recall: mask, bytes and poison of the sector. -/
abbrev Recalled := Nat × List Byte × Bool
/-- A core answers a recall: its written bytes as of its last commit, and the core after it. -/
def Core.answerRecall (c : Core) (k : Nat) (t : StashSector) : Recalled × Core :=
  match c.seg.undo.find? fun u => u.sector == k with
  | some u =>
    match u.stash with
    | some o =>
      ((o.mask.toNat, bytesOf 32 u.bytes.toNat, u.poison),
        { c with seg := { c.seg with undo := c.seg.undo.map fun v => if v.sector = k then { v with stash := some { o with mask := 0 } } else v } })
    | none => ((0, [], false), c)
  | none => ((t.mask.toNat, bytesOf 32 (c.spSector k).toNat, c.spPoison.has k), { c with stash := c.stash.ins k { t with mask := 0 } })

/-- The home slice has the written bytes of a stash sector: a masked store under the key of its page with the core's context as owner;
poison moves with them (R60, R133, R136, R142). -/
def State.stashPut (s : State) (core pa key : Nat) (r : Recalled) : State :=
  if r.1 = 0 then s
  else
    let ctx := s.ctxOf core
    let s := s.dropCopies (pa / 32) core true
    let s := s.l2Write pa r.1 r.2.1 ctx key (if ctx < 64 then some ctx else none) false false
    if r.2.2 then { s with poison := s.poison.ins (pa / 32) () } else s

/-- Recall a sector from every stash but that of core `except` (R133); an atomic excepts none (R156). The read of the scratchpad finds its
errors (R131). -/
def State.recall (s : State) (sector : Nat) (except : Nat) : State :=
  s.cores.foldl (fun s q =>
    if q.1 = except then s
    else (s.core q.1).stash.foldl (fun s e =>
      if e.2.pa = some sector then
        let s := s.spScan q.1 (e.1 * 32) 32
        let (r, c) := (s.core q.1).answerRecall e.1 e.2
        (s.setCore q.1 c).stashPut q.1 (sector * 32) e.2.key r
      else s) s) s

/-! Accesses. -/

/-- Who makes an access, for recalls, charging and owner tags: core id (264 host, 265 Distributor), context, and whether its
writes are written through (R136). -/
structure Agent where
  id : Nat
  ctx : Nat
  through : Bool
deriving DecidableEq, Repr

def agentOf (core ctx : Nat) : Agent := ⟨core, ctx, isCtl core⟩

/-- The cause with which an access to a tier ends at once (R31, R43), 0 for none. With ISO = 1 and no expander linked both R43 (0x242)
and R45 step 3 (0x241) speak; the spec does not say which: the model gives 0x242 (DESIGN CHOICE, log 69). -/
def State.linkCause (s : State) (pa : Nat) : Cause :=
  match tierOf pa with
  | .host => if s.pkg.hostUp then 0 else 0x244#10
  | .tier2 => if (s.ioGet 0x0508).getLsbD 1 then 0 else 0x242#10
  | _ => 0

/-- A line of host memory that this package reads or writes is in the host-line cache, exclusive once written (R29, R152). The cache
holds at most 4,096 lines; which one leaves a full cache the spec does not say: here the lowest (DESIGN CHOICE, log 70). -/
def hostAdd (m : SMap Bool) (line : Nat) (excl : Bool) : SMap Bool :=
  let e := excl || m.getD line false
  let m := if m.has line || decide (m.length < 4096) then m else m.drop 1
  m.ins line e
/-- The line that leaves the cache for a new one. -/
def hostLost (m : SMap Bool) (line : Nat) : Option Nat := if m.has line || decide (m.length < 4096) then none else m.head?.map Prod.fst
/-- A line enters the cache; sleeps on the line that leaves it end (R37, R329). -/
def State.hostEnter (s : State) (line : Nat) (excl : Bool) : State :=
  let s' : State := { s with pkg := { s.pkg with hostCache := hostAdd s.pkg.hostCache line excl } }
  match hostLost s.pkg.hostCache line with
  | some l => s'.wake l
  | none => s'
def State.hostTouch (s : State) (pa n : Nat) (excl : Bool) : State :=
  if tierOf pa = .host then (linesOf pa n).foldl (fun s l => s.hostEnter l excl) s else s
/-- The core's next host access within a step takes longer than 1 ms: it ends with 0x240 (R31; log 92). -/
def State.hostLate (s : State) (core pa : Nat) : Bool := tierOf pa == .host && decide (core < 264) && (s.core core).hostSlow
def State.hostOver (s : State) (core : Nat) : State := s.modCore core fun c => { c with hostSlow := false }

/-- A read of n bytes at its home: the cause of a failed or poisoned read, and the bytes (R142, R152, R174). -/
def State.fetchData (s : State) (a : Agent) (pa n key u : Nat) : (Cause × List Byte) × State :=
  let link := s.linkCause pa
  if link ≠ 0 then ((link, []), s)
  else if s.hostLate a.id pa then ((0x240#10, []), s.hostOver a.id)
  else
    let s := (sectorsOf pa n).foldl (fun s k => s.recall k a.id) s
    let s := (s.l2Read pa n a.ctx key u).hostTouch pa n false
    ((s.consume pa n, s.readPhys pa n), s)

/-- A write of bytes under a mask performed at its home (R136, R142, R152, R175): the cause when the link is down, or when isolation
discards it. Agent 1000 is an engine (R45). -/
def State.performWrite (s : State) (a : Agent) (pa mask : Nat) (b : List Byte) (key : Nat) : Cause × State :=
  let link := s.linkCause pa
  if link ≠ 0 then (link, s)
  else if s.hostLate a.id pa then (0x240#10, s.hostOver a.id)
  else if mask % 2 ^ b.length = 0 then (0, s)
  else if decide (tierOf pa = .tier2) && s.iso && (a.through || a.id == 1000) then (0x243#10, s.wdrop)
  else
    let s := (sectorsOf pa b.length).foldl (fun s k => s.dropCopies k a.id false) s
    (0, (s.l2Write pa mask b a.ctx key (if a.through ∨ 64 ≤ a.ctx then none else some a.ctx) a.through false).hostTouch pa b.length true)

/-- A pair is admitted: no other copy of its sector is read any more (R139, R174, R175, R189). -/
def State.admitPair (s : State) (pa key r : Nat) (v : Word) (ctx : Nat) : State :=
  (s.dropCopies (pa / 32) 1000 false).takePair pa key r v.toNat ctx

/-! Translation (R125-R129). -/

/-- A walk: each entry is read at its home through L2 under the slot PTK, and looked at once it has come (R126, R127, R142). R128 puts the V
of every entry before the format of any: here a malformed pointer ends the walk with 0x084, since where it leads nothing says, and the entry
below it is never read (DESIGN CHOICE, log 118). -/
def State.walkL2 (ctx va : Nat) : Nat → Nat → Nat → State → Except Cause Leaf × State
  | 0, _, _, s => (.error 0x084#10, s)
  | fuel + 1, level, base, s =>
    match s.fetchData ⟨1000, ctx, false⟩ (base + 8 * levelIndex level va) 8 (s.ptkOf ctx) 2 with
    | ((c, b), s) =>
      if c ≠ 0 then (.error c, s)
      else
        let w := BitVec.ofNat 64 (natOf b)
        let e := Pte.ofWord w
        if !e.v then (.error 0x080#10, s)
        else if e.malformed level then (.error 0x084#10, s)
        else if e.leaf then (.ok ⟨w, level⟩, s)
        else State.walkL2 ctx va fuel (level + 1) (e.frame * 65536) s
/-- The checks on a leaf, as the answer of a translation. -/
def State.leafAnswer (s : State) (w : Who) (k : AccKind) (l : Leaf) (va : Nat) : Except TrapInfo (Nat × Nat) :=
  match s.checkLeaf w k l va with
  | .error c => trapA c va
  | .ok pa => .ok (pa, (Pte.ofWord l.pte).key)

/-- One page of an access: physical address with key slot, or the cause, and the state after the walk. The first-level TLB of the
access is looked at, then the second level, which both share; a walk fills both (R129). Page-table writes since the walk are not seen. A
control core's addresses are physical (log 10). -/
def State.xlatePage (s : State) (w : Who) (k : AccKind) (va : Nat) : Except TrapInfo (Nat × Nat) × State :=
  let absent : Cause := if k = .fetch then 0x083#10 else 0x080#10
  if w.ctx = 64 then
    (if 2 ^ 52 ≤ va ∨ tierOf va = .none then trapA absent va else if !w.sup && s.retired va then trapA 0x085#10 va else .ok (va, 64), s)
  else if 2 ^ 52 ≤ va then (trapA absent va, s)
  else match s.root w.ctx with
    | none => (trapA absent va, s)
    | some base =>
      let unit := if k = .fetch then 0 else 1
      match s.tlbIn unit w.core w.ctx va with
      | some l => (s.leafAnswer w k l va, s)
      | none => match s.tlbIn 2 w.core w.ctx va with
        | some l => (s.leafAnswer w k l va, s.tlbAdd unit w.core w.ctx va l)
        | none =>
          if !s.keyUsable (s.ptkOf w.ctx) then (trapA 0x202#10 va, s)
          else match State.walkL2 w.ctx va 3 1 base s with
            | (.error c, s) => (trapA (if c = 0x080#10 then absent else c) va, s)
            | (.ok l, s) => (s.leafAnswer w k l va, (s.tlbAdd unit w.core w.ctx va l).tlbAdd 2 w.core w.ctx va l)

/-- The part of an access within one page, cut at 32-byte boundaries. -/
def cutPieces (va pa n off key : Nat) : List Piece :=
  (sectorsOf pa n).map fun k =>
    let lo := max (k * 32) pa
    let hi := min (k * 32 + 32) (pa + n)
    ⟨va + (lo - pa), lo, hi - lo, off + (lo - pa), key⟩

/-- An access of n bytes: its pages pass the checks in increasing order; then its 32-byte-aligned pieces (R128). -/
def State.xlate (s : State) (w : Who) (k : AccKind) (va n : Nat) : Except TrapInfo (List Piece) × State :=
  let first := min n (65536 - va % 65536)
  match s.xlatePage w k va with
  | (.error t, s) => (.error t, s)
  | (.ok (pa, key), s) =>
    if first = n then (.ok (cutPieces va pa n 0 key), s)
    else
      let va2 := (va + first) % 2 ^ 64
      match s.xlatePage w k va2 with
      | (.error t, s) => (.error t, s)
      | (.ok (pa2, key2), s) => (.ok (cutPieces va pa first 0 key ++ cutPieces va2 pa2 (n - first) first key2), s)

/-- What the bundle at issue has touched, with these. -/
def State.touch (s : State) (l : List Touch) : State := { s with issue := { s.issue with did := s.issue.did ++ l } }
/-- A cause leaves with what the bundle has touched before it, and `l` itself. -/
def State.endsAfter {α : Type} (s : State) (t : TrapInfo) (l : List Touch) : Except TrapInfo α := .error { t with did := s.issue.did ++ l }
/-- The same for a check that follows touches: a cause that has them keeps them. -/
def State.keep {α : Type} (s : State) (r : Except TrapInfo α) : Except TrapInfo α :=
  match r with
  | .error t => .error (if t.did.isEmpty then { t with did := s.issue.did } else t)
  | .ok x => .ok x
/-- Between two states a dirty line of a context has been lost that an access reads: `reads` says whether it reads a line (R146). -/
def State.lostSince (s s0 : State) (ctx : Nat) (reads : Nat → Bool) : Bool := (s.stopq.drop s0.stopq.length).any fun q => q.1 == ctx && reads q.2
/-- The cause of an access that found such a loss, at the line's virtual address, 0 where it has none (R463). -/
def lossAt (va : Nat) : TrapInfo := { cause := 0x142#10, faddr := BitVec.ofNat 64 (va / 64 * 64) }

/-- The pages that an access of n bytes walks. -/
def pagesOf (va n : Nat) : List Nat := let first := min n (65536 - va % 65536); if first = n then [va] else [va, (va + first) % 2 ^ 64]
/-- Translate within an operation: a cause ends the operation. -/
def State.xlateR (s : State) (k : AccKind) (va n : Nat) : Except TrapInfo (List Piece × State) :=
  match s.xlate s.who k va n with
  | (.error t, s') =>
    let seen := (if t.faddr = BitVec.ofNat 64 va then [va] else pagesOf va n).map Touch.page
    s.endsAfter (if t.cause = 0x141#10 ∧ s'.lostSince s s.who.ctx (fun _ => true) then lossAt 0 else t) seen
  | (.ok ps, s) => .ok (ps, s.touch ((pagesOf va n).map .page))

/-! The stash (R132, R133). -/

/-- Bytes of withheld stores laid over a value: the entries of a release buffer, by physical address. -/
def forward (rel : List Rel) (pa : Nat) (b : List Byte) : List Byte :=
  rel.foldl (fun b r => match r with
    | .store p _ _ val m =>
      (b.zip (List.range b.length)).map fun q =>
        let a := pa + q.2
        if p ≤ a ∧ a < p + 32 ∧ m.getLsbD (a - p) then BitVec.ofNat 8 (val.toNat / 2 ^ (8 * (a - p))) else q.1
    | _ => b) b
/-- The bytes of a window sector that segments before this one wrote: the undo log keeps their mask. -/
def Core.olderMask (c : Core) (k : Nat) : BitVec 32 :=
  match c.seg.undo.find? fun u => u.sector == k with | some u => (u.stash.map (·.mask)).getD 0 | none => 0
/-- Stores of a core that have been released and are on their way. -/
def State.flyingOf (s : State) (core : Nat) : List Rel := (s.flight.filter fun f => f.core == core).map (·.rel)

/-- Fill the sector k of a core's scratchpad that a window covers, merging the written bytes over the fill: those since the last
commit, and those that the undo log keeps of earlier segments; the core's own stores on their way count as memory's content (R177).
Answers whether the window serves the sector: a stash never caches a host page. A fill for the main sequencer or an engine is the
segment's first write of the sector (R220, R222). A fill from clean data leaves a sector without written bytes clean (R142). -/
def State.stashFill (s : State) (core : Nat) (who : Who) (k : Nat) (w : Window) : Except TrapInfo Bool × State :=
  let t := ((s.core core).stash.get? k).getD {}
  if t.full then (.ok true, s)
  else
    let va := w.gva.toNat + (k * 32 - w.spbase)
    match s.xlatePage who .load va with
    | (.error e, s) => (.error e, s)
    | (.ok (pa, key), s) =>
      if tierOf pa = .host then (.ok false, s)
      else match (if s.issue.svc then .ok (s.core core) else (s.core core).undoFor k) with
        | .error _ => (trapA 0x1C3#10 va, s)
        | .ok c =>
          let ((cause, b), s) := (s.setCore core c).fetchData (agentOf core who.ctx) pa 32 key 2
          if cause = 0x242#10 then (trapA cause va, s)
          else
            let b := forward (s.flyingOf core) pa b
            let c := s.core core
            let t := (c.stash.get? k).getD {}
            let keep := t.mask ||| c.olderMask k
            let c := { c with
              sp := writeMasked c.sp (k * 32) (keep ^^^ BitVec.allOnes 32).toNat b
              stash := c.stash.ins k { t with full := true, pa := some (pa / 32), key, iso := cause == 0x241#10 } }
            (.ok true, s.setCore core (c.spWrote k (keep == 0) (cause != 0)))
/-- The same for the sequencer at issue. A fill that finds the loss of a line of its own context is never answered (R463). -/
def State.stashServe (s : State) (k : Nat) (w : Window) : Except TrapInfo (Bool × State) :=
  match s.stashFill s.issue.core s.who k w with
  | (.error t, s') => s.endsAfter (if t.cause = 0x141#10 ∧ s'.lostSince s s.who.ctx (fun _ => true) then lossAt 0 else t) [.fill k]
  | (.ok b, s') =>
    if s'.lostSince s s.who.ctx fun l => (s'.cur.stash.get? k).any fun t => t.pa.any fun q => q / 2 == l then
      s.endsAfter (lossAt (w.gva.toNat + (k * 32 - w.spbase))) [.fill k]
    else .ok (b, s'.touch [.fill k])

/-- The sectors of an access of the own scratchpad that fall in a window are filled (R132). -/
def State.stashOpen (s : State) (sa n : Nat) : Res :=
  (sectorsOf sa n).foldl (fun (r : Res) k => r.bind fun s =>
    match s.cur.winOfSp (k * 32) with
    | none => .ok s
    | some (_, w) => (s.stashServe k w).map Prod.snd) (.ok s)
/-- A scratchpad read: windows first, then the errors of what it reads (R131, R132). -/
def State.stashTouch (s : State) (sa n : Nat) : Res := (s.stashOpen sa n).map fun s => (s.spScan s.issue.core sa n).touch [.scan sa n]
/-- The same for an engine of a core: the cause that ends its command. -/
def State.stashReach (s : State) (core : Nat) (who : Who) (sa n : Nat) (scan : Bool) : Cause × State :=
  let (c, s) := (sectorsOf sa n).foldl (fun (q : Cause × State) k =>
    if q.1 ≠ 0 then q
    else match (q.2.core core).winOfSp (k * 32) with
      | none => q
      | some (_, w) => match q.2.stashFill core who k w with
        | (.error t, s) => (t.cause, s)
        | (.ok _, s) => (0, s)) (0, s)
  (c, if scan then s.spScan core sa n else s)

/-- The scratchpad sector through which a piece in an enabled window is served. -/
def Core.pieceSector (c : Core) (p : Piece) : Option Nat := (c.winOfVa p.va).map fun q => (q.2.spbase + (p.va - q.2.gva.toNat)) / 32
/-- A read that has been issued and not performed reads a sector through a stash window: loads, and entries of AQ and DQ. -/
def Core.loadsAt (c : Core) (k : Nat) : Bool :=
  let at' (ps : List Piece) : Bool := ps.any fun p => c.pieceSector p == some k
  c.loads.any (fun l => at' l.pieces) || c.aq.any (fun e => at' e.pieces) || c.dq.any fun e => e.data.isNone && at' e.pieces

/-- Bytes on their way to a sector that an earlier read has still to read through its window: no bundle issues and nothing lands
before it has (R177). -/
def Core.windowClash (c : Core) : Bool := c.arch.lands.any fun l => match l.dst with | .sp k => c.loadsAt k | _ => false

/-- A slot's scratchpad write of bytes under a mask in one sector: undo entry on the main sequencer, visible from the next
bundle (R204, R376). In a window the bytes are marked written as they land; an invalid sector is filled at its next touch (R376; log 88).
`k` is a sector of the array itself, after R134. A pending read of these bytes reads them first: the store's bytes land after it (R177, Core.windowClash). -/
def State.spStore (s : State) (k : Nat) (val : BitVec 256) (bmask : Nat) (poisoned : Bool) : Res := do
  let m : Vec := BitVec.ofNat 1024 (spread 32 bmask + (if poisoned then 2 ^ 256 else 0) + (if (s.cur.winOfSp (k * 32)).isSome then 2 ^ 257 else 0))
  if s.issue.svc then
    .ok (s.setCore s.issue.core (s.cur.landOne ⟨0, .sp k, val.setWidth 1024, m⟩))
  else
    let c ← s.cur.undoFor k
    .ok (s.setCore s.issue.core (c.landIn 1 (.sp k) (val.setWidth 1024) m))

/-! What a load of the main sequencer sees (R139, R177). -/

/-- Whether withheld stores cover every byte of a range. -/
def covered (rel : List Rel) (pa n : Nat) : Bool :=
  (List.range n).all fun i => rel.any fun r => match r with
    | .store p _ _ _ m => decide (p ≤ pa + i ∧ pa + i < p + 32) && m.getLsbD (pa + i - p)
    | _ => false

/-- The stores of its own that a load of the main sequencer sees: released ones on their way, and the first n entries of the release
buffer (R139, R177). -/
def State.seenBy (s : State) (core n : Nat) : List Rel :=
  s.flyingOf core ++ (s.core core).seg.rel.take n
/-- A store, or a VAMO, of the core's own that has been released and not performed writes bytes of an access: a load sees the store's
bytes without it, an atomic does not (R177, R181). -/
def State.meetsFlight (s : State) (core : Nat) (atomic : Bool) (ps : List Piece) : Bool :=
  s.flight.any fun f => f.core == core && (match f.rel with
    | .store pa _ _ _ m => atomic && ps.any fun p => (List.range p.n).any fun i => decide (pa ≤ p.pa + i ∧ p.pa + i < pa + 32) && m.getLsbD (p.pa + i - pa)
    | .vamo pa _ _ _ _ _ _ => ps.any fun p => decide (p.pa < pa + 32 ∧ pa < p.pa + p.n)
    | _ => false)
/-- The main sequencer and the engines of a core as they access memory (R429). -/
def State.mainWho (s : State) (core : Nat) : Who := ⟨s.ctxOf core, isCtl core, core⟩

/-- A line enters the scalar data cache: 8 lines to a set; a full set gives one up (R139; which one, and a line's set, are open: log 11). -/
def State.sdcAdd (s : State) (core line : Nat) : State :=
  let m := (s.core core).sdc
  let set (l : Nat) : Nat := Config.sdcSet l % 64
  if m.has line then s
  else if m.length < 8 then s.modCore core fun c => { c with sdc := m.ins line () }
  else
    let rivals := m.filter fun q => set q.1 == set line
    if rivals.length < 8 then s.modCore core fun c => { c with sdc := m.ins line () }
    else
      let gone := ((rivals[Config.sdcVictim s.fresh % rivals.length]?).map Prod.fst).getD line
      ({ s with fresh := s.fresh + 1 } : State).modCore core fun c => { c with sdc := (m.del gone).ins line () }
/-- A piece that no window serves: from the core's own stores `rel` where they cover it, else from the scalar data cache or the home
slice, with the stores laid over it. `small` is a load of 8 bytes or less (R139). -/
def State.loadGlobal (s : State) (core : Nat) (rel : List Rel) (p : Piece) (u : Nat) (small : Bool) : (Cause × List Byte) × State :=
  let link := s.linkCause p.pa
  if covered rel p.pa p.n then ((0, forward rel p.pa (List.replicate p.n 0)), s)
  else if link ≠ 0 then ((link, []), s)
  else
    let lines := linesOf p.pa p.n
    let present := small && lines.all fun l => (s.core core).sdc.has l
    let held := present && Config.sdcHolds s.fresh
    let s := if present then { s with fresh := s.fresh + 1 } else s
    if held then ((s.consume p.pa p.n, forward rel p.pa (s.readPhys p.pa p.n)), s)
    else
      let ((cause, b), s) := s.fetchData (agentOf core (s.ctxOf core)) p.pa p.n p.key u
      let s := if small && l2Cached p.pa && cause == 0 then lines.foldl (fun s l => s.sdcAdd core l) s else s
      ((cause, if cause = 0 then forward rel p.pa b else []), s)
/-- What a load sees of a sector that a window serves: the bytes written through the window stand over the core's stores on their way, and
the stores that it still withholds over both (R132, R177, R377). -/
def StashSector.seen (t : StashSector) (older : BitVec 32) (flying own : List Rel) (pa off : Nat) (b : List Byte) : List Byte :=
  let m := forward flying pa b
  forward own pa (((b.zip m).zip (List.range b.length)).map fun q => if (t.mask ||| older).getLsbD (off + q.2) then q.1.1 else q.1.2)
/-- One piece of a load: from the release buffer where that covers it, else through the stash window that covers it, which is filled
where it has to be (R132, R377), else as above. A sector that isolation filled as poison ends it with 0x241 (R45). -/
def State.loadPiece (s : State) (w : Who) (rel : List Rel) (p : Piece) (u : Nat) (small : Bool) : (Cause × List Byte) × State :=
  match (s.core w.core).winOfVa p.va with
  | none => s.loadGlobal w.core rel p u small
  | some (_, v) =>
    let sa := v.spbase + (p.va - v.gva.toNat)
    -- the stores on their way come first in what the load sees, none when it sees no stores (R172)
    let n := min rel.length (s.flyingOf w.core).length
    if covered (rel.drop n) p.pa p.n then ((0, forward (rel.drop n) p.pa (List.replicate p.n 0)), s)
    else match s.stashFill w.core w (sa / 32) v with
    | (.error t, s) => ((t.cause, []), s)
    | (.ok false, s) => s.loadGlobal w.core rel p u small
    | (.ok true, s) =>
      let s := s.spScan w.core sa p.n
      let c := s.core w.core
      let t := (c.stash.get? (sa / 32)).getD {}
      let b := t.seen (c.olderMask (sa / 32)) (rel.take n) (rel.drop n) p.pa (sa % 32) (readMap c.sp sa p.n)
      ((if c.spPoison.has (sa / 32) then (if t.iso then 0x241#10 else 0x141#10) else 0, b), s)

/-- The scratchpad sector that serves a piece, when an enabled window covers it (R132). -/
def Core.winSector (c : Core) (p : Piece) : Option (Nat × Window) :=
  match c.winOfVa p.va with
  | none => none
  | some (_, w) => some ((w.spbase + (p.va - w.gva.toNat)) / 32, w)
/-- Sectors of stash windows that a load touches are filled before it (R132). -/
def State.stashFor (s : State) : List Piece → Res
  | [] => .ok s
  | p :: ps =>
    match s.cur.winSector p with
    | none => s.stashFor ps
    | some (k, w) => (s.stashServe k w).bind fun q => State.stashFor q.2 ps
/-- What came before a cause leaves what it read, filled, found and charged; the rollback undoes what it wrote in the core (R126, R131,
R142-R146, R149, R222). -/
def State.redoOne (s : State) (t : Touch) : State :=
  let core := s.issue.core
  match t with
  | .page va => (s.xlatePage s.who .load va).2
  | .fill k => match s.cur.winOfSp (k * 32) with | some (_, w) => (s.stashFill core s.who k w).2 | none => s
  | .scan sa n => s.spScan core sa n
  | .line pa key u => s.l2Read pa 64 s.who.ctx key u
  | .piece p u small => (s.loadPiece s.who [] p u small).2
  | .home pa n key => (s.fetchData { agentOf core s.who.ctx with id := 1000 } pa n key 2).2
  | .write pa mask b key => (s.performWrite (agentOf core s.who.ctx) pa mask b key).2
def State.redo (s : State) (l : List Touch) : State := l.foldl State.redoOne s

/-- Whether every page of a range is served by a link that is up, at issue of a store (R31, R43). -/
def State.linkFor (s : State) (p : Piece) : Except TrapInfo Unit :=
  let c := s.linkCause p.pa
  if c = 0 then .ok () else trapA c p.va

/-! Running one operation. -/

/-- Template position of a slot, the SLOT of a trap record (R229). -/
def slotNum : Slot → Nat
  | .s => 0 | .x => 1 | .v0 => 2 | .v1 => 3 | .m => 4 | .k => 5 | .c0 => 6 | .c1 => 7 | .y => 8 | .f => 9

abbrev Out := Host.Outcome State Fault Refusal

/-- End of an operation: the next state, or the trap with the slot filled in. What the bundle's other operations touched before has been
done in `s` already. -/
def finish (o : OpInfo) (s : State) (r : Res) : Out :=
  match r with
  | .ok s' => .next s'
  | .error t => .next ((s.redo (t.did.drop s.issue.did.length)).takeTrap { t with slot := BitVec.ofNat 4 (slotNum o.slot) })

end Sys2Proof.Machine
end

