-- ==== Sys2Proof/Machine/Operands.lean ====
section
/-! DEFINITION. The operand forms: addresses, immediates and transfer targets (R300, R301, R323, R336, R374, R375, R378). -/
namespace Sys2Proof.Machine

/-- Sign extension of an immediate to 64 bits (R300). -/
def imm64 {n : Nat} (i : BitVec n) : Word := i.signExtend 64

/-- The size code z as a number of bytes (R375). -/
def sizeOf {n : Nat} (z : BitVec n) : Nat := 2 ^ z.toNat

/-- The address of a scalar access by its mode AM (R375). -/
def State.scalarAddr (s : State) (am z : BitVec 2) (base ix : BitVec 5) (disp : BitVec 15) : Word :=
  match am.toNat with
  | 0 => s.gpr .s base + imm64 disp
  | 1 => s.gpr .s base + s.gpr .s ix * BitVec.ofNat 64 (2 ^ z.toNat) + imm64 disp
  | _ => imm64 disp

/-- The address of a vector access (R378). -/
def State.vectorAddr (s : State) (base ix : BitVec 5) (idx : BitVec 1) (disp : BitVec 15) : Word :=
  v64 (s.cur.rV base.toNat) + (if idx = 1 then v64 (s.cur.rV ix.toNat) else 0) + imm64 disp

/-- The guard width that G or w names, in bits (R352, R378). -/
def widthOf (g : BitVec 2) : Nat := 8 * 2 ^ g.toNat

/-- The length in bytes that SZ names (R378). -/
def lenOf (sz : BitVec 2) : Nat := 32 * 2 ^ sz.toNat

/-- Bytes of the elements that are active in the first n bytes, as a byte mask (R378). -/
def State.activeBytes (s : State) (o : OpInfo) (e n : Nat) : Nat :=
  ((List.range n).filter fun i => s.guardE o e (i * 8 / e)).foldl (fun t i => t + 2 ^ i) 0

/-- A transfer target relative to the bundle's header (R323). -/
def State.relTarget {n : Nat} (s : State) (disp : BitVec n) : Word := s.issue.haddr + 4 * imm64 disp

/-- The reuse value named by RUX (R301). -/
def reuse (u : BitVec 2) : Nat := u.toNat

/-- The bytes of a scalar register value as a store writes them. -/
def regBytes (v : Word) (n : Nat) : List Byte := bytesOf n v.toNat

/-- The value that a scalar load of n bytes gives (R375). -/
def loadValue (sx : Bool) (n : Nat) (b : List Byte) : Word :=
  let x := natOf (b.take n)
  if sx then BitVec.ofInt 64 (sgn (8 * n) x) else BitVec.ofNat 64 x

/-- The touched pieces of a vector access: those that hold a byte of an active element, with the active bytes (R378). -/
def touched (ps : List Piece) (mask : Nat) : List Piece := ps.filter fun p => bits mask p.off p.n != 0

/-- Bytes `off` to `off + n` of a vector register as a number. -/
def vecBytes (v : Vec) (off n : Nat) : Nat := v.toNat / 2 ^ (8 * off) % 2 ^ (8 * n)

end Sys2Proof.Machine
end

