-- ==== Sys2Proof/Machine/Flags.lean ====
section
/-! DEFINITION. Conditions of compares (R320), counting flags and posts (R183, R340-R343), barrier arrivals and the arrival suffix
(R117, R299, R344). -/
namespace Sys2Proof.Machine

/-- The scalar conditions of R320. -/
def condition (cc : Nat) (a b : Word) : Bool :=
  match cc with
  | 0 => a == b
  | 1 => a != b
  | 2 => decide (a.toInt < b.toInt)
  | 3 => decide (b.toInt ≤ a.toInt)
  | 4 => decide (a.toNat < b.toNat)
  | 5 => decide (b.toNat ≤ a.toNat)
  | 6 => decide (a.toInt ≤ b.toInt)
  | 7 => decide (b.toInt < a.toInt)
  | 8 => decide (a.toNat ≤ b.toNat)
  | 9 => decide (b.toNat < a.toNat)
  | 10 => a &&& b != 0
  | _ => a &&& b == 0

/-! Posts to a flag of the own core (R183, R342). -/

/-- Whether an operation of the main sequencer with a number below `upto` is still to be performed at core scope. -/
def Core.busyBelow (c : Core) (upto : Nat) : Bool :=
  c.loads.any (fun l => decide (l.seq < upto)) || c.atoms.any (fun l => decide (l.seq < upto)) ||
  c.cmds.any (fun l => decide (l.seq < upto) && (match l.kind with | .cnput => false | _ => true)) || c.mq.any (fun l => decide (l.seq < upto)) ||
  c.aq.any (fun l => decide (l.seq < upto)) || c.dq.any (fun l => l.data.isNone && decide (l.seq < upto)) ||
  c.watches.any (fun l => decide (l.seq < upto))

/-- A publish among the released operations (R183). -/
def Rel.publish : Rel → Bool
  | .post _ _ _ => true
  | .arrive _ => true
  | .event _ _ _ _ _ => true
  | _ => false
/-- Publishes and update pairs that are released and not yet performed come before the later publishes of their core. A released store or
VAMO has been performed at core scope (R174, R183, R192, R342). -/
def State.publishBelow (s : State) (core upto : Nat) : Bool :=
  s.flight.any fun f => f.core == core && decide (f.seq < upto) && (f.rel.publish || match f.rel with | .pair _ _ _ _ _ => true | _ => false)

def State.postReady (s : State) (core : Nat) (p : Post) : Bool :=
  !p.withheld && !(s.core core).busyBelow p.upto && !s.publishBelow core p.upto

/-- A post takes effect: an own change, or one of a committed segment (R199, R218). -/
def Core.applyPost (c : Core) (p : Post) : Core :=
  let f (a : Arch) : Arch := if p.set then a.flagSet p.flag p.n else a.flagAdd p.flag p.n
  let c := { c with arch := f c.arch }
  if p.committed then { c with seg := { c.seg with ck := f c.seg.ck } } else c

/-- Pending posts in program order: by the operations they wait for, a set before the increments of its bundle (R340). -/
def insertPost (p : Post) : List Post → List Post
  | [] => [p]
  | q :: r => if p.upto < q.upto || (p.set && q.flag == p.flag && q.bundle == p.bundle) then p :: q :: r else q :: insertPost p r

/-- Post to a flag of the core itself: at once when every earlier operation has been performed (R342). -/
def State.postOwn (s : State) (core : Nat) (p : Post) : State :=
  if (s.core core).seg.posts.isEmpty && s.postReady core p then s.modCore core fun c => c.applyPost p
  else s.modCore core fun c => { c with seg := { c.seg with posts := insertPost p c.seg.posts } }

/-- Pending posts whose turn it is take effect, in order. -/
def State.drainPosts : Nat → State → Nat → State
  | 0, s, _ => s
  | n + 1, s, core =>
    match (s.core core).seg.posts with
    | [] => s
    | p :: r =>
      if s.postReady core p then
        State.drainPosts n (s.modCore core fun c => { c.applyPost p with seg := { (c.applyPost p).seg with posts := r } }) core
      else s

/-- A change of an own flag by the bundle at issue: it follows the operations of earlier bundles, those that these withhold, and the
barrier arrivals that they make when they retire, which have their places among these (R183, R280, R342). -/
def State.ownPost (s : State) (f : Nat) (set : Bool) (v : Half) : Post :=
  let first := match s.issue.since with | some (q, _) => q | none => s.seq
  { flag := f, set, n := v, upto := first, withheld := s.cur.withheldIn s.issue.relN, bundle := first + 1, relN := s.issue.relN }
/-- fpost and the suffix `=> fn` of the bundle at issue: an increment of n (R340, R342). -/
def State.flagInc (s : State) (f n : Nat) : State :=
  if s.issue.svc then s.modCur fun c => c.flagForeign f (BitVec.ofNat 16 n)
  else
    let s := s.postOwn s.issue.core (s.ownPost f false (BitVec.ofNat 16 n))
    { s with issue := { s.issue with incs := s.issue.incs.put 0 f (s.issue.incs.getD f 0 + BitVec.ofNat 16 n) } }

/-- fset: the set applies before the increments of its own bundle (R340). -/
def State.flagPut (s : State) (f : Nat) (v : Half) : State :=
  if s.issue.svc then s.modCur fun c => { c with arch := c.arch.flagSet f v, seg := { c.seg with ck := c.seg.ck.flagSet f v } }
  else
    let p := s.ownPost f true v
    if s.cur.seg.posts.isEmpty && s.postReady s.issue.core p then
      s.modCur fun c => c.applyPost { p with n := v + s.issue.incs.getD f 0 }
    else s.postOwn s.issue.core p

/-! Barrier arrivals (R117, R344). -/

/-- CTX_BARn names barrier g (R108). -/
def State.barGranted (s : State) (g : Nat) : Bool := (s.ioGet (0x6200 + 8 * s.ctxOf s.issue.core)).getLsbD g
/-- The bundle issues in the chunk of a gang member (R344). -/
def Core.gangMember (c : Core) : Bool := match c.chunk with | some k => k.gang && k.forked.isNone | none => false

/-- The checks of barr: 0x101, then 0x102. -/
def State.barCheck (s : State) (g : Nat) (member : Bool) : Except TrapInfo Unit := do
  raiseIf (!s.barGranted g) 0x101#10
  raiseIf (member && !s.cur.gangMember) 0x102#10

/-- An arrival is withheld in the release buffer. -/
def State.barArrive (s : State) (g : Nat) : Res := do
  s.barCheck g true
  let c ← s.cur.release (.arrive g)
  .ok (s.setCore s.issue.core c)

/-! The arrival suffix (R299): posted when the operation retires, whatever its guard. -/

/-- The arrival of an operation that retires at issue. -/
def State.arriveNow (s : State) : Option Arrival → Res
  | none => .ok s
  | some (.flag f) => .ok (s.flagInc f.toNat 1)
  | some (.barrier g) => s.barArrive g.toNat

/-- Checks at issue on the arrival of an operation that retires later. -/
def State.arriveCheck (s : State) : Option Arrival → Except TrapInfo Unit
  | some (.barrier g) => do
    s.barCheck g.toNat true
    raiseIf (decide (512 ≤ s.cur.relCount)) 0x1C2#10
  | _ => .ok ()

/-- The arrival of an operation of core `core` that has just retired: it was issued as number `seq` with `relN` entries withheld. A barrier
arrival takes the place that the operation has in program order (R218). -/
def State.arriveLate (s : State) (core : Nat) (arr : Option Arrival) (seq relN bundle : Nat) : State :=
  match arr with
  | none => s
  | some (.flag f) =>
    s.postOwn core { flag := f.toNat, set := false, n := 1, upto := seq, withheld := (s.core core).withheldIn relN, bundle, relN }
  | some (.barrier g) => s.modCore core fun c => { c with seg := { c.seg with rel := c.seg.rel.map fun r => if r = .due seq g.toNat then .arrive g.toNat else r } }

/-! Running one operation. -/

/-- An operation that retires at issue: its effect when the guard is true, then its arrival. -/
def State.runNow (s : State) (o : OpInfo) (f : State → Res) : Out :=
  finish o s (do
    let s ← if s.guard0 o then f s else .ok s
    s.keep (s.arriveNow o.arr))

/-- A vector operation takes its guard element by element: `f` sees the guard mask itself. -/
def State.runEach (s : State) (o : OpInfo) (f : State → Res) : Out :=
  finish o s (do
    let s ← f s
    s.keep (s.arriveNow o.arr))

/-- An operation that retires later: with a true guard `f` keeps the arrival with the operation; with a false one it has retired. -/
def State.runLate (s : State) (o : OpInfo) (f : State → Res) : Out :=
  finish o s (if s.guard0 o then do s.arriveCheck o.arr; f s else s.arriveNow o.arr)

end Sys2Proof.Machine
end

