-- ==== Sys2Proof/Machine/Fetch.lean ====
section
/-! DEFINITION. Fetching instruction words: translation with cause 0x083, the L1 instruction cache (R128, R140, R297, R313). -/
namespace Sys2Proof.Machine

/-- A line enters the instruction cache of 1,024 lines; a full one gives a line up (R140; which one is open: log 12). -/
def State.icacheAdd (s : State) (core line : Nat) (b : List Byte) : State :=
  let m := (s.core core).icache
  if m.has line || decide (m.length < 1024) then s.modCore core fun c => { c with icache := m.ins line b }
  else
    let gone := ((m[Config.icacheVictim s.fresh % m.length]?).map Prod.fst).getD line
    ({ s with fresh := s.fresh + 1 } : State).modCore core fun c => { c with icache := (m.del gone).ins line b }
/-- A line read through L2 into the instruction cache: stash sectors are recalled, pending updates applied (R133, R168). -/
def State.refetchLine (s : State) (core ctx line key : Nat) : List Byte × State :=
  let s := s.recall (line * 2) 1000
  let s := s.recall (line * 2 + 1) 1000
  let s := s.l2Read (line * 64) 64 ctx key 2
  let now := s.readPhys (line * 64) 64
  (now, s.icacheAdd core line now)
/-- The 64 bytes of a line as the instruction cache gives them: a line it holds may be older than memory (log 12). -/
def State.fetchLine (s : State) (core ctx line key : Nat) : List Byte × State :=
  let now := s.readPhys (line * 64) 64
  match (s.core core).icache.get? line with
  | some old =>
    if old = now then (now, s)
    else if Config.icacheOld s.fresh then (old, { s with fresh := s.fresh + 1 })
    else { s with fresh := s.fresh + 1 }.refetchLine core ctx line key
  | none => s.refetchLine core ctx line key

/-- Up to four bytes of one page from one line. -/
def State.fetchBytes (s : State) (w : Who) (va n : Nat) : Except TrapInfo (List Byte) × State :=
  let s0 := s
  match s.xlatePage w .fetch va with
  | (.error t, s) => (.error t, s)
  | (.ok (pa, key), s) =>
    let link := s.linkCause pa
    if link ≠ 0 then (trapA link va, s)
    else if s.hostLate w.core pa then (trapA 0x240#10 va, s.hostOver w.core)
    else
      let (b, s) := if l2Cached pa then s.fetchLine w.core w.ctx (pa / 64) key else (s.readPhys (pa / 64 * 64) 64, s.hostTouch pa n false)
      -- a line of its own context that is lost as it is fetched stops the core (R463)
      if s.lostSince s0 w.ctx (· == pa / 64) then (.error (lossAt va), s)
      else if s.consume pa n ≠ 0 then (trapA (s.consume pa n) va, s) else (.ok ((b.drop (pa % 64)).take n), s)

/-- FetchWord(a): a word may straddle two pages; FADDR is the first byte that cannot be fetched (R229, R297). -/
def State.fetchWord (s : State) (w : Who) (va : Nat) : Except TrapInfo Word32 × State :=
  let first := min 4 (64 - va % 64)
  match s.fetchBytes w va first with
  | (.error t, s) => (.error t, s)
  | (.ok b, s) =>
    if first = 4 then (.ok (BitVec.ofNat 32 (natOf b)), s)
    else match s.fetchBytes w ((va + first) % 2 ^ 64) (4 - first) with
      | (.error t, s) => (.error t, s)
      | (.ok b2, s) => (.ok (BitVec.ofNat 32 (natOf (b ++ b2))), s)

end Sys2Proof.Machine
end

