-- ==== Sys2Proof/Machine/Tiles.lean ====
section
/-! DEFINITION. Tiles: configuration and element layout, busy bits; fields of copy descriptors (R203, R246, R252, R371, R409, R410). -/
namespace Sys2Proof.Machine

/-! Descriptor fields (R409). -/

def dBits (d : Desc512) (w lo n : Nat) : Nat := bits d.toNat (64 * w + lo) n
def dNdim (d : Desc512) : Nat := dBits d 0 59 3
def dEsz (d : Desc512) : Nat := dBits d 0 56 3
def dSsp (d : Desc512) : Nat := dBits d 0 52 4
def dSaddr (d : Desc512) : Nat := dBits d 0 0 52
def dCv (d : Desc512) : Bool := dBits d 1 56 1 == 1
def dDsp (d : Desc512) : Nat := dBits d 1 52 4
def dDaddr (d : Desc512) : Nat := dBits d 1 0 52
/-- CNTk + 1 for a dimension in use, else 1 (R413). -/
def dCount (d : Desc512) (k : Nat) : Nat :=
  if k = 0 then dBits d 2 0 14 + 1 else if k < dNdim d then dBits d 2 (4 + 10 * k) 10 + 1 else 1
/-- Source stride k, 1 to 5. -/
def dSst (d : Desc512) (k : Nat) : Int :=
  sgn 24 (match k with | 1 => dBits d 3 0 24 | 2 => dBits d 3 24 24 | 3 => dBits d 4 0 24 | 4 => dBits d 4 24 24 | _ => dBits d 5 0 24)
/-- Destination stride k, 1 to 5. -/
def dDst (d : Desc512) (k : Nat) : Int :=
  sgn 24 (match k with | 1 => dBits d 5 24 24 | 2 => dBits d 6 0 24 | 3 => dBits d 6 24 24 | 4 => dBits d 7 0 24 | _ => dBits d 7 24 24)
def dRcore (d : Desc512) : Nat := dBits d 3 48 9
def dPcore (d : Desc512) : Nat := dBits d 4 53 9
def dPf (d : Desc512) : Nat := dBits d 4 49 4
def dPv (d : Desc512) : Bool := dBits d 4 48 1 == 1
def dHn (d : Desc512) : Nat := dBits d 5 49 4
def dHv (d : Desc512) : Bool := dBits d 5 48 1 == 1
def dNode (d : Desc512) : Nat := dBits d 6 48 12
def dWin (d : Desc512) : Nat := dBits d 7 48 6
/-- Reserved bits of a descriptor (R409). -/
def dReserved (d : Desc512) : Bool :=
  dBits d 0 62 2 != 0 || dBits d 1 57 7 != 0 || dBits d 3 57 7 != 0 || dBits d 4 62 2 != 0 || dBits d 5 53 11 != 0 ||
    dBits d 6 60 4 != 0 || dBits d 7 54 10 != 0
/-- Tile and byte offset of a space-3 address (R410). -/
def tileOf (a : Nat) : Nat := bits a 14 4
def tileOff (a : Nat) : Nat := bits a 0 14

/-! Tile configuration (R246, R252, R327). -/

def tcfgFmt (v : Word32) : Nat := bits v.toNat 0 4
def tcfgRows (v : Word32) : Nat := bits v.toNat 4 6 + 1
def tcfgCols (v : Word32) : Nat := bits v.toNat 10 6 + 1
/-- TCFG of a tile without the side-car bits. -/
def Core.tcfg (c : Core) (t : Nat) : Word32 := c.arch.tcfg.getD t 0
/-- Bits of a row and bytes of the whole tile, packed row-major (R252). -/
def tileBits (v : Word32) : Nat := tcfgRows v * tcfgCols v * fmtWidth (tcfgFmt v)

/-- A shape that R252 refuses with 0x041. -/
def badShape (v : Word32) : Bool := decide (131072 < tileBits v) || (tcfgFmt v == 10 && decide (32 < tcfgCols v))
def Core.tcfgShb (c : Core) (t : Nat) : Bool := (c.tcfg t).getLsbD 16
/-- Bytes of a row (R371). -/
def rowBytes (v : Word32) : Nat := (tcfgCols v * fmtWidth (tcfgFmt v) + 7) / 8
/-- Element bytes of a tile. -/
def tileLen (v : Word32) : Nat := tcfgRows v * rowBytes v
/-- The bytes of `n` bytes from `off` as a number. -/
def tileBytes (b : TileBytes) (off n : Nat) : Nat := bits b.toNat (8 * off) (8 * n)
/-- The code of element (i, j), row-major (R261, R371). -/
def tileElem (v : Word32) (b : TileBytes) (i j : Nat) : Nat := bits b.toNat (8 * (i * rowBytes v) + j * fmtWidth (tcfgFmt v)) (fmtWidth (tcfgFmt v))
/-- Bytes of a tile replaced from `off` on. -/
def putBytes (b : TileBytes) (off : Nat) (l : List Byte) : TileBytes := setBits b (8 * off) (8 * l.length) (natOf l)
/-- Bits of the pieces that hold one of the bytes [off, off + n). -/
def pieceMask (off n : Nat) : BitVec 512 := (sectorsOf off n).foldl (fun m k => m ||| BitVec.ofNat 512 (2 ^ k)) 0

/-- The first poisoned piece among those of a mask: the address recorded with it (R251). -/
def Tile.poisonAt (t : Tile) (m : BitVec 512) : Option Word :=
  if t.poison &&& m = 0 then none else some (((ones (t.poison &&& m)).head?.bind t.paddr.get?).getD 0)

/-! Busy bits (R203): they follow from what is under way. -/

/-- Tiles and accumulators (16 + a) that an operation of the matrix engine reads and writes. -/
def MatOp.reads : MatOp → List Nat
  | .mldb t .. => [t]
  | .pass _ t .. => [t]
  | .drain _ a .. => [16 + a]
  | .zacc .. => []
  | .cv .. => []
  | .trn _ a => [a]
  | .fill .. => []
  | .tcpy _ a => [a]
def MatOp.writes : MatOp → List Nat
  | .mldb .. => []
  | .pass a .. => [16 + a]
  | .drain t .. => [t]
  | .zacc a .. => [16 + a]
  | .cv t .. => [t]
  | .trn d _ => [d]
  | .fill t _ => [t]
  | .tcpy d _ => [d]
/-- The tile that a copy command writes. -/
def Cmd.writesTile (k : Cmd) : Option Nat :=
  match k.kind with
  | .tldi t .. => some t
  | .cpy => if dDsp k.desc = 3 then some (tileOf (dDaddr k.desc)) else none
  | .gath => if dDsp k.desc = 3 then some (tileOf (dDaddr k.desc)) else none
  | _ => none
/-- An operation that an earlier bundle issued: `since` bounds those of the bundle at issue. -/
def earlier (since : Option (Nat × Nat)) (seq : Nat) : Bool := match since with | none => true | some (q, _) => decide (seq < q)
def Core.readBusy (c : Core) (since : Option (Nat × Nat)) (n : Nat) : Bool := c.mq.any fun m => earlier since m.seq && m.op.reads.contains n
def Core.writeBusy (c : Core) (since : Option (Nat × Nat)) (n : Nat) : Bool :=
  c.mq.any (fun m => earlier since m.seq && m.op.writes.contains n) || c.cmds.any (fun k => earlier since k.seq && k.writesTile == some n) ||
    (match since with | none => c.arch.lands | some (_, k) => c.arch.lands.take k).any (fun l => match l.dst with | .tile t _ => t == n | _ => false)
/-- The core holds issue before a read or a write of a tile or accumulator. -/
def Core.tileBlocked (c : Core) (since : Option (Nat × Nat)) (n : Nat) (write : Bool) : Bool := c.writeBusy since n || (write && c.readBusy since n)
/-- An operation of the matrix engine still reads a tile that another operation of its bundle writes: no result lands there before. -/
def Core.tileClash (c : Core) : Bool :=
  c.arch.lands.any fun l => match l.dst with | .tile t _ => c.readBusy none t | .tcfg t => c.readBusy none t | _ => false

end Sys2Proof.Machine
end

