-- ==== Sys2Proof/Machine/Scalar.lean ====
section
/-! DEFINITION. Scalar and index-unit operations (R315-R328, R333-R335): integer arithmetic, moves, compares, predicates,
cross-file copies, transfers, loops, tile configuration, descriptor fields, bit counts. -/
namespace Sys2Proof.Machine

/-! Shared operations. -/

/-- An operation whose one result lands in the slot's own file with the ALU's latency (R315). -/
def State.alu (s : State) (o : OpInfo) (d : BitVec 5) (v : State → Word) : Out :=
  s.runNow o fun s => .ok (s.landG o.slot d (v s))

def State.aluRRR (s : State) (o : OpInfo) (r : RRR) (f : Word → Word → Word) : Out :=
  s.alu o r.d fun s => f (s.gpr o.slot r.a) (s.gpr o.slot r.b)
def State.aluImm (s : State) (o : OpInfo) (r : RImm) (f : Word → Word → Word) : Out :=
  s.alu o r.d fun s => f (s.gpr o.slot r.a) (imm64 r.imm)
def State.aluShift (s : State) (o : OpInfo) (r : RShift) (f : Word → Nat → Word) : Out :=
  s.alu o r.d fun s => f (s.gpr o.slot r.a) r.sh.toNat

/-- sh := b[5:0] (R317). -/
def shCount (b : Word) : Nat := b.toNat % 64
def mulHiS (a b : Word) : Word := BitVec.ofInt 64 (a.toInt * b.toInt / 2 ^ 64)
def mulHiU (a b : Word) : Word := BitVec.ofNat 64 (a.toNat * b.toNat / 2 ^ 64)
def sext32 (a : Word) : Word := (a.setWidth 32).signExtend 64

/-! Integer ALU, register forms (R317). -/

def execNop (o : OpInfo) (s : State) : Out := s.runNow o fun s => .ok s
def execAdd (o : OpInfo) (r : RRR) (s : State) : Out := s.aluRRR o r fun a b => a + b
def execSub (o : OpInfo) (r : RRR) (s : State) : Out := s.aluRRR o r fun a b => a - b
def execAnd (o : OpInfo) (r : RRR) (s : State) : Out := s.aluRRR o r fun a b => a &&& b
def execOr (o : OpInfo) (r : RRR) (s : State) : Out := s.aluRRR o r fun a b => a ||| b
def execXor (o : OpInfo) (r : RRR) (s : State) : Out := s.aluRRR o r fun a b => a ^^^ b
def execAndn (o : OpInfo) (r : RRR) (s : State) : Out := s.aluRRR o r fun a b => a &&& ~~~b
def execShl (o : OpInfo) (r : RRR) (s : State) : Out := s.aluRRR o r fun a b => a <<< shCount b
def execShr (o : OpInfo) (r : RRR) (s : State) : Out := s.aluRRR o r fun a b => a >>> shCount b
def execSra (o : OpInfo) (r : RRR) (s : State) : Out := s.aluRRR o r fun a b => a.sshiftRight (shCount b)
def execRol (o : OpInfo) (r : RRR) (s : State) : Out := s.aluRRR o r fun a b => a.rotateLeft (shCount b)
def execMul (o : OpInfo) (r : RRR) (s : State) : Out := s.aluRRR o r fun a b => a * b
def execMulhs (o : OpInfo) (r : RRR) (s : State) : Out := s.aluRRR o r mulHiS
def execMulhu (o : OpInfo) (r : RRR) (s : State) : Out := s.aluRRR o r mulHiU
def execMin (o : OpInfo) (r : RRR) (s : State) : Out := s.aluRRR o r fun a b => if a.toInt ≤ b.toInt then a else b
def execMax (o : OpInfo) (r : RRR) (s : State) : Out := s.aluRRR o r fun a b => if a.toInt ≤ b.toInt then b else a
def execMinu (o : OpInfo) (r : RRR) (s : State) : Out := s.aluRRR o r fun a b => if a.toNat ≤ b.toNat then a else b
def execMaxu (o : OpInfo) (r : RRR) (s : State) : Out := s.aluRRR o r fun a b => if a.toNat ≤ b.toNat then b else a
def execAddw (o : OpInfo) (r : RRR) (s : State) : Out := s.aluRRR o r fun a b => sext32 (a + b)
def execSubw (o : OpInfo) (r : RRR) (s : State) : Out := s.aluRRR o r fun a b => sext32 (a - b)
def execMovr (o : OpInfo) (r : RR) (s : State) : Out := s.alu o r.d fun s => s.gpr o.slot r.a

/-! Immediate forms and moves (R318, R319). -/

def execAddImm (o : OpInfo) (r : RImm) (s : State) : Out := s.aluImm o r fun a b => a + b
def execAndImm (o : OpInfo) (r : RImm) (s : State) : Out := s.aluImm o r fun a b => a &&& b
def execOrImm (o : OpInfo) (r : RImm) (s : State) : Out := s.aluImm o r fun a b => a ||| b
def execXorImm (o : OpInfo) (r : RImm) (s : State) : Out := s.aluImm o r fun a b => a ^^^ b
def execShlImm (o : OpInfo) (r : RShift) (s : State) : Out := s.aluShift o r fun a n => a <<< n
def execShrImm (o : OpInfo) (r : RShift) (s : State) : Out := s.aluShift o r fun a n => a >>> n
def execSraImm (o : OpInfo) (r : RShift) (s : State) : Out := s.aluShift o r fun a n => a.sshiftRight n
def execMulImm (o : OpInfo) (r : RImm) (s : State) : Out := s.aluImm o r fun a b => a * b
def execMov (o : OpInfo) (r : RLong) (s : State) : Out := s.alu o r.d fun _ => imm64 r.imm
/-- The upper half from IMM[31:0], the lower half as the register holds it at issue. -/
def execMovhi (o : OpInfo) (r : RLong) (s : State) : Out :=
  s.alu o r.d fun s => (imm64 r.imm <<< 32) ||| (s.gpr o.slot r.d &&& 0xFFFFFFFF#64)

/-! Compares and predicate logic (R320, R321): every bit of the predicate is written. -/

/-- The unit whose latency a scalar result of a slot has (R212). -/
def aluUnit (sl : Slot) : LatUnit := if sl = .x then .xalu else .salu
def allBits : Word := BitVec.allOnes 64

def execCmp (o : OpInfo) (r : CmpReg) (s : State) : Out :=
  s.runNow o fun s => .ok (s.landP (aluUnit o.slot) r.pd (maskOf (condition r.cc.toNat (s.gpr o.slot r.a) (s.gpr o.slot r.b))) allBits)
def execCmpImm (o : OpInfo) (r : CmpImm) (s : State) : Out :=
  s.runNow o fun s => .ok (s.landP (aluUnit o.slot) r.pd (maskOf (condition r.cc.toNat (s.gpr o.slot r.a) (imm64 r.imm))) allBits)

def State.predOp (s : State) (o : OpInfo) (r : PredLogic) (f : Word → Word → Word) : Out :=
  s.runNow o fun s => .ok (s.landP (aluUnit o.slot) r.pd (f (s.cur.rP r.a.toNat) (s.cur.rP r.b.toNat)) allBits)
def execPand (o : OpInfo) (r : PredLogic) (s : State) : Out := s.predOp o r fun a b => a &&& b
def execPor (o : OpInfo) (r : PredLogic) (s : State) : Out := s.predOp o r fun a b => a ||| b
def execPxor (o : OpInfo) (r : PredLogic) (s : State) : Out := s.predOp o r fun a b => a ^^^ b
def execPandn (o : OpInfo) (r : PredLogic) (s : State) : Out := s.predOp o r fun a b => a &&& ~~~b

/-! Cross-file copy (R322, R406). -/

def RFile.wide : RFile → Bool
  | .v => true
  | .k => true
  | _ => false
def Core.readFile (c : Core) (f : RFile) (r : Nat) : Vec :=
  match f with
  | .s => (c.rS r).setWidth 1024
  | .x => (c.rX r).setWidth 1024
  | .v => c.rV r
  | .k => c.rK r
  | .p => (c.rP r).setWidth 1024
def fileDest (f : RFile) (r : Nat) : Dest :=
  match f with
  | .s => .s r
  | .x => .x r
  | .v => .v r
  | .k => .k r
  | .p => .p r
/-- Poison bits of a k register (R406). -/
def Core.kPoison (c : Core) (r : Nat) : BitVec 4 := c.arch.kp.getD r 0

def execXfr (o : OpInfo) (r : Xfer) (s : State) : Out :=
  s.runNow o fun s => do
    let c := s.cur
    let j := r.e.toNat
    let src := c.readFile r.src r.a.toNat
    let one := RFile.wide r.src != RFile.wide r.dst
    -- a poisoned element of k is consumed by the copy (R406)
    raiseIf (r.src == .k && (if one then (c.kPoison r.a.toNat).getLsbD (j / 4) else c.kPoison r.a.toNat != 0)) 0x141#10
    let lo := if one && RFile.wide r.src then src >>> (64 * j) else src
    let val : Vec := if RFile.wide r.dst then (if one then (lo &&& full64) <<< (64 * j) else lo) else lo &&& full64
    let mask : Vec := if RFile.wide r.dst then (if one then full64 <<< (64 * j) else fullVec) else full64
    let s := if r.dst = .p ∧ r.d = 0 then s else s.land .xfer (fileDest r.dst r.d.toNat) val mask
    -- 64 bits written into a piece of k leave its poison; a whole register is written clean (log 17)
    .ok (if r.dst = .k ∧ one = false then s.land .xfer (.kp r.d.toNat) 0 15 else s)

/-! Transfers (R323, R324). -/

def State.jump (s : State) (t : Word) (leaves : Bool) : State := { s with issue := { s.issue with target := some t, leaves } }
/-- The link register: s23, or e7 on the service sequencer (R315). -/
def State.linkReg (s : State) : BitVec 5 := if s.issue.svc then 7 else 23
/-- A target from a register is word-aligned, or 0x082. -/
def State.jumpReg (s : State) (t : Word) (leaves : Bool) : Res :=
  if t &&& 3 ≠ 0 then .error { cause := 0x082#10, faddr := t } else .ok (s.jump t leaves)

def execBr (o : OpInfo) (r : Disp) (s : State) : Out := s.runNow o fun s => .ok (s.jump (s.relTarget r.disp) true)
def execCall (o : OpInfo) (r : Disp) (s : State) : Out :=
  s.runNow o fun s => .ok ((s.landG .s s.linkReg (s.issue.haddr + BitVec.ofNat 64 (4 * s.issue.len))).jump (s.relTarget r.disp) false)
def execBrz (o : OpInfo) (r : BrReg) (s : State) : Out :=
  s.runNow o fun s => .ok (if s.gpr .s r.a = 0 then s.jump (s.relTarget r.disp) true else s)
def execBrnz (o : OpInfo) (r : BrReg) (s : State) : Out :=
  s.runNow o fun s => .ok (if s.gpr .s r.a ≠ 0 then s.jump (s.relTarget r.disp) true else s)
def execRet (o : OpInfo) (s : State) : Out := s.runNow o fun s => s.jumpReg (s.gpr .s s.linkReg) false
def execJr (o : OpInfo) (r : JrArgs) (s : State) : Out := s.runNow o fun s => s.jumpReg (s.gpr .s r.a) true

/-! Hardware loops (R209, R325). -/

def Arch.loopLv (a : Arch) (l : Nat) : LoopLv := a.loops.getD l {}
def Arch.setLoop (a : Arch) (l : Nat) (v : LoopLv) : Arch := { a with loops := a.loops.put {} l v }
/-- Whether an address lies in the body of a level. -/
def LoopLv.holds (l : LoopLv) (a : Word) : Bool := decide (l.body.toNat ≤ a.toNat ∧ a.toNat ≤ l.last.toNat)

/-- The effect of loop and loopi. -/
def State.setUpLoop (s : State) (lv n fin : Nat) : Res := do
  let a := s.cur.arch
  let beg := s.issue.haddr + BitVec.ofNat 64 (4 * s.issue.len)
  let last := s.issue.haddr + BitVec.ofNat 64 (4 * fin)
  raiseIf (decide (5 < lv) || decide (last.toNat < beg.toNat) || decide (2 ^ 32 ≤ n)) 0x049#10
  raiseIf ((List.range 6).any fun k =>
    (a.loopLv k).act && (decide (lv < k) || (decide (k < lv) && !((a.loopLv k).holds last && (a.loopLv k).holds beg)))) 0x009#10
  if n = 0 then
    match s.fetchWord s.who last.toNat with
    | (.error t, _) => .error t
    | (.ok h, s) =>
      let s := s.modCur fun c => { c with arch := c.arch.setLoop lv { c.arch.loopLv lv with act := false } }
      .ok (s.jump (last + BitVec.ofNat 64 (4 * bits h.toNat 7 5)) false)
  else .ok (s.modCur fun c => { c with arch := c.arch.setLoop lv ⟨beg, last, BitVec.ofNat 32 n, true⟩ })

def execLoop (o : OpInfo) (r : LoopReg) (s : State) : Out :=
  s.runNow o fun s => s.setUpLoop r.lv.toNat (s.gpr .s r.a).toNat r.fin.toNat
def execLoopi (o : OpInfo) (r : LoopImm) (s : State) : Out := s.runNow o fun s => s.setUpLoop r.lv.toNat r.n.toNat r.fin.toNat

/-! Tile configuration (R246, R252, R327). -/

/-- The TCFG register as software reads it: SCA and SCB stand in the tile's side-car (R252). -/
def Core.tcfgWord (c : Core) (t : Nat) : Word :=
  BitVec.ofNat 64 ((c.tcfg t).toNat + (if (c.tile t).a.valid then 2 ^ 17 else 0) + (if (c.tile t).b.valid then 2 ^ 18 else 0))

def execMtcfg (o : OpInfo) (r : MtcfgArgs) (s : State) : Out :=
  s.runNow o fun s => do
    let v : Word32 := (s.gpr .s r.a).setWidth 32
    let f := tcfgFmt v
    raiseIf (f == 3 || decide (11 ≤ f)) 0x040#10
    raiseIf (badShape v) 0x041#10
    if s.cur.tileBlocked s.issue.since r.t.toNat true then .ok s.stallNow else
    let c ← s.cur.cowTile r.t.toNat
    -- both roles become invalid as the write becomes visible (R246, Core.landOne)
    .ok ((s.setCore s.issue.core c).land .salu (.tcfg r.t.toNat) (BitVec.ofNat 1024 (bits v.toNat 0 17)) (BitVec.ofNat 1024 (2 ^ 17 - 1)))

/-! Descriptor fields (R328). -/

def State.fieldSel (s : State) (f : FieldSel) : Nat × Nat :=
  match f with
  | .imm pos wid => (pos.toNat, wid.toNat)
  | .reg b => (bits (s.gpr .s b).toNat 0 6, bits (s.gpr .s b).toNat 6 7)
def fieldBad (pos wid : Nat) : Bool := wid == 0 || decide (64 < wid) || decide (64 < pos + wid)
/-- An operation on a bit field, or 0x047. -/
def State.fieldOp (s : State) (o : OpInfo) (r : DescField) (f : Word → Word → Nat → Nat → Word) : Out :=
  s.runNow o fun s => do
    let (pos, wid) := s.fieldSel r.f
    raiseIf (fieldBad pos wid) 0x047#10
    .ok (s.landG .s r.d (f (s.gpr .s r.d) (s.gpr .s r.a) pos wid))
def execDfpk (o : OpInfo) (r : DescField) (s : State) : Out := s.fieldOp o r fun d a pos wid => setBits d pos wid a.toNat
def execDfex (o : OpInfo) (r : DescField) (s : State) : Out := s.fieldOp o r fun _ a pos wid => BitVec.ofNat 64 (bits a.toNat pos wid)
def execDfexS (o : OpInfo) (r : DescField) (s : State) : Out := s.fieldOp o r fun _ a pos wid => BitVec.ofInt 64 (sgn wid (bits a.toNat pos wid))

/-! The index slot (R333-R335). -/

def execCadv (o : OpInfo) (r : CadvArgs) (s : State) : Out :=
  s.runNow o fun s =>
    let step : Word := if r.step = 0 then 1 else imm64 r.step
    let new := s.gpr .x r.a + step
    let lim := s.gpr .x r.b
    let c := if r.sg = 1 then decide (new.toInt < lim.toInt) else decide (new.toNat < lim.toNat)
    .ok ((s.landG .x r.d new).landP .xalu r.pd (maskOf c) allBits)

/-- The lowest bit number from `start` on with a given value, 64 when there is none. -/
def firstBit (x : Word) (start : Nat) (want : Bool) : Nat :=
  ((List.range 64).find? fun i => decide (start ≤ i) && x.getLsbD i == want).getD 64
def popCount (x : Word) : Nat := (ones x).length
/-- Zero bits above the highest 1 bit. -/
def leadZeros (x : Word) : Nat := if x = 0 then 64 else 63 - Nat.log2 x.toNat

def execPopc (o : OpInfo) (r : RR) (s : State) : Out := s.alu o r.d fun s => BitVec.ofNat 64 (popCount (s.gpr .x r.a))
def execClz (o : OpInfo) (r : RR) (s : State) : Out := s.alu o r.d fun s => BitVec.ofNat 64 (leadZeros (s.gpr .x r.a))
def execCtz (o : OpInfo) (r : RR) (s : State) : Out := s.alu o r.d fun s => BitVec.ofNat 64 (firstBit (s.gpr .x r.a) 0 true)
def execBscan (o : OpInfo) (r : RRR) (s : State) : Out :=
  s.alu o r.d fun s => BitVec.ofNat 64 (firstBit (s.gpr .x r.a) (shCount (s.gpr .x r.b)) true)
def execBscanc (o : OpInfo) (r : RRR) (s : State) : Out :=
  s.alu o r.d fun s => BitVec.ofNat 64 (firstBit (s.gpr .x r.a) (shCount (s.gpr .x r.b)) false)

end Sys2Proof.Machine
end

