-- ==== Sys2Proof/Machine/Sync.lean ====
section
/-! DEFINITION. Synchronisation and fork operations (R338-R349): waits, flags, posts, barriers, rendezvous, FENCE, CHK, fork. -/
namespace Sys2Proof.Machine

/-- A condition that holds issue at the boundary after this group, on the sequencer at issue (R338). -/
def State.hold (s : State) (h : Hold) : State :=
  if s.issue.svc then s.modCur fun c => { c with svc := { c.svc with hold := c.svc.hold ++ [h] } }
  else s.modCur fun c => { c with grp := { c.grp with holds := c.grp.holds ++ [h] } }

/-! Token waits (R339). -/

/-- The awaited set: the token named and those of the mask. -/
def waitSet (r : WaitArgs) : List Nat := (List.range 8).filter fun i => i == r.a.toNat || r.mask.getLsbD i
/-- A token of the set counts a command that the segment still withholds (R417). -/
def Core.waitsWithheld (c : Core) (set : List Nat) : Bool := c.cmds.any fun k => k.deferred && !k.released && set.contains k.tok
def execWait (o : OpInfo) (r : WaitArgs) (s : State) : Out :=
  s.runNow o fun s => do
    raiseIf (s.cur.waitsWithheld (waitSet r)) 0x0C7#10
    .ok (s.hold (.tokens (waitSet r) s.issue.haddr s.cur.seg.count))

/-! Flags (R340-R342). -/

def execFwait (o : OpInfo) (r : FwaitArgs) (s : State) : Out := s.runNow o fun s => .ok (s.hold (.flagGe r.f.toNat r.n.toNat))
def execFwaitC (o : OpInfo) (r : FwaitArgs) (s : State) : Out := s.runNow o fun s => .ok (s.hold (.flagGeSub r.f.toNat r.n.toNat))
def execFwaitEq (o : OpInfo) (r : FwaitArgs) (s : State) : Out := s.runNow o fun s => .ok (s.hold (.flagEq r.f.toNat r.n.toNat))
def execFpost (o : OpInfo) (r : FpostArgs) (s : State) : Out := s.runNow o fun s => .ok (s.flagInc r.f.toNat (r.n.toNat + 1))
def execFset (o : OpInfo) (r : FsetArgs) (s : State) : Out := s.runNow o fun s => .ok (s.flagPut r.f.toNat r.v)

/-! Posts to other cores (R343). -/

/-- FDROPn counts a discarded post of context n, up to 0xFFFF. -/
def State.dropPost (s : State) (ctx : Nat) : State :=
  if ctx < 64 then
    let v := (s.ioGet (0x14800 + 8 * ctx)).toNat
    s.ioSet (0x14800 + 8 * ctx) (BitVec.ofNat 64 (min (v + 1) 0xFFFF))
  else s

/-- A post reaches its target core: context 64 is a control core's post, which goes to the run that is under way (R343). -/
def State.deliverPost (s : State) (ctx target flag n : Nat) : State :=
  let inc : Half := BitVec.ofNat 16 n
  let c := s.core target
  if isCtl target then
    if ctx = 64 then s.modCore target fun c => c.flagForeign flag inc else s.dropPost ctx
  else if c.chunk.any fun k => if ctx = 64 then c.run != .parked else k.ctx == ctx then s.modCore target fun c => c.flagForeign flag inc
  else if c.resident.any fun r => r.chunk.ctx == ctx then
    s.modCore target fun c => c.modResident ctx fun r => { r with posts := r.posts.put 0 flag (r.posts.getD flag 0 + inc) }
  else s.dropPost ctx

/-- rpost with its target: withheld on a main sequencer, performed at issue on the service sequencer. -/
def State.remotePost (s : State) (target : Int) (flag n : Nat) : Res := do
  raiseIf (decide (target < 0 ∨ 263 < target)) 0x105#10
  if s.issue.svc then .ok (s.deliverPost s.who.ctx target.toNat flag n)
  else
    let c ← s.cur.release (.post target.toNat flag n)
    .ok (s.setCore s.issue.core c)

def execRpost (o : OpInfo) (r : RpostArgs) (s : State) : Out :=
  s.runNow o fun s => s.remotePost ((r.thi.toNat * 32 + r.tlo.toNat : Nat) : Int) r.f.toNat (r.n.toNat + 1)
def execRpostRel (o : OpInfo) (r : RpostArgs) (s : State) : Out :=
  s.runNow o fun s => s.remotePost ((s.issue.core : Int) + sgn 10 (r.thi.toNat * 32 + r.tlo.toNat)) r.f.toNat (r.n.toNat + 1)
def execRpostPred (o : OpInfo) (r : RpostPred) (s : State) : Out :=
  s.runNow o fun s => s.remotePost ((bits (s.cur.rP r.p.toNat).toNat 0 9 : Nat) : Int) r.f.toNat (r.n.toNat + 1)

/-! Barriers and rendezvous (R344-R346). -/

def execBarr (o : OpInfo) (r : BarrArgs) (s : State) : Out := s.runNow o fun s => s.barArrive r.g.toNat

/-- PHASE of a barrier (R118). -/
def State.barPhase (s : State) (g : Nat) : Nat := bits (s.ioGet (0x17008 + 64 * g)).toNat 40 24
/-- Whether the segment withholds an arrival at a barrier. -/
def Core.withholds (c : Core) (g : Nat) : Bool := c.seg.rel.any fun r => r == .arrive g

def execBwait (o : OpInfo) (r : BarrArgs) (s : State) : Out :=
  s.runNow o fun s => do
    s.barCheck r.g.toNat false
    raiseIf (s.cur.withholds r.g.toNat) 0x106#10
    .ok (s.hold (.barrier r.g.toNat))

/-- Releasing an arrival counts it for its core and sends it on its way (R117, R344). -/
def State.sendArrival (s : State) (core g : Nat) : State :=
  let s := s.modCore core fun c => { c with arrived := c.arrived.put 0 g (c.arrived.getD g 0 + 1) }
  { s with flight := s.flight ++ [⟨s.seq, core, s.ctxOf core, .arrive g, s.tmr⟩], seq := s.seq + 1 }

/-- The arrival of a rendezvous is released, once (R346). -/
def State.arriveRdv (s : State) (core g : Nat) : State :=
  (s.sendArrival core g).modCore core fun c => { c with seg := { c.seg with rdvDone := true } }
/-- The bundle's commit has released what the segment withheld and the arrival as its last entry; where it has not, the arrival follows
here (R346). -/
def execRdv (o : OpInfo) (r : BarrArgs) (s : State) : Out :=
  s.runNow o fun s => do
    s.barCheck r.g.toNat true
    raiseIf (!s.issue.ck) 0x107#10
    let s := if s.cur.seg.rdvDone then s else s.arriveRdv s.issue.core r.g.toNat
    .ok (s.hold (.rdv r.g.toNat))

/-! FENCE (R185, R186, R347). -/

/-- On the main sequencer a hold for the operations under way, and a mark among the withheld ones; the service sequencer has
performed its operations at issue. -/
def execFence (o : OpInfo) (r : FenceArgs) (s : State) : Out :=
  s.runNow o fun s =>
    let cls := (~~~r.ncls).toNat
    if s.issue.svc ∨ r.kind = 0 ∨ cls = 0 then .ok s
    else
      let s := s.modCur fun c => { c with seg := { c.seg with rel := c.seg.rel ++ [.mark (r.kind.toNat + if r.scope.toNat = 4 then 32 else 0) cls] } }
      .ok (s.hold (.fence r.kind.toNat r.scope.toNat cls s.seq))

/-! CHK (R214, R215, R348). -/

def execChk (o : OpInfo) (r : ChkArgs) (s : State) : Out :=
  s.runNow o fun s => do
    raiseIf (s.cur.readFile r.fa r.a.toNat != s.cur.readFile r.fb r.b.toNat) 0x140#10
    .ok s

/-! Fork (R121, R349). -/

/-- A core that can take a forked run: no running chunk, no forked run, nothing queued, not reserved (R121). -/
def State.idleCore (s : State) (t : Nat) : Bool :=
  let c := s.core t
  t != s.issue.core && c.chunk.isNone && c.queue.isEmpty && c.reserved.isNone
/-- The target core: this core's cluster with the member that MEM or a predicate names. -/
def State.forkTarget (s : State) (b : BitVec 5) (dyn : BitVec 1) (mem : BitVec 2) : Nat :=
  s.issue.core / 4 * 4 + (if dyn = 1 then bits (s.cur.rP (b.toNat % 16)).toNat 0 2 else mem.toNat)
/-- The target is reserved and s24-s31 are read; the run starts at the next commit. -/
def State.takeFork (s : State) (t : Nat) (entry : Word) : State :=
  let regs := (List.range 8).map fun i => s.cur.rS (24 + i)
  (s.modCore t fun c => { c with reserved := some s.issue.core }).modCur fun c =>
    { c with seg := { c.seg with forks := c.seg.forks ++ [(t, entry, regs)] } }
/-- A predicate result of fprobe lands at position 1 in every mode (R212). -/
def State.landProbe (s : State) (pd : BitVec 4) (b : Bool) : State :=
  if pd = 0 then s else s.modCur fun c => c.landIn 1 (.p pd.toNat) ((maskOf b).setWidth 1024) full64

def execFork (o : OpInfo) (r : ForkArgs) (s : State) : Out :=
  s.runNow o fun s => do
    let t := s.forkTarget r.b r.dyn r.mem
    raiseIf (!s.idleCore t) 0x100#10
    .ok (s.takeFork t (s.relTarget r.entry))
def execFprobe (o : OpInfo) (r : FprobeArgs) (s : State) : Out :=
  s.runNow o fun s => .ok (s.landProbe r.pd (s.idleCore (s.forkTarget r.b r.dyn r.mem)))
def execFprobeF (o : OpInfo) (r : FprobeArgs) (s : State) : Out :=
  s.runNow o fun s =>
    let t := s.forkTarget r.b r.dyn r.mem
    let idle := s.idleCore t
    .ok ((if idle then s.takeFork t (s.relTarget r.entry) else s).landProbe r.pd idle)

end Sys2Proof.Machine
end

