-- ==== Sys2Proof/Machine/VecInt.lean ====
section
/-! DEFINITION. Integer vector operations (R351-R359, R365-R368, R370): arithmetic, logic, shifts, compares, select, reductions,
scans, permutes, broadcast, random words. -/
namespace Sys2Proof.Machine

/-! Shared operations. -/

/-- A vector built element by element at width e (R351). -/
def mapV (e : Nat) (f : Nat → Nat) : Vec := BitVec.ofNat 1024 ((List.range (1024 / e)).foldl (fun t j => t + f j % 2 ^ e * 2 ^ (e * j)) 0)
def elems (e : Nat) : Nat := 1024 / e
/-- Some bit of the guard is true: an operation without one raises no cause (R201). -/
def State.anyGuard (s : State) (o : OpInfo) : Bool := (if o.pi then ~~~(s.cur.rP o.pn.toNat) else s.cur.rP o.pn.toNat) != 0
/-- Elements of width e from `lo` to `lo + n` land under the guard. -/
def State.landRange (s : State) (u : LatUnit) (o : OpInfo) (d : BitVec 5) (e lo n : Nat) (v : Vec) : State :=
  let range : Vec := BitVec.ofNat 1024 ((2 ^ (e * n) - 1) * 2 ^ (e * lo))
  let m := s.guardMask o e (elems e) &&& range
  if m = 0 then s else s.landV u d v m
/-- Every element of width e lands under its guard. -/
def State.landAllE (s : State) (u : LatUnit) (o : OpInfo) (d : BitVec 5) (e : Nat) (v : Vec) : State := s.landRange u o d e 0 (elems e) v
/-- Element 0 lands under Guard(0) (R365). -/
def State.landFirst (s : State) (u : LatUnit) (o : OpInfo) (d : BitVec 5) (e : Nat) (v : Nat) : State :=
  s.landRange u o d e 0 1 (BitVec.ofNat 1024 (v % 2 ^ e))
/-- A vector operation whose causes are raised only when some guard bit is true. -/
def State.vec (s : State) (o : OpInfo) (f : State → Res) : Out := s.runEach o fun s => if s.anyGuard o then f s else .ok s

/-- Elementwise operation on two sources (R355). -/
def State.vInt3 (s : State) (o : OpInfo) (r : VInt3) (f : Nat → Nat → Nat → Nat) : Out :=
  s.vec o fun s =>
    let e := widthOf r.w
    let a := s.cur.rV r.a.toNat
    let b := s.cur.rV r.b.toNat
    .ok (s.landAllE .vint o r.d e (mapV e fun j => f e (elem e a j) (elem e b j)))
/-- Elementwise operation on two sources and the destination's element. -/
def State.vInt4 (s : State) (o : OpInfo) (r : VInt3) (f : Nat → Nat → Nat → Nat → Nat) : Out :=
  s.vec o fun s =>
    let e := widthOf r.w
    let a := s.cur.rV r.a.toNat
    let b := s.cur.rV r.b.toNat
    let d := s.cur.rV r.d.toNat
    .ok (s.landAllE .vint o r.d e (mapV e fun j => f e (elem e d j) (elem e a j) (elem e b j)))
def State.vInt2 (s : State) (o : OpInfo) (r : VInt2) (f : Nat → Nat → Nat) : Out :=
  s.vec o fun s =>
    let e := widthOf r.w
    let a := s.cur.rV r.a.toNat
    .ok (s.landAllE .vint o r.d e (mapV e fun j => f e (elem e a j)))

def sMin (e : Nat) : Int := intMin e true
def sMax (e : Nat) : Int := intMax e true
/-- Signed saturation to e bits. -/
def satS (e : Nat) (x : Int) : Nat := wrapI e (satI x (sMin e) (sMax e))
def satU (e : Nat) (x : Int) : Nat := wrapI e (satI x 0 (2 ^ e - 1))
def pickS (e : Nat) (max : Bool) (a b : Nat) : Nat := if decide (sgn e a ≤ sgn e b) != max then a else b
def pickU (max : Bool) (a b : Nat) : Nat := if decide (a ≤ b) != max then a else b

/-! Arithmetic and logic (R355, R356). -/

def execVadd (o : OpInfo) (r : VInt3) (s : State) : Out := s.vInt3 o r fun _ a b => a + b
def execVsub (o : OpInfo) (r : VInt3) (s : State) : Out := s.vInt3 o r fun e a b => a + 2 ^ e - b
def execVmul (o : OpInfo) (r : VInt3) (s : State) : Out := s.vInt3 o r fun _ a b => a * b
def execVmulhs (o : OpInfo) (r : VInt3) (s : State) : Out := s.vInt3 o r fun e a b => wrapI e (sgn e a * sgn e b / (2 ^ e : Nat))
def execVmulhu (o : OpInfo) (r : VInt3) (s : State) : Out := s.vInt3 o r fun e a b => a * b / 2 ^ e
def execVmin (o : OpInfo) (r : VInt3) (s : State) : Out := s.vInt3 o r fun e a b => pickS e false a b
def execVmax (o : OpInfo) (r : VInt3) (s : State) : Out := s.vInt3 o r fun e a b => pickS e true a b
def execVminu (o : OpInfo) (r : VInt3) (s : State) : Out := s.vInt3 o r fun _ a b => pickU false a b
def execVmaxu (o : OpInfo) (r : VInt3) (s : State) : Out := s.vInt3 o r fun _ a b => pickU true a b
def execVadds (o : OpInfo) (r : VInt3) (s : State) : Out := s.vInt3 o r fun e a b => satS e (sgn e a + sgn e b)
def execVsubs (o : OpInfo) (r : VInt3) (s : State) : Out := s.vInt3 o r fun e a b => satS e (sgn e a - sgn e b)
def execVaddus (o : OpInfo) (r : VInt3) (s : State) : Out := s.vInt3 o r fun e a b => satU e ((a : Int) + b)
def execVsubus (o : OpInfo) (r : VInt3) (s : State) : Out := s.vInt3 o r fun e a b => satU e ((a : Int) - b)
def execVabs (o : OpInfo) (r : VInt2) (s : State) : Out := s.vInt2 o r fun e a => wrapI e (sgn e a).natAbs
def execVneg (o : OpInfo) (r : VInt2) (s : State) : Out := s.vInt2 o r fun e a => 2 ^ e - a
def execVand (o : OpInfo) (r : VInt3) (s : State) : Out := s.vInt3 o r fun _ a b => a &&& b
def execVor (o : OpInfo) (r : VInt3) (s : State) : Out := s.vInt3 o r fun _ a b => a ||| b
def execVxor (o : OpInfo) (r : VInt3) (s : State) : Out := s.vInt3 o r fun _ a b => a ^^^ b
def execVandn (o : OpInfo) (r : VInt3) (s : State) : Out := s.vInt3 o r fun e a b => a &&& (2 ^ e - 1 - b)
def execVmov (o : OpInfo) (r : VInt2) (s : State) : Out := s.vInt2 o r fun _ a => a
def execVmulq (o : OpInfo) (r : VInt3) (s : State) : Out :=
  s.vInt3 o r fun e a b => satS e ((sgn e a * sgn e b + (2 ^ (e - 2) : Nat)) / (2 ^ (e - 1) : Nat))
def execVmac (o : OpInfo) (r : VInt3) (s : State) : Out := s.vInt4 o r fun _ d a b => d + a * b
def execVmacs (o : OpInfo) (r : VInt3) (s : State) : Out := s.vInt4 o r fun e d a b => satS e (sgn e d + sgn e a * sgn e b)

/-- Widening multiply-accumulate of the low or high half of the sources (R356). -/
def State.vWiden (s : State) (o : OpInfo) (r : VInt3) (high : Bool) : Out :=
  s.vec o fun s => do
    let e := widthOf r.w
    raiseIf (e == 64) 0x040#10
    let h := if high then elems e / 2 else 0
    let a := s.cur.rV r.a.toNat
    let b := s.cur.rV r.b.toNat
    let d := s.cur.rV r.d.toNat
    .ok (s.landAllE .vint o r.d (2 * e) (mapV (2 * e) fun i =>
      wrapI (2 * e) (sgn (2 * e) (elem (2 * e) d i) + sgn e (elem e a (i + h)) * sgn e (elem e b (i + h)))))
def execVmacwl (o : OpInfo) (r : VInt3) (s : State) : Out := s.vWiden o r false
def execVmacwh (o : OpInfo) (r : VInt3) (s : State) : Out := s.vWiden o r true

/-! Shifts (R357). -/

def shlE (e a c : Nat) : Nat := if e ≤ c then 0 else a * 2 ^ c
def shrE (e a c : Nat) : Nat := if e ≤ c then 0 else a / 2 ^ c
def sraE (e a c : Nat) : Nat := wrapI e (sgn e a / (2 ^ (min c (e - 1)) : Nat))
def rolE (e a c : Nat) : Nat := let k := c % e; a * 2 ^ k % 2 ^ e + a / 2 ^ (e - k)
def execVshl (o : OpInfo) (r : VInt3) (s : State) : Out := s.vInt3 o r fun e a b => shlE e a (b % 64)
def execVshr (o : OpInfo) (r : VInt3) (s : State) : Out := s.vInt3 o r fun e a b => shrE e a (b % 64)
def execVsra (o : OpInfo) (r : VInt3) (s : State) : Out := s.vInt3 o r fun e a b => sraE e a (b % 64)
def execVrol (o : OpInfo) (r : VInt3) (s : State) : Out := s.vInt3 o r fun e a b => rolE e a (b % 64)
/-- Shift by K, or 0x04A. -/
def State.vShiftK (s : State) (o : OpInfo) (r : VIntK) (f : Nat → Nat → Nat → Nat) : Out :=
  s.vec o fun s => do
    let e := widthOf r.w
    raiseIf (decide (e ≤ r.k.toNat)) 0x04A#10
    let a := s.cur.rV r.a.toNat
    .ok (s.landAllE .vint o r.d e (mapV e fun j => f e (elem e a j) r.k.toNat))
def execVshlImm (o : OpInfo) (r : VIntK) (s : State) : Out := s.vShiftK o r shlE
def execVshrImm (o : OpInfo) (r : VIntK) (s : State) : Out := s.vShiftK o r shrE
def execVsraImm (o : OpInfo) (r : VIntK) (s : State) : Out := s.vShiftK o r sraE
def execVrolImm (o : OpInfo) (r : VIntK) (s : State) : Out := s.vShiftK o r rolE

/-! Compare and select (R358, R359). -/

/-- A condition of R320 on two elements of width e. -/
def conditionE (cc e a b : Nat) : Bool :=
  condition cc (BitVec.ofInt 64 (sgn e a)) (BitVec.ofInt 64 (sgn e b))
/-- The same with zero extension for the unsigned conditions. -/
def conditionV (cc e a b : Nat) : Bool :=
  if cc = 4 ∨ cc = 5 ∨ cc = 8 ∨ cc = 9 then condition cc (BitVec.ofNat 64 a) (BitVec.ofNat 64 b) else conditionE cc e a b
/-- Predicate bits that a comparison of width e writes: value and mask (R358). -/
def predBits (e : Nat) (guard : Nat → Bool) (c : Nat → Bool) : Word × Word :=
  (List.range 64).foldl (fun q i =>
    let b := if e = 8 then c (2 * i) && c (2 * i + 1) else c (i * 16 / e)
    let g := if e = 8 then guard i else guard (i * 16 / e * e / 16)
    let bit := BitVec.ofNat 64 (2 ^ i)
    if g then (if b then q.1 ||| bit else q.1, q.2 ||| bit) else q) (0, 0)
def State.landCmp (s : State) (u : LatUnit) (o : OpInfo) (pd : BitVec 4) (e : Nat) (c : Nat → Bool) : State :=
  let q := predBits e (s.cur.guardBit o) c
  s.landP u pd q.1 q.2
def execVcmp (o : OpInfo) (r : VCmp) (s : State) : Out :=
  s.vec o fun s =>
    let e := widthOf r.w
    let a := s.cur.rV r.a.toNat
    let b := s.cur.rV r.b.toNat
    .ok (s.landCmp .vint o r.pd e fun j => conditionV r.cc.toNat e (elem e a j) (elem e b j))
def execVsel (o : OpInfo) (r : VSel) (s : State) : Out :=
  s.vec o fun s =>
    let e := widthOf r.w
    let a := s.cur.rV r.a.toNat
    let b := s.cur.rV r.b.toNat
    let c := s.cur.rP r.c.toNat
    .ok (s.landAllE .vint o r.d e (mapV e fun j => if c.getLsbD (j * e / 16) then elem e a j else elem e b j))

/-! Reductions and scans (R365, R366). -/

def elemList (e : Nat) (v : Vec) : List Nat := (List.range (elems e)).map (elem e v)
def State.vReduce (s : State) (o : OpInfo) (r : VInt2) (f : Nat → Nat → Nat → Nat) : Out :=
  s.vec o fun s =>
    let e := widthOf r.w
    match elemList e (s.cur.rV r.a.toNat) with
    | [] => .ok s
    | x :: t => .ok (s.landFirst .vint o r.d e (t.foldl (f e) x))
def execVradd (o : OpInfo) (r : VInt2) (s : State) : Out := s.vReduce o r fun _ x y => x + y
def execVrmin (o : OpInfo) (r : VInt2) (s : State) : Out := s.vReduce o r fun e x y => pickS e false x y
def execVrmax (o : OpInfo) (r : VInt2) (s : State) : Out := s.vReduce o r fun e x y => pickS e true x y
def execVrminu (o : OpInfo) (r : VInt2) (s : State) : Out := s.vReduce o r fun _ x y => pickU false x y
def execVrmaxu (o : OpInfo) (r : VInt2) (s : State) : Out := s.vReduce o r fun _ x y => pickU true x y
def execVrand (o : OpInfo) (r : VInt2) (s : State) : Out := s.vReduce o r fun _ x y => x &&& y
def execVror (o : OpInfo) (r : VInt2) (s : State) : Out := s.vReduce o r fun _ x y => x ||| y
def execVrxor (o : OpInfo) (r : VInt2) (s : State) : Out := s.vReduce o r fun _ x y => x ^^^ y

/-- Running values of a combination, one for each prefix. -/
def prefixes (f : Nat → Nat → Nat) : Nat → List Nat → List Nat
  | _, [] => []
  | acc, x :: t => f acc x :: prefixes f (f acc x) t
def vecOf (e : Nat) (l : List Nat) : Vec := mapV e fun j => l.getD j 0
def scanList (f : Nat → Nat → Nat) : List Nat → List Nat
  | [] => []
  | x :: t => x :: prefixes f x t
def State.vScan (s : State) (o : OpInfo) (r : VInt2) (f : Nat → Nat → Nat → Nat) : Out :=
  s.vec o fun s =>
    let e := widthOf r.w
    .ok (s.landAllE .vint o r.d e (vecOf e (scanList (f e) (elemList e (s.cur.rV r.a.toNat)))))
def execVscanadd (o : OpInfo) (r : VInt2) (s : State) : Out := s.vScan o r fun _ x y => x + y
def execVscanaddx (o : OpInfo) (r : VInt2) (s : State) : Out :=
  s.vec o fun s =>
    let e := widthOf r.w
    .ok (s.landAllE .vint o r.d e (vecOf e (0 :: scanList (fun x y => x + y) (elemList e (s.cur.rV r.a.toNat)))))
def execVscanmax (o : OpInfo) (r : VInt2) (s : State) : Out := s.vScan o r fun e x y => pickS e true x y
def execVscanmin (o : OpInfo) (r : VInt2) (s : State) : Out := s.vScan o r fun e x y => pickS e false x y
def execVscanmaxu (o : OpInfo) (r : VInt2) (s : State) : Out := s.vScan o r fun _ x y => pickU true x y
def execVscanminu (o : OpInfo) (r : VInt2) (s : State) : Out := s.vScan o r fun _ x y => pickU false x y

/-! Permutes and broadcast (R367, R368). -/

/-- A permute of two sources: the value of destination element j among n. -/
def State.vPerm (s : State) (o : OpInfo) (r : VInt3) (f : Nat → (Nat → Nat) → (Nat → Nat) → Nat → Nat) : Out :=
  s.vec o fun s =>
    let e := widthOf r.w
    let a := s.cur.rV r.a.toNat
    let b := s.cur.rV r.b.toNat
    .ok (s.landAllE .vint o r.d e (mapV e (f (elems e) (elem e a) (elem e b))))
/-- A permute with a constant below a limit, or 0x04A. -/
def State.vPermK (s : State) (o : OpInfo) (r : VIntK) (f : Nat → (Nat → Nat) → Nat → Nat) : Out :=
  s.vec o fun s => do
    let e := widthOf r.w
    raiseIf (decide (elems e ≤ r.k.toNat)) 0x04A#10
    let a := s.cur.rV r.a.toNat
    .ok (s.landAllE .vint o r.d e (mapV e (f (elems e) (elem e a))))
def execVperm (o : OpInfo) (r : VInt3) (s : State) : Out := s.vPerm o r fun n a b j => a (b j % n)
def execVrot (o : OpInfo) (r : VIntK) (s : State) : Out := s.vPermK o r fun n a j => a ((j + r.k.toNat) % n)
def execVext (o : OpInfo) (r : VExt) (s : State) : Out :=
  s.vec o fun s => do
    let e := widthOf r.w
    let n := elems e
    raiseIf (decide (n < r.k.toNat)) 0x04A#10
    let a := s.cur.rV r.a.toNat
    let b := s.cur.rV r.b.toNat
    .ok (s.landAllE .vint o r.d e (mapV e fun j => if j + r.k.toNat < n then elem e a (j + r.k.toNat) else elem e b (j + r.k.toNat - n)))
/-- Interleaving from element h on. -/
def zipE (h : Nat) (a b : Nat → Nat) (j : Nat) : Nat := if j % 2 = 0 then a (j / 2 + h) else b (j / 2 + h)
def execVzipl (o : OpInfo) (r : VInt3) (s : State) : Out := s.vPerm o r fun _ a b j => zipE 0 a b j
def execVziph (o : OpInfo) (r : VInt3) (s : State) : Out := s.vPerm o r fun n a b j => zipE (n / 2) a b j
/-- The even or odd elements of both sources. -/
def unzipE (n odd : Nat) (a b : Nat → Nat) (j : Nat) : Nat := if j < n / 2 then a (2 * j + odd) else b (2 * (j - n / 2) + odd)
def execVuzpe (o : OpInfo) (r : VInt3) (s : State) : Out := s.vPerm o r fun n a b j => unzipE n 0 a b j
def execVuzpo (o : OpInfo) (r : VInt3) (s : State) : Out := s.vPerm o r fun n a b j => unzipE n 1 a b j
def execVsplat (o : OpInfo) (r : VIntK) (s : State) : Out := s.vPermK o r fun _ a _ => a r.k.toNat
def execVrev (o : OpInfo) (r : VInt2) (s : State) : Out :=
  s.vec o fun s =>
    let e := widthOf r.w
    let a := s.cur.rV r.a.toNat
    .ok (s.landAllE .vint o r.d e (mapV e fun j => elem e a (elems e - 1 - j)))
def execVbcast (o : OpInfo) (r : RLong) (s : State) : Out :=
  s.vec o fun s => .ok (s.landAllE .vint o r.d 64 (mapV 64 fun _ => (imm64 r.imm).toNat))

/-! Random words (R271, R272, R370). -/

/-- Draw k consecutive words of a stream. -/
def State.draw (s : State) (str k : Nat) : List Nat × State :=
  let c := s.cur
  let ctr := (c.arch.srctr.getD str 0).toNat
  ((List.range k).map fun i => randWord c.arch.seed.toNat s.issue.core str ((ctr + i) % 2 ^ 64),
    s.modCur fun c => { c with arch := { c.arch with srctr := c.arch.srctr.put 0 str (BitVec.ofNat 64 (ctr + k)) } })
/-- The 32-bit random value of element j among drawn words (R272). -/
def randOf (ws : List Nat) (j : Nat) : Nat := ws.getD (j / 2) 0 / 2 ^ (32 * (j % 2)) % 2 ^ 32

def execVrnd (o : OpInfo) (r : VRndArgs) (s : State) : Out :=
  s.vec o fun s =>
    if s.guardMask o 64 16 = 0 then .ok s
    else
      let (ws, s) := s.draw r.str.toNat 16
      .ok (s.landAllE .vint o r.d 64 (vecOf 64 ws))

end Sys2Proof.Machine
end

