-- ==== Sys2Proof/Machine/VecFp.lean ====
section
/-! DEFINITION. Floating vector operations (R360-R366): arithmetic, fused multiply-add, compares, conversions, quantisation to block
formats, floating reductions and scans. -/
namespace Sys2Proof.Machine

/-! Shared operations. -/

/-- A format among an allowed set, or 0x040 (R353). -/
def fmtIn (ok : List Nat) (f : BitVec 4) : Except TrapInfo Nat := if ok.contains f.toNat then .ok f.toNat else trapC 0x040#10
def arithFmts : List Nat := [7, 8, 9, 10]
/-- A floating arithmetic format, or 0x040. -/
def floatFmt (ok : List Nat) (f : BitVec 4) : Except TrapInfo Fmt := do
  let k ← fmtIn ok f
  match floatOf k with
  | some g => .ok g
  | none => trapC 0x040#10
/-- A rounding mode, or 0x046 (R267). -/
def modeIn (rm : BitVec 3) : Except TrapInfo Mode := match modeOf rm with | some m => .ok m | none => trapC 0x046#10

/-- Random values for an operation over n source elements: drawn only under SR and when a guard bit is true (R272). -/
def State.drawFor (s : State) (m : Mode) (str : BitVec 4) (n : Nat) (live : Bool) : (Nat → Nat) × State :=
  if m = .sr ∧ live then let (ws, s) := s.draw str.toNat ((n + 1) / 2); (randOf ws, s) else (fun _ => 0, s)

/-- Elementwise floating operation with a rounding: f gives the exact value from the elements of D, A and B (R360, R361). -/
def State.vFloat (s : State) (o : OpInfo) (d a b : BitVec 5) (fmt : BitVec 4) (rm : BitVec 3) (sat : BitVec 1) (str : BitVec 4)
    (ok : List Nat) (f : Bool → FVal → FVal → FVal → RVal) : Out :=
  s.vec o fun s => do
    let g ← floatFmt ok fmt
    let m ← modeIn rm
    let n := elems g.w
    let va := s.cur.rV a.toNat
    let vb := s.cur.rV b.toNat
    let vd := s.cur.rV d.toNat
    let (u, s) := s.drawFor m str n (s.guardMask o g.w n != 0)
    .ok (s.landAllE .vflt o d g.w (mapV g.w fun j =>
      roundR g m (sat == 1) (u j) (f (m == .rdn) (decF g (elem g.w vd j)) (decF g (elem g.w va j)) (decF g (elem g.w vb j)))))

def State.vFp3 (s : State) (o : OpInfo) (r : VFp3) (f : Bool → FVal → FVal → FVal → RVal) : Out :=
  s.vFloat o r.d r.a r.b r.fmt r.rm r.sat r.str arithFmts f
def State.vFp2 (s : State) (o : OpInfo) (r : VFp2) (ok : List Nat) (f : FVal → RVal) : Out :=
  s.vFloat o r.d r.a r.a r.fmt r.rm r.sat r.str ok fun _ _ a _ => f a

/-! Arithmetic (R360, R361). -/

def execVfadd (o : OpInfo) (r : VFp3) (s : State) : Out := s.vFp3 o r fun rdn _ a b => .exact (addF rdn a b)
def execVfsub (o : OpInfo) (r : VFp3) (s : State) : Out := s.vFp3 o r fun rdn _ a b => .exact (addF rdn a b.neg)
def execVfmul (o : OpInfo) (r : VFp3) (s : State) : Out := s.vFp3 o r fun _ _ a b => .exact (mulF a b)
def execVfdiv (o : OpInfo) (r : VFp3) (s : State) : Out := s.vFp3 o r fun _ _ a b => divF a b
def execVfsqrt (o : OpInfo) (r : VFp2) (s : State) : Out := s.vFp2 o r arithFmts sqrtF
def execVfma (o : OpInfo) (r : VFp3) (s : State) : Out := s.vFp3 o r fun rdn d a b => .exact (addF rdn (mulF a b) d)
def execVfms (o : OpInfo) (r : VFp3) (s : State) : Out := s.vFp3 o r fun rdn d a b => .exact (addF rdn (mulF a b) d.neg)
def execVfnma (o : OpInfo) (r : VFp3) (s : State) : Out := s.vFp3 o r fun rdn d a b => .exact (addF rdn (mulF a b).neg d)
def execVfnms (o : OpInfo) (r : VFp3) (s : State) : Out := s.vFp3 o r fun rdn d a b => .exact (addF rdn (mulF a b).neg d.neg)

/-- Elementwise operation on codes, without a rounding. -/
def State.vCodes (s : State) (o : OpInfo) (d a b : BitVec 5) (fmt : BitVec 4) (f : Fmt → Nat → Nat → Nat) : Out :=
  s.vec o fun s => do
    let g ← floatFmt arithFmts fmt
    let va := s.cur.rV a.toNat
    let vb := s.cur.rV b.toNat
    .ok (s.landAllE .vflt o d g.w (mapV g.w fun j => f g (elem g.w va j) (elem g.w vb j)))
def execVfmin (o : OpInfo) (r : VFmt3) (s : State) : Out := s.vCodes o r.d r.a r.b r.fmt fun g a b => minmaxF g false a b
def execVfmax (o : OpInfo) (r : VFmt3) (s : State) : Out := s.vCodes o r.d r.a r.b r.fmt fun g a b => minmaxF g true a b
def execVfabs (o : OpInfo) (r : VFmt2) (s : State) : Out :=
  s.vCodes o r.d r.a r.a r.fmt fun g a _ => if (decF g a).isNan then nanOf g else a % 2 ^ (g.w - 1)
def execVfneg (o : OpInfo) (r : VFmt2) (s : State) : Out :=
  s.vCodes o r.d r.a r.a r.fmt fun g a _ => if (decF g a).isNan then nanOf g else a ^^^ 2 ^ (g.w - 1)

def execVfcmp (o : OpInfo) (r : VFCmp) (s : State) : Out :=
  s.vec o fun s => do
    let g ← floatFmt arithFmts r.fmt
    let va := s.cur.rV r.a.toNat
    let vb := s.cur.rV r.b.toNat
    .ok (s.landCmp .vflt o r.pd g.w fun j => fcond r.cc.toNat (decF g (elem g.w va j)) (decF g (elem g.w vb j)))

/-! Conversions (R269, R362). -/

def cvtFmts : List Nat := [0, 1, 2, 3, 4, 5, 7, 8, 9, 10]
def execVcvt (o : OpInfo) (r : VCvt) (s : State) : Out :=
  s.vec o fun s => do
    let src ← fmtIn cvtFmts r.fmt
    let dst ← fmtIn cvtFmts r.fmt2
    let m ← modeIn r.rm
    let ws := fmtWidth src
    let wd := fmtWidth dst
    let narrow := decide (wd ≤ ws)
    let ratio := if narrow then ws / wd else wd / ws
    let n := if narrow then 1024 / ws else 1024 / wd
    let part := r.part.toNat
    raiseIf (decide (ratio ≤ part)) 0x04A#10
    let lo := if narrow then part * n else 0
    let a := s.cur.rV r.a.toNat
    let range : Vec := BitVec.ofNat 1024 ((2 ^ (wd * n) - 1) * 2 ^ (wd * lo))
    let (u, s) := s.drawFor m r.str (1024 / ws) (s.guardMask o wd (elems wd) &&& range != 0)
    let unit := if (floatOf src).isNone && (floatOf dst).isNone then LatUnit.vint else .vflt
    .ok (s.landRange unit o r.d wd lo n (mapV wd fun i =>
      let j := if narrow then i - lo else part * n + i
      if lo ≤ i then convert src dst m (r.sat == 1) (u j) (elem ws a j) else 0))

/-! Quantisation to block formats (R363, R364). -/

/-- Bytes of codes that a block occupies: 16 for E2M1S, 32 for the 8-bit formats. -/
def blockBytes (f : Nat) : Nat := if f = 6 then 16 else 32

/-- Magnitudes of the grid of R260, in code order. -/
def gridMags : List Nat := [0, 2, 4, 6, 8, 12, 16, 24]

/-- The grid code (without spare) of ± y/den in a mode: nearest modes break ties to the even code or away from zero, SR follows
R270 on the grid taken as unbounded above its last step. -/
def gridCode (m : Mode) (u : Nat) (neg : Bool) (y den : Nat) : Nat :=
  let up := match (List.range 8).find? fun i => decide (y ≤ gridMags.getD i 0 * den) with | some i => i | none => 8
  if up = 8 then (if neg then 15 else 7)
  else
    let hi := gridMags.getD up 0 * den
    let mag :=
      if up = 0 ∨ hi = y then up
      else
        let lo := gridMags.getD (up - 1) 0 * den
        let near : Bool := match m with
          | .rne => decide (hi - y < y - lo) || (decide (hi - y = y - lo) && up % 2 == 0)
          | .rna => decide (hi - y ≤ y - lo)
          | .sr =>
            if neg then !decide (2 ^ 32 ≤ (hi - y) * 2 ^ 32 / (hi - lo) + u)
            else decide (2 ^ 32 ≤ (y - lo) * 2 ^ 32 / (hi - lo) + u)
          | _ => false
        if near then up else up - 1
    if mag = 0 then 0 else if neg then 8 + mag else mag

/-- The entry (spare and scale) and the codes of one block of 32 values (R363). `fmt` is 6, 4 or 5. -/
def quantBlock (fmt : Nat) (m : Mode) (sat : Bool) (u : Nat → Nat) (x : List FVal) : Nat × List Nat :=
  let off : Int := if fmt = 6 then 2 else if fmt = 4 then 8 else 15
  if x.any fun v => match v with | .num _ _ _ => false | _ => true then (0xFF, List.replicate 32 0)
  else if x.all FVal.isZero then (0x7F, List.replicate 32 0)
  else
    let top : Int := x.foldl (fun t v => match v with
      | .num _ k e => if k = 0 then t else max t (e + ilog2 k)
      | _ => t) (-100000)
    let sc := (satI (top - off + 127) 0 254).toNat
    if fmt = 6 then
      -- y = x × 2^(129 − s) as integers over one denominator
      let ey : Int := x.foldl (fun t v => match v with | .num _ k e => if k = 0 then t else min t (e + 129 - sc) | _ => t) 0
      let den := 2 ^ (-ey).toNat
      let ys : List (Bool × Nat) := x.map fun v => match v with
        | .num neg k e => (neg, if k = 0 then 0 else k * 2 ^ (e + 129 - sc - ey).toNat)
        | _ => (false, 0)
      let gs := (ys.zip (List.range 32)).map fun q => gridCode m (u q.2) q.1.1 q.1.2 den
      let val (q : Bool × Nat) : Int := sgnd q.1 q.2
      let errs := (ys.zip gs).map fun q => (val q.1 - e2m1g 0 q.2 * (den : Int)).natAbs
      let worst := errs.foldl max 0
      let k := (errs.findIdx? (· == worst)).getD 0
      let yk := ys.getD k (false, 0)
      let sp : Int := if worst = 0 then 0
        else satI (sgnd yk.1 (roundAt .rne 0 yk.1 yk.2 ey false 0)) (-128) 127
      let codes := ((ys.zip gs).zip errs).map fun q =>
        if (val q.1.1 - sp * (den : Int)).natAbs < q.2 then 8 else q.1.2
      (wrapI 8 sp * 256 + sc, codes)
    else
      let g := if fmt = 4 then fE4M3 else fE5M2
      (sc, (x.zip (List.range 32)).map fun q => match q.1 with
        | .num neg k e => roundF g m sat (u q.2) (.num neg k (e + 127 - sc))
        | v => roundF g m sat 0 v)

/-- Codes of a block packed as in R261. -/
def packBlock (fmt : Nat) (codes : List Nat) : Nat :=
  let w := if fmt = 6 then 4 else 8
  (codes.zip (List.range 32)).foldl (fun t q => t + q.1 % 2 ^ w * 2 ^ (w * q.2)) 0

def State.quantise (s : State) (o : OpInfo) (r : VQnt) (fmt : Nat) : Out :=
  s.runNow o fun s => do
    let g ← floatFmt [7, 8, 9] r.fmt
    let m ← modeIn r.rm
    raiseIf (m == .rdn || m == .rup) 0x040#10
    let nb := 1024 / g.w / 32
    let c := blockBytes fmt
    let q0 := r.part.toNat * nb
    raiseIf (decide (128 / c < q0 + nb)) 0x04A#10
    let a := s.cur.rV r.a.toNat
    let (u, s) := s.drawFor m r.str (1024 / g.w) true
    let blocks := (List.range nb).map fun b =>
      quantBlock fmt m (r.sat == 1) (fun k => u (32 * b + k)) ((List.range 32).map fun k => decF g (elem g.w a (32 * b + k)))
    let codes : Vec := BitVec.ofNat 1024 ((blocks.zip (List.range nb)).foldl (fun t q => t + packBlock fmt q.1.2 * 2 ^ (8 * c * (q0 + q.2))) 0)
    let ents : Vec := BitVec.ofNat 1024 ((blocks.zip (List.range nb)).foldl (fun t q => t + q.1.1 * 2 ^ (16 * (q0 + q.2))) 0)
    let mc : Vec := BitVec.ofNat 1024 ((2 ^ (8 * c * nb) - 1) * 2 ^ (8 * c * q0))
    let me : Vec := BitVec.ofNat 1024 ((2 ^ (16 * nb) - 1) * 2 ^ (16 * q0))
    .ok ((s.landV .vflt r.d codes mc).landV .vflt r.b ents me)
def execVqntE2m1s (o : OpInfo) (r : VQnt) (s : State) : Out := s.quantise o r 6
def execVqntE4m3 (o : OpInfo) (r : VQnt) (s : State) : Out := s.quantise o r 4
def execVqntE5m2 (o : OpInfo) (r : VQnt) (s : State) : Out := s.quantise o r 5

/-- The exact value of element k of a block with its entry (R260, R262). -/
def blockVal (fmt : Nat) (entry code : Nat) : FVal :=
  let sc : Int := (entry % 256 : Nat)
  if sc = 255 then .nan
  else if fmt = 6 then .ofInt (e2m1g (entry / 256 % 256) code) (sc - 129) false
  else match decF (if fmt = 4 then fE4M3 else fE5M2) code with
    | .num neg m e => .num neg m (e + sc - 127)
    | v => v

def execVdqnt (o : OpInfo) (r : VDqnt) (s : State) : Out :=
  s.vec o fun s => do
    let src ← fmtIn [4, 5, 6] r.fmt
    let g ← floatFmt [7, 8, 9] r.fmt2
    let m ← modeIn r.rm
    let nb := 1024 / g.w / 32
    let c := blockBytes src
    let q0 := r.part.toNat * nb
    raiseIf (decide (128 / c < q0 + nb)) 0x04A#10
    let a := s.cur.rV r.a.toNat
    let b := s.cur.rV r.b.toNat
    let w := if src = 6 then 4 else 8
    -- a draw covers every element of the source register (R272)
    let (u, s) := s.drawFor m r.str (1024 / w) (s.guardMask o g.w (elems g.w) != 0)
    .ok (s.landAllE .vflt o r.d g.w (mapV g.w fun i =>
      let j := q0 * 32 + i
      roundF g m (r.sat == 1) (u j) (blockVal src (elem 16 b (j / 32)) (elem w a j))))

/-! Floating reductions and scans (R365, R366). -/

def sumF (rdn : Bool) : List FVal → FVal
  | [] => .num false 0 0
  | x :: t => t.foldl (addF rdn) x
def fvals (g : Fmt) (v : Vec) : List FVal := (elemList g.w v).map (decF g)

def execVrfadd (o : OpInfo) (r : VRed) (s : State) : Out :=
  s.vec o fun s => do
    let g ← floatFmt arithFmts r.fmt
    let m ← modeIn r.rm
    let v := s.cur.rV r.a.toNat
    let (u, s) := s.drawFor m r.str (elems g.w) (s.guardE o g.w 0)
    .ok (s.landFirst .vflt o r.d g.w (roundF g m false (u 0) (sumF (m == .rdn) (fvals g v))))
def State.vReduceF (s : State) (o : OpInfo) (r : VRed) (max : Bool) : Out :=
  s.vec o fun s => do
    let g ← floatFmt arithFmts r.fmt
    let _ ← modeIn r.rm
    -- vrfadd alone draws (R365)
    match elemList g.w (s.cur.rV r.a.toNat) with
    | [] => .ok s
    | x :: t => .ok (s.landFirst .vflt o r.d g.w (t.foldl (minmaxF g max) x))
def execVrfmin (o : OpInfo) (r : VRed) (s : State) : Out := s.vReduceF o r false
def execVrfmax (o : OpInfo) (r : VRed) (s : State) : Out := s.vReduceF o r true

/-- Exact prefix sums. -/
def prefixF (rdn : Bool) : FVal → List FVal → List FVal
  | _, [] => []
  | acc, x :: t => addF rdn acc x :: prefixF rdn (addF rdn acc x) t
def scanF (rdn : Bool) : List FVal → List FVal
  | [] => []
  | x :: t => x :: prefixF rdn x t
def execVscanfadd (o : OpInfo) (r : VRed) (s : State) : Out :=
  s.vec o fun s => do
    let g ← floatFmt arithFmts r.fmt
    let m ← modeIn r.rm
    let v := s.cur.rV r.a.toNat
    let (u, s) := s.drawFor m r.str (elems g.w) (s.guardMask o g.w (elems g.w) != 0)
    let sums := (scanF (m == .rdn) (fvals g v)).zip (List.range (elems g.w))
    .ok (s.landAllE .vflt o r.d g.w (vecOf g.w (sums.map fun q => roundF g m false (u q.2) q.1)))

end Sys2Proof.Machine
end

