-- ==== Sys2Proof/Machine/Transc.lean ====
section
/-! DEFINITION. Transcendental functions, correctly rounded (R369). Every function is evaluated in fixed point with 440 fraction bits;
its exact values are taken apart, and every other value is irrational, so that it lies strictly between two fixed-point numbers
(log 16). -/
namespace Sys2Proof.Machine

/-- Fraction bits of the evaluation. -/
def fxBits : Nat := 440
def fxOne : Nat := 2 ^ fxBits
/-- π and ln 2 with 448 fraction bits, cut to 440. -/
def fxPi : Nat := 0x3243f6a8885a308d313198a2e03707344a4093822299f31d0082efa98ec4e6c89452821e638d01377be5466cf34e90c6cc0ac29b7c97c50dd / 2 ^ 8
def fxLn2 : Nat := 0xb17217f7d1cf79abc9e3b39803f2f6af40f343267298b62d8a0d175b8baafa2be7b876206debac98559552fb4afa1b10ed2eae35c1382144 / 2 ^ 8
def fxMul (a b : Nat) : Nat := a * b / fxOne

/-- m × 2^e in fixed point, rounded down. -/
def fxOf (m : Nat) (e : Int) : Nat := let k := e + fxBits; if 0 ≤ k then m * 2 ^ k.toNat else m / 2 ^ (-k).toNat

/-- Σ x^k ÷ k! from term t = x^k ÷ k! on. -/
def expSum (x : Nat) : Nat → Nat → Nat → Nat
  | 0, _, _ => 0
  | n + 1, k, t => t + expSum x n (k + 1) (fxMul t x / (k + 1))
/-- e^x for 0 ≤ x < 1. -/
def fxExp (x : Nat) : Nat := expSum x 110 0 fxOne
/-- 2^f for 0 ≤ f < 1. -/
def fxExp2 (f : Nat) : Nat := fxExp (fxMul f fxLn2)

/-- Alternating series of sine (from x) and cosine (from 1): terms with falling sign. -/
def trigSum (x2 : Nat) : Nat → Nat → Nat → Int
  | 0, _, _ => 0
  | n + 1, k, t => (t : Int) - trigSum x2 n (k + 2) (fxMul t x2 / ((k + 1) * (k + 2)))
def fxSin (x : Nat) : Nat := (trigSum (fxMul x x) 60 1 x).toNat
def fxCos (x : Nat) : Nat := (trigSum (fxMul x x) 60 0 fxOne).toNat

/-- Σ z^k ÷ k over odd k. -/
def atanhSum (z2 : Nat) : Nat → Nat → Nat → Nat
  | 0, _, _ => 0
  | n + 1, k, t => t / k + atanhSum z2 n (k + 2) (fxMul t z2)
/-- log2 of a fixed-point number in [1, 2). -/
def fxLog2 (m : Nat) : Nat :=
  let z := (m - fxOne) * fxOne / (m + fxOne)
  2 * atanhSum (fxMul z z) 150 1 z * fxOne / fxLn2

/-- A value strictly between two neighbouring fixed-point magnitudes. -/
def fxNear (neg : Bool) (m : Nat) : RVal := .near ⟨neg, m, -(fxBits : Int), true⟩

def rcpF (a : FVal) : RVal := divF (.num false 1 0) a

/-- 1 ÷ √a (R369). -/
def rsqrtF : FVal → RVal
  | .nan => .exact .nan
  | .inf a => .exact (if a then .nan else .num false 0 0)
  | .num a m e =>
    if m = 0 then .exact (.inf a)
    else if a then .exact .nan
    else
      let k : Nat := 600 + (if (e + 600) % 2 = 0 then 0 else 1)
      let q := 2 ^ k / m
      let r := isqrt q
      .near ⟨false, r, -(e + k) / 2, r * r != q || 2 ^ k % m != 0⟩

/-- ± m × 2^e split into a whole part (floor) and a fraction in fixed point. -/
def splitFx (neg : Bool) (m : Nat) (e : Int) : Int × Nat :=
  let x := fxOf m e
  if neg then
    let y := x % fxOne
    if y = 0 then (-((x / fxOne : Nat) : Int), 0) else (-((x / fxOne : Nat) : Int) - 1, fxOne - y)
  else ((x / fxOne : Nat), x % fxOne)

/-- A magnitude so large that the functions have reached their limits. -/
def huge (m : Nat) (e : Int) : Bool := decide (14 ≤ e + ilog2 m)

def exp2F : FVal → RVal
  | .nan => .exact .nan
  | .inf a => .exact (if a then .num false 0 0 else .inf false)
  | .num a m e =>
    if m = 0 then .exact (.num false 1 0)
    else if huge m e then .near ⟨false, 1, if a then -5000 else 5000, true⟩
    else
      let (n, f) := splitFx a m e
      if f = 0 then .exact (.num false 1 n) else .near ⟨false, fxExp2 f, n - fxBits, true⟩

def log2F : FVal → RVal
  | .nan => .exact .nan
  | .inf a => .exact (if a then .nan else .inf false)
  | .num a m e =>
    if m = 0 then .exact (.inf true)
    else if a then .exact .nan
    else
      let k := ilog2 m
      let n : Int := e + k
      if m = 2 ^ k then .exact (.ofInt n 0 false)
      else
        let f := fxLog2 (fxOf m (-(k : Int)))
        let v : Int := n * (fxOne : Int) + f
        if 0 ≤ v then fxNear false v.toNat else fxNear true ((-v).toNat - 1)

/-- sin(πr) and cos(πr) for r in [0, ½] in fixed point. -/
def sinPi (r : Nat) : Nat := if 4 * r ≤ fxOne then fxSin (fxMul r fxPi) else fxCos (fxMul (fxOne / 2 - r) fxPi)

/-- sin(πx) for x = n + f, n whole: the sign flips with odd n; f and 1 − f agree. -/
def sinpiAt (neg : Bool) (n : Int) (f : Nat) : RVal :=
  let flip := neg != (n % 2 != 0)
  let r := if 2 * f ≤ fxOne then f else fxOne - f
  if 2 * r = fxOne then .exact (.num flip 1 0) else fxNear flip (sinPi r)

def sinpiF : FVal → RVal
  | .nan => .exact .nan
  | .inf _ => .exact .nan
  | .num a m e =>
    if m = 0 then .exact (.num a 0 0)
    else
      let whole := decide (0 ≤ e) || m % 2 ^ (-e).toNat == 0
      if whole then .exact (.num a 0 0)
      else let x := fxOf m e; sinpiAt a ((x / fxOne : Nat) : Int) (x % fxOne)

def cospiF : FVal → RVal
  | .nan => .exact .nan
  | .inf _ => .exact .nan
  | .num _ m e =>
    if m = 0 then .exact (.num false 1 0)
    else if 0 ≤ e then .exact (.num (decide (e = 0) && m % 2 == 1) 1 0)
    else
      -- cos(πx) = sin(π(x + ½)) for x = |a|
      let x := fxOf m e
      let y := x + fxOne / 2
      let n := y / fxOne
      let f := y % fxOne
      if f = 0 ∧ m * 2 % 2 ^ (-e).toNat = 0 then .exact (.num false 0 0)
      else if 2 * f = fxOne ∧ m % 2 ^ (-e).toNat = 0 then .exact (.num (n % 2 != 0) 1 0)
      else
        let r := if 2 * f ≤ fxOne then f else fxOne - f
        -- next to 1 the value stays strictly below it
        fxNear (n % 2 != 0) (min (sinPi r) (fxOne - 1))

/-- tanh of a positive number m × 2^e. -/
def tanhPos (neg : Bool) (m : Nat) (e : Int) : RVal :=
  if huge m e then fxNear neg (fxOne - 1)
  else if e + ilog2 m < -60 then .near ⟨neg, m * 2 ^ 90 - 1, e - 90, true⟩
  else
    -- e^(−2x) = 2^(−n) ÷ 2^f with 2x ÷ ln 2 = n + f
    let t := 2 * fxOf m e * fxOne / fxLn2
    let n := t / fxOne
    let d := fxOne * fxOne / fxExp2 (t % fxOne) / 2 ^ n
    fxNear neg (min ((fxOne - d) * fxOne / (fxOne + d)) (fxOne - 1))
def tanhF : FVal → RVal
  | .nan => .exact .nan
  | .inf a => .exact (.num a 1 0)
  | .num a m e => if m = 0 then .exact (.num a 0 0) else tanhPos a m e

def sigmF : FVal → RVal
  | .nan => .exact .nan
  | .inf a => .exact (if a then .num false 0 0 else .num false 1 0)
  | .num a m e =>
    if m = 0 then .exact (.num false 1 (-1))
    else if huge m e then (if a then .near ⟨false, 1, -5000, true⟩ else fxNear false (fxOne - 1))
    else
      -- e^|a| = 2^n × E
      let t := fxOf m e * fxOne / fxLn2
      let n := t / fxOne
      let ex := fxExp2 (t % fxOne) * 2 ^ n
      if a then
        -- 1 ÷ (1 + e^|a|)
        let k := 2 * fxBits + n
        .near ⟨false, 2 ^ k * fxOne / (fxOne + ex), -(k : Int), true⟩
      else
        -- e^|a| ÷ (1 + e^|a|)
        fxNear false (min (ex * fxOne / (fxOne + ex)) (fxOne - 1))

def trFmts : List Nat := [7, 8, 9]
def execVrcp (o : OpInfo) (r : VFp2) (s : State) : Out := s.vFp2 o r trFmts rcpF
def execVrsqrt (o : OpInfo) (r : VFp2) (s : State) : Out := s.vFp2 o r trFmts rsqrtF
def execVexp2 (o : OpInfo) (r : VFp2) (s : State) : Out := s.vFp2 o r trFmts exp2F
def execVlog2 (o : OpInfo) (r : VFp2) (s : State) : Out := s.vFp2 o r trFmts log2F
def execVsinpi (o : OpInfo) (r : VFp2) (s : State) : Out := s.vFp2 o r trFmts sinpiF
def execVcospi (o : OpInfo) (r : VFp2) (s : State) : Out := s.vFp2 o r trFmts cospiF
def execVtanh (o : OpInfo) (r : VFp2) (s : State) : Out := s.vFp2 o r trFmts tanhF
def execVsigm (o : OpInfo) (r : VFp2) (s : State) : Out := s.vFp2 o r trFmts sigmF

end Sys2Proof.Machine
end

