-- ==== Sys2Proof/Machine/MemAcc.lean ====
section
/-! DEFINITION. Memory access, atomic, update and queue operations (R333-R337, R374-R387), and the completion of what they leave
outstanding. -/
namespace Sys2Proof.Machine

/-! Shared operations. -/

def State.nextSeq (s : State) : Nat × State := (s.seq, { s with seq := s.seq + 1 })

/-- The pieces of an access that hold an active byte, each checked under R128 in increasing address order (R378, R380). -/
def State.xlateTouched (s : State) (k : AccKind) (va n mask : Nat) : Except TrapInfo (List Piece × State) :=
  (sectorsOf va n).foldl (fun (r : Except TrapInfo (List Piece × State)) q => r.bind fun (ps, s) =>
    let lo := max (q * 32) va
    let hi := min (q * 32 + 32) (va + n)
    if bits mask (lo - va) (hi - lo) = 0 then .ok (ps, s)
    else
      match s.xlateR k (lo % 2 ^ 64) (hi - lo) with
      | .error t => .error t
      | .ok (qs, s) => .ok (ps ++ qs.map (fun p => { p with off := p.off + (lo - va) }), s)) (.ok ([], s))

/-- Stores of one instruction, piece by piece: into the stash window that covers a piece, else withheld; on the service
sequencer performed at once (R132, R172, R377, R380). `val` holds the bytes of the access, `mask` the bytes to be written. -/
def State.storePieces (s : State) (ps : List Piece) (val mask cls : Nat) : Res :=
  ps.foldl (fun (r : Res) p => r.bind fun s => do
    let m := bits mask p.off p.n
    let v := bits val (8 * p.off) (8 * p.n)
    let sh := p.pa % 32
    let served : Option (Nat × State) ← match s.cur.winSector p with
      | none => .ok none
      | some (k, w) => match s.stashServe k w with
        | .error t => .error t
        | .ok (b, s) => .ok (if b then some (k, s) else none)
    match served with
    | some (k, s) => s.keep <| s.spStore k (BitVec.ofNat 256 (v * 2 ^ (8 * sh))) (m * 2 ^ sh) false
    | none =>
      if s.issue.svc then
        let (c, s') := s.performWrite (agentOf s.issue.core s.who.ctx) p.pa m (bytesOf p.n v) p.key
        if c = 0 then .ok s' else s.endsAfter { cause := c, faddr := BitVec.ofNat 64 p.va } [.write p.pa m (bytesOf p.n v) p.key]
      else
        s.keep (s.linkFor p)
        let c ← s.keep <| s.cur.release (.store (p.pa - sh) p.key cls (BitVec.ofNat 256 (v * 2 ^ (8 * sh))) (BitVec.ofNat 32 (m * 2 ^ sh)))
        .ok (s.setCore s.issue.core c)) (.ok s)

/-- A global load on the main sequencer: token, pending entry, stash fills (R377, R380). -/
def State.startLoad (s : State) (o : OpInfo) (ps : List Piece) (dst : LoadDst) (tok cls u : Nat) : Res := do
  let s ← s.keep (s.tokAdd tok 1)
  let s ← s.stashFor ps
  let (q, s) := s.nextSeq
  .ok (s.modCur fun c => { c.arrivalDue o.arr q with
    loads := c.loads ++ [⟨q, tok, dst, ps, cls, u, s.issue.relN, o.arr, (s.issue.haddr, s.cur.seg.count)⟩] })

/-- The bytes of a list of pieces, read by a sequencer that sees the stores `rel` of its own: first cause, bytes by place. -/
def State.readPieces (s : State) (w : Who) (rel : List Rel) (u : Nat) (small : Bool) (ps : List Piece) : (Cause × List (Nat × List Byte)) × State :=
  ps.foldl (fun (q : (Cause × List (Nat × List Byte)) × State) p =>
    let ((c, b), s) := q.2.loadPiece w rel p u small
    ((if q.1.1 = 0 then c else q.1.1, q.1.2 ++ [(p.off, b)]), s)) ((0, []), s)
/-- The first piece of a list whose read finds the loss of a line of the reader's context, as lossAt names it (R146, R463). -/
def State.lossOf (s : State) (w : Who) (rel : List Rel) (u : Nat) (small : Bool) : List Piece → Option TrapInfo
  | [] => none
  | p :: ps =>
    let s' := (s.loadPiece w rel p u small).2
    if s'.lostSince s w.ctx (· == p.pa / 64) then some (lossAt p.va) else State.lossOf s' w rel u small ps
/-- Bytes by place as one number. -/
def placed (l : List (Nat × List Byte)) : Nat := l.foldl (fun t q => t + natOf q.2 * 2 ^ (8 * q.1)) 0

/-! Scratchpad (R376, R379). -/

def execLdsp (o : OpInfo) (r : SpLoad) (s : State) : Out :=
  s.runNow o fun s => do
    let sa := (s.scalarAddr r.am r.z r.base r.ix r.disp).toNat
    let n := sizeOf r.z
    raiseIf (sa % n != 0) 0x082#10
    s.spCheck sa
    let s ← s.stashTouch (s.cur.spVis sa) n
    let pa := s.cur.spVis sa
    s.keep (raiseIf (s.cur.spPoison.has (pa / 32)) 0x141#10)
    let v := loadValue (r.sx == 1) n (readMap s.cur.sp pa n)
    .ok (if s.issue.svc then s.landG .s r.d v else s.land .sload (.s r.d.toNat) (v.setWidth 1024) full64)
def execStsp (o : OpInfo) (r : SpStore) (s : State) : Out :=
  s.runNow o fun s => do
    let sa := (s.scalarAddr r.am r.z r.base r.ix r.disp).toNat
    let n := sizeOf r.z
    raiseIf (sa % n != 0) 0x082#10
    s.spCheck sa
    let pa := s.cur.spVis sa
    s.spStore (pa / 32) (BitVec.ofNat 256 ((s.gpr .s r.d).toNat % 2 ^ (8 * n) * 2 ^ (8 * (pa % 32)))) ((2 ^ n - 1) * 2 ^ (pa % 32)) false

/-- Register pieces of a scratchpad access that hold an active byte: place in the register and address in the array, checked in
order (R379). -/
def State.spPieces (s : State) (sa n mask : Nat) : Except TrapInfo (List (Nat × Nat)) := do
  raiseIf (sa % 32 != 0) 0x082#10
  (List.range (n / 32)).foldl (fun (r : Except TrapInfo (List (Nat × Nat))) i => do
    let l ← r
    if bits mask (32 * i) 32 = 0 then .ok l
    else
      let a := (sa + 32 * i) % 2 ^ 64
      s.spCheck a
      .ok (l ++ [(i, s.cur.spVis a)])) (.ok [])

def execVldsp (o : OpInfo) (r : VSp) (s : State) : Out :=
  s.runEach o fun s => do
    let n := lenOf r.sz
    let mask := s.activeBytes o (widthOf r.g) n
    if mask = 0 then .ok s
    else
      let sa := (s.vectorAddr r.base r.ix r.idx r.disp).toNat
      let ps ← s.spPieces sa n mask
      let s ← ps.foldl (fun (r : Res) q => r.bind fun s => s.stashTouch q.2 32) (.ok s)
      s.keep (raiseIf (ps.any fun q => s.cur.spPoison.has (q.2 / 32)) 0x141#10)
      let v := placed (ps.map fun q => (32 * q.1, readMap s.cur.sp q.2 32))
      .ok (s.landV .sload r.d (BitVec.ofNat 1024 v) (BitVec.ofNat 1024 (spread n mask)))
def execVstsp (o : OpInfo) (r : VSp) (s : State) : Out :=
  s.runEach o fun s => do
    let n := lenOf r.sz
    let mask := s.activeBytes o (widthOf r.g) n
    if mask = 0 then .ok s
    else
      let sa := (s.vectorAddr r.base r.ix r.idx r.disp).toNat
      let ps ← s.spPieces sa n mask
      let v := s.cur.rV r.d.toNat
      ps.foldl (fun (r : Res) q => r.bind fun s =>
        s.spStore (q.2 / 32) (BitVec.ofNat 256 (vecBytes v (32 * q.1) 32)) (bits mask (32 * q.1) 32) false) (.ok s)

/-! Global loads and stores (R377, R380). -/

/-- A load of the service sequencer performs at issue and reaches its register by interlock (R196, R374). It sees the stores that its core
has released (R192 note 1), and waits for a released VAMO on its bytes. -/
def State.svcLoad (s : State) (ps : List Piece) (d : BitVec 5) (n u : Nat) (sx : Bool) : Res := do
  if s.meetsFlight s.issue.core false ps then return s.stallNow
  let s ← s.stashFor ps
  let rel := s.flyingOf s.issue.core
  let reads := ps.map fun p => Touch.piece p u true
  let ((c, l), s') := s.readPieces s.who rel u true ps
  if c ≠ 0 then s.endsAfter ((s.lossOf s.who rel u true ps).getD { cause := c, faddr := BitVec.ofNat 64 (match ps with | p :: _ => p.va | [] => 0) }) reads
  else .ok ((s'.touch reads).landG .s d (loadValue sx n (bytesOf n (placed l))))

def execLd (o : OpInfo) (r : GlLoad) (s : State) : Out :=
  s.runLate o fun s => do
    let a := (s.scalarAddr r.am r.z r.base r.ix r.disp).toNat
    let (ps, s) ← s.xlateR .load a (sizeOf r.z)
    if s.issue.svc then s.svcLoad ps r.d (sizeOf r.z) (reuse r.u) (r.sx == 1)
    else s.startLoad o ps (.s r.d.toNat r.z.toNat (r.sx == 1)) r.tok.toNat r.cls.toNat (reuse r.u)
def execSt (o : OpInfo) (r : SpStore) (s : State) : Out :=
  s.runNow o fun s => do
    let a := (s.scalarAddr r.am r.z r.base r.ix r.disp).toNat
    let n := sizeOf r.z
    let (ps, s) ← s.xlateR .store a n
    s.storePieces ps (s.gpr .s r.d).toNat (2 ^ n - 1) r.cls.toNat

def execVld (o : OpInfo) (r : VLoad) (s : State) : Out :=
  finish o s (do
    let n := lenOf r.sz
    let mask := s.activeBytes o (widthOf r.g) n
    if mask = 0 then s.arriveNow o.arr
    else
      s.arriveCheck o.arr
      let a := (s.vectorAddr r.base r.ix r.idx r.disp).toNat
      let (ps, s) ← s.xlateTouched .load a n mask
      s.startLoad o ps (.v r.d.toNat (BitVec.ofNat 1024 (spread n mask))) r.tok.toNat r.cls.toNat (reuse r.u))
def execVst (o : OpInfo) (r : VSp) (s : State) : Out :=
  s.runEach o fun s => do
    let n := lenOf r.sz
    let mask := s.activeBytes o (widthOf r.g) n
    if mask = 0 then .ok s
    else
      let a := (s.vectorAddr r.base r.ix r.idx r.disp).toNat
      let (ps, s) ← s.xlateTouched .store a n mask
      s.storePieces ps (s.cur.rV r.d.toNat).toNat mask r.cls.toNat

/-! Prefetch (R381). -/

def execPref (o : OpInfo) (r : PrefArgs) (s : State) : Out :=
  s.runNow o fun s =>
    let a := (s.gpr .s r.base + imm64 r.disp).toNat / 64 * 64
    if (s.cur.winOfVa a).isSome then .ok s
    else match s.xlatePage s.who .load a with
      | (.error _, s) => .ok (s.touch [.page a])
      | (.ok (pa, key), s) =>
        if !l2Cached pa || s.linkCause pa != 0 then .ok (s.touch [.page a])
        else
          let s := (s.l2Read pa 64 s.who.ctx key r.u.toNat).touch [.page a, .line pa key r.u.toNat]
          .ok (if r.lvl = 1 then s.sdcAdd s.issue.core (pa / 64) else s)

/-! Returning atomics (R153-R159, R382, R383). -/

/-- The new memory value of an operation, when it writes (R157, R158). -/
def aopNew (aop w old a b lim : Nat) : Option Nat :=
  match aop with
  | 0 => some ((old + a) % 2 ^ w)
  | 1 => some (old &&& a)
  | 2 => some (old ||| a)
  | 3 => some (old ^^^ a)
  | 4 => some (pickS w false old a)
  | 5 => some (pickS w true old a)
  | 6 => some (min old a)
  | 7 => some (max old a)
  | 8 => some a
  | 9 => if old = a then some b else none
  | 10 => some ((old &&& (2 ^ 64 - 1 - a)) ||| (b &&& a))
  | 11 => ((List.range 64).find? fun i => a.testBit i && !old.testBit i).map fun i => old ||| 2 ^ i
  | _ => if popCount (BitVec.ofNat 64 (old ||| a)) ≤ min lim 64 then some (old ||| a) else none
/-- The returned value: the bit number for FFCS, else the old value. -/
def aopResult (aop old a : Nat) : Nat :=
  if aop = 11 then ((List.range 64).find? fun i => a.testBit i && !old.testBit i).getD 64 else old

/-- The cause of an atomic's or a VAMO's read of its sector: under isolation a tier-2 line gives 0x241, though L2 holds it (R153). -/
def State.isoCause (s : State) (pa : Nat) (c : Cause) : Cause := if c ≠ 0x242#10 ∧ tierOf pa = .tier2 ∧ s.iso then 0x241#10 else c
/-- One operation on w bits at its home (R152, R153): cause and returned value. A control core's access to host memory may end late (R31). -/
def State.performAtomic (s : State) (g : Agent) (pa key aop w a b lim : Nat) : (Cause × Word) × State :=
  let n := w / 8
  if s.linkCause pa == 0 && s.hostLate g.id pa then ((0x240#10, 0), s.hostOver g.id)
  else
  -- no stash is excepted: the home slice recalls the core's own sector too (R156)
  let ((c, bs), s) := s.fetchData { g with id := 1000 } pa n key 2
  let c := s.isoCause pa c
  if c ≠ 0 then ((c, 0), s)
  else
    let old := natOf bs
    let res := BitVec.ofNat 64 (aopResult aop old a)
    -- the line of a host access is held exclusively, whatever the operation writes (R152)
    let s := s.hostTouch pa n true
    match aopNew aop w old a b lim with
    | none => ((0, res), s)
    | some v => match s.performWrite g pa (2 ^ n - 1) (bytesOf n v) key with
      | (0, s) => ((0, res), s)
      | (c, s) => ((c, 0), s)

def piecesMeet (a b : List Piece) : Bool := a.any fun p => b.any fun q => decide (p.pa < q.pa + q.n ∧ q.pa < p.pa + p.n)
/-- A command that stands among the operations to be performed: it has started, or a commit has released it and it waits for room (R414). -/
def Cmd.underway (k : Cmd) : Bool := k.started || k.released
/-- A command reads global memory. -/
def Cmd.readsGlobal (k : Cmd) : Bool :=
  match k.kind with
  | .tldi _ _ _ spc => !spc
  | .cpy => dSsp k.desc == 0
  | .gath => true
  | .scat => dSsp k.desc == 0
  | .cnput => dSsp k.desc == 0
  | _ => false
/-- No earlier read of the class, or of these bytes, is still to be performed, watches apart (R179, R181, R192). -/
def Core.readsDone (c : Core) (seq cls : Nat) (ps : List Piece) : Bool :=
  !(c.loads.any (fun l => decide (l.seq < seq) && (l.cls == cls || piecesMeet l.pieces ps)) ||
    c.aq.any (fun l => decide (l.seq < seq) && (l.cls == cls || piecesMeet l.pieces ps)) ||
    c.dq.any (fun l => l.data.isNone && decide (l.seq < seq) && (l.cls == cls || piecesMeet l.pieces ps)) ||
    c.cmds.any (fun k => k.underway && k.readsGlobal && decide (k.seq < seq) && k.cls == cls))
/-- The same with the watches of the class, and those of the bytes whatever their class: their words are read when their sleep ends (R177,
R329). A waitline itself registers beside them: up to eight may be outstanding. -/
def Core.readReady (c : Core) (seq cls : Nat) (ps : List Piece) : Bool :=
  c.readsDone seq cls ps && !c.watches.any fun w => decide (w.seq < seq) && (w.cls == cls || piecesMeet [⟨w.va, w.pa, 8, 0, w.key⟩] ps)
/-- What an atomic waits for. Within its group nothing may stall (R208): there it waits for no watch, for none of the group can end before
it, and for those before the group the group has waited (log 107). -/
def Core.atomReady (c : Core) (seq cls : Nat) (ps : List Piece) : Bool := if c.grp.n = 0 then c.readReady seq cls ps else c.readsDone seq cls ps
/-- The value of a pending load is fixed: register, token, arrival (R377). -/
def State.finishLoad (s : State) (core : Nat) (l : PLoad) : State :=
  let small := match l.dst with | .v _ _ => false | _ => true
  let rel := s.seenBy core l.relN
  let lost := s.lossOf (s.mainWho core) rel l.u small l.pieces
  let ((cause, bs), s) := s.readPieces (s.mainWho core) rel l.u small l.pieces
  -- it found the loss of its own context's dirty line: it is never answered (R146, R463)
  match lost with
  | some t => s.park core { t with site := some l.site } 0 5
  | none =>
  let v := placed bs
  let s := s.modCore core fun c =>
    let a := c.arch
    let a := if cause ≠ 0 then a else match l.dst with
      | .s r z sx => { a with s := a.s.put 0 r (loadValue sx (2 ^ z) (bytesOf (2 ^ z) v)) }
      | .v r m => { a with v := a.v.put 0 r (blend (a.v.getD r 0) (BitVec.ofNat 1024 v) m) }
      | .e _ _ _ => a
    { c with arch := a, loads := c.loads.filter (·.seq != l.seq) }.tokDone l.tok cause false
  s.arriveLate core l.arr l.seq l.relN 0

/-- A returning atomic (R383). -/
def State.atomic (s : State) (o : OpInfo) (d base ix : BitVec 5) (disp : Word) (aop w : Nat) (cls tok lim : Nat) : Out :=
  s.runLate o fun s => do
    raiseIf (decide (10 ≤ aop) && s.who.ctx < 64 && !(s.ioGet (0xA800 + 8 * s.who.ctx)).getLsbD 0) 0x048#10
    let va := (s.gpr .s base + disp).toNat
    raiseAt (va % (w / 8) != 0) 0x082#10 va
    let a := (s.gpr .s ix).toNat % 2 ^ w
    let b := (s.gpr .s d).toNat % 2 ^ w
    let (ps, s) ← s.xlateR .atomic va (w / 8)
    match ps with
    | [] => .ok s
    | p :: _ =>
      let g := agentOf s.issue.core s.who.ctx
      -- the atomic performs after the earlier reads of its class, and after its own released stores to its bytes (R177, R179, R192)
      if (if s.issue.svc then s.meetsFlight s.issue.core true ps
          else s.mayStall && (!s.cur.atomReady s.seq cls ps || s.meetsFlight s.issue.core true ps)) then .ok s.stallNow
      else if s.issue.svc then
        let read := [Touch.home p.pa (w / 8) p.key]
        let ((c, res), s') := s.performAtomic g p.pa p.key aop w a b lim
        if s'.lostSince s s.who.ctx (· == p.pa / 64) then s.endsAfter (lossAt va) read
        else if c ≠ 0 then s.endsAfter { cause := c, faddr := BitVec.ofNat 64 va } read else .ok ((s'.touch read).landG .s d res)
      else
        let s ← s.keep (s.tokAdd tok 1)
        let c := s.cur
        match c.seg.log[c.seg.logPos]? with
        | some e =>
          if e.addr ≠ BitVec.ofNat 64 va ∨ e.w64 ≠ decide (w = 64) ∨ e.aop ≠ aop then
            s.endsAfter { cause := 0x1C5#10, info := BitVec.ofNat 64 (e.aop * 256 + aop * 4096) } []
          else
            let (q, s) := s.nextSeq
            .ok (s.modCur fun c =>
            let c := c.arrivalDue o.arr q
            { c with
              seg := { c.seg with logPos := c.seg.logPos + 1 }
              atoms := c.atoms ++ [⟨q, tok, d.toNat, e.res, 0, s.issue.relN, o.arr, p.pa⟩] })
        | none =>
          s.keep (raiseIf (decide (8 ≤ c.seg.log.length)) 0x1C4#10)
          let (q, s) := s.nextSeq
          let read := [Touch.home p.pa (w / 8) p.key]
          let ((cause, res), s') := s.performAtomic g p.pa p.key aop w a b lim
          -- an atomic that finds the loss of its line is never answered (R463)
          if s'.lostSince s s.who.ctx (· == p.pa / 64) then s.endsAfter (lossAt va) read
          else .ok ((s'.touch read).modCur fun c =>
            let c := c.arrivalDue o.arr q
            { c with
            seg := if cause = 0 then { c.seg with log := c.seg.log ++ [⟨BitVec.ofNat 64 va, decide (w = 64), aop, res⟩], logPos := c.seg.logPos + 1 } else c.seg
            atoms := c.atoms ++ [⟨q, tok, d.toNat, res, cause, s.issue.relN, o.arr, p.pa⟩] })

/-- Width 32 or 64 by the W bit (R382). -/
def aopWidth (w : BitVec 1) : Nat := if w = 1 then 64 else 32
def State.atomW (s : State) (o : OpInfo) (r : Atomic) (aop : Nat) : Out :=
  s.atomic o r.d r.base r.a (imm64 r.disp) aop (aopWidth r.w) r.cls.toNat r.tok.toNat 0
def execAtomAdd (o : OpInfo) (r : Atomic) (s : State) : Out := s.atomW o r 0
def execAtomAnd (o : OpInfo) (r : Atomic) (s : State) : Out := s.atomW o r 1
def execAtomOr (o : OpInfo) (r : Atomic) (s : State) : Out := s.atomW o r 2
def execAtomXor (o : OpInfo) (r : Atomic) (s : State) : Out := s.atomW o r 3
def execAtomSmin (o : OpInfo) (r : Atomic) (s : State) : Out := s.atomW o r 4
def execAtomSmax (o : OpInfo) (r : Atomic) (s : State) : Out := s.atomW o r 5
def execAtomUmin (o : OpInfo) (r : Atomic) (s : State) : Out := s.atomW o r 6
def execAtomUmax (o : OpInfo) (r : Atomic) (s : State) : Out := s.atomW o r 7
def execAtomSwap (o : OpInfo) (r : Atomic) (s : State) : Out := s.atomW o r 8
def execAtomCas (o : OpInfo) (r : Atomic) (s : State) : Out := s.atomW o r 9
def execAtomBfi (o : OpInfo) (r : BitAtomic) (s : State) : Out := s.atomic o r.d r.base r.a (imm64 r.disp) 10 64 r.cls.toNat r.tok.toNat 0
def execAtomFfcs (o : OpInfo) (r : BitAtomic) (s : State) : Out := s.atomic o r.d r.base r.a (imm64 r.disp) 11 64 r.cls.toNat r.tok.toNat 0
def execAtomPlset (o : OpInfo) (r : PlsetArgs) (s : State) : Out :=
  s.atomic o r.d r.base r.a (imm64 r.disp) 12 64 r.cls.toNat r.tok.toNat r.lim.toNat

/-- A performed atomic delivers its result (R383). -/
def State.finishAtom (s : State) (core : Nat) (p : PAtom) : State :=
  let s := s.modCore core fun c =>
    { c with
      arch := if p.cause ≠ 0 then c.arch else { c.arch with s := c.arch.s.put 0 p.dst p.res }
      atoms := c.atoms.filter (·.seq != p.seq) }.tokDone p.tok p.cause false
  s.arriveLate core p.arr p.seq p.relN 0

/-! Vector atomics (R160, R384). -/

/-- Guard mask of the first n elements of width e. -/
def State.guardList (s : State) (o : OpInfo) (e n : Nat) : Nat :=
  ((List.range n).filter fun j => s.guardE o e j).foldl (fun t j => t + 2 ^ j) 0

def State.vamo (s : State) (o : OpInfo) (r : VAtomic) (aop : Nat) : Out :=
  s.runEach o fun s => do
    let e := widthOf r.w
    let m := s.guardList o e (256 / e)
    if m = 0 then .ok s
    else
      let va := (v64 (s.cur.rV r.base.toNat) + imm64 r.disp).toNat
      raiseAt (va % 32 != 0) 0x082#10 va
      let (ps, s) ← s.xlateR .atomic va 32
      match ps with
      | [] => .ok s
      | p :: _ =>
        s.keep (s.linkFor p)
        let c ← s.keep <| s.cur.release (.vamo p.pa p.key r.cls.toNat aop e ((s.cur.rV r.d.toNat).setWidth 256) (BitVec.ofNat 32 m))
        .ok (s.setCore s.issue.core c)
def execVamoAdd (o : OpInfo) (r : VAtomic) (s : State) : Out := s.vamo o r 0
def execVamoAnd (o : OpInfo) (r : VAtomic) (s : State) : Out := s.vamo o r 1
def execVamoOr (o : OpInfo) (r : VAtomic) (s : State) : Out := s.vamo o r 2
def execVamoXor (o : OpInfo) (r : VAtomic) (s : State) : Out := s.vamo o r 3
def execVamoSmin (o : OpInfo) (r : VAtomic) (s : State) : Out := s.vamo o r 4
def execVamoSmax (o : OpInfo) (r : VAtomic) (s : State) : Out := s.vamo o r 5
def execVamoUmin (o : OpInfo) (r : VAtomic) (s : State) : Out := s.vamo o r 6
def execVamoUmax (o : OpInfo) (r : VAtomic) (s : State) : Out := s.vamo o r 7
def execVamoSwap (o : OpInfo) (r : VAtomic) (s : State) : Out := s.vamo o r 8

/-- A VAMO performed at its home slice: a poisoned or isolated sector leaves its elements unwritten and writes a record (R384). -/
def State.performVamo (s : State) (g : Agent) (pa key aop w : Nat) (val : BitVec 256) (mask : BitVec 32) : State :=
  let ((c, bs), s) := s.fetchData { g with id := 1000 } pa 32 key 2
  let c := s.isoCause pa c
  if c ≠ 0 then
    if l2Cached pa then s.lineRecord 7 (2 * 2 ^ (pa / 32 % 2)) 0 g.ctx (pa / 64) ((s.wayOf (pa / 64)).getD 0) else s
  else
    let n := w / 8
    (List.range (256 / w)).foldl (fun s i =>
      if mask.getLsbD i then
        let old := natOf ((bs.drop (i * n)).take n)
        match aopNew aop w old (bits val.toNat (w * i) w) 0 0 with
        | none => s
        | some v => (s.performWrite g (pa + i * n) (2 ^ n - 1) (bytesOf n v) key).2
      else s) s

/-! Updates (R161-R165, R385, R386). -/

/-- The checks of R165 on one pair, in their order: its physical address and key slot. -/
def State.pairCheck (s : State) (rgn va : Nat) : Except TrapInfo ((Nat × Nat) × State) := do
  let w := opWidth (s.rgnOp rgn)
  raiseAt (va % w != 0) 0x082#10 va
  raiseAt (!s.rgnV rgn) 0x2C0#10 va
  raiseAt (s.rgnCtx rgn != s.who.ctx) 0x2C1#10 va
  raiseAt (decide (va < s.rgnBase rgn ∨ s.rgnBase rgn + 64 * s.rgnLines rgn ≤ va)) 0x2C2#10 va
  let (ps, s) ← s.xlateR .store va w
  match ps with
  | [] => trapA 0x080#10 va
  | p :: _ =>
    s.keep (raiseAt (!l2Cached p.pa) 0x2C3#10 va)
    s.keep (s.linkFor p)
    .ok ((p.pa, p.key), s)
def State.withholdPair (s : State) (at_ : Nat × Nat) (rgn cls : Nat) (v : Word) : Res := do
  let c ← s.cur.release (.pair at_.1 at_.2 rgn cls v)
  .ok (s.setCore s.issue.core c)

def execUpd (o : OpInfo) (r : UpdArgs) (s : State) : Out :=
  s.runNow o fun s => do
    let va := (s.gpr .s r.base + (if r.idx = 1 then s.gpr .s r.ix else 0) + imm64 r.disp).toNat
    let (pa, s) ← s.pairCheck r.rgn.toNat va
    s.keep (s.withholdPair pa r.rgn.toNat r.cls.toNat (s.gpr .s r.d))
def execVupd (o : OpInfo) (r : VUpdArgs) (s : State) : Out :=
  s.vec o fun s => do
    let g := r.rgn.toNat
    raiseIf (!s.rgnV g) 0x2C0#10
    let w := opWidth (s.rgnOp g)
    let js := (List.range (128 / w)).filter fun j => s.guardE o (8 * w) j
    let ix := s.cur.rV r.base.toNat
    let vals := s.cur.rV r.d.toNat
    let (pas, s) ← js.foldl (fun (q : Except TrapInfo (List (Nat × Nat × Nat) × State)) j => q.bind fun (l, s) =>
      (s.keep (s.pairCheck g (s.rgnBase g + elem 32 ix j * w))).map fun (pa, s) => (l ++ [(j, pa)], s)) (.ok ([], s))
    s.keep (raiseIf (decide (512 < s.cur.relCount + pas.length)) 0x1C2#10)
    pas.foldl (fun (q : Res) p => q.bind fun s => s.withholdPair p.2 g r.cls.toNat (BitVec.ofNat 64 (elem (8 * w) vals p.1))) (.ok s)

/-! Address and data queues (R336, R337, R387). -/

/-- Push entries for addresses, all or none (R336). -/
def State.pushAddrs (s : State) (o : OpInfo) (addrs : List Nat) (z tok cls u : Nat) : Res := do
  let n := 2 ^ z
  let (es, s) ← addrs.foldl (fun (q : Except TrapInfo (List (List Piece) × State)) a => q.bind fun (l, s) => do
    s.keep (raiseAt (a % n != 0) 0x082#10 a)
    let (ps, s) ← s.xlateR .load a n
    .ok (l ++ [ps], s)) (.ok ([], s))
  s.keep (raiseIf (decide (64 < s.cur.seg.q + es.length)) 0x0C0#10)
  let s ← s.keep (s.tokAdd tok es.length)
  if es.isEmpty then s.arriveNow o.arr
  else
    let s ← es.foldl (fun (r : Res) ps => r.bind fun s => s.stashFor ps) (.ok s)
    let q := s.seq
    let new := (es.zip (List.range es.length)).map fun e =>
      (⟨q + e.2, tok, z, e.1, cls, u, s.issue.relN, if e.2 + 1 = es.length then o.arr else none, (s.issue.haddr, s.cur.seg.count)⟩ : AqEntry)
    .ok ({ s with seq := q + es.length }.modCur fun c =>
      let c := c.arrivalDue o.arr (q + es.length - 1)
      { c with aq := c.aq ++ new, seg := { c.seg with q := c.seg.q + es.length } })

def execAqp (o : OpInfo) (r : AqPush) (s : State) : Out :=
  s.runLate o fun s => s.pushAddrs o [(s.cur.rX r.base.toNat + imm64 r.disp).toNat] r.z.toNat r.tok.toNat r.cls.toNat (reuse r.u)
def execAqpIdx (o : OpInfo) (r : AqPushIdx) (s : State) : Out :=
  s.runLate o fun s =>
    s.pushAddrs o [(s.cur.rX r.base.toNat + s.cur.rX r.ix.toNat * BitVec.ofNat 64 (2 ^ r.z.toNat) + imm64 r.disp).toNat]
      r.z.toNat r.tok.toNat r.cls.toNat (reuse r.u)
def execAqps (o : OpInfo) (r : AqRun) (s : State) : Out :=
  s.runLate o fun s => do
    let n := (s.cur.rX r.d.toNat).toNat
    raiseIf (decide (64 < n)) 0x0C0#10
    let base := s.cur.rX r.base.toNat + imm64 r.disp
    let addrs := (List.range n).map fun i => (base + BitVec.ofNat 64 i * s.cur.rX r.ix.toNat).toNat
    s.pushAddrs o addrs r.z.toNat r.tok.toNat r.cls.toNat (reuse r.u)

/-- The queue loader starts the read of the oldest AQ entry, which leaves AQ (R337). -/
def State.queueRead (s : State) (core : Nat) : State :=
  match (s.core core).aq with
  | [] => s
  | e :: r =>
    let s := s.modCore core fun c => { c with aq := r, dq := c.dq ++ [⟨e.seq, e.tok, e.z, e.pieces, e.cls, e.relN, none, 0, e.u, e.site⟩] }
    s.arriveLate core e.arr e.seq e.relN 0
/-- The oldest DQ entry without data receives it, perhaps with a cause (R337). -/
def State.queueFill (s : State) (core : Nat) : State :=
  match (s.core core).dq.find? fun e => e.data.isNone with
  | none => s
  | some e =>
    let rel := s.seenBy core e.relN
    let lost := s.lossOf (s.mainWho core) rel e.u (decide (e.z < 4)) e.pieces
    let ((cause, bs), s) := s.readPieces (s.mainWho core) rel e.u (decide (e.z < 4)) e.pieces
    -- as for a load (R463)
    match lost with
    | some t => s.park core { t with site := some e.site } 0 5
    | none => s.modCore core fun c =>
      let dq := c.dq.map fun (d : DqEntry) => if d.seq = e.seq then { d with data := some (BitVec.ofNat 256 (placed bs)), cause } else d
      { c with dq }.tokDone e.tok 0 false

def execDqpop (o : OpInfo) (r : DqPop) (s : State) : Out :=
  s.runNow o fun s => do
    let c := s.cur
    let n := r.c.toNat + 1
    let size := 2 ^ r.z.toNat
    let take := min n (c.dq.length + c.aq.length)
    let ready := decide (take ≤ c.dq.length) && (c.dq.take take).all fun e => e.data.isSome
    if !ready then .ok s.stallNow
    else
      raiseIf (decide (128 < (r.p.toNat + n) * size)) 0x0C3#10
      raiseIf (decide (c.seg.q < n)) 0x0C1#10
      let es := c.dq.take n
      raiseIf (es.any fun e => e.z != r.z.toNat) 0x0C3#10
      match es.find? fun e => e.cause != 0 with
      | some e => trapC e.cause
      | none =>
        let v := (es.zip (List.range n)).foldl (fun t q => t + (match q.1.data with | some d => d.toNat % 2 ^ (8 * size) | none => 0) * 2 ^ (8 * size * (r.p.toNat + q.2))) 0
        let m := (2 ^ (8 * size * n) - 1) * 2 ^ (8 * size * r.p.toNat)
        let s := s.modCur fun c => { c with dq := c.dq.drop n, seg := { c.seg with q := c.seg.q - n } }
        .ok (s.landV .vint r.d (BitVec.ofNat 1024 v) (BitVec.ofNat 1024 m))

end Sys2Proof.Machine
end

