-- ==== Sys2Proof/Machine/Matrix.lean ====
section
/-! DEFINITION. The squarer array (R240-R254, R263, R391-R404): side-cars, banks, passes and their drain, the tile unit, and the
M-slot operations that enter the engine's queue. -/
namespace Sys2Proof.Machine

/-! Formats in the array (R244). -/

/-- LA and DB of a format, and the window of a role. -/
def lanesOf (fmt : Nat) : Nat := match fmt with | 9 => 2 | 10 => 4 | _ => 1
def digitsOf (fmt : Nat) (ww : Bool) : Nat :=
  match fmt with
  | 2 => 2 | 7 => 2 | 8 => 2 | 9 => 3 | 10 => 7
  | 4 => if ww then 2 else 1
  | 5 => if ww then 2 else 1
  | _ => 1
def windowOf (fmt : Nat) (ww bRole : Bool) : Nat :=
  match fmt with
  | 4 => if ww then 16 else 8
  | 5 => if ww then 16 else 8
  | 9 => if bRole then 24 else 32
  | 10 => if bRole then 56 else 64
  | _ => 16
/-- The formats E4M3 and E5M2, which alone have a wide window. -/
def isFp8 (fmt : Nat) : Bool := fmt == 4 || fmt == 5
/-- Whether A format, bank format and accumulator format form a row of R244. -/
def passRow (fa fb af : Nat) : Bool :=
  match fa, fb with
  | 0, 0 => af == 1 | 0, 1 => af == 1 | 1, 0 => af == 1 | 1, 1 => af == 1
  | 2, 2 => af == 1
  | 4, 4 => af == 2 | 4, 5 => af == 2 | 5, 4 => af == 2 | 5, 5 => af == 2
  | 6, 6 => af == 2
  | 7, 7 => af == 2 || af == 3 | 7, 8 => af == 2 || af == 3 | 8, 7 => af == 2 || af == 3 | 8, 8 => af == 2 || af == 3
  | 9, 9 => af == 2 || af == 3
  | 10, 10 => af == 3
  | _, _ => false

/-! Elements, blocks and roles (R245, R260-R263). -/

/-- The exact value of an element; an E2M1S code counts on its grid. -/
def elemVal (fmt spare code : Nat) : FVal :=
  match floatOf fmt with
  | some f => decF f code
  | none =>
    if fmt = 6 then .ofInt (e2m1g spare code) (-2) false
    else match intOf fmt with
      | some (w, sg) => .ofInt (if sg then sgn w code else (code % 2 ^ w : Nat)) 0 false
      | none => .num false 0 0

/-- The magnitude exponent of a finite nonzero value, at least emin. -/
def topExp (f : Fmt) : FVal → Option Int
  | .num _ m e => if m = 0 then none else some (max (e + ilog2 m) (emin f))
  | _ => none
/-- q of an element at unit exponent E (R263). -/
def qAt (e0 : Int) : FVal → Int
  | .num neg m e => sgnd neg (roundAt .rne 0 neg m e false e0)
  | _ => 0
/-- The realignment loop of R263; it ends after one further round. -/
def alignFrom (xs : List FVal) (w : Nat) : Nat → Int → Int × List Int
  | 0, e => (e, xs.map (qAt e))
  | n + 1, e =>
    let q := xs.map (qAt e)
    if q.all fun i => decide (i.natAbs < 2 ^ (w - 1)) then (e, q) else alignFrom xs w n (e + 1)
/-- AlignBlock of R263. -/
def alignBlock (f : Fmt) (w : Nat) (xs : List FVal) : Int × List Int :=
  match xs.filterMap (topExp f) with
  | [] => (0, xs.map fun _ => 0)
  | e :: r => alignFrom xs w 2 (r.foldl max e - w + 2)

/-- Flags of a block: [0] NaN, [1] +Inf, [2] −Inf, [3] zero. -/
def blockFlags (xs : List FVal) : Nat :=
  (if xs.any FVal.isNan then 1 else 0) + (if xs.any (· == .inf false) then 2 else 0) + (if xs.any (· == .inf true) then 4 else 0) +
    (if xs.any FVal.isZero then 8 else 0)

/-- Unit exponent, element integers and flags of a block of codes. -/
def blockOf (fmt : Nat) (ww bRole : Bool) (spare : Nat) (codes : List Nat) : Int × List Int × Nat :=
  let xs := codes.map (elemVal fmt spare)
  match floatOf fmt with
  | some f => let (e, q) := alignBlock f (windowOf fmt ww bRole) xs; (e, q, blockFlags xs)
  | none =>
    if fmt = 6 then (-2, codes.map (e2m1g spare), blockFlags xs)
    else (0, xs.map (qAt 0), blockFlags xs)

/-- Codes of block `blk` of row i (A) or column i (B) of a tile. -/
def blockCodes (v : Word32) (b : TileBytes) (bRole : Bool) (i blk : Nat) : List Nat :=
  let n := if bRole then tcfgRows v else tcfgCols v
  ((List.range 32).filter fun k => decide (32 * blk + k < n)).map fun k =>
    if bRole then tileElem v b (32 * blk + k) i else tileElem v b i (32 * blk + k)
/-- The spare of row or column i and block blk. -/
def spareAt (spares : Vec) (i blk : Nat) : Nat := bits spares.toNat (8 * (2 * i + blk)) 8
/-- The blocks of a role: for each row or column, its two blocks. -/
def roleBlocks (v : Word32) (b : TileBytes) (ww bRole : Bool) (spares : Vec) : List (List (Int × List Int × Nat)) :=
  (List.range (if bRole then tcfgCols v else tcfgRows v)).map fun i =>
    [0, 1].map fun blk => blockOf (tcfgFmt v) ww bRole (spareAt spares i blk) (blockCodes v b bRole i blk)

/-- Cell-form lanes of an element integer (R240). -/
def cellLanes : Nat → Int → List Int
  | 0, _ => []
  | 1, q => [q]
  | n + 1, q =>
    let a := q % 65536
    let v := if 32768 ≤ a then a - 65536 else a
    v :: cellLanes n ((q - v) / 65536)
/-- Stored digits of an element integer (R240). -/
def cellDigits : Nat → Int → List Int
  | 0, _ => []
  | 1, q => [q]
  | n + 1, q => (q % 256) :: cellDigits n (q / 256)

/-- A list with its positions. -/
def withIndex {α : Type} (l : List α) : List (Nat × α) := (List.range l.length).zip l
/-- Fields of `w` bits laid at given bit places. -/
def layFields (w : Nat) (l : List (Nat × Int)) : Nat := l.foldl (fun t q => t + wrapI w q.2 * 2 ^ q.1) 0
def sumSq (l : List Int) : Int := l.foldl (fun t x => t + x * x) 0

/-- Spares of a pair of k registers: byte 2i + blk is the spare of entry i of the register of block blk (R261, R390). -/
def sparesOf (e0 e1 : Vec) : Vec :=
  BitVec.ofNat 1024 ((List.range 64).foldl (fun t i => t + bits e0.toNat (16 * i + 8) 8 * 2 ^ (16 * i) + bits e1.toNat (16 * i + 8) 8 * 2 ^ (16 * i + 8)) 0)
/-- Scale of entry i of block blk. -/
def scaleAt (e0 e1 : Vec) (i blk : Nat) : Nat := bits (if blk = 0 then e0 else e1).toNat (16 * i) 8

/-- A role computed from a tile's elements (R245). A B role whose digits exceed 64 columns does not exist (R244, log 26). -/
def computeRole (v : Word32) (b : TileBytes) (ww bRole : Bool) (spares : Vec) : SideCar :=
  let fmt := tcfgFmt v
  let bl := withIndex (roleBlocks v b ww bRole spares)
  let per (f : Nat → Nat → Int × List Int × Nat → List (Nat × Int)) : List (Nat × Int) :=
    bl.flatMap fun q => (withIndex q.2).flatMap fun r => f q.1 r.1 r.2
  let sq : List (Nat × Int) :=
    if bRole then
      let db := digitsOf fmt ww
      per fun j blk x => (List.range db).map fun d => (8 * (16 * (j * db + d) + 8 * blk), sumSq (x.2.1.map fun q => (cellDigits db q).getD d 0))
    else
      let la := lanesOf fmt
      per fun i blk x => (List.range la).map fun l => (8 * (1024 * l + 16 * i + 8 * blk), sumSq (x.2.1.map fun q => (cellLanes la q).getD l 0))
  if bRole ∧ 64 < tcfgCols v * digitsOf fmt ww then {}
  else
    { valid := true, fmt := BitVec.ofNat 4 fmt, ww, spares := if fmt = 6 then spares else 0
      e := BitVec.ofNat 2048 (layFields 16 (per fun i blk x => [(8 * (4 * i + 2 * blk), x.1)]))
      flags := BitVec.ofNat 1024 (layFields 8 (per fun i blk x => [(8 * (2 * i + blk), (x.2.2 : Int))]))
      sq := BitVec.ofNat 32768 (layFields 64 sq) }

/-- The key of a role is the one an operation needs (R245, R247). -/
def SideCar.serves (c : SideCar) (fmt : Nat) (ww : Bool) (spares : Vec) : Bool :=
  c.valid && c.fmt.toNat == fmt && c.ww == ww && (fmt != 6 || c.spares == spares)
def SideCar.eAt (c : BitVec 2048) (i blk : Nat) : Int := sgn 16 (bits c.toNat (8 * (4 * i + 2 * blk)) 16)
def flagsAt (f : Vec) (i blk : Nat) : Nat := bits f.toNat (8 * (2 * i + blk)) 8

/-! Banks (R241, R242). -/

def Core.bankOf (c : Core) (b : Bool) : Bank := if b then c.b1 else c.b0
def Core.setBank (c : Core) (b : Bool) (k : Bank) : Core := if b then { c with b1 := k } else { c with b0 := k }

/-- Entries of a bank: entry of column j and block blk at byte 4j + 2blk (R242). -/
def bankEntries (e0 e1 : Vec) : BitVec 2048 :=
  BitVec.ofNat 2048 ((List.range 64).foldl (fun t i => t + bits e0.toNat (16 * i) 16 * 2 ^ (32 * i) + bits e1.toNat (16 * i) 16 * 2 ^ (32 * i + 16)) 0)
/-- Poison of entries, bit 2j + blk. -/
def entryPoison (kp : BitVec 8) : BitVec 128 :=
  (List.range 64).foldl (fun m j => m ||| (if kp.getLsbD (j / 16) then BitVec.ofNat 128 (2 ^ (2 * j)) else 0) ||| (if kp.getLsbD (4 + j / 16) then BitVec.ofNat 128 (2 ^ (2 * j + 1)) else 0)) 0
/-- What mldb records for a bank (R395). -/
def Bank.config (k : Bank) (ww s : Bool) (fmt : BitVec 4) (n kb : Nat) (e0 e1 : Vec) (kp : BitVec 8) : Bank :=
  { k with fmt, ww, s, n, kb, scale := bankEntries e0 e1, poison := (k.poison &&& onesLow 192 64) ||| ((entryPoison kp).setWidth 192 <<< 64) }
/-- A bank as the checks at issue see it: with what the last queued mldb records for it (R242, R397). Passes already queued keep the bank
itself. -/
def Core.bankAt (c : Core) (b : Bool) : Bank :=
  c.mq.foldl (fun k m => match m.op with | .mldb _ ww s b' fmt n kb e0 e1 kp => if b' = b then k.config ww s fmt n kb e0 e1 kp else k | _ => k) (c.bankOf b)

/-- The fill: digits, zero elsewhere, the captured role, poison of rows (R241, R251, R395). -/
def Bank.fill (k : Bank) (t : Tile) (v : Word32) (side : SideCar) : Bank :=
  let db := digitsOf (tcfgFmt v) k.ww
  let bl := withIndex (roleBlocks v t.bytes k.ww true side.spares)
  let ds := bl.flatMap fun q => (withIndex q.2).flatMap fun r => (withIndex r.2.2.1).flatMap fun x =>
    (withIndex (cellDigits db x.2)).map fun d => (8 * (64 * (32 * r.1 + x.1) + q.1 * db + d.1), d.2)
  let rows := (List.range (tcfgRows v)).filterMap fun i => (t.poisonAt (pieceMask (i * rowBytes v) (rowBytes v))).map fun a => (i, a)
  { k with
    digits := BitVec.ofNat 32768 (layFields 8 ds), c := side.sq.setWidth 8192, e := side.e, flags := side.flags, stale := false
    poison := rows.foldl (fun m q => m ||| BitVec.ofNat 192 (2 ^ q.1)) (k.poison &&& ~~~(onesLow 192 64))
    paddr := rows, src := t.bytes, srcCfg := v }

/-- β of array row k in column c: the top digit is signed, but for UINT8 (R240). -/
def Bank.beta (b : Bank) (db k c : Nat) : Int :=
  let x := bits b.digits.toNat (8 * (64 * k + c)) 8
  if c % db = db - 1 ∧ b.fmt ≠ 1 then sgn 8 x else (x : Int)
/-- Corrections recomputed from the digits (R248). -/
def Bank.restale (b : Bank) : Bank :=
  let db := digitsOf b.fmt.toNat b.ww
  { b with
    stale := false
    c := BitVec.ofNat 8192 (layFields 64 ((List.range 64).flatMap fun c => [0, 1].map fun blk =>
      (8 * (16 * c + 8 * blk), sumSq ((List.range 32).map fun k => b.beta db (32 * blk + k) c)))) }
def Bank.cAt (b : Bank) (c blk : Nat) : Nat := bits b.c.toNat (8 * (16 * c + 8 * blk)) 64
def bankScale (s : BitVec 2048) (j blk : Nat) : Nat := bits s.toNat (8 * (4 * j + 2 * blk)) 8
def bankSpare (s : BitVec 2048) (j blk : Nat) : Nat := bits s.toNat (8 * (4 * j + 2 * blk) + 8) 8

/-! The drain (R248-R250). -/

/-- The operands of a drain, gathered once. -/
structure Drain where
  fa : Nat
  la : Nat
  db : Nat
  kmax : Nat
  /-- cell-form lanes of row i, block by block -/
  alpha : List (List (List (List Int)))
  side : SideCar
  bank : Bank
  tag : BankTag
  tcfg : Word32
  bytes : TileBytes
  scaled : Bool
  e0 : Vec
  e1 : Vec

/-- T of a block, or none when the check of R248 fails. -/
def Drain.block (d : Drain) (i j blk : Nat) : Option Int :=
  let row := (d.alpha.getD i []).getD blk []
  (List.range d.la).foldl (fun (t : Option Int) l =>
    let r : Int := (bits d.side.sq.toNat (8 * (1024 * l + 16 * i + 8 * blk)) 64 : Nat)
    (List.range d.db).foldl (fun (t : Option Int) g =>
      match t with
      | none => none
      | some t =>
        let col := j * d.db + g
        let c : Int := (d.bank.cAt col blk : Nat)
        let s := sumSq ((List.range 32).map fun k => (row.getD k []).getD l 0 + d.bank.beta d.db (32 * blk + k) col)
        let x := s - r - c
        if x % 2 ≠ 0 ∨ r + c < (x.natAbs : Int) then none else some (t + x / 2 * (2 ^ (16 * l + 8 * g) : Nat))) t) (some 0)

/-- The scales of a block: A and B exponents, and whether one of them is 0xFF. -/
def Drain.scales (d : Drain) (i j blk : Nat) : Int × Bool :=
  let a := scaleAt d.e0 d.e1 i blk
  let b := bankScale d.tag.scale j blk
  ((if d.scaled then (a : Int) - 127 else 0) + (if d.tag.s then (b : Int) - 127 else 0), (d.scaled && a == 255) || (d.tag.s && b == 255))

/-- Elements (i, k) of A and (k, j) of B as values. -/
def Drain.aVal (d : Drain) (i k : Nat) : FVal := elemVal d.fa (bits (scaleAt (d.e0 >>> 8) (d.e1 >>> 8) i (k / 32)) 0 8) (tileElem d.tcfg d.bytes i k)
def Drain.bVal (d : Drain) (k j : Nat) : FVal :=
  elemVal (tcfgFmt d.bank.srcCfg) (bankSpare d.tag.scale j (k / 32)) (tileElem d.bank.srcCfg d.bank.src k j)

/-- The value of a block pair under R250, given its normal-path value. -/
def Drain.special (d : Drain) (i j blk : Nat) (ff : Bool) (normal : FVal) : FVal :=
  let ps := ((List.range 32).filter fun k => decide (32 * blk + k < d.kmax)).map fun k =>
    if ff then FVal.nan else mulF (d.aVal i (32 * blk + k)) (d.bVal (32 * blk + k) j)
  let pos := ps.any (· == .inf false)
  let neg := ps.any (· == .inf true)
  if ps.any FVal.isNan || (pos && neg) then .nan else if pos then .inf false else if neg then .inf true else normal

/-- V of element (i, j): none when a check fails. Block 1 takes no part when neither operand reaches it (R397). -/
def Drain.value (d : Drain) (two : Bool) (i j : Nat) : Option FVal :=
  (if two then [0, 1] else [0]).foldl (fun (v : Option FVal) blk =>
    match v, d.block i j blk with
    | some v, some t =>
      let (e, ff) := d.scales i j blk
      let n := FVal.ofInt t (SideCar.eAt d.side.e i blk + SideCar.eAt d.bank.e j blk + e) false
      let path := ff || flagsAt d.side.flags i blk % 8 != 0 || flagsAt d.bank.flags j blk % 8 != 0
      some (addF false v (if path then d.special i j blk ff n else n))
    | _, _ => none) (some (.num false 0 0))

/-- Width in bytes of an accumulator element. -/
def accWidth (af : BitVec 2) : Nat := if af = 3 then 8 else 4
/-- Format code of an accumulator format (R255). -/
def accFmt (af : BitVec 2) : Nat := match af.toNat with | 1 => 3 | 2 => 9 | _ => 10
def Acc.elem (a : Acc) (i j : Nat) : Nat := bits a.bytes.toNat (8 * accWidth a.fmt * (i * a.cols + j)) (8 * accWidth a.fmt)

/-- Round of R248: the new element and whether it saturated. -/
def accRound (af : BitVec 2) (old : Option Nat) (v : FVal) : Nat × Bool :=
  if af = 1 then
    let t : Int := match v with | .num neg m e => sgnd neg (roundAt .rtz 0 neg m e false 0) | _ => 0
    let x := (match old with | some o => sgn 32 o | none => 0) + t
    (wrapI 32 (satI x (intMin 32 true) (intMax 32 true)), decide (x < intMin 32 true ∨ intMax 32 true < x))
  else
    let f := if af = 2 then fFP32 else fFP64
    (roundF f .rne false 0 (match old with | some o => addF false (decF f o) v | none => v), false)

/-- The drain of a whole pass into its accumulator, or none when a check fails. -/
def Drain.run (d : Drain) (two ow : Bool) (acc : Acc) : Option Acc :=
  let cells := (List.range acc.rows).flatMap fun i => (List.range acc.cols).map fun j => (i, j)
  let vals := cells.map fun q => (d.value two q.1 q.2).map fun v => (q, accRound acc.fmt (if ow then none else some (acc.elem q.1 q.2)) v)
  if vals.any Option.isNone then none
  else
    let vs := vals.filterMap id
    let w := accWidth acc.fmt
    some { acc with
      bytes := putBytes acc.bytes 0 (vs.flatMap fun q => bytesOf w q.2.1)
      sat := acc.sat || vs.any fun q => q.2.2 }

/-! The engine's queue (R243, R393, R394). -/

/-- The first operation that has not started. -/
def Core.mNext (c : Core) : Option PMat := c.mq.find? fun m => !m.started
def Core.mPut (c : Core) (m : PMat) : Core := { c with mq := c.mq.map fun x => if x.seq = m.seq then m else x }
/-- An operation leaves the engine, and its busy bits clear: it has retired (R299). -/
def State.mRetire (s : State) (core : Nat) (m : PMat) : State :=
  (s.modCore core fun c => { c with mq := c.mq.filter (·.seq != m.seq) }).arriveLate core m.arr m.seq m.relN 0

/-- What a fill or a pass has to have computed before it starts: 0 the A role, 1 the B role, 2 the bank's corrections (R247, R248). -/
def Core.mNeeds (c : Core) (m : PMat) : Option Nat :=
  match m.op with
  | .mldb t ww _ _ fmt _ _ e0 e1 _ => if (c.tile t).b.serves fmt.toNat ww (sparesOf e0 e1) then none else some 1
  | .pass _ t _ ww _ _ bank e0 e1 _ _ =>
    if !(c.tile t).a.serves (tcfgFmt (c.tcfg t)) ww (sparesOf e0 e1) then some 0
    else if (c.bankOf bank).stale then some 2 else none
  | _ => none
/-- Nothing before it in the queue keeps a fill or pass from its bank (R242). -/
def Core.bankFree (c : Core) (m : PMat) : Bool :=
  (c.mq.filter fun x => decide (x.seq < m.seq)).all fun x =>
    match m.op, x.op with
    | .mldb _ _ _ b _ _ _ _ _ _, .pass _ _ _ _ _ _ b' _ _ _ _ => b != b'
    | .mldb _ _ _ b _ _ _ _ _ _, .mldb _ _ _ b' _ _ _ _ _ _ => b != b'
    | .pass _ _ _ _ _ _ b _ _ _ _, .mldb _ _ _ b' _ _ _ _ _ _ => b != b'
    | _, _ => true

/-- A role of a tile that the next fill or pass is having computed, under a key that it does not have yet (R247). -/
def Core.computing (c : Core) (t : Nat) (bRole : Bool) : Bool :=
  match c.mNext with
  | none => false
  | some m => match c.mNeeds m, m.op with
    | some 1, .mldb x _ _ _ _ _ _ _ _ _ => bRole && x == t
    | some 0, .pass _ x _ _ _ _ _ _ _ _ _ => !bRole && x == t
    | _, _ => false
/-- TCFG as a move reads it: such a role reads 0 (R252, R327). -/
def Core.tcfgRead (c : Core) (t : Nat) : Word :=
  BitVec.ofNat 64 ((c.tcfg t).toNat + (if (c.tile t).a.valid && !c.computing t false then 2 ^ 17 else 0) +
    (if (c.tile t).b.valid && !c.computing t true then 2 ^ 18 else 0))
def execMftcfg (o : OpInfo) (r : MftcfgArgs) (s : State) : Out := s.alu o r.d fun s => s.cur.tcfgRead r.t.toNat
/-- A role or the corrections computed on use (R247, R248, R253). -/
def State.sideCarStep (s : State) (core : Nat) : State :=
  let c := s.core core
  match c.mNext with
  | none => s
  | some m =>
    let role (t : Nat) (ww bRole : Bool) (sp : Vec) : Tile :=
      let x := c.tile t
      let r := computeRole (c.tcfg t) x.bytes ww bRole sp
      if bRole then { x with b := r } else { x with a := r }
    match c.mNeeds m, m.op with
    | some 1, .mldb t ww _ _ _ _ _ e0 e1 _ => s.setCore core { c with tiles := c.tiles.ins t (role t ww true (sparesOf e0 e1)), cmiss := c.cmiss + 1 }
    | some 0, .pass _ t _ ww _ _ _ e0 e1 _ _ => s.setCore core { c with tiles := c.tiles.ins t (role t ww false (sparesOf e0 e1)), cmiss := c.cmiss + 1 }
    | some 2, .pass _ _ _ _ _ _ bank _ _ _ _ =>
      if c.bankFree m then s.setCore core { (c.setBank bank (c.bankOf bank).restale) with cmiss := c.cmiss + 1 } else s
    | _, _ => s

/-- A fill starts (R242, R243). -/
def State.fillStart (s : State) (core : Nat) : State :=
  let c := s.core core
  match c.mNext with
  | some m =>
    match m.op with
    | .mldb t _ _ _ _ _ _ _ _ _ =>
      if c.arrayOn && (c.mNeeds m).isNone && c.bankFree m then s.setCore core (c.mPut { m with started := true, side := (c.tile t).b }) else s
    | _ => s
  | none => s
/-- A fill ends (R243, R395). -/
def State.fillDone (s : State) (core : Nat) : State :=
  let c := s.core core
  match c.mq.find? fun m => m.started && (match m.op with | .mldb .. => true | _ => false) with
  | some m =>
    match m.op with
    | .mldb t ww sc bank fmt n kb e0 e1 kp =>
      (s.setCore core (c.setBank bank (((c.bankOf bank).config ww sc fmt n kb e0 e1 kp).fill (c.tile t) (c.tcfg t) m.side))).mRetire core m
    | _ => s
  | none => s

/-- The poison that a pass reads: the address to record (R251). -/
def passPoison (t : Tile) (v : Word32) (bank : Bank) (tag : BankTag) (scaled : Bool) (kp : BitVec 8) : Option Word :=
  let kmax := min (tcfgCols v) tag.kb
  let two := decide (32 < tcfgCols v ∨ 32 < tag.kb)
  let w := fmtWidth (tcfgFmt v)
  let am := (List.range (tcfgRows v)).foldl (fun m i => m ||| pieceMask (i * rowBytes v) ((kmax * w + 7) / 8)) (0 : BitVec 512)
  let aScale := scaled && (List.range (tcfgRows v)).any fun i => kp.getLsbD (i / 16) || (two && kp.getLsbD (4 + i / 16))
  let bScale := tag.s && (List.range tag.n).any fun j => tag.poison.getLsbD (2 * j) || (two && tag.poison.getLsbD (2 * j + 1))
  match t.poisonAt am, (List.range kmax).find? fun k => bank.poison.getLsbD k with
  | some a, _ => some a
  | none, some k => some ((bank.paddr.get? k).getD 0)
  | none, none => if aScale || bScale then some 0 else none

/-- A pass starts streaming; a poisoned one reports 0x143 (R243, R251, R394). -/
def State.passStart (s : State) (core : Nat) : State :=
  let c := s.core core
  match c.mNext with
  | some m =>
    match m.op with
    | .pass _ t _ _ scaled _ bank _ _ kp tag =>
      if c.arrayOn && !c.enginesHeld && (c.mNeeds m).isNone && c.bankFree m then
        let s := s.spend core (passUnits (tcfgFmt (c.tcfg t))) false
        let c := s.core core
        let found : Option TrapInfo := (passPoison (c.tile t) (c.tcfg t) (c.bankOf bank) tag scaled kp).map fun a =>
          { cause := 0x143#10, faddr := a, slot := 4, site := some m.site }
        s.setCore core (c.mPut { m with started := true, side := (c.tile t).a, found })
      else s
    | _ => s
  | none => s

/-- The operands of a pass as it drains. -/
def Core.drainOf (c : Core) (m : PMat) (t : Nat) (ww scaled bank : Bool) (e0 e1 : Vec) (tag : BankTag) : Drain :=
  let v := c.tcfg t
  let fa := tcfgFmt v
  let la := lanesOf fa
  { fa, la, db := digitsOf tag.fmt.toNat ww, kmax := min (tcfgCols v) tag.kb
    alpha := (roleBlocks v (c.tile t).bytes ww false m.side.spares).map fun r => r.map fun b => b.2.1.map (cellLanes la)
    side := m.side, bank := c.bankOf bank, tag, tcfg := v, bytes := (c.tile t).bytes, scaled, e0, e1 }

/-- The oldest pass that streams drains: its elements are written, or the check fails (R243, R248, R394). -/
def State.passDrain (s : State) (core : Nat) : State :=
  let c := s.core core
  match c.mq.find? fun m => m.started && m.found.isNone && (match m.op with | .pass .. => true | _ => false) with
  | some m =>
    match m.op with
    | .pass a t ow ww scaled _ bank e0 e1 _ tag =>
      let two := decide (32 < tcfgCols (c.tcfg t) ∨ 32 < tag.kb)
      match (c.drainOf m t ww scaled bank e0 e1 tag).run two ow (c.acc a) with
      | some acc => (s.setCore core { c with accs := c.accs.ins a acc }).mRetire core m
      | none => s.setCore core (c.mPut { m with found := some { cause := 0x043#10, slot := 4, site := some m.site, stale := some (bank, t) } })
    | _ => s
  | none => s

/-! The tile unit (R393, R399-R404). -/

/-- A tile written by an operation of the tile unit: roles invalid. -/
def Tile.fresh (t : Tile) (b : TileBytes) : Tile := { t with bytes := b, a := { t.a with valid := false }, b := { t.b with valid := false } }
/-- Bytes [0, n) move with their poison from piece to piece (R142). -/
def Tile.takes (t from' : Tile) (n : Nat) : Tile :=
  let m := pieceMask 0 n
  let whole := onesLow 512 (n / 32)
  { t with
    poison := (t.poison &&& ~~~whole) ||| (from'.poison &&& m)
    paddr := (ones (from'.poison &&& m)).foldl (fun p k => p.put 0 k (from'.paddr.getD k 0)) (t.paddr.filter fun q => !whole.getLsbD q.1) }

/-- Random value j of a list of drawn words (R272). -/
def drawn (ws : List Word) (j : Nat) : Nat := bits (ws.getD (j / 2) 0).toNat (32 * (j % 2)) 32

/-- The result of a tile-unit operation. -/
def Core.tileUnit (c : Core) : MatOp → Core
  | .drain t a rm sat rnd =>
    let acc := c.acc a
    let v := c.tcfg t
    let w := fmtWidth (tcfgFmt v) / 8
    let mode := (modeOf rm).getD .rne
    let x := c.tile t
    let b := (List.range acc.rows).flatMap fun i => (List.range acc.cols).flatMap fun j =>
      bytesOf w (convert (accFmt acc.fmt) (tcfgFmt v) mode sat (drawn rnd (i * acc.cols + j)) (acc.elem i j))
    { c with tiles := c.tiles.ins t ((x.fresh (putBytes x.bytes 0 b)).wrote 0 b.length) }
  | .zacc a af rows cols =>
    let x := c.acc a
    { c with accs := c.accs.ins a { x with bytes := putBytes x.bytes 0 (List.replicate (rows * cols * accWidth af) 0) } }
  | .cv t ra rb ww e0 e1 =>
    let x := c.tile t
    let v := c.tcfg t
    let sp := sparesOf e0 e1
    let x := if ra then { x with a := computeRole v x.bytes ww false sp } else x
    { c with tiles := c.tiles.ins t (if rb then { x with b := computeRole v x.bytes ww true sp } else x) }
  | .trn d a =>
    let v := c.tcfg a
    let x := c.tile a
    let w := fmtWidth (tcfgFmt v) / 8
    let b := (List.range (tcfgCols v)).flatMap fun j => (List.range (tcfgRows v)).flatMap fun i => bytesOf w (tileElem v x.bytes i j)
    let at_ (i j : Nat) : Nat := i * rowBytes v + j * w
    let bad := (List.range (tcfgRows v)).flatMap fun i => (List.range (tcfgCols v)).filterMap fun j =>
      let k := at_ i j / 32
      if x.poison.getLsbD k then some ((j * tcfgRows v + i) * w / 32, (x.paddr.get? k).getD 0) else none
    let y := c.tile d
    let y := y.fresh (putBytes y.bytes 0 b)
    { c with tiles := c.tiles.ins d { y with
        poison := bad.foldl (fun m q => m ||| BitVec.ofNat 512 (2 ^ q.1)) 0
        paddr := bad.foldl (fun (p : SMap Word) q => p.put 0 q.1 q.2) [] } }
  | .fill t val =>
    let v := c.tcfg t
    let x := c.tile t
    let n := tileLen v
    let pat := match fmtWidth (tcfgFmt v) with
      | 4 => bytesOf 1 (bits val.toNat 0 4 * 17)
      | 8 => bytesOf 1 val.toNat
      | 16 => bytesOf 2 val.toNat
      | 32 => bytesOf 4 (bits val.toNat 0 16 * 2 ^ 16)
      | _ => bytesOf 8 (bits val.toNat 0 16 * 2 ^ 48)
    { c with tiles := c.tiles.ins t ((x.fresh (putBytes x.bytes 0 ((List.replicate (n / pat.length) pat).flatten))).wrote 0 n) }
  | .tcpy d a =>
    if d = a then c
    else
      let x := c.tile a
      let n := tileLen (c.tcfg a)
      let y := c.tile d
      { c with tiles := c.tiles.ins d ({ y with bytes := putBytes y.bytes 0 (bytesOf n (tileBytes x.bytes 0 n)), a := x.a, b := x.b }.takes x n) }
  | _ => c

/-- The next operation of the tile unit ends (R393); an mcv of a poisoned tile reports 0x141 and leaves its roles invalid (R401). -/
def State.tileUnitDone (s : State) (core : Nat) : State :=
  let c := s.core core
  match c.mNext with
  | some m =>
    match m.op with
    | .mldb .. => s
    | .pass .. => s
    | .cv t ra rb .. =>
      match (c.tile t).poisonAt (pieceMask 0 (tileLen (c.tcfg t))) with
      | some a =>
        let x := c.tile t
        let x := { x with a := { x.a with valid := x.a.valid && !ra }, b := { x.b with valid := x.b.valid && !rb } }
        let c := { c with tiles := c.tiles.ins t x }
        s.setCore core (c.mPut { m with started := true, found := some { cause := 0x141#10, faddr := a, slot := 4, site := some m.site } })
      | none => (s.setCore core (c.tileUnit m.op)).mRetire core m
    | op => (s.setCore core (c.tileUnit op)).mRetire core m
  | none => s

/-- The engine reports the first cause in program order, and the segment rolls back (R394, R224). -/
def State.engineReport (s : State) (core : Nat) : State :=
  match (s.core core).mq.find? fun m => m.found.isSome with
  | some m => match m.found with
    | some t => s.park core t m.site.1 (if contextFatal t.cause then 4 else 1)
    | none => s
  | none => s

/-- The array is on after its enable; it is gated when idle (R27). -/
def State.arrayEnabled (s : State) (core : Nat) : State :=
  s.modCore core fun c => if c.arrayEn then { c with arrayOn := true, arrayEn := false } else c
def Core.arrayActive (c : Core) : Bool := c.mq.any fun m => match m.op with | .mldb .. => true | .pass .. => true | _ => false
def State.arrayGate (s : State) (core : Nat) : State :=
  s.modCore core fun c => if c.arrayActive then c else { c with arrayOn := false }

def execArrayPowerGate (core : Nat) (s : State) : Out := .next (s.arrayGate core)
def execArrayEnable (core : Nat) (s : State) : Out := .next (s.arrayEnabled core)
def execBankFillStart (core : Nat) (s : State) : Out := .next (s.fillStart core)
def execBankFillDone (core : Nat) (s : State) : Out := .next (s.fillDone core)
def execSideCarComputeDone (core : Nat) (s : State) : Out := .next (s.sideCarStep core)
def execPassStart (core : Nat) (s : State) : Out := .next (s.passStart core)
def execPassDrainDone (core : Nat) (s : State) : Out := .next (s.passDrain core)
def execTileUnitOpDone (core : Nat) (s : State) : Out := .next (s.tileUnitDone core)
def execEngineCauseReport (core : Nat) (s : State) : Out := .next (s.engineReport core)

/-! M-slot operations at issue (R391-R404). -/

/-- The queue of four is full, or a tile or accumulator is busy (R203, R243). -/
def Core.mBlocked (c : Core) (since : Option (Nat × Nat)) (op : MatOp) : Bool :=
  decide (4 ≤ (c.mq.filter fun m => !m.started).length) ||
    op.reads.any (fun n => c.tileBlocked since n false) || op.writes.any (fun n => c.tileBlocked since n true)
/-- Slots of the copy-on-write pool for what an operation writes, but for mcv (R220, R401). -/
def Core.cowFor (c : Core) (op : MatOp) : Except TrapInfo Core :=
  match op with
  | .cv .. => .ok c
  | _ => op.writes.foldl (fun (r : Except TrapInfo Core) n => r.bind fun c => if 16 ≤ n then c.cowAcc (n - 16) else c.cowTile n) (.ok c)
/-- An operation with a true guard waits for its busy bits, passes its checks, and enters the queue. `chk` also changes what
later issues see (formats and shapes). -/
def State.mIssue (s : State) (o : OpInfo) (shape : MatOp) (chk : State → Except TrapInfo (MatOp × Core)) : Out :=
  s.runLate o fun s =>
    if s.cur.mBlocked s.issue.since shape then .ok s.stallNow
    else do
      let (op, c) ← chk s
      let (q, s) := (s.setCore s.issue.core c).nextSeq
      .ok (s.modCur fun c => { c.arrivalDue o.arr q with mq := c.mq ++ [{ seq := q, op, site := (s.issue.haddr, s.cur.seg.count), relN := s.issue.relN, arr := o.arr }] })
/-- Operations of the array wait until it is on (R27). -/
def State.arrayWait (s : State) (o : OpInfo) (f : State → Out) : Out :=
  if s.guard0 o && !s.cur.arrayOn then .next (s.modCur fun c => { c with arrayEn := true }).stallNow else f s

/-- The entries of pair q, and their poison (R390, R406). -/
def Core.pairOf (c : Core) (q : Nat) : Vec × Vec × BitVec 8 :=
  (c.rK (2 * q), c.rK (2 * q + 1), (c.kPoison (2 * q)).setWidth 8 ||| ((c.kPoison (2 * q + 1)).setWidth 8 <<< 4))
def execMldb (o : OpInfo) (r : MldbArgs) (s : State) : Out :=
  s.arrayWait o fun s => s.mIssue o (.mldb r.a.toNat false false false 0 0 0 0 0 0) fun s => do
    let c := s.cur
    let v := c.tcfg r.a.toNat
    let f := tcfgFmt v
    let sc := r.s == 1
    let ww := r.ww == 1
    raiseIf ((f == 6 && !sc) || (sc && !(f == 4 || f == 5 || f == 6))) 0x045#10
    raiseIf (ww && !isFp8 f) 0x045#10
    raiseIf (decide (64 < tcfgCols v * digitsOf f ww)) 0x041#10
    let (e0, e1, kp) := if sc then c.pairOf r.q.toNat else (0, 0, 0)
    .ok (.mldb r.a.toNat ww sc (!c.arch.bank) (BitVec.ofNat 4 f) (tcfgCols v) (tcfgRows v) e0 e1 kp, c)

def execMswap (o : OpInfo) (s : State) : Out :=
  s.runNow o fun s => .ok (s.modCur fun c => { c with arch := { c.arch with bank := !c.arch.bank } })

/-- The checks of R397 and the pass they queue. -/
def State.passCheck (s : State) (d a : Nat) (af : BitVec 2) (ww ow : Bool) (q : Option Nat) : Except TrapInfo (MatOp × Core) := do
  let c := s.cur
  let v := c.tcfg a
  let fa := tcfgFmt v
  let bk := c.bankAt c.arch.bank
  raiseIf (if q.isNone then fa == 6 else !(fa == 4 || fa == 5 || fa == 6)) 0x045#10
  raiseIf (ww != bk.ww) 0x045#10
  raiseIf (!passRow fa bk.fmt.toNat af.toNat) 0x045#10
  let x := c.acc d
  raiseIf (!ow && (x.fmt == 0 || x.fmt != af)) 0x042#10
  raiseIf (!ow && (x.rows != tcfgRows v || x.cols != bk.n)) 0x044#10
  let (e0, e1, kp) := match q with | some q => c.pairOf q | none => (0, 0, 0)
  let tag : BankTag := { fmt := bk.fmt, s := bk.s, n := bk.n, kb := bk.kb, scale := bk.scale, poison := (bk.poison >>> 64).setWidth 128 }
  let c ← c.cowAcc d
  .ok (.pass d a ow ww q.isSome af c.arch.bank e0 e1 kp tag,
    if ow then { c with accs := c.accs.ins d { x with fmt := af, rows := tcfgRows v, cols := bk.n, sat := false } } else c)

def execMma (o : OpInfo) (r : MmaArgs) (s : State) : Out :=
  s.arrayWait o fun s => s.mIssue o (.pass r.d.toNat r.a.toNat false false false 0 false 0 0 0 {}) fun s =>
    s.passCheck r.d.toNat r.a.toNat r.af (r.ww == 1) (r.ow == 1) none
def execMmas (o : OpInfo) (r : MmasArgs) (s : State) : Out :=
  s.arrayWait o fun s => s.mIssue o (.pass r.d.toNat r.a.toNat false false false 0 false 0 0 0 {}) fun s =>
    s.passCheck r.d.toNat r.a.toNat r.af (r.ww == 1) (r.ow == 1) (some r.q.toNat)

def execMzacc (o : OpInfo) (r : MzaccArgs) (s : State) : Out :=
  let rows := r.rows.toNat + 1
  let cols := r.cols.toNat + 1
  let op : MatOp := .zacc r.d.toNat r.af rows cols
  s.mIssue o op fun s => do
    raiseIf (decide (16384 < rows * cols * accWidth r.af)) 0x041#10
    let c ← s.cur.cowFor op
    let x := c.acc r.d.toNat
    .ok (op, { c with accs := c.accs.ins r.d.toNat { x with fmt := r.af, rows, cols, sat := false } })

/-- The words that an operation draws for n elements under SR (R270-R272). -/
def Core.draw (c : Core) (core stream n : Nat) : List Word × Core :=
  let k := (n + 1) / 2
  let ctr := c.arch.srctr.getD stream 0
  ((List.range k).map fun i => BitVec.ofNat 64 (randWord c.arch.seed.toNat core stream ((ctr.toNat + i) % 2 ^ 64)),
    { c with arch := { c.arch with srctr := c.arch.srctr.put 0 stream (ctr + BitVec.ofNat 64 k) } })

def execMdrain (o : OpInfo) (r : MdrainArgs) (s : State) : Out :=
  s.mIssue o (.drain r.d.toNat r.a.toNat r.rm false []) fun s => do
    let c := s.cur
    let v := c.tcfg r.d.toNat
    let x := c.acc r.a.toNat
    match modeOf r.rm with
    | none => trapC 0x046#10
    | some mode =>
      raiseIf (x.fmt == 0) 0x04C#10
      raiseIf (tcfgFmt v == 6 || tcfgRows v != x.rows || tcfgCols v != x.cols) 0x04C#10
      let c ← c.cowTile r.d.toNat
      let (ws, c) := if mode = .sr then c.draw s.issue.core r.str.toNat (x.rows * x.cols) else ([], c)
      .ok (.drain r.d.toNat r.a.toNat r.rm (r.sat == 1) ws, c)

def execMcv (o : OpInfo) (r : McvArgs) (s : State) : Out :=
  s.mIssue o (.cv r.d.toNat false false false 0 0) fun s => do
    let c := s.cur
    let v := c.tcfg r.d.toNat
    let f := tcfgFmt v
    raiseIf (f != 6 && r.q != 0) 0x002#10
    raiseIf (r.ww == 1 && !isFp8 f) 0x045#10
    raiseIf (r.rb == 1 && decide (64 < tcfgCols v * digitsOf f (r.ww == 1))) 0x045#10
    let (e0, e1, _) := if f = 6 then c.pairOf r.q.toNat else (0, 0, 0)
    .ok (.cv r.d.toNat (r.ra == 1) (r.rb == 1) (r.ww == 1) e0 e1, c)

def execMtrn (o : OpInfo) (r : TilePair) (s : State) : Out :=
  let op : MatOp := .trn r.d.toNat r.a.toNat
  s.mIssue o op fun s => do
    let va := s.cur.tcfg r.a.toNat
    raiseIf (r.d == r.a || tcfgFmt va == 6) 0x04C#10
    let v : Word32 := BitVec.ofNat 32 (tcfgFmt va + (tcfgCols va - 1) * 16 + (tcfgRows va - 1) * 1024 + (if s.cur.tcfgShb r.d.toNat then 65536 else 0))
    raiseIf (badShape v) 0x041#10
    let c ← s.cur.cowFor op
    .ok (op, { c with arch := { c.arch with tcfg := c.arch.tcfg.put 0 r.d.toNat v } })

/-- The payload bits past the element width are reserved (R403). -/
def execMfill (o : OpInfo) (r : MfillArgs) (s : State) : Out :=
  let op : MatOp := .fill r.d.toNat r.v
  s.mIssue o op fun s => do
    let w := min (fmtWidth (tcfgFmt (s.cur.tcfg r.d.toNat))) 16
    raiseIf (decide (2 ^ w ≤ r.v.toNat)) 0x002#10
    let c ← s.cur.cowFor op
    .ok (op, c)

def execMtcpy (o : OpInfo) (r : TilePair) (s : State) : Out :=
  let op : MatOp := .tcpy r.d.toNat r.a.toNat
  s.mIssue o op fun s => do
    let c ← s.cur.cowFor op
    let v : Word32 := BitVec.ofNat 32 (bits (c.tcfg r.a.toNat).toNat 0 16 + (if c.tcfgShb r.d.toNat then 65536 else 0))
    .ok (op, { c with arch := { c.arch with tcfg := c.arch.tcfg.put 0 r.d.toNat v } })

end Sys2Proof.Machine
end

