-- ==== Sys2Proof/Machine/TileRow.lean ====
section
/-! DEFINITION. Vector access to rows of tiles and accumulators (R371). -/
namespace Sys2Proof.Machine

/-- Rows, bytes of a row, and place of a row's first byte, of a tile (0-15) or accumulator (16-19); no rows when it holds no format. -/
def Core.rowShape (c : Core) (n : Nat) : Nat × Nat :=
  if n < 16 then (tcfgRows (c.tcfg n), rowBytes (c.tcfg n))
  else
    let a := c.acc (n - 16)
    if a.fmt = 0 then (0, 0) else (a.rows, a.cols * accWidth a.fmt)
/-- The 0x04B checks: the first byte of the piece in the tile or accumulator, and how many of its 128 bytes exist. -/
def Core.rowPiece (c : Core) (n row part : Nat) : Except TrapInfo (Nat × Nat) :=
  let (rows, rb) := c.rowShape n
  if rows ≤ row ∨ rb ≤ part * 128 then trapC 0x04B#10 else .ok (row * rb + part * 128, min 128 (rb - part * 128))

/-- 32-byte pieces of a tile that hold one of n bytes from `off` on. -/
def piecesAt (off n : Nat) : BitVec 512 := (List.range n).foldl (fun a i => a ||| BitVec.ofNat 512 (2 ^ ((off + i) / 32))) 0
/-- vtrd of a given row: zero past the row's bytes, elements under the guard, L = 2. The guard masks no byte that is read (R351). -/
def State.rowRead (s : State) (o : OpInfo) (d t : BitVec 5) (row part : Nat) (w : BitVec 2) : Out :=
  s.vec o fun s =>
    if s.cur.tileBlocked s.issue.since t.toNat false then .ok s.stallNow
    else do
      let c := s.cur
      let (off, n) ← c.rowPiece t.toNat row part
      if t.toNat < 16 then
        match (c.tile t.toNat).poisonAt (piecesAt off n) with
        | some a => .error { cause := 0x141#10, faddr := a }
        | none => pure ()
      let b := if t.toNat < 16 then (c.tile t.toNat).bytes else (c.acc (t.toNat - 16)).bytes
      .ok (s.landAllE .vint o d (widthOf w) (BitVec.ofNat 1024 (tileBytes b off n)))

/-- vtwr of a given row: the bytes of active elements that the row has, 2 bundles after issue. -/
def State.rowWrite (s : State) (o : OpInfo) (d : BitVec 5) (t : Nat) (row part : Nat) (w : BitVec 2) : Out :=
  s.vec o fun s =>
    if s.cur.tileBlocked s.issue.since t true then .ok s.stallNow
    else do
      let (off, n) ← s.cur.rowPiece t row part
      let m := s.guardMask o (widthOf w) (1024 / widthOf w) &&& BitVec.ofNat 1024 (2 ^ (8 * n) - 1)
      -- without an active byte it writes nothing
      if m = 0 then .ok s else
      let c ← s.cur.cowTile t
      .ok ((s.setCore s.issue.core c).land .vint (.tile t off) (s.cur.rV d.toNat) m)

/-- The row that FN[4] = 1 names. -/
def State.rowOf (s : State) (b : BitVec 5) : Nat := bits (v64 (s.cur.rV b.toNat)).toNat 0 6

def execVtrd (o : OpInfo) (r : TileRead) (s : State) : Out := s.rowRead o r.d r.t r.k.toNat r.part.toNat r.w
def execVtrdReg (o : OpInfo) (r : TileReadReg) (s : State) : Out := s.rowRead o r.d r.t (s.rowOf r.b) r.part.toNat r.w
def execVtwr (o : OpInfo) (r : TileRow) (s : State) : Out := s.rowWrite o r.d r.t.toNat r.k.toNat r.part.toNat r.w
def execVtwrReg (o : OpInfo) (r : TileRowReg) (s : State) : Out := s.rowWrite o r.d r.t.toNat (s.rowOf r.b) r.part.toNat r.w

end Sys2Proof.Machine
end

