-- ==== Sys2Proof/Machine/Scale.lean ====
section
/-! DEFINITION. The scale slot (R405-R407): block scale entries between scratchpad and k registers. -/
namespace Sys2Proof.Machine

/-- Address and pieces of kld and kst after their checks: byte of the register and scratchpad address of each 32-byte piece. -/
def State.kPieces (s : State) (base : BitVec 4) (pos sz : BitVec 2) (disp : BitVec 15) : Except TrapInfo (List (Nat × Nat)) := do
  let n := lenOf sz
  raiseIf (decide (128 < 32 * pos.toNat + n)) 0x04D#10
  let sa := ((s.cur.rK base.toNat).setWidth 64 + imm64 disp).toNat
  raiseIf (sa % 32 != 0) 0x082#10
  (List.range (n / 32)).foldl (fun (r : Except TrapInfo (List (Nat × Nat))) i => do
    let l ← r
    let a := (sa + 32 * i) % 2 ^ 64
    s.spCheck a
    .ok (l ++ [(32 * pos.toNat + 32 * i, s.cur.spVis a)])) (.ok [])

/-- Bytes of active entries in a 32-byte piece of a k register. -/
def State.kActive (s : State) (o : OpInfo) (off : Nat) : Nat :=
  ((List.range 32).filter fun i => s.guardE o 16 ((off + i) / 2)).foldl (fun t i => t + 2 ^ i) 0

def execKld (o : OpInfo) (r : KMem) (s : State) : Out :=
  s.vec o fun s => do
    let ps ← s.kPieces r.base r.pos r.sz r.disp
    let s ← ps.foldl (fun (q : Res) p => q.bind fun s => s.stashTouch p.2 32) (.ok s)
    .ok (ps.foldl (fun s p =>
      let m := s.kActive o p.1
      let v := natOf (readMap s.cur.sp p.2 32)
      let bad := s.cur.spPoison.has (p.2 / 32)
      let s := if m = 0 then s else s.land .sload (.k r.d.toNat) (BitVec.ofNat 1024 (v * 2 ^ (8 * p.1))) (BitVec.ofNat 1024 (spread 32 m * 2 ^ (8 * p.1)))
      -- every piece is read: a poisoned one marks its entries; a clean piece read into every entry clears the poison there, into some of
      -- them leaves it (R142)
      if bad || m == 2 ^ 32 - 1 then s.land .sload (.kp r.d.toNat) (if bad then BitVec.ofNat 1024 (2 ^ (p.1 / 32)) else 0) (BitVec.ofNat 1024 (2 ^ (p.1 / 32)))
      else s) s)

def execKst (o : OpInfo) (r : KMem) (s : State) : Out :=
  s.vec o fun s => do
    let ps ← s.kPieces r.base r.pos r.sz r.disp
    ps.foldl (fun (q : Res) p => q.bind fun s =>
      let m := s.kActive o p.1
      if m = 0 then .ok s
      else s.spStore (p.2 / 32) (BitVec.ofNat 256 (vecBytes (s.cur.rK r.d.toNat) p.1 32)) m ((s.cur.kPoison r.d.toNat).getLsbD (p.1 / 32))) (.ok s)

/-- Active entries of k[D] land with L = 2 under `vint`: the bits of each entry that `field` names. -/
def State.kLand (s : State) (o : OpInfo) (d : BitVec 4) (v : Vec) (field : Nat) : State :=
  let m := s.guardMask o 16 64 &&& BitVec.ofNat 1024 ((List.range 64).foldl (fun t i => t + field * 2 ^ (16 * i)) 0)
  if m = 0 then s else s.land .vint (.k d.toNat) v m
/-- The pieces of which some entry, or every entry, is active. -/
def State.kSome (s : State) (o : OpInfo) : Nat := ((List.range 4).filter fun i => s.kActive o (32 * i) != 0).foldl (fun t i => t + 2 ^ i) 0
def State.kAll (s : State) (o : OpInfo) : Nat := ((List.range 4).filter fun i => s.kActive o (32 * i) == 2 ^ 32 - 1).foldl (fun t i => t + 2 ^ i) 0
/-- A value repeated in every entry. -/
def repeat16 (v : Nat) : Vec := BitVec.ofNat 1024 ((List.range 64).foldl (fun t i => t + v * 2 ^ (16 * i)) 0)

/-- Poison travels with the entries: a piece of the destination is poisoned when it takes entries of a poisoned one, and clean
when all its entries are clean ones (R406, log 17). -/
def execKmov (o : OpInfo) (r : KPair) (s : State) : Out :=
  s.vec o fun s =>
    let src := (s.cur.kPoison r.a.toNat).toNat
    let m := (s.kSome o &&& src) ||| (s.kAll o &&& (src ^^^ 15))
    let s := s.kLand o r.d (s.cur.rK r.a.toNat) 0xFFFF
    .ok (if m = 0 then s else s.land .vint (.kp r.d.toNat) (BitVec.ofNat 1024 src) (BitVec.ofNat 1024 m))
def execKfill (o : OpInfo) (r : KfillArgs) (s : State) : Out :=
  s.vec o fun s =>
    let m := s.kAll o
    let s := s.kLand o r.d (repeat16 r.v.toNat) 0xFFFF
    .ok (if m = 0 then s else s.land .vint (.kp r.d.toNat) 0 (BitVec.ofNat 1024 m))
/-- kspr: active entries take the scale byte of k[D] as read at issue and a spare; a piece is poisoned when k[D] or the register of its
spares is (R407). -/
def State.kSpares (s : State) (o : OpInfo) (d : BitVec 4) (spares : Vec) (bad : BitVec 4) : State :=
  let src := (s.cur.kPoison d.toNat ||| bad).toNat
  let m := (s.kSome o &&& src) ||| (s.kAll o &&& (src ^^^ 15))
  let s := s.kLand o d (blend (s.cur.rK d.toNat) spares (repeat16 0xFF00)) 0xFFFF
  if m = 0 then s else s.land .vint (.kp d.toNat) (BitVec.ofNat 1024 src) (BitVec.ofNat 1024 m)
def execKspr (o : OpInfo) (r : KsprArgs) (s : State) : Out := s.vec o fun s => .ok (s.kSpares o r.d (repeat16 (r.v.toNat * 256)) 0)
def execKsprReg (o : OpInfo) (r : KPair) (s : State) : Out :=
  s.vec o fun s => .ok (s.kSpares o r.d (s.cur.rK r.a.toNat) (s.cur.kPoison r.a.toNat))

end Sys2Proof.Machine
end

