-- ==== Sys2Proof/Machine/Copy.lean ====
section
/-! DEFINITION. The copy slots (R409-R427): descriptors checked and started, commands that complete, tile images, descriptor moves,
shadow publication, stash windows, tier hints. -/
namespace Sys2Proof.Machine

/-! Elements of a command (R413, R418). -/

/-- Offsets of the elements of one side in flat order: i0 fastest. -/
def dOffsets (d : Desc512) (str : Nat → Int) : List Int :=
  let dim (k : Nat) (l : List Int) : List Int := (List.range (dCount d k)).flatMap fun (i : Nat) => l.map fun o => (i : Int) * str k + o
  dim 5 (dim 4 (dim 3 (dim 2 (dim 1 ((List.range (dCount d 0)).map fun (i : Nat) => ((i * 2 ^ dEsz d : Nat) : Int))))))
/-- Where an offset of a side stands: within the tile for space 3 (R410). -/
def sideAt (space addr : Nat) (off : Int) : Int := (if space = 3 then tileOff addr else addr : Nat) + off
/-- Elements of an indexed side: run i at the address times its index. -/
def indexedOffsets (d : Desc512) (str : Int) (ix : List Nat) : List Int :=
  ix.flatMap fun (x : Nat) => (List.range (dCount d 0)).map fun (i : Nat) => (x : Int) * str + ((i * 2 ^ dEsz d : Nat) : Int)

/-- Source and destination places of the elements of a command, in flat order. -/
def Cmd.sources (k : Cmd) : List Int :=
  (match k.kind with
    | .gath => indexedOffsets k.desc (dSst k.desc 1) k.index
    | _ => dOffsets k.desc (dSst k.desc)).map (sideAt (dSsp k.desc) (dSaddr k.desc))
def Cmd.dests (k : Cmd) : List Int :=
  (match k.kind with
    | .scat => indexedOffsets k.desc (dDst k.desc 1) k.index
    | _ => dOffsets k.desc (dDst k.desc)).map (sideAt (dDsp k.desc) (dDaddr k.desc))

/-! Checks at issue (R410-R412). -/

/-- Elements of a tile side lie inside its bytes. -/
def Core.tileSideBad (c : Core) (space addr : Nat) (l : List Int) (n : Nat) : Bool :=
  space == 3 && (decide (2 ^ 18 ≤ addr) || l.any fun o => decide (o < 0 ∨ (tileLen (c.tcfg (tileOf addr)) : Int) < o + n))
/-- 0x082, then 0x086, then 0x087, each over the elements of a side. -/
def Core.sideCheck (c : Core) (ctl : Bool) (space : Nat) (l : List Int) (n : Nat) : Except TrapInfo Unit := do
  raiseIf ((space == 1 || space == 3) && l.any fun o => o % n != 0) 0x082#10
  raiseIf (space == 1 && l.any fun o => decide (o < 0 ∨ (2 ^ 20 : Int) ≤ o)) 0x086#10
  raiseIf (space == 1 && !ctl && l.any fun o => !c.kernel.bmask.getLsbD (o.toNat / 65536)) 0x087#10

/-- Every condition of 0x0C4 (R411). -/
def Core.descBad (c : Core) (k : Cmd) (ssp dsp : List Nat) (twoDim : Bool) : Bool :=
  let d := k.desc
  let n := 2 ^ dEsz d
  dReserved d || dNdim d == 0 || dNdim d == 7 || decide (5 < dEsz d) || !ssp.contains (dSsp d) || !dsp.contains (dDsp d) ||
    (dSsp d == 3 && dDsp d == 3) || (twoDim && dNdim d != 2) || (dDsp d == 2 && decide (255 < dRcore d)) ||
    (dPv d && decide (255 < dPcore d)) || (dHv d && !(dDsp d == 1 || dDsp d == 2)) ||
    c.tileSideBad (dSsp d) (dSaddr d) k.sources n || c.tileSideBad (dDsp d) (dDaddr d) k.dests n

/-! Starting a command (R414). -/

/-- Own-scratchpad bytes with the poison of their sectors: the visible copy (R134, R142). -/
def Core.spTake (c : Core) (sa n : Nat) : List (Byte × Bool) :=
  (List.range n).map fun i => let a := c.spVis (sa + i); (c.sp.getD a 0, c.spPoison.has (a / 32))
/-- Tile bytes with their poison. -/
def Tile.take (t : Tile) (off n : Nat) : List (Byte × Bool) :=
  (bytesOf n (tileBytes t.bytes off n)).zip ((List.range n).map fun i => t.poison.getLsbD ((off + i) / 32))

/-- The trailer of a tile image, with zero for an invalid role (R419). -/
def roleImage (r : SideCar) (squares : Nat) : List (Byte) :=
  if r.valid then bytesOf 256 r.e.toNat ++ bytesOf 128 r.flags.toNat ++ bytesOf squares r.sq.toNat else List.replicate (384 + squares) 0
def keyByte (r : SideCar) : Nat := if r.valid then r.fmt.toNat + (if r.ww then 16 else 0) else 0
def trailer (tcfg : Word) (t : Tile) : List Byte :=
  bytesOf 4 tcfg.toNat ++ bytesOf 1 ((if t.a.valid then 1 else 0) + (if t.b.valid then 2 else 0)) ++ bytesOf 1 (keyByte t.a) ++
    bytesOf 1 (keyByte t.b) ++ bytesOf 9 0 ++ bytesOf 128 (if t.a.valid then t.a.spares.toNat else 0) ++
    bytesOf 128 (if t.b.valid then t.b.spares.toNat else 0) ++ roleImage t.a 4096 ++ roleImage t.b 1024 ++ bytesOf 10224 0
/-- A tile image: element bytes, zeros, and the trailer when asked for. -/
def tileImage (v : Word32) (tcfg : Word) (t : Tile) (trl : Bool) : List (Byte × Bool) :=
  t.take 0 (tileLen v) ++ (List.replicate (16384 - tileLen v) 0 ++ (if trl then trailer tcfg t else [])).map fun b => (b, false)

/-- The 32-byte pieces of a tile image that tldi reads: the element bytes, then the trailer (R420). -/
def imageOffs (n : Nat) (trl : Bool) : List Nat :=
  ((List.range ((n + 31) / 32)).map (32 * ·)) ++ if trl then (List.range 512).map fun i => 16384 + 32 * i else []
/-- The index words of an indexed command: how many. -/
def Cmd.words (k : Cmd) : Nat := match k.kind with | .gath => dCount k.desc 1 | .scat => dCount k.desc 1 | _ => 0
/-- Elements of the own scratchpad that a command reads when it starts, in flat order: first byte and length; none for other sources. -/
def Core.startElems (c : Core) (k : Cmd) : Option (List (Nat × Nat)) :=
  match k.kind with
  | .tldi t a trl spc => if spc then some ((imageOffs (tileLen (c.tcfg t)) trl).map fun o => (a.toNat + o, 32)) else none
  | .tsti .. => none
  | .stfl .. => none
  | _ => if dSsp k.desc = 1 then some (k.sources.map fun (o : Int) => (o.toNat, 2 ^ dEsz k.desc)) else none
/-- What a command reads when it starts: index words, then the first `n` elements of an own-scratchpad source, with the cause `bad` that
ends it there. A poisoned index word ends it before its first element (R142). -/
def Core.startReads (c : Core) (k : Cmd) (ixAddr n : Nat) (bad : Cause) : Cmd :=
  let ws := c.spTake ixAddr (4 * k.words)
  let spoilt := ws.any fun q => q.2
  let k := { k with
    started := true, bad := if spoilt then 0x141#10 else bad
    index := (List.range k.words).map fun i => natOf (((ws.drop (4 * i)).take 4).map Prod.fst) }
  if k.bad ≠ 0 ∧ n = 0 ∨ spoilt then { k with src := [], captured := true }
  else match c.startElems k with
    | some l => { k with src := (l.take n).flatMap fun q => c.spTake q.1 q.2, captured := true }
    | none => k

/-- Commands of an engine that have started and not completed. -/
def Core.engineLoad (c : Core) (e : Nat) : Nat := (c.cmds.filter fun k => k.started && k.eng == e).length
/-- The engine takes no further command: it holds 16, or one that a commit has released waits for room. -/
def Core.engineFull (c : Core) (e : Nat) : Bool := decide (16 ≤ c.engineLoad e) || c.cmds.any fun k => k.released && !k.started && k.eng == e
def engineOf (sl : Slot) : Nat := if sl = .c1 then 1 else 0

/-- Sectors of the own scratchpad that a command writes into a visible copy take undo entries (R220, R222). -/
def Core.undoForAll (c : Core) (sas : List Nat) : Except TrapInfo Core :=
  sas.foldl (fun (r : Except TrapInfo Core) sa => r.bind fun c => let (a, hid) := c.spHid c.arch.shadow sa; if hid then .ok c else c.undoFor (a / 32)) (.ok c)

/-- The windows that a starting command reads through are filled, and errors found, element by element: the cause that ends it, and how
many elements it has read (R131, R132, R415). -/
def State.openSources (s : State) (core : Nat) (k : Cmd) (ixAddr : Nat) : (Cause × Nat) × State :=
  let reach (s : State) (q : Nat × Nat) : Cause × State := s.stashReach core (s.mainWho core) ((s.core core).spVis q.1) q.2 true
  match (if k.words = 0 then (0, s) else reach s (ixAddr, 4 * k.words)) with
  | (c, s) =>
    if c ≠ 0 then ((c, 0), s)
    else
      let k := (s.core core).startReads k ixAddr 0 0
      (((s.core core).startElems k).getD []).foldl (fun (q : (Cause × Nat) × State) e =>
        if q.1.1 ≠ 0 then q else match reach q.2 e with | (0, s) => ((0, q.1.2 + 1), s) | (c, s) => ((c, q.1.2), s)) ((0, 0), s)
/-- What a command touches as it starts: the words of its index, then, where these are clean, the elements of its own-scratchpad source. -/
def Core.readTouches (c : Core) (k : Cmd) (ixAddr : Nat) : List Touch :=
  let at' (q : Nat × Nat) : List Touch := (sectorsOf (c.spVis q.1) q.2).map .fill ++ [.scan (c.spVis q.1) q.2]
  let k' := c.startReads k ixAddr 0 0
  (if k.words = 0 then [] else at' (ixAddr, 4 * k.words)) ++ if k'.bad ≠ 0 then [] else ((c.startElems k').getD []).flatMap at'
/-- The core whose scratchpad a command writes. -/
def Cmd.target (k : Cmd) (core : Nat) : Nat := if dDsp k.desc = 2 then dRcore k.desc else core
/-- The windows of a core as a command of it finds them: one whose bundle changed them uses those that stood before and still stand
(R423; log 106). -/
def State.windowsFor (s : State) (core : Nat) (k : Cmd) : State :=
  match k.wins with
  | none => s
  | some l => s.modCore core fun c => { c with wins := c.wins.filter fun q => l.contains q }
/-- The windows as they stood in `s0` again. -/
def State.windowsBack (s s0 : State) (core : Nat) : State := s.modCore core fun c => { c with wins := (s0.core core).wins }
/-- The mapping bits of the buffers of a command's target, its own chunk's or a switched-out one's (R134, R427). -/
def State.shadowOf (s : State) (core : Nat) (k : Cmd) : SMap Bool :=
  let t := s.core (k.target core)
  if t.chunk.any (fun x => x.ctx == s.ctxOf core) then t.arch.shadow
  else match t.resident.find? fun r => r.chunk.ctx == s.ctxOf core with | some r => r.arch.shadow | none => t.arch.shadow
/-- A command starts: it reads its index words and its own-scratchpad source, and the hidden copies that it writes are settled (R414). Its
index address stands in `index` until then. -/
def State.beginCmd (s : State) (core seq : Nat) : State :=
  match (s.core core).cmds.find? fun k => k.seq == seq with
  | none => s
  | some k =>
    let ix := k.index.headD 0
    let k := { k with index := List.replicate k.words 0 }
    let ((bad, n), t) := (s.windowsFor core k).openSources core k ix
    let s := t.windowsBack s core
    let hid := s.shadowOf core k
    s.modCore core fun c => { c with cmds := c.cmds.map fun x => if x.seq = seq then { c.startReads k ix n bad with hid } else x }

/-- A checked command enters its engine: token, undo entries, pool slot, staging buffer, release entry or start (R414, R416). A limit of
the segment that its first reads would exceed is a cause at issue (R220). -/
def State.enterCmd (s : State) (o : OpInfo) (k : Cmd) (ixAddr : Nat) (srcTile : Option Nat) (sas : List Nat) : Res := do
  let c := s.cur
  if (s.mayStall && c.engineFull k.eng) || (match srcTile with | some t => c.tileBlocked s.issue.since t false | none => false) ||
      (match k.writesTile with | some t => c.tileBlocked s.issue.since t true | none => false) then
    return s.stallNow
  let staged := k.deferred && srcTile.isSome
  raiseIf (staged && (if k.eng = 0 then c.seg.staged0 else c.seg.staged1) == 2) 0x0C5#10
  let s ← s.tokAdd k.tok 1
  let c ← s.cur.undoForAll sas
  let c ← match k.writesTile with | some t => c.cowTile t | none => .ok c
  -- what it publishes at its commit has its place in program order from here on (R218, R220)
  let post := dPv k.desc && dPcore k.desc != s.issue.core
  let c ← if k.deferred then c.release (.cmd s.seq) else if post then c.release (.late s.seq true)
    else .ok (if dHv k.desc then { c with seg := { c.seg with rel := c.seg.rel ++ [.late s.seq false] } } else c)
  let c ← match k.deferred, o.arr with | false, some (.barrier g) => c.release (.due s.seq g.toNat) | _, _ => .ok c
  let k := { k with seq := s.seq, relN := s.issue.relN, arr := if k.deferred then none else o.arr, site := (s.issue.haddr, c.seg.count) }
  let k := match srcTile, k.kind with
    | some t, .tsti _ _ trl _ => { k with src := tileImage (c.tcfg t) (c.tcfgWord t) (c.tile t) trl, captured := true }
    | some t, _ => { k with src := k.sources.flatMap fun (o : Int) => (c.tile t).take o.toNat (2 ^ dEsz k.desc), captured := true }
    | none, _ => k
  let c := if staged then (if k.eng = 0 then { c with seg := { c.seg with staged0 := c.seg.staged0 + 1 } } else { c with seg := { c.seg with staged1 := c.seg.staged1 + 1 } }) else c
  let k := { k with index := [ixAddr] }
  let s := { (s.setCore s.issue.core { c with cmds := c.cmds ++ [k] }) with seq := s.seq + 1 }
  -- a deferred command has retired once it is in the release buffer (R217, R299)
  if k.deferred then s.arriveNow o.arr
  else
    let reads := s.cur.readTouches k ixAddr
    let s' := s.beginCmd s.issue.core k.seq
    if s'.cur.cmds.any fun x => x.seq == k.seq && x.bad == 0x1C3#10 then s.endsAfter { cause := 0x1C3#10 } reads else .ok (s'.touch reads)

/-- cpy, gath, scat, cnput and cnget: checks in the order of R411, then entry. -/
def State.copyOp (s : State) (o : OpInfo) (kind : CmdKind) (d : BitVec 4) (cls : BitVec 4) (tok : BitVec 3) (u : Nat)
    (ssp dsp : List Nat) (ix : Option (BitVec 4)) : Out :=
  finish o s (if !s.guard0 o then s.arriveNow o.arr
  else do
    s.arriveCheck o.arr
    let c := s.cur
    let desc := c.rD d.toNat
    let e := 2 ^ dEsz desc
    let n := dCount desc 1
    let dt := dDsp desc
    let deferred := dt == 0 || dt == 2 || dt == 4
    let k : Cmd := { seq := 0, eng := engineOf o.slot, tok := tok.toNat, cls := cls.toNat, u, kind, desc, index := List.replicate n 0, deferred }
    raiseIf (c.descBad k ssp dsp ix.isSome) 0x0C4#10
    let ixAddr := match ix with | some r => (dWord (c.rD r.toNat) 0).toNat % 2 ^ 20 | none => 0
    let words : List Int := if ix.isSome then (List.range n).map fun i => ((ixAddr + 4 * i : Nat) : Int) else []
    c.sideCheck (isCtl s.issue.core) 1 words 4
    c.sideCheck (isCtl s.issue.core) (dSsp desc) k.sources e
    c.sideCheck (isCtl s.issue.core) dt k.dests e
    s.enterCmd o k ixAddr (if dSsp desc = 3 then some (tileOf (dSaddr desc)) else none)
      (if dt = 1 then k.dests.map Int.toNat else []))

def execCpy (o : OpInfo) (r : CopyArgs) (s : State) : Out := s.copyOp o .cpy r.d r.cls r.tok (reuse r.u) [0, 1, 3] [0, 1, 2, 3] none
def execGath (o : OpInfo) (r : IndexedCopy) (s : State) : Out := s.copyOp o .gath r.d r.cls r.tok (reuse r.u) [0] [0, 1, 3] (some r.ix)
def execScat (o : OpInfo) (r : IndexedCopy) (s : State) : Out := s.copyOp o .scat r.d r.cls r.tok (reuse r.u) [0, 1, 3] [0] (some r.ix)
def execCnput (o : OpInfo) (r : NetCopy) (s : State) : Out := s.copyOp o .cnput r.d r.cls r.tok 2 [0, 1, 3] [4] none
def execCnget (o : OpInfo) (r : NetCopy) (s : State) : Out := s.copyOp o .cnget r.d r.cls r.tok 2 [4] [0, 1] none

/-! Tile images (R420). -/

/-- Checks on the image address: alignment, then the bounds of the scratchpad pieces that are accessed (R131). -/
def State.imageCheck (s : State) (a : Word) (spc : Bool) (offs : List Nat) : Except TrapInfo Unit := do
  raiseAt (a.toNat % 64 != 0) 0x082#10 (if spc then 0 else a.toNat)
  if spc then offs.foldl (fun (r : Except TrapInfo Unit) o => r.bind fun _ => s.spCheck (a.toNat + o)) (.ok ()) else .ok ()
def execTldi (o : OpInfo) (r : TileLoad) (s : State) : Out :=
  finish o s (if !s.guard0 o then s.arriveNow o.arr
  else do
    s.arriveCheck o.arr
    let a := dWord (s.cur.rD r.base.toNat) 0 + imm64 r.disp
    let offs := imageOffs (tileLen (s.cur.tcfg r.t.toNat)) (r.trl == 1)
    s.imageCheck a (r.spc == 1) offs
    s.enterCmd o { seq := 0, eng := engineOf o.slot, tok := r.tok.toNat, cls := r.cls.toNat, u := reuse r.u, kind := .tldi r.t.toNat a (r.trl == 1) (r.spc == 1), desc := 0, deferred := false } 0 none [])
def execTsti (o : OpInfo) (r : TileStore) (s : State) : Out :=
  finish o s (if !s.guard0 o then s.arriveNow o.arr
  else do
    s.arriveCheck o.arr
    let a := dWord (s.cur.rD r.base.toNat) 0 + imm64 r.disp
    let n := if r.trl = 1 then 32768 else 16384
    s.imageCheck a (r.spc == 1) ((List.range (n / 32)).map (32 * ·))
    s.enterCmd o { seq := 0, eng := engineOf o.slot, tok := r.tok.toNat, cls := r.cls.toNat, u := 2, kind := .tsti r.t.toNat a (r.trl == 1) (r.spc == 1), desc := 0, deferred := r.spc == 0 } 0
      (some r.t.toNat) (if r.spc = 1 then (List.range (n / 32)).map fun i => a.toNat + 32 * i else []))

/-! Completion (R415, R416, R427). -/

/-- Bytes by place: a run at each address, adjacent runs joined so that a sector written whole is seen as one (R142). -/
def joinRuns (l : List (Nat × Nat × List (Byte × Bool))) : List (Nat × Nat × List (Byte × Bool)) :=
  (l.foldl (fun acc r => match acc with
    | (a, k, b) :: t => if a + b.length = r.1 ∧ k = r.2.1 then (a, k, b ++ r.2.2) :: t else r :: (a, k, b) :: t
    | [] => [r]) []).reverse

/-- A run of bytes written to global memory: poison moves with it; the cause when a link fails or isolation discards it (R43, R45). -/
def State.engineStore (s : State) (g : Agent) (r : Nat × Nat × List (Byte × Bool)) : Cause × State :=
  let b := r.2.2.map Prod.fst
  let (c, s) := s.performWrite g r.1 (2 ^ b.length - 1) b r.2.1
  if c ≠ 0 then (c, s)
  else (0, { s with poison := (r.2.2.zip (List.range b.length)).foldl (fun m q => if q.1.2 then m.ins ((r.1 + q.2) / 32) () else m) s.poison })

/-- A run written to a scratchpad by an engine, sector by sector: hidden copies first, under the mapping bits `m` (R134, R142, R415). -/
def Core.engineWrite (c : Core) (m : SMap Bool) (sa : Nat) (b : List (Byte × Bool)) : Core :=
  (sectorsOf sa b.length).foldl (fun c k =>
    let lo := max (k * 32) sa
    let hi := min (k * 32 + 32) (sa + b.length)
    let part := (b.drop (lo - sa)).take (hi - lo)
    let (a, hid) := c.spHid m lo
    let c := { c with sp := writeMap c.sp a (part.map Prod.fst) }
    let c := c.spWrote (a / 32) (part.length == 32) (part.any Prod.snd)
    if hid then c else c.stashMark (a / 32) ((2 ^ part.length - 1) * 2 ^ (a % 32))) c
/-- A global write that a stash window of the core serves: bytes at a scratchpad address, marked written. The command has been released,
so they stand in what the undo log keeps too (R132, R133, R222). -/
def Core.windowWrite (c : Core) (sa : Nat) (b : List (Byte × Bool)) : Core :=
  (sectorsOf sa b.length).foldl (fun c k =>
    let lo := max (k * 32) sa
    let part := (b.drop (lo - sa)).take (min (k * 32 + 32) (sa + b.length) - lo)
    let mask := (2 ^ part.length - 1) * 2 ^ (lo % 32)
    let c := { c with sp := writeMap c.sp lo (part.map Prod.fst) }
    let c := (c.spWrote k (part.length == 32) (part.any Prod.snd)).stashMark k mask
    { c with seg := { c.seg with undo := c.seg.undo.map fun u =>
        if u.sector ≠ k then u
        else { u with
          bytes := setBits u.bytes (8 * (lo % 32)) (8 * part.length) (natOf (part.map Prod.fst))
          poison := u.poison || part.any Prod.snd
          stash := u.stash.map fun t => { t with mask := t.mask ||| BitVec.ofNat 32 mask } } } }) c
/-- Runs at or above this address stand for scratchpad bytes that a window serves. -/
def windowRun : Nat := 2 ^ 52

/-- A run written to a tile by an engine: roles invalid, poison and the address recorded with it (R246, R251, R416). -/
def Tile.engineWrite (t : Tile) (off : Nat) (b : List (Byte × Bool)) (va : Option Nat) : Tile :=
  let t := t.fresh (putBytes t.bytes off (b.map Prod.fst))
  (sectorsOf off b.length).foldl (fun t k =>
    let lo := max (k * 32) off
    let hi := min (k * 32 + 32) (off + b.length)
    if ((b.drop (lo - off)).take (hi - lo)).any Prod.snd then
      { t with poison := t.poison ||| BitVec.ofNat 512 (2 ^ k), paddr := match va with | some v => t.paddr.put 0 k (BitVec.ofNat 64 (v + (lo - off))) | none => t.paddr.del k }
    else if hi - lo = 32 then t.wrote (32 * k) 32 else t) t

/-- Pieces that elements of a command have written whole from clean data are clean, though no one element covers them (R142, R251). -/
def Tile.wroteRuns (t : Tile) (runs : List (Nat × List (Byte × Bool))) : Tile :=
  let hit := runs.foldl (fun (m : Nat) r => m ||| (2 ^ r.2.length - 1) * 2 ^ r.1) 0
  let bad := runs.foldl (fun (m : BitVec 512) r => if r.2.any Prod.snd then m ||| pieceMask r.1 r.2.length else m) 0
  (runs.flatMap fun r => sectorsOf r.1 r.2.length).eraseDups.foldl (fun t k =>
    if bits hit (32 * k) 32 = 2 ^ 32 - 1 ∧ !bad.getLsbD k then t.wrote (32 * k) 32 else t) t

/-- Who an engine's global accesses come from: the home slice recalls every stash, the issuer's own too (log 28). -/
def engineAgent (core ctx : Nat) : Agent := { agentOf core ctx with id := 1000 }
/-- The page of the last element of a stream: virtual page, frame and key slot. -/
abbrev PageMemo := Option (Nat × Nat × Nat)
/-- The pieces of an element. An indexed stream translates once for each run of elements in one 64 KiB page (R130). -/
def State.engineXlate (s : State) (core : Nat) (acc : AccKind) (stream : Bool) (m : PageMemo) (va n : Nat) : (Except TrapInfo (List Piece) × PageMemo) × State :=
  match (match m with | some (v, f, k) => if stream && va / 65536 == v && (va + n - 1) / 65536 == v then some (f, k) else none | none => none) with
  | some (f, k) => ((.ok (cutPieces va (f * 65536 + va % 65536) n 0 k), m), s)
  | none => match s.xlate (s.mainWho core) acc va n with
    | (.error t, s) => ((.error t, none), s)
    | (.ok ps, s) => ((.ok ps, match ps with | p :: _ => if va / 65536 = (va + n - 1) / 65536 then some (va / 65536, p.pa / 65536, p.key) else none | [] => none), s)

/-- A global source element: bytes with poison, and the cause that ends the command there (R45, R128, R142). -/
def State.engineLoadEl (s : State) (core u : Nat) (stream : Bool) (m : PageMemo) (va n : Nat) : (Cause × Option (List (Byte × Bool)) × PageMemo) × State :=
  match s.engineXlate core .load stream m va n with
  | ((.error t, m), s) => ((t.cause, none, m), s)
  | ((.ok ps, m), s) =>
    ps.foldl (fun (q : (Cause × Option (List (Byte × Bool)) × PageMemo) × State) p =>
      match q with
      | ((c, some b, m), s) =>
        if c ≠ 0 ∧ c ≠ 0x241#10 then ((c, some b, m), s)
        else match (s.core core).winOfVa p.va with
        | some (_, w) =>
          -- an enabled window serves it from the scratchpad (R132)
          let sa := w.spbase + (p.va - w.gva.toNat)
          (match s.stashFill core (s.mainWho core) (sa / 32) w with
          | (.error t, s) => ((t.cause, none, m), s)
          | (.ok false, s) =>
            let link := s.linkCause p.pa
            if link ≠ 0 then ((link, none, m), s)
            else
              let ((c2, bs), s) := s.fetchData (engineAgent core (s.ctxOf core)) p.pa p.n p.key u
              ((if c2 = 0x240#10 then c2 else c, some (b ++ bs.map fun x => (x, c2 != 0)), m), s)
          | (.ok true, s) =>
            let s := s.spScan core sa p.n
            let q := s.core core
            let bad := q.spPoison.has (sa / 32)
            let iso := bad && (q.stash.get? (sa / 32)).any fun t => t.iso
            ((if iso then 0x241#10 else c, some (b ++ (readMap q.sp sa p.n).map fun x => (x, bad)), m), s))
        | none =>
          let link := s.linkCause p.pa
          if link ≠ 0 then ((link, none, m), s)
          else
            let ((c2, bs), s) := s.fetchData (engineAgent core (s.ctxOf core)) p.pa p.n p.key u
            let c := if c2 = 0x241#10 then c2 else c
            ((c, some (b ++ bs.map fun x => (x, c2 != 0)), m), s)
      | q => q) ((0, some [], m), s)

/-- The remote scratchpad of RCORE: running or parked (true), switched out (false), or no chunk of the context (R427). -/
def State.remoteHeld (s : State) (ctx target : Nat) : Option Bool :=
  let c := s.core target
  if (match c.chunk with | some k => k.ctx == ctx | none => false) then some true
  else if c.resident.any (fun r => r.chunk.ctx == ctx) then some false else none

/-- The destination of an element, translated: place and key slot, or the cause (R128, R427). -/
def State.engineDest (s : State) (core : Nat) (k : Cmd) (space : Nat) (stream : Bool) (m : PageMemo) (at_ : Int) (n : Nat) :
    (Except Cause (List (Nat × Nat × Nat)) × PageMemo) × State :=
  match space with
  | 0 =>
    match s.engineXlate core .store stream m (wrapI 64 at_) n with
    | ((.error t, m), s) => ((.error t.cause, m), s)
    | ((.ok ps, m), s) =>
      -- what an enabled window covers goes to the scratchpad, but for a host page (R132)
      let (r, s) := ps.foldl (fun (q : Except Cause (List (Nat × Nat × Nat)) × State) p =>
        match q with
        | (.error c, s) => (.error c, s)
        | (.ok l, s) =>
          let plain (s : State) : Except Cause (List (Nat × Nat × Nat)) × State :=
            if s.linkCause p.pa ≠ 0 then (.error (s.linkCause p.pa), s) else (.ok (l ++ [(p.pa, p.key, p.n)]), s)
          match (s.core core).winOfVa p.va with
          | none => plain s
          | some (_, w) =>
            let sa := w.spbase + (p.va - w.gva.toNat)
            match s.stashFill core (s.mainWho core) (sa / 32) w with
            | (.error t, s) => (.error t.cause, s)
            | (.ok false, s) => plain s
            | (.ok true, s) => (.ok (l ++ [(windowRun + sa, 0, p.n)]), s)) (.ok [], s)
      ((r, m), s)
  | 2 =>
    let t := s.core (dRcore k.desc)
    match s.remoteHeld (s.ctxOf core) (dRcore k.desc) with
    | none => ((.error 0x0C6#10, m), s)
    | some here =>
      let mask : Half := if here then t.kernel.bmask else match t.resident.find? fun r => r.chunk.ctx == s.ctxOf core with | some r => r.kernel.bmask | none => 0
      if at_ < 0 ∨ (2 ^ 20 : Int) ≤ at_ + n - 1 then ((.error 0x086#10, m), s)
      else if !mask.getLsbD (at_.toNat / 65536) || !mask.getLsbD ((at_.toNat + n - 1) / 65536) then ((.error 0x087#10, m), s)
      else ((.ok [(at_.toNat, 0, n)], m), s)
  | _ => ((.ok [(at_.toNat, 0, n)], m), s)

/-- What a command has gathered: the cause that ends it, runs for its destination, virtual addresses of the sources, the pages of its
two streams. -/
structure Gathered where
  cause : Cause := 0
  runs : List (Nat × Nat × List (Byte × Bool)) := []
  vas : List Nat := []
  src : PageMemo := none
  dst : PageMemo := none
/-- Elements up to the first that fails, with the cause: an element that 0x241 ends is written as poison, then nothing more. -/
def State.gather (s : State) (core : Nat) (k : Cmd) (srcs dests : List Int) (ssp dsp n : Nat) : Gathered × State :=
  let gath : Bool := match k.kind with | .gath => true | _ => false
  let scat : Bool := match k.kind with | .scat => true | _ => false
  ((srcs.zip dests).zip (List.range srcs.length)).foldl (fun q e =>
    let (g, s) := q
    if g.cause ≠ 0 then (g, s)
    else
      let ((c, b, m), s) := if k.captured then
          (if k.bad ≠ 0 ∧ k.src.length < (e.2 + 1) * n then ((k.bad, none, g.src), s) else ((0, some ((k.src.drop (e.2 * n)).take n), g.src), s))
        else if ssp = 0 then s.engineLoadEl core k.u gath g.src (wrapI 64 e.1.1) n
        else ((0, some [], g.src), s)
      let g := { g with cause := c, src := m }
      match b with
      | none => (g, s)
      | some b =>
        match s.engineDest core k dsp scat g.dst e.1.2 n with
        | ((.error c2, m), s) => ({ g with cause := if c = 0 then c2 else c, dst := m }, s)
        | ((.ok ds, m), s) =>
          let (l, _) := ds.foldl (fun (a : List (Nat × Nat × List (Byte × Bool)) × List (Byte × Bool)) d =>
            (a.1 ++ [(d.1, d.2.1, a.2.take d.2.2)], a.2.drop d.2.2)) ([], b)
          ({ g with runs := g.runs ++ l, vas := g.vas ++ [wrapI 64 e.1.1], dst := m }, s)) ({}, s)

/-- A run written into the scratchpad of a core, under the mapping bits `m`, sector by sector: a visible sector of a window is filled first
(R132). The cause that ends it, and how many bytes have been written before it (R415). -/
def State.engineSp (s : State) (core : Nat) (m : SMap Bool) (r : Nat × Nat × List (Byte × Bool)) : (Cause × Nat) × State :=
  (sectorsOf r.1 r.2.2.length).foldl (fun (q : (Cause × Nat) × State) k =>
    let ((c, n), s) := q
    if c ≠ 0 then q
    else
      let lo := max (k * 32) r.1
      let part := (r.2.2.drop (lo - r.1)).take (min (k * 32 + 32) (r.1 + r.2.2.length) - lo)
      let (a, hid) := (s.core core).spHid m lo
      let (c, s) := if hid then (0, s) else s.stashReach core (s.mainWho core) a 1 false
      if c ≠ 0 then ((c, n), s) else ((0, n + part.length), s.modCore core fun c => c.engineWrite m lo part)) ((0, 0), s)
/-- Runs one after the other until one fails: the cause, and how many bytes have been written before it. -/
def untilCause {α : Type} (l : List α) (f : State → α → (Cause × Nat) × State) (s : State) : (Cause × Nat) × State :=
  l.foldl (fun (q : (Cause × Nat) × State) r =>
    if q.1.1 ≠ 0 then q else let ((c, n), s) := f q.2 r; ((c, q.1.2 + n), s)) ((0, 0), s)
/-- Runs written at their destination (R415 step 1), the cause that ends them, and the bytes written. -/
def State.scatterRuns (s : State) (core : Nat) (k : Cmd) (dsp : Nat) (runs : List (Nat × Nat × List (Byte × Bool))) (vas : List Nat) :
    (Cause × Nat) × State :=
  match dsp with
  | 0 => untilCause (joinRuns runs) (fun s r =>
      let n := r.2.2.length
      if windowRun ≤ r.1 then ((0, n), s.modCore core fun c => c.windowWrite (r.1 - windowRun) r.2.2)
      else if s.hostLate core r.1 then ((0x240#10, 0), s.hostOver core)
      else let (c, s) := s.engineStore (engineAgent core (s.ctxOf core)) r; ((c, if c = 0 then n else 0), s)) s
  | 1 => untilCause (joinRuns runs) (fun s r => s.engineSp core k.hid r) s
  | 2 => untilCause (joinRuns runs) (fun s r => s.engineSp (dRcore k.desc) k.hid r) s
  | _ =>
    let tn := tileOf (dDaddr k.desc)
    let global := dSsp k.desc == 0
    ((0, runs.foldl (fun t r => t + r.2.2.length) 0), s.modCore core fun c => { c with tiles := c.tiles.ins tn ((((runs.zip (List.range runs.length)).foldl (fun t r =>
      t.engineWrite r.1.1 r.1.2.2 (if global then vas[r.2]? else none)) ((c.tile tn).fresh (c.tile tn).bytes))).wroteRuns (runs.map fun r => (r.1, r.2.2))) })

/-- The elements write bytes [0, n) exactly once. -/
def wholeOnce (l : List Int) (e n : Nat) : Bool :=
  l.length * e == n && (List.range l.length).all fun i => l.contains ((i * e : Nat) : Int)

/-- Queue an arrival event at a core; none when the queue is full (R427). -/
def State.queueEvent (s : State) (from' : Nat) (e : Nat × Nat × Nat × Nat) : Option State :=
  let c := s.core e.1
  if 16 ≤ c.svc.queue.length then none
  else some (s.setCore e.1 { c with svc := { c.svc with queue := c.svc.queue ++ [⟨BitVec.ofNat 4 e.2.1, BitVec.ofNat 64 e.2.2.1, BitVec.ofNat 64 e.2.2.2, BitVec.ofNat 64 from'⟩] } })
/-- An arrival event at a core that has switched the chunk out stays with the chunk (R435). -/
def State.eventFor (s : State) (core ctx : Nat) (e : Nat × Nat × Nat × Nat) (tok : Nat) (released : Bool) : State :=
  let out := e.1 != core && s.remoteHeld ctx e.1 == some false
  let full := match (s.core e.1).resident.find? fun r => r.chunk.ctx == ctx with | some r => decide (16 ≤ r.sq.length) | none => true
  let q := if !out then s.queueEvent core e
    else if full then none
    else some (s.modCore e.1 fun c => c.modResident ctx fun r =>
      { r with sq := r.sq ++ [⟨BitVec.ofNat 4 e.2.1, BitVec.ofNat 64 e.2.2.1, BitVec.ofNat 64 e.2.2.2, BitVec.ofNat 64 core⟩] })
  match q with
  | some s => s
  | none =>
    let mark (a : Arch) : Arch := let k := a.tokOf tok; a.setTok tok { k with cause := if k.cause = 0 then 0x103#10 else k.cause }
    s.modCore core fun c =>
      let c := { c with arch := mark c.arch }
      if released then { c with seg := { c.seg with ck := mark c.seg.ck } } else c

/-- The FENCE kinds of what a command reads and of what it writes: scratchpad reads and writes, memory, tiles (R185). -/
def Cmd.readKinds (k : Cmd) : List Nat :=
  match k.kind with
  | .tldi _ _ _ spc => [if spc then 0 else 2]
  | .tsti .. => [3]
  | .stfl .. => [0]
  | _ => match dSsp k.desc with | 0 => [2] | 1 => [0] | 3 => [3] | _ => [2]
def Cmd.writeKinds (k : Cmd) : List Nat :=
  match k.kind with
  | .tldi .. => [3]
  | .tsti _ _ _ spc => [if spc then 1 else 2]
  | .stfl .. => [2]
  | _ => match dDsp k.desc with | 0 => [2] | 3 => [3] | 4 => [2] | _ => [1]
/-- Writes that a FENCE does not wait for: into a scratchpad outside its cluster or die, and a CNPUT at less than system scope (R185). -/
def Cmd.beyond (k : Cmd) (core scope : Nat) : Bool :=
  match k.kind with
  | .cnput => scope != 4
  | .cpy => dDsp k.desc == 2 && ((scope == 1 && dRcore k.desc / 4 != core / 4) || (scope == 2 && dRcore k.desc / 64 != core / 64))
  | _ => false
/-- A FENCE among released operations covers a kind and class (R185, R186). -/
def fenceCovers (kinds cls kind c : Nat) : Bool := kinds.testBit kind && cls.testBit c
/-- A command has a part that a FENCE covers and that is still to be performed; the sources of a sent CNPUT have been read. -/
def Cmd.coveredBy (k : Cmd) (core kinds scope cls : Nat) : Bool :=
  ((if k.sent then [] else k.readKinds) ++ if k.beyond core scope then [] else k.writeKinds).any fun i => fenceCovers kinds cls i k.cls
/-- The scope of a mark that stands in the release buffer: system, or package (Rel.mark keeps it in bit 5 of its kinds). -/
def markScope (kinds : Nat) : Nat := if kinds.testBit 5 then 4 else 3
/-- Class and fence kind of a memory or update entry. -/
def Rel.kind : Rel → Option (Nat × Nat)
  | .store _ _ c _ _ => some (2, c)
  | .vamo _ _ c _ _ _ _ => some (2, c)
  | .pair _ _ _ c _ => some (4, c)
  | _ => none
/-- A mark orders nothing once no covered entry or command of its core stands before it. -/
def State.pruneMarks (s : State) : List Flight → List Flight → List Flight
  | _, [] => []
  | seen, f :: r =>
    match f.rel with
    | .mark ks m =>
      if seen.any (fun g => g.core == f.core && (match g.rel.kind with | some (k, c) => fenceCovers ks m k c | none => false)) ||
          (s.core f.core).cmds.any (fun k => k.released && decide (k.seq < f.seq) && k.coveredBy f.core ks (markScope ks) m)
      then f :: s.pruneMarks (seen ++ [f]) r else s.pruneMarks seen r
    | _ => f :: s.pruneMarks (seen ++ [f]) r
def State.prune (s : State) : State := { s with flight := s.pruneMarks [] s.flight }
/-- The end of a command: own-flag post, token, then what waits for the commit (R415 steps 2 and 3, R417). A publish has the command's
place among the operations of its core (R183). -/
def State.endCmd (s : State) (core : Nat) (k : Cmd) (cause : Cause) (first bytes : Nat) : State :=
  let d := k.desc
  let ok := cause == 0
  let s := s.modCore core fun c => { c with cmds := c.cmds.filter (·.seq != k.seq) }
  let own := ok && dPv d && dPcore d == core && (match k.kind with | .cnput => false | _ => true)
  let s := if own then s.modCore core fun c => if k.released then c.flagForeign (dPf d) 1 else c.flagOwn (dPf d) 1 else s
  let s := s.modCore core fun c => c.tokDone k.tok cause k.released
  let post : Option (Nat × Nat) := if ok && dPv d && dPcore d != core && (match k.kind with | .cnput => false | _ => true) then some (dPcore d, dPf d) else none
  let event : Option (Nat × Nat × Nat × Nat) := if ok && dHv d then some (if dDsp d = 2 then dRcore d else core, dHn d, first, bytes) else none
  let s := if k.released then
      let s := match post with
        | some p => { s with flight := s.flight ++ [⟨k.seq, core, s.ctxOf core, .post p.1 p.2 1, s.tmr⟩] }
        | none => s
      match event with
      | some e => { s with flight := s.flight ++ [⟨k.seq, core, s.ctxOf core, .event e.1 e.2.1 e.2.2.1 e.2.2.2 k.tok, s.tmr⟩] }
      | none => s
    else if post.isNone && event.isNone then s
    else s.modCore core fun c => { c with seg := { c.seg with later := c.seg.later ++ [⟨k.seq, post, event, k.tok⟩] } }
  (s.arriveLate core k.arr k.seq k.relN 0).prune

/-- A sector with written bytes and no fill yet gets its place: the cause when its page does not translate (R128, R133). -/
def State.stashPlace (s : State) (core k : Nat) : Cause × State :=
  match (s.core core).stash.get? k, (s.core core).winOfSp (k * 32) with
  | some t, some (_, w) =>
    if t.pa.isSome then (0, s)
    else match s.stashFill core (s.mainWho core) k w with
      | (.error e, s) => (e.cause, s)
      | (.ok _, s) => (0, s)
  | _, _ => (0, s)
/-- Written bytes of a stash sector go back as of the last commit; with `inv` the sector becomes invalid (R133, R424). Where its page does
not translate, or its link is down, it stays as it is and the cause says so (R43, R128). -/
def State.flushSector (s : State) (core k : Nat) (inv : Bool) : Cause × State :=
  let (c0, s) := s.stashPlace core k
  match (s.core core).stash.get? k with
  | none => (c0, s)
  | some t => match t.pa with
    | none => (c0, s)
    | some p =>
      let s := s.spScan core (k * 32) 32
      let (r, c) := (s.core core).answerRecall k t
      let link := if r.1 = 0 then 0 else s.linkCause (p * 32)
      if link ≠ 0 then (link, s)
      else
        let s := (s.setCore core c).stashPut core (p * 32) t.key r
        (c0, if inv then s.modCore core fun c =>
          { c with
            stash := match c.stash.get? k with
              | some e => if e.mask = 0 then c.stash.del k else c.stash.ins k { e with full := false }
              | none => c.stash
            seg := { c.seg with undo := c.seg.undo.map fun u => if u.sector = k then { u with stash := none } else u } }
        else s)
/-- The stash sectors of a window. -/
def Core.sectorsIn (c : Core) (w : Window) : List Nat :=
  (c.stash.filter fun e => decide (w.spbase ≤ e.1 * 32 ∧ e.1 * 32 < w.spbase + 64 * w.size)).map Prod.fst
/-- Every stash sector of a window, whatever becomes of each; the first cause that keeps one from going back, with its address. -/
def State.flushWindow (s : State) (core : Nat) (w : Window) (inv : Bool) : (Cause × Nat) × State :=
  ((s.core core).sectorsIn w).foldl (fun q k =>
    let (c, s) := q.2.flushSector core k inv
    (if q.1.1 ≠ 0 then q.1 else (c, w.gva.toNat + (k * 32 - w.spbase)), s)) ((0, 0), s)
/-- The written sectors of windows go back until one fails: the cause, and the bytes written back (R415, R424). -/
def State.flushWins (s : State) (core : Nat) (wins : List Nat) (inv : Bool) : (Cause × Nat) × State :=
  untilCause wins (fun s i => match (s.core core).wins.get? i with
    | some w => if w.en then untilCause ((s.core core).sectorsIn w) (fun s k =>
        let n := match (s.core core).stash.get? k with | some t => if t.mask = 0 then 0 else 32 | none => 0
        let (c, s) := s.flushSector core k inv
        ((c, if c = 0 then n else 0), s)) s else ((0, 0), s)
    | none => ((0, 0), s)) s

/-! A command whose own access finds the loss of a dirty line of its context (R146, R463). -/

/-- The global addresses that a command reads, as runs of bytes. -/
def Core.globalReads (c : Core) (k : Cmd) : List (Nat × Nat) :=
  match k.kind with
  | .tldi t a trl spc => if spc then [] else (imageOffs (tileLen (c.tcfg t)) trl).map fun o => ((a.toNat + o) % 2 ^ 64, 32)
  | .tsti _ _ _ _ => []
  | .stfl _ _ => []
  | _ => if dSsp k.desc = 0 then k.sources.map fun o => (wrapI 64 o, 2 ^ dEsz k.desc) else []
/-- The global addresses of a command. -/
def State.globalsOf (s : State) (core : Nat) (k : Cmd) : List (Nat × Nat) :=
  let c := s.core core
  let n := 2 ^ dEsz k.desc
  c.globalReads k ++ match k.kind with
  | .tldi _ _ _ _ => []
  | .tsti _ a trl spc => if spc then [] else (List.range (if trl then 1024 else 512)).map fun i => ((a.toNat + 32 * i) % 2 ^ 64, 32)
  | .stfl wins _ => wins.flatMap fun i => match c.wins.get? i with
    | some w => (c.sectorsIn w).map fun q => (w.gva.toNat + (q * 32 - w.spbase), 32)
    | none => []
  | _ => if dDsp k.desc = 0 then k.dests.map fun o => (wrapI 64 o, n) else []
/-- Such a loss since the state `s0`, at the line's virtual address among those of the command, 0 where it is none of them. -/
def State.lossOfCmd (s s0 : State) (core : Nat) (k : Cmd) : Option TrapInfo :=
  match (s.stopq.drop s0.stopq.length).find? fun q => q.1 == s.ctxOf core with
  | none => none
  | some q => some (((s.globalsOf core k).findSome? fun g => match (s.xlate (s.mainWho core) .load g.1 g.2).1 with
    | .ok ps => (ps.find? fun p => p.pa / 64 == q.2).map fun p => lossAt p.va
    | .error _ => none).getD (lossAt 0))
/-- The end of a command that has worked since the state `s0`: one that has found such a loss is never answered, and its core stops. -/
def State.endOr (s s0 : State) (core : Nat) (k : Cmd) (cause : Cause) (first bytes : Nat) : State :=
  match s.lossOfCmd s0 core k with
  | none => s.endCmd core k cause first bytes
  | some t =>
    let s := s.modCore core fun c => { c with cmds := c.cmds.filter (·.seq != k.seq) }
    if (s.core core).run = .running ∨ (s.core core).run = .rolling then s.park core { t with site := some k.site } 0 5 else s

/-- A role of a tile image, taken when its trailer fits the tile (R420). -/
def roleFrom (img : List Byte) (v : Word32) (bRole : Bool) : SideCar :=
  let at_ (o n : Nat) : Nat := natOf ((img.drop o).take n)
  let key := at_ (if bRole then 0x4006 else 0x4005) 1
  let ok := bits (at_ 0x4004 1) (if bRole then 1 else 0) 1 == 1 && at_ 0x4000 2 == bits v.toNat 0 16 && key % 16 == tcfgFmt v
  if !ok then {}
  else
    { valid := true, fmt := BitVec.ofNat 4 key, ww := bits key 4 1 == 1
      spares := BitVec.ofNat 1024 (if tcfgFmt v = 6 then at_ (if bRole then 0x4090 else 0x4010) 128 else 0)
      e := BitVec.ofNat 2048 (at_ (if bRole then 0x5290 else 0x4110) 256)
      flags := BitVec.ofNat 1024 (at_ (if bRole then 0x5390 else 0x4210) 128)
      sq := BitVec.ofNat 32768 (at_ (if bRole then 0x5410 else 0x4290) (if bRole then 1024 else 4096)) }

/-- A linear transfer of an image by 32-byte pieces (R420). -/
def imageCmd (n : Nat) (toTile spc : Bool) (a : Word) : List Int × List Int × Nat × Nat :=
  let offs := (List.range ((n + 31) / 32)).map fun i => ((32 * i : Nat) : Int)
  let mem := offs.map fun o => (a.toNat : Int) + o
  let space := if spc then 1 else 0
  if toTile then (mem, offs, space, 3) else (offs, mem, 3, space)

/-- What a command gathers: a tile image is moved by 32-byte pieces, the tile's own place being space 3 (R415, R420). -/
def State.gatherFor (s : State) (core : Nat) (k : Cmd) : Gathered × State :=
  match k.kind with
  | .tldi t a trl spc =>
    let offs := imageOffs (tileLen ((s.core core).tcfg t)) trl
    s.gather core k (offs.map fun (o : Nat) => (a.toNat : Int) + (o : Int)) (offs.map fun (o : Nat) => (o : Int)) (if spc then 1 else 0) 3 32
  | .tsti _ a trl spc =>
    let (srcs, dests, ssp, dsp) := imageCmd (if trl then 32768 else 16384) false spc a
    s.gather core k srcs dests ssp dsp 32
  | .cnput => s.gather core k k.sources (k.dests.map fun (o : Int) => ((wrapI 64 o : Nat) : Int)) (dSsp k.desc) 4 (2 ^ dEsz k.desc)
  | _ => s.gather core k k.sources k.dests (dSsp k.desc) (dDsp k.desc) (2 ^ dEsz k.desc)
/-- A command that has started completes (R415, R416). -/
def State.copyDone (s0 : State) (core : Nat) (k : Cmd) : State :=
  let s := s0.windowsFor core k
  let ended (s : State) (c : Cause) (first bytes : Nat) : State := (s.windowsBack s0 core).endOr s0 core k c first bytes
  match k.kind with
    | .stfl wins inv =>
      -- the first sector that fails ends it (R415, R424)
      let ((c, _), s) := s.flushWins core wins inv
      ended s c 0 0
    | .tldi t _ trl spc =>
      let v := (s.core core).tcfg t
      let n := tileLen v
      let (g, s) := s.gatherFor core k
      let img := g.runs.flatMap fun r => r.2.2
      let elems := (img.take ((n + 31) / 32 * 32)).take n
      let s := s.modCore core fun q =>
        let old := q.tile t
        let t1 := (List.range ((elems.length + 31) / 32)).foldl (fun x i =>
          x.engineWrite (32 * i) ((elems.drop (32 * i)).take 32) (if spc then none else g.vas[i]?)) (old.fresh old.bytes)
        let bs := List.replicate 16384 0 ++ (img.drop ((n + 31) / 32 * 32)).map Prod.fst
        let t1 := if g.cause = 0 ∧ trl then { t1 with a := roleFrom bs v false, b := roleFrom bs v true } else t1
        { q with tiles := q.tiles.ins t t1 }
      ended s g.cause 0 n
    | .tsti _ a trl spc =>
      let n := if trl then 32768 else 16384
      let (g, s) := s.gatherFor core k
      let ((c, _), s) := s.scatterRuns core k (if spc then 1 else 0) g.runs g.vas
      ended s (if c ≠ 0 then c else g.cause) a.toNat n
    | .cnput => s0
    | .cnget => s0
    | _ =>
      let d := k.desc
      let n := 2 ^ dEsz d
      let dests := k.dests
      let (g, s) := s.gatherFor core k
      let ((c, _), s) := s.scatterRuns core k (dDsp d) g.runs g.vas
      let c := if c ≠ 0 then c else g.cause
      let tn := tileOf (dDaddr d)
      let s := s.modCore core fun q =>
        let v := q.tcfg tn
        if dDsp d == 3 && (match k.kind with | .cpy => true | _ => false) && dCv d && c == 0 && tileOff (dDaddr d) == 0 && tcfgFmt v != 6 && wholeOnce dests n (tileLen v) then
          let x := q.tile tn
          { q with tiles := q.tiles.ins tn { x with a := computeRole v x.bytes false false 0, b := computeRole v x.bytes false true 0 } }
        else q
      ended s c (match dests with | o :: _ => o.toNat | [] => 0) (n * dests.length)

/-- Bytes that a command moves (R84). -/
def Core.moveSize (c : Core) (k : Cmd) : Nat :=
  match k.kind with
  | .stfl wins _ => 32 * (c.stash.filter fun (e : Nat × StashSector) => e.2.mask != 0#32 && wins.any fun i => match c.wins.get? i with
      | some w => w.en && decide (w.spbase ≤ e.1 * 32 ∧ e.1 * 32 < w.spbase + 64 * w.size)
      | none => false).length
  | .tldi t _ trl _ => tileLen (c.tcfg t) + if trl then 16384 else 0
  | .tsti _ _ trl _ => if trl then 32768 else 16384
  | _ => 2 ^ dEsz k.desc * k.dests.length
/-- A command of an OFT class completes when the destination answers, not here. -/
def Cmd.isNet (k : Cmd) : Bool := match k.kind with | .cnput => true | .cnget => true | _ => false
/-- An earlier released store or VAMO of the class, or a FENCE mark with something still before it, keeps a global write back (R178, R186). -/
def State.heldByFlight (s : State) (core : Nat) (k : Cmd) : Bool :=
  s.flight.any fun f => f.core == core && decide (f.seq < k.seq) && (match f.rel with
    | .store _ _ c _ _ => c == k.cls
    | .vamo _ _ c _ _ _ _ => c == k.cls
    | .mark kinds m => (k.readKinds ++ k.writeKinds).any fun i => fenceCovers kinds m i k.cls
    | _ => false)
/-- A store or VAMO of the core released before a command and still on its way writes bytes that the command reads: for the engines it is
performed at commit (R192 note 1). -/
def State.readsFlight (s : State) (core : Nat) (k : Cmd) : Bool :=
  let w := s.flight.filter fun f => f.core == core && decide (f.seq < k.seq) && (match f.rel with | .store _ _ _ _ _ => true | .vamo _ _ _ _ _ _ _ => true | _ => false)
  !w.isEmpty && ((s.core core).globalReads k).any fun g => match (s.xlate (s.mainWho core) .load g.1 g.2).1 with
    | .ok ps => ({ s with flight := w } : State).meetsFlight core true ps
    | .error _ => false
def Cmd.isPut (k : Cmd) : Bool := match k.kind with | .cnput => true | _ => false
/-- An earlier command of its class that a later one waits for: to one node until it has left, else until its end. A CNPUT and a write
to this package are not kept in order, a CNGET's write and another are (R20, R178, R180, R194). -/
def Cmd.before (x k : Cmd) : Bool :=
  x.underway && decide (x.seq < k.seq) && x.cls == k.cls &&
    (if x.isNet && k.isNet then !x.sent && dNode x.desc == dNode k.desc
     -- an unsent put has still to read its source (ER-EW, R194)
     else if x.isNet then (x.deferred && !x.isPut && k.deferred) || (x.isPut && !x.sent && x.readsGlobal && k.deferred)
     else if k.isNet then x.deferred && k.deferred && !k.isPut
     else true)
/-- A command whose turn has come: its class's order, reads after earlier reads of the class (R180, R192). -/
def State.cmdReady (s : State) (core : Nat) (k : Cmd) : Bool :=
  let c := s.core core
  k.started && !(k.deferred && s.heldByFlight core k) && !(c.cmds.any fun x => x.before k) &&
    -- a remote scratchpad is written once its chunk runs (R427)
    !(dDsp k.desc == 2 && (match s.remoteHeld (s.ctxOf core) (dRcore k.desc) with
      | some here => !here || (s.core (dRcore k.desc)).run == .parked || (s.core (dRcore k.desc)).run == .rolling
      | none => false)) &&
    (!k.readsGlobal || (c.readReady k.seq k.cls [] && !s.readsFlight core k)) && !(match k.writesTile with | some t => c.readBusy none t | none => false)

/-- Room in an engine for one more started command (R414). -/
def Core.engineFree (c : Core) (k : Cmd) : Bool :=
  decide (c.engineLoad k.eng < 16) && !c.cmds.any fun x => x.released && !x.started && x.eng == k.eng && decide (x.seq < k.seq)
/-- A deferred command is released at the commit of its segment, in release order (R218, R414): from then on it stands behind the commands
released before it (R20, R180), and it starts once its engine has room. -/
def State.startDeferred (s : State) (core seq : Nat) : State :=
  match (s.core core).cmds.find? fun k => k.seq == seq with
  | none => s
  | some k =>
    let q := s.seq
    let k := { k with seq := q, released := true }
    let s := { (s.modCore core fun c => { c with cmds := (c.cmds.filter fun x => x.seq != seq) ++ [k] }) with seq := q + 1 }
    if (s.core core).engineFree k then s.beginCmd core q else s

/-! Descriptor moves (R421). -/

/-- Address, bytes and place of a descriptor move after the checks of R376. -/
def State.dmSpan (s : State) (r : DescMove) : Except TrapInfo (Nat × Nat × Nat) := do
  let sa := 32 * r.off.toNat + (if r.ba = 1 then (dWord (s.cur.rD r.base.toNat) 0).toNat % 2 ^ 20 else 0)
  let (a, n, w) := if r.one = 1 then (sa + 8 * r.word.toNat, 8, r.word.toNat) else (sa, 64, 0)
  raiseIf (a % n != 0) 0x082#10
  s.spCheck a
  .ok (a, n, w)
/-- The parts of a descriptor move in one sector each: place of its first byte in the span, address in the array (R134), bytes. -/
def Core.dmParts (c : Core) (a n : Nat) : List (Nat × Nat × Nat) :=
  if n = 8 then [(0, c.spVis a, 8)] else [(0, c.spVis a, 32), (32, c.spVis (a + 32), 32)]
def execDld (o : OpInfo) (r : DescMove) (s : State) : Out :=
  s.runNow o fun s => do
    let (a, n, w) ← s.dmSpan r
    let s ← (s.cur.dmParts a n).foldl (fun (q : Res) p => q.bind fun s => s.stashTouch p.2.1 p.2.2) (.ok s)
    let ps := s.cur.dmParts a n
    s.keep (raiseIf (ps.any fun p => s.cur.spPoison.has (p.2.1 / 32)) 0x141#10)
    let v := placed (ps.map fun p => (p.1, readMap s.cur.sp p.2.1 p.2.2))
    .ok (s.land .sload (.d r.d.toNat) (BitVec.ofNat 1024 (v * 2 ^ (64 * w))) (BitVec.ofNat 1024 ((2 ^ (8 * n) - 1) * 2 ^ (64 * w))))
def execDst (o : OpInfo) (r : DescMove) (s : State) : Out :=
  s.runNow o fun s => do
    let (a, n, w) ← s.dmSpan r
    let d := s.cur.rD r.d.toNat
    (s.cur.dmParts a n).foldl (fun (q : Res) p => q.bind fun s =>
      s.spStore (p.2.1 / 32) (BitVec.ofNat 256 (bits d.toNat (64 * w + 8 * p.1) (8 * p.2.2) * 2 ^ (8 * (p.2.1 % 32)))) ((2 ^ p.2.2 - 1) * 2 ^ (p.2.1 % 32)) false) (.ok s)

/-! Shadow publication (R134, R422). -/

def execCpub (o : OpInfo) (r : CpubArgs) (s : State) : Out :=
  s.runNow o fun s => do
    let c := s.cur
    raiseIf (match c.kernel.plan[r.buf.toNat]? with | some w => !w.getLsbD 32 | none => true) 0x0C8#10
    -- what the segment withheld before this bundle (R204, R217)
    raiseIf (c.withheldIn s.issue.relN) 0x0C9#10
    .ok (s.hold (.cpub r.buf.toNat s.seq))
/-- The exchange of a shadowed buffer's copies. -/
def Core.swapShadow (c : Core) (buf : Nat) : Core :=
  { c with arch := { c.arch with shadow := c.arch.shadow.put false buf (!c.arch.shadow.getD buf false) } }

/-! Stash windows (R423, R424). -/

def Window.meets (a b : Window) : Bool :=
  let n := 64 * a.size
  let m := 64 * b.size
  decide (a.gva.toNat < b.gva.toNat + m ∧ b.gva.toNat < a.gva.toNat + n) || decide (a.spbase < b.spbase + m ∧ b.spbase < a.spbase + n)
def execStmap (o : OpInfo) (r : StmapArgs) (s : State) : Out :=
  s.runNow o fun s => do
    let c := s.cur
    let d := c.rD r.a.toNat
    let i := r.win.toNat
    let gva := bits (dWord d 0).toNat 0 52
    let sb := bits (dWord d 1).toNat 0 20
    let size := bits (dWord d 2).toNat 0 15
    let w : Window := { gva := BitVec.ofNat 64 gva, spbase := sb, size, en := size != 0 }
    raiseIf (!s.issue.ck) 0x0CA#10
    raiseIf (gva % 64 != 0 || sb % 64 != 0 || decide (16384 < size) || decide (2 ^ 20 < sb + 64 * size)) 0x0CA#10
    -- another stmap of the bundle is seen by none of its operations (R423)
    let before := s.issue.wins.getD c.wins
    raiseIf (w.en && before.any fun q => q.1 != i && q.2.en && q.2.meets w) 0x0CA#10
    raiseIf (w.en && !isCtl s.issue.core && (List.range 16).any fun b => decide (b * 65536 < sb + 64 * size ∧ sb < (b + 1) * 65536) && !c.kernel.bmask.getLsbD b) 0x087#10
    let old := (c.wins.get? i).getD {}
    if old = w then .ok s
    else
      let ((cause, va), s) := if old.en then s.flushWindow s.issue.core old true else ((0, 0), s)
      -- written bytes that cannot go back are not given up (R43, R128; log 106)
      raiseAt (cause != 0) cause va
      let gone := if old.en then s.cur.sectorsIn old else []
      let first := match s.issue.since with | some (q, _) => q | none => s.seq
      -- a window of size 0 keeps its bases, disabled; the commands of the bundle keep the windows that stood before it
      .ok ({ s with issue := { s.issue with wins := some before } }.modCur fun c => { c with
        wins := c.wins.put {} i w, stash := c.stash.filter fun e => !gone.contains e.1
        cmds := c.cmds.map fun (k : Cmd) => if first ≤ k.seq ∧ k.wins.isNone then { k with wins := some before } else k })
def execStfl (o : OpInfo) (r : StflArgs) (s : State) : Out :=
  finish o s (if !s.guard0 o then s.arriveNow o.arr
  else do
    s.arriveCheck o.arr
    let wins := if r.all = 1 then List.range 8 else [r.win.toNat]
    s.enterCmd o { seq := 0, eng := engineOf o.slot, tok := r.tok.toNat, cls := r.cls.toNat, u := 2, kind := .stfl wins (r.inv == 1), desc := 0, deferred := true } 0 none [])

/-! Tier hints (R44, R425). -/

/-- Runs of consecutive page frames, at most 256 pages each. -/
def pageRuns (l : List Nat) : List (Nat × Nat) :=
  (l.foldl (fun acc p => match acc with
    | (a, n) :: t => if a + n = p ∧ n < 256 then (a, n + 1) :: t else (p, 1) :: (a, n) :: t
    | [] => [(p, 1)]) []).reverse
/-- Channel of messages to the expander, among the messages sent to the outside. -/
def chExpander : Nat := 3
def execChint (o : OpInfo) (r : ChintArgs) (s : State) : Out :=
  s.runNow o fun s =>
    let base := (dWord (s.cur.rD r.base.toNat) 0).toNat / 65536
    let (frames, s) := (List.range (r.pages.toNat + 1)).foldl (fun (q : List Nat × State) i =>
      match q.2.xlatePage q.2.who .load ((base + i) * 65536) with
      | (.error _, s) => (q.1, s)
      | (.ok (pa, _), s) => (if tierOf pa = .tier2 then q.1 ++ [pa / 65536] else q.1, s)) ([], s)
    let s := s.touch ((List.range (r.pages.toNat + 1)).map fun i => .page ((base + i) * 65536))
    if s.iso ∨ !(s.ioGet 0x0508).getLsbD 1 then .ok s
    else .ok { s with out := s.out ++ (pageRuns frames).map fun q => (chExpander, bytesOf 1 r.un.toNat ++ bytesOf 2 q.2 ++ bytesOf 8 q.1) }

end Sys2Proof.Machine
end

