-- ==== Sys2Proof/Machine/Image.lean ====
section
/-! DEFINITION. The bytes of a core's state: the checkpoint copy of the dump (R72) and the image of a switched-out chunk (R235, R242,
R419). The spec gives the order of their parts; widths and places that it does not give are this model's (log 37). -/
namespace Sys2Proof.Machine

/-- `n` entries of `k` bytes. -/
def wordsBytes (k n : Nat) (f : Nat → Nat) : List Byte := (List.range n).flatMap fun i => bytesOf k (f i)
/-- `n` bytes of an image at an offset, as a number. -/
def imageAt (b : List Byte) (off n : Nat) : Nat := natOf ((b.drop off).take n)
/-- `n` registers of `k` bytes from an offset of an image, in canonical form. -/
def regsAt {w : Nat} (b : List Byte) (off k n : Nat) : SMap (BitVec w) :=
  (List.range n).foldl (fun m i => m.put 0 i (BitVec.ofNat w (imageAt b (off + k * i) k))) []

/-- STWIN_Gn and STWIN_Sn (R132). -/
def Core.winG (c : Core) (i : Nat) : Word :=
  match c.wins.get? i with | some w => (w.gva &&& 0x000FFFFFFFFFFFC0#64) ||| (if w.en then 1 else 0) | none => 0
def Core.winS (c : Core) (i : Nat) : Word :=
  match c.wins.get? i with | some w => BitVec.ofNat 64 (w.spbase + w.size * 2 ^ 20) | none => 0

/-- Bits [51:2] of a loop register (R210). -/
def loopAddr (a : Word) : Word := a &&& 0x000FFFFFFFFFFFFC#64
/-- The checkpoint copy in the order s, x, p, w, f, e, v, k, TCFG0–15, loop state: 0x1B70 bytes. -/
def Arch.copyBytes (a : Arch) (e : SMap Word) (tcfg : Nat → Nat) : List Byte :=
  wordsBytes 8 32 (fun i => (a.s.getD i 0).toNat) ++ wordsBytes 8 16 (fun i => (a.x.getD i 0).toNat) ++
    wordsBytes 8 16 (fun i => if i = 0 then 2 ^ 64 - 1 else (a.p.getD i 0).toNat) ++
    wordsBytes 8 8 (fun i => (a.tokOf i).cnt + (a.tokOf i).cause.toNat * 2 ^ 32) ++ wordsBytes 2 16 (fun i => (a.f.getD i 0).toNat) ++
    wordsBytes 8 8 (fun i => (e.getD i 0).toNat) ++ wordsBytes 128 32 (fun i => (a.v.getD i 0).toNat) ++
    wordsBytes 128 16 (fun i => (a.k.getD i 0).toNat) ++ wordsBytes 4 16 tcfg ++
    ((List.range 6).flatMap fun i =>
      let l := a.loops.getD i {}
      bytesOf 8 ((loopAddr l.body).toNat + (if l.act then 1 else 0)) ++ bytesOf 8 (loopAddr l.last).toNat ++ bytesOf 8 l.iter.toNat)
/-- The committed tile t: the pool keeps it once the segment has written it (R220). -/
def Core.ckTile (c : Core) (t : Nat) : Tile :=
  (c.seg.pool.findSome? fun q => match q with | .tile i o => if i = t then some o else none | _ => none).getD (c.tile t)
/-- TCFG of a tile with SCA and SCB of its side-car (R252). -/
def ckTcfg (c : Core) (t : Nat) : Nat :=
  (c.seg.ck.tcfg.getD t 0).toNat + (if (c.ckTile t).a.valid then 2 ^ 17 else 0) + (if (c.ckTile t).b.valid then 2 ^ 18 else 0)
def Core.copyBytes (c : Core) : List Byte := c.seg.ck.copyBytes c.e (ckTcfg c)

/-- A destination in an image: its file, its number, its byte offset, the bytes of its value. -/
def Dest.code : Dest → Nat × Nat × Nat × Nat
  | .s r => (0, r, 0, 8) | .x r => (1, r, 0, 8) | .v r => (2, r, 0, 128) | .k r => (3, r, 0, 128) | .d r => (4, r, 0, 64) | .p r => (5, r, 0, 8)
  | .kp r => (6, r, 0, 1) | .sp r => (7, r, 0, 32) | .tcfg t => (8, t, 0, 4) | .tile t o => (9, t, o, 128)
def Dest.ofCode (f n o : Nat) : Dest × Nat :=
  let d : Dest := match f with
    | 0 => .s n | 1 => .x n | 2 => .v n | 3 => .k n | 4 => .d n | 5 => .p n | 6 => .kp n | 7 => .sp n | 8 => .tcfg n | _ => .tile n o
  (d, d.code.2.2.2)
/-- A result in flight with its landing position (R218): 6 bytes of position, file, form of the mask, number, offset (of a scratchpad sector:
the two marks above its mask); its value; and its mask, where it is not whole, by bytes or else by bits. -/
def Landing.bytes (l : Landing) : List Byte :=
  let (f, n, o, w) := l.dst.code
  let m := l.mask.toNat % 2 ^ (8 * w)
  let form : Nat × List Byte :=
    if m = 2 ^ (8 * w) - 1 then (0, []) else if spread w (byteMask w m) = m then (1, bytesOf ((w + 7) / 8) (byteMask w m)) else (2, bytesOf w m)
  bytesOf 1 l.left ++ bytesOf 1 (f + 16 * form.1) ++ bytesOf 2 n ++ bytesOf 2 (if f = 7 then l.mask.toNat / 2 ^ 256 % 4 else o) ++ bytesOf w l.val.toNat ++ form.2
/-- An entry of the atomic replay log (R221). -/
def Replay.bytes (r : Replay) : List Byte :=
  bytesOf 8 r.addr.toNat ++ bytesOf 4 (if r.w64 then 1 else 0) ++ bytesOf 4 r.aop ++ bytesOf 8 r.res.toNat
/-- The part of an image at 0, 16 KiB. -/
def Core.headImage (c : Core) : List Byte :=
  let a := c.seg.ck
  let b := c.copyBytes ++ wordsBytes 64 16 (fun i => (a.d.getD i 0).toNat) ++ bytesOf 4 a.lands.length ++ a.lands.flatMap Landing.bytes ++
    bytesOf 4 c.seg.log.length ++ c.seg.log.flatMap Replay.bytes ++
    bytesOf 128 ((List.range 1024).foldl (fun t i => if a.shadow.getD i false then t + 2 ^ i else t) 0) ++
    bytesOf 8 a.seed.toNat ++ wordsBytes 8 16 (fun i => (a.srctr.getD i 0).toNat) ++ bytesOf 8 (if a.bank then 1 else 0) ++
    wordsBytes 8 8 (fun i => (c.winG i).toNat) ++ wordsBytes 8 8 (fun i => (c.winS i).toNat) ++ bytesOf 8 c.svc.base.toNat ++ bytesOf 8 c.svc.tcmp.toNat
  (b ++ List.replicate 16384 0).take 16384
/-- A result in flight, a replay-log entry, a stash window, as the image holds them. -/
def Landing.ofImage (b : List Byte) (o : Nat) : Landing × Nat :=
  let f := imageAt b (o + 1) 1
  let x := imageAt b (o + 4) 2
  let (dst, w) := Dest.ofCode (f % 16) (imageAt b (o + 2) 2) x
  let at' := o + 6 + w
  let (m, n) : Nat × Nat := match f / 16 with
    | 0 => (2 ^ (8 * w) - 1, 0)
    | 1 => (spread w (imageAt b at' ((w + 7) / 8)), (w + 7) / 8)
    | _ => (imageAt b at' w, w)
  (⟨imageAt b o 1, dst, BitVec.ofNat 1024 (imageAt b (o + 6) w), BitVec.ofNat 1024 (m + if f % 16 = 7 then x * 2 ^ 256 else 0)⟩, at' + n)
/-- `n` results in flight from an offset, and where they end. -/
def landingsAt (b : List Byte) (o n : Nat) : List Landing × Nat :=
  (List.range n).foldl (fun (q : List Landing × Nat) _ => let (l, o) := Landing.ofImage b q.2; (q.1 ++ [l], o)) ([], o)
def Replay.ofImage (b : List Byte) (o : Nat) : Replay :=
  ⟨BitVec.ofNat 64 (imageAt b o 8), imageAt b (o + 8) 4 % 2 == 1, imageAt b (o + 12) 4, BitVec.ofNat 64 (imageAt b (o + 16) 8)⟩
def Window.ofRegs (g s : Nat) : Window :=
  { gva := BitVec.ofNat 64 g &&& 0x000FFFFFFFFFFFC0#64, spbase := s % 2 ^ 20, size := s / 2 ^ 20, en := g.testBit 0 }
/-- What follows d0–d15 in an image: results in flight, replay log, mapping bits, SEED, SRCTR, active bank, windows, SVBASE, TCMP. -/
def Saved.ofTail (b : List Byte) (r : Saved) : Saved :=
  let (lands, o) := landingsAt b 0x1F74 (imageAt b 0x1F70 4)
  let ng := imageAt b o 4
  let t := o + 4 + 24 * ng
  { r with
    arch := { r.arch with
      lands
      shadow := (List.range 1024).foldl (fun m i => m.put false i ((imageAt b t 128).testBit i)) []
      seed := BitVec.ofNat 64 (imageAt b (t + 128) 8), srctr := regsAt b (t + 136) 8 16, bank := imageAt b (t + 264) 8 % 2 == 1 }
    log := (List.range ng).map fun i => Replay.ofImage b (o + 4 + 24 * i)
    wins := (List.range 8).foldl (fun m i => m.put {} i (Window.ofRegs (imageAt b (t + 272 + 8 * i) 8) (imageAt b (t + 336 + 8 * i) 8))) []
    svbase := BitVec.ofNat 64 (imageAt b (t + 400) 8), tcmp := BitVec.ofNat 64 (imageAt b (t + 408) 8) }
/-- They fit into the image's first 16 KiB: R235 gives no place to more results in flight than that (log 37). -/
def Saved.tailFits (r : Saved) : Bool := decide (0x1F74 + (r.arch.lands.flatMap Landing.bytes).length + 24 * r.log.length + 420 ≤ 16384)
/-- The parts of a checkpoint copy whose places do not depend on what is in flight, as an image holds them; and e0–e7. -/
def Arch.ofImage (b : List Byte) (a : Arch) : Arch × SMap Word :=
  let tok (m : SMap Token) (i : Nat) : SMap Token :=
    let w := imageAt b (0x200 + 8 * i) 8
    m.put {} i { cnt := w % 2 ^ 32, cause := BitVec.ofNat 10 (w / 2 ^ 32) }
  let lp (m : SMap LoopLv) (i : Nat) : SMap LoopLv :=
    let w (j : Nat) : Nat := imageAt b (0x1AE0 + 24 * i + 8 * j) 8
    m.put {} i { body := loopAddr (BitVec.ofNat 64 (w 0)), last := loopAddr (BitVec.ofNat 64 (w 1)), iter := BitVec.ofNat 32 (w 2), act := (w 0).testBit 0 }
  ({ a with
     s := regsAt b 0 8 32, x := regsAt b 0x100 8 16, p := (regsAt b 0x180 8 16).del 0, tok := (List.range 8).foldl tok [], f := regsAt b 0x240 2 16
     v := regsAt b 0x2A0 128 32, k := regsAt b 0x12A0 128 16, loops := (List.range 6).foldl lp [], d := regsAt b 0x1B70 64 16
     tcfg := (List.range 16).foldl (fun m i => m.put 0 i (BitVec.ofNat 32 (imageAt b (0x1AA0 + 4 * i) 4 % 2 ^ 17))) [] },
    regsAt b 0x260 8 8)

/-- A tile from its image; poison moves with the bytes, and the addresses recorded with it stay (R142, R251). -/
def Tile.ofImage (v : Word32) (b : List (Byte × Bool)) (old : Tile) : Tile :=
  let bs := b.map Prod.fst
  { bytes := BitVec.ofNat 131072 (natOf (bs.take 16384)), a := roleFrom bs v false, b := roleFrom bs v true
    poison := BitVec.ofNat 512 (((List.range 512).filter fun i => ((b[32 * i]?).map Prod.snd).getD false).foldl (fun t i => t + 2 ^ i) 0), paddr := old.paddr }

/-- An accumulator in the layout of a tile image (R235). -/
def accImage (a : Acc) : List Byte :=
  bytesOf 16384 a.bytes.toNat ++ bytesOf 4 (a.fmt.toNat + (if a.sat then 4 else 0) + (a.rows - 1) * 8 + (a.cols - 1) * 512) ++ bytesOf 16380 0
def Acc.ofImage (b : List Byte) : Acc :=
  let w := imageAt b 0x4000 4
  if w % 4 = 0 then { bytes := BitVec.ofNat 131072 (natOf (b.take 16384)), sat := w.testBit 2 }
  else { bytes := BitVec.ofNat 131072 (natOf (b.take 16384)), fmt := BitVec.ofNat 2 w, sat := w.testBit 2, rows := bits w 3 6 + 1, cols := bits w 9 6 + 1 }
/-- A bank image (R242), and the bank that it gives; rows and scale entries carry poison (R251). -/
def bankImage (b : Bank) : List Byte :=
  bytesOf 4096 b.digits.toNat ++ bytesOf 1024 b.c.toNat ++ bytesOf 256 b.e.toNat ++ bytesOf 128 b.flags.toNat ++ bytesOf 256 b.scale.toNat ++
    bytesOf 4 (b.fmt.toNat + (if b.ww then 16 else 0) + (if b.s then 32 else 0) + (b.n - 1) * 64 + (b.kb - 1) * 4096 + (if b.stale then 2 ^ 18 else 0)) ++ bytesOf 27004 0
def bankBytes (b : Bank) : List (Byte × Bool) :=
  (bankImage b).zip ((List.range 32768).map fun i =>
    if i < 4096 then b.poison.getLsbD (i / 64) else if 0x1580 ≤ i ∧ i < 0x1680 then b.poison.getLsbD (64 + (i - 0x1580) / 2) else false)
def Bank.ofImage (m : List (Byte × Bool)) (old : Bank) : Bank :=
  let b := m.map Prod.fst
  let w := imageAt b 0x1680 4
  let bad (o n : Nat) : Bool := ((m.drop o).take n).any Prod.snd
  { old with
    poison := BitVec.ofNat 192 (((List.range 192).filter fun i =>
      if i < 64 then bad (64 * i) 64 else bad (0x1580 + (i - 64) / 16 * 32) 32).foldl (fun t i => t + 2 ^ i) 0)
    digits := BitVec.ofNat 32768 (imageAt b 0 4096), c := BitVec.ofNat 8192 (imageAt b 0x1000 1024), e := BitVec.ofNat 2048 (imageAt b 0x1400 256)
    flags := BitVec.ofNat 1024 (imageAt b 0x1500 128), scale := BitVec.ofNat 2048 (imageAt b 0x1580 256), fmt := BitVec.ofNat 4 w
    ww := w.testBit 4, s := w.testBit 5, n := bits w 6 6 + 1, kb := bits w 12 6 + 1, stale := w.testBit 18 }

/-! Saving and restoring (R138, R235). -/

/-- The place of a core's image in the save granule of a context (R235, R236). -/
def State.imageBase (s : State) (core ctx : Nat) : Nat := bits (s.ioGet (0xFC00 + 8 * ctx)).toNat 29 23 * 2 ^ 29 + core * 2 ^ 21
/-- Lines of an image written through L2 into the reserved ways under the slot OWN; poison moves with the bytes (R138, R142, R235). -/
def State.saveBytes (s : State) (ctx pa : Nat) (b : List (Byte × Bool)) : State :=
  (List.range ((b.length + 63) / 64)).foldl (fun s i =>
    let l := (b.drop (64 * i)).take 64
    -- no other copy of the line keeps the old bytes (R30, R37, R175)
    let s := (s.dropCopies (pa / 32 + 2 * i) 1000 false).dropCopies (pa / 32 + 2 * i + 1) 1000 false
    let s := s.l2Write (pa + 64 * i) (2 ^ 64 - 1) (l.map Prod.fst) ctx (s.ownOf ctx) (some ctx) false true
    [0, 1].foldl (fun s j => if ((l.drop (32 * j)).take 32).any Prod.snd then { s with poison := s.poison.ins (pa / 32 + 2 * i + j) () } else s) s) s
/-- The same bytes read back: with the poison of their sectors, as fills of the context (R149, R235). -/
def State.loadBytes (s : State) (ctx pa n : Nat) : List (Byte × Bool) × State :=
  (List.range ((n + 63) / 64)).foldl (fun (q : List (Byte × Bool) × State) i =>
    let a := pa + 64 * i
    let s := q.2.l2Read a 64 ctx (q.2.ownOf ctx) 2
    (q.1 ++ (s.readPhys a 64).zip ((List.range 64).map fun j => s.poison.has ((a + j) / 32)), s)) ([], s)
def clean (b : List Byte) : List (Byte × Bool) := b.map fun x => (x, false)
/-- The bytes of a k register's file carry the poison of its pieces (R406). -/
def Core.headPoison (c : Core) : List (Byte × Bool) :=
  (c.headImage.zip (List.range 16384)).map fun q =>
    (q.1, decide (0x12A0 ≤ q.2 ∧ q.2 < 0x1AA0) && (c.seg.ck.kp.getD ((q.2 - 0x12A0) / 128) 0).getLsbD ((q.2 - 0x12A0) / 32 % 4))
/-- The scratchpad banks of a mask in the image of a core: reading them finds their errors (R131, R142). -/
def State.saveBanks (s : State) (core ctx : Nat) (mask : Half) : State :=
  let bad := ((s.core core).spErr ++ (s.core core).spCor).map fun q => q.1 * 8
  let s := (bad.filter fun a => mask.getLsbD (a / 65536)).foldl (fun s a => s.spScan core a 8) s
  let c := s.core core
  (ones mask).foldl (fun s b => s.saveBytes ctx (s.imageBase core ctx + 0x100000 + 65536 * b)
    ((List.range 65536).map fun i => (c.sp.getD (65536 * b + i) 0, c.spPoison.has ((65536 * b + i) / 32)))) s
/-- The image of a core, with the scratchpad banks of a mask. -/
def State.saveImage (s : State) (core ctx : Nat) (mask : Half) : State :=
  let c := s.core core
  let base := s.imageBase core ctx
  let s := s.saveBytes ctx base c.headPoison
  let s := (List.range 16).foldl (fun s t =>
    s.saveBytes ctx (base + 0x10000 + 32768 * t) (tileImage (c.tcfg t) (c.tcfgWord t) (c.tile t) true)) s
  let s := (List.range 4).foldl (fun s a => s.saveBytes ctx (base + 0x10000 + 32768 * (16 + a)) (clean (accImage (c.acc a)))) s
  ((s.saveBytes ctx (base + 0xB0000) (bankBytes c.b0)).saveBytes ctx (base + 0xB8000) (bankBytes c.b1)).saveBanks core ctx mask
/-- The state that goes with a switched-out chunk. -/
def Core.saved (c : Core) (k : Chunk) (mask : Half) : Saved :=
  { chunk := k, kernel := c.kernel, arch := c.seg.ck, e := c.e, ckaddr := c.seg.ckaddr, tiles := c.tiles, accs := c.accs, b0 := c.b0, b1 := c.b1
    log := c.seg.log, wins := c.wins, svbase := c.svc.base, tcmp := c.svc.tcmp, sq := c.svc.queue
    banks := c.sp.filter fun q => c.kernel.bmask.getLsbD (q.1 / 65536), savedMask := mask
    spPoison := c.spPoison.filter fun q => c.kernel.bmask.getLsbD (q.1 / 2048), parked := false, posts := [], rolls := c.seg.rolls
    arrived := c.arrived, rdvDone := c.seg.rdvDone, replayed := c.seg.replayed, strap := c.svc.trap }
/-- A switched-out state as its image gives it back, and whether a sector was poisoned whose bytes go where no poison bit stands: that
consumes it (R142, R235). What the model keeps beside a register's bytes comes from the core's own record of the switch-out (log 37). R235
gives one place to a context and a core: of two chunks of one context that are switched out on one core the later image overwrites the
earlier, whose chunk then resumes with what it finds there (DESIGN CHOICE, log 113). -/
def State.readImage (s : State) (core : Nat) (r : Saved) : Saved × Bool × State :=
  let ctx := r.chunk.ctx
  let base := s.imageBase core ctx
  let (h, s) := s.loadBytes ctx base 16384
  let (arch, e) := Arch.ofImage (h.map Prod.fst) r.arch
  let kp : SMap (BitVec 4) := (List.range 16).foldl (fun m i => m.put 0 i (BitVec.ofNat 4
    (((List.range 4).filter fun j => ((h[0x12A0 + 128 * i + 32 * j]?).map Prod.snd).getD false).foldl (fun t j => t + 2 ^ j) 0))) []
  let r := { r with arch := { arch with kp } }
  let r := if r.tailFits then r.ofTail (h.map Prod.fst) else r
  let arch := r.arch
  let (tiles, s) := (List.range 16).foldl (fun (q : SMap Tile × State) t =>
    let (b, s) := q.2.loadBytes ctx (base + 0x10000 + 32768 * t) 32768
    (q.1.put {} t (Tile.ofImage (arch.tcfg.getD t 0) b (r.tiles.getD t {})), s)) ([], s)
  let (accs, hurt, s) := (List.range 4).foldl (fun (q : SMap Acc × Bool × State) a =>
    let (b, s) := q.2.2.loadBytes ctx (base + 0x10000 + 32768 * (16 + a)) 32768
    (q.1.put {} a (Acc.ofImage (b.map Prod.fst)), q.2.1 || b.any Prod.snd, s)) ([], false, s)
  let (i0, s) := s.loadBytes ctx (base + 0xB0000) 32768
  let (i1, s) := s.loadBytes ctx (base + 0xB8000) 32768
  let (banks, poison, s) := (ones r.savedMask).foldl (fun (q : SMap Byte × SMap Unit × State) b =>
    let (l, s) := q.2.2.loadBytes ctx (base + 0x100000 + 65536 * b) 65536
    let at' := (l.zip (List.range 65536)).map fun x => (65536 * b + x.2, x.1)
    (at'.foldl (fun m x => m.put 0 x.1 x.2.1) q.1, at'.foldl (fun m x => m.mark (x.1 / 32) x.2.2) q.2.1, s)) (r.banks, r.spPoison, s)
  let bad (l : List (Byte × Bool)) (o n : Nat) : Bool := ((l.drop o).take n).any Prod.snd
  let hurt := hurt || bad h 0 0x12A0 || bad h 0x1AA0 0x2560 || [i0, i1].any fun l => bad l 0x1000 0x580 || bad l 0x1680 32
  ({ r with arch, e, tiles, accs, b0 := Bank.ofImage i0 r.b0, b1 := Bank.ofImage i1 r.b1, banks, spPoison := poison }, hurt, s)

end Sys2Proof.Machine
end

