-- ==== Sys2Proof/Machine/Links.lean ====
section
/-! DEFINITION. Released operations performed at their homes (R152, R174-R186), messages to the outside, the Ethernet ports with OFT
(R15-R25, R438), the host port (R28-R31), the expander port (R43-R48). -/
namespace Sys2Proof.Machine

/-! Messages to the outside, by channel. -/

def chMsi : Nat := 0
def chMctp : Nat := 1
def chIbi : Nat := 2
def chOft : Nat := 4
def chHost : Nat := 5
def chFlash : Nat := 7
/-- MSI-X vector; 253 to 255 are never sent (R42). Whether a vector that BAR2's table masks is sent or becomes pending the spec does not say:
here every vector is sent, the table is not read, and no pending bit is set (DESIGN CHOICE, log 103). -/
def State.msi (s : State) (v : Nat) : State := if v < 253 then s.send chMsi (bytesOf 2 v) else s
/-- In-band interrupt for an event kind that is not pending (R70). -/
def State.alert (s : State) (kind : Nat) : State :=
  if s.pkg.alerts.has kind then s
  else { (s.send chIbi (bytesOf 1 kind)) with pkg := { s.pkg with alerts := s.pkg.alerts.ins kind () } }
def State.modPkg (s : State) (f : Pkg → Pkg) : State := { s with pkg := f s.pkg }
/-- The field of `w` bits from bit `lo` of a register. -/
def State.ioBits (s : State) (o lo w : Nat) : Nat := bits (s.ioGet o).toNat lo w
def State.ioField (s : State) (o lo w v : Nat) : State := s.ioSet o (setBits (s.ioGet o) lo w v)
/-- A counter field that saturates. -/
def State.ioCount (s : State) (o lo w : Nat) : State := s.ioField o lo w (min (s.ioBits o lo w + 1) (2 ^ w - 1))
/-- Power notice 0x180 + i becomes pending at a core, merged with one already pending (R98, R435). -/
def State.notice (s : State) (core i : Nat) : State :=
  s.modCore core fun c => { c with svc := { c.svc with notices := c.svc.notices ||| BitVec.ofNat 4 (2 ^ i) } }

/-! Released operations (R178, R182, R183, R186). -/

/-- The 32-byte piece that a store or VAMO writes. -/
def Rel.piece : Rel → Option Nat
  | .store pa _ _ _ _ => some (pa / 32)
  | .vamo pa _ _ _ _ _ _ => some (pa / 32)
  | _ => none
/-- An earlier entry of the same core that a later one must not overtake. -/
def Rel.before : Rel → Rel → Bool
  | _, .post _ _ _ => true
  | _, .arrive _ => true
  | _, .event _ _ _ _ _ => true
  | .mark ks m, b => match b.kind with | some (k, c) => fenceCovers ks m k c | none => false
  | a, b => match a.kind, b.kind with
    | some (2, c), some (2, d) => c == d || a.piece == b.piece
    | _, _ => false
/-- The k-th released entry may be performed next (R178, R183). -/
def State.flightReady (s : State) (k : Nat) : Bool :=
  match s.flight[k]? with
  | none => false
  | some f =>
    (match f.rel with | .mark _ _ => false | .cmd _ => false | .late _ _ => false | .due _ _ => false | _ => true) &&
    !(s.flight.any fun g => g.core == f.core && decide (g.seq < f.seq) && g.rel.before f.rel) &&
    -- a publish follows the own-flag posts before it (R183)
    !(f.rel.publish && (s.core f.core).seg.posts.any fun p => decide (p.upto ≤ f.seq)) &&
    -- an engine's global write released before it, of its class; a released copy that has still to read its global source, whatever its
    -- class (ER-St and ER-Up, R192, R193); a publish waits for every released command before it (R178, R183)
    !((s.core f.core).cmds.any fun c => c.released && decide (c.seq < f.seq) &&
      ((!c.isPut && (f.rel.publish || (match f.rel.kind with | some (2, d) => c.cls == d | _ => false))) ||
        (!c.sent && c.readsGlobal && f.rel.kind.isSome)))
def State.dropFlight (s : State) (k : Nat) : State :=
  ({ s with flight := s.flight.take k ++ s.flight.drop (k + 1) } : State).prune

/-- A write to lines that the host holds sends back-invalidate snoops, and waits for the answers (R30). -/
def State.snoopHost (s : State) (pa n : Nat) : Bool × State :=
  let held := (linesOf pa n).filter fun l => s.pkg.hostHeld.has l
  if held.isEmpty then (false, s)
  else (true, held.foldl (fun s l =>
    if s.pkg.snooped.has l then s
    else (s.send chSnoop (bytesOf 8 (l * 64))).modPkg fun p => { p with snooped := p.snooped.ins l () }) s)

/-- A released store or VAMO ends with a cause of its link (R31, R43): the core that released it stops with a trap record, when it
still runs for that context (DEDUCED, log 72). -/
def State.relFail (s : State) (f : Flight) (c : Cause) : State :=
  if (s.core f.core).run = .running ∧ s.ctxOf f.core = f.ctx then s.park f.core { cause := c } (s.core f.core).pc 1 else s
/-- A store or VAMO reaches its home slice and is performed. -/
def State.performRel (s : State) (f : Flight) : State :=
  match f.rel with
  | .store pa key _ val mask =>
    let (c, s) := s.performWrite (agentOf f.core f.ctx) pa mask.toNat (bytesOf 32 val.toNat) key
    if c = 0 then s else s.relFail f c
  | .vamo pa key _ aop w val mask =>
    if s.linkCause pa ≠ 0 then s.relFail f (s.linkCause pa)
    else if s.hostLate f.core pa then (s.hostOver f.core).relFail f 0x240
    else s.performVamo (agentOf f.core f.ctx) pa key aop w val mask
  | _ => s
def State.sliceAccess (s : State) (k : Nat) : State :=
  match s.flight[k]? with
  | some f =>
    match f.rel.piece with
    | some p =>
      if !s.flightReady k then s
      else
        match s.snoopHost (p * 32) 32 with
        | (true, s) => s
        | (false, s) => (s.dropFlight k).performRel f
    | none => s
  | none => s
def execHomeSliceAccess (k : Nat) (s : State) : Out := .next (s.sliceAccess k)

/-- A pair is admitted, at a slice that still belongs to an armed region (R167). -/
def State.pairAdmit (s : State) (k : Nat) : State :=
  match s.flight[k]? with
  | some ⟨q, core, ctx, .pair pa key r cls v, time⟩ =>
    if !s.flightReady k then s
    -- a link that is down by then ends it like a store (R43)
    else if s.linkCause pa ≠ 0 then (s.dropFlight k).relFail ⟨q, core, ctx, .pair pa key r cls v, time⟩ (s.linkCause pa)
    else (s.dropFlight k).admitPair pa key r v ctx
  | _ => s
def execUpdatePairAdmit (k : Nat) (s : State) : Out := .next (s.pairAdmit k)

def State.postArrives (s : State) (k : Nat) : State :=
  match s.flight[k]? with
  | some ⟨_, _, ctx, .post t f n, _⟩ => if s.flightReady k then (s.dropFlight k).deliverPost ctx t f n else s
  | some ⟨_, core, ctx, .event t hn first bytes tok, _⟩ =>
    if s.flightReady k then (s.dropFlight k).eventFor core ctx (t, hn, first, bytes) tok true else s
  | _ => s
def execRemotePostDeliver (k : Nat) (s : State) : Out := .next (s.postArrives k)

/-! Loads and atomics that complete (R377, R383). -/

def execGlobalLoadComplete (core k : Nat) (s : State) : Out :=
  .next (match (s.core core).loads[k]? with
    | some l => if (s.core core).readReady l.seq l.cls l.pieces && !s.meetsFlight core false l.pieces then s.finishLoad core l else s
    | none => s)
def execAtomicComplete (core k : Nat) (s : State) : Out :=
  .next (match (s.core core).atoms[k]? with
    | some p => s.finishAtom core p
    | none => s)
def execQueueLoaderRead (core : Nat) (s : State) : Out := .next (s.queueRead core)
def execDqEntryFilled (core : Nat) (s : State) : Out :=
  .next (match (s.core core).dq.find? fun e => e.data.isNone with
    | some e => if (s.core core).readReady e.seq e.cls e.pieces && !s.meetsFlight core false e.pieces then s.queueFill core else s
    | none => s)

/-! Ports (R15, R20, R25). -/

def portReg (p : Nat) : Nat := 0x0480 + 8 * p
def State.portUp (s : State) (p : Nat) : Bool := (s.ioGet (portReg p)).getLsbD 0 && (s.ioGet (portReg p)).getLsbD 4
/-- The link of a port goes down; FLAP is set when it was up. -/
def State.portDown (s : State) (p : Nat) : State :=
  let s := if (s.ioGet (portReg p)).getLsbD 4 then s.ioField (portReg p) 6 1 1 else s
  s.ioField (portReg p) 2 3 0
def execPortLinkDown (port : BitVec 3) (s : State) : Out := .next (s.portDown port.toNat)
def execPortLinkUp (port : BitVec 3) (full : Bool) (s : State) : Out :=
  let o := portReg port.toNat
  .next (if (s.ioGet o).getLsbD 0 then (s.ioField o 4 1 1).ioField o 2 2 (if full && !(s.ioGet o).getLsbD 1 then 2 else 1) else s)
def State.portClr (s : State) (p : Nat) : State := s.ioField (portReg p) 16 16 0
def execPortStatClr (port : BitVec 3) (s : State) : Out := .next (s.portClr port.toNat)
def State.portOff (s : State) (p : Nat) : State := (s.ioField (portReg p) 0 1 0).portDown p
def execPortDisable (port : BitVec 3) (s : State) : Out := .next (s.portOff port.toNat)

/-- Commands that have been sent to a node in a class and are not answered. -/
def State.pairBusy (s : State) (node cls : Nat) : Bool :=
  let out (k : Cmd) : Bool := k.isNet && k.sent && dNode k.desc == node && k.cls == cls
  s.cores.any (fun q => q.2.cmds.any out) || s.pkg.loose.any fun q => out q.2
/-- The pair moves once every command outstanding on its old port has ended (R20). -/
def execPortFailover (node : BitVec 12) (cls : BitVec 4) (port : BitVec 3) (s : State) : Out :=
  let key := node.toNat * 16 + cls.toNat
  .next (match s.pkg.portOf.get? key with
    | some p =>
      if !s.portUp p && s.portUp port.toNat && Config.portReaches node.toNat port.toNat && !s.pairBusy node.toNat cls.toNat then
        s.modPkg fun k => { k with portOf := k.portOf.ins key port.toNat }
      else s
    | none => s)

/-! OFT commands of this package (R17-R21, R426). -/

/-- The port that carries a pair: the one it has, else the lowest that is up and reaches the node; or the cause that ends the
command; or none, while it has to wait for a failover. -/
def State.portFor (s : State) (node cls : Nat) : Except Cause (Option Nat) :=
  let reach := (List.range 8).filter fun p => Config.portReaches node p
  if reach.isEmpty then .error 0x284#10
  else if !reach.any (fun p => s.portUp p) then .error 0x283#10
  else match s.pkg.portOf.get? (node * 16 + cls) with
    | some p => .ok (if s.portUp p then some p else none)
    | none => .ok (reach.find? fun p => s.portUp p)

/-- The poison bits of a run of bytes, one to a byte. -/
def poisonBits (data : List (Byte × Bool)) : Nat := (data.zip (List.range data.length)).foldl (fun t q => if q.1.2 then t + 2 ^ q.2 else t) 0
/-- A run of bytes with such bits. -/
def withPoison (data : List Byte) (poison : Nat) : List (Byte × Bool) := (data.zip (List.range data.length)).map fun q => (q.1, poison.testBit q.2)
/-- A frame as the model sends it: kind, EtherType, port, own node, number, issuing core, class, number of the command, node at the
other end, window, element size, offset, count, bytes, and one bit of poison for each of them (R19; log 32). -/
def oftMessage (kind etype port me num core cls cmd node win esz off count : Nat) (data : List (Byte × Bool)) : List Byte :=
  bytesOf 1 kind ++ bytesOf 2 etype ++ bytesOf 1 port ++ bytesOf 2 me ++ bytesOf 4 num ++ bytesOf 2 core ++ bytesOf 1 cls ++
    bytesOf 8 cmd ++ bytesOf 2 node ++ bytesOf 1 win ++ bytesOf 1 esz ++ bytesOf 8 off ++ bytesOf 8 count ++
    bytesOf 2 data.length ++ data.map Prod.fst ++ bytesOf ((data.length + 7) / 8) (poisonBits data)
/-- The node id is locked: the ports may send (R22). -/
def State.oftLocked (s : State) : Bool := (s.ioGet 0x0400).getLsbD 12
/-- The stream of a frame: the node at its other end, the issuing core, the class, and whether it carries answers (R20; log 32). -/
def oftStream (node core cls : Nat) (answers : Bool) : Nat := ((node * 512 + core) * 16 + cls) * 2 + if answers then 1 else 0
/-- Kinds from 4 on are answers. -/
def isAnswer (kind : Nat) : Bool := decide (4 ≤ kind)
/-- A frame is sent under OFT_ETYPE and NODE with the next number of its stream; none while LOCK is 0 (R16, R22, R24; log 66). -/
def State.oftSend (s : State) (kind port core cls cmd node win esz off count : Nat) (data : List (Byte × Bool)) : State :=
  if s.oftLocked then
    let q := oftStream node core cls (isAnswer kind)
    let num := s.pkg.oftSent.getD q 0
    (s.send chOft (oftMessage kind (s.ioBits 0x0410 0 16) port (s.ioBits 0x0400 0 12) num core cls cmd node win esz off count data)).modPkg
      fun p => { p with oftSent := p.oftSent.put 0 q (num + 1) }
  else s
/-- Cut into frames of at most 4,096 payload bytes (R16). -/
def frames : Nat → Nat → List (Byte × Bool) → List (Nat × List (Byte × Bool))
  | 0, _, _ => []
  | fuel + 1, off, b => if b.length ≤ 4096 then [(off, b)] else (off, b.take 4096) :: frames fuel (off + 4096) (b.drop 4096)

/-- A started command is sent, once: a put with its bytes, a get with the runs it asks for; or it fails (R18, R21). -/
def State.netSend (s : State) (core : Nat) (k : Cmd) : State :=
  let node := dNode k.desc
  if !s.oftLocked then s
  else match s.portFor node k.cls with
    | .error c => s.endCmd core k c 0 0
    | .ok none => s
    | .ok (some p) =>
      let s := s.modPkg fun q => { q with portOf := q.portOf.ins (node * 16 + k.cls) p }
      let n := 2 ^ dEsz k.desc
      let win := dWin k.desc
      let sent (s : State) : State := s.modCore core fun c => { c with cmds := c.cmds.map fun x => if x.seq = k.seq then { x with sent := true } else x }
      match k.kind with
      | .cnput =>
        let s0 := s
        let (g, s) := (s.windowsFor core k).gatherFor core k
        let s := s.windowsBack s0 core
        let s := (joinRuns g.runs).foldl (fun s r =>
          (frames r.2.2.length r.1 r.2.2).foldl (fun s f => s.oftSend 1 p core k.cls k.seq node win (dEsz k.desc) f.1 0 f.2) s) s
        if g.cause ≠ 0 ∨ (s.lossOfCmd s0 core k).isSome then s.endOr s0 core k g.cause 0 0
        else sent (s.oftSend 2 p core k.cls k.seq node win (dEsz k.desc) (if dPv k.desc then 0x10000 + dPcore k.desc * 16 + dPf k.desc else 0) 0 [])
      | _ =>
        let runs := joinRuns (k.sources.map fun (o : Int) => (wrapI 64 o, 0, List.replicate n ((0 : Byte), false)))
        sent ((runs.zip (List.range runs.length)).foldl (fun s r =>
          s.oftSend 3 p core k.cls k.seq node (win + (if r.2 + 1 = runs.length then 128 else 0)) (dEsz k.desc) r.1.1 r.1.2.2.length []) s)

/-- The sent command that an answer belongs to. -/
def State.netCmd (s : State) (core cls node cmd : Nat) : Option Cmd :=
  (s.core core).cmds.find? fun k => k.isNet && k.sent && k.seq == cmd && k.cls == cls && dNode k.desc == node

/-- A get ends: what has come back is written at its places, element by element; a poisoned element is written as poison and ends it, and so
does a failure, after the elements before it (R19, R21, R415). -/
def State.getDone (s : State) (core : Nat) (k : Cmd) (cause : Cause) : State :=
  let n := 2 ^ dEsz k.desc
  let dests := k.dests
  let whole := min (k.src.length / n) dests.length
  let bad := (List.range whole).find? fun i => ((k.src.drop (i * n)).take n).any Prod.snd
  let m := match bad with | some i => i + 1 | none => whole
  let s0 := s
  let (g, s) := (s.windowsFor core k).gather core { k with captured := true, bad := 0 } (List.replicate m 0) (dests.take m) 4 (dDsp k.desc) n
  let ((c, _), s) := s.scatterRuns core k (dDsp k.desc) g.runs g.vas
  let s := s.windowsBack s0 core
  let c := if c ≠ 0 then c else if g.cause ≠ 0 then g.cause else if bad.isSome then 0x286#10 else cause
  s.endOr s0 core k c (match dests with | o :: _ => o.toNat | [] => 0) (n * dests.length)

/-! Frames that a port receives (R16, R17, R19, R438). -/

/-- The elements of a run of n bytes, each its place in the run and its length. -/
def runElems (n e : Nat) : List (Nat × Nat) := (List.range ((n + e - 1) / e)).map fun i => (e * i, min e (n - e * i))
/-- Pieces that follow each other in one 32-byte sector stand as one. -/
def joinPiece (p : Piece) : List Piece → List Piece
  | [] => [p]
  | q :: r => if q.pa + q.n = p.pa ∧ q.pa / 32 = p.pa / 32 ∧ q.key = p.key ∧ q.off + q.n = p.off then { q with n := q.n + p.n } :: r else p :: q :: r
/-- The window's checks on the elements of a run, one after the other: present, inside, permitted, translated in its context's space, at a
link that is up. The cause of the first that fails, 0 for none; the context, and the physical pieces of those before it (R17, R21, R415,
R438). -/
def State.window (s : State) (win off n e : Nat) (put : Bool) : (Cause × Nat × List Piece) × State :=
  let a := s.ioGet (0x0C00 + 16 * win)
  let size := s.ioBits (0x0C08 + 16 * win) 0 32
  let ctx := bits a.toNat 58 6
  if !a.getLsbD 0 then ((0x280#10, ctx, []), s)
  else if !(a.getLsbD (if put then 2 else 1)) then ((0x281#10, ctx, []), s)
  else
    -- an element beyond the window's end fails, so nothing after it is looked at
    let ((c, ps), s) := (runElems (min n (65536 * size - off + 1)) e).foldl (fun (q : (Cause × List Piece) × State) x =>
      let ((c, ps), s) := q
      if c ≠ 0 then q
      else if 65536 * size < off + x.1 + x.2 then ((0x281#10, ps), s)
      else match s.xlate ⟨ctx, false, 266⟩ (if put then .store else .load) (bits a.toNat 16 36 * 65536 + off + x.1) x.2 with
        | (.error _, s) => ((0x281#10, ps), s)
        | (.ok l, s) => match l.find? fun p => s.linkCause p.pa != 0 with
          | some p => ((s.linkCause p.pa, ps), s)
          | none => ((0, l.foldl (fun ps p => joinPiece { p with off := p.off + x.1 } ps) ps), s)) ((0, []), s)
    ((c, ctx, ps.reverse), s)

/-- An answer to a frame: kind 4 data, 5 acknowledgement, 6 failure with its cause; `last` ends the command's data. It leaves by the port at
which the frame arrived: R20 speaks of the port of a (destination node, class) pair for commands only (DESIGN CHOICE, log 108). -/
def State.answer (s : State) (kind port : Nat) (f : OftFrame) (last : Bool) (c : Cause) (data : List (Byte × Bool)) : State :=
  s.oftSend kind port f.core.toNat f.cls.toNat f.cmd f.src.toNat (if last then 128 else 0) 0 c.toNat data.length data

/-- The increments of one stream, of one core of a node in one class. -/
def NetInc.sameStream (i : NetInc) (f : OftFrame) : Bool := i.src == f.src.toNat && i.from' == f.core.toNat && i.cls == f.cls.toNat
/-- An increment is made, or discarded when its core holds no chunk of the context (R19, R343); the put is answered. -/
def State.incDone (s : State) (i : NetInc) : State :=
  let held := (s.remoteHeld i.ctx i.core).isSome
  let s := s.deliverPost i.ctx i.core i.flag 1
  s.oftSend (if held then 5 else 6) i.port i.from' i.cls i.cmd i.src 0 0 (if held then 0 else 0x287) 0 []
/-- Increments of earlier puts of the stream come before a later command of it is performed (R20). -/
def State.settleIncs (s : State) (f : OftFrame) : State :=
  (s.pkg.incs.filter fun i => i.sameStream f).foldl State.incDone (s.modPkg fun q => { q with incs := q.incs.filter fun i => !i.sameStream f })

/-- The stream that a received frame belongs to. -/
def frameStream (f : OftFrame) : Nat :=
  oftStream f.src.toNat f.core.toNat f.cls.toNat (match f.body with | .put .. => false | .get .. => false | _ => true)
/-- A command of another node fails here: it is answered, and its later frames do nothing (R21, R415). -/
def State.failFrame (s : State) (port : Nat) (f : OftFrame) (c : Cause) : State :=
  (s.modPkg fun p => { p with oftFailed := p.oftFailed.ins (frameStream f) f.cmd }).answer 6 port f true c []
/-- A put performed at its home slices, the elements before one that fails, each byte with its poison (R19, R21, R415); after its last byte, the
increment that it names or the acknowledgement. The spec gives no order of 0x285 against the window's causes: here the remote core id is
looked at first (DESIGN CHOICE, log 67). A store that fails answers with its cause (R43). -/
def State.putFrame (s : State) (port : Nat) (f : OftFrame) (win off : Nat) (data : List (Byte × Bool)) (e : Nat) (last : Bool) (post : Option (BitVec 9 × BitVec 4)) : State :=
  if s.pkg.oftFailed.get? (frameStream f) = some f.cmd then s
  else if (match post with | some (c, _) => decide (255 < c.toNat) | none => false) then s.failFrame port f 0x285
  else
    let ((c, ctx, ps), s) := s.window win off data.length e true
    let (bad, s) := (joinRuns (ps.map fun p => (p.pa, p.key, (data.drop p.off).take p.n))).foldl (fun (q : Cause × State) r =>
      if q.1 ≠ 0 then q else q.2.engineStore ⟨1000, ctx, false⟩ r) (0, s)
    let c := if bad ≠ 0 then bad else c
    if c ≠ 0 then s.failFrame port f c
    else if !last then s
    else match post with
      | some (c, fl) => s.modPkg fun q => { q with incs := q.incs ++ [⟨ctx, c.toNat, fl.toNat, port, f.src.toNat, f.core.toNat, f.cls.toNat, f.cmd⟩] }
      | none => s.answer 5 port f true 0 []
/-- A run of a get: the bytes of the elements before one that fails come back in frames of at most 4,096 bytes, then the failure; a read that a
link fails answers with its cause (R16, R21, R43, R415). -/
def State.getFrame (s : State) (port : Nat) (f : OftFrame) (win off n e : Nat) (last : Bool) : State :=
  if s.pkg.oftFailed.get? (frameStream f) = some f.cmd then s
  else
    let ((c, ctx, ps), s) := s.window win off n e false
    let ((bad, data), s) := ps.foldl (fun (q : (Cause × List (Byte × Bool)) × State) p =>
      if q.1.1 ≠ 0 then q
      else
        let ((c, b), s) := q.2.fetchData ⟨1000, ctx, false⟩ p.pa p.n p.key 2
        if b.isEmpty then ((c, q.1.2), s) else ((0, q.1.2 ++ b.map (fun x => (x, c != 0))), s)) ((0, []), s)
    let c := if bad ≠ 0 then bad else c
    let fs := if c ≠ 0 ∧ data.isEmpty then [] else frames (data.length + 1) 0 data
    let s := (fs.zip (List.range fs.length)).foldl (fun s q => s.answer 4 port f (c == 0 && last && decide (q.2 + 1 = fs.length)) 0 q.1.2) s
    if c ≠ 0 then s.failFrame port f c else s

/-- Payload bytes of a frame (R16). -/
def oftPayload : OftBody → Nat
  | .put _ _ d _ _ _ _ => d.length
  | .getResp d _ _ => d.length
  | _ => 0
/-- A put whose chunk has ended is answered: nothing waits for it any more. -/
def State.tighten (s : State) (core cmd : Nat) : State := s.modPkg fun p => { p with loose := p.loose.filter fun q => !(q.1 == core && q.2.seq == cmd) }
/-- An OFT frame whose turn has come is performed. -/
def State.oftPerform (s : State) (port : Nat) (f : OftFrame) : State :=
  let core := f.core.toNat
  let cmd := s.netCmd core f.cls.toNat f.src.toNat f.cmd
  match f.body with
  | .put win off data poison esz last post => (s.settleIncs f).putFrame port f win.toNat off (withPoison data poison) (2 ^ esz.toNat) last post
  | .get win off n esz last => (s.settleIncs f).getFrame port f win.toNat off n (2 ^ esz.toNat) last
  | .getResp data poison last =>
    match cmd with
    | some k =>
      if k.isPut then s
      else
        let k := { k with src := k.src ++ withPoison data poison }
        if last ∨ data.length ≠ 0 ∧ poison % 2 ^ data.length ≠ 0 then s.getDone core k 0
        else s.modCore core fun c => { c with cmds := c.cmds.map fun x => if x.seq = k.seq then k else x }
    | none => s
  | .ack =>
    match cmd with
    | some k => if k.isPut then s.endCmd core k 0 0 0 else s
    | none => s.tighten core f.cmd
  | .nak cause =>
    match cmd with
    | some k => if k.isPut then s.endCmd core k cause 0 0 else s.getDone core k cause
    | none => s.tighten core f.cmd
/-- A command changes the key of a slot (R61). -/
def State.keyBusy (s : State) (slot : Nat) : Bool := s.pkg.keyOp.has slot
/-- An access that arrives for a slot whose key a command changes is held; it runs once the command is done (R62). -/
def State.holdFor (s : State) (i : Instr) : State := s.modPkg fun p => { p with held := p.held ++ [i] }
/-- The key slots under which n bytes at an address are reached: those of the pages' leaves, and of the walk where no TLB holds the leaf. -/
def State.slotsAt (s : State) (w : Who) (va n : Nat) : List Nat :=
  (List.range ((va + n - 1) / 65536 - va / 65536 + 1)).flatMap fun i =>
    let a := (va / 65536 + i) * 65536
    match (s.tlbIn 1 w.core w.ctx a).orElse fun _ => s.tlbIn 2 w.core w.ctx a with
    | some l => [(Pte.ofWord l.pte).key]
    | none => s.ptkOf w.ctx :: (match s.root w.ctx with
      | some b => (match walk s a 3 1 b [] with | .ok (l, _) => [(Pte.ofWord l.pte).key] | .error _ => [])
      | none => [])
/-- A frame reaches a page whose slot has a command in progress: it is held, whatever the slot holds until then (R62). -/
def State.frameHeld (s : State) (f : OftFrame) : Bool :=
  let busy (win off n : Nat) : Bool :=
    let a := s.ioGet (0x0C00 + 16 * win)
    let len := min n (65536 * s.ioBits (0x0C08 + 16 * win) 0 32 - off)
    a.getLsbD 0 && len != 0 && (s.slotsAt ⟨bits a.toNat 58 6, false, 266⟩ (bits a.toNat 16 36 * 65536 + off) len).any s.keyBusy
  if s.pkg.keyOp.isEmpty then false
  else match f.body with
  | .put win off d _ _ _ _ => busy win.toNat off d.length
  | .get win off n _ _ => busy win.toNat off n
  -- the data of a get are written under the keys of its local pages
  | _ => match s.netCmd f.core.toNat f.cls.toNat f.src.toNat f.cmd with
    | some k => !k.isPut && dDsp k.desc == 0 && k.dests.any fun o =>
      (s.slotsAt (s.mainWho f.core.toNat) (wrapI 64 o) (2 ^ dEsz k.desc)).any s.keyBusy
    | none => false
/-- Frames whose turn has come are performed, those of a stream in the order of their numbers; one that a key command holds keeps the later
ones of its stream back (R18, R20, R62). -/
def State.oftDrain : Nat → State → State
  | 0, s => s
  | n + 1, s =>
    match s.pkg.oftAhead.find? fun q => q.2.num == s.pkg.oftNext.getD (frameStream q.2) 0 && !s.frameHeld q.2 with
    | none => s
    | some q => State.oftDrain n ((s.modPkg fun p =>
        { p with oftAhead := p.oftAhead.erase q, oftNext := p.oftNext.put 0 (frameStream q.2) (q.2.num + 1) }).oftPerform q.1.toNat q.2)
/-- A frame under another EtherType or with more than 4,096 payload bytes is dropped and counted; a duplicate is discarded; one that comes
before its turn waits (R16, R18, R20). -/
def execOftFrameReceive (port : BitVec 3) (f : PortFrame) (s : State) : Out :=
  let p := port.toNat
  .next (if !s.portUp p then s
    else match f with
      | .garbled => s.ioField (portReg p) 5 1 1
      | .frame f =>
        if f.etype.toNat ≠ s.ioBits 0x0410 0 16 ∨ 4096 < oftPayload f.body then s.ioCount (portReg p) 16 16
        else if f.num < s.pkg.oftNext.getD (frameStream f) 0 || s.pkg.oftAhead.any (fun q => (frameStream q.2) == (frameStream f) && q.2.num == f.num) then s
        else (s.modPkg fun q => { q with oftAhead := q.oftAhead ++ [(port, f)] }).oftDrain (s.pkg.oftAhead.length + 1))

/-- The increment of a put whose bytes have all been performed, or its discard; those of one stream in their order (R19, R20). -/
def execOftPutFlagIncrement (k : Nat) (s : State) : Out :=
  .next (match s.pkg.incs[k]? with
    | none => s
    | some i =>
      if (s.pkg.incs.take k).any fun j => j.src == i.src && j.from' == i.from' && j.cls == i.cls then s
      else (s.modPkg fun q => { q with incs := q.incs.take k ++ q.incs.drop (k + 1) }).incDone i)

/-- A frame that was lost is sent again, as it was. -/
def execOftRetransmit (k : Nat) (s : State) : Out :=
  .next (match s.out[k]? with
    | some (ch, b) => if ch = chOft && s.oftLocked then s.send chOft b else s
    | none => s)
/-- The k-th sent command that is not answered fails (R21). -/
def execOftAckTimeout (k : Nat) (s : State) : Out :=
  let l := s.cores.flatMap fun q => (q.2.cmds.filter fun c => c.isNet && c.sent).map fun c => (q.1, c)
  .next (match l[k]? with
    | some (core, c) => if c.isPut then s.endCmd core c 0x282#10 0 0 else s.getDone core c 0x282
    | none => s.modPkg fun p => { p with loose := p.loose.eraseIdx (k - l.length) })

/-- An OFT command cannot be sent now: no node id, or its pair waits for a failover (R20, R22). -/
def State.netWaits (s : State) (k : Cmd) : Bool :=
  !s.oftLocked || (match s.portFor (dNode k.desc) k.cls with | .ok none => true | _ => false)
/-- Transfers of 256 bytes that a command makes: of the bytes that it moves before a cause ends it (R84, R415). -/
def State.partsOf (s : State) (core : Nat) (k : Cmd) : Nat :=
  let n := (s.core core).moveSize k
  let s := s.windowsFor core k
  let all (g : Gathered) : Nat := g.runs.foldl (fun t r => t + r.2.2.length) 0
  let moved : Nat := match k.kind with
    | .stfl wins inv => (s.flushWins core wins inv).1.2
    | .cnget => if (s.portFor (dNode k.desc) k.cls).toOption.isNone then 0 else n
    | .cnput => if (s.portFor (dNode k.desc) k.cls).toOption.isNone then 0 else all (s.gatherFor core k).1
    | .tldi .. => all (s.gatherFor core k).1
    | .tsti _ _ _ spc => let (g, s) := s.gatherFor core k; (s.scatterRuns core k (if spc then 1 else 0) g.runs g.vas).1.2
    | _ => let (g, s) := s.gatherFor core k; (s.scatterRuns core k (dDsp k.desc) g.runs g.vas).1.2
  (min n moved + 255) / 256
/-- The k-th command of a core goes on, when its turn has come: a released one starts once its engine has room (R414); then it starts its
next transfer of 256 bytes (R84, R87); with the last it completes, or is sent (R18, R415). None starts while a key command holds accesses
back (R62). -/
def execCopyComplete (core k : Nat) (s : State) : Out :=
  .next (match (s.core core).cmds[k]? with
    | some c =>
      if c.released && !c.started then (if (s.core core).engineFree c && s.pkg.keyOp.isEmpty then s.beginCmd core c.seq else s)
      else if !s.cmdReady core c || c.sent || (s.core core).enginesHeld || (c.isNet && s.netWaits c) then s
      else
        let n := c.parts.getD (s.partsOf core c)
        let s := if c.moved < n then s.spend core (engUnits 4) false else s
        if c.moved + 1 < n then
          s.modCore core fun x => { x with cmds := x.cmds.map fun y => if y.seq = c.seq then { y with moved := y.moved + 1, parts := some n } else y }
        else if c.isNet then s.netSend core c else s.copyDone core c
    | none => s)

/-! The host port (R28-R31, R65). -/

/-- The host key table's slot for an address, when it may be used, or a command is about to change that (R62, R65); the dump granule bypasses
it for reads (R72). -/
def State.hostSlot (s : State) (pa : Nat) : Option Nat :=
  let e := s.ioGet (0x15000 + 8 * (pa / 2 ^ 29))
  if e.getLsbD 6 && (s.keyUsable (e.toNat % 64) || s.keyBusy (e.toNat % 64)) then some (e.toNat % 64) else none
def State.inDump (s : State) (pa : Nat) : Bool := s.ioBits 0x0800 29 23 == pa / 2 ^ 29

/-- A host read past L2 finds the errors of the HBM words that it reads (R142). Which record the spec means for an uncorrectable one it does
not say: here kind 0x07, as for a fill (DESIGN CHOICE, log 93). -/
def State.hostFinds (s : State) (k : Nat) : State :=
  if errIn s.hbmErr k then s.lineRecord 7 (2 * 2 ^ (k % 2)) 0 64 (k / 2) 0
  else if errIn s.hbmCor k then s.lineRecord 1 (2 * 2 ^ (k % 2)) 0 64 (k / 2) 0 else s
/-- A host read of one line: apply, serve from L2 where its sectors are valid, else from its tier under the key, as poison under isolation,
and change nothing in L2 (R30, R45, R60). -/
def State.hostRead (s : State) (pa n : Nat) (key : Option (BitVec 512)) : (Bool × List Byte) × State :=
  let secs := sectorsOf pa n
  let s := (linesOf pa n).foldl (fun s l => s.readySlice l) s
  let s := if s.pkg.sweep && decide (tierOf pa = .tier2) then s.sweepDone else s
  let s := secs.foldl (fun s k => s.recall k 1000) s
  let s := (linesOf pa n).foldl (fun s l => s.applyLine l) s
  let s := secs.foldl (fun s k => match s.lineOf (k / 2) with
    | some (_, l) => if l.valid.getLsbD (k % 2) then s.checkErr (k / 2) (k % 2) { ctx := 64, key := 64, secs := 3 } else s
    | none => s) s
  let iso := decide (tierOf pa = .tier2) && s.iso
  let s := if iso then s else (secs.filter fun k => !s.inL2 k).foldl State.hostFinds s
  let bad := s.linkCause pa != 0 || secs.any fun k => s.poison.has k || (!s.inL2 k && (iso || errIn s.hbmErr k))
  ((bad, ((secs.flatMap fun k => bytesOf 32 (if s.inL2 k then s.sectorOf k else s.readUnder k key).toNat).drop (pa % 32)).take n), s)

/-- A host address of CXL.mem as the device's own: the HDM decoder's base is taken off (R29). -/
def State.hdm (s : State) (a : BitVec 52) : Nat := (a - s.pkg.hdmBase).toNat
/-- HBM is decoded; a read of tier 2 is served in the clear, since the table of R65 names no slot for it (log 68). -/
def execHostMemRead (pa : BitVec 52) (n : Nat) (s : State) : Out :=
  let a := s.hdm pa
  let tier := tierOf a
  if !s.pkg.hostUp ∨ !l2Cached a ∨ tierOf (a + n - 1) ≠ tier then .next s
  else
    let slot := if s.inDump a ∨ tier = .tier2 then some 64 else s.hostSlot a
    match slot with
    | none => .next (s.send chHost (bytesOf 8 a ++ bytesOf 1 1 ++ List.replicate n 0))
    | some k =>
      if s.keyBusy k then .next (s.holdFor (.hostMemRead pa n))
      else
        let ((bad, b), s) := s.hostRead a n (s.keyOf k)
        let s := s.modPkg fun p => { p with hostHeld := (linesOf a n).foldl (fun m l => m.ins l ()) p.hostHeld }
        .next (s.send chHost (bytesOf 8 a ++ bytesOf 1 (if bad then 1 else 0) ++ b))
def execHostMemWrite (pa : BitVec 52) (data : List Byte) (s : State) : Out :=
  let a := s.hdm pa
  if !s.pkg.hostUp ∨ tierOf a ≠ .hbm ∨ tierOf (a + data.length - 1) ≠ .hbm then .next s
  else match s.hostSlot a with
    | none => .next (s.ioCount 0x0610 0 16)
    | some k =>
      if s.keyBusy k then .next (s.holdFor (.hostMemWrite pa data))
      else .next (s.performWrite ⟨264, 64, true⟩ a (2 ^ data.length - 1) data k).2

/-- The host gives a line up, and the write that waited for it is performed (R30). -/
def execBackInvalidateResponse (line : BitVec 46) (s : State) : Out :=
  let l := line.toNat
  let s := s.modPkg fun p => { p with hostHeld := p.hostHeld.del l, snooped := p.snooped.del l }
  .next (match (List.range s.flight.length).find? fun k => match s.flight[k]? with
      | some f => f.rel.piece == some (2 * l) || f.rel.piece == some (2 * l + 1)
      | none => false with
    | some k => s.sliceAccess k
    | none => s)

/-- A host snoop takes a line from the host-line cache and ends sleeps on it (R29, R37). -/
def execHostSnoop (line : BitVec 46) (s : State) : Out :=
  .next ((s.modPkg fun p => { p with hostCache := p.hostCache.del line.toNat }).wake line.toNat)
/-- The host grants a line with its bytes, which ends sleeps on it (R29, R37, R152). Which line leaves a full cache is this model's
choice (hostAdd; log 70). -/
def execHostLineCacheFill (line : BitVec 46) (excl : Bool) (data : List Byte) (s : State) : Out :=
  let a := line.toNat * 64
  if !s.pkg.hostUp ∨ tierOf a ≠ .host then .next s
  else
    let s := s.writePhys a (data.take 64)
    .next (((s.modPkg fun p => { p with hostCache := p.hostCache.del line.toNat }).hostEnter line.toNat excl).wake line.toNat)

/-- A load ends with a cause. -/
def State.failLoad (s : State) (core : Nat) (l : PLoad) (cause : Cause) : State :=
  let s := s.modCore core fun c => { c with loads := c.loads.filter (·.seq != l.seq) }.tokDone l.tok cause false
  s.arriveLate core l.arr l.seq l.relN 0
/-- The tier of a virtual address of a core's context, when its page has a leaf. -/
def State.tierAt (s : State) (core va : Nat) : Tier :=
  if s.ctxOf core = 64 then tierOf va
  else match s.walkVa (s.ctxOf core) va with
    | .ok (l, _) => tierOf (l.phys va)
    | .error _ => .none
/-- A command that has still to read or write host memory. -/
def State.usesHost (s : State) (core : Nat) (k : Cmd) : Bool :=
  let at' (o : Int) : Bool := s.tierAt core (wrapI 64 o) == .host
  k.started && !k.sent && (match k.kind with
    | .tldi _ a _ spc => !spc && at' a.toNat
    | .tsti _ a _ spc => !spc && at' a.toNat
    | .stfl .. => false
    | _ => (dSsp k.desc == 0 && !k.captured && k.sources.any at') || (dDsp k.desc == 0 && k.dests.any at'))
/-- Pieces in host memory. -/
def inHost (ps : List Piece) : Bool := ps.any fun p => tierOf p.pa == .host
/-- Accesses of a core to host memory that are under way, in this order: loads, commands, watches, atomics, queue entries, released
stores. -/
inductive HostAcc where
  | load (l : PLoad) | cmd (c : Cmd) | watch (w : Watch) | atom (a : PAtom) | queue (e : DqEntry) | rel (k : Nat) (f : Flight)
def State.hostAccesses (s : State) (core : Nat) : List HostAcc :=
  let c := s.core core
  ((c.loads.filter fun l => inHost l.pieces).map .load) ++ ((c.cmds.filter fun k => s.usesHost core k).map .cmd) ++
    ((c.watches.filter fun w => tierOf w.pa == .host).map .watch) ++ ((c.atoms.filter fun a => tierOf a.pa == .host).map .atom) ++
    ((c.dq.filter fun e => e.data.isNone && inHost e.pieces).map .queue) ++
    (((List.range s.flight.length).zip s.flight).filterMap fun q => match q.2.rel.piece with
      | some p => if q.2.core = core ∧ tierOf (p * 32) = .host then some (.rel q.1 q.2) else none
      | none => none)
/-- Such an access ends with a cause (R31, R49). -/
def State.hostFail (s : State) (core : Nat) (cause : Cause) : HostAcc → State
  | .load l => s.failLoad core l cause
  | .cmd c => s.endCmd core c cause 0 0
  | .watch w => s.modCore core fun c => { c with watches := c.watches.map fun x => if x.seq = w.seq then { x with asleep := false, cause } else x }
  | .atom a => s.finishAtom core { a with cause }
  | .queue e => s.modCore core fun c =>
    { c with dq := c.dq.map fun (d : DqEntry) => if d.seq = e.seq then { d with data := some 0, cause } else d }.tokDone e.tok 0 false
  | .rel k f => (s.dropFlight k).relFail f cause
/-- The k-th access of a core to host memory has taken 1 ms, or its completer gave an error (R31). -/
def execHostAccessTimeout (core k : Nat) (s : State) : Out :=
  .next (match (s.hostAccesses core)[k]? with
    | some a => s.hostFail core 0x240#10 a
    -- beyond those: the access that the core makes next within a step (log 92)
    | none => if core < 264 then s.modCore core fun c => { c with hostSlow := true } else s)
/-- Host-memory accesses under way end with 0x244, and so do sleeps on host lines (R31, R329). -/
def execHostLinkDown (s : State) : Out :=
  let s := s.modPkg fun p => { p with hostUp := false, hostCache := [], hostHeld := [], snooped := [] }
  .next (s.cores.foldl (fun s q => (s.hostAccesses q.1).foldl (fun s a => match a with
    | .rel _ _ => s
    | a => s.hostFail q.1 0x244#10 a) s) s)
/-- Widths 16, 8, 4 at 128, 64 or 32 GT/s (R28). -/
def execHostLinkTrain (width : BitVec 5) (rate : BitVec 8) (s : State) : Out :=
  .next (if [16, 8, 4].contains width.toNat && [128, 64, 32].contains rate.toNat then
    s.modPkg fun p => { p with hostUp := true, hostWidth := width, hostRate := rate } else s)

/-! Launch streams (R32, R36). -/

/-- The address of a stream: of host memory when HOST is 1 (R32, R124). -/
def State.streamBase (s : State) (n : Nat) : Nat :=
  s.ioBits (0x1000 + 16 * n) 7 45 * 128 + if (s.ioGet (0x1008 + 16 * n)).getLsbD 13 then 0xC000000000000 else 0
/-- The serving control core reads HEAD at the enable. Which core that is, firmware configures (R38): here core 256 (DESIGN CHOICE,
log 73). Of a read that fails the spec does not say what follows: a link that is down gives HEAD = 0, poison the bytes that were read
(DESIGN CHOICE, log 102). -/
def State.streamOn (s : State) (n : Nat) : State :=
  let a := s.streamBase n + 0x40
  let h := BitVec.ofNat 64 (natOf ((s.fetchData ⟨256, 64, true⟩ a 8 64 2).1.2))
  (s.fetchData ⟨256, 64, true⟩ a 8 64 2).2.modPkg fun p => { p with streamHead := p.streamHead.ins n h }
def execStreamEnable (n : BitVec 6) (s : State) : Out :=
  let o := 0x1008 + 16 * n.toNat
  .next (if (s.ioGet o).getLsbD 14 then s else (s.ioField o 14 1 1).streamOn n.toNat)

/-! The expander port (R43-R48). -/

def State.expUp (s : State) : Bool := (s.ioGet 0x0508).getLsbD 1
def execExpPortIsolate (s : State) : Out :=
  .next (if !s.iso then ((s.ioField 0x0508 0 1 1).msi 250).alert 3 else s)
/-- ISO is cleared while UP is 1: WDROP is cleared and isolation poison has to go (R45, R47). -/
def State.endIsolation (s : State) : State :=
  if s.expUp && s.iso then ((s.ioField 0x0508 0 1 0).ioField 0x0508 16 16 0).modPkg fun p => { p with sweep := true } else s
def execExpIsolationEnd (s : State) : Out := .next s.endIsolation
def execExpPoisonSweepDone (s : State) : Out := .next (if s.pkg.sweep then s.sweepDone else s)
/-- RETRAIN reads 1 until training ends; the link is down meanwhile. The spec does not say what RETRAIN does while EN is 0: here the
write is ignored (DESIGN CHOICE, log 74). -/
def State.retrain (s : State) : State :=
  if (s.ioGet 0x0500).getLsbD 0 then (s.ioField 0x0500 1 1 1).ioField 0x0508 1 3 0 else s
def execExpRetrain (s : State) : Out := .next s.retrain
def execExpLinkChange (up : Bool) (speed : BitVec 2) (capacity : Nat) (s : State) : Out :=
  .next (if up then
      (if (s.ioGet 0x0500).getLsbD 0 && speed != 0 then
        { ((s.ioField 0x0500 1 1 0).ioField 0x0508 1 1 1).ioField 0x0508 2 2 speed.toNat with expCap := min capacity (2 ^ 42) } else s)
    else s.ioField 0x0508 1 3 0)
/-- The context and the key slot of a read that waits for a line. -/
def State.lineReader (s : State) (line : Nat) : Nat × Nat :=
  let hit (core : Nat) (ps : List Piece) : Option (Nat × Nat) := (ps.find? fun p => p.pa / 64 == line).map fun p => (s.ctxOf core, p.key)
  (s.cores.findSome? fun q => (q.2.loads.findSome? fun l => hit q.1 l.pieces).orElse fun _ =>
    (q.2.aq.findSome? fun l => hit q.1 l.pieces).orElse fun _ =>
    (q.2.dq.findSome? fun l => if l.data.isNone then hit q.1 l.pieces else none).orElse fun _ =>
      -- a command that has started and still reads it (R459)
      (q.2.cmds.filter fun k => k.started && !k.sent && !k.captured && k.readsGlobal).findSome? fun k =>
        (s.globalsOf q.1 k).findSome? fun g => match (s.xlate (s.mainWho q.1) .load g.1 g.2).1 with | .ok ps => hit q.1 ps | .error _ => none).getD (64, 64)
/-- The expander returns a line, perhaps poisoned, which fills the sectors that L2 does not hold, under the key of the page (R44, R60,
R141); a fill of poison is recorded (R148, R459). -/
def execTier2ReadResponse (pa : BitVec 52) (poison : Bool) (s : State) : Out :=
  let l := pa.toNat / 64
  .next (if tierOf (l * 64) ≠ .tier2 ∨ !s.expUp ∨ s.iso ∨ s.pkg.sweep then s
    else
      let valid : BitVec 2 := match s.lineOf l with | some (_, x) => x.valid | none => 0
      let (ctx, key) := s.lineReader l
      let s := s.l2Read (l * 64) 64 ctx key 2
      if poison ∧ valid ≠ 3 then
        let s := (ones (~~~valid)).foldl (fun s i => let s := s.keepBelow (2 * l + i); { s with poison := s.poison.ins (2 * l + i) () }) s
        s.lineRecord 7 (2 * (~~~valid).toNat) 0 ctx l ((s.wayOf l).getD 0)
      else s)

end Sys2Proof.Machine
end

