-- ==== Sys2Proof/Machine/Power.lean ====
section
/-! DEFINITION. Operating points and settling windows (R75-R82), the energy bucket (R83-R88), rail and thermal limits (R89-R92),
package and partition caps (R93-R97). -/
namespace Sys2Proof.Machine

/-! Operating points (R77-R81). -/

/-- The change of the effective point that the request and the ceiling ask for opens a window: a program window for a bundle's
request, else a hardware window. The core runs at the lower frequency meanwhile (R78-R80). -/
def Core.opSettle (c : Core) (id : Nat) (program : Bool) : Core :=
  let e := if c.opReq.toNat ≤ c.opCeil.toNat then c.opReq else c.opCeil
  if e = c.opEff then c
  else
    let old := Config.stand id c.opEff.toNat
    let new := Config.stand id e.toNat
    { c with opEff := e, mhz := if old.toNat ≤ new.toNat then old else new, opPwin := program, opHwin := !program }
/-- A bundle whose change bit is set (R77, R79, R80): the cause 0x008 is raised before this. -/
def Core.opRequest (c : Core) (id : Nat) (p : BitVec 3) : Core :=
  if c.opPwin then c
  else if c.opHwin then { c with opKept := some p }
  else { c with opReq := p }.opSettle id true
/-- The ceiling that the last step gave, in force or waiting. -/
def Core.opCeilNext (c : Core) : BitVec 3 := c.opWait.getD c.opCeil
/-- A ceiling changes; it waits while a program window is open (R80). For one that arrives in a hardware window the spec gives no rule: here
it waits too, and CEIL shows the old value until then (DESIGN CHOICE, log 95). -/
def Core.opLimit (c : Core) (id : Nat) (n : BitVec 3) : Core :=
  if c.opPwin || c.opHwin then { c with opWait := some n } else { c with opCeil := n }.opSettle id false
/-- The window's time is over: the new frequency; then the request that was kept and the ceiling that waits take effect (R80). A change that
the ceiling makes opens a hardware window, one that only the request makes a program window (R79, R80). Where both change the point at once
the spec does not say which kind opens: here one hardware window serves both (DESIGN CHOICE, log 111). -/
def Core.opWindowEnd (c : Core) (id : Nat) : Core :=
  if !(c.opPwin || c.opHwin) then c
  else
    let c := { c with opPwin := false, opHwin := false, mhz := Config.stand id c.opEff.toNat }
    let byCeil := (if c.opReq.toNat ≤ c.opCeilNext.toNat then c.opReq else c.opCeilNext) != c.opEff
    { c with opReq := c.opKept.getD c.opReq, opKept := none, opCeil := c.opCeilNext, opWait := none }.opSettle id !byCeil
def execSettlingWindowEnd (core : Nat) (s : State) : Out := .next (s.modCore core fun c => c.opWindowEnd core)

/-! Energy (R83-R88). -/

/-- One core cycle drains both buckets (R86); once the level has fallen to half of CAP the next stall gives notice again (R88). -/
def Core.drain (c : Core) : Core :=
  let d : Rat := (c.eLeak : Rat) / (c.mhz.toNat : Rat)
  let low (x y : Rat) : Rat := if x = 0 ∨ x < y then 0 else x - y
  let half : Rat := (c.eCap : Rat) / 2
  let e := low c.elvl (d * 15 / 16)
  { c with elvl := e, elvlS := low c.elvlS (d / 16), earm := c.earm || decide (half < c.elvl ∧ e ≤ half) }
/-- A cycle passes for the cores whose main sequencer issues nothing in it (R86). -/
def State.idleCycle (s : State) : State :=
  { s with cores := s.cores.map fun (q : Nat × Core) => if q.2.run = .running then q else (q.1, q.2.drain) }
/-- The rail of a core's own die or of the control cores, and the rails of all compute cores (R90). -/
def railsOf (core : Nat) : List Nat := if isCtl core then [6] else [core / 64, 4, 5]
def railCores (r : Nat) : List Nat :=
  if r < 4 then (List.range 64).map (64 * r + ·) else if r = 6 then (List.range 8).map (256 + ·) else List.range 256
/-- An energy stall is due at a group boundary (R87, R90). -/
def State.energyHeld (s : State) (core : Nat) : Bool :=
  let c := s.core core
  decide ((c.eCap : Rat) < c.elvl) || (railsOf core).any fun r => s.pkg.railOver.has r
/-- The first energy stall since the level was low gives notice 0x180 (R88). -/
def State.energyStall (s : State) (core : Nat) : State :=
  if (s.core core).earm then (s.notice core 0).modCore core fun c => { c with earm := false } else s
/-! Partitions (R94). -/

def State.partOf (s : State) (core : Nat) : Nat := s.ioBits (0x4200 + 8 * (core / 16)) (4 * (core % 16)) 3
def State.partEn (s : State) (p : Nat) : Bool := (s.ioGet (0x4100 + 8 * p)).getLsbD 0
def State.partRank (s : State) (p : Nat) : Nat := s.ioBits (0x4100 + 8 * p) 8 3
/-- The start number of a core's cluster, and whether it has powered up (R26). -/
def clusterOf (core : Nat) : Nat := core % 64 / 4 * 4 + core / 64
def State.coreOn (s : State) (core : Nat) : Bool := isCtl core || s.pkg.powered.getLsbD (clusterOf core)

/-- ACTIVE, SEEN and BIND of a partition after bits of ACTIVE change (R96). -/
def State.capCause (s : State) (p active : Nat) : State :=
  let o := 0x4180 + 8 * p
  let seen := s.ioBits o 16 5 ||| active
  let bind := if active.testBit 1 then 2 else if active.testBit 2 then 3 else if active.testBit 3 then 4 else if active.testBit 4 then 5 else if active.testBit 0 then 1 else 0
  ((s.ioField o 8 5 active).ioField o 16 5 seen).ioField o 0 3 bind
/-- A grant or ceiling of a partition fell or rose (R97). -/
def State.partNotice (s : State) (p : Nat) (fell : Bool) : State :=
  let s := ((List.range 256).filter fun c => s.partOf c == p).foldl (fun s c => s.notice c (if fell then 2 else 3)) s
  if fell then (s.msi 249).alert 2 else s

/-! Ceilings (R90, R92). -/

/-- One step on some cores: the partition next in rank order whose ceilings can move, all its cores by one point. The control cores
move together. R90 does not say whether a rank's partition goes down to OP0 before the next rank moves, or the partitions take turns: here the
first partition in rank order that can still move takes every step (DESIGN CHOICE, log 97). A core has one ceiling (R82): the spec does
not say how the steps of a rail and of a die's heat combine, and here both move that one (DESIGN CHOICE, log 79). -/
def State.ceilingStep (s : State) (cores : List Nat) (lower : Bool) (cause : Nat) : State :=
  let movable (c : Nat) : Bool := if lower then (s.core c).opCeilNext != 0 else (s.core c).opCeilNext != 7
  let move (s : State) (l : List Nat) : State := l.foldl (fun s c =>
    if movable c then s.modCore c fun k => k.opLimit c (if lower then k.opCeilNext - 1 else k.opCeilNext + 1) else s) s
  let ctl := cores.filter isCtl
  if !ctl.isEmpty then move s ctl
  else
    let parts := (List.range 8).filter fun p => cores.any fun c => s.partOf c == p && movable c
    let key (p : Nat) : Nat := if lower then s.partRank p else 7 - s.partRank p
    match parts.foldl (fun (b : Option Nat) p => match b with | some q => if key p < key q then some p else b | none => some p) none with
    | none => s
    | some p =>
      let s := move s (cores.filter fun c => s.partOf c == p)
      let active := s.ioBits (0x4180 + 8 * p) 8 5
      let free := (List.range 256).all fun c => s.partOf c != p || (s.core c).opCeilNext == 7
      let active := if lower then active ||| 2 ^ cause else if free then active &&& 0x19 else active
      (s.capCause p active).partNotice p lower

def railReg (r : Nat) : Nat := 0x4040 + 8 * r
/-- EFF := LIMIT × PHOK ÷ PHTOT (R89). -/
def State.railEff (s : State) (r : Nat) : State :=
  s.ioField (railReg r) 16 16 (s.ioBits (railReg r) 0 16 * s.ioBits (railReg r) 32 8 / s.ioBits (railReg r) 40 8)
/-- Forced energy stalls until the current is under EFF again (R90). -/
def execRailOvercurrent (rail : BitVec 3) (s : State) : Out :=
  .next (if rail.toNat < 7 then s.modPkg fun p => { p with railOver := p.railOver.ins rail.toNat () } else s)
/-- 10 µs later: one step down while the current is over EFF; once it stays under EFF the forced stalls end (R90). -/
def execRailCeilingLowerStep (rail : RailCurrent) (s : State) : Out :=
  let r := rail.rail.toNat
  .next (if r < 7 && s.pkg.railOver.has r then
    (if rail.high then s.ceilingStep (railCores r) true 1 else s.modPkg fun p => { p with railOver := p.railOver.del r }) else s)
/-- One step up under 90 % of EFF, after the forced stalls have ended. -/
def execRailCeilingRaiseStep (rail : BitVec 3) (s : State) : Out :=
  .next (if rail.toNat < 7 && !s.pkg.railOver.has rail.toNat then s.ceilingStep (railCores rail.toNat) false 1 else s)
/-- A lost phase (R91). -/
def execPhaseFail (rail : BitVec 3) (s : State) : Out :=
  let r := rail.toNat
  .next (if 7 ≤ r ∨ s.ioBits (railReg r) 32 8 = 0 then s
    else
      let s := (s.ioField (railReg r) 32 8 (s.ioBits (railReg r) 32 8 - 1)).railEff r
      let s := (s.ioField 0x4008 r 1 1).ioField 0x4008 (8 + r) 1 1
      (railCores r).foldl (fun s c => s.notice c 1) ((s.msi 248).alert 1))
/-- A die's sensor is read: TEMP is the hottest of them (R92). -/
def State.sensorRead (s : State) (die : BitVec 2) (temp : BitVec 8) : State :=
  let s := s.modPkg fun p => { p with dieTemp := p.dieTemp.put 0 die.toNat temp }
  s.ioField 0x4018 24 8 (s.pkg.dieTemp.foldl (fun t q => max t q.2.toNat) 0)

/-! Grants (R93, R95, R96). -/

/-- The package limit in force. -/
def State.limit (s : State) : Nat :=
  let tdp := min (s.ioBits 0x4000 0 12) 2100
  let hall := if s.pkg.capHall = 0 then tdp else min tdp s.pkg.capHall
  if s.pkg.capHost = 0 then hall else min hall s.pkg.capHost
/-- A partition in the computation: rank, bounds and grant. -/
structure Grant where
  p : Nat
  rank : Nat
  pmax : Rat
  pmin : Rat
  g : Rat
deriving DecidableEq, Repr
/-- The inner loop of one rank: what is left of the excess, and the grants. -/
def cutRank (r : Nat) : Nat → Rat → List Grant → Rat × List Grant
  | 0, x, l => (x, l)
  | n + 1, x, l =>
    let inQ (q : Grant) : Bool := q.rank == r && decide (q.pmin < q.g)
    if x ≤ 0 ∨ !l.any inQ then (x, l)
    else
      let sum := l.foldl (fun t q => if inQ q then t + q.pmax else t) 0
      let cut (q : Grant) : Rat := if inQ q then (let a := x * q.pmax / sum; let b := q.g - q.pmin; if a ≤ b then a else b) else 0
      cutRank r n (x - l.foldl (fun t q => t + cut q) 0) (l.map fun q => { q with g := q.g - cut q })
/-- Grants in whole watts. -/
def grantsOf (a : Int) (l : List Grant) : List (Nat × Nat) :=
  let x : Rat := l.foldl (fun t q => t + q.pmax) (0 : Rat) - (a : Rat)
  let (x, l2) := (List.range 8).foldl (fun (q : Rat × List Grant) r => cutRank r 9 q.1 q.2) (x, l)
  let mins := l.foldl (fun t q => t + q.pmin) (0 : Rat)
  if a ≤ 0 then l.map fun q => (q.p, 0)
  else if 0 < x then l.map fun q => (q.p, (q.pmin * (a : Rat) / mins).floor.toNat)
  else l2.map fun q => (q.p, q.g.floor.toNat)

/-- The leak that a core's grant allows: unlimited until the first computation (log 33). -/
def State.grantLeak (s : State) (core : Nat) : Nat :=
  if isCtl core ∨ !s.pkg.granted then 0xFFFFF
  else
    let p := s.partOf core
    let n := ((List.range 256).filter fun c => s.partOf c == p && s.coreOn c).length
    min 0xFFFFF (s.ioBits (0x4140 + 8 * p) 0 12 * 1000000 / (n * Config.eqPj.toNat))
/-- EPROF.LEAK of a core: the lesser of its kernel's leak and its grant's (R95). A core with no chunk has no kernel, of which R95 does not
speak: here the grant alone counts (DESIGN CHOICE, log 112). -/
def State.setLeak (s : State) (core : Nat) : State :=
  let g := s.grantLeak core
  s.modCore core fun c =>
    let k := if c.chunk.isSome then c.kernel.leak.toNat else 0xFFFFF
    { c with eprof := setBits c.eprof 44 20 (min k g) }

/-- The power manager's computation. The first one sends no notice, vector or interrupt: the spec gives no grant before it that could
fall or rise (R95, R97; DESIGN CHOICE, log 81). Nor does it say what PART_GRANT reads before it, here 0, or what PART_GRANT and CAP_CAUSE
of a partition that is disabled later read, here what its last computation left (DESIGN CHOICE, log 99). -/
def State.recompute (s : State) (used : Nat) : State :=
  let l := s.limit
  let reg (p : Nat) : Nat := 0x4100 + 8 * p
  let gs := ((List.range 8).filter fun p => s.partEn p).map fun p =>
    let m : Rat := (s.ioBits (reg p) 32 12 : Nat)
    (⟨p, s.partRank p, m, ((s.ioBits (reg p) 16 12 : Nat) : Rat), m⟩ : Grant)
  let first := !s.pkg.granted
  let s := s.modPkg fun q => { q with granted := true, used }
  let s := (grantsOf ((l : Int) - used) gs).foldl (fun s (q : Nat × Nat) =>
    let old := s.ioBits (0x4140 + 8 * q.1) 0 12
    let s := s.ioField (0x4140 + 8 * q.1) 0 12 q.2
    let bound := decide (q.2 < s.ioBits (reg q.1) 32 12)
    let tdp := min (s.ioBits 0x4000 0 12) 2100
    let pkgBits := if bound then (if tdp = l then 1 else 0) + (if s.pkg.capHall ≠ 0 ∧ s.pkg.capHall = l then 8 else 0) +
      (if s.pkg.capHost ≠ 0 ∧ s.pkg.capHost = l then 16 else 0) else 0
    let s := s.capCause q.1 ((s.ioBits (0x4180 + 8 * q.1) 8 5 &&& 6) ||| pkgBits)
    if first ∨ q.2 = old then s else s.partNotice q.1 (decide (q.2 < old))) s
  ((List.range 256).filter fun c => s.coreOn c && s.partEn (s.partOf c)).foldl (fun s c => s.setLeak c) s
def execGrantRecompute (used : Nat) (s : State) : Out := .next (s.recompute used)

end Sys2Proof.Machine
end

