-- ==== Sys2Proof/Machine/Distributor.lean ====
section
/-! DEFINITION. The Distributor: launches, placement, chunks and tile runs, tail tiles, gangs and barriers (R99-R122, R294, R330),
completion (R40-R42), pre-emption and switched-out state (R113, R235). -/
namespace Sys2Proof.Machine

/-! Reading a launch (R34, R294, R330). -/

def distributor : Agent := ⟨265, 64, true⟩
/-- Bytes at a virtual address of a context, read with supervisor privilege: the bytes or the status of the launch (R294). -/
def State.readVa (s : State) (ctx va n : Nat) : Except Cause (List Byte) × State :=
  match s.xlate ⟨ctx, true, 265⟩ .load va n with
  | (.error t, s) => (.error t.cause, s)
  | (.ok ps, s) =>
    let (c, b, s) := ps.foldl (fun (q : Cause × List Byte × State) p =>
      let ((c, b), s) := q.2.2.fetchData distributor p.pa p.n p.key 2
      (if q.1 = 0 then c else q.1, q.2.1 ++ b, s)) (0, [], s)
    (if c = 0 then .ok b else .error c, s)

/-- R100 on NLEV and KINDS: present levels from 0 on, D before C before T, 0xFF for the rest. -/
def levelsOk (nlev : Nat) (kinds : List Nat) : Bool :=
  decide (1 ≤ nlev ∧ nlev ≤ 6) && (kinds.take nlev).all (fun k => decide (k ≤ 2)) && (kinds.drop nlev).all (fun k => k == 255) &&
    ((kinds.take nlev).zip ((kinds.take nlev).drop 1)).all fun q => decide (q.1 ≤ q.2)
/-- The kernel of a descriptor, or none when a check of R294 fails. -/
def kernelOf (d : List Byte) (ctx : Nat) : Option (Kernel × Nat × Nat) :=
  let f (o n : Nat) : Nat := natOf ((d.drop o).take n)
  let kinds := (List.range 6).map fun i => f (0x10 + i) 1
  if f 0 4 ≠ 0x444B394F ∨ f 4 1 ≠ ctx ∨ !levelsOk (f 5 1) kinds ∨ 1024 < f 0x16 2 ∨ 2 ^ 25 ≤ f 0x18 4 ∨ 2 ^ 20 ≤ f 0x20 4 ∨ f 0x24 4 ≠ 0 ∨ f 0x60 160 ≠ 0 then none
  else some ({ entry := BitVec.ofNat 64 (f 8 8), nlev := f 5 1, kinds := kinds.take (f 5 1), bmask := BitVec.ofNat 16 (f 6 2)
               latdecl := BitVec.ofNat 32 (f 0x18 4), cap := BitVec.ofNat 32 (f 0x1C 4), leak := BitVec.ofNat 20 (f 0x20 4) }, f 0x28 8, f 0x16 2)
/-- The descriptor that KERNEL names, with the place and number of its plan words. -/
def State.readDesc (s : State) (ctx va : Nat) : Except Nat (Kernel × Nat × Nat) × State :=
  if va % 256 ≠ 0 then (.error 0x8003, s)
  else match s.readVa ctx va 256 with
    | (.error c, s) => (.error c.toNat, s)
    | (.ok d, s) =>
      match kernelOf d ctx with
      | none => (.error 0x8003, s)
      | some r => (.ok r, s)
/-- The same with the plan words read. -/
def State.readKernel (s : State) (ctx va : Nat) : Except Nat Kernel × State :=
  match s.readDesc ctx va with
    | (.error e, s) => (.error e, s)
    | (.ok (k, plan, n), s) =>
        if n = 0 then (.ok k, s)
        else match s.readVa ctx plan (8 * n) with
          | (.error c, s) => (.error c.toNat, s)
          | (.ok b, s) => (.ok { k with plan := (List.range n).map fun i => BitVec.ofNat 64 (natOf ((b.drop (8 * i)).take 8)) }, s)

/-- Bounds of the spatial levels of a kind. -/
def Launch.boundsOf (l : Launch) (kinds : List Nat) : List Nat :=
  ((l.kernel.kinds.zip l.bounds).filter fun q => kinds.contains q.1).map Prod.snd
def product (l : List Nat) : Nat := l.foldl (· * ·) 1

/-- The fields of a launch record (R34). -/
def launchOfRecord (b : List Byte) (ctx : Nat) : Launch :=
  let f (o n : Nat) : Nat := natOf ((b.drop o).take n)
  { id := 0, ctx, seq := BitVec.ofNat 32 (f 0 4), prio := f 6 1 % 4
    gang := (f 5 1).testBit 0, feedback := (f 5 1).testBit 1, irq := (f 5 1).testBit 2, ordered := (f 5 1).testBit 3
    bounds := (List.range 6).map fun i => f (0x10 + 8 * i) 8
    arga := BitVec.ofNat 64 (f 0x40 8), argb := BitVec.ofNat 64 (f 0x48 8), caddr := BitVec.ofNat 64 (f 0x50 8)
    cval := BitVec.ofNat 64 (f 0x58 8), vec := f 0x60 2 }
/-- The waiting-launch table is full (R330). -/
def State.tableFull (s : State) : Bool := decide (1024 ≤ (s.pkg.launches.filter fun l => !l.placed && l.status.isNone).length)
/-- A launch record enters the table, with the descriptor that it names (R294, R330). -/
def State.enterRecord (s : State) (b : List Byte) (ctx : Nat) : State :=
  let l := { launchOfRecord b ctx with id := s.pkg.nextLaunch }
  let (k, s) := s.readKernel ctx (natOf ((b.drop 8).take 8))
  let l := match k with
    | .error st => { l with status := some st }
    | .ok k =>
      let l := { l with kernel := k, bounds := l.bounds.take k.nlev }
      if l.bounds.contains 0 then { l with status := some 0 } else l
  s.modPkg fun p => { p with launches := p.launches ++ [l], nextLaunch := p.nextLaunch + 1 }
/-- The Distributor takes a launch: 2 when the record cannot be read, 1 when its table is full, else 0 (R330). -/
def State.acceptLaunch (s : State) (rec : Word) (ctx : Nat) : Nat × State :=
  let a := rec.toNat
  if tierOf a = .none then (2, s)
  else
    let ((c, b), s) := s.fetchData distributor a 128 64 2
    if c ≠ 0 then (2, s) else if s.tableFull then (1, s) else (0, s.enterRecord b ctx)

/-! Splitting (R104-R106). -/

def State.ctxPart (s : State) (ctx : Nat) : Nat := s.ioBits (0x6900 + 8 * ctx) 8 3
def State.eligible (s : State) (ctx : Nat) : List Nat :=
  if s.partEn (s.ctxPart ctx) then (List.range 256).filter fun c => s.coreOn c && s.partOf c == s.ctxPart ctx else []
def State.weight (s : State) (l : Launch) (c : Nat) : Nat :=
  (Config.stand c (s.core c).opEff.toNat).toNat * (if l.feedback then s.ioBits (0x6C00 + 8 * c) 0 10 else 256)
/-- split(n, list, weights, T): the ranges of the members, and where the tail pool starts. -/
def split (n t : Nat) (ms : List (Nat × Nat)) : List (Nat × Nat × Nat) × Nat :=
  let m := n - n * t / 16
  let w := ms.foldl (fun x q => x + q.2) 0
  let (out, _, _) := ms.foldl (fun (q : List (Nat × Nat × Nat) × Nat × Nat) k =>
    let acc := q.2.1 + k.2
    let hi := if w = 0 then m else m * acc / w
    (q.1 ++ [(k.1, q.2.2, hi)], acc, hi)) ([], 0, 0)
  (out, m)
/-- Chunks by core, and tail pools with their cores. -/
def State.splitLaunch (s : State) (l : Launch) : List (Nat × Nat × Nat) × List (List Nat × Nat × Nat) :=
  let cores := s.eligible l.ctx
  let t := if l.gang then 0 else s.ioBits 0x6800 0 4
  let ws (cs : List Nat) : List (Nat × Nat) := cs.map fun c => (c, s.weight l c)
  let some' (r : List (Nat × Nat × Nat)) := r.filter fun q => decide (q.2.1 < q.2.2)
  if !l.kernel.kinds.contains 0 then
    let n := product (l.boundsOf [0, 1])
    let (r, m) := split n t (ws cores)
    (some' r, [(cores, m, n)])
  else
    let nc := product (l.boundsOf [1])
    let dies := (List.range 4).filter fun d => cores.any fun c => c / 64 == d
    let ofDie (d : Nat) : List Nat := cores.filter fun c => c / 64 == d
    let (dr, _) := split (product (l.boundsOf [0])) 0 (dies.map fun d => (d, (ws (ofDie d)).foldl (fun x q => x + q.2) 0))
    (some' dr).foldl (fun (q : List (Nat × Nat × Nat) × List (List Nat × Nat × Nat)) d =>
      let lo := d.2.1 * nc
      let n := (d.2.2 - d.2.1) * nc
      let (r, m) := split n t (ws (ofDie d.1))
      (q.1 ++ (some' r).map (fun x => (x.1, lo + x.2.1, lo + x.2.2)), q.2 ++ [(ofDie d.1, lo + m, lo + n)])) ([], [])

/-! Choosing (R109, R110, R116). -/

def gangMark (id : Nat) : Nat := 1000 + id
def State.modLaunch (s : State) (id : Nat) (f : Launch → Launch) : State :=
  s.modPkg fun p => { p with launches := p.launches.map fun l => if l.id = id then f l else l }
def State.launchOf (s : State) (id : Nat) : Option Launch := s.pkg.launches.find? fun l => l.id == id
/-- Barriers that CTX_BARn names. -/
def State.barsOf (s : State) (ctx : Nat) : List Nat := (List.range 64).filter fun g => (s.ioGet (0x6200 + 8 * ctx)).getLsbD g
/-- A core runs or has queued a chunk of at least this priority. -/
def Core.busyAt (c : Core) (prio : Nat) : Bool :=
  (match c.chunk with | some k => decide (prio ≤ k.prio) | none => false) || c.queue.any fun k => decide (prio ≤ k.prio)
/-- A launch can be placed in this cycle. -/
def State.placeable (s : State) (l : Launch) : Bool :=
  let p := s.pkg
  let cores := (s.splitLaunch l).1.map Prod.fst
  !l.placed && l.status.isNone && (s.ioGet (0x6900 + 8 * l.ctx)).getLsbD 11 && !s.onHold.has l.ctx && !p.terming.has l.ctx &&
    !(l.ordered && p.launches.any fun k => k.ctx == l.ctx && decide (k.id < l.id)) && !cores.isEmpty &&
    cores.all (fun c => decide (((s.core c).queue.filter fun k => k.forked.isNone).length < 16) && (match (s.core c).reserved with | some r => decide (r < 1000) | none => true)) &&
    -- a gang that has waited 1 ms keeps new chunks of its priority and below from its eligible cores
    !(p.launches.any fun k => k.gang && k.waited && !k.placed && k.status.isNone && k.id != l.id && decide (l.prio ≤ k.prio) &&
      cores.any fun c => (s.eligible k.ctx).contains c) &&
    (!l.gang || (!(p.launches.any fun k => k.gang && k.placed && k.ctx == l.ctx) && !(s.barsOf l.ctx).any (fun g => p.bars.has g) &&
      cores.all fun c => !(s.core c).busyAt l.prio && (s.core c).reserved.isNone))
def State.shareOf (s : State) (ctx : Nat) : Nat := max 1 (s.ioBits (0x6900 + 8 * ctx) 4 4)
/-- The launch that the next decision takes, and whether a round ends with it. -/
def State.choose (s : State) : Option (Launch × Bool) :=
  let can := s.pkg.launches.filter fun l => s.placeable l
  let top := can.foldl (fun t l => max t l.prio) 0
  let can := can.filter fun l => l.prio == top
  let first (l : List Launch) : Option Launch :=
    l.foldl (fun b k => match b with | some j => if k.ctx < j.ctx then some k else b | none => some k) none
  let rich := can.filter fun l => decide (0 < s.pkg.credits.getD l.ctx 1)
  match first rich with
  | some l => some (l, false)
  | none => (first can).map fun l => (l, true)

def Launch.chunk (l : Launch) (q : Nat × Nat × Nat) : Chunk :=
  { launch := l.id, ctx := l.ctx, prio := l.prio, lo := q.2.1, hi := q.2.2, next := q.2.1, cur := q.2.1, gang := l.gang, lrec := l.seq.setWidth 64 }
/-- A round ends: every context has its SHARE again. -/
def State.newRound (s : State) : State := s.modPkg fun p => { p with credits := (List.range 64).map fun n => (n, s.shareOf n) }
/-- One placement: a gang reserves its participants and takes its barriers, any other launch queues its chunks. PHASE counts from placement
and the record keeps its content (R118): here PHASE alone reads 0 at once (DESIGN CHOICE, log 100). -/
def State.place (s : State) : State :=
  match s.choose with
  | none => s
  | some (l, round) =>
    let s := if round then s.newRound else s
    let s := s.modPkg fun p => { p with credits := p.credits.ins l.ctx (p.credits.getD l.ctx 1 - 1) }
    let (chunks, tails) := s.splitLaunch l
    let cores := chunks.map Prod.fst
    if l.gang then
      let s := s.modLaunch l.id fun k => { k with placed := true, members := chunks, working := cores }
      let s := cores.foldl (fun s c => s.modCore c fun k => { k with reserved := some (gangMark l.id) }) s
      (s.barsOf l.ctx).foldl (fun s g =>
        (s.ioField (0x17008 + 64 * g) 40 24 0).modPkg fun p => { p with bars := p.bars.ins g ⟨l.id, cores, 0, []⟩ }) s
    else
      let s := s.modLaunch l.id fun k => { k with placed := true, started := true, working := cores, tails }
      chunks.foldl (fun s q => s.modCore q.1 fun c => { c with queue := c.queue ++ [l.chunk q] }) s
def execPlacementDecision (s : State) : Out := .next s.place

/-! Tile runs (R101-R103). -/

/-- Values of s24 on: a spatial level's index, a T level's bound. -/
def Launch.levelRegs (l : Launch) (flat : Nat) : List Nat :=
  ((l.kernel.kinds.zip l.bounds).foldr (fun q (r : Nat × List Nat) =>
    if q.1 = 2 then (r.1, q.2 :: r.2) else (r.1 / q.2, r.1 % q.2 :: r.2)) (flat, [])).2
/-- Issue begins at the kernel's entry with a fresh segment. -/
def Core.enter (c : Core) (entry : Word) (regs : List Word) : Core :=
  let s := (List.range 8).foldl (fun m i => SMap.put 0 m (24 + i) (regs.getD i 0)) c.arch.s
  let arch := { c.arch with s }
  { c with run := .running, pc := entry, arch, grp := {}, lbuf := [], seg := { ckaddr := entry, ck := arch, again := true, posts := c.seg.posts.filter (·.committed) } }
def State.startTile (s : State) (core flat : Nat) : State :=
  match (s.core core).chunk with
  | none => s
  | some k =>
    match s.launchOf k.launch with
    | none => s
    | some l =>
      let lv := l.levelRegs flat
      let regs := (List.range 6).map (fun i => BitVec.ofNat 64 (lv.getD i 0)) ++ [l.arga, l.argb]
      s.modCore core fun c => { c.enter l.kernel.entry regs with chunk := some { k with cur := flat, next := flat + 1, started := true } }
/-- A core as the first tile run of a chunk finds it (R103, R242, R249, R274, R435); EPROF and LATDECL from the kernel (R85, R212). -/
def State.freshCore (s : State) (core : Nat) (k : Kernel) : State :=
  (s.modCore core fun c => { c with
    arch := {}, seg := {}, grp := {}, e := [], svc := {}, tiles := [], accs := [], b0 := {}, b1 := {}, cb0 := {}, cb1 := {}
    loads := [], atoms := [], cmds := [], mq := [], aq := [], dq := [], watches := [], lbuf := [], kernel := k, latdecl := k.latdecl.setWidth 64, keepErr := false, hostSlow := false
    eprof := setBits c.eprof 0 32 k.cap.toNat, earm := true, preempt := none, reserved := none, arrived := [] }).setLeak core
/-- A chunk begins with its first tile run. -/
def State.beginChunk (s : State) (core : Nat) (k : Chunk) : State :=
  match s.launchOf k.launch with
  | none => s
  | some l => ((s.freshCore core l.kernel).modCore core fun c => { c with chunk := some { k with root := core } }).setLeak core |>.startTile core k.lo
/-! The end of chunks (R107, R133, R235). -/

/-- Committed bytes of the stash go back: the first cause that keeps one from it, with its address. -/
def State.flushStash (s : State) (core : Nat) : (Cause × Nat) × State :=
  (s.core core).wins.foldl (fun q w => let (c, s) := q.2.flushWindow core w.2 true; (if q.1.1 ≠ 0 then q.1 else c, s)) ((0, 0), s)
/-- Every window is disabled. Bytes that cannot go back are lost with a chunk that its context's termination ends (log 106). -/
def State.closeWindows (s : State) (core : Nat) : State := (s.flushStash core).2.modCore core fun c => { c with wins := [], stash := [] }
/-- Some core still holds work of a launch. -/
def State.launchLive (s : State) (id : Nat) : Bool :=
  s.cores.any fun q => (match q.2.chunk with | some k => k.launch == id | none => false) ||
    (q.2.queue.any fun k => k.launch == id) || q.2.resident.any fun r => r.chunk.launch == id
/-- The barriers of a gang leave use when all its chunks have ended, forked runs with them, and no arrival of it is on its way (R117, R121). -/
def State.freeBars (s : State) (id : Nat) : State :=
  if (s.pkg.launches.any fun l => l.id == id && l.gang && l.working.isEmpty && !s.flight.any fun f => f.ctx == l.ctx && (match f.rel with | .arrive _ => true | _ => false))
      && !s.launchLive id then
    s.modPkg fun p => { p with bars := p.bars.filter fun b => b.2.launch != id }
  else s
/-- Released commands of the core that are still to end, a put to be sent; and posts to its own flags (R19, R41). -/
def Core.draining (c : Core) : Bool := (c.cmds.any fun k => !k.isPut || !k.sent) || !c.seg.posts.isEmpty
/-- Sent puts of a core that gives its chunk up are still outstanding on their ports (R20). -/
def State.loosen (s : State) (core : Nat) : State :=
  s.modPkg fun p => { p with loose := p.loose ++ ((s.core core).cmds.filter fun k => k.isPut && k.sent).map fun k => (core, k) }
/-- A chunk has ended: the core is free, and its launch has one participant less. A written sector that cannot go back raises its cause at
the core, which tries again once it is resumed (R43, R128, R235; DEDUCED, log 106). -/
def State.endChunk (s : State) (core : Nat) : State :=
  match (s.core core).chunk with
  | none => s
  | some k =>
    let ((cause, va), s) := s.flushStash core
    if cause ≠ 0 then
      (s.park core { cause, faddr := BitVec.ofNat 64 va } (s.core core).pc 1).modCore core fun c => { c with seg := { c.seg with exitDone := true } }
    else
    let s := s.loosen core
    let s := s.modCore core fun c => { c with chunk := none, run := .idle, wins := [], stash := [], cmds := [], svc := {}, preempt := none }
    let s := if k.forked.isSome then s else s.modLaunch k.launch fun l => { l with working := l.working.erase core }
    s.freeBars k.launch
/-- A participant that has finished asks for a tail tile: the lowest left, or none, which ends its work (R107). Under a pre-emption
request it stops at the checkpoint with which the tile begins (R113). -/
def State.askTail (s : State) (core : Nat) : State :=
  let c := s.core core
  match c.chunk with
  | none => s
  | some k =>
    if c.run ≠ .idle ∨ c.draining then s
    else match s.launchOf k.launch with
      | none => s.endChunk core
      | some l =>
        match (if k.forked.isSome ∨ l.status.isSome then none else l.tails.find? fun t => t.1.contains core && decide (t.2.1 < t.2.2)) with
        | none => s.endChunk core
        | some t =>
          let s := s.modLaunch l.id fun q => { q with tails := q.tails.map fun x => if x = t then (t.1, t.2.1 + 1, t.2.2) else x }
          let s := (s.modCore core fun c => { c with chunk := some { k with hi := t.2.1 + 1 } }).startTile core t.2.1
          if c.preempt.isSome then s.modCore core fun c => { c with run := .rolling, seg := { c.seg with restart := true } } else s
def execTailTileRequest (core : Nat) (s : State) : Out := .next (s.askTail core)
/-- A tile run has ended: the next tile of the chunk starts on the core, else the chunk is through (R102). -/
def State.tileDone (s : State) (core : Nat) : State :=
  match (s.core core).chunk with
  | none => s.modCore core fun c => { c with run := .idle }
  | some k => if k.forked.isNone && decide (k.next < k.hi) then s.startTile core k.next else s.modCore core fun c => { c with run := .idle }
/-- A forked run starts at its forker's commit (R121). One whose forker a pre-emption stops there stops with it, at the checkpoint with
which it begins (R349). The run takes its forker's partition, and R95 gives a core the grant of its own: EPROF.LEAK is here by the core's
partition, as for any core (DESIGN CHOICE, log 112). -/
def State.startFork (s : State) (from' target : Nat) (entry : Word) (regs : List Word) : State :=
  let f := s.core from'
  match f.chunk with
  | none => s
  | some k =>
    let s := s.freshCore target f.kernel
    let s := (s.modCore target fun c => { c.enter entry regs with chunk := some { k with forked := some from', gang := k.gang, started := true } }).setLeak target
    if f.preempt.isSome then s.modCore target fun c => { c with run := .rolling, preempt := some 0, seg := { c.seg with restart := true } } else s

/-! Completion (R40-R42). -/

def State.completable (s : State) (l : Launch) : Bool :=
  s.pkg.keyOp.isEmpty && !s.launchLive l.id && !(s.flight.any fun f => f.ctx == l.ctx) && (l.status.isSome || (l.placed && l.started && l.working.isEmpty))
/-- The completion line, when its page takes it, and the vector (R40, R42). -/
def State.completionLine (s : State) (l : Launch) (status : Nat) : State :=
  if l.caddr.toNat % 64 ≠ 0 then s
  else match s.xlate ⟨l.ctx, false, 265⟩ .store l.caddr.toNat 64 with
    | (.error _, s) => s
    | (.ok ps, s) =>
      let b := bytesOf 8 l.cval.toNat ++ bytesOf 2 status ++ bytesOf 54 0
      match ps with
      | [] => s
      | p :: _ => (s.performWrite distributor p.pa (2 ^ 64 - 1) b p.key).2
def State.complete (s : State) (l : Launch) : State :=
  let s := s.completionLine l (l.status.getD 0)
  let s := if l.irq && decide (l.vec < 248) then s.msi l.vec else s
  s.modPkg fun p => { p with launches := p.launches.filter fun k => k.id != l.id, bars := p.bars.filter fun b => b.2.launch != l.id }
def execLaunchComplete (k : Nat) (s : State) : Out :=
  .next (match s.pkg.launches[k]? with
    | some l => if s.completable l then s.complete l else s
    | none => s)

/-! Barriers (R117-R119). -/

/-- The phase in progress is complete: the record, the efficiency factors, the next phase (R118, R119). A factor of
512 acts as 512, though EFFc.E has nine bits to show it (log 38). -/
def State.phaseDone (s : State) (g : Nat) (b : Barrier) : State :=
  let arr := b.members.map fun c => (c, match b.arrivals.find? fun a => a.1 == c with | some a => a.2 | none => 0)
  let first := arr.foldl (fun t a => min t a.2) (match arr with | a :: _ => a.2 | [] => 0)
  let last := arr.foldl (fun (t : Nat × Nat) a => if t.2 ≤ a.2 then (if t.2 = a.2 then (max t.1 a.1, a.2) else a) else t) (0, 0)
  let o := 0x17000 + 64 * g
  let late := s.ioBits 0x6800 4 32
  let s := s.ioSet o (BitVec.ofNat 64 first)
  let s := ((s.ioField (o + 8) 40 24 (s.barPhase g + 1)).ioField (o + 8) 32 8 last.1).ioField (o + 8) 0 32 (min (last.2 - first) 0xFFFFFFFF)
  let s := (List.range 4).foldl (fun s j =>
    s.ioSet (o + 0x10 + 8 * j) (BitVec.ofNat 64 (arr.foldl (fun t a => if a.1 / 64 = j ∧ late < a.2 - first then t + 2 ^ (a.1 % 64) else t) 0))) s
  let rest := b.members.foldl (fun (l : List (Nat × Nat)) c => match l.find? fun a => a.1 == c with | some a => l.erase a | none => l) b.arrivals
  let s := s.modPkg fun p => { p with bars := p.bars.ins g { b with arrivals := rest, start := last.2 } }
  if (match s.launchOf b.launch with | some l => l.feedback | none => false) then
    let d (t : Nat) : Nat := max 1 (t - b.start)
    let dbar := arr.foldl (fun t a => t + d a.2) 0 / b.members.length
    arr.foldl (fun s a =>
      let e := s.ioBits (0x6C00 + 8 * a.1) 0 10
      let t := e * dbar / d a.2
      s.ioSet (0x6C00 + 8 * a.1) (BitVec.ofNat 64 (min 512 (max 64 ((7 * e + t) / 8))))) s
  else s
/-- A released arrival reaches its barrier (R117). Its cycle is that of its release; where it falls within a REFCLK cycle the spec leaves open:
here at the first of its 16 (R118; DESIGN CHOICE, log 101). -/
def State.barrierArrives (s : State) (k : Nat) : State :=
  match s.flight[k]? with
  | some ⟨_, core, ctx, .arrive g, time⟩ =>
    if !s.flightReady k then s
    else
      let s := s.dropFlight k
      match s.pkg.bars.get? g with
      | none => s
      | some b =>
        -- an arrival of a gang that has been terminated counts for no later one
        if !b.members.contains core || !(s.pkg.launches.any fun l => l.id == b.launch && l.ctx == ctx) then s
        else
          let b := { b with arrivals := b.arrivals ++ [(core, time.toNat * 16)] }
          let s := s.modPkg fun p => { p with bars := p.bars.ins g b }
          (if b.members.all fun c => b.arrivals.any fun a => a.1 == c then s.phaseDone g b else s).freeBars b.launch
  | _ => s
def execBarrierArrival (k : Nat) (s : State) : Out := .next (s.barrierArrives k)

/-! Termination of a context (R233). -/

/-- A core of a terminated context gives its chunk up. Releases already made stand: it keeps the chunk until they are through. -/
def State.dropChunk (s : State) (core : Nat) : State :=
  let s := s.closeWindows core
  let s := if (s.core core).draining then s else s.loosen core
  s.modCore core fun c =>
    let c := { c with
      run := .idle, loads := [], atoms := [], cmds := c.cmds.filter (·.released), mq := [], aq := [], dq := [], watches := [], svc := {}, preempt := none
      recHeld := false, seg := { c.seg with log := [], posts := c.seg.posts.filter (·.committed), later := [] } }
    if c.draining then c else { c with chunk := none, cmds := [] }
/-- Steps 1 to 4: cores stop, parked cores leave the park, switched-out state goes, launches take the status. -/
def State.terminate (s : State) (ctx : Nat) (cause : Cause) : State :=
  let eff : Cause := if cause = 0 then 0x1C9#10 else cause
  let s := (s.ioField (0xFA00 + 8 * ctx) 16 1 1).modPkg fun p => { p with terming := p.terming.ins ctx eff }
  let s : State := s.cores.foldl (fun (s : State) (q : Nat × Core) =>
    let c := s.core q.1
    let s : State := match c.chunk with
      | some k =>
        if k.ctx ≠ ctx then s
        else (if c.run = .parked then s else s.park q.1 { cause := eff } c.pc 5).dropChunk q.1
      | none => s
    s.modCore q.1 fun (c : Core) => { c with queue := c.queue.filter fun k => k.ctx != ctx, resident := c.resident.filter fun r => r.chunk.ctx != ctx }) s
  let gone : List Nat := (s.pkg.launches.filter fun l => l.ctx == ctx).map fun l => gangMark l.id
  let s : State := { s with cores := s.cores.map fun q => (q.1, if gone.any (fun g => q.2.reserved == some g) then { q.2 with reserved := none } else q.2) }
  let s := s.modPkg fun p => { p with launches := p.launches.map fun l => if l.ctx = ctx ∧ l.status.isNone then { l with status := some eff.toNat, working := [] } else l, bars := p.bars.filter fun b => !p.launches.any fun l => l.id == b.2.launch && l.ctx == ctx }
  s.ioField (0x1008 + 16 * ctx) 14 1 0
/-- The GO bit (R233), ignored while BUSY. -/
def State.termGo (s : State) (ctx : Nat) (cause : Cause) : State :=
  if (s.ioGet (0xFA00 + 8 * ctx)).getLsbD 16 then s else (s.ioField (0xFA00 + 8 * ctx) 0 10 cause.toNat).terminate ctx cause
def execContextTerminate (ctx : BitVec 6) (cause : Cause) (s : State) : Out := .next (s.termGo ctx.toNat cause)
/-- Step 5, once every launch of the context has completed. -/
def State.termDone (s : State) (ctx : Nat) : State :=
  match s.pkg.terming.get? ctx with
  | none => s
  | some eff =>
    if s.pkg.launches.any fun l => l.ctx == ctx then s
    else
      let s := (s.ioField (0xFA00 + 8 * ctx) 16 1 0).modPkg fun p => { p with terming := p.terming.del ctx }
      let w := setBits (s.ioGet (0xFA00 + 8 * ctx)) 0 10 eff.toNat
      { s with onHold := s.onHold.del ctx, recq := s.recq ++ [⟨3, ctx, bytesOf 8 w.toNat ++ bytesOf 56 0, none⟩] }
def execContextTerminationDone (ctx : BitVec 6) (s : State) : Out := .next (s.termDone ctx.toNat)

/-! Chunks begin (R110, R111, R116). -/

/-- The banks of switched-out chunks of a core are saved, where they have not been: all that a kernel with a bank mask would overwrite, and
of the others all but one, since a core holds one running and one switched-out chunk without (R111, R235); false while they cannot be. Which
one stays the spec does not say: the one switched out last (DESIGN CHOICE, log 114). Without a granule the context of such a chunk is
terminated. -/
def State.makeRoom (s : State) (core : Nat) (mask : Half) (self : Option Chunk) : Bool × State :=
  let (ok, _, s) := (s.core core).resident.foldl (fun (q : Bool × Bool × State) (r : Saved) =>
    let (ok, kept, s) := q
    if r.savedMask ≠ 0 ∨ r.kernel.bmask = 0 ∨ self = some r.chunk then q
    else if r.kernel.bmask &&& mask = 0 ∧ !kept then (ok, true, s)
    else if !(s.ioGet (0xFC00 + 8 * r.chunk.ctx)).getLsbD 0 then (ok, kept, s.termGo r.chunk.ctx 0x1C8#10)
    else if !s.pkg.keyOp.isEmpty ∨ !s.keyUsable (s.ownOf r.chunk.ctx) then (false, kept, s)
    else (ok, kept, (s.saveBanks core r.chunk.ctx r.kernel.bmask).modCore core fun c =>
      { c with resident := c.resident.map fun x => if x.chunk = r.chunk then { x with savedMask := r.kernel.bmask } else x })) (true, false, s)
  (ok, s)
/-- The chunk that a core takes next: highest priority, earliest queued (R110). -/
def Core.nextChunk (c : Core) : Option Chunk :=
  c.queue.foldl (fun b k => match b with | some j => if j.prio < k.prio then some k else b | none => some k) none
def Core.dequeue (c : Core) (k : Chunk) : Core := { c with queue := c.queue.erase k }
def Core.idle (c : Core) : Bool := c.chunk.isNone && c.reserved.isNone && c.run == .idle
def State.chunkBegin (s : State) (core : Nat) : State :=
  let c := s.core core
  match c.nextChunk with
  | some k =>
    if c.idle && !k.started && !isCtl core then
      let (ok, s) := s.makeRoom core (match s.launchOf k.launch with | some l => l.kernel.bmask | none => 0) none
      if ok && (s.core core).queue.contains k then (s.modCore core fun c => c.dequeue k).beginChunk core k else s
    else s
  | none => s
def execChunkStart (core : Nat) (s : State) : Out := .next (s.chunkBegin core)

/-- All chunks of a gang start in one cycle, once every participant is idle (R116). -/
def State.beginGang (s : State) (id : Nat) : State :=
  match s.launchOf id with
  | none => s
  | some l =>
    if l.gang && l.placed && !l.started && l.members.all fun q => (s.core q.1).chunk.isNone && (s.core q.1).run == .idle then
      let (ok, s) := l.members.foldl (fun (q : Bool × State) m => let (ok, s) := q.2.makeRoom m.1 l.kernel.bmask none; (q.1 && ok, s)) (true, s)
      if !ok || (match s.launchOf id with | some l => l.status.isSome | none => true) then s else
      let s := s.modLaunch id fun k => { k with started := true }
      let s := s.modPkg fun p => { p with bars := p.bars.map fun b => if b.2.launch = id then (b.1, { b.2 with start := s.tmr.toNat * 16 }) else b }
      l.members.foldl (fun s q => s.beginChunk q.1 (l.chunk q)) s
    else s
def execGangStart (launch : Nat) (s : State) : Out := .next (s.beginGang launch)
def execGangWaitTimeout (launch : Nat) (s : State) : Out :=
  .next (s.modLaunch launch fun l => if l.gang && !l.placed then { l with waited := true } else l)

/-! Pre-emption and switched-out state (R111, R113, R116, R228, R235). -/

/-- What stops and resumes with a chunk: the members of its gang that run the gang's chunk, and the forked runs of a chunk (R116, R349). -/
def Chunk.together (k q : Chunk) : Bool := q.launch == k.launch && (k.gang || q.root == k.root)
def State.preemptGroup (s : State) (core : Nat) : List Nat :=
  match (s.core core).chunk with
  | some k => (s.cores.map Prod.fst).filter fun c => match (s.core c).chunk with | some j => k.together j | none => false
  | none => [core]
/-- A chunk of higher priority is queued at the core, or a gang of higher priority has reserved it. -/
def State.wantsPreempt (s : State) (core : Nat) : Bool :=
  let c := s.core core
  match c.chunk with
  | none => false
  | some k =>
    (c.run == .running || c.run == .parked) && c.preempt.isNone &&
      ((c.queue.any fun q => decide (k.prio < q.prio)) ||
        (match c.reserved with | some r => decide (1000 ≤ r) && (match s.launchOf (r - 1000) with | some l => decide (k.prio < l.prio) | none => false) | none => false))
def Hold.isRdv : Hold → Bool
  | .rdv _ => true
  | _ => false
/-- Roll back for a pre-emption and stop, to be switched out (R113, R224 steps 7 and 8). -/
def State.preemptRoll (s : State) (core : Nat) : State :=
  let t := s.park core { cause := 0x1C7#10 } (s.core core).pc 3
  if (s.core core).keepErr then t else t.modCore core fun c => { c with run := .rolling, seg := { c.seg with restart := true } }
def State.askPreempt (s : State) (core : Nat) : State :=
  if !s.wantsPreempt core then s
  else
    let grace := s.ioBits 0x6808 0 20
    (s.preemptGroup core).foldl (fun s c =>
      let k := s.core c
      if k.chunk.isSome && k.preempt.isNone then
        let s := s.modCore c fun k => { k with preempt := some grace }
        -- a rendezvous in its hold stops at its checkpoint, with nothing rolled back (R346)
        if grace = 0 ∧ k.run = .running ∧ !(k.grp.n == 0 && k.grp.holds.any Hold.isRdv) then s.preemptRoll c else s
      else s) s
def execPreemptRequest (core : Nat) (s : State) : Out := .next (s.askPreempt core)

/-- The bank mask of the kernel that a core runs next: of the chunk first in its queue, or of the gang that has reserved it (R111, R116). -/
def State.nextMask (s : State) (core : Nat) : Half :=
  let of (id : Nat) : Half := match s.launchOf id with | some l => l.kernel.bmask | none => 0
  (match (s.core core).nextChunk with | some q => of q.launch | none => 0) |||
    (match (s.core core).reserved with | some r => if 1000 ≤ r then of (r - 1000) else 0 | none => 0)
/-- The stopped chunk is switched out; without a valid granule its state is discarded and its context terminated (R235, R236). Its
banks are saved when the next kernel's overlap them (R111). A slot OWN that is not usable raises 0x202 at the core, as for any access
under it, and a written stash sector that cannot go back raises its cause; it tries again once it is resumed (R43, R61, R64; DEDUCED, logs
82, 106). -/
def State.switchOut (s : State) (core : Nat) : State :=
  let c := s.core core
  match c.chunk with
  | none => s
  | some k =>
    if c.run ≠ .rolling ∨ !c.cmds.isEmpty ∨ !c.seg.posts.isEmpty ∨ !s.pkg.keyOp.isEmpty then s
    else if !(s.ioGet (0xFC00 + 8 * k.ctx)).getLsbD 0 then (s.closeWindows core).termGo k.ctx 0x1C8#10
    else if !s.keyUsable (s.ownOf k.ctx) then s.park core { cause := 0x202#10 } c.pc 1
    else
      let ((cause, va), s) := s.flushStash core
      if cause ≠ 0 then s.park core { cause, faddr := BitVec.ofNat 64 va } c.pc 1 else
      let mask : Half := if c.kernel.bmask &&& s.nextMask core = 0 then 0 else c.kernel.bmask
      let s := s.saveImage core k.ctx mask
      s.modCore core fun c =>
        { c with
          resident := c.saved k mask :: c.resident, queue := k :: c.queue, chunk := none, run := .idle, wins := [], stash := []
          svc := {}, preempt := none, seg := {}, arch := {} }
/-- A pre-empted core whose grace has run out without a commit rolls back, unless its last bundle was an EXIT, whose commit is still to
come (R113, R331); a stopped one is switched out. -/
def State.graceExpire (s : State) (core : Nat) : State :=
  let c := s.core core
  if c.run = .running ∧ c.preempt = some 0 then (if c.seg.exiting then s else (s.preemptRoll core).switchOut core) else s.switchOut core
/-- A resident chunk of a core runs again from its checkpoint, with what its image holds (R113, R235, R343, R427). -/
def State.restore (s : State) (core : Nat) (r0 : Saved) : State :=
  let (r, hurt, s) := s.readImage core r0
  let add (a : Arch) : Arch := r.posts.foldl (fun a q => a.flagAdd q.1 q.2) a
  let s := s.freshCore core r.kernel
  let s := s.modCore core fun c =>
    let keep := c.sp.filter fun q => !r.kernel.bmask.getLsbD (q.1 / 65536)
    let kp := c.spPoison.filter fun q => !r.kernel.bmask.getLsbD (q.1 / 2048)
    let c := { c with
      run := .running, pc := r.ckaddr, arch := add r.arch, e := r.e
      seg := { ckaddr := r.ckaddr, ck := add r.arch, log := r.log, rolls := r.rolls, restart := true, rdvDone := r.rdvDone, replayed := r.replayed }
      tiles := r.tiles, accs := r.accs, b0 := r.b0, b1 := r.b1, cb0 := r.b0, cb1 := r.b1, wins := r.wins, arrived := r.arrived
      svc := { base := r.svbase, tcmp := r.tcmp, queue := r.sq, trap := r.strap }
      sp := r.banks.foldl (fun m q => m.ins q.1 q.2) keep, spPoison := r.spPoison.foldl (fun m q => m.ins q.1 ()) kp
      chunk := some r.chunk, resident := c.resident.filter fun x => x.chunk != r.chunk }
    c
  let s := s.setLeak core
  if hurt then s.park core { cause := 0x141#10 } r.ckaddr 1 else s
/-- The started chunk that an idle core would take next, with its state. -/
def Core.returning (c : Core) : Option Saved :=
  if !c.idle then none
  else match c.nextChunk with
    | some k => if k.started then c.resident.find? fun r => r.chunk == k else none
    | none => none
/-- A chunk is switched in with what resumes together with it: members of its gang, forked runs (R116, R349). It waits for a key
command, and for the slot OWN to be usable (log 82). -/
def State.switchIn (s : State) (core : Nat) : State :=
  match (s.core core).returning with
  | none => s
  | some r =>
    let group := (s.cores.map Prod.fst).filter fun c => (s.core c).resident.any fun x => r.chunk.together x.chunk
    -- none of them still runs out its grace or is parked
    let ready := group.all (fun c => match (s.core c).returning with | some q => r.chunk.together q.chunk | none => false) &&
      !(s.cores.any fun q => match q.2.chunk with | some k => r.chunk.together k | none => false)
    if !ready ∨ !s.pkg.keyOp.isEmpty ∨ !s.keyUsable (s.ownOf r.chunk.ctx) then s
    else
      let (ok, s) := group.foldl (fun (q : Bool × State) c => match (q.2.core c).returning with
        | some x => let (ok, s) := q.2.makeRoom c x.kernel.bmask (some x.chunk); (q.1 && ok, s)
        | none => q) (true, s)
      if !ok then s else group.foldl (fun s c => match (s.core c).returning with
        | some q => (s.modCore c fun k => k.dequeue q.chunk).restore c q
        | none => s) s
def execChunkSwitchIn (core : Nat) (s : State) : Out := .next (s.switchIn core)

end Sys2Proof.Machine
end

