-- ==== Sys2Proof/Machine/Faults.lean ====
section
/-! DEFINITION. The fault-service queue and resume (R228-R232), errors in L2 and HBM (R143-R147, R462, R470), watches (R329), the
service sequencer's events (R435). -/
namespace Sys2Proof.Machine

/-! The fault-service queue (R230, R231). -/

def State.fsqOn (s : State) : Bool := (s.ioGet 0xF008).getLsbD 15
def State.fsqSize (s : State) : Nat := let l := s.ioBits 0xF008 8 5; if 4 ≤ l ∧ l ≤ 12 then 2 ^ l else 16
def State.fsqBase (s : State) : Nat := s.ioBits 0xF000 7 45 * 128
/-- Room in the ring, by the HEAD that the fault-service program has stored. -/
def State.fsqRoom (s : State) : Bool × State :=
  if !s.fsqOn then (false, s)
  else
    let ((_, b), s) := s.fetchData distributor (s.fsqBase + 0x40) 8 64 2
    (decide (s.pkg.fsqTail < natOf b + s.fsqSize), s)
/-- An entry is written whole, then TAIL. -/
def State.fsqWrite (s : State) (r : FsqRec) : State :=
  let i := s.pkg.fsqTail
  let b := bytesOf 4 i ++ bytesOf 1 r.typ ++ bytesOf 1 r.ctx ++ bytesOf 10 0 ++ r.body ++ bytesOf (64 - r.body.length) 0 ++ bytesOf 48 0
  let (_, s) := s.performWrite distributor (s.fsqBase + 0x80 + 128 * (i % s.fsqSize)) (2 ^ 128 - 1) b 64
  let (_, s) := s.performWrite distributor s.fsqBase 255 (bytesOf 8 (i + 1)) 64
  s.modPkg fun p => { p with fsqTail := i + 1 }
/-- The oldest record is queued; a trap record without room waits with its core, any other is lost. -/
def State.fsqNext (s : State) : State :=
  match s.recq with
  | [] => s
  | r :: rest =>
    let s := { s with recq := rest }
    let s := if r.typ = 2 then s.modPkg fun p => { p with errLog := p.errLog ++ [r.body] } else s
    match s.fsqRoom, r.core with
    | (true, s), _ => s.fsqWrite r
    | (false, s), some c => s.modCore c fun k => { k with recHeld := true }
    | (false, s), none => s.ioCount 0xF008 32 16
/-- A record that waited is queued once there is room. -/
def State.fsqHeld (s : State) (core : Nat) : State :=
  let c := s.core core
  if !c.recHeld then s
  else if c.run ≠ .parked then s.modCore core fun k => { k with recHeld := false }
  else match s.fsqRoom with
    | (true, s) => (s.fsqWrite ⟨1, 0, c.trec.bytes, some core⟩).modCore core fun k => { k with recHeld := false }
    | (false, s) => s
/-- EN goes from 0 to 1: LOST is cleared and TAIL is read. -/
def State.fsqEnable (s : State) : State :=
  let s := s.ioField 0xF008 32 16 0
  let ((_, b), s) := s.fetchData distributor s.fsqBase 8 64 2
  s.modPkg fun p => { p with fsqTail := natOf b }
def execFsqEnable (s : State) : Out := .next (if s.fsqOn then s else (s.ioField 0xF008 15 1 1).fsqEnable)

/-- The trap record of a core waits for room in the fault-service queue (R230). -/
def State.recWaits (s : State) (core : Nat) : Bool := (s.core core).recHeld || s.recq.any fun r => r.core == some core
/-- A parked core resumes at its checkpoint, or is switched out when a pre-emption waits for it (R228, R232). One whose record waits for
room stays parked (R230). -/
def State.resumeCore (s : State) (core : Nat) : State :=
  let c := s.core core
  if c.run ≠ .parked || s.recWaits core then s
  else if c.preempt.isSome && !c.seg.exitDone then s.modCore core fun k => { k with run := .rolling }
  else s.resume core
def execCoreResume (core : Nat) (s : State) : Out := .next (s.resumeCore core)

/-! Containment (R146, R463). -/

/-- Every core that runs a chunk of the context rolls back and parks with 0x142; no record is queued. -/
def State.stopNext (s : State) : State :=
  match s.stopq with
  | [] => s
  | o :: rest =>
    let s : State := { s with stopq := rest }
    s.cores.foldl (fun (s : State) (q : Nat × Core) =>
      let c := s.core q.1
      if (match c.chunk with | some k => k.ctx == o.1 | none => false) && (c.run == .running || c.run == .rolling) then s.park q.1 { cause := 0x142#10 } c.pc 5
      else s) s

/-- The next slice that has to retire (R145). -/
def State.mustRetire (s : State) : Option Nat := (s.blaze.find? fun q => s.sliceDue (q.1 / 8192)).map fun q => q.1 / 8192
def execSliceRetireComplete (slice : Nat) (s : State) : Out := .next (s.retireSlice slice)

/-- A fill returns: the sector is filled, poisoned when its read met an uncorrectable word (R470). -/
def execL2FillReturn (pa : BitVec 52) (s : State) : Out := .next (s.l2Read (pa.toNat / 32 * 32) 32 64 64 2)

/-- The scrubber on one way of a set (R143, R144, R146). -/
def State.scrubWay (s : State) (n : Nat) : State :=
  match s.l2.get? n with
  | none => s
  | some l =>
    if s.dirtyBad l ≠ 0 then s.loseLine n true 64
    else
      let s := ((List.range 2).filter fun i => l.valid.getLsbD i && errIn s.l2Err (l.tag * 2 + i)).foldl (fun s i =>
        s.refetch n l.tag i (8 + 2 * 2 ^ i) { ctx := 64, key := l.key, secs := 3 }) s
      let cor := (List.range 2).filter fun i => l.valid.getLsbD i && errIn s.l2Cor (l.tag * 2 + i)
      cor.foldl (fun s i => ({ s with l2Cor := clearErr s.l2Cor (l.tag * 2 + i) }).countCorrected n l.tag (8 + 2 * 2 ^ i) 64) s
/-- An uncorrectable HBM word is replaced, which leaves its sector poisoned there while the other words keep what they hold; a corrected
one is written back (R144, R470). A sector that L2 holds stays good in L2. -/
def State.scrubWord (s : State) (pa : Nat) : State :=
  let w := pa / 8
  let sec := pa / 32
  let s := if s.hbmCor.has w then ({ s with hbmCor := s.hbmCor.del w }).lineRecord 1 (8 + 2 * 2 ^ (sec % 2)) 0 64 (pa / 64) 0 else s
  if s.hbmErr.has w then
    let s := { s with hbmErr := s.hbmErr.del w }
    let s : State := if s.inL2 sec then { s with backPoison := s.backPoison.ins sec () } else { s with poison := s.poison.ins sec () }
    s.lineRecord 7 (8 + 2 * 2 ^ (sec % 2)) 0 64 (pa / 64) 0
  else s
/-- The scrubber on a set or an HBM word; or a word of a scratchpad, or the state a core keeps for a rollback, is met with an error (R131,
R238; log 104); or a line of a first-level cache is met with a parity error, which invalidates it (R139, R140). -/
def execPatrolScrub (t : ScrubTarget) (s : State) : Out :=
  .next (match t with
    | .l2set slice set =>
      let sn := setNo slice set
      let s := (List.range 16).foldl (fun s w => s.scrubWay (wayNo sn w)) s
      { s with wayCnt := s.wayCnt.filter fun q => q.1 / 16 != sn }
    | .hbmWord pa => s.scrubWord pa.toNat
    | .spWord core word bad =>
      s.modCore core fun c => if bad then { c with spErr := c.spErr.ins word () } else { c with spCor := c.spCor.ins word () }
    | .kept core => s.modCore core fun c => { c with keepErr := true }
    | .parity core line => s.modCore core fun c => { c with sdc := c.sdc.del line, icache := c.icache.del line })
/-- Firmware saves the blaze map (R144). -/
def execBlazeMapSave (s : State) : Out := .next (s.modPkg fun p => { p with blazeFlash := s.blaze })

/-- One injection under ERRINJ_A and ERRINJ_C (R462). -/
def State.inject (s : State) : State :=
  let pa := s.ioBits 0x8300 3 49 * 8
  let c := s.ioGet 0x8308
  let s := s.ioField 0x8308 8 1 0
  match s.ioBits 0x8308 2 2 with
  | 0 =>
    let valid : Bool := match s.lineOf (pa / 64) with | some (_, l) => l.valid.getLsbD (pa / 32 % 2) | none => false
    if !valid then s.ioField 0x8308 8 1 1
    else if c.getLsbD 1 then { s with l2Err := s.l2Err.ins (pa / 8) () } else { s with l2Cor := s.l2Cor.ins (pa / 8) () }
  | 1 =>
    if tierOf pa ≠ .hbm then s
    else if c.getLsbD 1 then { s with hbmErr := s.hbmErr.ins (pa / 8) () } else { s with hbmCor := s.hbmCor.ins (pa / 8) () }
  | _ => s
/-- ARM is written, unless LOCK is set. -/
def execErrorInject (s : State) : Out := .next (if (s.ioGet 0x8308).getLsbD 7 then s else s.inject)

/-! Watches (R329). -/

/-- A sleep has ended: the word is read as a load of the core, s[D] is written, the token completes. -/
def State.finishWatch (s : State) (core : Nat) (w : Watch) : State :=
  let ((c, b), s) := if w.cause ≠ 0 then ((w.cause, []), s) else
    let ((c, l), s) := s.readPieces (s.mainWho core) (s.seenBy core w.relN) 2 false [⟨w.va, w.pa, 8, 0, w.key⟩]
    ((c, bytesOf 8 (placed l)), s)
  let s := s.modCore core fun k =>
    { k with
      watches := k.watches.filter (·.seq != w.seq)
      arch := if c ≠ 0 then k.arch else { k.arch with s := k.arch.s.put 0 w.dst (BitVec.ofNat 64 (natOf b)) } }.tokDone w.tok c false
  s.arriveLate core w.arr w.seq w.relN 0
def execWaitlineWake (core k : Nat) (s : State) : Out :=
  .next (match (s.core core).watches[k]? with
    | some w => if w.asleep then s else s.finishWatch core w
    | none => s)
def execWaitlineTimeout (core k : Nat) (s : State) : Out :=
  .next (match (s.core core).watches[k]? with
    | some w => if w.tmo = 31 then s else s.finishWatch core w
    | none => s)

/-- The Distributor answers the launch that holds the core (R330). -/
def State.answerLaunch (s : State) (core : Nat) : State :=
  match (s.core core).grp.holds.findSome? fun (h : Hold) => match h with | .launch r x d => some (r, x, d) | _ => none with
  | none => s
  | some (r, x, d) =>
    if !s.pkg.keyOp.isEmpty then s else
    let (a, s) := s.acceptLaunch r x
    s.modCore core fun c =>
      { c with grp := { c.grp with holds := c.grp.holds.filter fun (h : Hold) => h != Hold.launch r x d } }.landIn 1 (.s d) (BitVec.ofNat 1024 a) full64
def execLaunchAnswer (core : Nat) (s : State) : Out := .next (s.answerLaunch core)

/-! Service events (R435). -/

def State.timerFires (s : State) (core : Nat) : State :=
  s.modCore core fun c => if c.svc.tcmp ≠ 0 ∧ c.svc.tcmp.toNat ≤ s.tmr.toNat then { c with svc := { c.svc with tpend := true } } else c
def execServiceTimer (core : Nat) (s : State) : Out := .next (s.timerFires core)
/-- The event that starts next: its slot, e0 to e2 and the sequencer without it. -/
def State.nextEvent (s : State) (v : Svc) : Option (Nat × List Word × Svc) :=
  match ones v.notices with
  | i :: _ => some (16 + i, [BitVec.ofNat 64 (0x180 + i)], { v with notices := v.notices &&& ~~~(BitVec.ofNat 4 (2 ^ i)) })
  | [] =>
    if v.tpend then some (20, [s.tmr], { v with tpend := false, tcmp := 0 })
    else match v.queue with
      | q :: r => some (q.hn.toNat, [q.sa, q.bytes, q.core], { v with queue := r })
      | [] => none
/-- The service sequencer works beside a main sequencer that runs or is parked. -/
def State.svcAlive (s : State) (core : Nat) : Bool :=
  let c := s.core core
  (c.run == .running || c.run == .parked) && (isCtl core || c.chunk.isSome) && c.svc.trap.isNone
/-- An idle service sequencer starts the first pending event at its slot. The results of a handler that has ended have landed by then. -/
def State.startHandler (s : State) (core : Nat) : State :=
  let v := (s.core core).svc
  if v.busy || !v.base.getLsbD 0 || !s.svcAlive core then s
  else match s.nextEvent v with
    | none => s
    | some (k, regs, v) =>
      s.modCore core fun c => { c with
        e := (regs.zip (List.range 3)).foldl (fun m q => SMap.put 0 m q.2 q.1) c.svcLand.e
        svc := { v with busy := true, hold := [], lands := [], pc := (v.base &&& 0x000FFFFFFFFFFFC0#64) + BitVec.ofNat 64 (8 * k) } }
def execHandlerStart (core : Nat) (s : State) : Out := .next (s.startHandler core)

end Sys2Proof.Machine
end

