-- ==== Sys2Proof/Machine/Hash.lean ====
section
/-! DEFINITION. SHAKE256 (FIPS 202) and KMAC256 (SP 800-185), the published standards that R50, R53 and R68 name (log 36). -/
namespace Sys2Proof.Machine

/-- Lane x + 5y of the state. -/
abbrev Lanes := List Word

def lane (a : Lanes) (i : Nat) : Word := a.getD i 0

/-- Rotation of lane x + 5y. -/
def keccakRot : List Nat := [0, 1, 62, 28, 27, 36, 44, 6, 55, 20, 3, 10, 43, 25, 39, 41, 45, 15, 21, 8, 18, 2, 61, 56, 14]

/-- The round constants. -/
def keccakRc : List Word :=
  [0x0000000000000001#64, 0x0000000000008082#64, 0x800000000000808A#64, 0x8000000080008000#64, 0x000000000000808B#64, 0x0000000080000001#64,
    0x8000000080008081#64, 0x8000000000008009#64, 0x000000000000008A#64, 0x0000000000000088#64, 0x0000000080008009#64, 0x000000008000000A#64,
    0x000000008000808B#64, 0x800000000000008B#64, 0x8000000000008089#64, 0x8000000000008003#64, 0x8000000000008002#64, 0x8000000000000080#64,
    0x000000000000800A#64, 0x800000008000000A#64, 0x8000000080008081#64, 0x8000000000008080#64, 0x0000000080000001#64, 0x8000000080008008#64]

/-- One round: theta, rho and pi, chi, iota. -/
def keccakRound (a : Lanes) (rc : Word) : Lanes :=
  let c := (List.range 5).map fun x => lane a x ^^^ lane a (x + 5) ^^^ lane a (x + 10) ^^^ lane a (x + 15) ^^^ lane a (x + 20)
  let d := (List.range 5).map fun x => lane c ((x + 4) % 5) ^^^ (lane c ((x + 1) % 5)).rotateLeft 1
  let a := (List.range 25).map fun i => lane a i ^^^ lane d (i % 5)
  -- pi takes lane (x + 3y) mod 5, x of the rotated state to place x, y
  let b := (List.range 25).map fun i =>
    let j := (i % 5 + 3 * (i / 5)) % 5 + 5 * (i % 5)
    (lane a j).rotateLeft (keccakRot.getD j 0)
  let a := (List.range 25).map fun i =>
    lane b i ^^^ (~~~(lane b (i / 5 * 5 + (i + 1) % 5)) &&& lane b (i / 5 * 5 + (i % 5 + 2) % 5))
  match a with
  | h :: t => (h ^^^ rc) :: t
  | [] => []

def keccakF (a : Lanes) : Lanes := keccakRc.foldl keccakRound a

/-- Lanes of a block of at most 136 bytes. -/
def blockLanes (b : List Byte) : Lanes := (List.range 25).map fun i => BitVec.ofNat 64 (natOf ((b.drop (8 * i)).take 8))

/-- Absorb whole blocks of 136 bytes. -/
def absorb : Nat → Lanes → List Byte → Lanes
  | 0, a, _ => a
  | n + 1, a, b => absorb n (keccakF ((List.range 25).map fun i => lane a i ^^^ lane (blockLanes (b.take 136)) i)) (b.drop 136)

/-- Padding: the domain byte, zeros, and the last bit of the last block. -/
def padded (dom : Byte) (m : List Byte) : List Byte :=
  let k := 135 - m.length % 136
  if k = 0 then m ++ [dom ||| 0x80] else m ++ dom :: List.replicate (k - 1) 0 ++ [0x80]

/-- The sponge of rate 136 bytes with at most 136 bytes of output. -/
def sponge (dom : Byte) (m : List Byte) (n : Nat) : List Byte :=
  let p := padded dom m
  ((absorb (p.length / 136) (List.replicate 25 0) p).flatMap fun w => bytesOf 8 w.toNat).take n

def shake256 (m : List Byte) (n : Nat) : List Byte := sponge 0x1F m n

/-- left_encode of a number below 2^16. -/
def leftEncode (x : Nat) : List Byte := if x < 256 then [1, BitVec.ofNat 8 x] else [2, BitVec.ofNat 8 (x / 256), BitVec.ofNat 8 x]
def rightEncode (x : Nat) : List Byte := if x < 256 then [BitVec.ofNat 8 x, 1] else [BitVec.ofNat 8 (x / 256), BitVec.ofNat 8 x, 2]
def encodeString (s : List Byte) : List Byte := leftEncode (8 * s.length) ++ s
def bytepad (s : List Byte) : List Byte := let t := leftEncode 136 ++ s; t ++ List.replicate ((136 - t.length % 136) % 136) 0

/-- KMAC256 with 32 bytes of output. -/
def kmac256 (key m cust : List Byte) : List Byte :=
  sponge 0x04 (bytepad (encodeString [0x4B, 0x4D, 0x41, 0x43] ++ encodeString cust) ++ bytepad (encodeString key) ++ m ++ rightEncode 256) 32

end Sys2Proof.Machine
end

