-- ==== Sys2Proof/Machine/Trust.lean ====
section
/-! DEFINITION. Package reset and power loss, verified boot and recovery (R26, R50-R58), attestation (R59), key commands (R61, R62),
management messages (R66-R70), package-fatal conditions and the dump (R71-R74). -/
namespace Sys2Proof.Machine

/-! Reset (R26, R57, R74). -/

/-- What survives in fuses, counters and board flash. -/
def Pkg.lasting (p : Pkg) : Pkg := { svnMin := p.svnMin, attIndex := p.attIndex, blazeFlash := p.blazeFlash }
/-- What HBM and the tiers beyond it hold once L2 is gone: dirty sectors are lost, poison of isolation too (R45, R136). -/
def State.belowL2 (s : State) : State :=
  let s := s.isoPoison.foldl (fun (s : State) q => { s with poison := s.poison.del q.1 }) s
  let s := s.back.foldl (fun s q => s.showBelow q.1) s
  s.backPoison.foldl (fun s q => s.showBelow q.1) s
/-- The package after a reset: HBM, READY and LOST survive when HBM is held in self-refresh (R74); no slot holds a key (R61). Host memory
is not the package's; the model's own lists stay. -/
def State.packageReset (s : State) : State :=
  let h : SMap Byte := s.mem.filter fun q => tierOf q.1 == .host
  let r : State := { State.reset with pkg := s.pkg.lasting, mem := h, agenda := s.agenda, out := s.out, fresh := s.fresh + 1 }
  if Config.selfRefresh s.fresh then
    let b := s.belowL2
    { r with mem := b.mem.filter fun q => tierOf q.1 != .none, poison := b.poison, keyTag := b.keyTag, hbmErr := s.hbmErr, hbmCor := s.hbmCor
             io := SMap.put 0 [] 0x0808 (BitVec.ofNat 64 (s.ioBits 0x0808 0 1 + s.ioBits 0x0808 16 16 * 65536)) }
  else r
def execPackageReset (s : State) : Out := .next s.packageReset
def execPowerLoss (s : State) : Out :=
  .next { State.reset with pkg := s.pkg.lasting, mem := s.mem.filter fun q => tierOf q.1 == .host, agenda := s.agenda, out := s.out, fresh := s.fresh }

/-! Verified boot (R52-R58). -/

/-- A field of an image's header (R52). -/
def headByte (img : List Byte) (i n : Nat) : Nat := natOf ((img.drop i).take n)
def imageBody (img : List Byte) : List Byte := (img.drop 256).take (headByte img 8 8)
def imageSig (img : List Byte) : BitVec 22560 := BitVec.ofNat 22560 (natOf ((img.drop (256 + headByte img 8 8)).take 2820))
/-- The signature over the header verifies under a vendor key that is not revoked (R53 step 3). -/
def vendorSigned (img : List Byte) : Bool :=
  (List.range 4).any fun i => !Config.keyRevoked i && Config.xmssVerify (Config.vendorKey i) (BitVec.ofNat 2048 (natOf (img.take 256))) (imageSig img)
/-- The checks of R53 steps 1 to 4 in order: 0, or the ERR that BOOT_STAT records (R55). The spec gives an SVN above 63, a nonzero
FLAGS[15:1], and an image that is not as long as its LEN says, no check of their own: here they fail step 1 (DESIGN CHOICE, log 75). -/
def State.imageErr (s : State) (img : BootImage) (id : Nat) : Nat :=
  let h := img.bytes
  if !img.readOk then 5
  else if headByte h 0 4 ≠ 0x49394C4F ∨ headByte h 4 1 ≠ id ∨ 63 < headByte h 5 1 ∨ 1 < headByte h 6 2 ∨ 0x4000000 < headByte h 8 8 ∨
      headByte h 0x50 176 ≠ 0 ∨ h.length ≠ 256 + headByte h 8 8 + 2820 then 1
  else if headByte h 0x10 64 ≠ natOf (shake256 (imageBody h) 64) then 2
  else if !vendorSigned h then 3
  else if headByte h 5 1 < s.pkg.svnMin.getD id 0 then 4
  else 0
/-- The measurements one after the other. -/
def State.measBytes (s : State) : List Byte := (List.range 8).flatMap fun i => bytesOf 64 (s.pkg.meas.getD i 0).toNat
/-- A fresh attestation key, certified with the next identity index, unless the index is exhausted (R57, R58). -/
def State.newAttKey (s : State) : State :=
  if s.pkg.attIndex < 2 ^ 20 then
    let i := s.pkg.attIndex
    let (v, s) := s.free
    let key : BitVec 544 := v.setWidth 544
    let sig := Config.identitySign i (bytesOf 68 key.toNat ++ s.measBytes ++ bytesOf 4 i)
    let s := s.modPkg fun p => { p with attIndex := i + 1, attUsed := 0, attKey := key, attCert := i, attSig := sig }
    if i + 1 = 2 ^ 20 then s.ioSet 0x0608 1 else s
  else (s.ioSet 0x0608 1).modPkg fun p => { p with attUsed := 1024 }
/-- A key that can still sign, a new one when the last has made its 1,024 signatures; false when none can be certified (R58). -/
def State.attReady (s : State) : Bool × State :=
  let s := if s.pkg.attUsed < 1024 then s else s.newAttKey
  (decide (s.pkg.attUsed < 1024), s)
/-- All four images have started (R54, R58); the control cores run their firmware (log 34). -/
def State.bootDone (s : State) : State :=
  let s := s.ioField 0x0600 0 1 1
  let s := s.modPkg fun p => { p with svnMin := p.commits.foldl (fun m q => m.put 0 q.1 (max (m.getD q.1 0) q.2)) p.svnMin }
  let s := s.newAttKey
  (List.range 8).foldl (fun s i => s.modCore (256 + i) fun c =>
    let e := Config.firmwareEntry (256 + i)
    { c with run := .running, pc := e, seg := { ckaddr := e } }) s
/-- Steps 5 and 6 of R53: the measurement is extended and the image starts. Base-die configuration reloads the blaze map (R144). -/
def State.imageStart (s : State) (img : BootImage) (id : Nat) : State :=
  let h := img.bytes
  let old := s.pkg.meas.getD id 0
  let m : BitVec 512 := BitVec.ofNat 512 (natOf (shake256 (bytesOf 64 old.toNat ++ bytesOf 64 (headByte h 0x10 64)) 64))
  let s := s.modPkg fun p => { p with
    meas := p.meas.put 0 id m, stage := id
    commits := if headByte h 6 2 % 2 = 1 then p.commits.ins id (headByte h 5 1) else p.commits }
  -- a slice that the reloaded map leaves with fewer than 2 usable ways in a set retires before it takes a request (R135, R145)
  let s := if id = 2 then (List.range 192).foldl State.retireSlice { s with blaze := s.pkg.blazeFlash } else s
  if id = 4 then s.bootDone else s
def State.bootFail (s : State) (id err : Nat) : State :=
  let s := (s.ioField 0x0600 8 8 id).ioField 0x0600 4 4 err
  (s.modPkg fun p => { p with stopped := true }).alert 5
def execBootImageVerify (img : BootImage) (s : State) : Out :=
  let id := s.pkg.stage + 1
  .next (if s.pkg.stopped ∨ 4 < id then s
    else
      let e := s.imageErr img id
      if e = 0 then s.imageStart img id else s.bootFail id e)
/-- Cluster n powers up after the clusters before it (R26). -/
def execClusterPowerUp (n : BitVec 6) (s : State) : Out :=
  .next (if 4 ≤ s.pkg.stage ∧ s.pkg.powered.toNat % 2 ^ n.toNat = 2 ^ n.toNat - 1 then
    s.modPkg fun p => { p with powered := p.powered ||| BitVec.ofNat 64 (2 ^ n.toNat) } else s)

/-! Recovery by the host (R56). -/

/-- A command ends: STATUS. Outside a stopped boot it reads 0x20. -/
def State.mailStatus (s : State) (st : Nat) : State :=
  s.modPkg fun p => { p with mbox := { p.mbox with run := 0, status := if p.stopped then BitVec.ofNat 64 st else 0x20 } }
/-- The host writes the mailbox line: a write of CMD in a stopped boot starts a command unless one is in progress, and CMD is cleared
as it is accepted. A CMD that names no command is kept and starts none (DESIGN CHOICE, log 76). -/
def State.mailWrite (s : State) (off : Nat) (v : Word) : State :=
  let m := s.pkg.mbox
  let put (m : Mailbox) : State := s.modPkg fun p => { p with mbox := m }
  if off = 8 then put { m with addr := v }
  else if off = 16 then put { m with len := v }
  else if off ≠ 0 ∨ !s.pkg.stopped ∨ m.status = 0 then s
  else if v = 1 ∨ v = 2 then put { m with cmd := 0, status := 0, run := v.toNat }
  else put { m with cmd := v }
/-- The host answers the read of the image with what its memory holds by then: the bytes that it has written at ADDR since, if any
(log 40). A line that it has written is in the host-line cache no more, and no watch sleeps on it (R29, R37). -/
def State.hostHands (s : State) (d : List Byte) : State :=
  let a := 0xC000000000000 + s.pkg.mbox.addr.toNat
  let b := d.take (min s.pkg.mbox.len.toNat (2 ^ 52 - a))
  let hit (l : Nat) : Bool := decide (b ≠ [] ∧ a < 64 * l + 64 ∧ 64 * l < a + b.length)
  { s with
    mem := writeMap s.mem a b, pkg := { s.pkg with hostCache := s.pkg.hostCache.filter fun q => !hit q.1 }
    cores := s.cores.map fun q => (q.1, { q.2 with watches := q.2.watches.map fun w => if hit (w.pa / 64) then { w with asleep := false } else w }) }
/-- The image that the command names, read from host memory over CXL.io. -/
def State.mailImage (s : State) : BootImage :=
  ⟨s.readPhys (0xC000000000000 + s.pkg.mbox.addr.toNat) (min s.pkg.mbox.len.toNat (256 + 0x4000000 + 2820 + 1)), true⟩
/-- CMD 0x01: the image of the stage at which the boot stopped, from host memory. On failure STATUS names the check of R53 that failed,
and BOOT_STAT.ERR reads 0x6, "recovery image failed": the spec writes ERR for both (DESIGN CHOICE, log 77). Nor does it say whether such a
failure raises the boot-failure interrupt 0x05 again once that was acknowledged: here it raises none (R70; DESIGN CHOICE, log 109). -/
def execBootFromHost (img : List Byte) (s : State) : Out :=
  .next (if !s.pkg.stopped || s.pkg.mbox.run != 1 then s
    else
      let s := s.hostHands img
      let img := s.mailImage
      let id := s.pkg.stage + 1
      let e := s.imageErr img id
      if e ≠ 0 then (s.ioField 0x0600 4 4 6).mailStatus (0x10 + e)
      else
        let s := ((s.ioField 0x0600 8 8 0).ioField 0x0600 4 4 0).ioField 0x0600 3 1 1
        ((s.modPkg fun p => { p with stopped := false }).imageStart img id).mailStatus 1)
/-- CMD 0x02: an image of any id is verified and written to flash, then the package is reset. An image that fails leaves BOOT_STAT.ERR as
it was: the spec's code 0x6 is recorded for the image that was to be booted (DESIGN CHOICE, log 76). -/
def execVerifyAndWriteFlash (img : List Byte) (s : State) : Out :=
  .next (if !s.pkg.stopped || s.pkg.mbox.run != 2 then s
    else
      let s := s.hostHands img
      let img := s.mailImage
      let id := headByte img.bytes 4 1
      let e := if id = 0 ∨ 4 < id then 1 else s.imageErr img id
      if e ≠ 0 then s.mailStatus (0x10 + e)
      else (s.send chFlash img.bytes).packageReset)

/-! Management messages of the device's own: type 0x7F, the enterprise number, then the message (R66, R67; log 83). -/

def State.vendor (s : State) (b : List Byte) : State := s.send chMctp ([0x7F] ++ (bytesOf 4 Config.iana.toNat).reverse ++ b)

/-! Attestation (R59). -/

/-- The report: the fields in order, then the attestation key's signature over them. -/
def State.report (s : State) (nonce : BitVec 256) : State :=
  let p := s.pkg
  let body := bytesOf 32 nonce.toNat ++ s.measBytes ++ bytesOf 68 p.attKey.toNat ++ bytesOf 4 p.attCert ++ bytesOf 2820 p.attSig.toNat
  (s.vendor ([0x03, 0x00] ++ body ++ bytesOf 2500 (Config.attSign p.attKey p.attUsed body).toNat)).modPkg fun p => { p with attUsed := p.attUsed + 1 }
/-- A request with a nonce: a report, or status 0x05 once ATT_EXH reads 1 (R58). Before the boot is done there is no key, and the
spec gives no answer: here none is sent (DESIGN CHOICE, log 78). -/
def execAttestationRequest (nonce : BitVec 256) (s : State) : Out :=
  .next (if s.pkg.stage < 4 then s
    else
      let (ready, s) := s.attReady
      if ready && s.ioGet 0x0608 == 0 then s.report nonce else s.vendor [0x03, 0x05])

/-! Key commands (R61, R62). -/

def keyReg (k : Nat) : Nat := 0x2000 + 16 * k
/-- A command starts unless one is in progress. -/
def State.keyCmd (s : State) (k cmd : Nat) : State :=
  if (s.ioGet (keyReg k)).getLsbD 7 ∨ cmd = 0 ∨ 3 < cmd then s
  else (s.ioField (keyReg k) 7 1 1).modPkg fun p => { p with keyOp := p.keyOp.ins k cmd }
def execKeyLoad (k : BitVec 6) (s : State) : Out := .next (s.keyCmd k.toNat 1)
def execKeyGen (k : BitVec 6) (s : State) : Out := .next (s.keyCmd k.toNat 2)
def execKeyZero (k : BitVec 6) (s : State) : Out := .next (s.keyCmd k.toNat 3)
/-- An access accepted under the slot's key has still to be performed. -/
def State.keyInUse (s : State) (k : Nat) : Bool :=
  (s.flight.any fun f => match f.rel with | .store _ q _ _ _ => q == k | .vamo _ q _ _ _ _ _ => q == k | .pair _ q _ _ _ => q == k | _ => false) ||
  s.cores.any fun c => (c.2.loads.any fun l => l.pieces.any fun p => p.key == k) ||
    (c.2.aq.any fun l => l.pieces.any fun p => p.key == k) || (c.2.dq.any fun l => l.data.isNone && l.pieces.any fun p => p.key == k) ||
    c.2.cmds.any fun x => x.started && !x.isNet
/-- The key that KEYDATA0 to KEYDATA7 hold. When a LOAD takes them the spec does not say: here as it completes, so that a write while BUSY
reads 1 changes the key (R61; DESIGN CHOICE, log 117). -/
def State.keyData (s : State) : BitVec 512 := BitVec.ofNat 512 (natOf ((List.range 8).flatMap fun i => bytesOf 8 (s.ioGet (0x2400 + 8 * i)).toNat))
/-- Sectors that were written back under the slot while the command ran stand under its new key (R62). -/
def State.keyLanded (s : State) (k : Nat) : State :=
  let late := s.pkg.keyLate.filter fun q => q.2 == k
  { s with
    keyTag := late.foldl (fun m q => match s.keyOf k with | some v => m.ins q.1 v | none => m.del q.1) s.keyTag
    pkg := { s.pkg with keyLate := s.pkg.keyLate.filter fun q => q.2 != k } }
/-- The command has its effect once no access is left under the old key; accesses and writebacks that were held follow (R61, R62). -/
def State.keyDone (s : State) (k : Nat) : State :=
  match s.pkg.keyOp.get? k with
  | none => s
  | some cmd =>
    if s.keyInUse k then s
    else
      let s := (s.ioField (keyReg k) 7 1 0).ioField (keyReg k) 6 1 (if cmd = 3 then 0 else 1)
      let s : State :=
        if cmd = 1 then (List.range 8).foldl (fun s i => s.ioSet (0x2400 + 8 * i) 0) { s with keys := s.keys.ins k s.keyData }
        else if cmd = 2 then (let (v, s) := s.free; { s with keys := s.keys.ins k (v.setWidth 512) })
        else { s with keys := s.keys.del k }
      let s := s.keyLanded k
      let s : State := { s with agenda := s.pkg.held ++ s.agenda, pkg := { s.pkg with keyOp := s.pkg.keyOp.del k, held := [] } }
      s.oftDrain (s.pkg.oftAhead.length)
def execKeyCommandComplete (k : BitVec 6) (s : State) : Out := .next (s.keyDone k.toNat)

/-! Management (R66-R70). -/

def execSetEndpointId (eid : BitVec 8) (s : State) : Out := .next ((s.modPkg fun p => { p with eid }).send chMctp [0x00, 0x01, 0x00, eid])
def execGetEndpointId (s : State) : Out := .next (s.send chMctp [0x00, 0x02, 0x00, s.pkg.eid])
/-- MCTP control (0x00) and Vendor Defined – IANA (0x7F). -/
def execGetMessageTypeSupport (s : State) : Out := .next (s.send chMctp [0x00, 0x05, 0x00, 0x02, 0x00, 0x7F])
def execI3cDynamicAddressAssignment (addr : BitVec 7) (s : State) : Out := .next (s.modPkg fun p => { p with i3c := addr })

/-- The status of a cap message (R68, R69); SRC is looked at after the checks of R69 (log 35). -/
def State.capStatus (s : State) (m : BitVec 384) : Nat :=
  let key := (List.range 4).flatMap fun i => bytesOf 8 (s.ioGet (0x0720 + 8 * i)).toNat
  let mac := kmac256 key (bytesOf 16 m.toNat) [0x4F, 0x4C, 0x39, 0x20, 0x43, 0x41, 0x50]
  let seq := m.extractLsb' 64 64
  if s.ioBits 0x0600 0 1 = 0 then 3
  else if s.ioBits 0x0718 0 1 = 0 then 4
  else if natOf mac ≠ bits m.toNat 128 256 then 1
  else if (match s.pkg.capSeq with | some q => decide (seq.toNat ≤ q.toNat) | none => false) then 2
  else if 1 < bits m.toNat 8 8 then 6
  else 0
/-- The grants are computed again before the answer. The spec does not say which U this computation uses: here the last one measured, 0
before the first (R95; DESIGN CHOICE, log 80). -/
def execCap (msg : BitVec 384) (s : State) : Out :=
  let st := s.capStatus msg
  .next (if st ≠ 0 then s.vendor [0x01, BitVec.ofNat 8 st]
    else
      let lim := bits msg.toNat 16 16
      let w := if lim = 0 then 0 else max lim 400
      let s := s.modPkg fun p =>
        let p := { p with capSeq := some (msg.extractLsb' 64 64) }
        if bits msg.toNat 8 8 = 0 then { p with capHall := w } else { p with capHost := w }
      (s.recompute s.pkg.used).vendor [0x01, 0x00])
/-- Power and rail currents are readings; CAP_CAUSE and DERATE stand in their registers (R67). -/
def execReadTelemetry (s : State) : Out :=
  let v := Config.telemetry s.fresh
  .next (({ s with fresh := s.fresh + 1 }).vendor ([0x02] ++ bytesOf 16 v.toNat ++
    ((List.range 8).flatMap fun p => bytesOf 8 (s.ioGet (0x4180 + 8 * p)).toNat) ++ bytesOf 8 (s.ioGet 0x4008).toNat))
def execDumpStatus (s : State) : Out := .next (s.vendor ([0x04] ++ bytesOf 4 (s.ioGet 0x0808).toNat))
def execAlertAcknowledge (kind : BitVec 8) (s : State) : Out :=
  .next ((s.modPkg fun p => { p with alerts := p.alerts.del kind.toNat }).vendor [0x05, 0x00])

/-! Package-fatal conditions and the dump (R71-R74). -/

/-- The causes of R71 and 0x20D of R148. -/
def execPackageFatal (cause : Cause) (s : State) : Out :=
  .next (if 0x208 ≤ cause.toNat ∧ cause.toNat ≤ 0x20D then s.packageFatal cause else s)
def execRotWatchdogExpire (s : State) : Out := .next (s.packageFatal 0x20A#10)
/-- A die's sensor is read: at TRIP the package stops; else one step down above THROT, one up at 3 °C below (R92). -/
def execThermalCeilingStep (die : BitVec 2) (temp : BitVec 8) (s : State) : Out :=
  let s := s.sensorRead die temp
  let throt := s.ioBits 0x4018 0 8
  .next (if s.ioBits 0x4018 16 8 ≤ temp.toNat then s.packageFatal 0x20B#10
    else if throt < temp.toNat then s.ceilingStep (railCores die.toNat) true 2
    else if temp.toNat + 3 ≤ throt then s.ceilingStep (railCores die.toNat) false 2 else s)
def execThermalTrip (s : State) : Out := .next (s.packageFatal 0x20B#10)

/-- The root of trust writes the granule through the HBM controllers: past L2, in the clear (R73). The host is asked for a line that it holds
before its bytes change (R30). -/
def State.dumpWrite (s : State) (pa : Nat) (b : List Byte) : State :=
  (sectorsOf pa b.length).foldl (fun s k =>
    let old := bytesOf 32 (s.below k).toNat
    let new := (List.range 32).map fun i => let a := k * 32 + i; if pa ≤ a ∧ a < pa + b.length then b.getD (a - pa) 0 else old.getD i 0
    let s := s.snoopNow (k / 2)
    let s := { s with keyTag := s.keyTag.del k, hbmErr := clearErr s.hbmErr k, hbmCor := clearErr s.hbmCor k, backPoison := s.backPoison.del k }
    if s.inL2 k then { s with back := s.back.ins k (BitVec.ofNat 256 (natOf new)) }
    else { (s.writePhys (k * 32) new) with poison := s.poison.del k }) s
/-- A tag entry of the dump (R72). -/
def L2Line.tagBytes (l : L2Line) (poison : Bool) : List Byte :=
  bytesOf 8 (l.tag % 2 ^ 46 + l.owner.toNat * 2 ^ 46 + l.dirty.toNat * 2 ^ 52 + l.valid.toNat * 2 ^ 54 + l.rrpv.toNat * 2 ^ 56 +
    (if l.u then 2 ^ 58 else 0) + (if poison then 2 ^ 59 else 0))
/-- The sections of the dump, each whole; records still on their way to the fault-service queue are in the logs (R148); a log shorter
than its section, a set with no disabled way and an invalid way leave zeros (R72). -/
def State.writeDump (s : State) (base : Nat) : State :=
  let s := (List.range 264).foldl (fun s c => s.dumpWrite (base + 0x2000 + 64 * c) (s.core c).trec.bytes) s
  let s := (List.range 264).foldl (fun s c => s.dumpWrite (base + 0x100000 + 8192 * c) (((s.core c).copyBytes ++ List.replicate 8192 0).take 8192)) s
  let s := s.dumpWrite (base + 0x400000) ((((s.pkg.errLog ++ (s.recq.filter fun (r : FsqRec) => r.typ == 2).map FsqRec.body).flatten) ++ List.replicate 0x100000 0).take 0x100000)
  let s := s.dumpWrite (base + 0x800000) ((List.range (192 * 8192)).flatMap fun k => bytesOf 2 (s.blaze.getD k 0).toNat)
  s.dumpWrite (base + 0x1000000) ((List.range (192 * 8192 * 16)).flatMap fun n => match s.l2.get? n with
    | some l => l.tagBytes (s.poison.has (2 * l.tag) || s.poison.has (2 * l.tag + 1))
    | none => bytesOf 8 0)
/-- The header after MAGIC up to the signature, in the order of R73; the widths of its words are this model's (log 37). The digest is over
the bytes as they stand in HBM; R73's "to the end" is read as the end of the granule (DESIGN CHOICE, log 94). -/
def State.dumpHead (s : State) (base : Nat) : List Byte :=
  let rest := (List.range ((2 ^ 29 - 0x2000) / 32)).flatMap fun i => bytesOf 32 (s.cipher ((base + 0x2000) / 32 + i)).toNat
  bytesOf 8 s.fatal.toNat ++ bytesOf 8 (if s.pkg.dumpPartial then 1 else 0) ++ bytesOf 8 s.tmr.toNat ++ bytesOf 8 s.pkg.attCert ++
    shake256 rest 64 ++ bytesOf 68 s.pkg.attKey.toNat
/-- The root of trust has written the dump: MAGIC cleared, sections, digest and signature, MAGIC; or FAIL when it cannot sign (R73). -/
def State.finishDump (s : State) : State :=
  let base := s.ioBits 0x0800 29 23 * 2 ^ 29
  let s := (s.dumpWrite base (bytesOf 8 0)).writeDump base
  let (ready, s) := s.attReady
  let signs := Config.dumpSigns s.fresh && ready && decide (s.pkg.stage = 4)
  let magic := bytesOf 8 0x504D5544394C4F
  let head := s.dumpHead base
  let s := { s with fresh := s.fresh + 1, pkg := { s.pkg with dumping := false, dumpPartial := false } }
  if signs then
    let sig := Config.attSign s.pkg.attKey s.pkg.attUsed (magic ++ head)
    let s := s.modPkg fun p => { p with attUsed := p.attUsed + 1 }
    ((((s.dumpWrite (base + 8) (head ++ bytesOf 2500 sig.toNat)).dumpWrite base magic).ioField 0x0808 0 1 1).msi 251).alert 4
  else (s.dumpWrite (base + 8) head).ioField 0x0808 1 1 1
def execDumpWritten (s : State) : Out := .next (if s.pkg.dumping then s.finishDump else s)
def execDumpRelease (s : State) : Out := .next (s.ioField 0x0808 0 1 0)

end Sys2Proof.Machine
end

