-- ==== Sys2Proof/Machine/Registers.lean ====
section
/-! DEFINITION. What reads and writes of the I/O-die registers do beyond their own bits (R5, R6, R22-R25, R32, R46, R47, R61, R68, R89,
R92, R108, R147, R161, R162, R229-R233, R462). -/
namespace Sys2Proof.Machine

/-- The state that CORE_RES shows (R232). -/
def Core.resState (c : Core) : Nat :=
  match c.run with
  | .parked => 1
  | .rolling => 2
  | _ => if c.chunk.isNone && !c.resident.isEmpty then 3 else 0
/-- The value that a read of a register returns. -/
def State.ioRead (s : State) (o : Nat) : Word :=
  match ioReg o with
  | none => 0
  | some r =>
    if r.wo then 0
    else match ioIdx o 0xF100 8 264, ioIdx o 0x10000 8 2112 with
      | some c, _ => BitVec.ofNat 64 (4 * (s.core c).resState)
      | _, some i => BitVec.ofNat 64 (natOf (((s.core (i / 8)).trec.bytes.drop (8 * (i % 8))).take 8))
      | _, _ =>
        if (ioIdx o 0x6C00 8 256).isSome then s.ioGet o &&& bitsMask 8 0
        else if o = 0x8230 then BitVec.ofNat 64 ((List.range 1024).filter fun i => (s.ioGet (0x8800 + 8 * i)).getLsbD 63).length
        else s.ioGet o

/-- An entry is well formed (R162). -/
def State.regionOk (s : State) (r : Nat) : Bool :=
  decide (s.rgnOp r ≤ 12 ∧ 1 ≤ s.rgnLines r ∧ s.rgnBase r + 64 * s.rgnLines r ≤ 2 ^ 52 ∧ (s.rgnOp r = 12 → s.rgnFxp r ≤ 150))
/-- A write to register w of region r: pending updates of a valid entry are applied in every slice, then V follows R162. -/
def State.regionWrite (s : State) (r w : Nat) (v : Word) : State :=
  let was := s.rgnV r
  let s := if was then
      (List.range 192).foldl (fun s k => if s.deck.has (k * 256 + r) || s.runs.has (k * 256 + r) then s.applyRegion r k else s) s
    else s
  let o := 0xD000 + 32 * r
  let s := s.ioSet (o + 8 * w) (((ioReg (o + 8 * w)).getD {}).written (s.ioGet (o + 8 * w)) v)
  let want := if w = 0 then v.getLsbD 0 else was
  s.ioField o 0 1 (if want && s.regionOk r then 1 else 0)

/-- The effects of a write that changed register `o` from `old`; `v` is the value written. What a core or the Distributor does on one it does not
do after a package-fatal condition (R71). -/
def State.ioEffect (s : State) (o : Nat) (old v : Word) : State :=
  let new := s.ioGet o
  if o = 0x0500 then (if !new.getLsbD 0 then s.ioField 0x0508 1 3 0 else if v.getLsbD 1 then s.retrain else s)
  else if o = 0x0508 then (if v.getLsbD 0 then s.endIsolation else s)
  else if o = 0x4018 then s.ioField o 0 8 (min (bits new.toNat 0 8) (bits new.toNat 16 8 - 5))
  else if o = 0x8308 then (if v.getLsbD 0 && !old.getLsbD 7 then (s.ioField o 0 1 0).inject else s)
  else if o = 0xF008 then (if new.getLsbD 15 && !old.getLsbD 15 && s.fatal == 0 then s.fsqEnable else s)
  else match ioIdx o 0x0480 8 8 with
  | some p =>
    let s := if v.getLsbD 7 then s.portClr p else s
    if old.getLsbD 0 && !new.getLsbD 0 then s.portOff p else s
  | none => match ioIdx o 0x1008 16 64 with
  | some n => if new.getLsbD 14 && !old.getLsbD 14 && s.fatal == 0 then s.streamOn n else s
  | none => match ioIdx o 0x2000 16 64 with
  | some k => s.keyCmd k (bits v.toNat 0 3)
  | none => match ioIdx o 0x4040 8 7 with
  | some r => s.railEff r
  | none => match ioIdx o 0x6C00 8 256 with
  | some _ => s.ioSet o (BitVec.ofNat 64 (min 512 (max 64 v.toNat)))
  | none => match ioIdx o 0x8800 8 1024 with
  | some _ => (s.tlbLose (bits old.toNat 0 36 * 65536)).tlbLose (bits new.toNat 0 36 * 65536)
  | none => match ioIdx o 0xF100 8 264 with
  | some c => if bits v.toNat 0 2 = 1 ∧ s.fatal = 0 then s.resumeCore c else s
  | none => match ioIdx o 0xFA00 8 64 with
  | some n => if v.getLsbD 15 && s.fatal == 0 then s.termGo n (BitVec.ofNat 10 new.toNat) else s
  | none => s

/-- A write of a register by the supervisor, or by the host through the BAR0 mirror (R5, R6, R29). -/
def State.ioWrite (s : State) (o : Nat) (v : Word) : State :=
  match ioReg o with
  | none => s
  | some r =>
    match ioIdx o 0xD000 8 1024 with
    | some i => s.regionWrite (i / 4) (i % 4) v
    | none =>
      if (ioIdx o 0x0720 8 4).isSome && s.ioBits 0x0718 0 1 = 1 then s
      else
        let old := s.ioGet o
        (s.ioSet o (r.written old v)).ioEffect o old v

/-- Where BAR2 and the HDM decoder's base stand among the offsets of this event: beyond BAR0's 64 MiB (log 68). -/
def bar2At : Nat := 2 ^ 26
def hdmAt : Nat := 2 ^ 27
/-- A write by the host: the boot mailbox line and the mirror of the register block in BAR0, BAR2, the HDM decoder's base (R29, R56). -/
def State.hostWrite (s : State) (off : Nat) (v : Word) : State :=
  if off < 0x40 then s.mailWrite off v
  else if bar2At ≤ off ∧ off < bar2At + 8192 then s.modPkg fun p => { p with bar2 := p.bar2.put 0 ((off - bar2At) / 8) v }
  else if off = hdmAt then s.modPkg fun p => { p with hdmBase := v.setWidth 52 }
  else s.ioWrite off v
def execRegisterWrite (off : Nat) (v : Word) (s : State) : Out := .next (s.hostWrite off v)
def execRegionRegisterWrite (off : Nat) (v : Word) (s : State) : Out :=
  .next (match ioIdx off 0xD000 8 1024 with
    | some i => s.regionWrite (i / 4) (i % 4) v
    | none => s)

end Sys2Proof.Machine
end

