-- ==== Sys2Proof/Machine/Streams.lean ====
section
/-! DEFINITION. Launch streams as the reference dispatch program serves them (R33-R39, R42). That program is firmware of the control
cores; the spec gives it in full, and here the package serves each enabled stream by it (DESIGN CHOICE, log 73). -/
namespace Sys2Proof.Machine

/-- Ring size of a stream (R32). -/
def State.streamSize (s : State) (n : Nat) : Nat := let l := s.ioBits (0x1008 + 16 * n) 8 5; if 4 ≤ l ∧ l ≤ 16 then 2 ^ l else 16
/-- The control core that serves streams, as it accesses memory. -/
def dispatcher : Agent := ⟨256, 64, true⟩
/-- A bound of a level that the kernel lacks, or above 2^32 − 1. -/
def boundsBad (k : Kernel) (bounds : List Nat) : Bool := bounds.any (fun b => decide (2 ^ 32 ≤ b)) || (bounds.drop k.nlev).any fun b => b != 0
/-- CADDR is aligned and its page takes a user store of the context (R40). -/
def State.caddrOk (s : State) (ctx a : Nat) : Bool × State :=
  if a % 64 ≠ 0 then (false, s)
  else match s.xlate ⟨ctx, false, 256⟩ .store a 64 with
    | (.error _, s) => (false, s)
    | (.ok _, s) => (true, s)
/-- validate(): the status of the first check that fails, in the order of R39, 0 for none. A record of KIND 2 passes. A descriptor that
translates and cannot be read for poison or its link fails none of the checks of R294: the Distributor's own read then gives the cause as
the launch's status (DEDUCED, log 115). -/
def State.validate (s : State) (b : List Byte) (ctx : Nat) : Nat × State :=
  let f (o n : Nat) : Nat := natOf ((b.drop o).take n)
  if f 4 1 = 2 then (0, s)
  else if f 4 1 ≠ 1 then (0x8001, s)
  else if 16 ≤ f 5 1 ∨ 4 ≤ f 6 1 ∨ f 7 1 ≠ 0 ∨ f 0x62 30 ≠ 0 then (0x8002, s)
  else
    let (at', s) := s.xlate ⟨ctx, true, 265⟩ .load (f 8 8) 256
    let (d, s) := s.readDesc ctx (f 8 8)
    let invalid : Bool := match d with | .error e => e == 0x8003 | .ok _ => false
    if !at'.toOption.isSome || invalid then (0x8003, s)
    else if d.toOption.any fun q => boundsBad q.1 (launchOfRecord b ctx).bounds then (0x8004, s)
    else if f 5 1 / 4 % 2 = 1 ∧ 248 ≤ f 0x60 2 then (0x8005, s)
    else match s.caddrOk ctx (f 0x50 8) with
      | (true, s) => (0, s)
      | (false, s) => (0x8006, s)
/-- PRIO lowered to MAXP. -/
def lowerPrio (b : List Byte) (maxp : Nat) : List Byte := b.set 6 (BitVec.ofNat 8 (min ((natOf ((b.drop 6).take 1)) % 4) maxp))
/-- write_completion(): the line under R40 and the vector under R42. -/
def State.reject (s : State) (b : List Byte) (ctx status : Nat) : State :=
  let l := launchOfRecord b ctx
  let s := s.completionLine l status
  if l.irq && decide (l.vec < 248) then s.msi l.vec else s
/-- An overrun stops the stream: ERR is set, vector 252 is sent, and it is served no more before its next enable. -/
def State.stopStream (s : State) (n : Nat) : State :=
  ((s.ioField (0x1008 + 16 * n) 15 1 1).modPkg fun p => { p with streamHead := p.streamHead.del n }).msi 252
/-- HEAD is advanced and stored; the rest of its line is written as zero (R33). -/
def State.streamStep (s : State) (n : Nat) (head : Word) : State :=
  (s.performWrite dispatcher (s.streamBase n + 0x40) (2 ^ 64 - 1) (bytesOf 8 (head + 1).toNat ++ bytesOf 56 0) 64).2.modPkg fun p => { p with streamHead := p.streamHead.ins n (head + 1) }
/-- Record number HEAD of stream n, once the program's read of TAIL shows it; none while there is nothing to do: no record, one whose SEQ has
not arrived, or a full launch table. What the program does when its read of TAIL or of a record fails the spec does not say: here it tries
again, with no trap and no ERR (DESIGN CHOICE, log 115). -/
def State.serveStream (s : State) (n : Nat) (head : Word) : Option State :=
  let base := s.streamBase n
  let ctl := s.ioGet (0x1008 + 16 * n)
  -- a failed read changes what the next one meets only when it was one that the host left without answer (R31)
  let failed (t : State) : Option State := if (s.core 256).hostSlow && !(t.core 256).hostSlow then some t else none
  if !ctl.getLsbD 14 ∨ s.linkCause base ≠ 0 then none
  else
    let ((c, tail), s) := s.fetchData dispatcher base 8 64 2
    if c ≠ 0 then failed s
    else if natOf tail ≤ head.toNat then none
    else
      let ((c, b), s) := s.fetchData dispatcher (base + 0x80 + 128 * (head.toNat % s.streamSize n)) 128 64 2
      let seq := natOf (b.take 4)
      if c ≠ 0 then failed s
      else if seq ≠ head.toNat % 2 ^ 32 then (if seq = (head.toNat + s.streamSize n) % 2 ^ 32 then some (s.stopStream n) else none)
      else
        let (st, s) := s.validate b n
        -- only a record that is launched needs room in the table
        if st ≠ 0 then some ((s.reject b n st).streamStep n head)
        else if natOf ((b.drop 4).take 1) = 2 then some (s.streamStep n head)
        else if s.tableFull then none
        else some ((s.enterRecord (lowerPrio b (bits ctl.toNat 6 2)) n).streamStep n head)
/-- The streams, once the I/O-die firmware runs. -/
def State.streamMove (s : State) : Option State :=
  if s.ioBits 0x0600 0 1 = 0 ∨ !s.pkg.keyOp.isEmpty then none else s.pkg.streamHead.findSome? fun q => s.serveStream q.1 q.2

end Sys2Proof.Machine
end

