-- ==== Sys2Proof/Machine/System.lean ====
section
/-! DEFINITION. System-register moves, traps and returns, TLB and cache maintenance, waitline, launch and exit (R329-R331, R429-R437). -/
namespace Sys2Proof.Machine

/-! Per-core system registers (R431). -/

/-- ACCSTAT (R249). -/
def Core.accStat (c : Core) : Word :=
  BitVec.ofNat 64 ((List.range 4).foldl (fun t a => t + ((c.acc a).fmt.toNat + (if (c.acc a).sat then 4 else 0)) * 2 ^ (8 * a)) 0)
/-- OPSTAT (R82). -/
def Core.opStat (c : Core) : Word :=
  BitVec.ofNat 64 ((c.opKept.getD c.opReq).toNat + c.opCeil.toNat * 16 + c.opEff.toNat * 256 + (if c.opPwin then 4096 else 0) + (if c.opHwin then 8192 else 0) + c.mhz.toNat * 65536)
/-- SVSTAT (R435). -/
def Svc.stat (v : Svc) : Word :=
  BitVec.ofNat 64 ((if v.busy then 1 else 0) + (if v.tpend then 16 else 0) + v.notices.toNat * 256 + v.queue.length * 65536)
/-- Register n of a core, none when n names no register. ELVL shows a level rounded down, and 0xFFFFFFFF from 2^32 units on: R86 does not
say (DESIGN CHOICE, log 96). -/
def State.sysReg (s : State) (core n : Nat) : Option Word :=
  let c := s.core core
  if n < 8 then some ((Config.stand core n).setWidth 64)
  else if 0x10 ≤ n ∧ n < 0x18 then some (c.winG (n - 0x10))
  else if 0x18 ≤ n ∧ n < 0x20 then some (c.winS (n - 0x18))
  else if 0x20 ≤ n ∧ n < 0x26 then some (loopAddr (c.arch.loopLv (n - 0x20)).body ||| (if (c.arch.loopLv (n - 0x20)).act then 1 else 0))
  else if 0x28 ≤ n ∧ n < 0x2E then some (loopAddr (c.arch.loopLv (n - 0x28)).last)
  else if 0x30 ≤ n ∧ n < 0x36 then some ((c.arch.loopLv (n - 0x30)).iter.setWidth 64)
  else if 0x50 ≤ n ∧ n < 0x60 then some (c.arch.srctr.getD (n - 0x50) 0)
  else match n with
    | 0x08 => some c.opStat
    | 0x09 => some (s.ioGet 0x4010)
    | 0x0A => some (Config.engw.setWidth 64)
    | 0x0B => some c.eprof
    | 0x0C => some (BitVec.ofNat 64 (min c.elvl.floor.toNat 0xFFFFFFFF))
    | 0x0D => some c.latdecl
    | 0x0E => some c.accStat
    | 0x0F => some (c.cmiss.setWidth 64)
    | 0x40 => some c.arch.seed
    | 0x60 => some (BitVec.ofNat 64 core)
    | 0x61 => some c.svc.base
    | 0x62 => some c.svc.stat
    | 0x63 => some s.tmr
    | 0x64 => some c.svc.tcmp
    | 0x65 => if isCtl core then some (c.fscore.setWidth 64) else none
    | _ => none
/-- A write by its sequencer, after check 3 of R430: the registers that a table keeps for the supervisor raise 0x200 at user privilege. -/
def State.sysWrite (s : State) (n : Nat) (v : Word) : Res :=
  let keep (old mask : Word) : Word := (old &&& ~~~mask) ||| (v &&& mask)
  match n with
  | 0x0B => if s.supervisor then .ok (s.modCur fun c => { c with eprof := keep c.eprof 0xFFFFF000FFFFFFFF#64 }) else trapC 0x200#10
  | 0x0F => if s.supervisor then .ok (s.modCur fun c => { c with cmiss := v.setWidth 32 }) else trapC 0x200#10
  | 0x40 => if s.issue.svc then trapC 0x200#10 else .ok (s.modCur fun c => { c with arch := { c.arch with seed := v, srctr := [] } })
  | 0x61 => .ok (s.modCur fun c => { c with svc := { c.svc with base := v &&& 0x000FFFFFFFFFFFC1#64 } })
  | 0x64 => .ok (s.modCur fun c => { c with svc := { c.svc with tcmp := v } })
  | 0x65 => .ok (s.modCur fun c => { c with fscore := v.setWidth 9 })
  | _ => .ok s

/-- The register number of a per-core form. -/
def srNum (r : SrMove) : Nat := r.n.toNat
def execMfsr (o : OpInfo) (r : SrMove) (s : State) : Out :=
  s.runNow o fun s =>
    match s.sysReg s.issue.core (srNum r) with
    | none => trapC 0x203#10
    | some v => .ok (s.landG .s r.d v)
def execMtsr (o : OpInfo) (r : SrMove) (s : State) : Out :=
  s.runNow o fun s => do
    raiseIf (s.sysReg s.issue.core (srNum r)).isNone 0x203#10
    s.sysWrite (srNum r) (s.gpr .s r.d)

/-! Waiting for earlier operations (R430, R433, R436, R437). -/

/-- Operations of the core's main sequencer numbered below `seq`, not withheld, that are not yet performed at package scope. -/
def State.unperformedBelow (s : State) (core seq : Nat) : Bool :=
  let c := s.core core
  c.loads.any (fun l => decide (l.seq < seq)) || c.atoms.any (fun a => decide (a.seq < seq)) || c.mq.any (fun m => decide (m.seq < seq)) ||
    c.aq.any (fun e => decide (e.seq < seq)) || c.watches.any (fun w => decide (w.seq < seq)) || c.dq.any (fun e => e.data.isNone && decide (e.seq < seq)) ||
    c.cmds.any (fun k => k.underway && !k.isPut && decide (k.seq < seq)) || s.flight.any fun f => f.core == core && decide (f.seq < seq)
/-- An operation that a hold performs. -/
def Hold.performs : Hold → Bool
  | .launch _ _ _ => true
  | .sys _ _ => true
  | _ => false
/-- Every such operation, and those of the group that its boundary performs. -/
def State.unperformed (s : State) (core : Nat) : Bool := s.unperformedBelow core s.seq || (s.core core).grp.holds.any Hold.performs

/-! Cache maintenance (R437). -/

/-- A dirty line of an owner goes back, with the errors that the writeback finds (R144, R146). -/
def State.cleanLine (s : State) (n : Nat) : State :=
  match s.l2.get? n with
  | none => s
  | some l =>
    if s.dirtyBad l ≠ 0 then s.loseLine n false 64
    else
      let cor := (List.range 2).filter fun i => l.dirty.getLsbD i && errIn s.l2Cor (l.tag * 2 + i)
      cor.foldl (fun s i => s.countCorrected n l.tag (2 * 2 ^ i) 64) (s.writeBack n l l.owner.toNat)
def State.wbCtx (s : State) (ctx : Nat) : State :=
  let s := s.l2.foldl (fun s q =>
    if q.2.u && (List.range 256).any fun r => s.rgnCtx r == ctx && s.rgnHasLine r q.2.tag then s.applyLine q.2.tag else s) s
  s.l2.foldl (fun s q => if q.2.owner.toNat = ctx then s.cleanLine q.1 else s) s
/-- The effect of such an operation of the core at issue. -/
def State.sysDo (s : State) (op : SysOp) : State :=
  match op with
  | .ioRead off d _ => s.landG .s d (s.ioRead off)
  | .ioWrite off v => s.ioWrite off v
  | .eret c => s.resumeCore c
  | .tlbi ctx va => { s with tlb := s.tlb.filter fun q => !(match ctx, va with
      | none, _ => true
      | some n, none => tlbCtx q.1 == n
      | some n, some a => tlbCtx q.1 == n && q.1 % 2 ^ 36 == a / leafSize q.2.level) }
  | .icinv => s.modCur fun c => { c with icache := [] }
  | .icinvPkg => { s with cores := s.cores.map fun q => (q.1, { q.2 with icache := [] }) }
  | .sdcinv => s.modCur fun c => { c with sdc := [] }
  | .wbctx n => s.wbCtx n
/-- The effect takes place at once when every earlier operation has been performed; else issue holds at the boundary after the group until
it has taken place (R430, R433, R436, R437). -/
def State.whenDone (s : State) (op : SysOp) : Res :=
  if !s.issue.svc && s.unperformed s.issue.core then .ok (s.hold (.sys op (match s.issue.since with | some (q, _) => q | none => s.seq)))
  else .ok (s.sysDo op)
/-- The effect of one that was held; a value read lands where it would have (R430). -/
def State.sysLate (s : State) (core : Nat) (op : SysOp) : State :=
  match op with
  | .ioRead off d n => s.modCore core fun c =>
      c.landIn (max 1 (c.latency .salu + n - c.seg.count)) (.s d.toNat) ((s.ioRead off).setWidth 1024) full64
  | _ => { ({ s with issue := { core } } : State).sysDo op with issue := s.issue }

/-! Block forms (R430). -/

/-- Checks 1 to 3: the offset. -/
def State.ioOffset (s : State) (r : IoMove) : Except TrapInfo Nat := do
  let o := ((s.gpr .s r.a).toNat + r.off.toNat) % 2 ^ 20
  raiseIf (!s.supervisor) 0x200#10
  raiseIf (o % 8 != 0) 0x082#10
  raiseIf (ioReg o).isNone 0x203#10
  .ok o
def execMfsrIo (o : OpInfo) (r : IoMove) (s : State) : Out :=
  s.runNow o fun s => do
    let off ← s.ioOffset r
    s.whenDone (.ioRead off r.d (s.cur.seg.count + 1))
def execMtsrIo (o : OpInfo) (r : IoMove) (s : State) : Out :=
  s.runNow o fun s => do
    let off ← s.ioOffset r
    s.whenDone (.ioWrite off (s.gpr .s r.d))

/-! Traps and returns (R432-R434). -/

def execTrap (o : OpInfo) (r : TrapArgs) (s : State) : Out := s.runNow o fun _ => trapC (0x3C0#10 + r.imm.setWidth 10)
def execEret (o : OpInfo) (s : State) : Out :=
  s.runNow o fun s => do
    raiseIf (!s.supervisor) 0x200#10
    let c := s.cur.fscore.toNat
    raiseIf (decide (263 < c) || (s.core c).run != .parked) 0x204#10
    s.whenDone (.eret c)
def execSret (o : OpInfo) (s : State) : Out :=
  s.runNow o fun s => do
    raiseIf (!s.issue.svc) 0x001#10
    .ok (s.modCur fun c => { c with svc := { c.svc with busy := false } })

/-! TLB maintenance (R436). -/

def State.tlbi (s : State) (o : OpInfo) (ctx va : Option Nat) : Out :=
  s.runNow o fun s => do
    raiseIf (!s.supervisor) 0x200#10
    s.whenDone (.tlbi ctx va)
def execTlbiAll (o : OpInfo) (_ : ZeroFn) (s : State) : Out := s.tlbi o none none
def execTlbiCtx (o : OpInfo) (r : OneReg) (s : State) : Out := s.tlbi o (some ((s.gpr .s r.a).toNat % 64)) none
def execTlbiPage (o : OpInfo) (r : TwoReg) (s : State) : Out := s.tlbi o (some ((s.gpr .s r.a).toNat % 64)) (some (s.gpr .s r.b).toNat)

/-! Cache maintenance (R437). -/

def execCmntIcinv (o : OpInfo) (_ : ZeroFn) (s : State) : Out :=
  s.runNow o fun s => s.whenDone .icinv
def execCmntIcinvPkg (o : OpInfo) (_ : ZeroFn) (s : State) : Out :=
  s.runNow o fun s => do
    raiseIf (!s.supervisor) 0x200#10
    s.whenDone .icinvPkg
def execCmntSdcinv (o : OpInfo) (_ : ZeroFn) (s : State) : Out :=
  s.runNow o fun s => s.whenDone .sdcinv
def execCmntWbctx (o : OpInfo) (r : OneReg) (s : State) : Out :=
  s.runNow o fun s => do
    raiseIf (!s.supervisor) 0x200#10
    s.whenDone (.wbctx ((s.gpr .s r.a).toNat % 64))

/-! waitline, launch, exit (R329-R331). -/

def execWaitline (o : OpInfo) (r : WaitlineArgs) (s : State) : Out :=
  s.runLate o fun s => do
    raiseIf (!s.supervisor) 0x200#10
    let a := (s.gpr .s r.base + imm64 r.disp).toNat
    raiseAt (a % 64 != 0) 0x082#10 a
    let (ps, s) ← s.xlateR .load a 8
    let cls := r.cls.toNat
    -- an 8-byte load in its class (R177, R179)
    -- at most eight, and one to a token, but for what a group itself names (log 107)
    if s.mayStall && (decide (8 ≤ s.cur.watches.length) || s.cur.watches.any (fun w => w.tok == r.tok.toNat) || !s.cur.readsDone s.seq cls ps ||
        s.meetsFlight s.issue.core false ps) then .ok s.stallNow
    else
      let s ← s.keep (s.tokAdd r.tok.toNat 1)
      let (pa, key) := match ps with | p :: _ => (p.pa, p.key) | [] => (0, 64)
      let ((c, l), s) := s.readPieces s.who (s.seenBy s.issue.core s.issue.relN) 2 false ps
      let (q, s) := (s.touch (ps.map fun p => .piece p 2 false)).nextSeq
      let w : Watch :=
        { seq := q, tok := r.tok.toNat, dst := r.d.toNat, pa, va := a, asleep := c == 0 && BitVec.ofNat 64 (placed l) == s.gpr .s r.ix
          cause := c, tmo := r.tmo, relN := s.issue.relN, arr := o.arr, cls, key }
      .ok (s.modCur fun k => { k.arrivalDue o.arr q with watches := k.watches ++ [w] })
def execLaunch (o : OpInfo) (r : LaunchArgs) (s : State) : Out :=
  s.runNow o fun s => do
    raiseIf (!s.supervisor) 0x200#10
    let rec' := s.gpr .s r.a
    raiseAt (rec'.toNat % 128 != 0) 0x082#10 rec'.toNat
    .ok (s.hold (.launch rec' ((s.gpr .s r.b).toNat % 64) r.d.toNat))
/-- The bundle that holds it ends the tile run, once it has committed (R331). -/
def execExit (o : OpInfo) (s : State) : Out := s.runNow o fun s => .ok { s with issue := { s.issue with exit := true } }

end Sys2Proof.Machine
end

