-- ==== Sys2Proof/Machine/Slots.lean ====
section
/-! DEFINITION. What a row of the maps does with the fields of its word: exec of the instruction that Row.instr builds, in a form the
compiler takes. -/
namespace Sys2Proof.Machine

/-- The meaning of a row: exec of Row.instr (a law in Laws/Rows.lean). -/
def rowRun (r : Row) (o : OpInfo) (ex : Bool) (b : BitVec 20) (p : BitVec 24) (s : State) : Out :=
  match r with
  | .nop => execNop o s
  | .add => execAdd o (RRR.form.get ex b p) s
  | .sub => execSub o (RRR.form.get ex b p) s
  | .and => execAnd o (RRR.form.get ex b p) s
  | .or => execOr o (RRR.form.get ex b p) s
  | .xor => execXor o (RRR.form.get ex b p) s
  | .andn => execAndn o (RRR.form.get ex b p) s
  | .shl => execShl o (RRR.form.get ex b p) s
  | .shr => execShr o (RRR.form.get ex b p) s
  | .sra => execSra o (RRR.form.get ex b p) s
  | .rol => execRol o (RRR.form.get ex b p) s
  | .mul => execMul o (RRR.form.get ex b p) s
  | .mulhs => execMulhs o (RRR.form.get ex b p) s
  | .mulhu => execMulhu o (RRR.form.get ex b p) s
  | .min => execMin o (RRR.form.get ex b p) s
  | .max => execMax o (RRR.form.get ex b p) s
  | .minu => execMinu o (RRR.form.get ex b p) s
  | .maxu => execMaxu o (RRR.form.get ex b p) s
  | .addw => execAddw o (RRR.form.get ex b p) s
  | .subw => execSubw o (RRR.form.get ex b p) s
  | .movr => execMovr o (RR.form.get ex b p) s
  | .addImm => execAddImm o (RImm.form.get ex b p) s
  | .andImm => execAndImm o (RImm.form.get ex b p) s
  | .orImm => execOrImm o (RImm.form.get ex b p) s
  | .xorImm => execXorImm o (RImm.form.get ex b p) s
  | .shlImm => execShlImm o (RShift.form.get ex b p) s
  | .shrImm => execShrImm o (RShift.form.get ex b p) s
  | .sraImm => execSraImm o (RShift.form.get ex b p) s
  | .mulImm => execMulImm o (RImm.form.get ex b p) s
  | .mov => execMov o (RLong.form.get ex b p) s
  | .movhi => execMovhi o (RLong.form.get ex b p) s
  | .cmp => execCmp o (CmpReg.form.get ex b p) s
  | .cmpImm => execCmpImm o (CmpImm.form.get ex b p) s
  | .pand => execPand o (PredLogic.form.get ex b p) s
  | .por => execPor o (PredLogic.form.get ex b p) s
  | .pxor => execPxor o (PredLogic.form.get ex b p) s
  | .pandn => execPandn o (PredLogic.form.get ex b p) s
  | .xfr => execXfr o (Xfer.form.get ex b p) s
  | .br => execBr o (Disp.form.get ex b p) s
  | .call => execCall o (Disp.form.get ex b p) s
  | .brz => execBrz o (BrReg.form.get ex b p) s
  | .brnz => execBrnz o (BrReg.form.get ex b p) s
  | .ret => execRet o s
  | .jr => execJr o (JrArgs.form.get ex b p) s
  | .loop => execLoop o (LoopReg.form.get ex b p) s
  | .loopi => execLoopi o (LoopImm.form.get ex b p) s
  | .mtcfg => execMtcfg o (MtcfgArgs.form.get ex b p) s
  | .mftcfg => execMftcfg o (MftcfgArgs.form.get ex b p) s
  | .dfpk => execDfpk o (DescField.form.get ex b p) s
  | .dfex => execDfex o (DescField.form.get ex b p) s
  | .dfexS => execDfexS o (DescField.form.get ex b p) s
  | .ldsp => execLdsp o (SpLoad.form.get ex b p) s
  | .stsp => execStsp o (SpStore.form.get ex b p) s
  | .ld => execLd o (GlLoad.form.get ex b p) s
  | .st => execSt o (SpStore.form.get ex b p) s
  | .atomAdd => execAtomAdd o (Atomic.form.get ex b p) s
  | .atomAnd => execAtomAnd o (Atomic.form.get ex b p) s
  | .atomOr => execAtomOr o (Atomic.form.get ex b p) s
  | .atomXor => execAtomXor o (Atomic.form.get ex b p) s
  | .atomSmin => execAtomSmin o (Atomic.form.get ex b p) s
  | .atomSmax => execAtomSmax o (Atomic.form.get ex b p) s
  | .atomUmin => execAtomUmin o (Atomic.form.get ex b p) s
  | .atomUmax => execAtomUmax o (Atomic.form.get ex b p) s
  | .atomSwap => execAtomSwap o (Atomic.form.get ex b p) s
  | .atomCas => execAtomCas o (Atomic.form.get ex b p) s
  | .atomBfi => execAtomBfi o (BitAtomic.form.get ex b p) s
  | .atomFfcs => execAtomFfcs o (BitAtomic.form.get ex b p) s
  | .atomPlset => execAtomPlset o (PlsetArgs.form.get ex b p) s
  | .upd => execUpd o (UpdArgs.form.get ex b p) s
  | .pref => execPref o (PrefArgs.form.get ex b p) s
  | .waitline => execWaitline o (WaitlineArgs.form.get ex b p) s
  | .launch => execLaunch o (LaunchArgs.form.get ex b p) s
  | .exit => execExit o s
  | .mfsr => execMfsr o (SrMove.form.get ex b p) s
  | .mfsrIo => execMfsrIo o (IoMove.form.get ex b p) s
  | .mtsr => execMtsr o (SrMove.form.get ex b p) s
  | .mtsrIo => execMtsrIo o (IoMove.form.get ex b p) s
  | .trap => execTrap o (TrapArgs.form.get ex b p) s
  | .eret => execEret o s
  | .sret => execSret o s
  | .tlbiAll => execTlbiAll o (ZeroFn.form.get ex b p) s
  | .tlbiCtx => execTlbiCtx o (OneReg.form.get ex b p) s
  | .tlbiPage => execTlbiPage o (TwoReg.form.get ex b p) s
  | .cmntIcinv => execCmntIcinv o (ZeroFn.form.get ex b p) s
  | .cmntIcinvPkg => execCmntIcinvPkg o (ZeroFn.form.get ex b p) s
  | .cmntSdcinv => execCmntSdcinv o (ZeroFn.form.get ex b p) s
  | .cmntWbctx => execCmntWbctx o (OneReg.form.get ex b p) s
  | .cadv => execCadv o (CadvArgs.form.get ex b p) s
  | .popc => execPopc o (RR.form.get ex b p) s
  | .clz => execClz o (RR.form.get ex b p) s
  | .ctz => execCtz o (RR.form.get ex b p) s
  | .bscan => execBscan o (RRR.form.get ex b p) s
  | .bscanc => execBscanc o (RRR.form.get ex b p) s
  | .aqp => execAqp o (AqPush.form.get ex b p) s
  | .aqpIdx => execAqpIdx o (AqPushIdx.form.get ex b p) s
  | .aqps => execAqps o (AqRun.form.get ex b p) s
  | .vadd => execVadd o (VInt3.form.get ex b p) s
  | .vsub => execVsub o (VInt3.form.get ex b p) s
  | .vmul => execVmul o (VInt3.form.get ex b p) s
  | .vmulhs => execVmulhs o (VInt3.form.get ex b p) s
  | .vmulhu => execVmulhu o (VInt3.form.get ex b p) s
  | .vmin => execVmin o (VInt3.form.get ex b p) s
  | .vmax => execVmax o (VInt3.form.get ex b p) s
  | .vminu => execVminu o (VInt3.form.get ex b p) s
  | .vmaxu => execVmaxu o (VInt3.form.get ex b p) s
  | .vadds => execVadds o (VInt3.form.get ex b p) s
  | .vsubs => execVsubs o (VInt3.form.get ex b p) s
  | .vaddus => execVaddus o (VInt3.form.get ex b p) s
  | .vsubus => execVsubus o (VInt3.form.get ex b p) s
  | .vabs => execVabs o (VInt2.form.get ex b p) s
  | .vneg => execVneg o (VInt2.form.get ex b p) s
  | .vand => execVand o (VInt3.form.get ex b p) s
  | .vor => execVor o (VInt3.form.get ex b p) s
  | .vxor => execVxor o (VInt3.form.get ex b p) s
  | .vandn => execVandn o (VInt3.form.get ex b p) s
  | .vmov => execVmov o (VInt2.form.get ex b p) s
  | .vmulq => execVmulq o (VInt3.form.get ex b p) s
  | .vmac => execVmac o (VInt3.form.get ex b p) s
  | .vmacs => execVmacs o (VInt3.form.get ex b p) s
  | .vmacwl => execVmacwl o (VInt3.form.get ex b p) s
  | .vmacwh => execVmacwh o (VInt3.form.get ex b p) s
  | .vshl => execVshl o (VInt3.form.get ex b p) s
  | .vshr => execVshr o (VInt3.form.get ex b p) s
  | .vsra => execVsra o (VInt3.form.get ex b p) s
  | .vrol => execVrol o (VInt3.form.get ex b p) s
  | .vshlImm => execVshlImm o (VIntK.form.get ex b p) s
  | .vshrImm => execVshrImm o (VIntK.form.get ex b p) s
  | .vsraImm => execVsraImm o (VIntK.form.get ex b p) s
  | .vrolImm => execVrolImm o (VIntK.form.get ex b p) s
  | .vcmp => execVcmp o (VCmp.form.get ex b p) s
  | .vfcmp => execVfcmp o (VFCmp.form.get ex b p) s
  | .vsel => execVsel o (VSel.form.get ex b p) s
  | .vfadd => execVfadd o (VFp3.form.get ex b p) s
  | .vfsub => execVfsub o (VFp3.form.get ex b p) s
  | .vfmul => execVfmul o (VFp3.form.get ex b p) s
  | .vfdiv => execVfdiv o (VFp3.form.get ex b p) s
  | .vfsqrt => execVfsqrt o (VFp2.form.get ex b p) s
  | .vfmin => execVfmin o (VFmt3.form.get ex b p) s
  | .vfmax => execVfmax o (VFmt3.form.get ex b p) s
  | .vfabs => execVfabs o (VFmt2.form.get ex b p) s
  | .vfneg => execVfneg o (VFmt2.form.get ex b p) s
  | .vfma => execVfma o (VFp3.form.get ex b p) s
  | .vfms => execVfms o (VFp3.form.get ex b p) s
  | .vfnma => execVfnma o (VFp3.form.get ex b p) s
  | .vfnms => execVfnms o (VFp3.form.get ex b p) s
  | .vcvt => execVcvt o (VCvt.form.get ex b p) s
  | .vqntE2m1s => execVqntE2m1s o (VQnt.form.get ex b p) s
  | .vqntE4m3 => execVqntE4m3 o (VQnt.form.get ex b p) s
  | .vqntE5m2 => execVqntE5m2 o (VQnt.form.get ex b p) s
  | .vdqnt => execVdqnt o (VDqnt.form.get ex b p) s
  | .vradd => execVradd o (VInt2.form.get ex b p) s
  | .vrmin => execVrmin o (VInt2.form.get ex b p) s
  | .vrmax => execVrmax o (VInt2.form.get ex b p) s
  | .vrminu => execVrminu o (VInt2.form.get ex b p) s
  | .vrmaxu => execVrmaxu o (VInt2.form.get ex b p) s
  | .vrand => execVrand o (VInt2.form.get ex b p) s
  | .vror => execVror o (VInt2.form.get ex b p) s
  | .vrxor => execVrxor o (VInt2.form.get ex b p) s
  | .vrfadd => execVrfadd o (VRed.form.get ex b p) s
  | .vrfmin => execVrfmin o (VRed.form.get ex b p) s
  | .vrfmax => execVrfmax o (VRed.form.get ex b p) s
  | .vscanadd => execVscanadd o (VInt2.form.get ex b p) s
  | .vscanaddx => execVscanaddx o (VInt2.form.get ex b p) s
  | .vscanmax => execVscanmax o (VInt2.form.get ex b p) s
  | .vscanmin => execVscanmin o (VInt2.form.get ex b p) s
  | .vscanmaxu => execVscanmaxu o (VInt2.form.get ex b p) s
  | .vscanminu => execVscanminu o (VInt2.form.get ex b p) s
  | .vscanfadd => execVscanfadd o (VRed.form.get ex b p) s
  | .vperm => execVperm o (VInt3.form.get ex b p) s
  | .vrot => execVrot o (VIntK.form.get ex b p) s
  | .vext => execVext o (VExt.form.get ex b p) s
  | .vzipl => execVzipl o (VInt3.form.get ex b p) s
  | .vziph => execVziph o (VInt3.form.get ex b p) s
  | .vuzpe => execVuzpe o (VInt3.form.get ex b p) s
  | .vuzpo => execVuzpo o (VInt3.form.get ex b p) s
  | .vsplat => execVsplat o (VIntK.form.get ex b p) s
  | .vrev => execVrev o (VInt2.form.get ex b p) s
  | .vrcp => execVrcp o (VFp2.form.get ex b p) s
  | .vrsqrt => execVrsqrt o (VFp2.form.get ex b p) s
  | .vexp2 => execVexp2 o (VFp2.form.get ex b p) s
  | .vlog2 => execVlog2 o (VFp2.form.get ex b p) s
  | .vsinpi => execVsinpi o (VFp2.form.get ex b p) s
  | .vcospi => execVcospi o (VFp2.form.get ex b p) s
  | .vtanh => execVtanh o (VFp2.form.get ex b p) s
  | .vsigm => execVsigm o (VFp2.form.get ex b p) s
  | .vrnd => execVrnd o (VRndArgs.form.get ex b p) s
  | .vbcast => execVbcast o (RLong.form.get ex b p) s
  | .vtrd => execVtrd o (TileRead.form.get ex b p) s
  | .vtrdReg => execVtrdReg o (TileReadReg.form.get ex b p) s
  | .vtwr => execVtwr o (TileRow.form.get ex b p) s
  | .vtwrReg => execVtwrReg o (TileRowReg.form.get ex b p) s
  | .vldsp => execVldsp o (VSp.form.get ex b p) s
  | .vstsp => execVstsp o (VSp.form.get ex b p) s
  | .vld => execVld o (VLoad.form.get ex b p) s
  | .vst => execVst o (VSp.form.get ex b p) s
  | .vamoAdd => execVamoAdd o (VAtomic.form.get ex b p) s
  | .vamoAnd => execVamoAnd o (VAtomic.form.get ex b p) s
  | .vamoOr => execVamoOr o (VAtomic.form.get ex b p) s
  | .vamoXor => execVamoXor o (VAtomic.form.get ex b p) s
  | .vamoSmin => execVamoSmin o (VAtomic.form.get ex b p) s
  | .vamoSmax => execVamoSmax o (VAtomic.form.get ex b p) s
  | .vamoUmin => execVamoUmin o (VAtomic.form.get ex b p) s
  | .vamoUmax => execVamoUmax o (VAtomic.form.get ex b p) s
  | .vamoSwap => execVamoSwap o (VAtomic.form.get ex b p) s
  | .vupd => execVupd o (VUpdArgs.form.get ex b p) s
  | .dqpop => execDqpop o (DqPop.form.get ex b p) s
  | .mldb => execMldb o (MldbArgs.form.get ex b p) s
  | .mswap => execMswap o s
  | .mma => execMma o (MmaArgs.form.get ex b p) s
  | .mmas => execMmas o (MmasArgs.form.get ex b p) s
  | .mdrain => execMdrain o (MdrainArgs.form.get ex b p) s
  | .mzacc => execMzacc o (MzaccArgs.form.get ex b p) s
  | .mcv => execMcv o (McvArgs.form.get ex b p) s
  | .mtrn => execMtrn o (TilePair.form.get ex b p) s
  | .mfill => execMfill o (MfillArgs.form.get ex b p) s
  | .mtcpy => execMtcpy o (TilePair.form.get ex b p) s
  | .kld => execKld o (KMem.form.get ex b p) s
  | .kst => execKst o (KMem.form.get ex b p) s
  | .kmov => execKmov o (KPair.form.get ex b p) s
  | .kfill => execKfill o (KfillArgs.form.get ex b p) s
  | .kspr => execKspr o (KsprArgs.form.get ex b p) s
  | .ksprReg => execKsprReg o (KPair.form.get ex b p) s
  | .cpy => execCpy o (CopyArgs.form.get ex b p) s
  | .gath => execGath o (IndexedCopy.form.get ex b p) s
  | .scat => execScat o (IndexedCopy.form.get ex b p) s
  | .tldi => execTldi o (TileLoad.form.get ex b p) s
  | .tsti => execTsti o (TileStore.form.get ex b p) s
  | .cpub => execCpub o (CpubArgs.form.get ex b p) s
  | .stmap => execStmap o (StmapArgs.form.get ex b p) s
  | .stfl => execStfl o (StflArgs.form.get ex b p) s
  | .chint => execChint o (ChintArgs.form.get ex b p) s
  | .cnput => execCnput o (NetCopy.form.get ex b p) s
  | .cnget => execCnget o (NetCopy.form.get ex b p) s
  | .dld => execDld o (DescMove.form.get ex b p) s
  | .dst => execDst o (DescMove.form.get ex b p) s
  | .wait => execWait o (WaitArgs.form.get ex b p) s
  | .fwait => execFwait o (FwaitArgs.form.get ex b p) s
  | .fwaitC => execFwaitC o (FwaitArgs.form.get ex b p) s
  | .fwaitEq => execFwaitEq o (FwaitArgs.form.get ex b p) s
  | .fpost => execFpost o (FpostArgs.form.get ex b p) s
  | .fset => execFset o (FsetArgs.form.get ex b p) s
  | .rpost => execRpost o (RpostArgs.form.get ex b p) s
  | .rpostRel => execRpostRel o (RpostArgs.form.get ex b p) s
  | .rpostPred => execRpostPred o (RpostPred.form.get ex b p) s
  | .barr => execBarr o (BarrArgs.form.get ex b p) s
  | .bwait => execBwait o (BarrArgs.form.get ex b p) s
  | .rdv => execRdv o (BarrArgs.form.get ex b p) s
  | .fence => execFence o (FenceArgs.form.get ex b p) s
  | .chk => execChk o (ChkArgs.form.get ex b p) s
  | .fork => execFork o (ForkArgs.form.get ex b p) s
  | .fprobe => execFprobe o (FprobeArgs.form.get ex b p) s
  | .fprobeF => execFprobeF o (FprobeArgs.form.get ex b p) s

end Sys2Proof.Machine
end

