-- ==== Sys2Proof/Machine/Uses.lean ====
section
/-! DEFINITION. What an operation names: registers, queues, scratchpad words and flags, for the rules of bundles and groups
(R206, R207, R340). -/
namespace Sys2Proof.Machine

/-- Reads and writes as (file, number). Files: 0 s, 1 x, 2 v, 3 k, 4 d, 5 p, 6 tiles, 7 accumulators, 8 TCFG, 10 e. Spans of 64-bit
words of the scratchpad, first and last. Flags, and pushes to and pops from the queues. -/
structure Uses where
  reads : List (Nat × Nat) := []
  writes : List (Nat × Nat) := []
  spReads : List (Nat × Nat) := []
  spWrites : List (Nat × Nat) := []
  flags : List (Nat × FlagUse) := []
  push : Bool := false
  pop : Bool := false
deriving DecidableEq, Repr

/-- Registers of one file. -/
def inFile {n : Nat} (f : Nat) (l : List (BitVec n)) : List (Nat × Nat) := l.map fun r => (f, r.toNat)
/-- The file that S and X register fields name (R196, R315). -/
def gprFile (svc : Bool) (sl : Slot) : Nat := if svc then 10 else if sl = .x then 1 else 0
def RFile.no : RFile → Nat
  | .s => 0
  | .x => 1
  | .v => 2
  | .k => 3
  | .p => 5
/-- Words of n scratchpad bytes from an address. The group rule counts them whatever the guards (R201, R207). -/
def spWords (sa n : Nat) : List (Nat × Nat) := if 2 ^ 20 ≤ sa then [] else [(sa / 8, (sa + n - 1) / 8)]
/-- The words of elements of n bytes, neighbours joined. -/
def spElems (l : List Int) (n : Nat) : List (Nat × Nat) :=
  (l.foldl (fun (acc : List (Nat × Nat)) o => match spWords o.toNat n with
    | [] => acc
    | q :: _ => match acc with
      | (a, b) :: t => if a ≤ q.1 ∧ q.1 ≤ b + 1 then (a, max b q.2) :: t else q :: acc
      | [] => [q]) [])

def uses3 {n : Nat} (f : Nat) (d : BitVec n) (l : List (BitVec n)) : Uses := { reads := inFile f l, writes := inFile f [d] }
/-- Address registers of a scalar access (R375). -/
def scalarRegs (am : BitVec 2) (base ix : BitVec 5) : List (BitVec 5) :=
  match am.toNat with
  | 0 => [base]
  | 1 => [base, ix]
  | _ => []
def vectorRegs (base ix : BitVec 5) (idx : BitVec 1) : List (BitVec 5) := if idx = 1 then [base, ix] else [base]
/-- The entries of a pair of k registers. -/
def pairRegs (q : Nat) : List (Nat × Nat) := [(3, 2 * q), (3, 2 * q + 1)]
/-- Tile or accumulator by its number 0-19. -/
def unitReg (n : Nat) : Nat × Nat := if n < 16 then (6, n) else (7, n - 16)
/-- Tiles on the two sides of a copy (R410); and the scratchpad words that it reads as it starts at issue, or writes. One that starts at a
commit reads none within a group (R414). -/
def copyUses (c : Core) (kind : CmdKind) (d : BitVec 4) (ix : List (BitVec 4)) : Uses :=
  let w := c.rD d.toNat
  let st := tileOf (dSaddr w)
  let dt := tileOf (dDaddr w)
  let k : Cmd := { seq := 0, eng := 0, tok := 0, cls := 0, u := 0, kind, desc := w, index := List.replicate (dCount w 1) 0, deferred := false }
  let n := 2 ^ dEsz w
  let now := !c.descBad k [0, 1, 3, 4] [0, 1, 2, 3, 4] false && (dDsp w == 1 || dDsp w == 3)
  { reads := inFile 4 (d :: ix) ++ (if dSsp w = 3 then [(6, st), (8, st)] else []) ++ (if dDsp w = 3 then [(8, dt)] else [])
    writes := if dDsp w = 3 then [(6, dt)] else []
    spReads := if !now then [] else
      (ix.flatMap fun r => spWords ((dWord (c.rD r.toNat) 0).toNat % 2 ^ 20) (4 * k.words)) ++ if dSsp w = 1 then spElems k.sources n else []
    spWrites := if now && dDsp w == 1 then spElems k.dests n else [] }
/-- Tile and configuration of an operation of the matrix engine. -/
def tilePairUses (r : TilePair) (cfg : List (Nat × Nat)) : Uses :=
  { reads := [(6, r.a.toNat), (8, r.a.toNat), (8, r.d.toNat)], writes := (6, r.d.toNat) :: cfg }

/-- What the operation of a row names, guard and arrival apart. -/
def rowUses (r : Row) (o : OpInfo) (ex : Bool) (b : BitVec 20) (p : BitVec 24) (s : State) : Uses :=
  let c := s.cur
  let g := gprFile s.issue.svc o.slot
  match r with
  | .nop | .exit | .trap | .eret | .sret | .tlbiAll | .cmntIcinv | .cmntIcinvPkg | .cmntSdcinv | .br | .loopi | .mswap | .cpub | .stfl
  | .wait | .barr | .bwait | .rdv | .fence => {}
  | .add | .sub | .and | .or | .xor | .andn | .shl | .shr | .sra | .rol | .mul | .mulhs | .mulhu | .min | .max | .minu | .maxu | .addw
  | .subw | .bscan | .bscanc => let r := RRR.form.get ex b p; uses3 g r.d [r.a, r.b]
  | .movr | .popc | .clz | .ctz => let r := RR.form.get ex b p; uses3 g r.d [r.a]
  | .addImm | .andImm | .orImm | .xorImm | .mulImm => let r := RImm.form.get ex b p; uses3 g r.d [r.a]
  | .shlImm | .shrImm | .sraImm => let r := RShift.form.get ex b p; uses3 g r.d [r.a]
  | .mov => let r := RLong.form.get ex b p; uses3 g r.d []
  | .movhi => let r := RLong.form.get ex b p; uses3 g r.d [r.d]
  | .cmp => let r := CmpReg.form.get ex b p; { reads := inFile g [r.a, r.b], writes := inFile 5 [r.pd] }
  | .cmpImm => let r := CmpImm.form.get ex b p; { reads := inFile g [r.a], writes := inFile 5 [r.pd] }
  | .pand | .por | .pxor | .pandn => let r := PredLogic.form.get ex b p; uses3 5 r.pd [r.a, r.b]
  | .xfr => let r := Xfer.form.get ex b p; { reads := inFile (RFile.no r.src) [r.a], writes := inFile (RFile.no r.dst) [r.d] }
  | .call => { writes := inFile g [s.linkReg] }
  | .brz | .brnz => let r := BrReg.form.get ex b p; { reads := inFile g [r.a] }
  | .ret => { reads := inFile g [s.linkReg] }
  | .jr => let r := JrArgs.form.get ex b p; { reads := inFile g [r.a] }
  | .loop => let r := LoopReg.form.get ex b p; { reads := inFile g [r.a] }
  | .mtcfg => let r := MtcfgArgs.form.get ex b p; { reads := inFile g [r.a], writes := [(8, r.t.toNat), (6, r.t.toNat)] }
  | .mftcfg => let r := MftcfgArgs.form.get ex b p; { reads := inFile 8 [r.t], writes := inFile g [r.d] }
  | .dfpk => let r := DescField.form.get ex b p; uses3 g r.d ([r.d, r.a] ++ (match r.f with | .reg q => [q] | .imm _ _ => []))
  | .dfex | .dfexS => let r := DescField.form.get ex b p; uses3 g r.d ([r.a] ++ (match r.f with | .reg q => [q] | .imm _ _ => []))
  | .ldsp =>
    let r := SpLoad.form.get ex b p
    let a := s.scalarAddr r.am r.z r.base r.ix r.disp
    { reads := inFile g (scalarRegs r.am r.base r.ix), spReads := spWords a.toNat (sizeOf r.z)
      writes := inFile g [r.d] }
  | .stsp =>
    let r := SpStore.form.get ex b p
    let a := s.scalarAddr r.am r.z r.base r.ix r.disp
    { reads := inFile g (r.d :: scalarRegs r.am r.base r.ix)
      spWrites := spWords a.toNat (sizeOf r.z) }
  | .ld => let r := GlLoad.form.get ex b p; uses3 g r.d (scalarRegs r.am r.base r.ix)
  | .st => let r := SpStore.form.get ex b p; { reads := inFile g (r.d :: scalarRegs r.am r.base r.ix) }
  | .atomAdd | .atomAnd | .atomOr | .atomXor | .atomSmin | .atomSmax | .atomUmin | .atomUmax | .atomSwap | .atomCas =>
    let r := Atomic.form.get ex b p; uses3 g r.d [r.d, r.base, r.a]
  | .atomBfi | .atomFfcs => let r := BitAtomic.form.get ex b p; uses3 g r.d [r.d, r.base, r.a]
  | .atomPlset => let r := PlsetArgs.form.get ex b p; uses3 g r.d [r.d, r.base, r.a]
  | .upd => let r := UpdArgs.form.get ex b p; { reads := inFile g (r.d :: vectorRegs r.base r.ix r.idx) }
  | .pref => let r := PrefArgs.form.get ex b p; { reads := inFile g [r.base] }
  | .waitline => let r := WaitlineArgs.form.get ex b p; uses3 g r.d [r.base, r.ix]
  | .launch => let r := LaunchArgs.form.get ex b p; uses3 g r.d [r.a, r.b]
  | .mfsr => let r := SrMove.form.get ex b p; { writes := inFile g [r.d] }
  | .mfsrIo => let r := IoMove.form.get ex b p; uses3 g r.d [r.a]
  | .mtsr => let r := SrMove.form.get ex b p; { reads := inFile g [r.d] }
  | .mtsrIo => let r := IoMove.form.get ex b p; { reads := inFile g [r.d, r.a] }
  | .tlbiCtx | .cmntWbctx => let r := OneReg.form.get ex b p; { reads := inFile g [r.a] }
  | .tlbiPage => let r := TwoReg.form.get ex b p; { reads := inFile g [r.a, r.b] }
  | .cadv => let r := CadvArgs.form.get ex b p; { reads := inFile g [r.a, r.b], writes := inFile g [r.d] ++ inFile 5 [r.pd] }
  | .aqp => let r := AqPush.form.get ex b p; { reads := inFile g [r.base], push := true }
  | .aqpIdx => let r := AqPushIdx.form.get ex b p; { reads := inFile g [r.base, r.ix], push := true }
  | .aqps => let r := AqRun.form.get ex b p; { reads := inFile g [r.base, r.ix, r.d], push := true }
  | .vadd | .vsub | .vmul | .vmulhs | .vmulhu | .vmin | .vmax | .vminu | .vmaxu | .vadds | .vsubs | .vaddus | .vsubus | .vand | .vor | .vxor
  | .vandn | .vmulq | .vshl | .vshr | .vsra | .vrol | .vperm | .vzipl | .vziph | .vuzpe | .vuzpo =>
    let r := VInt3.form.get ex b p; uses3 2 r.d [r.a, r.b]
  | .vmac | .vmacs | .vmacwl | .vmacwh => let r := VInt3.form.get ex b p; uses3 2 r.d [r.d, r.a, r.b]
  | .vabs | .vneg | .vmov | .vradd | .vrmin | .vrmax | .vrminu | .vrmaxu | .vrand | .vror | .vrxor | .vscanadd | .vscanaddx | .vscanmax
  | .vscanmin | .vscanmaxu | .vscanminu | .vrev => let r := VInt2.form.get ex b p; uses3 2 r.d [r.a]
  | .vshlImm | .vshrImm | .vsraImm | .vrolImm | .vrot | .vsplat => let r := VIntK.form.get ex b p; uses3 2 r.d [r.a]
  | .vcmp => let r := VCmp.form.get ex b p; { reads := inFile 2 [r.a, r.b], writes := inFile 5 [r.pd] }
  | .vfcmp => let r := VFCmp.form.get ex b p; { reads := inFile 2 [r.a, r.b], writes := inFile 5 [r.pd] }
  | .vsel => let r := VSel.form.get ex b p; { reads := inFile 2 [r.a, r.b] ++ inFile 5 [r.c], writes := inFile 2 [r.d] }
  | .vfadd | .vfsub | .vfmul | .vfdiv => let r := VFp3.form.get ex b p; uses3 2 r.d [r.a, r.b]
  | .vfma | .vfms | .vfnma | .vfnms => let r := VFp3.form.get ex b p; uses3 2 r.d [r.d, r.a, r.b]
  | .vfsqrt | .vrcp | .vrsqrt | .vexp2 | .vlog2 | .vsinpi | .vcospi | .vtanh | .vsigm => let r := VFp2.form.get ex b p; uses3 2 r.d [r.a]
  | .vfmin | .vfmax => let r := VFmt3.form.get ex b p; uses3 2 r.d [r.a, r.b]
  | .vfabs | .vfneg => let r := VFmt2.form.get ex b p; uses3 2 r.d [r.a]
  | .vcvt => let r := VCvt.form.get ex b p; uses3 2 r.d [r.a]
  | .vqntE2m1s | .vqntE4m3 | .vqntE5m2 => let r := VQnt.form.get ex b p; { reads := inFile 2 [r.a], writes := inFile 2 [r.d, r.b] }
  | .vdqnt => let r := VDqnt.form.get ex b p; uses3 2 r.d [r.a, r.b]
  | .vrfadd | .vrfmin | .vrfmax | .vscanfadd => let r := VRed.form.get ex b p; uses3 2 r.d [r.a]
  | .vext => let r := VExt.form.get ex b p; uses3 2 r.d [r.a, r.b]
  | .vrnd => let r := VRndArgs.form.get ex b p; uses3 2 r.d []
  | .vbcast => let r := RLong.form.get ex b p; uses3 2 r.d []
  | .vtrd => let r := TileRead.form.get ex b p; { reads := [unitReg r.t.toNat, (8, r.t.toNat)], writes := inFile 2 [r.d] }
  | .vtrdReg =>
    let r := TileReadReg.form.get ex b p
    { reads := [unitReg r.t.toNat, (8, r.t.toNat)] ++ inFile 2 [r.b], writes := inFile 2 [r.d] }
  | .vtwr => let r := TileRow.form.get ex b p; { reads := inFile 2 [r.d] ++ inFile 8 [r.t], writes := inFile 6 [r.t] }
  | .vtwrReg => let r := TileRowReg.form.get ex b p; { reads := inFile 2 [r.d, r.b] ++ inFile 8 [r.t], writes := inFile 6 [r.t] }
  | .vldsp =>
    let r := VSp.form.get ex b p
    { reads := inFile 2 (vectorRegs r.base r.ix r.idx)
      spReads := spWords (s.vectorAddr r.base r.ix r.idx r.disp).toNat (lenOf r.sz)
      writes := inFile 2 [r.d] }
  | .vstsp =>
    let r := VSp.form.get ex b p
    { reads := inFile 2 (r.d :: vectorRegs r.base r.ix r.idx)
      spWrites := spWords (s.vectorAddr r.base r.ix r.idx r.disp).toNat (lenOf r.sz) }
  | .vld => let r := VLoad.form.get ex b p; uses3 2 r.d (vectorRegs r.base r.ix r.idx)
  | .vst => let r := VSp.form.get ex b p; { reads := inFile 2 (r.d :: vectorRegs r.base r.ix r.idx) }
  | .vamoAdd | .vamoAnd | .vamoOr | .vamoXor | .vamoSmin | .vamoSmax | .vamoUmin | .vamoUmax | .vamoSwap =>
    let r := VAtomic.form.get ex b p; { reads := inFile 2 [r.d, r.base] }
  | .vupd => let r := VUpdArgs.form.get ex b p; { reads := inFile 2 [r.d, r.base] }
  | .dqpop => let r := DqPop.form.get ex b p; { writes := inFile 2 [r.d], pop := true }
  | .mldb =>
    let r := MldbArgs.form.get ex b p
    { reads := [(6, r.a.toNat), (8, r.a.toNat)] ++ (if r.s = 1 then pairRegs r.q.toNat else []) }
  | .mma =>
    let r := MmaArgs.form.get ex b p
    { reads := [(6, r.a.toNat), (8, r.a.toNat)] ++ (if r.ow = 1 then [] else inFile 7 [r.d]), writes := inFile 7 [r.d] }
  | .mmas =>
    let r := MmasArgs.form.get ex b p
    { reads := [(6, r.a.toNat), (8, r.a.toNat)] ++ pairRegs r.q.toNat ++ (if r.ow = 1 then [] else inFile 7 [r.d]), writes := inFile 7 [r.d] }
  | .mdrain => let r := MdrainArgs.form.get ex b p; { reads := inFile 7 [r.a] ++ inFile 8 [r.d], writes := inFile 6 [r.d] }
  | .mzacc => let r := MzaccArgs.form.get ex b p; { writes := inFile 7 [r.d] }
  | .mcv =>
    let r := McvArgs.form.get ex b p
    { reads := [(6, r.d.toNat), (8, r.d.toNat)] ++ (if tcfgFmt (c.tcfg r.d.toNat) = 6 then pairRegs r.q.toNat else []), writes := inFile 6 [r.d] }
  | .mtrn => let r := TilePair.form.get ex b p; tilePairUses r [(8, r.d.toNat)]
  | .mfill => let r := MfillArgs.form.get ex b p; { reads := inFile 8 [r.d], writes := inFile 6 [r.d] }
  | .mtcpy => let r := TilePair.form.get ex b p; tilePairUses r [(8, r.d.toNat)]
  | .kld =>
    let r := KMem.form.get ex b p
    { reads := inFile 3 [r.base], spReads := spWords ((c.rK r.base.toNat).setWidth 64 + imm64 r.disp).toNat (lenOf r.sz)
      writes := inFile 3 [r.d] }
  | .kst =>
    let r := KMem.form.get ex b p
    { reads := inFile 3 [r.base, r.d]
      spWrites := spWords ((c.rK r.base.toNat).setWidth 64 + imm64 r.disp).toNat (lenOf r.sz) }
  | .kmov => let r := KPair.form.get ex b p; uses3 3 r.d [r.a]
  | .kfill => let r := KfillArgs.form.get ex b p; uses3 3 r.d []
  | .kspr => let r := KsprArgs.form.get ex b p; uses3 3 r.d [r.d]
  | .ksprReg => let r := KPair.form.get ex b p; uses3 3 r.d [r.d, r.a]
  | .cpy => let r := CopyArgs.form.get ex b p; copyUses c .cpy r.d []
  | .gath => let r := IndexedCopy.form.get ex b p; copyUses c .gath r.d [r.ix]
  | .scat => let r := IndexedCopy.form.get ex b p; copyUses c .scat r.d [r.ix]
  | .cnput => let r := NetCopy.form.get ex b p; copyUses c .cnput r.d []
  | .cnget => let r := NetCopy.form.get ex b p; copyUses c .cnget r.d []
  | .tldi =>
    let r := TileLoad.form.get ex b p
    let a := (dWord (c.rD r.base.toNat) 0 + imm64 r.disp).toNat
    { reads := inFile 4 [r.base] ++ inFile 8 [r.t], writes := inFile 6 [r.t]
      spReads := if r.spc = 1 then spElems ((imageOffs (tileLen (c.tcfg r.t.toNat)) (r.trl == 1)).map fun (o : Nat) => ((a + o : Nat) : Int)) 32 else [] }
  | .tsti =>
    let r := TileStore.form.get ex b p
    let a := (dWord (c.rD r.base.toNat) 0 + imm64 r.disp).toNat
    { reads := inFile 4 [r.base] ++ [(6, r.t.toNat), (8, r.t.toNat)]
      spWrites := if r.spc = 1 then spWords a (if r.trl = 1 then 32768 else 16384) else [] }
  | .stmap => let r := StmapArgs.form.get ex b p; { reads := inFile 4 [r.a] }
  | .chint => let r := ChintArgs.form.get ex b p; { reads := inFile 4 [r.base] }
  | .dld =>
    let r := DescMove.form.get ex b p
    { reads := if r.ba = 1 then inFile 4 [r.base] else []
      spReads := match s.dmSpan r with | .ok (a, n, _) => spWords a n | .error _ => []
      writes := inFile 4 [r.d] }
  | .dst =>
    let r := DescMove.form.get ex b p
    { reads := inFile 4 [r.d] ++ (if r.ba = 1 then inFile 4 [r.base] else [])
      spWrites := match s.dmSpan r with | .ok (a, n, _) => spWords a n | .error _ => [] }
  | .fwait | .fwaitEq => let r := FwaitArgs.form.get ex b p; { flags := [(r.f.toNat, .wait)] }
  | .fwaitC => let r := FwaitArgs.form.get ex b p; { flags := [(r.f.toNat, .wait), (r.f.toNat, .write)] }
  | .fpost => let r := FpostArgs.form.get ex b p; { flags := [(r.f.toNat, .incr)] }
  | .fset => let r := FsetArgs.form.get ex b p; { flags := [(r.f.toNat, .write)] }
  | .rpost | .rpostRel => let r := RpostArgs.form.get ex b p; { flags := [(r.f.toNat, .read)] }
  | .rpostPred => let r := RpostPred.form.get ex b p; { reads := inFile 5 [r.p], flags := [(r.f.toNat, .read)] }
  | .chk => let r := ChkArgs.form.get ex b p; { reads := inFile (RFile.no r.fa) [r.a] ++ inFile (RFile.no r.fb) [r.b] }
  | .fork =>
    let r := ForkArgs.form.get ex b p
    { reads := (List.range 8).map (fun i => (0, 24 + i)) ++ (if r.dyn = 1 then [(5, r.b.toNat % 16)] else []) }
  | .fprobe =>
    let r := FprobeArgs.form.get ex b p
    { reads := if r.dyn = 1 then [(5, r.b.toNat % 16)] else [], writes := inFile 5 [r.pd] }
  | .fprobeF =>
    let r := FprobeArgs.form.get ex b p
    { reads := (List.range 8).map (fun i => (0, 24 + i)) ++ (if r.dyn = 1 then [(5, r.b.toNat % 16)] else []), writes := inFile 5 [r.pd] }

/-- A slot word of a bundle, decoded: its row and fields. -/
structure SlotOp where
  row : Row
  o : OpInfo
  ex : Bool
  b : BitVec 20
  p : BitVec 24
deriving DecidableEq, Repr

def SlotOp.run (q : SlotOp) (s : State) : Out := rowRun q.row q.o q.ex q.b q.p s
/-- What the operation names, with its guard and its arrival (R299, R340). -/
def SlotOp.uses (q : SlotOp) (s : State) : Uses :=
  let u := rowUses q.row q.o q.ex q.b q.p s
  { u with
    reads := if q.o.pn = 0 then u.reads else (5, q.o.pn.toNat) :: u.reads
    flags := match q.o.arr with | some (.flag f) => (f.toNat, .incr) :: u.flags | _ => u.flags }

/-- A branch, a call, a return, a loop set-up or EXIT, which carries the stop bit (R207, R324, R325). -/
def SlotOp.stops (q : SlotOp) : Bool :=
  match q.row with
  | .br | .call | .brz | .brnz | .ret | .jr | .loop | .loopi | .exit => true
  | _ => false
/-- A transfer that keeps a body out of the loop buffer (R211, R326). -/
def SlotOp.transfers (q : SlotOp) : Bool :=
  match q.row with
  | .br | .call | .brz | .brnz | .ret | .jr => true
  | _ => false

end Sys2Proof.Machine
end

