-- ==== Sys2Proof/Machine/Issue.lean ====
section
/-! DEFINITION. The two sequencers: holds at the group boundary, commit, the checks on a bundle, issue, the next bundle
(R195-R213, R217-R219, R226, R297, R326, R331, R338). -/
namespace Sys2Proof.Machine

/-! Retirement (R217). -/

/-- Every earlier operation of the main sequencer has retired, DQ apart. -/
def Core.retired (c : Core) : Bool :=
  c.loads.isEmpty && c.atoms.isEmpty && c.mq.isEmpty && c.aq.isEmpty && c.watches.isEmpty &&
    !(c.cmds.any fun k => !k.deferred && !k.released) && !(c.arch.lands.any fun l => match l.dst with | .tile _ _ => true | _ => false)
/-- Rows of a tile that are on their way land while the core waits for the tile (log 27). -/
def Core.landTiles (c : Core) : Core :=
  let isTile (l : Landing) : Bool := match l.dst with | .tile _ _ => true | _ => false
  if c.tileClash || c.windowClash then c
  else (c.arch.lands.filter isTile).foldl Core.landOne { c with arch := { c.arch with lands := c.arch.lands.filter fun l => !isTile l } }
/-- The arrivals that a commit releases stay within two phases of each barrier; `extra` is a rendezvous of the bundle (R344). -/
def State.arrivalsFit (s : State) (core : Nat) (extra : Option Nat) : Bool :=
  let c := s.core core
  let l := c.seg.rel.filterMap (fun r => match r with | .arrive g => some g | _ => none) ++ (match extra with | some g => [g] | none => [])
  l.all fun g => decide (sgn 24 ((c.arrived.getD g 0 + l.count g + 2 ^ 24 - s.barPhase g) % 2 ^ 24) ≤ 2)

/-! Commit (R218). -/

/-- Releasing an entry sends it on its way. -/
def State.releaseOne (s : State) (core : Nat) (r : Rel) : State :=
  match r with
  | .arrive g => s.sendArrival core g
  | .cmd q => s.startDeferred core q
  | .late q _ =>
    let send (s : State) (r : Rel) : State := { s with flight := s.flight ++ [⟨s.seq, core, s.ctxOf core, r, s.tmr⟩], seq := s.seq + 1 }
    match (s.core core).seg.later.find? fun l => l.seq == q with
    | none => s
    | some l =>
      let s := match l.post with | some p => send s (.post p.1 p.2 1) | none => s
      match l.event with | some e => send s (.event e.1 e.2.1 e.2.2.1 e.2.2.2 l.tok) | none => s
  | _ => State.prune { s with flight := s.flight ++ [⟨s.seq, core, s.ctxOf core, r, s.tmr⟩], seq := s.seq + 1 }
/-- Steps 2 to 5: the checkpoint copy, the pool, the logs, the counts; an own-flag post that the segment withheld now waits for the
operations numbered below `upto`, which is given the entries of the release buffer before it. -/
def Core.checkpoint (c : Core) (addr : Word) (upto : Nat → Nat) : Core :=
  { c with
    stash := c.seg.undo.foldl (fun m u => match u.stash, m.get? u.sector with
      | some a, some b => m.ins u.sector { b with mask := a.mask ||| b.mask }
      | _, _ => m) c.stash
    cb0 := c.b0, cb1 := c.b1, keepErr := false
    seg := { ckaddr := addr, ck := c.arch, again := true, posts := c.seg.posts.map fun p =>
      if p.committed then p else { p with withheld := false, committed := true, upto := if p.withheld then upto p.relN else p.upto } } }
def State.commit (s : State) (core : Nat) (addr : Word) : State :=
  let g := (s.core core).seg
  let (s, marks) := g.rel.foldl (fun (q : State × List Nat) r => (q.1.releaseOne core r, q.2 ++ [q.1.seq])) (s, [])
  let s := s.modCore core fun c => c.checkpoint addr fun n => marks.getD n s.seq
  g.forks.foldl (fun s f => s.startFork core f.1 f.2.1 f.2.2) s

/-- PRE_CTL.CKB as it acts (R115). -/
def State.ckb (s : State) : Nat := let n := s.ioBits 0x6808 24 21; if n = 0 then 65536 else min n (2 ^ 20)

/-! Holds at the group boundary (R338). -/

/-- An operation before a FENCE that it covers is still to be performed (R185). -/
def State.coveredBusy (s : State) (core kinds scope cls seq : Nat) : Bool :=
  let c := s.core core
  let cov (kind cl : Nat) : Bool := fenceCovers kinds cls kind cl
  c.loads.any (fun l => decide (l.seq < seq) && cov 2 l.cls) || c.aq.any (fun l => decide (l.seq < seq) && cov 2 l.cls) ||
    c.dq.any (fun l => l.data.isNone && decide (l.seq < seq) && cov 2 l.cls) || (kinds.testBit 3 && c.mq.any fun m => decide (m.seq < seq)) ||
    c.watches.any (fun w => decide (w.seq < seq) && cov 2 w.cls) || c.cmds.any (fun k => k.underway && decide (k.seq < seq) && k.coveredBy core kinds scope cls) ||
    s.flight.any fun f => f.core == core && decide (f.seq < seq) && (match f.rel.kind with | some (k, cl) => cov k cl | none => false)

/-- The phase that a core's released arrivals belong to has passed (R345). -/
def State.phaseReached (s : State) (core g : Nat) : Bool :=
  decide (0 ≤ sgn 24 ((s.barPhase g + 2 ^ 24 - (s.core core).arrived.getD g 0 % 2 ^ 24) % 2 ^ 24))
/-- A change that fwait.c makes when its hold ends (R341). -/
def Core.flagTake (c : Core) (svc : Bool) (f n : Nat) : Core :=
  if svc then c.flagForeign f (-(BitVec.ofNat 16 n)) else c.flagOwn f (-(BitVec.ofNat 16 n))
/-- A hold that has ended, with what then happens; none while it stands. A wait may end in a cause (R339). -/
def State.holdDone (s : State) (core : Nat) (svc : Bool) (h : Hold) : Option (Except TrapInfo State) :=
  let c := s.core core
  match h with
  | .tokens set baddr count =>
    if set.any fun t => (c.arch.tokOf t).cnt != 0 then none
    else match set.find? fun t => (c.arch.tokOf t).cause != 0 with
      | some t => some (.error { cause := (c.arch.tokOf t).cause, slot := 8, info := BitVec.ofNat 64 t, site := some (baddr, count), token := some t })
      | none => some (.ok s)
  | .flagGe f n => if n ≤ (c.rF f).toNat then some (.ok s) else none
  | .flagGeSub f n => if n ≤ (c.rF f).toNat then some (.ok (s.setCore core (c.flagTake svc f n))) else none
  | .flagEq f n => if (c.rF f).toNat = n then some (.ok s) else none
  | .barrier g => if s.phaseReached core g then some (.ok s) else none
  | .rdv g => if s.phaseReached core g then some (.ok s) else none
  | .fence kinds scope cls seq => if s.coveredBusy core kinds scope cls seq then none else some (.ok s)
  | .cpub buf seq =>
    if c.busyBelow seq || c.seg.posts.any (fun p => decide (p.upto ≤ seq)) || s.flight.any (fun f => f.core == core && decide (f.seq < seq)) then none else some (.ok (s.setCore core (c.swapShadow buf)))
  | .launch _ _ _ => none
  | .sys op seq => if s.unperformedBelow core seq then none else some (.ok (s.sysLate core op))
/-- The holds that still stand, after those that have ended took effect; operations are performed in their order. -/
def State.holdsGo (s : State) (core : Nat) (svc : Bool) (l : List Hold) : Except TrapInfo (State × List Hold) :=
  l.foldl (fun r h => r.bind fun q => match (if h.performs && q.2.any Hold.performs then none else q.1.holdDone core svc h) with
    | none => .ok (q.1, q.2 ++ [h])
    | some (.ok s) => .ok (s, q.2)
    | some (.error e) => .error e) (.ok (s, []))

/-! Fetching and decoding a bundle (R226, R297, R303). -/

/-- A cause of the bundle itself (SLOT 0xE of R229). -/
def bundleCause (c : Cause) : TrapInfo := { cause := c, slot := 0xE }
/-- Words one after the other. -/
def State.fetchWords : Nat → State → Who → Nat → Except TrapInfo (List Word32) × State
  | 0, s, _, _ => (.ok [], s)
  | n + 1, s, w, va =>
    match s.fetchWord w va with
    | (.error t, s) => (.error { t with slot := 0xE }, s)
    | (.ok x, s) => match State.fetchWords n s w ((va + 4) % 2 ^ 64) with
      | (.error t, s) => (.error t, s)
      | (.ok l, s) => (.ok (x :: l), s)
/-- The words of the bundle at an address: the header, its length, the rest. -/
def State.fetchBundle (s : State) (w : Who) (a : Word) : Except TrapInfo (List Word32) × State :=
  match s.fetchWord w a.toNat with
  | (.error t, s) => (.error { t with slot := 0xE }, s)
  | (.ok h, s) =>
    let n := (Header.ofWord h).len.toNat
    if n < 2 ∨ 21 < n then (.error (bundleCause 0x005#10), s)
    else match State.fetchWords (n - 1) s w ((a.toNat + 4) % 2 ^ 64) with
      | (.error t, s) => (.error t, s)
      | (.ok l, s) => (.ok (h :: l), s)
/-- A bundle with the slot words of each operation, from its words. -/
def bundleOf (ws : List Word32) : Except Cause Bundle :=
  match ws with
  | [] => .error 0x005#10
  | h :: r => cutBundle (Header.ofWord h) r

/-- The operation of a slot word, or the first cause of R303. -/
def slotOp (iss : Issuer) (sl : Slot) (w ext : Word32) : Except Cause SlotOp :=
  let f := SlotBits.ofWords w ext
  match decodeRow iss sl f with
  | .error c => .error c
  | .ok r => .ok ⟨r, f.info sl, f.ex, f.body, f.pl⟩
def opsOf (b : Bundle) (iss : Issuer) : List (Slot × Except Cause SlotOp) := b.words.map fun q => (q.1, slotOp iss q.1 q.2.1 q.2.2)
/-- The operations that decode. -/
def goodOps (l : List (Slot × Except Cause SlotOp)) : List SlotOp := l.filterMap fun q => q.2.toOption
/-- Fields that a tile's format leaves reserved: Q of mcv, the high bits of mfill's value (R401, R403). -/
def State.reservedBits (s : State) (q : SlotOp) : Bool :=
  match q.row with
  | .mcv => let r := McvArgs.form.get q.ex q.b q.p; tcfgFmt (s.cur.tcfg r.d.toNat) != 6 && r.q != 0
  | .mfill => let r := MfillArgs.form.get q.ex q.b q.p; decide (2 ^ min (fmtWidth (tcfgFmt (s.cur.tcfg r.d.toNat))) 16 ≤ r.v.toNat)
  | _ => false
/-- The encoding causes, in template order. -/
def State.encodingCause (s : State) (l : List (Slot × Except Cause SlotOp)) : Option TrapInfo :=
  l.findSome? fun q => match q.2 with
    | .error c => some { cause := c, slot := BitVec.ofNat 4 (slotNum q.1) }
    | .ok o => if s.reservedBits o then some { cause := 0x002#10, slot := BitVec.ofNat 4 (slotNum q.1) } else none

/-- Two operations name one destination and one of them is unguarded (R206); flags combine (R340). -/
def sameDest (l : List (SlotOp × Uses)) : Bool :=
  let free (q : SlotOp × Uses) : Bool := q.1.o.pn == 0
  let rec go : List (SlotOp × Uses) → Bool
    | [] => false
    | q :: r => (r.any fun p => (free q || free p) && q.2.writes.any fun w => p.2.writes.contains w) || go r
  go l
/-- The bundle ends a hardware loop level (R207). -/
def Core.endsLoop (c : Core) (a : Word) : Bool := (List.range 6).any fun k => (c.arch.loopLv k).act && (c.arch.loopLv k).last == a
/-- A loop set-up that breaks the nesting of levels, whatever its guard (R201, R209, R226, R325). -/
def State.loopBroken (s : State) (q : SlotOp) : Bool :=
  let isNine (r : Res) : Bool := match r with | .error t => t.cause == 0x009#10 | .ok _ => false
  match q.row with
  | .loop => let r := LoopReg.form.get q.ex q.b q.p; isNine (s.setUpLoop r.lv.toNat (s.gpr .s r.a).toNat r.fin.toNat)
  | .loopi => let r := LoopImm.form.get q.ex q.b q.p; isNine (s.setUpLoop r.lv.toNat r.n.toNat r.fin.toNat)
  | _ => false
/-- Causes of the fifth kind of R226 on a main sequencer, in its order. -/
def State.headerCause (s : State) (iss : Issuer) (b : Bundle) (l : List (SlotOp × Uses)) : Option Cause :=
  let c := s.cur
  if b.words.any fun q => !hasSlot iss q.1 then some 0x003#10
  else if sameDest l then some 0x006#10
  else if iss == .svc then none
  else if b.hdr.opc && c.opPwin && b.hdr.opt != c.opEff then some 0x008#10
  else if (b.hdr.ck && c.grp.n != 0) || decide (32 ≤ c.grp.n) || (!b.hdr.stop && ((l.any fun q => q.1.stops) || c.endsLoop s.issue.haddr)) ||
      (l.any fun q => s.loopBroken q.1) then some 0x009#10
  else none

/-- An operation reads or writes what an earlier one of its group writes (R207, R340, R387). -/
def Group.breaks (g : Group) (pushes : Bool) (u : Uses) : Bool :=
  let has (f : Nat) (l : List FlagUse) : Bool := g.flags.any fun q => q.1 == f && l.contains q.2
  (u.reads.any fun r => g.wrote.contains r) || (u.writes.any fun w => g.wrote.contains w) ||
    (u.spReads.any fun r => g.spWrote.any fun w => decide (r.1 ≤ w.2 ∧ w.1 ≤ r.2)) ||
    (u.flags.any fun q => match q.2 with
      | .write => has q.1 [.write, .incr]
      | .incr => has q.1 [.write]
      | .wait => has q.1 [.write, .incr]
      | .read => has q.1 [.write]) ||
    (u.pop && (g.pushed || pushes)) || (u.push && g.popped)
/-- The group with one more bundle. -/
def Group.add (g : Group) (stop : Bool) (l : List (SlotOp × Uses)) : Group :=
  if stop then { holds := g.holds }
  else
    { g with
      n := g.n + 1, wrote := g.wrote ++ l.flatMap fun q => q.2.writes, spWrote := g.spWrote ++ l.flatMap fun q => q.2.spWrites
      flags := g.flags ++ l.flatMap fun q => q.2.flags.filter fun f => f.2 == .write || f.2 == .incr
      pushed := g.pushed || l.any fun q => q.2.push, popped := g.popped || l.any fun q => q.2.pop }

/-! The loop buffer (R211): entries by level and address; three marks note a transfer in the body, the first loop-back, and that the
capture began at the first bundle of the body. A rollback empties it; the next iteration that is issued whole is captured (DEDUCED, log 85). -/

def lbKey (lv : Nat) (a : Nat) : Nat := lv * 2 ^ 64 + a
def lbTransfer (lv : Nat) : Nat := lbKey lv (2 ^ 64 - 1)
def lbLooped (lv : Nat) : Nat := lbKey lv (2 ^ 64 - 2)
def lbBegun (lv : Nat) : Nat := lbKey lv (2 ^ 64 - 3)
/-- Active levels, innermost first. -/
def Arch.levels (a : Arch) : List Nat := [5, 4, 3, 2, 1, 0].filter fun l => (a.loopLv l).act
/-- A level's body stands in the buffer whole: at most 64 bundles, no transfer. -/
def Core.lbFull (c : Core) (lv : Nat) : Bool :=
  c.lbuf.has (lbLooped lv) && !c.lbuf.has (lbTransfer lv) &&
    decide ((c.lbuf.filter fun q => q.1 / 2 ^ 64 == lv && q.1 % 2 ^ 64 < 2 ^ 64 - 3).length ≤ 64)
/-- The words of the bundle at an address, when the buffer serves it: from the innermost level whose body, loops within it included, it holds. -/
def Core.lbServe (c : Core) (a : Word) : Option (List Word32) :=
  match c.arch.levels.find? fun lv => (c.arch.loopLv lv).holds a && c.lbFull lv with
  | some lv => c.lbuf.get? (lbKey lv a.toNat)
  | none => none
/-- Capture of an issued bundle by every active level whose body holds it and has not looped back. -/
def Core.lbCapture (c : Core) (a : Word) (ws : List Word32) (transfer : Bool) : Core :=
  c.arch.levels.foldl (fun c lv =>
    if !(c.arch.loopLv lv).holds a || c.lbuf.has (lbLooped lv) then c
    else
      let c := if (c.arch.loopLv lv).body == a then { c with lbuf := c.lbuf.ins (lbBegun lv) [] } else c
      if !c.lbuf.has (lbBegun lv) then c
      else
        let c := { c with lbuf := c.lbuf.ins (lbKey lv a.toNat) ws }
        if transfer then { c with lbuf := c.lbuf.ins (lbTransfer lv) [] } else c) c
/-- Levels that have become inactive, or are set up again, lose their entries. -/
def Core.lbDrop (c : Core) (again : List Nat) : Core :=
  { c with lbuf := c.lbuf.filter fun q => (c.arch.loopLv (q.1 / 2 ^ 64)).act && !again.contains (q.1 / 2 ^ 64) }

/-! The next bundle (R209, R323, R326). -/

/-- Early exit of the levels whose body a taken transfer leaves. -/
def leaveLoops (a t : Word) : List Nat → Arch → Arch
  | [], x => x
  | lv :: r, x =>
    let l := x.loopLv lv
    if l.holds a && !l.holds t then leaveLoops a t r (x.setLoop lv { l with act := false }) else x
/-- The loop-end redirect: where it goes, the level that loops back, the loop state. -/
def loopEnd (a : Word) : List Nat → Arch → Option (Word × Nat) × Arch
  | [], x => (none, x)
  | lv :: r, x =>
    let l := x.loopLv lv
    if l.last ≠ a then (none, x)
    else if 1 < l.iter.toNat then (some (l.body, lv), x.setLoop lv { l with iter := l.iter - 1 })
    else loopEnd a r (x.setLoop lv { l with act := false })
/-- pc and loop state after a bundle at `a` of `len` words. -/
def Core.next (c : Core) (a : Word) (len : Nat) (target : Option Word) (leaves : Bool) : Core :=
  match target with
  | some t => { c with pc := t, arch := if leaves then leaveLoops a t c.arch.levels c.arch else c.arch }
  | none =>
    match loopEnd a c.arch.levels c.arch with
    | (some (t, lv), x) => { c with pc := t, arch := x, lbuf := if c.lbuf.has (lbBegun lv) then c.lbuf.ins (lbLooped lv) [] else c.lbuf }
    | (none, x) => { c with pc := a + BitVec.ofNat 64 (4 * len), arch := x }

/-! Issue (R204, R208). -/

/-- Operations that act on state which the others read as it was: the matrix engine's after the copy slots', then moves to system
registers and stash windows. -/
def SlotOp.late (q : SlotOp) : Nat :=
  match q.row with
  | .mtsr | .mtsrIo | .stmap => 2
  | _ => if q.o.slot = .m then 1 else 0
def inOrder (l : List SlotOp) : List SlotOp :=
  (l.filter fun q => q.late == 0) ++ (l.filter fun q => q.late == 1) ++ l.filter fun q => q.late == 2
/-- The operations one after the other. One that traps has no effect but what it has touched, and its cause is kept; one that stalls ends
the run. -/
def State.runOps : List SlotOp → State → List TrapInfo → Host.Outcome (State × List TrapInfo) Fault Refusal
  | [], s, ts => .next (s, ts)
  | q :: r, s, ts =>
    match q.run s with
    | .next s' =>
      if s'.issue.stall then .next (s', [])
      else match s'.issue.trap with
        | some t => State.runOps r { s with issue := { s.issue with did := if t.did.isEmpty then s.issue.did else t.did } } (ts ++ [t])
        | none => State.runOps r s' ts
    | .fault f => .fault f
    | .refused f => .refused f
/-- The cause of the slot first in template order. -/
def firstTrap (l : List TrapInfo) : Option TrapInfo :=
  l.foldl (fun b t => match b with | some u => if t.slot.toNat < u.slot.toNat then some t else b | none => some t) none

/-- The end of an issue: nothing is at issue. -/
def State.quiet (s : State) : State := { s with issue := {} }
def Out.quiet (r : Out) : Out :=
  match r with
  | .next s => .next s.quiet
  | .fault f => .fault f
  | .refused f => .refused f
/-- A stall: no bundle issues and no result lands, but for rows of a tile: those end the write that the core may be waiting for (R203; log 27). -/
def State.stalled (s : State) (core : Nat) : State := (s.modCore core Core.landTiles).quiet

/-- Who fetches for the main sequencer and for the service sequencer. -/
def State.fetcher (s : State) (core : Nat) (svc : Bool) : Who := ⟨s.ctxOf core, isCtl core && !svc, core⟩
/-- The words of the main sequencer's bundle at an address, from the loop buffer or from memory. -/
def State.wordsAt (s : State) (core : Nat) (a : Word) : Except TrapInfo (List Word32) × State :=
  match (s.core core).lbServe a with
  | some ws => (.ok ws, s)
  | none => s.fetchBundle (s.fetcher core false) a
def State.nextWords (s : State) (core : Nat) : Except TrapInfo (List Word32) × State := s.wordsAt core (s.core core).pc
/-- The next bundle has ck set. -/
def State.nextIsCk (s : State) (core : Nat) : Bool :=
  match s.nextWords core with
  | (.ok (h :: _), _) => (Header.ofWord h).ck
  | _ => false
def mainIssuer (core : Nat) : Issuer := if isCtl core then .ctl else .cmp

/-! What holds a group back at the boundary before it (R203, R208, R243, R387, R414). -/

/-- The operations of the bundles from an address on, up to the stop bit or to a bundle that cannot be fetched or cut. -/
def State.groupFrom : Nat → State → Nat → Word → List SlotOp
  | 0, _, _, _ => []
  | n + 1, s, core, a =>
    match (s.wordsAt core a).1 with
    | .error _ => []
    | .ok ws => match bundleOf ws with
      | .error _ => []
      | .ok b => goodOps (opsOf b (mainIssuer core)) ++
          if b.hdr.stop then [] else State.groupFrom n s core (a + BitVec.ofNat 64 (4 * b.hdr.len.toNat))
/-- The tile, or accumulator as 16 + a, that an entry of Uses names. -/
def unitOf (w : Nat × Nat) : Option Nat := if w.1 = 6 then some w.2 else if w.1 = 7 then some (16 + w.2) else none
def SlotOp.usesArray (q : SlotOp) : Bool := match q.row with | .mldb => true | .mma => true | .mmas => true | _ => false
/-- It enters the queue of the matrix engine. -/
def SlotOp.entersQueue (q : SlotOp) : Bool :=
  q.usesArray || match q.row with | .mdrain => true | .mzacc => true | .mcv => true | .mtrn => true | .mfill => true | .mtcpy => true | _ => false
/-- Entries that a dqpop takes. -/
def SlotOp.pops (q : SlotOp) : Nat := match q.row with | .dqpop => (DqPop.form.get q.ex q.b q.p).c.toNat + 1 | _ => 0
/-- The copy engine that a command names. -/
def SlotOp.engine (q : SlotOp) : Option Nat :=
  match q.row with
  | .cpy | .gath | .scat | .cnput | .cnget | .tldi | .tsti | .stfl => some (engineOf q.o.slot)
  | _ => none
/-- It performs at issue, after the earlier reads of its class and of its bytes, and the core's own entries in flight (log 45): its class, its
pieces as its registers stand, and whether watches are among those reads. -/
def SlotOp.readsNow (s : State) (q : SlotOp) : Option (Nat × List Piece × Bool) :=
  let at' {m : Nat} (base : BitVec 5) (disp : BitVec m) (n : Nat) : List Piece :=
    match (s.xlate s.who .load (s.gpr .s base + imm64 disp).toNat n).1 with | .ok ps => ps | .error _ => []
  match q.row with
  | .atomAdd | .atomAnd | .atomOr | .atomXor | .atomSmin | .atomSmax | .atomUmin | .atomUmax | .atomSwap | .atomCas =>
    let r := Atomic.form.get q.ex q.b q.p; some (r.cls.toNat, at' r.base r.disp (if r.w = 1 then 8 else 4), true)
  | .atomBfi | .atomFfcs => let r := BitAtomic.form.get q.ex q.b q.p; some (r.cls.toNat, at' r.base r.disp 8, true)
  | .atomPlset => let r := PlsetArgs.form.get q.ex q.b q.p; some (r.cls.toNat, at' r.base r.disp 8, true)
  | .waitline => let r := WaitlineArgs.form.get q.ex q.b q.p; some (r.cls.toNat, at' r.base r.disp 8, false)
  | _ => none
/-- The token of a waitline. -/
def SlotOp.watch (q : SlotOp) : Option Nat := match q.row with | .waitline => some (WaitlineArgs.form.get q.ex q.b q.p).tok.toNat | _ => none
/-- The group waits at its boundary, whatever the guards of its operations: for tiles and accumulators, the array, room in the engines,
the data that its pops take, and what its operations perform after. -/
def State.groupHeld (s : State) (core : Nat) (l : List SlotOp) : Bool :=
  let c := s.core core
  let us := l.map fun q => q.uses s
  let take := min ((l.map SlotOp.pops).foldl (· + ·) 0) (c.dq.length + c.aq.length)
  us.any (fun u => u.reads.any (fun w => match unitOf w with | some n => c.writeBusy none n | none => false) ||
      u.writes.any fun w => match unitOf w with | some n => c.tileBlocked none n true | none => false) ||
    (l.any SlotOp.usesArray && !c.arrayOn) || (l.any SlotOp.entersQueue && decide (4 ≤ (c.mq.filter fun m => !m.started).length)) ||
    -- the engines take what the group names at the most (R414)
    ([0, 1].any fun e =>
      let n := (l.filter fun q => q.engine == some e).length
      n != 0 && (c.engineFull e || (c.engineLoad e != 0 && decide (16 < c.engineLoad e + n)))) ||
    -- so do the watches: eight at most, and one to a token (R329)
    (c.grp.n == 0 && !c.watches.isEmpty && (let ws := l.filterMap SlotOp.watch
      !ws.isEmpty && (decide (8 < c.watches.length + ws.length) || ws.any fun t => c.watches.any fun w => w.tok == t))) ||
    !(decide (take ≤ c.dq.length) && (c.dq.take take).all fun e => e.data.isSome) ||
    l.any fun q => match q.readsNow s with
      | some (cls, ps, watches) =>
        !(if watches then c.atomReady s.seq cls ps else c.readsDone s.seq cls ps) || s.flight.any (fun f => f.core == core)
      | none => false

/-- The bundle has issued: energy (R84), operating point (R77), counts, group, loop buffer, next bundle. -/
def State.issued (s : State) (core : Nat) (ws : List Word32) (b : Bundle) (l : List (SlotOp × Uses)) : State :=
  let i := s.issue
  let s := { s.spend core (max b.hdr.ew.toNat b.words.length) false with seq := s.seq + 1 }
  s.modCore core fun c =>
    let c := if b.hdr.opc then c.opRequest core b.hdr.opt else c
    let c := c.lbCapture i.haddr ws (i.target.isSome || l.any fun q => q.1.transfers)
    let again := l.filterMap fun q => match q.1.row with
      | .loop => some (LoopReg.form.get q.1.ex q.1.b q.1.p).lv.toNat
      | .loopi => some (LoopImm.form.get q.1.ex q.1.b q.1.p).lv.toNat
      | _ => none
    let c := { c with
      seg := { c.seg with count := c.seg.count + 1, restart := false, again := false, exiting := i.exit }
      preempt := c.preempt.map fun n => n - 1, grp := c.grp.add b.hdr.stop l }
    if i.exit then c else (c.next i.haddr i.len i.target i.leaves).lbDrop again

/-- Update pairs that the core has released are still on their way, and the sorting stage takes no more: a commit that would release more
waits for them (R169). When the stage does not accept pairs the spec leaves open: Config.sortTakes is free (log 105). -/
def State.pairsBack (s : State) (core : Nat) : Bool :=
  let isPair (r : Rel) : Bool := match r with | .pair _ _ _ _ _ => true | _ => false
  (s.core core).seg.rel.any isPair && (s.flight.any fun f => f.core == core && isPair f.rel) && !Config.sortTakes s.fresh
/-- The commit of a ck bundle is due, and must wait, trap (0x1C6), or can be made (R217). -/
def State.commitWait (s : State) (core : Nat) (extra : Option Nat) : Option (Option TrapInfo) :=
  let c := s.core core
  if !c.retired || c.dq.any (fun e => e.data.isNone) || !s.arrivalsFit core extra || s.pairsBack core then some none
  else if !c.dq.isEmpty then some (some { cause := 0x1C6#10 })
  else none
/-- What a commit finds waiting for it: a cause of the service sequencer (R227), or a pre-emption request (R113). -/
def State.stopAtCommit (s : State) (core : Nat) : Option State :=
  let c := s.core core
  match c.svc.trap with
  | some (t, ha) =>
    some ((s.modCore core fun c => { c with svc := { c.svc with trap := none } }).park core t ha (if contextFatal t.cause then 4 else 1))
  | none => if c.preempt.isSome then some (s.modCore core fun c => { c with run := .rolling, seg := { c.seg with restart := true } }) else none

/-- The barrier of a bundle's rendezvous whose checks pass (R346). -/
def State.rdvAt (s : State) (l : List SlotOp) : Option Nat :=
  l.findSome? fun q => match q.row with
    | .rdv =>
      let g := (BarrArgs.form.get q.ex q.b q.p).g.toNat
      if s.guard0 q.o && (s.barCheck g true).toOption.isSome && s.issue.ck then some g else none
    | _ => none
/-- The same, when it has still to arrive. -/
def State.rdvOf (s : State) (l : List SlotOp) : Option Nat := if s.cur.seg.restart && s.cur.seg.rdvDone then none else s.rdvAt l
/-- The commit releases the arrival of the bundle's rendezvous, as its last entry (R346). -/
def State.rdvGo (s : State) (core : Nat) (g : Option Nat) : State :=
  match g with
  | some g => if (s.core core).seg.rdvDone then s else s.arriveRdv core g
  | none => s

/-- The operations of a bundle whose own checks have passed and whose commit, if it has one, is made. `s0` is the state in which it
waits when an operation cannot issue yet: that is left only to conflicts that arise within its group (log 15). -/
def State.runBundle (s s0 : State) (core : Nat) (ws : List Word32) (b : Bundle) (l : List (SlotOp × Uses)) : Out :=
  let pushes := l.any fun q => q.2.push
  let group := (l.filter fun q => s.cur.grp.breaks pushes q.2).map fun q => ({ cause := 0x004#10, slot := BitVec.ofNat 4 (slotNum q.1.o.slot) } : TrapInfo)
  match State.runOps (inOrder (l.map Prod.fst)) s group with
  | .fault f => .fault f
  | .refused f => .refused f
  | .next (t, ts) =>
    if t.issue.stall then
      let s := s0.modCore core fun c => { c with arrayEn := (t.core core).arrayEn }
      .next (if (s0.core core).grp.n = 0 then s.stalled core else s.quiet)
    else match firstTrap ts with
      | some x => .next ((s.redo t.issue.did).takeTrap x).quiet
      | none => .next (t.issued core ws b l).quiet

/-- One bundle of the main sequencer: landing, fetch, decode, the causes of R226 in their order, commit, operations. -/
def State.issueBundle (s0 : State) (core : Nat) : Out :=
  let c0 := s0.core core
  let s1 := { s0.setCore core (if c0.seg.restart then c0 else c0.tick) with issue := { core, haddr := c0.pc } }
  match s1.nextWords core with
  | (.error t, s) => .next (s.takeTrap t).quiet
  | (.ok ws, s) =>
    match bundleOf ws with
    | .error c => .next (s.takeTrap (bundleCause c)).quiet
    | .ok b =>
      let iss := mainIssuer core
      let ds := opsOf b iss
      let c := s.core core
      let s := { s with issue := { core, haddr := c0.pc, len := b.hdr.len.toNat, ck := b.hdr.ck, stop := b.hdr.stop, relN := c.seg.rel.length,
                                   since := some (s.seq, c.arch.lands.length) } }
      let l := (goodOps ds).map fun q => (q, q.uses s)
      let ops := l.map Prod.fst
      let group := if c.grp.n ≠ 0 then [] else ops ++ if b.hdr.stop then [] else State.groupFrom 31 s core (c0.pc + BitVec.ofNat 64 (4 * b.hdr.len.toNat))
      if s.groupHeld core group then
        .next ((if group.any SlotOp.usesArray && !c.arrayOn then s0.modCore core fun c => { c with arrayEn := true } else s0).stalled core)
      else match s.headerCause iss b l with
      | some c => .next (s.takeTrap (bundleCause c)).quiet
      | none => match s.encodingCause ds with
        | some t => .next (s.takeTrap t).quiet
        | none =>
          if !b.hdr.ck then
            if s.ckb ≤ c.seg.count then .next (s.takeTrap { cause := 0x1C0#10 }).quiet
            else s.runBundle s0 core ws b l
          else
            -- issued again after a rollback it commits nothing, unless nothing has issued since its commit (R217, R221; log 62); a rendezvous
            -- that has arrived does not commit again (R346)
            let rdv := s.rdvOf ops
            let same := c.seg.restart && (!c.seg.again || (c.seg.rdvDone && (s.rdvAt ops).isSome))
            match (if same then none else s.commitWait core rdv) with
            | some none => .next (s0.stalled core)
            | some (some t) => .next (s.takeTrap t).quiet
            | none =>
              let s := if same then s else s.commit core c0.pc
              -- an issue that commits nothing is no commit at which it stops (R113, R227)
              match (if !same then s.stopAtCommit core else if (s.core core).preempt = some 0 then some (s.graceExpire core) else none) with
              | some s => .next s.quiet
              | none =>
                let s := s.rdvGo core rdv
                -- an operation that must wait waits at the new checkpoint: the commit stands
                let back := if same then s0 else s.modCore core fun c => { c with seg := { c.seg with restart := true } }
                { s with issue := { s.issue with relN := 0, since := some (s.seq, c.arch.lands.length) } }.runBundle back core ws b l

/-! EXIT (R331). -/

/-- The commit of EXIT and the end of the tile run. -/
def State.exitStep (s : State) (core : Nat) : Out :=
  let pc := (s.core core).pc
  let s1 := { s with issue := { core, haddr := pc } }
  match s.commitWait core none with
  | some none => .next (s.stalled core)
  -- EXIT has been counted: the bundles before it are one less (R219)
  | some (some t) => .next (s1.takeTrap { t with site := some (pc, (s.core core).seg.count - 1) }).quiet
  | none =>
    let s := s.commit core pc
    let s := s.modCore core fun c => ({ c with arch := (List.range 6).foldl (fun a lv => a.setLoop lv { a.loopLv lv with act := false }) c.arch, lbuf := [] } : Core).landAll
    let s := s.tileDone core
    let c := s.core core
    if c.run = .running then .next ((s.stopAtCommit core).getD s)
    else match c.svc.trap, s.stopAtCommit core with
      | some _, some t => .next (t.modCore core fun c => { c with seg := { c.seg with exitDone := true } })
      | _, _ => .next s

/-! What is under way for a core goes on (R203, R207). -/

/-- A list in rising order of its numbers; equal numbers keep their order. -/
def insertBy (q : Nat × Instr) : List (Nat × Instr) → List (Nat × Instr)
  | [] => [q]
  | p :: r => if q.1 < p.1 then q :: p :: r else p :: insertBy q r
def sortBy (l : List (Nat × Instr)) : List (Nat × Instr) := l.foldl (fun m q => insertBy q m) []

/-- Each entry with its place in the list. -/
def numbered {α : Type} (l : List α) : List (Nat × α) := (List.range l.length).zip l
/-- The outstanding operations of a core by their age, with the events that can move them. -/
def Core.moves (c : Core) (i : Nat) : List (Nat × Instr) :=
  ((numbered c.loads).map fun q => (q.2.seq, Instr.globalLoadComplete i q.1)) ++
  ((numbered c.atoms).map fun q => (q.2.seq, Instr.atomicComplete i q.1)) ++
  ((numbered c.cmds).map fun q => (q.2.seq, Instr.copyComplete i q.1)) ++
  (((numbered c.watches).filter fun q => !q.2.asleep).map fun q => (q.2.seq, Instr.waitlineWake i q.1)) ++
  (match c.mq with
    | [] => []
    | m :: _ =>
      [.engineCauseReport i, .bankFillDone i, .passDrainDone i, .sideCarComputeDone i, .bankFillStart i, .passStart i, .tileUnitOpDone i].map fun e => (m.seq, e)) ++
  (match c.aq with | [] => [] | m :: _ => [(m.seq, .queueLoaderRead i)]) ++
  (match c.dq.find? fun e => e.data.isNone with | none => [] | some e => [(e.seq, .dqEntryFilled i)])
/-- The event by which a released entry is performed. -/
def Flight.move (f : Flight) (k : Nat) : Instr :=
  match f.rel with
  | .pair _ _ _ _ _ => .updatePairAdmit k
  | .post _ _ _ => .remotePostDeliver k
  | .event _ _ _ _ _ => .remotePostDeliver k
  | .arrive _ => .barrierArrival k
  | _ => .homeSliceAccess k
/-- The events that perform what a core has under way. -/
def ownEvent (i : Instr) (s : State) : Out :=
  match i with
  | .globalLoadComplete c k => execGlobalLoadComplete c k s
  | .atomicComplete c k => execAtomicComplete c k s
  | .copyComplete c k => execCopyComplete c k s
  | .waitlineWake c k => execWaitlineWake c k s
  | .engineCauseReport c => execEngineCauseReport c s
  | .bankFillStart c => execBankFillStart c s
  | .bankFillDone c => execBankFillDone c s
  | .passStart c => execPassStart c s
  | .passDrainDone c => execPassDrainDone c s
  | .sideCarComputeDone c => execSideCarComputeDone c s
  | .tileUnitOpDone c => execTileUnitOpDone c s
  | .queueLoaderRead c => execQueueLoaderRead c s
  | .dqEntryFilled c => execDqEntryFilled c s
  | .updatePairAdmit k => execUpdatePairAdmit k s
  | .remotePostDeliver k => execRemotePostDeliver k s
  | .barrierArrival k => execBarrierArrival k s
  | .homeSliceAccess k => execHomeSliceAccess k s
  | .keyCommandComplete k => execKeyCommandComplete k s
  | .backInvalidateResponse l => execBackInvalidateResponse l s
  | _ => .next s
/-- These events for a core, in the order of its operations; before them a key command, and the host's answers to snoops (R30; log 39). -/
def State.ownMoves (s : State) (core : Nat) : List Instr :=
  (s.pkg.keyOp.map fun q => Instr.keyCommandComplete (BitVec.ofNat 6 q.1)) ++ (s.pkg.snooped.map fun q => Instr.backInvalidateResponse (BitVec.ofNat 46 q.1)) ++
  (sortBy ((s.core core).moves core ++ ((numbered s.flight).filter fun q => q.2.core == core).map fun q => (q.2.seq, q.2.move q.1))).map Prod.snd
/-- What a core has under way goes on until a condition holds or nothing moves: within a group no stall stands (R207), so that what a
bundle meets there is performed before it, at times that the spec leaves free. Engines that the energy bucket holds go on as it drains. -/
def State.runAhead (core : Nat) (ready : State → Bool) : Nat → State → State
  | 0, s => s
  | n + 1, s =>
    if ready s then s
    else match (s.ownMoves core).findSome? fun i => match ownEvent i s with | .next t => if t = s then none else some t | _ => none with
      | some t => State.runAhead core ready n t
      | none => if (s.core core).enginesHeld then State.runAhead core ready n (s.modCore core Core.drain).idleCycle else s

/-! The turn of a sequencer. -/

/-- Nothing issues after a package-fatal condition (R71), nor while a key command holds accesses back (R62; log 46). -/
def State.mayIssue (s : State) : Bool := s.fatal == 0 && s.pkg.keyOp.isEmpty
/-- An operation under way has still to read what a result in flight writes: nothing lands before it has (R177, R203). -/
def Core.clash (c : Core) : Bool := c.tileClash || c.windowClash
/-- A rendezvous stops at its checkpoint with nothing rolled back; what its own bundle reserved is freed (R121, R346). -/
def State.rdvStop (s : State) (core : Nat) : State :=
  if (s.core core).keepErr then s.park core { cause := 0x145#10 } (s.core core).pc 4
  else (s.freeForks core).modCore core fun c => { c.rollback with run := .rolling, seg := { c.rollback.seg with rolls := c.seg.rolls } }
/-- A core whose grace has run out and that stands before no ck bundle. -/
def State.graceOver (s : State) (core : Nat) : Bool :=
  (s.core core).preempt == some 0 && !((s.core core).grp.n == 0 && s.nextIsCk core)
/-- wait, fwait and bwait give way to a pre-emption request at once (R338). -/
def Hold.yields : Hold → Bool
  | .tokens _ _ _ => true
  | .flagGe _ _ => true
  | .flagGeSub _ _ => true
  | .flagEq _ _ => true
  | .barrier _ => true
  | _ => false
/-- The next bundle of a group meets nothing that is under way: no key command, no result that would land too early, no busy unit, unless
it breaks the rules of its group, which is its cause (R207). -/
def State.midReady (s : State) (core : Nat) : Bool :=
  let c := s.core core
  s.mayIssue && !c.clash && match (s.nextWords core).1 with
    | .error _ => true
    | .ok ws => match bundleOf ws with
      | .error _ => true
      | .ok b =>
        let l := goodOps (opsOf b (mainIssuer core))
        l.any (fun q => c.grp.breaks false (q.uses { s with issue := { core } })) || !(({ s with issue := { core } } : State).modCore core fun c => { c with arrayOn := true }).groupHeld core l
/-- A cycle of the main sequencer at which it issues a bundle or inserts a stall (R208, R338). -/
def State.mainTurn (s : State) (core : Nat) : Out :=
  let c := s.core core
  if c.run ≠ .running then .next s
  else if c.seg.exitDone then .next (s.modCore core fun c => { c with run := .idle })
  else
    let s := s.modCore core Core.drain
    if s.fatal ≠ 0 then .next s
    else if c.grp.n ≠ 0 then
      let s := s.runAhead core (fun s => s.midReady core) 4096
      -- what even then is not performed the bundle does not wait for: no stall stands within a group (log 107)
      if (s.core core).run ≠ .running || !s.mayIssue then .next s
      else if s.graceOver core then .next (s.graceExpire core) else s.issueBundle core
    else if !s.mayIssue then .next s
    else match s.holdsGo core false c.grp.holds with
      | .error t =>
        -- a wait of the bundle that opened the segment: the resume issues that bundle with a commit of its own (R217, R339; log 62)
        let fresh := c.seg.count = 1 ∧ c.seg.log.isEmpty
        let s := s.park core t 0 (if contextFatal t.cause then 4 else 1)
        .next (if fresh then s.modCore core fun c => { c with seg := { c.seg with again := true } } else s)
      | .ok (s, left) =>
        let s := s.modCore core fun c => { c with grp := { c.grp with holds := left } }
        if !left.isEmpty then
          if c.preempt.isSome && left.any Hold.isRdv then .next (s.rdvStop core)
          else if c.preempt.isSome && left.any Hold.yields then .next ((s.preemptRoll core).switchOut core)
          else .next s
        else if c.seg.exiting then s.exitStep core
        else if s.energyHeld core then .next (s.energyStall core)
        else if c.clash then .next s
        else if s.graceOver core then .next (s.graceExpire core)
        else s.issueBundle core

/-- A bundle of the service sequencer (R195, R196, R296, R435). -/
def State.svcTurn (s0 : State) (core : Nat) : Out :=
  let c := s0.core core
  if !c.svc.busy || !s0.svcAlive core || s0.fatal != 0 || !s0.pkg.keyOp.isEmpty then .next s0
  else match s0.holdsGo core true c.svc.hold with
    | .error _ => .next s0
    | .ok (s, left) =>
      let s := s.modCore core fun c => { c with svc := { c.svc with hold := left } }
      if !left.isEmpty then .next s
      else
        let s := { s.modCore core Core.svcLand with issue := { core, svc := true, haddr := c.svc.pc } }
        match s.fetchBundle (s.fetcher core true) c.svc.pc with
        | (.error t, s) => .next (s.takeTrap t).quiet
        | (.ok ws, s) =>
          let h := Header.ofWord (ws.headD 0)
          match (if h.ck || h.opc then .error 0x002#10 else bundleOf ws) with
          | .error c => .next (s.takeTrap (bundleCause c)).quiet
          | .ok b =>
            let ds := opsOf b .svc
            let s := { s with issue := { core, svc := true, haddr := c.svc.pc, len := b.hdr.len.toNat, stop := b.hdr.stop } }
            let l := (goodOps ds).map fun q => (q, q.uses s)
            match s.headerCause .svc b l with
            | some c => .next (s.takeTrap (bundleCause c)).quiet
            | none => match s.encodingCause ds with
              | some t => .next (s.takeTrap t).quiet
              | none => match State.runOps (inOrder (goodOps ds)) s [] with
                | .fault f => .fault f
                | .refused f => .refused f
                | .next (t, ts) =>
                  if t.issue.stall then .next s0
                  else match firstTrap ts with
                    | some x => .next ((s.redo t.issue.did).takeTrap x).quiet
                    | none =>
                      let pc := t.issue.target.getD (c.svc.pc + BitVec.ofNat 64 (4 * b.hdr.len.toNat))
                      .next ((t.spend core (max b.hdr.ew.toNat b.words.length) true).modCore core fun c =>
                        -- a handler that ends leaves its results behind (R435)
                        (if c.svc.busy then c else c.svcLand).svcAt pc).quiet

/-! The steps of the sequencers. -/

def execBundleIssue (core : Nat) (s : State) : Out := s.mainTurn core
/-- One stall bundle at a group boundary while the core is held (R208). -/
def execStallBundle (core : Nat) (s : State) : Out :=
  let c := s.core core
  .next (if c.run = .running ∧ c.grp.n = 0 then
    let s := s.modCore core Core.drain
    if s.energyHeld core then s.energyStall core else s
  else s)
/-- A stretch cycle: the pipelines advance, no bundle issues, no position passes (R213). -/
def execStretchCycle (core : Nat) (s : State) : Out :=
  .next (if (s.core core).run = .running ∧ (s.core core).latdecl.getLsbD 24 then s.modCore core Core.drain else s)
/-- The grace of a pre-emption has run out with no commit in reach: the core rolls back; a core that has stopped is switched out (R113). -/
def execPreemptGraceExpire (core : Nat) (s : State) : Out :=
  .next (match (s.core core).run with
    | .rolling => s.switchOut core
    | .running => if (s.core core).grp.holds.isEmpty && s.graceOver core && !(s.core core).seg.exitDone then s.graceExpire core else s
    | _ => s)
def execServiceBundleIssue (core : Nat) (s : State) : Out := s.svcTurn core
/-- The bundle after the last that CKB allows (R114, R219). -/
def execCheckpointBoundOverrun (core : Nat) (s : State) : Out :=
  if s.ckb ≤ (s.core core).seg.count && !s.nextIsCk core then s.mainTurn core else .next s

end Sys2Proof.Machine
end

