-- ==== Sys2Proof/Machine/Dispatch.lean ====
section
/-! DEFINITION. The meaning of every instruction, arm by arm: slot operations, then nothing else (each arm is one direct call). -/
namespace Sys2Proof.Machine
open Sys2Proof

/-- One step of the package, by instruction or event. -/
def exec (i : Instr) (s : State) : Host.Outcome State Fault Refusal :=
  match i with
  | .packageReset => Sys2Proof.Machine.execPackageReset s
  | .bootImageVerify img => Sys2Proof.Machine.execBootImageVerify img s
  | .clusterPowerUp n => Sys2Proof.Machine.execClusterPowerUp n s
  | .arrayPowerGate core => Sys2Proof.Machine.execArrayPowerGate core s
  | .arrayEnable core => Sys2Proof.Machine.execArrayEnable core s
  | .oftFrameReceive port f => Sys2Proof.Machine.execOftFrameReceive port f s
  | .oftPutFlagIncrement k => Sys2Proof.Machine.execOftPutFlagIncrement k s
  | .oftRetransmit k => Sys2Proof.Machine.execOftRetransmit k s
  | .oftAckTimeout k => Sys2Proof.Machine.execOftAckTimeout k s
  | .portLinkDown port => Sys2Proof.Machine.execPortLinkDown port s
  | .portLinkUp port full => Sys2Proof.Machine.execPortLinkUp port full s
  | .portFailover node cls port => Sys2Proof.Machine.execPortFailover node cls port s
  | .portStatClr port => Sys2Proof.Machine.execPortStatClr port s
  | .portDisable port => Sys2Proof.Machine.execPortDisable port s
  | .hostMemRead pa n => Sys2Proof.Machine.execHostMemRead pa n s
  | .hostMemWrite pa data => Sys2Proof.Machine.execHostMemWrite pa data s
  | .backInvalidateResponse line => Sys2Proof.Machine.execBackInvalidateResponse line s
  | .hostSnoop line => Sys2Proof.Machine.execHostSnoop line s
  | .hostAccessTimeout core k => Sys2Proof.Machine.execHostAccessTimeout core k s
  | .hostLinkDown => Sys2Proof.Machine.execHostLinkDown s
  | .hostLinkTrain width rate => Sys2Proof.Machine.execHostLinkTrain width rate s
  | .streamEnable n => Sys2Proof.Machine.execStreamEnable n s
  | .launchComplete k => Sys2Proof.Machine.execLaunchComplete k s
  | .expPortIsolate => Sys2Proof.Machine.execExpPortIsolate s
  | .expIsolationEnd => Sys2Proof.Machine.execExpIsolationEnd s
  | .expPoisonSweepDone => Sys2Proof.Machine.execExpPoisonSweepDone s
  | .expRetrain => Sys2Proof.Machine.execExpRetrain s
  | .expLinkChange up speed capacity => Sys2Proof.Machine.execExpLinkChange up speed capacity s
  | .tier2ReadResponse pa poison => Sys2Proof.Machine.execTier2ReadResponse pa poison s
  | .bootFromHost img => Sys2Proof.Machine.execBootFromHost img s
  | .verifyAndWriteFlash img => Sys2Proof.Machine.execVerifyAndWriteFlash img s
  | .attestationRequest nonce => Sys2Proof.Machine.execAttestationRequest nonce s
  | .keyLoad k => Sys2Proof.Machine.execKeyLoad k s
  | .keyGen k => Sys2Proof.Machine.execKeyGen k s
  | .keyZero k => Sys2Proof.Machine.execKeyZero k s
  | .keyCommandComplete k => Sys2Proof.Machine.execKeyCommandComplete k s
  | .setEndpointId eid => Sys2Proof.Machine.execSetEndpointId eid s
  | .getEndpointId => Sys2Proof.Machine.execGetEndpointId s
  | .getMessageTypeSupport => Sys2Proof.Machine.execGetMessageTypeSupport s
  | .i3cDynamicAddressAssignment addr => Sys2Proof.Machine.execI3cDynamicAddressAssignment addr s
  | .cap msg => Sys2Proof.Machine.execCap msg s
  | .readTelemetry => Sys2Proof.Machine.execReadTelemetry s
  | .dumpStatus => Sys2Proof.Machine.execDumpStatus s
  | .alertAcknowledge kind => Sys2Proof.Machine.execAlertAcknowledge kind s
  | .packageFatal cause => Sys2Proof.Machine.execPackageFatal cause s
  | .rotWatchdogExpire => Sys2Proof.Machine.execRotWatchdogExpire s
  | .thermalTrip => Sys2Proof.Machine.execThermalTrip s
  | .dumpWritten => Sys2Proof.Machine.execDumpWritten s
  | .dumpRelease => Sys2Proof.Machine.execDumpRelease s
  | .settlingWindowEnd core => Sys2Proof.Machine.execSettlingWindowEnd core s
  | .railOvercurrent rail => Sys2Proof.Machine.execRailOvercurrent rail s
  | .railCeilingLowerStep rail => Sys2Proof.Machine.execRailCeilingLowerStep rail s
  | .railCeilingRaiseStep rail => Sys2Proof.Machine.execRailCeilingRaiseStep rail s
  | .phaseFail rail => Sys2Proof.Machine.execPhaseFail rail s
  | .thermalCeilingStep die temp => Sys2Proof.Machine.execThermalCeilingStep die temp s
  | .grantRecompute used => Sys2Proof.Machine.execGrantRecompute used s
  | .placementDecision => Sys2Proof.Machine.execPlacementDecision s
  | .chunkStart core => Sys2Proof.Machine.execChunkStart core s
  | .tailTileRequest core => Sys2Proof.Machine.execTailTileRequest core s
  | .preemptRequest core => Sys2Proof.Machine.execPreemptRequest core s
  | .preemptGraceExpire core => Sys2Proof.Machine.execPreemptGraceExpire core s
  | .chunkSwitchIn core => Sys2Proof.Machine.execChunkSwitchIn core s
  | .checkpointBoundOverrun core => Sys2Proof.Machine.execCheckpointBoundOverrun core s
  | .gangStart launch => Sys2Proof.Machine.execGangStart launch s
  | .gangWaitTimeout launch => Sys2Proof.Machine.execGangWaitTimeout launch s
  | .barrierArrival k => Sys2Proof.Machine.execBarrierArrival k s
  | .homeSliceAccess k => Sys2Proof.Machine.execHomeSliceAccess k s
  | .sliceRetireComplete slice => Sys2Proof.Machine.execSliceRetireComplete slice s
  | .l2FillReturn pa => Sys2Proof.Machine.execL2FillReturn pa s
  | .patrolScrub t => Sys2Proof.Machine.execPatrolScrub t s
  | .blazeMapSave => Sys2Proof.Machine.execBlazeMapSave s
  | .errorInject => Sys2Proof.Machine.execErrorInject s
  | .updatePairAdmit k => Sys2Proof.Machine.execUpdatePairAdmit k s
  | .regionRegisterWrite off v => Sys2Proof.Machine.execRegionRegisterWrite off v s
  | .bundleIssue core => Sys2Proof.Machine.execBundleIssue core s
  | .stallBundle core => Sys2Proof.Machine.execStallBundle core s
  | .stretchCycle core => Sys2Proof.Machine.execStretchCycle core s
  | .serviceBundleIssue core => Sys2Proof.Machine.execServiceBundleIssue core s
  | .handlerStart core => Sys2Proof.Machine.execHandlerStart core s
  | .serviceTimer core => Sys2Proof.Machine.execServiceTimer core s
  | .coreResume core => Sys2Proof.Machine.execCoreResume core s
  | .contextTerminate ctx cause => Sys2Proof.Machine.execContextTerminate ctx cause s
  | .contextTerminationDone ctx => Sys2Proof.Machine.execContextTerminationDone ctx s
  | .fsqEnable => Sys2Proof.Machine.execFsqEnable s
  | .bankFillStart core => Sys2Proof.Machine.execBankFillStart core s
  | .bankFillDone core => Sys2Proof.Machine.execBankFillDone core s
  | .sideCarComputeDone core => Sys2Proof.Machine.execSideCarComputeDone core s
  | .passStart core => Sys2Proof.Machine.execPassStart core s
  | .passDrainDone core => Sys2Proof.Machine.execPassDrainDone core s
  | .tileUnitOpDone core => Sys2Proof.Machine.execTileUnitOpDone core s
  | .engineCauseReport core => Sys2Proof.Machine.execEngineCauseReport core s
  | .copyComplete core k => Sys2Proof.Machine.execCopyComplete core k s
  | .queueLoaderRead core => Sys2Proof.Machine.execQueueLoaderRead core s
  | .dqEntryFilled core => Sys2Proof.Machine.execDqEntryFilled core s
  | .globalLoadComplete core k => Sys2Proof.Machine.execGlobalLoadComplete core k s
  | .atomicComplete core k => Sys2Proof.Machine.execAtomicComplete core k s
  | .remotePostDeliver k => Sys2Proof.Machine.execRemotePostDeliver k s
  | .waitlineWake core k => Sys2Proof.Machine.execWaitlineWake core k s
  | .waitlineTimeout core k => Sys2Proof.Machine.execWaitlineTimeout core k s
  | .launchAnswer core => Sys2Proof.Machine.execLaunchAnswer core s
  | .registerWrite off v => Sys2Proof.Machine.execRegisterWrite off v s
  | .nop o => Sys2Proof.Machine.execNop o s
  | .add o r => Sys2Proof.Machine.execAdd o r s
  | .sub o r => Sys2Proof.Machine.execSub o r s
  | .and o r => Sys2Proof.Machine.execAnd o r s
  | .or o r => Sys2Proof.Machine.execOr o r s
  | .xor o r => Sys2Proof.Machine.execXor o r s
  | .andn o r => Sys2Proof.Machine.execAndn o r s
  | .shl o r => Sys2Proof.Machine.execShl o r s
  | .shr o r => Sys2Proof.Machine.execShr o r s
  | .sra o r => Sys2Proof.Machine.execSra o r s
  | .rol o r => Sys2Proof.Machine.execRol o r s
  | .mul o r => Sys2Proof.Machine.execMul o r s
  | .mulhs o r => Sys2Proof.Machine.execMulhs o r s
  | .mulhu o r => Sys2Proof.Machine.execMulhu o r s
  | .min o r => Sys2Proof.Machine.execMin o r s
  | .max o r => Sys2Proof.Machine.execMax o r s
  | .minu o r => Sys2Proof.Machine.execMinu o r s
  | .maxu o r => Sys2Proof.Machine.execMaxu o r s
  | .addw o r => Sys2Proof.Machine.execAddw o r s
  | .subw o r => Sys2Proof.Machine.execSubw o r s
  | .movr o r => Sys2Proof.Machine.execMovr o r s
  | .addImm o r => Sys2Proof.Machine.execAddImm o r s
  | .andImm o r => Sys2Proof.Machine.execAndImm o r s
  | .orImm o r => Sys2Proof.Machine.execOrImm o r s
  | .xorImm o r => Sys2Proof.Machine.execXorImm o r s
  | .shlImm o r => Sys2Proof.Machine.execShlImm o r s
  | .shrImm o r => Sys2Proof.Machine.execShrImm o r s
  | .sraImm o r => Sys2Proof.Machine.execSraImm o r s
  | .mulImm o r => Sys2Proof.Machine.execMulImm o r s
  | .mov o r => Sys2Proof.Machine.execMov o r s
  | .movhi o r => Sys2Proof.Machine.execMovhi o r s
  | .cmp o r => Sys2Proof.Machine.execCmp o r s
  | .cmpImm o r => Sys2Proof.Machine.execCmpImm o r s
  | .pand o r => Sys2Proof.Machine.execPand o r s
  | .por o r => Sys2Proof.Machine.execPor o r s
  | .pxor o r => Sys2Proof.Machine.execPxor o r s
  | .pandn o r => Sys2Proof.Machine.execPandn o r s
  | .xfr o r => Sys2Proof.Machine.execXfr o r s
  | .br o r => Sys2Proof.Machine.execBr o r s
  | .call o r => Sys2Proof.Machine.execCall o r s
  | .brz o r => Sys2Proof.Machine.execBrz o r s
  | .brnz o r => Sys2Proof.Machine.execBrnz o r s
  | .ret o => Sys2Proof.Machine.execRet o s
  | .jr o r => Sys2Proof.Machine.execJr o r s
  | .loop o r => Sys2Proof.Machine.execLoop o r s
  | .loopi o r => Sys2Proof.Machine.execLoopi o r s
  | .mtcfg o r => Sys2Proof.Machine.execMtcfg o r s
  | .mftcfg o r => Sys2Proof.Machine.execMftcfg o r s
  | .dfpk o r => Sys2Proof.Machine.execDfpk o r s
  | .dfex o r => Sys2Proof.Machine.execDfex o r s
  | .dfexS o r => Sys2Proof.Machine.execDfexS o r s
  | .ldsp o r => Sys2Proof.Machine.execLdsp o r s
  | .stsp o r => Sys2Proof.Machine.execStsp o r s
  | .ld o r => Sys2Proof.Machine.execLd o r s
  | .st o r => Sys2Proof.Machine.execSt o r s
  | .atomAdd o r => Sys2Proof.Machine.execAtomAdd o r s
  | .atomAnd o r => Sys2Proof.Machine.execAtomAnd o r s
  | .atomOr o r => Sys2Proof.Machine.execAtomOr o r s
  | .atomXor o r => Sys2Proof.Machine.execAtomXor o r s
  | .atomSmin o r => Sys2Proof.Machine.execAtomSmin o r s
  | .atomSmax o r => Sys2Proof.Machine.execAtomSmax o r s
  | .atomUmin o r => Sys2Proof.Machine.execAtomUmin o r s
  | .atomUmax o r => Sys2Proof.Machine.execAtomUmax o r s
  | .atomSwap o r => Sys2Proof.Machine.execAtomSwap o r s
  | .atomCas o r => Sys2Proof.Machine.execAtomCas o r s
  | .atomBfi o r => Sys2Proof.Machine.execAtomBfi o r s
  | .atomFfcs o r => Sys2Proof.Machine.execAtomFfcs o r s
  | .atomPlset o r => Sys2Proof.Machine.execAtomPlset o r s
  | .upd o r => Sys2Proof.Machine.execUpd o r s
  | .pref o r => Sys2Proof.Machine.execPref o r s
  | .waitline o r => Sys2Proof.Machine.execWaitline o r s
  | .launch o r => Sys2Proof.Machine.execLaunch o r s
  | .exit o => Sys2Proof.Machine.execExit o s
  | .mfsr o r => Sys2Proof.Machine.execMfsr o r s
  | .mfsrIo o r => Sys2Proof.Machine.execMfsrIo o r s
  | .mtsr o r => Sys2Proof.Machine.execMtsr o r s
  | .mtsrIo o r => Sys2Proof.Machine.execMtsrIo o r s
  | .trap o r => Sys2Proof.Machine.execTrap o r s
  | .eret o => Sys2Proof.Machine.execEret o s
  | .sret o => Sys2Proof.Machine.execSret o s
  | .tlbiAll o r => Sys2Proof.Machine.execTlbiAll o r s
  | .tlbiCtx o r => Sys2Proof.Machine.execTlbiCtx o r s
  | .tlbiPage o r => Sys2Proof.Machine.execTlbiPage o r s
  | .cmntIcinv o r => Sys2Proof.Machine.execCmntIcinv o r s
  | .cmntIcinvPkg o r => Sys2Proof.Machine.execCmntIcinvPkg o r s
  | .cmntSdcinv o r => Sys2Proof.Machine.execCmntSdcinv o r s
  | .cmntWbctx o r => Sys2Proof.Machine.execCmntWbctx o r s
  | .cadv o r => Sys2Proof.Machine.execCadv o r s
  | .popc o r => Sys2Proof.Machine.execPopc o r s
  | .clz o r => Sys2Proof.Machine.execClz o r s
  | .ctz o r => Sys2Proof.Machine.execCtz o r s
  | .bscan o r => Sys2Proof.Machine.execBscan o r s
  | .bscanc o r => Sys2Proof.Machine.execBscanc o r s
  | .aqp o r => Sys2Proof.Machine.execAqp o r s
  | .aqpIdx o r => Sys2Proof.Machine.execAqpIdx o r s
  | .aqps o r => Sys2Proof.Machine.execAqps o r s
  | .vadd o r => Sys2Proof.Machine.execVadd o r s
  | .vsub o r => Sys2Proof.Machine.execVsub o r s
  | .vmul o r => Sys2Proof.Machine.execVmul o r s
  | .vmulhs o r => Sys2Proof.Machine.execVmulhs o r s
  | .vmulhu o r => Sys2Proof.Machine.execVmulhu o r s
  | .vmin o r => Sys2Proof.Machine.execVmin o r s
  | .vmax o r => Sys2Proof.Machine.execVmax o r s
  | .vminu o r => Sys2Proof.Machine.execVminu o r s
  | .vmaxu o r => Sys2Proof.Machine.execVmaxu o r s
  | .vadds o r => Sys2Proof.Machine.execVadds o r s
  | .vsubs o r => Sys2Proof.Machine.execVsubs o r s
  | .vaddus o r => Sys2Proof.Machine.execVaddus o r s
  | .vsubus o r => Sys2Proof.Machine.execVsubus o r s
  | .vabs o r => Sys2Proof.Machine.execVabs o r s
  | .vneg o r => Sys2Proof.Machine.execVneg o r s
  | .vand o r => Sys2Proof.Machine.execVand o r s
  | .vor o r => Sys2Proof.Machine.execVor o r s
  | .vxor o r => Sys2Proof.Machine.execVxor o r s
  | .vandn o r => Sys2Proof.Machine.execVandn o r s
  | .vmov o r => Sys2Proof.Machine.execVmov o r s
  | .vmulq o r => Sys2Proof.Machine.execVmulq o r s
  | .vmac o r => Sys2Proof.Machine.execVmac o r s
  | .vmacs o r => Sys2Proof.Machine.execVmacs o r s
  | .vmacwl o r => Sys2Proof.Machine.execVmacwl o r s
  | .vmacwh o r => Sys2Proof.Machine.execVmacwh o r s
  | .vshl o r => Sys2Proof.Machine.execVshl o r s
  | .vshr o r => Sys2Proof.Machine.execVshr o r s
  | .vsra o r => Sys2Proof.Machine.execVsra o r s
  | .vrol o r => Sys2Proof.Machine.execVrol o r s
  | .vshlImm o r => Sys2Proof.Machine.execVshlImm o r s
  | .vshrImm o r => Sys2Proof.Machine.execVshrImm o r s
  | .vsraImm o r => Sys2Proof.Machine.execVsraImm o r s
  | .vrolImm o r => Sys2Proof.Machine.execVrolImm o r s
  | .vcmp o r => Sys2Proof.Machine.execVcmp o r s
  | .vfcmp o r => Sys2Proof.Machine.execVfcmp o r s
  | .vsel o r => Sys2Proof.Machine.execVsel o r s
  | .vfadd o r => Sys2Proof.Machine.execVfadd o r s
  | .vfsub o r => Sys2Proof.Machine.execVfsub o r s
  | .vfmul o r => Sys2Proof.Machine.execVfmul o r s
  | .vfdiv o r => Sys2Proof.Machine.execVfdiv o r s
  | .vfsqrt o r => Sys2Proof.Machine.execVfsqrt o r s
  | .vfmin o r => Sys2Proof.Machine.execVfmin o r s
  | .vfmax o r => Sys2Proof.Machine.execVfmax o r s
  | .vfabs o r => Sys2Proof.Machine.execVfabs o r s
  | .vfneg o r => Sys2Proof.Machine.execVfneg o r s
  | .vfma o r => Sys2Proof.Machine.execVfma o r s
  | .vfms o r => Sys2Proof.Machine.execVfms o r s
  | .vfnma o r => Sys2Proof.Machine.execVfnma o r s
  | .vfnms o r => Sys2Proof.Machine.execVfnms o r s
  | .vcvt o r => Sys2Proof.Machine.execVcvt o r s
  | .vqntE2m1s o r => Sys2Proof.Machine.execVqntE2m1s o r s
  | .vqntE4m3 o r => Sys2Proof.Machine.execVqntE4m3 o r s
  | .vqntE5m2 o r => Sys2Proof.Machine.execVqntE5m2 o r s
  | .vdqnt o r => Sys2Proof.Machine.execVdqnt o r s
  | .vradd o r => Sys2Proof.Machine.execVradd o r s
  | .vrmin o r => Sys2Proof.Machine.execVrmin o r s
  | .vrmax o r => Sys2Proof.Machine.execVrmax o r s
  | .vrminu o r => Sys2Proof.Machine.execVrminu o r s
  | .vrmaxu o r => Sys2Proof.Machine.execVrmaxu o r s
  | .vrand o r => Sys2Proof.Machine.execVrand o r s
  | .vror o r => Sys2Proof.Machine.execVror o r s
  | .vrxor o r => Sys2Proof.Machine.execVrxor o r s
  | .vrfadd o r => Sys2Proof.Machine.execVrfadd o r s
  | .vrfmin o r => Sys2Proof.Machine.execVrfmin o r s
  | .vrfmax o r => Sys2Proof.Machine.execVrfmax o r s
  | .vscanadd o r => Sys2Proof.Machine.execVscanadd o r s
  | .vscanaddx o r => Sys2Proof.Machine.execVscanaddx o r s
  | .vscanmax o r => Sys2Proof.Machine.execVscanmax o r s
  | .vscanmin o r => Sys2Proof.Machine.execVscanmin o r s
  | .vscanmaxu o r => Sys2Proof.Machine.execVscanmaxu o r s
  | .vscanminu o r => Sys2Proof.Machine.execVscanminu o r s
  | .vscanfadd o r => Sys2Proof.Machine.execVscanfadd o r s
  | .vperm o r => Sys2Proof.Machine.execVperm o r s
  | .vrot o r => Sys2Proof.Machine.execVrot o r s
  | .vext o r => Sys2Proof.Machine.execVext o r s
  | .vzipl o r => Sys2Proof.Machine.execVzipl o r s
  | .vziph o r => Sys2Proof.Machine.execVziph o r s
  | .vuzpe o r => Sys2Proof.Machine.execVuzpe o r s
  | .vuzpo o r => Sys2Proof.Machine.execVuzpo o r s
  | .vsplat o r => Sys2Proof.Machine.execVsplat o r s
  | .vrev o r => Sys2Proof.Machine.execVrev o r s
  | .vrcp o r => Sys2Proof.Machine.execVrcp o r s
  | .vrsqrt o r => Sys2Proof.Machine.execVrsqrt o r s
  | .vexp2 o r => Sys2Proof.Machine.execVexp2 o r s
  | .vlog2 o r => Sys2Proof.Machine.execVlog2 o r s
  | .vsinpi o r => Sys2Proof.Machine.execVsinpi o r s
  | .vcospi o r => Sys2Proof.Machine.execVcospi o r s
  | .vtanh o r => Sys2Proof.Machine.execVtanh o r s
  | .vsigm o r => Sys2Proof.Machine.execVsigm o r s
  | .vrnd o r => Sys2Proof.Machine.execVrnd o r s
  | .vbcast o r => Sys2Proof.Machine.execVbcast o r s
  | .vtrd o r => Sys2Proof.Machine.execVtrd o r s
  | .vtrdReg o r => Sys2Proof.Machine.execVtrdReg o r s
  | .vtwr o r => Sys2Proof.Machine.execVtwr o r s
  | .vtwrReg o r => Sys2Proof.Machine.execVtwrReg o r s
  | .vldsp o r => Sys2Proof.Machine.execVldsp o r s
  | .vstsp o r => Sys2Proof.Machine.execVstsp o r s
  | .vld o r => Sys2Proof.Machine.execVld o r s
  | .vst o r => Sys2Proof.Machine.execVst o r s
  | .vamoAdd o r => Sys2Proof.Machine.execVamoAdd o r s
  | .vamoAnd o r => Sys2Proof.Machine.execVamoAnd o r s
  | .vamoOr o r => Sys2Proof.Machine.execVamoOr o r s
  | .vamoXor o r => Sys2Proof.Machine.execVamoXor o r s
  | .vamoSmin o r => Sys2Proof.Machine.execVamoSmin o r s
  | .vamoSmax o r => Sys2Proof.Machine.execVamoSmax o r s
  | .vamoUmin o r => Sys2Proof.Machine.execVamoUmin o r s
  | .vamoUmax o r => Sys2Proof.Machine.execVamoUmax o r s
  | .vamoSwap o r => Sys2Proof.Machine.execVamoSwap o r s
  | .vupd o r => Sys2Proof.Machine.execVupd o r s
  | .dqpop o r => Sys2Proof.Machine.execDqpop o r s
  | .mldb o r => Sys2Proof.Machine.execMldb o r s
  | .mswap o => Sys2Proof.Machine.execMswap o s
  | .mma o r => Sys2Proof.Machine.execMma o r s
  | .mmas o r => Sys2Proof.Machine.execMmas o r s
  | .mdrain o r => Sys2Proof.Machine.execMdrain o r s
  | .mzacc o r => Sys2Proof.Machine.execMzacc o r s
  | .mcv o r => Sys2Proof.Machine.execMcv o r s
  | .mtrn o r => Sys2Proof.Machine.execMtrn o r s
  | .mfill o r => Sys2Proof.Machine.execMfill o r s
  | .mtcpy o r => Sys2Proof.Machine.execMtcpy o r s
  | .kld o r => Sys2Proof.Machine.execKld o r s
  | .kst o r => Sys2Proof.Machine.execKst o r s
  | .kmov o r => Sys2Proof.Machine.execKmov o r s
  | .kfill o r => Sys2Proof.Machine.execKfill o r s
  | .kspr o r => Sys2Proof.Machine.execKspr o r s
  | .ksprReg o r => Sys2Proof.Machine.execKsprReg o r s
  | .cpy o r => Sys2Proof.Machine.execCpy o r s
  | .gath o r => Sys2Proof.Machine.execGath o r s
  | .scat o r => Sys2Proof.Machine.execScat o r s
  | .tldi o r => Sys2Proof.Machine.execTldi o r s
  | .tsti o r => Sys2Proof.Machine.execTsti o r s
  | .cpub o r => Sys2Proof.Machine.execCpub o r s
  | .stmap o r => Sys2Proof.Machine.execStmap o r s
  | .stfl o r => Sys2Proof.Machine.execStfl o r s
  | .chint o r => Sys2Proof.Machine.execChint o r s
  | .cnput o r => Sys2Proof.Machine.execCnput o r s
  | .cnget o r => Sys2Proof.Machine.execCnget o r s
  | .dld o r => Sys2Proof.Machine.execDld o r s
  | .dst o r => Sys2Proof.Machine.execDst o r s
  | .wait o r => Sys2Proof.Machine.execWait o r s
  | .fwait o r => Sys2Proof.Machine.execFwait o r s
  | .fwaitC o r => Sys2Proof.Machine.execFwaitC o r s
  | .fwaitEq o r => Sys2Proof.Machine.execFwaitEq o r s
  | .fpost o r => Sys2Proof.Machine.execFpost o r s
  | .fset o r => Sys2Proof.Machine.execFset o r s
  | .rpost o r => Sys2Proof.Machine.execRpost o r s
  | .rpostRel o r => Sys2Proof.Machine.execRpostRel o r s
  | .rpostPred o r => Sys2Proof.Machine.execRpostPred o r s
  | .barr o r => Sys2Proof.Machine.execBarr o r s
  | .bwait o r => Sys2Proof.Machine.execBwait o r s
  | .rdv o r => Sys2Proof.Machine.execRdv o r s
  | .fence o r => Sys2Proof.Machine.execFence o r s
  | .chk o r => Sys2Proof.Machine.execChk o r s
  | .fork o r => Sys2Proof.Machine.execFork o r s
  | .fprobe o r => Sys2Proof.Machine.execFprobe o r s
  | .fprobeF o r => Sys2Proof.Machine.execFprobeF o r s
  | .hostLineCacheFill line excl data => Sys2Proof.Machine.execHostLineCacheFill line excl data s
  | .powerLoss => Sys2Proof.Machine.execPowerLoss s

end Sys2Proof.Machine
end

