-- ==== Sys2Proof/Machine/Schedule.lean ====
section
/-! DEFINITION. What the package does by itself, and in which order this model lets it happen: a choice of one order among those that
the manual allows; events that arrive from State.agenda take any other (log 1, 2). Where a program stands that is put in by hand. -/
namespace Sys2Proof.Machine
open Sys2Proof

/-- One step of time (R435): TMR counts the REFCLK cycles that have passed (log 7). -/
def State.passTime (s : State) : State := { s with tmr := s.tmr + BitVec.ofNat 64 (Config.refclkOfStep s.fresh), fresh := s.fresh + 1 }

/-! Events that an agent of the package brings about. -/

/-- What the Distributor and the core's own control may do next for a core. -/
def State.controlMoves (s : State) (i : Nat) (c : Core) : List Instr :=
  (if c.arrayEn then [.arrayEnable i] else []) ++
  (if c.grp.n = 0 ∧ c.grp.holds.any (fun (h : Hold) => match h with | .launch _ _ _ => true | _ => false) then [.launchAnswer i] else []) ++
  (if c.queue.isEmpty || c.chunk.isSome then [] else [.chunkStart i, .chunkSwitchIn i]) ++
  (if s.wantsPreempt i then [.preemptRequest i] else []) ++
  (if c.run = .rolling then [.preemptGraceExpire i] else []) ++
  (if c.run = .idle ∧ c.chunk.isSome then [.tailTileRequest i] else []) ++
  (if c.svc.tcmp ≠ 0 ∧ !c.svc.tpend then [.serviceTimer i] else []) ++
  (if c.svc.base.getLsbD 0 && !c.svc.busy then [.handlerStart i] else [])
/-- Everything that may happen without a new bundle, in the order in which this model tries it. -/
def State.moves (s : State) : List Instr :=
  (if s.pkg.sweep then [Instr.expPoisonSweepDone] else []) ++ (match s.pkg.mbox.run with | 1 => [.bootFromHost []] | 2 => [.verifyAndWriteFlash []] | _ => []) ++ (s.pkg.keyOp.map fun q => .keyCommandComplete (BitVec.ofNat 6 q.1)) ++
  (match s.mustRetire with | some k => [.sliceRetireComplete k] | none => []) ++
  (sortBy ((s.cores.flatMap fun q => q.2.moves q.1) ++ (numbered s.flight).map fun q => (q.2.seq, q.2.move q.1))).map Prod.snd ++
  (if s.pkg.incs.isEmpty then [] else [.oftPutFlagIncrement 0]) ++
  (if !s.pkg.launches.isEmpty && s.choose.isSome then [.placementDecision] else []) ++
  ((s.pkg.launches.filter fun l => l.gang && l.placed && !l.started).map fun l => .gangStart l.id) ++
  (((numbered s.pkg.launches).filter fun q => s.completable q.2).map fun q => .launchComplete q.1) ++
  (s.pkg.terming.map fun q => .contextTerminationDone (BitVec.ofNat 6 q.1)) ++
  s.cores.flatMap fun q => s.controlMoves q.1 q.2

/-- The first of these events that moves the package. -/
def State.firstMove (s : State) : List Instr → Option Out
  | [] => none
  | i :: r =>
    match exec i s with
    | .next t => if t = s then s.firstMove r else some (.next t)
    | o => some o
/-- Records on their way to the fault-service queue, cores of a context to stop, own posts that are due, records of launch streams. -/
def State.ownMove (s : State) : Option State :=
  if !s.recq.isEmpty then some s.fsqNext
  else if !s.stopq.isEmpty then some s.stopNext
  else match s.cores.find? fun q => q.2.recHeld && !((s.fsqHeld q.1).core q.1).recHeld with
    | some q => some (s.fsqHeld q.1)
    | none =>
      match s.cores.find? fun q => (match q.2.seg.posts with | [] => false | p :: _ => s.postReady q.1 p) with
      | some q => some (State.drainPosts q.2.seg.posts.length s q.1)
      | none => s.streamMove

/-! Turns. -/

/-- A core with a sequencer at work. -/
def Core.working (c : Core) : Bool := c.run == .running || c.svc.busy
/-- The core whose turn it is: the first at or after `turn` that works, else the first. -/
def State.turnOf (s : State) : Option Nat :=
  match s.cores.find? fun q => decide (s.turn ≤ q.1) && q.2.working with
  | some q => some q.1
  | none => (s.cores.find? fun q => q.2.working).map Prod.fst
/-- One turn of a core: a bundle of each of its sequencers that works. -/
def State.takeTurn (s : State) (core : Nat) : Out :=
  let s := { s with turn := core + 1 }
  let busy := (s.core core).svc.busy
  match exec (.bundleIssue core) s with
  | .next t => if busy then exec (.serviceBundleIssue core) t else .next t
  | o => o

/-- Every working core has had its turn since the last core cycle: one passes for the others (R86). -/
def State.cycleBefore (s : State) (core : Nat) : State := if core < s.turn then s.idleCycle else s
/-- A step with no event from outside. After a package-fatal condition only the root of trust acts: it writes the dump (R71, R73). -/
def State.goOn (s : State) : Out :=
  if s.fatal ≠ 0 then (if s.pkg.dumping then exec .dumpWritten s else .next s)
  else match s.ownMove with
    | some t => .next t
    | none => match s.firstMove s.moves with
      | some o => o
      | none => match s.turnOf with
        | some c => (s.cycleBefore c).takeTurn c
        | none => .next s.idleCycle
/-- Only events arrive from outside, and only at agents that exist. -/
def Instr.isEvent (i : Instr) : Bool := (encodeParts i).isNone && WellFormed false i
/-- What still happens after a package-fatal condition: resets, further such conditions, the host link, the management endpoint and
the dump (R71); which events these are is read from that rule (DEDUCED, log 86). -/
def Instr.inService : Instr → Bool
  | .packageReset => true | .powerLoss => true | .packageFatal _ => true | .rotWatchdogExpire => true | .thermalTrip => true
  | .thermalCeilingStep _ _ => true | .dumpWritten => true | .dumpRelease => true | .registerWrite _ _ => true
  | .hostMemRead _ _ => true | .hostMemWrite _ _ => true | .backInvalidateResponse _ => true | .hostSnoop _ => true | .hostLinkDown => true
  | .hostLinkTrain _ _ => true | .setEndpointId _ => true | .getEndpointId => true | .getMessageTypeSupport => true
  | .i3cDynamicAddressAssignment _ => true | .cap _ => true | .readTelemetry => true | .attestationRequest _ => true
  | .dumpStatus => true | .alertAcknowledge _ => true
  | _ => false
/-- A step: an event that has arrived, else what the package does by itself. An event at a part that has stopped does nothing (R71). -/
def State.advance (s : State) : Out :=
  match s.agenda with
  | i :: r =>
    if !Instr.isEvent i then .fault .noSuchAgent
    else if s.fatal ≠ 0 ∧ !Instr.inService i then .next { s with agenda := r }.passTime
    else exec i { s with agenda := r }.passTime
  | [] => s.passTime.goOn

/-! A program put in by hand: one bundle where a sequencer fetches next (log 57). -/

/-- The issuer and the slot in which the decoder reads a word, as decodeAnySlot tries them. -/
def placeOf (w ext : Word32) : Option (Issuer × Slot) :=
  let ok (iss : Issuer) : Option (Issuer × Slot) := (slotList.find? fun sl => (slotOp iss sl w ext).toOption.isSome).map fun sl => (iss, sl)
  ((ok .cmp).orElse fun _ => ok .ctl).orElse fun _ => ok .svc
/-- Header of a bundle of one slot (R295): stop set, OPC clear; ck where the operation asks for it (R132, R346). -/
def headerFor (sl : Slot) (ck ext : Bool) : Word32 :=
  BitVec.ofNat 32 (2 ^ (31 - (slotList.findIdx? fun q => q == sl).getD 0) + 2 ^ 21 + (if ck then 2 ^ 20 else 0) + (if ext then 3 else 2) * 2 ^ 7)
def needsCk (w ext : Word32) (iss : Issuer) (sl : Slot) : Bool :=
  match slotOp iss sl w ext with
  | .ok q => match q.row with
    | .rdv => true
    | .stmap => true
    | _ => false
  | .error _ => false
/-- Where the placed bundle stands, in virtual and physical memory, and the root table of context 0. -/
def placedAt : Nat := 4096
def placedRoot : Nat := 8192
/-- A core that fetches the placed bundle next, with its registers as they were. -/
def Core.placed (c : Core) (iss : Issuer) : Core :=
  let k : Chunk := { launch := 0, ctx := 0, prio := 0, lo := 0, hi := 1, next := 1, cur := 0, gang := false, started := true }
  let at' : Word := BitVec.ofNat 64 placedAt
  { c with
    run := if iss == .svc then .parked else .running
    pc := at'
    seg := { ckaddr := at', ck := c.arch }
    grp := {}, svc := { pc := at', busy := iss == .svc, base := c.svc.base }, loads := [], atoms := [], cmds := [], mq := [], aq := [], dq := [], watches := []
    lbuf := [], opPwin := false, keepErr := false, elvl := 0, elvlS := 0, chunk := if iss == .ctl then none else some k, queue := [], preempt := none
    recHeld := false, icache := [], arrayEn := false }
/-- The package at rest but for one core, which issues the bundle of the words next. -/
def State.placeWords (s : State) (w ext : Word32) : State :=
  match placeOf w ext with
  | none => s
  | some (iss, sl) =>
    let long := w.getLsbD 31
    let ws := [headerFor sl (needsCk w ext iss sl) long, w] ++ (if long then [ext] else [])
    let core := if iss == .ctl then 256 else 0
    let s : State := { s with
      cores := [(core, (s.core core).placed iss)]
      recq := [], stopq := [], flight := [], tlb := [], poison := [], isoPoison := [], hbmErr := [], l2Err := [], l2 := [], deck := [], runs := []
      back := [], backPoison := [], keyTag := [], agenda := [], turn := core, issue := {}, fatal := 0
      pkg := { s.pkg with sweep := false, keyOp := [], mbox := { s.pkg.mbox with run := 0 }, streamHead := [], incs := [], launches := [], terming := [], railOver := [] } }
    let s := ((s.ioSet 0x8000 (BitVec.ofNat 64 (placedRoot + 1))).ioField 0x2000 5 1 1).ioField 0x2800 0 16 0
    (s.writePhys placedRoot (bytesOf 8 0x3F)).writePhys placedAt (ws.flatMap fun x => bytesOf 4 x.toNat)

end Sys2Proof.Machine
end

