-- ==== Sys2Proof/Machine/Step.lean ====
section
/-! DEFINITION. The step of the package, and a program put where it is fetched. -/
namespace Sys2Proof.Machine
open Sys2Proof

/-- One step: see State.advance. -/
def step (s : State) : Host.Outcome State Fault Refusal := s.advance

/-- The instruction of a table row's word stored where the next step fetches: the slot word is the low word, its extension the next. -/
def State.withFetchWord (s : State) (nbits w : Nat) : State :=
  if nbits ≤ 64 then s.placeWords (BitVec.ofNat 32 w) (BitVec.ofNat 32 (w / 2 ^ 32)) else s

end Sys2Proof.Machine
end

