-- ==== Sys2Proof/Laws/Forms.lean ====
section
/-! SUPPORT. The forms of R300, R301 and R352: reading the fields that were written gives the operands back, and every bit that a form
reserves is written as zero. -/
namespace Sys2Proof
set_option Elab.async false

/-- What a form must do for decode and encode to agree, for the operands that its selectors allow: with the extension word when one
is written, and without it when the operands need none. -/
structure FormLaw {α : Type} (f : Form α) (ok : Bool → α → Bool) (k : Nat) : Prop where
  get : ∀ ex r, ok ex r = true → (f.ext r = true → ex = true) → f.get ex (f.body k r) (if ex then f.pl r else 0#24) = r
  zero : ∀ ex r, ok ex r = true → (f.ext r = true → ex = true) → f.zero ex (f.body k r) (if ex then f.pl r else 0#24) = true

/-- A form that asks for the extension word when its PAYLOAD is not zero. -/
theorem FormLaw.of_pl {α : Type} {f : Form α} {ok : Bool → α → Bool} {k : Nat} (he : ∀ r, f.ext r = (f.pl r != 0#24))
    (hg : ∀ ex r, f.get ex (f.body k r) (f.pl r) = r) (hz : ∀ ex r, f.zero ex (f.body k r) (f.pl r) = true) : FormLaw f ok k := by
  have key (ex : Bool) (r : α) (h : f.ext r = true → ex = true) : (if ex then f.pl r else 0#24) = f.pl r := by
    cases ex with
    | true => rfl
    | false =>
      rw [he] at h
      by_cases hp : f.pl r = 0#24
      · simp [hp]
      · simp [hp] at h
  exact ⟨fun ex r _ h => by rw [key ex r h]; exact hg ex r, fun ex r _ h => by rw [key ex r h]; exact hz ex r⟩

theorem RRR.law (k : Nat) (hk : k < 32) (ok : Bool → RRR → Bool) : FormLaw RRR.form ok k := by
  refine FormLaw.of_pl (fun _ => rfl) (fun ex r => ?_) (fun ex r => ?_)
  · obtain ⟨d, a, b⟩ := r
    simp only [RRR.form, fld, RRR.mk.injEq]
    refine ⟨?_, ?_, ?_⟩
    · apply BitVec.eq_of_toNat_eq; simp only [BitVec.toNat_ofNat]; omega
    · apply BitVec.eq_of_toNat_eq; simp only [BitVec.toNat_ofNat]; omega
    · apply BitVec.eq_of_toNat_eq; simp only [BitVec.toNat_ofNat]; omega
  · simp only [RRR.form, beq_self_eq_true]
theorem RR.law (k : Nat) (hk : k < 32) (ok : Bool → RR → Bool) : FormLaw RR.form ok k := by
  refine FormLaw.of_pl (fun _ => rfl) (fun ex r => ?_) (fun ex r => ?_)
  · obtain ⟨d, a⟩ := r
    simp only [RR.form, fld, RR.mk.injEq]
    refine ⟨?_, ?_⟩
    · apply BitVec.eq_of_toNat_eq; simp only [BitVec.toNat_ofNat]; omega
    · apply BitVec.eq_of_toNat_eq; simp only [BitVec.toNat_ofNat]; omega
  · simp only [RR.form, fld, Bool.and_eq_true, beq_iff_eq, and_true]; exact (by apply BitVec.eq_of_toNat_eq; simp only [BitVec.toNat_ofNat]; omega)
theorem RImm.law (ok : Bool → RImm → Bool) : FormLaw RImm.form ok 0 := by
  refine ⟨fun ex r _ h => ?_, fun ex r _ h => ?_⟩
  · obtain ⟨d, a, imm⟩ := r
    cases ex
    · simp only [RImm.form, fld, RImm.mk.injEq] at h ⊢
      refine ⟨?_, ?_, ?_⟩
      · apply BitVec.eq_of_toNat_eq; simp only [BitVec.toNat_ofNat]; omega
      · apply BitVec.eq_of_toNat_eq; simp only [BitVec.toNat_ofNat]; omega
      · simp only [bne_iff_ne, ne_eq, Bool.false_eq_true, imp_false, Decidable.not_not, ↓reduceIte] at h ⊢
        refine Eq.trans (congrArg _ ?_) h
        apply BitVec.eq_of_toNat_eq; simp only [BitVec.toNat_ofNat]; omega
    · simp only [RImm.form, fld, RImm.mk.injEq] at h ⊢
      refine ⟨?_, ?_, ?_⟩
      · apply BitVec.eq_of_toNat_eq; simp only [BitVec.toNat_ofNat]; omega
      · apply BitVec.eq_of_toNat_eq; simp only [BitVec.toNat_ofNat]; omega
      · simp only [↓reduceIte]; apply BitVec.eq_of_toNat_eq; simp only [BitVec.toNat_ofNat]; omega
  · rfl
theorem RShift.law (ok : Bool → RShift → Bool) : FormLaw RShift.form ok 0 := by
  refine FormLaw.of_pl (fun _ => rfl) (fun ex r => ?_) (fun ex r => ?_)
  · obtain ⟨d, a, sh⟩ := r
    simp only [RShift.form, fld, RShift.mk.injEq]
    refine ⟨?_, ?_, ?_⟩
    · apply BitVec.eq_of_toNat_eq; simp only [BitVec.toNat_ofNat]; omega
    · apply BitVec.eq_of_toNat_eq; simp only [BitVec.toNat_ofNat]; omega
    · apply BitVec.eq_of_toNat_eq; simp only [BitVec.toNat_ofNat]; omega
  · simp only [RShift.form, fld, Bool.and_eq_true, beq_iff_eq, and_true]; exact (by apply BitVec.eq_of_toNat_eq; simp only [BitVec.toNat_ofNat]; omega)
theorem RLong.law (ok : Bool → RLong → Bool) : FormLaw RLong.form ok 0 := by
  refine ⟨fun ex r _ h => ?_, fun ex r _ h => ?_⟩
  · obtain ⟨d, imm⟩ := r
    cases ex
    · simp only [RLong.form, fld, RLong.mk.injEq] at h ⊢
      refine ⟨?_, ?_⟩
      · apply BitVec.eq_of_toNat_eq; simp only [BitVec.toNat_ofNat]; omega
      · simp only [bne_iff_ne, ne_eq, Bool.false_eq_true, imp_false, Decidable.not_not, ↓reduceIte] at h ⊢
        refine Eq.trans (congrArg _ ?_) h
        apply BitVec.eq_of_toNat_eq; simp only [BitVec.toNat_ofNat]; omega
    · simp only [RLong.form, fld, RLong.mk.injEq] at h ⊢
      refine ⟨?_, ?_⟩
      · apply BitVec.eq_of_toNat_eq; simp only [BitVec.toNat_ofNat]; omega
      · simp only [↓reduceIte]; apply BitVec.eq_of_toNat_eq; simp only [BitVec.toNat_ofNat]; omega
  · rfl
theorem CmpReg.law (ok : Bool → CmpReg → Bool) : FormLaw CmpReg.form ok 0 := by
  refine FormLaw.of_pl (fun _ => rfl) (fun ex r => ?_) (fun ex r => ?_)
  · obtain ⟨pd, cc, a, b⟩ := r
    simp only [CmpReg.form, fld, CmpReg.mk.injEq]
    refine ⟨?_, ?_, ?_, ?_⟩
    · apply BitVec.eq_of_toNat_eq; simp only [BitVec.toNat_ofNat]; omega
    · apply BitVec.eq_of_toNat_eq; simp only [BitVec.toNat_ofNat]; omega
    · apply BitVec.eq_of_toNat_eq; simp only [BitVec.toNat_ofNat]; omega
    · apply BitVec.eq_of_toNat_eq; simp only [BitVec.toNat_ofNat]; omega
  · simp only [CmpReg.form, fld, Bool.and_eq_true, beq_iff_eq, and_true]; exact (by apply BitVec.eq_of_toNat_eq; simp only [BitVec.toNat_ofNat]; omega)
theorem CmpImm.law (ok : Bool → CmpImm → Bool) : FormLaw CmpImm.form ok 0 := by
  refine ⟨fun ex r _ h => ?_, fun ex r _ h => ?_⟩
  · obtain ⟨pd, cc, a, imm⟩ := r
    cases ex
    · simp only [CmpImm.form, fld, CmpImm.mk.injEq] at h ⊢
      refine ⟨?_, ?_, ?_, ?_⟩
      · apply BitVec.eq_of_toNat_eq; simp only [BitVec.toNat_ofNat]; omega
      · apply BitVec.eq_of_toNat_eq; simp only [BitVec.toNat_ofNat]; omega
      · apply BitVec.eq_of_toNat_eq; simp only [BitVec.toNat_ofNat]; omega
      · simp only [bne_iff_ne, ne_eq, Bool.false_eq_true, imp_false, Decidable.not_not, ↓reduceIte] at h ⊢
        refine Eq.trans (congrArg _ ?_) h
        apply BitVec.eq_of_toNat_eq; simp only [BitVec.toNat_ofNat]; omega
    · simp only [CmpImm.form, fld, CmpImm.mk.injEq] at h ⊢
      refine ⟨?_, ?_, ?_, ?_⟩
      · apply BitVec.eq_of_toNat_eq; simp only [BitVec.toNat_ofNat]; omega
      · apply BitVec.eq_of_toNat_eq; simp only [BitVec.toNat_ofNat]; omega
      · apply BitVec.eq_of_toNat_eq; simp only [BitVec.toNat_ofNat]; omega
      · simp only [↓reduceIte]; apply BitVec.eq_of_toNat_eq; simp only [BitVec.toNat_ofNat]; omega
  · simp only [CmpImm.form, fld, beq_iff_eq]; exact (by apply BitVec.eq_of_toNat_eq; simp only [BitVec.toNat_ofNat]; omega)
theorem PredLogic.law (k : Nat) (hk : k < 16) (ok : Bool → PredLogic → Bool) : FormLaw PredLogic.form ok k := by
  refine FormLaw.of_pl (fun _ => rfl) (fun ex r => ?_) (fun ex r => ?_)
  · obtain ⟨pd, a, b⟩ := r
    simp only [PredLogic.form, fld, PredLogic.mk.injEq]
    refine ⟨?_, ?_, ?_⟩
    · apply BitVec.eq_of_toNat_eq; simp only [BitVec.toNat_ofNat]; omega
    · apply BitVec.eq_of_toNat_eq; simp only [BitVec.toNat_ofNat]; omega
    · apply BitVec.eq_of_toNat_eq; simp only [BitVec.toNat_ofNat]; omega
  · simp only [PredLogic.form, fld, Bool.and_eq_true, beq_iff_eq, and_true]
    refine ⟨⟨?_, ?_⟩, ?_⟩
    · apply BitVec.eq_of_toNat_eq; simp only [BitVec.toNat_ofNat]; omega
    · apply BitVec.eq_of_toNat_eq; simp only [BitVec.toNat_ofNat]; omega
    · apply BitVec.eq_of_toNat_eq; simp only [BitVec.toNat_ofNat]; omega
theorem BrReg.law (ok : Bool → BrReg → Bool) : FormLaw BrReg.form ok 0 := by
  refine ⟨fun ex r _ h => ?_, fun ex r _ h => ?_⟩
  · obtain ⟨a, disp⟩ := r
    cases ex
    · simp only [BrReg.form, fld, BrReg.mk.injEq] at h ⊢
      refine ⟨?_, ?_⟩
      · apply BitVec.eq_of_toNat_eq; simp only [BitVec.toNat_ofNat]; omega
      · simp only [bne_iff_ne, ne_eq, Bool.false_eq_true, imp_false, Decidable.not_not, ↓reduceIte] at h ⊢
        refine Eq.trans (congrArg _ ?_) h
        apply BitVec.eq_of_toNat_eq; simp only [BitVec.toNat_ofNat]; omega
    · simp only [BrReg.form, fld, BrReg.mk.injEq] at h ⊢
      refine ⟨?_, ?_⟩
      · apply BitVec.eq_of_toNat_eq; simp only [BitVec.toNat_ofNat]; omega
      · simp only [↓reduceIte]; apply BitVec.eq_of_toNat_eq; simp only [BitVec.toNat_ofNat]; omega
  · simp only [BrReg.form, fld, beq_iff_eq]; exact (by apply BitVec.eq_of_toNat_eq; simp only [BitVec.toNat_ofNat]; omega)
theorem LoopReg.law (ok : Bool → LoopReg → Bool) : FormLaw LoopReg.form ok 0 := by
  refine FormLaw.of_pl (fun _ => rfl) (fun ex r => ?_) (fun ex r => ?_)
  · obtain ⟨lv, a, fin⟩ := r
    simp only [LoopReg.form, fld, LoopReg.mk.injEq]
    refine ⟨?_, ?_, ?_⟩
    · apply BitVec.eq_of_toNat_eq; simp only [BitVec.toNat_ofNat]; omega
    · apply BitVec.eq_of_toNat_eq; simp only [BitVec.toNat_ofNat]; omega
    · apply BitVec.eq_of_toNat_eq; simp only [BitVec.toNat_ofNat]; omega
  · simp only [LoopReg.form, beq_self_eq_true]
theorem LoopImm.law (ok : Bool → LoopImm → Bool) : FormLaw LoopImm.form ok 0 := by
  refine FormLaw.of_pl (fun _ => rfl) (fun ex r => ?_) (fun ex r => ?_)
  · obtain ⟨lv, n, fin⟩ := r
    simp only [LoopImm.form, fld, LoopImm.mk.injEq]
    refine ⟨?_, ?_, ?_⟩
    · apply BitVec.eq_of_toNat_eq; simp only [BitVec.toNat_ofNat]; omega
    · apply BitVec.eq_of_toNat_eq; simp only [BitVec.toNat_ofNat]; omega
    · apply BitVec.eq_of_toNat_eq; simp only [BitVec.toNat_ofNat]; omega
  · rfl
theorem SpLoad.law (ok : Bool → SpLoad → Bool) : FormLaw SpLoad.form ok 0 := by
  refine FormLaw.of_pl (fun _ => rfl) (fun ex r => ?_) (fun ex r => ?_)
  · obtain ⟨d, base, ix, sx, am, z, cls, disp⟩ := r
    simp only [SpLoad.form, fld, SpLoad.mk.injEq]
    refine ⟨?_, ?_, ?_, ?_, ?_, ?_, ?_, ?_⟩
    · apply BitVec.eq_of_toNat_eq; simp only [BitVec.toNat_ofNat]; omega
    · apply BitVec.eq_of_toNat_eq; simp only [BitVec.toNat_ofNat]; omega
    · apply BitVec.eq_of_toNat_eq; simp only [BitVec.toNat_ofNat]; omega
    · apply BitVec.eq_of_toNat_eq; simp only [BitVec.toNat_ofNat]; omega
    · apply BitVec.eq_of_toNat_eq; simp only [BitVec.toNat_ofNat]; omega
    · apply BitVec.eq_of_toNat_eq; simp only [BitVec.toNat_ofNat]; omega
    · apply BitVec.eq_of_toNat_eq; simp only [BitVec.toNat_ofNat]; omega
    · apply BitVec.eq_of_toNat_eq; simp only [BitVec.toNat_ofNat]; omega
  · simp only [SpLoad.form, fld, beq_iff_eq]; exact (by apply BitVec.eq_of_toNat_eq; simp only [BitVec.toNat_ofNat]; omega)
theorem SpStore.law (ok : Bool → SpStore → Bool) : FormLaw SpStore.form ok 0 := by
  refine FormLaw.of_pl (fun _ => rfl) (fun ex r => ?_) (fun ex r => ?_)
  · obtain ⟨d, base, ix, am, z, cls, disp⟩ := r
    simp only [SpStore.form, fld, SpStore.mk.injEq]
    refine ⟨?_, ?_, ?_, ?_, ?_, ?_, ?_⟩
    · apply BitVec.eq_of_toNat_eq; simp only [BitVec.toNat_ofNat]; omega
    · apply BitVec.eq_of_toNat_eq; simp only [BitVec.toNat_ofNat]; omega
    · apply BitVec.eq_of_toNat_eq; simp only [BitVec.toNat_ofNat]; omega
    · apply BitVec.eq_of_toNat_eq; simp only [BitVec.toNat_ofNat]; omega
    · apply BitVec.eq_of_toNat_eq; simp only [BitVec.toNat_ofNat]; omega
    · apply BitVec.eq_of_toNat_eq; simp only [BitVec.toNat_ofNat]; omega
    · apply BitVec.eq_of_toNat_eq; simp only [BitVec.toNat_ofNat]; omega
  · simp only [SpStore.form, fld, Bool.and_eq_true, beq_iff_eq]
    refine ⟨?_, ?_⟩
    · apply BitVec.eq_of_toNat_eq; simp only [BitVec.toNat_ofNat]; omega
    · apply BitVec.eq_of_toNat_eq; simp only [BitVec.toNat_ofNat]; omega
theorem GlLoad.law (ok : Bool → GlLoad → Bool) : FormLaw GlLoad.form ok 0 := by
  refine FormLaw.of_pl (fun _ => rfl) (fun ex r => ?_) (fun ex r => ?_)
  · obtain ⟨d, base, ix, sx, am, z, cls, tok, u, disp⟩ := r
    simp only [GlLoad.form, fld, GlLoad.mk.injEq]
    refine ⟨?_, ?_, ?_, ?_, ?_, ?_, ?_, ?_, ?_, ?_⟩
    · apply BitVec.eq_of_toNat_eq; simp only [BitVec.toNat_ofNat]; omega
    · apply BitVec.eq_of_toNat_eq; simp only [BitVec.toNat_ofNat]; omega
    · apply BitVec.eq_of_toNat_eq; simp only [BitVec.toNat_ofNat]; omega
    · apply BitVec.eq_of_toNat_eq; simp only [BitVec.toNat_ofNat]; omega
    · apply BitVec.eq_of_toNat_eq; simp only [BitVec.toNat_ofNat]; omega
    · apply BitVec.eq_of_toNat_eq; simp only [BitVec.toNat_ofNat]; omega
    · apply BitVec.eq_of_toNat_eq; simp only [BitVec.toNat_ofNat]; omega
    · apply BitVec.eq_of_toNat_eq; simp only [BitVec.toNat_ofNat]; omega
    · have : fld (GlLoad.form.pl ⟨d, base, ix, sx, am, z, cls, tok, u, disp⟩) 15 2 = u ^^^ 2#2 := by
        simp only [GlLoad.form, fld]; apply BitVec.eq_of_toNat_eq; simp only [BitVec.toNat_ofNat]; omega
      simp only [GlLoad.form, fld] at this; rw [this, BitVec.xor_assoc, BitVec.xor_self, BitVec.xor_zero]
    · apply BitVec.eq_of_toNat_eq; simp only [BitVec.toNat_ofNat]; omega
  · rfl
theorem Atomic.law (k : Nat) (hk : k < 16) (ok : Bool → Atomic → Bool) : FormLaw Atomic.form ok k := by
  refine FormLaw.of_pl (fun _ => rfl) (fun ex r => ?_) (fun ex r => ?_)
  · obtain ⟨d, base, a, w, cls, tok, disp⟩ := r
    simp only [Atomic.form, fld, Atomic.mk.injEq]
    refine ⟨?_, ?_, ?_, ?_, ?_, ?_, ?_⟩
    · apply BitVec.eq_of_toNat_eq; simp only [BitVec.toNat_ofNat]; omega
    · apply BitVec.eq_of_toNat_eq; simp only [BitVec.toNat_ofNat]; omega
    · apply BitVec.eq_of_toNat_eq; simp only [BitVec.toNat_ofNat]; omega
    · apply BitVec.eq_of_toNat_eq; simp only [BitVec.toNat_ofNat]; omega
    · apply BitVec.eq_of_toNat_eq; simp only [BitVec.toNat_ofNat]; omega
    · apply BitVec.eq_of_toNat_eq; simp only [BitVec.toNat_ofNat]; omega
    · apply BitVec.eq_of_toNat_eq; simp only [BitVec.toNat_ofNat]; omega
  · simp only [Atomic.form, fld, beq_iff_eq]; exact (by apply BitVec.eq_of_toNat_eq; simp only [BitVec.toNat_ofNat]; omega)
theorem BitAtomic.law (k : Nat) (hk : k < 32) (ok : Bool → BitAtomic → Bool) : FormLaw BitAtomic.form ok k := by
  refine FormLaw.of_pl (fun _ => rfl) (fun ex r => ?_) (fun ex r => ?_)
  · obtain ⟨d, base, a, cls, tok, disp⟩ := r
    simp only [BitAtomic.form, fld, BitAtomic.mk.injEq]
    refine ⟨?_, ?_, ?_, ?_, ?_, ?_⟩
    · apply BitVec.eq_of_toNat_eq; simp only [BitVec.toNat_ofNat]; omega
    · apply BitVec.eq_of_toNat_eq; simp only [BitVec.toNat_ofNat]; omega
    · apply BitVec.eq_of_toNat_eq; simp only [BitVec.toNat_ofNat]; omega
    · apply BitVec.eq_of_toNat_eq; simp only [BitVec.toNat_ofNat]; omega
    · apply BitVec.eq_of_toNat_eq; simp only [BitVec.toNat_ofNat]; omega
    · apply BitVec.eq_of_toNat_eq; simp only [BitVec.toNat_ofNat]; omega
  · simp only [BitAtomic.form, fld, beq_iff_eq]; exact (by apply BitVec.eq_of_toNat_eq; simp only [BitVec.toNat_ofNat]; omega)
theorem PlsetArgs.law (k : Nat) (hk : k < 32) (ok : Bool → PlsetArgs → Bool) : FormLaw PlsetArgs.form ok k := by
  refine FormLaw.of_pl (fun _ => rfl) (fun ex r => ?_) (fun ex r => ?_)
  · obtain ⟨d, base, a, cls, tok, lim, disp⟩ := r
    simp only [PlsetArgs.form, fld, PlsetArgs.mk.injEq]
    refine ⟨?_, ?_, ?_, ?_, ?_, ?_, ?_⟩
    · apply BitVec.eq_of_toNat_eq; simp only [BitVec.toNat_ofNat]; omega
    · apply BitVec.eq_of_toNat_eq; simp only [BitVec.toNat_ofNat]; omega
    · apply BitVec.eq_of_toNat_eq; simp only [BitVec.toNat_ofNat]; omega
    · apply BitVec.eq_of_toNat_eq; simp only [BitVec.toNat_ofNat]; omega
    · apply BitVec.eq_of_toNat_eq; simp only [BitVec.toNat_ofNat]; omega
    · apply BitVec.eq_of_toNat_eq; simp only [BitVec.toNat_ofNat]; omega
    · apply BitVec.eq_of_toNat_eq; simp only [BitVec.toNat_ofNat]; omega
  · simp only [PlsetArgs.form, fld, beq_iff_eq]; exact (by apply BitVec.eq_of_toNat_eq; simp only [BitVec.toNat_ofNat]; omega)
theorem UpdArgs.law (ok : Bool → UpdArgs → Bool) : FormLaw UpdArgs.form ok 0 := by
  refine FormLaw.of_pl (fun _ => rfl) (fun ex r => ?_) (fun ex r => ?_)
  · obtain ⟨d, base, ix, idx, cls, rgn, disp⟩ := r
    simp only [UpdArgs.form, fld, UpdArgs.mk.injEq]
    refine ⟨?_, ?_, ?_, ?_, ?_, ?_, ?_⟩
    · apply BitVec.eq_of_toNat_eq; simp only [BitVec.toNat_ofNat]; omega
    · apply BitVec.eq_of_toNat_eq; simp only [BitVec.toNat_ofNat]; omega
    · apply BitVec.eq_of_toNat_eq; simp only [BitVec.toNat_ofNat]; omega
    · apply BitVec.eq_of_toNat_eq; simp only [BitVec.toNat_ofNat]; omega
    · apply BitVec.eq_of_toNat_eq; simp only [BitVec.toNat_ofNat]; omega
    · apply BitVec.eq_of_toNat_eq; simp only [BitVec.toNat_ofNat]; omega
    · apply BitVec.eq_of_toNat_eq; simp only [BitVec.toNat_ofNat]; omega
  · simp only [UpdArgs.form, fld, Bool.and_eq_true, beq_iff_eq]
    refine ⟨?_, ?_⟩
    · apply BitVec.eq_of_toNat_eq; simp only [BitVec.toNat_ofNat]; omega
    · apply BitVec.eq_of_toNat_eq; simp only [BitVec.toNat_ofNat]; omega
theorem PrefArgs.law (ok : Bool → PrefArgs → Bool) : FormLaw PrefArgs.form ok 0 := by
  refine FormLaw.of_pl (fun _ => rfl) (fun ex r => ?_) (fun ex r => ?_)
  · obtain ⟨base, lvl, u, disp⟩ := r
    simp only [PrefArgs.form, fld, PrefArgs.mk.injEq]
    refine ⟨?_, ?_, ?_, ?_⟩
    · apply BitVec.eq_of_toNat_eq; simp only [BitVec.toNat_ofNat]; omega
    · apply BitVec.eq_of_toNat_eq; simp only [BitVec.toNat_ofNat]; omega
    · have : fld (PrefArgs.form.pl ⟨base, lvl, u, disp⟩) 15 2 = u ^^^ 2#2 := by
        simp only [PrefArgs.form, fld]; apply BitVec.eq_of_toNat_eq; simp only [BitVec.toNat_ofNat]; omega
      simp only [PrefArgs.form, fld] at this; rw [this, BitVec.xor_assoc, BitVec.xor_self, BitVec.xor_zero]
    · apply BitVec.eq_of_toNat_eq; simp only [BitVec.toNat_ofNat]; omega
  · simp only [PrefArgs.form, fld, Bool.and_eq_true, beq_iff_eq]
    refine ⟨⟨⟨?_, ?_⟩, ?_⟩, ?_⟩
    · apply BitVec.eq_of_toNat_eq; simp only [BitVec.toNat_ofNat]; omega
    · apply BitVec.eq_of_toNat_eq; simp only [BitVec.toNat_ofNat]; omega
    · apply BitVec.eq_of_toNat_eq; simp only [BitVec.toNat_ofNat]; omega
    · apply BitVec.eq_of_toNat_eq; simp only [BitVec.toNat_ofNat]; omega
theorem WaitlineArgs.law (ok : Bool → WaitlineArgs → Bool) : FormLaw WaitlineArgs.form ok 0 := by
  refine FormLaw.of_pl (fun _ => rfl) (fun ex r => ?_) (fun ex r => ?_)
  · obtain ⟨d, base, ix, tmo, cls, tok, disp⟩ := r
    simp only [WaitlineArgs.form, fld, WaitlineArgs.mk.injEq]
    refine ⟨?_, ?_, ?_, ?_, ?_, ?_, ?_⟩
    · apply BitVec.eq_of_toNat_eq; simp only [BitVec.toNat_ofNat]; omega
    · apply BitVec.eq_of_toNat_eq; simp only [BitVec.toNat_ofNat]; omega
    · apply BitVec.eq_of_toNat_eq; simp only [BitVec.toNat_ofNat]; omega
    · apply BitVec.eq_of_toNat_eq; simp only [BitVec.toNat_ofNat]; omega
    · apply BitVec.eq_of_toNat_eq; simp only [BitVec.toNat_ofNat]; omega
    · apply BitVec.eq_of_toNat_eq; simp only [BitVec.toNat_ofNat]; omega
    · apply BitVec.eq_of_toNat_eq; simp only [BitVec.toNat_ofNat]; omega
  · simp only [WaitlineArgs.form, fld, beq_iff_eq]; exact (by apply BitVec.eq_of_toNat_eq; simp only [BitVec.toNat_ofNat]; omega)
theorem IoMove.law (ok : Bool → IoMove → Bool) : FormLaw IoMove.form ok 0 := by
  refine FormLaw.of_pl (fun _ => rfl) (fun ex r => ?_) (fun ex r => ?_)
  · obtain ⟨d, a, off⟩ := r
    simp only [IoMove.form, fld, IoMove.mk.injEq]
    refine ⟨?_, ?_, ?_⟩
    · apply BitVec.eq_of_toNat_eq; simp only [BitVec.toNat_ofNat]; omega
    · apply BitVec.eq_of_toNat_eq; simp only [BitVec.toNat_ofNat]; omega
    · apply BitVec.eq_of_toNat_eq; simp only [BitVec.toNat_ofNat]; omega
  · simp only [IoMove.form, fld, Bool.and_eq_true, beq_iff_eq]
    refine ⟨⟨?_, ?_⟩, ?_⟩
    · apply BitVec.eq_of_toNat_eq; simp only [BitVec.toNat_ofNat]; omega
    · apply BitVec.eq_of_toNat_eq; simp only [BitVec.toNat_ofNat]; omega
    · apply BitVec.eq_of_toNat_eq; simp only [BitVec.toNat_ofNat]; omega
theorem CadvArgs.law (ok : Bool → CadvArgs → Bool) : FormLaw CadvArgs.form ok 0 := by
  refine FormLaw.of_pl (fun _ => rfl) (fun ex r => ?_) (fun ex r => ?_)
  · obtain ⟨d, a, b, sg, pd, step⟩ := r
    simp only [CadvArgs.form, fld, CadvArgs.mk.injEq]
    refine ⟨?_, ?_, ?_, ?_, ?_, ?_⟩
    · apply BitVec.eq_of_toNat_eq; simp only [BitVec.toNat_ofNat]; omega
    · apply BitVec.eq_of_toNat_eq; simp only [BitVec.toNat_ofNat]; omega
    · apply BitVec.eq_of_toNat_eq; simp only [BitVec.toNat_ofNat]; omega
    · apply BitVec.eq_of_toNat_eq; simp only [BitVec.toNat_ofNat]; omega
    · apply BitVec.eq_of_toNat_eq; simp only [BitVec.toNat_ofNat]; omega
    · apply BitVec.eq_of_toNat_eq; simp only [BitVec.toNat_ofNat]; omega
  · rfl
theorem AqPush.law (k : Nat) (hk : k < 4) (ok : Bool → AqPush → Bool) : FormLaw AqPush.form ok k := by
  refine FormLaw.of_pl (fun _ => rfl) (fun ex r => ?_) (fun ex r => ?_)
  · obtain ⟨base, z, cls, tok, u, disp⟩ := r
    simp only [AqPush.form, fld, AqPush.mk.injEq]
    refine ⟨?_, ?_, ?_, ?_, ?_, ?_⟩
    · apply BitVec.eq_of_toNat_eq; simp only [BitVec.toNat_ofNat]; omega
    · apply BitVec.eq_of_toNat_eq; simp only [BitVec.toNat_ofNat]; omega
    · apply BitVec.eq_of_toNat_eq; simp only [BitVec.toNat_ofNat]; omega
    · apply BitVec.eq_of_toNat_eq; simp only [BitVec.toNat_ofNat]; omega
    · have : fld (AqPush.form.pl ⟨base, z, cls, tok, u, disp⟩) 15 2 = u ^^^ 2#2 := by
        simp only [AqPush.form, fld]; apply BitVec.eq_of_toNat_eq; simp only [BitVec.toNat_ofNat]; omega
      simp only [AqPush.form, fld] at this; rw [this, BitVec.xor_assoc, BitVec.xor_self, BitVec.xor_zero]
    · apply BitVec.eq_of_toNat_eq; simp only [BitVec.toNat_ofNat]; omega
  · simp only [AqPush.form, fld, Bool.and_eq_true, beq_iff_eq]
    refine ⟨⟨?_, ?_⟩, ?_⟩
    · apply BitVec.eq_of_toNat_eq; simp only [BitVec.toNat_ofNat]; omega
    · apply BitVec.eq_of_toNat_eq; simp only [BitVec.toNat_ofNat]; omega
    · apply BitVec.eq_of_toNat_eq; simp only [BitVec.toNat_ofNat]; omega
theorem AqPushIdx.law (k : Nat) (hk : k < 4) (ok : Bool → AqPushIdx → Bool) : FormLaw AqPushIdx.form ok k := by
  refine FormLaw.of_pl (fun _ => rfl) (fun ex r => ?_) (fun ex r => ?_)
  · obtain ⟨base, ix, z, cls, tok, u, disp⟩ := r
    simp only [AqPushIdx.form, fld, AqPushIdx.mk.injEq]
    refine ⟨?_, ?_, ?_, ?_, ?_, ?_, ?_⟩
    · apply BitVec.eq_of_toNat_eq; simp only [BitVec.toNat_ofNat]; omega
    · apply BitVec.eq_of_toNat_eq; simp only [BitVec.toNat_ofNat]; omega
    · apply BitVec.eq_of_toNat_eq; simp only [BitVec.toNat_ofNat]; omega
    · apply BitVec.eq_of_toNat_eq; simp only [BitVec.toNat_ofNat]; omega
    · apply BitVec.eq_of_toNat_eq; simp only [BitVec.toNat_ofNat]; omega
    · have : fld (AqPushIdx.form.pl ⟨base, ix, z, cls, tok, u, disp⟩) 15 2 = u ^^^ 2#2 := by
        simp only [AqPushIdx.form, fld]; apply BitVec.eq_of_toNat_eq; simp only [BitVec.toNat_ofNat]; omega
      simp only [AqPushIdx.form, fld] at this; rw [this, BitVec.xor_assoc, BitVec.xor_self, BitVec.xor_zero]
    · apply BitVec.eq_of_toNat_eq; simp only [BitVec.toNat_ofNat]; omega
  · simp only [AqPushIdx.form, fld, Bool.and_eq_true, beq_iff_eq]
    refine ⟨⟨?_, ?_⟩, ?_⟩
    · apply BitVec.eq_of_toNat_eq; simp only [BitVec.toNat_ofNat]; omega
    · apply BitVec.eq_of_toNat_eq; simp only [BitVec.toNat_ofNat]; omega
    · apply BitVec.eq_of_toNat_eq; simp only [BitVec.toNat_ofNat]; omega
theorem AqRun.law (k : Nat) (hk : k < 4) (ok : Bool → AqRun → Bool) : FormLaw AqRun.form ok k := by
  refine FormLaw.of_pl (fun _ => rfl) (fun ex r => ?_) (fun ex r => ?_)
  · obtain ⟨d, base, ix, z, cls, tok, u, disp⟩ := r
    simp only [AqRun.form, fld, AqRun.mk.injEq]
    refine ⟨?_, ?_, ?_, ?_, ?_, ?_, ?_, ?_⟩
    · apply BitVec.eq_of_toNat_eq; simp only [BitVec.toNat_ofNat]; omega
    · apply BitVec.eq_of_toNat_eq; simp only [BitVec.toNat_ofNat]; omega
    · apply BitVec.eq_of_toNat_eq; simp only [BitVec.toNat_ofNat]; omega
    · apply BitVec.eq_of_toNat_eq; simp only [BitVec.toNat_ofNat]; omega
    · apply BitVec.eq_of_toNat_eq; simp only [BitVec.toNat_ofNat]; omega
    · apply BitVec.eq_of_toNat_eq; simp only [BitVec.toNat_ofNat]; omega
    · have : fld (AqRun.form.pl ⟨d, base, ix, z, cls, tok, u, disp⟩) 15 2 = u ^^^ 2#2 := by
        simp only [AqRun.form, fld]; apply BitVec.eq_of_toNat_eq; simp only [BitVec.toNat_ofNat]; omega
      simp only [AqRun.form, fld] at this; rw [this, BitVec.xor_assoc, BitVec.xor_self, BitVec.xor_zero]
    · apply BitVec.eq_of_toNat_eq; simp only [BitVec.toNat_ofNat]; omega
  · simp only [AqRun.form, fld, Bool.and_eq_true, beq_iff_eq]
    refine ⟨⟨?_, ?_⟩, ?_⟩
    · apply BitVec.eq_of_toNat_eq; simp only [BitVec.toNat_ofNat]; omega
    · apply BitVec.eq_of_toNat_eq; simp only [BitVec.toNat_ofNat]; omega
    · apply BitVec.eq_of_toNat_eq; simp only [BitVec.toNat_ofNat]; omega
theorem VInt3.law (k : Nat) (hk : k < 32) (ok : Bool → VInt3 → Bool) : FormLaw VInt3.form ok k := by
  refine FormLaw.of_pl (fun _ => rfl) (fun ex r => ?_) (fun ex r => ?_)
  · obtain ⟨d, a, b, w⟩ := r
    simp only [VInt3.form, fld, VInt3.mk.injEq]
    refine ⟨?_, ?_, ?_, ?_⟩
    · apply BitVec.eq_of_toNat_eq; simp only [BitVec.toNat_ofNat]; omega
    · apply BitVec.eq_of_toNat_eq; simp only [BitVec.toNat_ofNat]; omega
    · apply BitVec.eq_of_toNat_eq; simp only [BitVec.toNat_ofNat]; omega
    · have : fld (VInt3.form.pl ⟨d, a, b, w⟩) 0 2 = w ^^^ 2#2 := by
        simp only [VInt3.form, fld]; apply BitVec.eq_of_toNat_eq; simp only [BitVec.toNat_ofNat]; omega
      simp only [VInt3.form, fld] at this; rw [this, BitVec.xor_assoc, BitVec.xor_self, BitVec.xor_zero]
  · simp only [VInt3.form, fld, beq_iff_eq]; exact (by apply BitVec.eq_of_toNat_eq; simp only [BitVec.toNat_ofNat]; omega)
theorem VInt2.law (k : Nat) (hk : k < 32) (ok : Bool → VInt2 → Bool) : FormLaw VInt2.form ok k := by
  refine FormLaw.of_pl (fun _ => rfl) (fun ex r => ?_) (fun ex r => ?_)
  · obtain ⟨d, a, w⟩ := r
    simp only [VInt2.form, fld, VInt2.mk.injEq]
    refine ⟨?_, ?_, ?_⟩
    · apply BitVec.eq_of_toNat_eq; simp only [BitVec.toNat_ofNat]; omega
    · apply BitVec.eq_of_toNat_eq; simp only [BitVec.toNat_ofNat]; omega
    · have : fld (VInt2.form.pl ⟨d, a, w⟩) 0 2 = w ^^^ 2#2 := by
        simp only [VInt2.form, fld]; apply BitVec.eq_of_toNat_eq; simp only [BitVec.toNat_ofNat]; omega
      simp only [VInt2.form, fld] at this; rw [this, BitVec.xor_assoc, BitVec.xor_self, BitVec.xor_zero]
  · simp only [VInt2.form, fld, Bool.and_eq_true, beq_iff_eq]
    refine ⟨?_, ?_⟩
    · apply BitVec.eq_of_toNat_eq; simp only [BitVec.toNat_ofNat]; omega
    · apply BitVec.eq_of_toNat_eq; simp only [BitVec.toNat_ofNat]; omega
theorem VIntK.law (k : Nat) (hk : k < 32) (ok : Bool → VIntK → Bool) : FormLaw VIntK.form ok k := by
  refine FormLaw.of_pl (fun _ => rfl) (fun ex r => ?_) (fun ex r => ?_)
  · obtain ⟨d, a, k, w⟩ := r
    simp only [VIntK.form, fld, VIntK.mk.injEq]
    refine ⟨?_, ?_, ?_, ?_⟩
    · apply BitVec.eq_of_toNat_eq; simp only [BitVec.toNat_ofNat]; omega
    · apply BitVec.eq_of_toNat_eq; simp only [BitVec.toNat_ofNat]; omega
    · apply BitVec.eq_of_toNat_eq; simp only [BitVec.toNat_ofNat]; omega
    · have : fld (VIntK.form.pl ⟨d, a, k, w⟩) 0 2 = w ^^^ 2#2 := by
        simp only [VIntK.form, fld]; apply BitVec.eq_of_toNat_eq; simp only [BitVec.toNat_ofNat]; omega
      simp only [VIntK.form, fld] at this; rw [this, BitVec.xor_assoc, BitVec.xor_self, BitVec.xor_zero]
  · simp only [VIntK.form, fld, Bool.and_eq_true, beq_iff_eq]
    refine ⟨?_, ?_⟩
    · apply BitVec.eq_of_toNat_eq; simp only [BitVec.toNat_ofNat]; omega
    · apply BitVec.eq_of_toNat_eq; simp only [BitVec.toNat_ofNat]; omega
theorem VCmp.law (ok : Bool → VCmp → Bool) : FormLaw VCmp.form ok 0 := by
  refine FormLaw.of_pl (fun _ => rfl) (fun ex r => ?_) (fun ex r => ?_)
  · obtain ⟨pd, cc, a, b, w⟩ := r
    simp only [VCmp.form, fld, VCmp.mk.injEq]
    refine ⟨?_, ?_, ?_, ?_, ?_⟩
    · apply BitVec.eq_of_toNat_eq; simp only [BitVec.toNat_ofNat]; omega
    · apply BitVec.eq_of_toNat_eq; simp only [BitVec.toNat_ofNat]; omega
    · apply BitVec.eq_of_toNat_eq; simp only [BitVec.toNat_ofNat]; omega
    · apply BitVec.eq_of_toNat_eq; simp only [BitVec.toNat_ofNat]; omega
    · have : fld (VCmp.form.pl ⟨pd, cc, a, b, w⟩) 0 2 = w ^^^ 2#2 := by
        simp only [VCmp.form, fld]; apply BitVec.eq_of_toNat_eq; simp only [BitVec.toNat_ofNat]; omega
      simp only [VCmp.form, fld] at this; rw [this, BitVec.xor_assoc, BitVec.xor_self, BitVec.xor_zero]
  · simp only [VCmp.form, fld, Bool.and_eq_true, beq_iff_eq]
    refine ⟨?_, ?_⟩
    · apply BitVec.eq_of_toNat_eq; simp only [BitVec.toNat_ofNat]; omega
    · apply BitVec.eq_of_toNat_eq; simp only [BitVec.toNat_ofNat]; omega
theorem VFCmp.law (ok : Bool → VFCmp → Bool) : FormLaw VFCmp.form ok 0 := by
  refine FormLaw.of_pl (fun _ => rfl) (fun ex r => ?_) (fun ex r => ?_)
  · obtain ⟨pd, cc, a, b, fmt⟩ := r
    simp only [VFCmp.form, fld, VFCmp.mk.injEq]
    refine ⟨?_, ?_, ?_, ?_, ?_⟩
    · apply BitVec.eq_of_toNat_eq; simp only [BitVec.toNat_ofNat]; omega
    · apply BitVec.eq_of_toNat_eq; simp only [BitVec.toNat_ofNat]; omega
    · apply BitVec.eq_of_toNat_eq; simp only [BitVec.toNat_ofNat]; omega
    · apply BitVec.eq_of_toNat_eq; simp only [BitVec.toNat_ofNat]; omega
    · have : fld (VFCmp.form.pl ⟨pd, cc, a, b, fmt⟩) 0 4 = fmt ^^^ 9#4 := by
        simp only [VFCmp.form, fld]; apply BitVec.eq_of_toNat_eq; simp only [BitVec.toNat_ofNat]; omega
      simp only [VFCmp.form, fld] at this; rw [this, BitVec.xor_assoc, BitVec.xor_self, BitVec.xor_zero]
  · simp only [VFCmp.form, fld, Bool.and_eq_true, beq_iff_eq]
    refine ⟨?_, ?_⟩
    · apply BitVec.eq_of_toNat_eq; simp only [BitVec.toNat_ofNat]; omega
    · apply BitVec.eq_of_toNat_eq; simp only [BitVec.toNat_ofNat]; omega
theorem VSel.law (ok : Bool → VSel → Bool) : FormLaw VSel.form ok 0 := by
  refine FormLaw.of_pl (fun _ => rfl) (fun ex r => ?_) (fun ex r => ?_)
  · obtain ⟨d, a, b, c, w⟩ := r
    simp only [VSel.form, fld, VSel.mk.injEq]
    refine ⟨?_, ?_, ?_, ?_, ?_⟩
    · apply BitVec.eq_of_toNat_eq; simp only [BitVec.toNat_ofNat]; omega
    · apply BitVec.eq_of_toNat_eq; simp only [BitVec.toNat_ofNat]; omega
    · apply BitVec.eq_of_toNat_eq; simp only [BitVec.toNat_ofNat]; omega
    · apply BitVec.eq_of_toNat_eq; simp only [BitVec.toNat_ofNat]; omega
    · have : fld (VSel.form.pl ⟨d, a, b, c, w⟩) 0 2 = w ^^^ 2#2 := by
        simp only [VSel.form, fld]; apply BitVec.eq_of_toNat_eq; simp only [BitVec.toNat_ofNat]; omega
      simp only [VSel.form, fld] at this; rw [this, BitVec.xor_assoc, BitVec.xor_self, BitVec.xor_zero]
  · simp only [VSel.form, fld, Bool.and_eq_true, beq_iff_eq]
    refine ⟨?_, ?_⟩
    · apply BitVec.eq_of_toNat_eq; simp only [BitVec.toNat_ofNat]; omega
    · apply BitVec.eq_of_toNat_eq; simp only [BitVec.toNat_ofNat]; omega
theorem VFp3.law (k : Nat) (hk : k < 32) (ok : Bool → VFp3 → Bool) : FormLaw VFp3.form ok k := by
  refine FormLaw.of_pl (fun _ => rfl) (fun ex r => ?_) (fun ex r => ?_)
  · obtain ⟨d, a, b, str, sat, rm, fmt⟩ := r
    simp only [VFp3.form, fld, VFp3.mk.injEq]
    refine ⟨?_, ?_, ?_, ?_, ?_, ?_, ?_⟩
    · apply BitVec.eq_of_toNat_eq; simp only [BitVec.toNat_ofNat]; omega
    · apply BitVec.eq_of_toNat_eq; simp only [BitVec.toNat_ofNat]; omega
    · apply BitVec.eq_of_toNat_eq; simp only [BitVec.toNat_ofNat]; omega
    · apply BitVec.eq_of_toNat_eq; simp only [BitVec.toNat_ofNat]; omega
    · apply BitVec.eq_of_toNat_eq; simp only [BitVec.toNat_ofNat]; omega
    · apply BitVec.eq_of_toNat_eq; simp only [BitVec.toNat_ofNat]; omega
    · have : fld (VFp3.form.pl ⟨d, a, b, str, sat, rm, fmt⟩) 0 4 = fmt ^^^ 9#4 := by
        simp only [VFp3.form, fld]; apply BitVec.eq_of_toNat_eq; simp only [BitVec.toNat_ofNat]; omega
      simp only [VFp3.form, fld] at this; rw [this, BitVec.xor_assoc, BitVec.xor_self, BitVec.xor_zero]
  · simp only [VFp3.form, fld, Bool.and_eq_true, beq_iff_eq]
    refine ⟨?_, ?_⟩
    · apply BitVec.eq_of_toNat_eq; simp only [BitVec.toNat_ofNat]; omega
    · apply BitVec.eq_of_toNat_eq; simp only [BitVec.toNat_ofNat]; omega
theorem VFp2.law (k : Nat) (hk : k < 32) (ok : Bool → VFp2 → Bool) : FormLaw VFp2.form ok k := by
  refine FormLaw.of_pl (fun _ => rfl) (fun ex r => ?_) (fun ex r => ?_)
  · obtain ⟨d, a, str, sat, rm, fmt⟩ := r
    simp only [VFp2.form, fld, VFp2.mk.injEq]
    refine ⟨?_, ?_, ?_, ?_, ?_, ?_⟩
    · apply BitVec.eq_of_toNat_eq; simp only [BitVec.toNat_ofNat]; omega
    · apply BitVec.eq_of_toNat_eq; simp only [BitVec.toNat_ofNat]; omega
    · apply BitVec.eq_of_toNat_eq; simp only [BitVec.toNat_ofNat]; omega
    · apply BitVec.eq_of_toNat_eq; simp only [BitVec.toNat_ofNat]; omega
    · apply BitVec.eq_of_toNat_eq; simp only [BitVec.toNat_ofNat]; omega
    · have : fld (VFp2.form.pl ⟨d, a, str, sat, rm, fmt⟩) 0 4 = fmt ^^^ 9#4 := by
        simp only [VFp2.form, fld]; apply BitVec.eq_of_toNat_eq; simp only [BitVec.toNat_ofNat]; omega
      simp only [VFp2.form, fld] at this; rw [this, BitVec.xor_assoc, BitVec.xor_self, BitVec.xor_zero]
  · simp only [VFp2.form, fld, Bool.and_eq_true, beq_iff_eq]
    refine ⟨⟨?_, ?_⟩, ?_⟩
    · apply BitVec.eq_of_toNat_eq; simp only [BitVec.toNat_ofNat]; omega
    · apply BitVec.eq_of_toNat_eq; simp only [BitVec.toNat_ofNat]; omega
    · apply BitVec.eq_of_toNat_eq; simp only [BitVec.toNat_ofNat]; omega
theorem VFmt3.law (k : Nat) (hk : k < 32) (ok : Bool → VFmt3 → Bool) : FormLaw VFmt3.form ok k := by
  refine FormLaw.of_pl (fun _ => rfl) (fun ex r => ?_) (fun ex r => ?_)
  · obtain ⟨d, a, b, fmt⟩ := r
    simp only [VFmt3.form, fld, VFmt3.mk.injEq]
    refine ⟨?_, ?_, ?_, ?_⟩
    · apply BitVec.eq_of_toNat_eq; simp only [BitVec.toNat_ofNat]; omega
    · apply BitVec.eq_of_toNat_eq; simp only [BitVec.toNat_ofNat]; omega
    · apply BitVec.eq_of_toNat_eq; simp only [BitVec.toNat_ofNat]; omega
    · have : fld (VFmt3.form.pl ⟨d, a, b, fmt⟩) 0 4 = fmt ^^^ 9#4 := by
        simp only [VFmt3.form, fld]; apply BitVec.eq_of_toNat_eq; simp only [BitVec.toNat_ofNat]; omega
      simp only [VFmt3.form, fld] at this; rw [this, BitVec.xor_assoc, BitVec.xor_self, BitVec.xor_zero]
  · simp only [VFmt3.form, fld, beq_iff_eq]; exact (by apply BitVec.eq_of_toNat_eq; simp only [BitVec.toNat_ofNat]; omega)
theorem VFmt2.law (k : Nat) (hk : k < 32) (ok : Bool → VFmt2 → Bool) : FormLaw VFmt2.form ok k := by
  refine FormLaw.of_pl (fun _ => rfl) (fun ex r => ?_) (fun ex r => ?_)
  · obtain ⟨d, a, fmt⟩ := r
    simp only [VFmt2.form, fld, VFmt2.mk.injEq]
    refine ⟨?_, ?_, ?_⟩
    · apply BitVec.eq_of_toNat_eq; simp only [BitVec.toNat_ofNat]; omega
    · apply BitVec.eq_of_toNat_eq; simp only [BitVec.toNat_ofNat]; omega
    · have : fld (VFmt2.form.pl ⟨d, a, fmt⟩) 0 4 = fmt ^^^ 9#4 := by
        simp only [VFmt2.form, fld]; apply BitVec.eq_of_toNat_eq; simp only [BitVec.toNat_ofNat]; omega
      simp only [VFmt2.form, fld] at this; rw [this, BitVec.xor_assoc, BitVec.xor_self, BitVec.xor_zero]
  · simp only [VFmt2.form, fld, Bool.and_eq_true, beq_iff_eq]
    refine ⟨?_, ?_⟩
    · apply BitVec.eq_of_toNat_eq; simp only [BitVec.toNat_ofNat]; omega
    · apply BitVec.eq_of_toNat_eq; simp only [BitVec.toNat_ofNat]; omega
theorem VCvt.law (ok : Bool → VCvt → Bool) : FormLaw VCvt.form ok 0 := by
  refine FormLaw.of_pl (fun _ => rfl) (fun ex r => ?_) (fun ex r => ?_)
  · obtain ⟨d, a, part, str, sat, rm, fmt2, fmt⟩ := r
    simp only [VCvt.form, fld, VCvt.mk.injEq]
    refine ⟨?_, ?_, ?_, ?_, ?_, ?_, ?_, ?_⟩
    · apply BitVec.eq_of_toNat_eq; simp only [BitVec.toNat_ofNat]; omega
    · apply BitVec.eq_of_toNat_eq; simp only [BitVec.toNat_ofNat]; omega
    · apply BitVec.eq_of_toNat_eq; simp only [BitVec.toNat_ofNat]; omega
    · apply BitVec.eq_of_toNat_eq; simp only [BitVec.toNat_ofNat]; omega
    · apply BitVec.eq_of_toNat_eq; simp only [BitVec.toNat_ofNat]; omega
    · apply BitVec.eq_of_toNat_eq; simp only [BitVec.toNat_ofNat]; omega
    · have : fld (VCvt.form.pl ⟨d, a, part, str, sat, rm, fmt2, fmt⟩) 4 4 = fmt2 ^^^ 9#4 := by
        simp only [VCvt.form, fld]; apply BitVec.eq_of_toNat_eq; simp only [BitVec.toNat_ofNat]; omega
      simp only [VCvt.form, fld] at this; rw [this, BitVec.xor_assoc, BitVec.xor_self, BitVec.xor_zero]
    · have : fld (VCvt.form.pl ⟨d, a, part, str, sat, rm, fmt2, fmt⟩) 0 4 = fmt ^^^ 9#4 := by
        simp only [VCvt.form, fld]; apply BitVec.eq_of_toNat_eq; simp only [BitVec.toNat_ofNat]; omega
      simp only [VCvt.form, fld] at this; rw [this, BitVec.xor_assoc, BitVec.xor_self, BitVec.xor_zero]
  · simp only [VCvt.form, fld, Bool.and_eq_true, beq_iff_eq]
    refine ⟨?_, ?_⟩
    · apply BitVec.eq_of_toNat_eq; simp only [BitVec.toNat_ofNat]; omega
    · apply BitVec.eq_of_toNat_eq; simp only [BitVec.toNat_ofNat]; omega
theorem VQnt.law (k : Nat) (hk : k < 4) (ok : Bool → VQnt → Bool) : FormLaw VQnt.form ok k := by
  refine FormLaw.of_pl (fun _ => rfl) (fun ex r => ?_) (fun ex r => ?_)
  · obtain ⟨d, a, b, part, str, sat, rm, fmt⟩ := r
    simp only [VQnt.form, fld, VQnt.mk.injEq]
    refine ⟨?_, ?_, ?_, ?_, ?_, ?_, ?_, ?_⟩
    · apply BitVec.eq_of_toNat_eq; simp only [BitVec.toNat_ofNat]; omega
    · apply BitVec.eq_of_toNat_eq; simp only [BitVec.toNat_ofNat]; omega
    · apply BitVec.eq_of_toNat_eq; simp only [BitVec.toNat_ofNat]; omega
    · apply BitVec.eq_of_toNat_eq; simp only [BitVec.toNat_ofNat]; omega
    · apply BitVec.eq_of_toNat_eq; simp only [BitVec.toNat_ofNat]; omega
    · apply BitVec.eq_of_toNat_eq; simp only [BitVec.toNat_ofNat]; omega
    · apply BitVec.eq_of_toNat_eq; simp only [BitVec.toNat_ofNat]; omega
    · have : fld (VQnt.form.pl ⟨d, a, b, part, str, sat, rm, fmt⟩) 0 4 = fmt ^^^ 9#4 := by
        simp only [VQnt.form, fld]; apply BitVec.eq_of_toNat_eq; simp only [BitVec.toNat_ofNat]; omega
      simp only [VQnt.form, fld] at this; rw [this, BitVec.xor_assoc, BitVec.xor_self, BitVec.xor_zero]
  · simp only [VQnt.form, fld, Bool.and_eq_true, beq_iff_eq]
    refine ⟨?_, ?_⟩
    · apply BitVec.eq_of_toNat_eq; simp only [BitVec.toNat_ofNat]; omega
    · apply BitVec.eq_of_toNat_eq; simp only [BitVec.toNat_ofNat]; omega
theorem VDqnt.law (k : Nat) (hk : k < 4) (ok : Bool → VDqnt → Bool) : FormLaw VDqnt.form ok k := by
  refine FormLaw.of_pl (fun _ => rfl) (fun ex r => ?_) (fun ex r => ?_)
  · obtain ⟨d, a, b, part, str, sat, rm, fmt2, fmt⟩ := r
    simp only [VDqnt.form, fld, VDqnt.mk.injEq]
    refine ⟨?_, ?_, ?_, ?_, ?_, ?_, ?_, ?_, ?_⟩
    · apply BitVec.eq_of_toNat_eq; simp only [BitVec.toNat_ofNat]; omega
    · apply BitVec.eq_of_toNat_eq; simp only [BitVec.toNat_ofNat]; omega
    · apply BitVec.eq_of_toNat_eq; simp only [BitVec.toNat_ofNat]; omega
    · apply BitVec.eq_of_toNat_eq; simp only [BitVec.toNat_ofNat]; omega
    · apply BitVec.eq_of_toNat_eq; simp only [BitVec.toNat_ofNat]; omega
    · apply BitVec.eq_of_toNat_eq; simp only [BitVec.toNat_ofNat]; omega
    · apply BitVec.eq_of_toNat_eq; simp only [BitVec.toNat_ofNat]; omega
    · have : fld (VDqnt.form.pl ⟨d, a, b, part, str, sat, rm, fmt2, fmt⟩) 4 4 = fmt2 ^^^ 9#4 := by
        simp only [VDqnt.form, fld]; apply BitVec.eq_of_toNat_eq; simp only [BitVec.toNat_ofNat]; omega
      simp only [VDqnt.form, fld] at this; rw [this, BitVec.xor_assoc, BitVec.xor_self, BitVec.xor_zero]
    · have : fld (VDqnt.form.pl ⟨d, a, b, part, str, sat, rm, fmt2, fmt⟩) 0 4 = fmt ^^^ 9#4 := by
        simp only [VDqnt.form, fld]; apply BitVec.eq_of_toNat_eq; simp only [BitVec.toNat_ofNat]; omega
      simp only [VDqnt.form, fld] at this; rw [this, BitVec.xor_assoc, BitVec.xor_self, BitVec.xor_zero]
  · simp only [VDqnt.form, fld, beq_iff_eq]; exact (by apply BitVec.eq_of_toNat_eq; simp only [BitVec.toNat_ofNat]; omega)
theorem VRed.law (k : Nat) (hk : k < 32) (ok : Bool → VRed → Bool) : FormLaw VRed.form ok k := by
  refine FormLaw.of_pl (fun _ => rfl) (fun ex r => ?_) (fun ex r => ?_)
  · obtain ⟨d, a, str, rm, fmt⟩ := r
    simp only [VRed.form, fld, VRed.mk.injEq]
    refine ⟨?_, ?_, ?_, ?_, ?_⟩
    · apply BitVec.eq_of_toNat_eq; simp only [BitVec.toNat_ofNat]; omega
    · apply BitVec.eq_of_toNat_eq; simp only [BitVec.toNat_ofNat]; omega
    · apply BitVec.eq_of_toNat_eq; simp only [BitVec.toNat_ofNat]; omega
    · apply BitVec.eq_of_toNat_eq; simp only [BitVec.toNat_ofNat]; omega
    · have : fld (VRed.form.pl ⟨d, a, str, rm, fmt⟩) 0 4 = fmt ^^^ 9#4 := by
        simp only [VRed.form, fld]; apply BitVec.eq_of_toNat_eq; simp only [BitVec.toNat_ofNat]; omega
      simp only [VRed.form, fld] at this; rw [this, BitVec.xor_assoc, BitVec.xor_self, BitVec.xor_zero]
  · simp only [VRed.form, fld, Bool.and_eq_true, beq_iff_eq]
    refine ⟨⟨⟨?_, ?_⟩, ?_⟩, ?_⟩
    · apply BitVec.eq_of_toNat_eq; simp only [BitVec.toNat_ofNat]; omega
    · apply BitVec.eq_of_toNat_eq; simp only [BitVec.toNat_ofNat]; omega
    · apply BitVec.eq_of_toNat_eq; simp only [BitVec.toNat_ofNat]; omega
    · apply BitVec.eq_of_toNat_eq; simp only [BitVec.toNat_ofNat]; omega
theorem VExt.law (k : Nat) (hk : k < 32) (ok : Bool → VExt → Bool) : FormLaw VExt.form ok k := by
  refine FormLaw.of_pl (fun _ => rfl) (fun ex r => ?_) (fun ex r => ?_)
  · obtain ⟨d, a, b, k, w⟩ := r
    simp only [VExt.form, fld, VExt.mk.injEq]
    refine ⟨?_, ?_, ?_, ?_, ?_⟩
    · apply BitVec.eq_of_toNat_eq; simp only [BitVec.toNat_ofNat]; omega
    · apply BitVec.eq_of_toNat_eq; simp only [BitVec.toNat_ofNat]; omega
    · apply BitVec.eq_of_toNat_eq; simp only [BitVec.toNat_ofNat]; omega
    · apply BitVec.eq_of_toNat_eq; simp only [BitVec.toNat_ofNat]; omega
    · have : fld (VExt.form.pl ⟨d, a, b, k, w⟩) 0 2 = w ^^^ 2#2 := by
        simp only [VExt.form, fld]; apply BitVec.eq_of_toNat_eq; simp only [BitVec.toNat_ofNat]; omega
      simp only [VExt.form, fld] at this; rw [this, BitVec.xor_assoc, BitVec.xor_self, BitVec.xor_zero]
  · simp only [VExt.form, fld, beq_iff_eq]; exact (by apply BitVec.eq_of_toNat_eq; simp only [BitVec.toNat_ofNat]; omega)
theorem TileRow.law (k : Nat) (hk : k < 2) (ok : Bool → TileRow → Bool) : FormLaw TileRow.form ok k := by
  refine FormLaw.of_pl (fun _ => rfl) (fun ex r => ?_) (fun ex r => ?_)
  · obtain ⟨d, t, part, k, w⟩ := r
    simp only [TileRow.form, fld, TileRow.mk.injEq]
    refine ⟨?_, ?_, ?_, ?_, ?_⟩
    · apply BitVec.eq_of_toNat_eq; simp only [BitVec.toNat_ofNat]; omega
    · apply BitVec.eq_of_toNat_eq; simp only [BitVec.toNat_ofNat]; omega
    · apply BitVec.eq_of_toNat_eq; simp only [BitVec.toNat_ofNat]; omega
    · apply BitVec.eq_of_toNat_eq; simp only [BitVec.toNat_ofNat]; omega
    · have : fld (TileRow.form.pl ⟨d, t, part, k, w⟩) 0 2 = w ^^^ 2#2 := by
        simp only [TileRow.form, fld]; apply BitVec.eq_of_toNat_eq; simp only [BitVec.toNat_ofNat]; omega
      simp only [TileRow.form, fld] at this; rw [this, BitVec.xor_assoc, BitVec.xor_self, BitVec.xor_zero]
  · simp only [TileRow.form, fld, Bool.and_eq_true, beq_iff_eq]
    refine ⟨⟨⟨?_, ?_⟩, ?_⟩, ?_⟩
    · apply BitVec.eq_of_toNat_eq; simp only [BitVec.toNat_ofNat]; omega
    · apply BitVec.eq_of_toNat_eq; simp only [BitVec.toNat_ofNat]; omega
    · apply BitVec.eq_of_toNat_eq; simp only [BitVec.toNat_ofNat]; omega
    · apply BitVec.eq_of_toNat_eq; simp only [BitVec.toNat_ofNat]; omega
theorem TileRowReg.law (k : Nat) (hk : k < 2) (ok : Bool → TileRowReg → Bool) : FormLaw TileRowReg.form ok k := by
  refine FormLaw.of_pl (fun _ => rfl) (fun ex r => ?_) (fun ex r => ?_)
  · obtain ⟨d, t, b, part, w⟩ := r
    simp only [TileRowReg.form, fld, TileRowReg.mk.injEq]
    refine ⟨?_, ?_, ?_, ?_, ?_⟩
    · apply BitVec.eq_of_toNat_eq; simp only [BitVec.toNat_ofNat]; omega
    · apply BitVec.eq_of_toNat_eq; simp only [BitVec.toNat_ofNat]; omega
    · apply BitVec.eq_of_toNat_eq; simp only [BitVec.toNat_ofNat]; omega
    · apply BitVec.eq_of_toNat_eq; simp only [BitVec.toNat_ofNat]; omega
    · have : fld (TileRowReg.form.pl ⟨d, t, b, part, w⟩) 0 2 = w ^^^ 2#2 := by
        simp only [TileRowReg.form, fld]; apply BitVec.eq_of_toNat_eq; simp only [BitVec.toNat_ofNat]; omega
      simp only [TileRowReg.form, fld] at this; rw [this, BitVec.xor_assoc, BitVec.xor_self, BitVec.xor_zero]
  · simp only [TileRowReg.form, fld, Bool.and_eq_true, beq_iff_eq]
    refine ⟨⟨?_, ?_⟩, ?_⟩
    · apply BitVec.eq_of_toNat_eq; simp only [BitVec.toNat_ofNat]; omega
    · apply BitVec.eq_of_toNat_eq; simp only [BitVec.toNat_ofNat]; omega
    · apply BitVec.eq_of_toNat_eq; simp only [BitVec.toNat_ofNat]; omega
theorem VSp.law (ok : Bool → VSp → Bool) : FormLaw VSp.form ok 0 := by
  refine FormLaw.of_pl (fun _ => rfl) (fun ex r => ?_) (fun ex r => ?_)
  · obtain ⟨d, base, ix, idx, g, sz, cls, disp⟩ := r
    simp only [VSp.form, fld, VSp.mk.injEq]
    refine ⟨?_, ?_, ?_, ?_, ?_, ?_, ?_, ?_⟩
    · apply BitVec.eq_of_toNat_eq; simp only [BitVec.toNat_ofNat]; omega
    · apply BitVec.eq_of_toNat_eq; simp only [BitVec.toNat_ofNat]; omega
    · apply BitVec.eq_of_toNat_eq; simp only [BitVec.toNat_ofNat]; omega
    · apply BitVec.eq_of_toNat_eq; simp only [BitVec.toNat_ofNat]; omega
    · apply BitVec.eq_of_toNat_eq; simp only [BitVec.toNat_ofNat]; omega
    · apply BitVec.eq_of_toNat_eq; simp only [BitVec.toNat_ofNat]; omega
    · apply BitVec.eq_of_toNat_eq; simp only [BitVec.toNat_ofNat]; omega
    · apply BitVec.eq_of_toNat_eq; simp only [BitVec.toNat_ofNat]; omega
  · simp only [VSp.form, fld, beq_iff_eq]; exact (by apply BitVec.eq_of_toNat_eq; simp only [BitVec.toNat_ofNat]; omega)
theorem VLoad.law (ok : Bool → VLoad → Bool) : FormLaw VLoad.form ok 0 := by
  refine FormLaw.of_pl (fun _ => rfl) (fun ex r => ?_) (fun ex r => ?_)
  · obtain ⟨d, base, ix, idx, g, sz, cls, tok, u, disp⟩ := r
    simp only [VLoad.form, fld, VLoad.mk.injEq]
    refine ⟨?_, ?_, ?_, ?_, ?_, ?_, ?_, ?_, ?_, ?_⟩
    · apply BitVec.eq_of_toNat_eq; simp only [BitVec.toNat_ofNat]; omega
    · apply BitVec.eq_of_toNat_eq; simp only [BitVec.toNat_ofNat]; omega
    · apply BitVec.eq_of_toNat_eq; simp only [BitVec.toNat_ofNat]; omega
    · apply BitVec.eq_of_toNat_eq; simp only [BitVec.toNat_ofNat]; omega
    · apply BitVec.eq_of_toNat_eq; simp only [BitVec.toNat_ofNat]; omega
    · apply BitVec.eq_of_toNat_eq; simp only [BitVec.toNat_ofNat]; omega
    · apply BitVec.eq_of_toNat_eq; simp only [BitVec.toNat_ofNat]; omega
    · apply BitVec.eq_of_toNat_eq; simp only [BitVec.toNat_ofNat]; omega
    · have : fld (VLoad.form.pl ⟨d, base, ix, idx, g, sz, cls, tok, u, disp⟩) 15 2 = u ^^^ 2#2 := by
        simp only [VLoad.form, fld]; apply BitVec.eq_of_toNat_eq; simp only [BitVec.toNat_ofNat]; omega
      simp only [VLoad.form, fld] at this; rw [this, BitVec.xor_assoc, BitVec.xor_self, BitVec.xor_zero]
    · apply BitVec.eq_of_toNat_eq; simp only [BitVec.toNat_ofNat]; omega
  · rfl
theorem VAtomic.law (k : Nat) (hk : k < 16) (ok : Bool → VAtomic → Bool) : FormLaw VAtomic.form ok k := by
  refine FormLaw.of_pl (fun _ => rfl) (fun ex r => ?_) (fun ex r => ?_)
  · obtain ⟨d, base, w, cls, disp⟩ := r
    simp only [VAtomic.form, fld, VAtomic.mk.injEq]
    refine ⟨?_, ?_, ?_, ?_, ?_⟩
    · apply BitVec.eq_of_toNat_eq; simp only [BitVec.toNat_ofNat]; omega
    · apply BitVec.eq_of_toNat_eq; simp only [BitVec.toNat_ofNat]; omega
    · apply BitVec.eq_of_toNat_eq; simp only [BitVec.toNat_ofNat]; omega
    · apply BitVec.eq_of_toNat_eq; simp only [BitVec.toNat_ofNat]; omega
    · apply BitVec.eq_of_toNat_eq; simp only [BitVec.toNat_ofNat]; omega
  · simp only [VAtomic.form, fld, Bool.and_eq_true, beq_iff_eq]
    refine ⟨⟨?_, ?_⟩, ?_⟩
    · apply BitVec.eq_of_toNat_eq; simp only [BitVec.toNat_ofNat]; omega
    · apply BitVec.eq_of_toNat_eq; simp only [BitVec.toNat_ofNat]; omega
    · apply BitVec.eq_of_toNat_eq; simp only [BitVec.toNat_ofNat]; omega
theorem VUpdArgs.law (ok : Bool → VUpdArgs → Bool) : FormLaw VUpdArgs.form ok 0 := by
  refine FormLaw.of_pl (fun _ => rfl) (fun ex r => ?_) (fun ex r => ?_)
  · obtain ⟨d, base, cls, rgn⟩ := r
    simp only [VUpdArgs.form, fld, VUpdArgs.mk.injEq]
    refine ⟨?_, ?_, ?_, ?_⟩
    · apply BitVec.eq_of_toNat_eq; simp only [BitVec.toNat_ofNat]; omega
    · apply BitVec.eq_of_toNat_eq; simp only [BitVec.toNat_ofNat]; omega
    · apply BitVec.eq_of_toNat_eq; simp only [BitVec.toNat_ofNat]; omega
    · apply BitVec.eq_of_toNat_eq; simp only [BitVec.toNat_ofNat]; omega
  · simp only [VUpdArgs.form, fld, Bool.and_eq_true, beq_iff_eq]
    refine ⟨⟨?_, ?_⟩, ?_⟩
    · apply BitVec.eq_of_toNat_eq; simp only [BitVec.toNat_ofNat]; omega
    · apply BitVec.eq_of_toNat_eq; simp only [BitVec.toNat_ofNat]; omega
    · apply BitVec.eq_of_toNat_eq; simp only [BitVec.toNat_ofNat]; omega
theorem DqPop.law (ok : Bool → DqPop → Bool) : FormLaw DqPop.form ok 0 := by
  refine FormLaw.of_pl (fun _ => rfl) (fun ex r => ?_) (fun ex r => ?_)
  · obtain ⟨d, z, c, p⟩ := r
    simp only [DqPop.form, fld, DqPop.mk.injEq]
    refine ⟨?_, ?_, ?_, ?_⟩
    · apply BitVec.eq_of_toNat_eq; simp only [BitVec.toNat_ofNat]; omega
    · apply BitVec.eq_of_toNat_eq; simp only [BitVec.toNat_ofNat]; omega
    · apply BitVec.eq_of_toNat_eq; simp only [BitVec.toNat_ofNat]; omega
    · apply BitVec.eq_of_toNat_eq; simp only [BitVec.toNat_ofNat]; omega
  · simp only [DqPop.form, fld, Bool.and_eq_true, beq_iff_eq, and_true]; exact (by apply BitVec.eq_of_toNat_eq; simp only [BitVec.toNat_ofNat]; omega)
theorem MldbArgs.law (ok : Bool → MldbArgs → Bool) : FormLaw MldbArgs.form ok 0 := by
  refine FormLaw.of_pl (fun _ => rfl) (fun ex r => ?_) (fun ex r => ?_)
  · obtain ⟨a, q, ww, s⟩ := r
    simp only [MldbArgs.form, fld, MldbArgs.mk.injEq]
    refine ⟨?_, ?_, ?_, ?_⟩
    · apply BitVec.eq_of_toNat_eq; simp only [BitVec.toNat_ofNat]; omega
    · apply BitVec.eq_of_toNat_eq; simp only [BitVec.toNat_ofNat]; omega
    · apply BitVec.eq_of_toNat_eq; simp only [BitVec.toNat_ofNat]; omega
    · apply BitVec.eq_of_toNat_eq; simp only [BitVec.toNat_ofNat]; omega
  · simp only [MldbArgs.form, fld, Bool.and_eq_true, beq_iff_eq, and_true]
    refine ⟨⟨?_, ?_⟩, ?_⟩
    · apply BitVec.eq_of_toNat_eq; simp only [BitVec.toNat_ofNat]; omega
    · apply BitVec.eq_of_toNat_eq; simp only [BitVec.toNat_ofNat]; omega
    · apply BitVec.eq_of_toNat_eq; simp only [BitVec.toNat_ofNat]; omega
theorem MmaArgs.law (ok : Bool → MmaArgs → Bool) : FormLaw MmaArgs.form ok 0 := by
  refine FormLaw.of_pl (fun _ => rfl) (fun ex r => ?_) (fun ex r => ?_)
  · obtain ⟨d, a, af, ww, ow⟩ := r
    simp only [MmaArgs.form, fld, MmaArgs.mk.injEq]
    refine ⟨?_, ?_, ?_, ?_, ?_⟩
    · apply BitVec.eq_of_toNat_eq; simp only [BitVec.toNat_ofNat]; omega
    · apply BitVec.eq_of_toNat_eq; simp only [BitVec.toNat_ofNat]; omega
    · apply BitVec.eq_of_toNat_eq; simp only [BitVec.toNat_ofNat]; omega
    · apply BitVec.eq_of_toNat_eq; simp only [BitVec.toNat_ofNat]; omega
    · apply BitVec.eq_of_toNat_eq; simp only [BitVec.toNat_ofNat]; omega
  · simp only [MmaArgs.form, fld, Bool.and_eq_true, beq_iff_eq, and_true]
    refine ⟨⟨⟨?_, ?_⟩, ?_⟩, ?_⟩
    · apply BitVec.eq_of_toNat_eq; simp only [BitVec.toNat_ofNat]; omega
    · apply BitVec.eq_of_toNat_eq; simp only [BitVec.toNat_ofNat]; omega
    · apply BitVec.eq_of_toNat_eq; simp only [BitVec.toNat_ofNat]; omega
    · apply BitVec.eq_of_toNat_eq; simp only [BitVec.toNat_ofNat]; omega
theorem MmasArgs.law (ok : Bool → MmasArgs → Bool) : FormLaw MmasArgs.form ok 0 := by
  refine FormLaw.of_pl (fun _ => rfl) (fun ex r => ?_) (fun ex r => ?_)
  · obtain ⟨d, a, q, af, ww, ow⟩ := r
    simp only [MmasArgs.form, fld, MmasArgs.mk.injEq]
    refine ⟨?_, ?_, ?_, ?_, ?_, ?_⟩
    · apply BitVec.eq_of_toNat_eq; simp only [BitVec.toNat_ofNat]; omega
    · apply BitVec.eq_of_toNat_eq; simp only [BitVec.toNat_ofNat]; omega
    · apply BitVec.eq_of_toNat_eq; simp only [BitVec.toNat_ofNat]; omega
    · apply BitVec.eq_of_toNat_eq; simp only [BitVec.toNat_ofNat]; omega
    · apply BitVec.eq_of_toNat_eq; simp only [BitVec.toNat_ofNat]; omega
    · apply BitVec.eq_of_toNat_eq; simp only [BitVec.toNat_ofNat]; omega
  · simp only [MmasArgs.form, fld, Bool.and_eq_true, beq_iff_eq, and_true]
    refine ⟨⟨⟨?_, ?_⟩, ?_⟩, ?_⟩
    · apply BitVec.eq_of_toNat_eq; simp only [BitVec.toNat_ofNat]; omega
    · apply BitVec.eq_of_toNat_eq; simp only [BitVec.toNat_ofNat]; omega
    · apply BitVec.eq_of_toNat_eq; simp only [BitVec.toNat_ofNat]; omega
    · apply BitVec.eq_of_toNat_eq; simp only [BitVec.toNat_ofNat]; omega
theorem MdrainArgs.law (ok : Bool → MdrainArgs → Bool) : FormLaw MdrainArgs.form ok 0 := by
  refine FormLaw.of_pl (fun _ => rfl) (fun ex r => ?_) (fun ex r => ?_)
  · obtain ⟨d, a, sat, rm, str⟩ := r
    simp only [MdrainArgs.form, fld, MdrainArgs.mk.injEq]
    refine ⟨?_, ?_, ?_, ?_, ?_⟩
    · apply BitVec.eq_of_toNat_eq; simp only [BitVec.toNat_ofNat]; omega
    · apply BitVec.eq_of_toNat_eq; simp only [BitVec.toNat_ofNat]; omega
    · apply BitVec.eq_of_toNat_eq; simp only [BitVec.toNat_ofNat]; omega
    · apply BitVec.eq_of_toNat_eq; simp only [BitVec.toNat_ofNat]; omega
    · apply BitVec.eq_of_toNat_eq; simp only [BitVec.toNat_ofNat]; omega
  · simp only [MdrainArgs.form, fld, Bool.and_eq_true, beq_iff_eq]
    refine ⟨⟨⟨?_, ?_⟩, ?_⟩, ?_⟩
    · apply BitVec.eq_of_toNat_eq; simp only [BitVec.toNat_ofNat]; omega
    · apply BitVec.eq_of_toNat_eq; simp only [BitVec.toNat_ofNat]; omega
    · apply BitVec.eq_of_toNat_eq; simp only [BitVec.toNat_ofNat]; omega
    · apply BitVec.eq_of_toNat_eq; simp only [BitVec.toNat_ofNat]; omega
theorem MzaccArgs.law (ok : Bool → MzaccArgs → Bool) : FormLaw MzaccArgs.form ok 0 := by
  refine FormLaw.of_pl (fun _ => rfl) (fun ex r => ?_) (fun ex r => ?_)
  · obtain ⟨d, af, rows, cols⟩ := r
    simp only [MzaccArgs.form, fld, MzaccArgs.mk.injEq]
    refine ⟨?_, ?_, ?_, ?_⟩
    · apply BitVec.eq_of_toNat_eq; simp only [BitVec.toNat_ofNat]; omega
    · apply BitVec.eq_of_toNat_eq; simp only [BitVec.toNat_ofNat]; omega
    · apply BitVec.eq_of_toNat_eq; simp only [BitVec.toNat_ofNat]; omega
    · apply BitVec.eq_of_toNat_eq; simp only [BitVec.toNat_ofNat]; omega
  · simp only [MzaccArgs.form, fld, Bool.and_eq_true, beq_iff_eq]
    refine ⟨⟨?_, ?_⟩, ?_⟩
    · apply BitVec.eq_of_toNat_eq; simp only [BitVec.toNat_ofNat]; omega
    · apply BitVec.eq_of_toNat_eq; simp only [BitVec.toNat_ofNat]; omega
    · apply BitVec.eq_of_toNat_eq; simp only [BitVec.toNat_ofNat]; omega
theorem McvArgs.law (ok : Bool → McvArgs → Bool) : FormLaw McvArgs.form ok 0 := by
  refine FormLaw.of_pl (fun _ => rfl) (fun ex r => ?_) (fun ex r => ?_)
  · obtain ⟨d, q, ww, rb, ra⟩ := r
    simp only [McvArgs.form, fld, McvArgs.mk.injEq]
    refine ⟨?_, ?_, ?_, ?_, ?_⟩
    · apply BitVec.eq_of_toNat_eq; simp only [BitVec.toNat_ofNat]; omega
    · apply BitVec.eq_of_toNat_eq; simp only [BitVec.toNat_ofNat]; omega
    · apply BitVec.eq_of_toNat_eq; simp only [BitVec.toNat_ofNat]; omega
    · apply BitVec.eq_of_toNat_eq; simp only [BitVec.toNat_ofNat]; omega
    · apply BitVec.eq_of_toNat_eq; simp only [BitVec.toNat_ofNat]; omega
  · simp only [McvArgs.form, fld, Bool.and_eq_true, beq_iff_eq, and_true]
    refine ⟨⟨?_, ?_⟩, ?_⟩
    · apply BitVec.eq_of_toNat_eq; simp only [BitVec.toNat_ofNat]; omega
    · apply BitVec.eq_of_toNat_eq; simp only [BitVec.toNat_ofNat]; omega
    · apply BitVec.eq_of_toNat_eq; simp only [BitVec.toNat_ofNat]; omega
theorem MfillArgs.law (ok : Bool → MfillArgs → Bool) : FormLaw MfillArgs.form ok 0 := by
  refine FormLaw.of_pl (fun _ => rfl) (fun ex r => ?_) (fun ex r => ?_)
  · obtain ⟨d, v⟩ := r
    simp only [MfillArgs.form, fld, MfillArgs.mk.injEq]
    refine ⟨?_, ?_⟩
    · apply BitVec.eq_of_toNat_eq; simp only [BitVec.toNat_ofNat]; omega
    · apply BitVec.eq_of_toNat_eq; simp only [BitVec.toNat_ofNat]; omega
  · simp only [MfillArgs.form, fld, Bool.and_eq_true, beq_iff_eq]
    refine ⟨?_, ?_⟩
    · apply BitVec.eq_of_toNat_eq; simp only [BitVec.toNat_ofNat]; omega
    · apply BitVec.eq_of_toNat_eq; simp only [BitVec.toNat_ofNat]; omega
theorem KMem.law (ok : Bool → KMem → Bool) : FormLaw KMem.form ok 0 := by
  refine FormLaw.of_pl (fun _ => rfl) (fun ex r => ?_) (fun ex r => ?_)
  · obtain ⟨d, base, pos, sz, cls, disp⟩ := r
    simp only [KMem.form, fld, KMem.mk.injEq]
    refine ⟨?_, ?_, ?_, ?_, ?_, ?_⟩
    · apply BitVec.eq_of_toNat_eq; simp only [BitVec.toNat_ofNat]; omega
    · apply BitVec.eq_of_toNat_eq; simp only [BitVec.toNat_ofNat]; omega
    · apply BitVec.eq_of_toNat_eq; simp only [BitVec.toNat_ofNat]; omega
    · apply BitVec.eq_of_toNat_eq; simp only [BitVec.toNat_ofNat]; omega
    · apply BitVec.eq_of_toNat_eq; simp only [BitVec.toNat_ofNat]; omega
    · apply BitVec.eq_of_toNat_eq; simp only [BitVec.toNat_ofNat]; omega
  · simp only [KMem.form, fld, Bool.and_eq_true, beq_iff_eq]
    refine ⟨⟨⟨?_, ?_⟩, ?_⟩, ?_⟩
    · apply BitVec.eq_of_toNat_eq; simp only [BitVec.toNat_ofNat]; omega
    · apply BitVec.eq_of_toNat_eq; simp only [BitVec.toNat_ofNat]; omega
    · apply BitVec.eq_of_toNat_eq; simp only [BitVec.toNat_ofNat]; omega
    · apply BitVec.eq_of_toNat_eq; simp only [BitVec.toNat_ofNat]; omega
theorem KfillArgs.law (k : Nat) (hk : k < 32) (ok : Bool → KfillArgs → Bool) : FormLaw KfillArgs.form ok k := by
  refine FormLaw.of_pl (fun _ => rfl) (fun ex r => ?_) (fun ex r => ?_)
  · obtain ⟨d, v⟩ := r
    simp only [KfillArgs.form, fld, KfillArgs.mk.injEq]
    refine ⟨?_, ?_⟩
    · apply BitVec.eq_of_toNat_eq; simp only [BitVec.toNat_ofNat]; omega
    · apply BitVec.eq_of_toNat_eq; simp only [BitVec.toNat_ofNat]; omega
  · simp only [KfillArgs.form, fld, Bool.and_eq_true, beq_iff_eq]
    refine ⟨⟨?_, ?_⟩, ?_⟩
    · apply BitVec.eq_of_toNat_eq; simp only [BitVec.toNat_ofNat]; omega
    · apply BitVec.eq_of_toNat_eq; simp only [BitVec.toNat_ofNat]; omega
    · apply BitVec.eq_of_toNat_eq; simp only [BitVec.toNat_ofNat]; omega
theorem KsprArgs.law (k : Nat) (hk : k < 32) (ok : Bool → KsprArgs → Bool) : FormLaw KsprArgs.form ok k := by
  refine FormLaw.of_pl (fun _ => rfl) (fun ex r => ?_) (fun ex r => ?_)
  · obtain ⟨d, v⟩ := r
    simp only [KsprArgs.form, fld, KsprArgs.mk.injEq]
    refine ⟨?_, ?_⟩
    · apply BitVec.eq_of_toNat_eq; simp only [BitVec.toNat_ofNat]; omega
    · apply BitVec.eq_of_toNat_eq; simp only [BitVec.toNat_ofNat]; omega
  · simp only [KsprArgs.form, fld, Bool.and_eq_true, beq_iff_eq]
    refine ⟨⟨?_, ?_⟩, ?_⟩
    · apply BitVec.eq_of_toNat_eq; simp only [BitVec.toNat_ofNat]; omega
    · apply BitVec.eq_of_toNat_eq; simp only [BitVec.toNat_ofNat]; omega
    · apply BitVec.eq_of_toNat_eq; simp only [BitVec.toNat_ofNat]; omega
theorem CopyArgs.law (ok : Bool → CopyArgs → Bool) : FormLaw CopyArgs.form ok 0 := by
  refine FormLaw.of_pl (fun _ => rfl) (fun ex r => ?_) (fun ex r => ?_)
  · obtain ⟨d, cls, tok, u⟩ := r
    simp only [CopyArgs.form, fld, CopyArgs.mk.injEq]
    refine ⟨?_, ?_, ?_, ?_⟩
    · apply BitVec.eq_of_toNat_eq; simp only [BitVec.toNat_ofNat]; omega
    · apply BitVec.eq_of_toNat_eq; simp only [BitVec.toNat_ofNat]; omega
    · apply BitVec.eq_of_toNat_eq; simp only [BitVec.toNat_ofNat]; omega
    · have : fld (CopyArgs.form.pl ⟨d, cls, tok, u⟩) 15 2 = u ^^^ 2#2 := by
        simp only [CopyArgs.form, fld]; apply BitVec.eq_of_toNat_eq; simp only [BitVec.toNat_ofNat]; omega
      simp only [CopyArgs.form, fld] at this; rw [this, BitVec.xor_assoc, BitVec.xor_self, BitVec.xor_zero]
  · simp only [CopyArgs.form, fld, Bool.and_eq_true, beq_iff_eq]
    refine ⟨⟨?_, ?_⟩, ?_⟩
    · apply BitVec.eq_of_toNat_eq; simp only [BitVec.toNat_ofNat]; omega
    · apply BitVec.eq_of_toNat_eq; simp only [BitVec.toNat_ofNat]; omega
    · apply BitVec.eq_of_toNat_eq; simp only [BitVec.toNat_ofNat]; omega
theorem IndexedCopy.law (ok : Bool → IndexedCopy → Bool) : FormLaw IndexedCopy.form ok 0 := by
  refine FormLaw.of_pl (fun _ => rfl) (fun ex r => ?_) (fun ex r => ?_)
  · obtain ⟨d, ix, cls, tok, u⟩ := r
    simp only [IndexedCopy.form, fld, IndexedCopy.mk.injEq]
    refine ⟨?_, ?_, ?_, ?_, ?_⟩
    · apply BitVec.eq_of_toNat_eq; simp only [BitVec.toNat_ofNat]; omega
    · apply BitVec.eq_of_toNat_eq; simp only [BitVec.toNat_ofNat]; omega
    · apply BitVec.eq_of_toNat_eq; simp only [BitVec.toNat_ofNat]; omega
    · apply BitVec.eq_of_toNat_eq; simp only [BitVec.toNat_ofNat]; omega
    · have : fld (IndexedCopy.form.pl ⟨d, ix, cls, tok, u⟩) 15 2 = u ^^^ 2#2 := by
        simp only [IndexedCopy.form, fld]; apply BitVec.eq_of_toNat_eq; simp only [BitVec.toNat_ofNat]; omega
      simp only [IndexedCopy.form, fld] at this; rw [this, BitVec.xor_assoc, BitVec.xor_self, BitVec.xor_zero]
  · simp only [IndexedCopy.form, fld, Bool.and_eq_true, beq_iff_eq]
    refine ⟨⟨⟨?_, ?_⟩, ?_⟩, ?_⟩
    · apply BitVec.eq_of_toNat_eq; simp only [BitVec.toNat_ofNat]; omega
    · apply BitVec.eq_of_toNat_eq; simp only [BitVec.toNat_ofNat]; omega
    · apply BitVec.eq_of_toNat_eq; simp only [BitVec.toNat_ofNat]; omega
    · apply BitVec.eq_of_toNat_eq; simp only [BitVec.toNat_ofNat]; omega
theorem TileLoad.law (ok : Bool → TileLoad → Bool) : FormLaw TileLoad.form ok 0 := by
  refine FormLaw.of_pl (fun _ => rfl) (fun ex r => ?_) (fun ex r => ?_)
  · obtain ⟨t, base, trl, spc, cls, tok, u, disp⟩ := r
    simp only [TileLoad.form, fld, TileLoad.mk.injEq]
    refine ⟨?_, ?_, ?_, ?_, ?_, ?_, ?_, ?_⟩
    · apply BitVec.eq_of_toNat_eq; simp only [BitVec.toNat_ofNat]; omega
    · apply BitVec.eq_of_toNat_eq; simp only [BitVec.toNat_ofNat]; omega
    · apply BitVec.eq_of_toNat_eq; simp only [BitVec.toNat_ofNat]; omega
    · apply BitVec.eq_of_toNat_eq; simp only [BitVec.toNat_ofNat]; omega
    · apply BitVec.eq_of_toNat_eq; simp only [BitVec.toNat_ofNat]; omega
    · apply BitVec.eq_of_toNat_eq; simp only [BitVec.toNat_ofNat]; omega
    · have : fld (TileLoad.form.pl ⟨t, base, trl, spc, cls, tok, u, disp⟩) 15 2 = u ^^^ 2#2 := by
        simp only [TileLoad.form, fld]; apply BitVec.eq_of_toNat_eq; simp only [BitVec.toNat_ofNat]; omega
      simp only [TileLoad.form, fld] at this; rw [this, BitVec.xor_assoc, BitVec.xor_self, BitVec.xor_zero]
    · apply BitVec.eq_of_toNat_eq; simp only [BitVec.toNat_ofNat]; omega
  · simp only [TileLoad.form, fld, Bool.and_eq_true, beq_iff_eq]
    refine ⟨⟨?_, ?_⟩, ?_⟩
    · apply BitVec.eq_of_toNat_eq; simp only [BitVec.toNat_ofNat]; omega
    · apply BitVec.eq_of_toNat_eq; simp only [BitVec.toNat_ofNat]; omega
    · apply BitVec.eq_of_toNat_eq; simp only [BitVec.toNat_ofNat]; omega
theorem TileStore.law (ok : Bool → TileStore → Bool) : FormLaw TileStore.form ok 0 := by
  refine FormLaw.of_pl (fun _ => rfl) (fun ex r => ?_) (fun ex r => ?_)
  · obtain ⟨t, base, trl, spc, cls, tok, disp⟩ := r
    simp only [TileStore.form, fld, TileStore.mk.injEq]
    refine ⟨?_, ?_, ?_, ?_, ?_, ?_, ?_⟩
    · apply BitVec.eq_of_toNat_eq; simp only [BitVec.toNat_ofNat]; omega
    · apply BitVec.eq_of_toNat_eq; simp only [BitVec.toNat_ofNat]; omega
    · apply BitVec.eq_of_toNat_eq; simp only [BitVec.toNat_ofNat]; omega
    · apply BitVec.eq_of_toNat_eq; simp only [BitVec.toNat_ofNat]; omega
    · apply BitVec.eq_of_toNat_eq; simp only [BitVec.toNat_ofNat]; omega
    · apply BitVec.eq_of_toNat_eq; simp only [BitVec.toNat_ofNat]; omega
    · apply BitVec.eq_of_toNat_eq; simp only [BitVec.toNat_ofNat]; omega
  · simp only [TileStore.form, fld, Bool.and_eq_true, beq_iff_eq]
    refine ⟨⟨⟨?_, ?_⟩, ?_⟩, ?_⟩
    · apply BitVec.eq_of_toNat_eq; simp only [BitVec.toNat_ofNat]; omega
    · apply BitVec.eq_of_toNat_eq; simp only [BitVec.toNat_ofNat]; omega
    · apply BitVec.eq_of_toNat_eq; simp only [BitVec.toNat_ofNat]; omega
    · apply BitVec.eq_of_toNat_eq; simp only [BitVec.toNat_ofNat]; omega
theorem CpubArgs.law (ok : Bool → CpubArgs → Bool) : FormLaw CpubArgs.form ok 0 := by
  refine FormLaw.of_pl (fun _ => rfl) (fun ex r => ?_) (fun ex r => ?_)
  · obtain ⟨buf⟩ := r
    simp only [CpubArgs.form, fld, CpubArgs.mk.injEq]
    apply BitVec.eq_of_toNat_eq; simp only [BitVec.toNat_ofNat]; omega
  · simp only [CpubArgs.form, fld, Bool.and_eq_true, beq_iff_eq, and_true]; exact (by apply BitVec.eq_of_toNat_eq; simp only [BitVec.toNat_ofNat]; omega)
theorem StmapArgs.law (ok : Bool → StmapArgs → Bool) : FormLaw StmapArgs.form ok 0 := by
  refine FormLaw.of_pl (fun _ => rfl) (fun ex r => ?_) (fun ex r => ?_)
  · obtain ⟨win, a⟩ := r
    simp only [StmapArgs.form, fld, StmapArgs.mk.injEq]
    refine ⟨?_, ?_⟩
    · apply BitVec.eq_of_toNat_eq; simp only [BitVec.toNat_ofNat]; omega
    · apply BitVec.eq_of_toNat_eq; simp only [BitVec.toNat_ofNat]; omega
  · simp only [StmapArgs.form, fld, Bool.and_eq_true, beq_iff_eq, and_true]
    refine ⟨⟨?_, ?_⟩, ?_⟩
    · apply BitVec.eq_of_toNat_eq; simp only [BitVec.toNat_ofNat]; omega
    · apply BitVec.eq_of_toNat_eq; simp only [BitVec.toNat_ofNat]; omega
    · apply BitVec.eq_of_toNat_eq; simp only [BitVec.toNat_ofNat]; omega
theorem StflArgs.law (ok : Bool → StflArgs → Bool) : FormLaw StflArgs.form ok 0 := by
  refine FormLaw.of_pl (fun _ => rfl) (fun ex r => ?_) (fun ex r => ?_)
  · obtain ⟨inv, all, win, cls, tok⟩ := r
    simp only [StflArgs.form, fld, StflArgs.mk.injEq]
    refine ⟨?_, ?_, ?_, ?_, ?_⟩
    · apply BitVec.eq_of_toNat_eq; simp only [BitVec.toNat_ofNat]; omega
    · apply BitVec.eq_of_toNat_eq; simp only [BitVec.toNat_ofNat]; omega
    · apply BitVec.eq_of_toNat_eq; simp only [BitVec.toNat_ofNat]; omega
    · apply BitVec.eq_of_toNat_eq; simp only [BitVec.toNat_ofNat]; omega
    · apply BitVec.eq_of_toNat_eq; simp only [BitVec.toNat_ofNat]; omega
  · simp only [StflArgs.form, fld, Bool.and_eq_true, beq_iff_eq]
    refine ⟨?_, ?_⟩
    · apply BitVec.eq_of_toNat_eq; simp only [BitVec.toNat_ofNat]; omega
    · apply BitVec.eq_of_toNat_eq; simp only [BitVec.toNat_ofNat]; omega
theorem ChintArgs.law (ok : Bool → ChintArgs → Bool) : FormLaw ChintArgs.form ok 0 := by
  refine FormLaw.of_pl (fun _ => rfl) (fun ex r => ?_) (fun ex r => ?_)
  · obtain ⟨base, un, cls, pages⟩ := r
    simp only [ChintArgs.form, fld, ChintArgs.mk.injEq]
    refine ⟨?_, ?_, ?_, ?_⟩
    · apply BitVec.eq_of_toNat_eq; simp only [BitVec.toNat_ofNat]; omega
    · apply BitVec.eq_of_toNat_eq; simp only [BitVec.toNat_ofNat]; omega
    · apply BitVec.eq_of_toNat_eq; simp only [BitVec.toNat_ofNat]; omega
    · apply BitVec.eq_of_toNat_eq; simp only [BitVec.toNat_ofNat]; omega
  · simp only [ChintArgs.form, fld, Bool.and_eq_true, beq_iff_eq]
    refine ⟨⟨?_, ?_⟩, ?_⟩
    · apply BitVec.eq_of_toNat_eq; simp only [BitVec.toNat_ofNat]; omega
    · apply BitVec.eq_of_toNat_eq; simp only [BitVec.toNat_ofNat]; omega
    · apply BitVec.eq_of_toNat_eq; simp only [BitVec.toNat_ofNat]; omega
theorem NetCopy.law (ok : Bool → NetCopy → Bool) : FormLaw NetCopy.form ok 0 := by
  refine FormLaw.of_pl (fun _ => rfl) (fun ex r => ?_) (fun ex r => ?_)
  · obtain ⟨d, cls, tok⟩ := r
    simp only [NetCopy.form, fld, NetCopy.mk.injEq]
    refine ⟨?_, ?_, ?_⟩
    · apply BitVec.eq_of_toNat_eq; simp only [BitVec.toNat_ofNat]; omega
    · apply BitVec.eq_of_toNat_eq; simp only [BitVec.toNat_ofNat]; omega
    · apply BitVec.eq_of_toNat_eq; simp only [BitVec.toNat_ofNat]; omega
  · simp only [NetCopy.form, fld, Bool.and_eq_true, beq_iff_eq]
    refine ⟨⟨?_, ?_⟩, ?_⟩
    · apply BitVec.eq_of_toNat_eq; simp only [BitVec.toNat_ofNat]; omega
    · apply BitVec.eq_of_toNat_eq; simp only [BitVec.toNat_ofNat]; omega
    · apply BitVec.eq_of_toNat_eq; simp only [BitVec.toNat_ofNat]; omega
theorem DescMove.law (ok : Bool → DescMove → Bool) : FormLaw DescMove.form ok 0 := by
  refine FormLaw.of_pl (fun _ => rfl) (fun ex r => ?_) (fun ex r => ?_)
  · obtain ⟨d, base, one, word, ba, cls, off⟩ := r
    simp only [DescMove.form, fld, DescMove.mk.injEq]
    refine ⟨?_, ?_, ?_, ?_, ?_, ?_, ?_⟩
    · apply BitVec.eq_of_toNat_eq; simp only [BitVec.toNat_ofNat]; omega
    · apply BitVec.eq_of_toNat_eq; simp only [BitVec.toNat_ofNat]; omega
    · apply BitVec.eq_of_toNat_eq; simp only [BitVec.toNat_ofNat]; omega
    · apply BitVec.eq_of_toNat_eq; simp only [BitVec.toNat_ofNat]; omega
    · apply BitVec.eq_of_toNat_eq; simp only [BitVec.toNat_ofNat]; omega
    · apply BitVec.eq_of_toNat_eq; simp only [BitVec.toNat_ofNat]; omega
    · apply BitVec.eq_of_toNat_eq; simp only [BitVec.toNat_ofNat]; omega
  · simp only [DescMove.form, fld, Bool.and_eq_true, beq_iff_eq]
    refine ⟨⟨⟨?_, ?_⟩, ?_⟩, ?_⟩
    · apply BitVec.eq_of_toNat_eq; simp only [BitVec.toNat_ofNat]; omega
    · apply BitVec.eq_of_toNat_eq; simp only [BitVec.toNat_ofNat]; omega
    · apply BitVec.eq_of_toNat_eq; simp only [BitVec.toNat_ofNat]; omega
    · apply BitVec.eq_of_toNat_eq; simp only [BitVec.toNat_ofNat]; omega
theorem WaitArgs.law (ok : Bool → WaitArgs → Bool) : FormLaw WaitArgs.form ok 0 := by
  refine FormLaw.of_pl (fun _ => rfl) (fun ex r => ?_) (fun ex r => ?_)
  · obtain ⟨a, mask⟩ := r
    simp only [WaitArgs.form, fld, WaitArgs.mk.injEq]
    refine ⟨?_, ?_⟩
    · apply BitVec.eq_of_toNat_eq; simp only [BitVec.toNat_ofNat]; omega
    · apply BitVec.eq_of_toNat_eq; simp only [BitVec.toNat_ofNat]; omega
  · simp only [WaitArgs.form, fld, Bool.and_eq_true, beq_iff_eq]
    refine ⟨⟨?_, ?_⟩, ?_⟩
    · apply BitVec.eq_of_toNat_eq; simp only [BitVec.toNat_ofNat]; omega
    · apply BitVec.eq_of_toNat_eq; simp only [BitVec.toNat_ofNat]; omega
    · apply BitVec.eq_of_toNat_eq; simp only [BitVec.toNat_ofNat]; omega
theorem FwaitArgs.law (k : Nat) (hk : k < 32) (ok : Bool → FwaitArgs → Bool) : FormLaw FwaitArgs.form ok k := by
  refine FormLaw.of_pl (fun r => ?_) (fun ex r => ?_) (fun ex r => ?_)
  · have : (fld r.n 5 11 = 0#11) = (BitVec.ofNat 24 (fld r.n 5 11).toNat = 0#24) := by
      refine propext ⟨fun h => by rw [h]; rfl, fun h => ?_⟩
      have := congrArg BitVec.toNat h
      apply BitVec.eq_of_toNat_eq; simp only [BitVec.toNat_ofNat] at this ⊢; omega
    simp only [FwaitArgs.form]; rw [Bool.eq_iff_iff]; simp only [bne_iff_ne, ne_eq, this]
  · obtain ⟨f, n⟩ := r
    simp only [FwaitArgs.form, fld, FwaitArgs.mk.injEq]
    refine ⟨?_, ?_⟩
    · apply BitVec.eq_of_toNat_eq; simp only [BitVec.toNat_ofNat]; omega
    · apply BitVec.eq_of_toNat_eq; simp only [BitVec.toNat_ofNat]; omega
  · simp only [FwaitArgs.form, fld, Bool.and_eq_true, beq_iff_eq]
    refine ⟨?_, ?_⟩
    · apply BitVec.eq_of_toNat_eq; simp only [BitVec.toNat_ofNat]; omega
    · apply BitVec.eq_of_toNat_eq; simp only [BitVec.toNat_ofNat]; omega
theorem FpostArgs.law (k : Nat) (hk : k < 32) (ok : Bool → FpostArgs → Bool) : FormLaw FpostArgs.form ok k := by
  refine FormLaw.of_pl (fun _ => rfl) (fun ex r => ?_) (fun ex r => ?_)
  · obtain ⟨f, n⟩ := r
    simp only [FpostArgs.form, fld, FpostArgs.mk.injEq]
    refine ⟨?_, ?_⟩
    · apply BitVec.eq_of_toNat_eq; simp only [BitVec.toNat_ofNat]; omega
    · apply BitVec.eq_of_toNat_eq; simp only [BitVec.toNat_ofNat]; omega
  · simp only [FpostArgs.form, fld, Bool.and_eq_true, beq_iff_eq]
    refine ⟨⟨?_, ?_⟩, ?_⟩
    · apply BitVec.eq_of_toNat_eq; simp only [BitVec.toNat_ofNat]; omega
    · apply BitVec.eq_of_toNat_eq; simp only [BitVec.toNat_ofNat]; omega
    · apply BitVec.eq_of_toNat_eq; simp only [BitVec.toNat_ofNat]; omega
theorem FsetArgs.law (k : Nat) (hk : k < 32) (ok : Bool → FsetArgs → Bool) : FormLaw FsetArgs.form ok k := by
  refine FormLaw.of_pl (fun _ => rfl) (fun ex r => ?_) (fun ex r => ?_)
  · obtain ⟨f, v⟩ := r
    simp only [FsetArgs.form, fld, FsetArgs.mk.injEq]
    refine ⟨?_, ?_⟩
    · apply BitVec.eq_of_toNat_eq; simp only [BitVec.toNat_ofNat]; omega
    · apply BitVec.eq_of_toNat_eq; simp only [BitVec.toNat_ofNat]; omega
  · simp only [FsetArgs.form, fld, Bool.and_eq_true, beq_iff_eq]
    refine ⟨⟨?_, ?_⟩, ?_⟩
    · apply BitVec.eq_of_toNat_eq; simp only [BitVec.toNat_ofNat]; omega
    · apply BitVec.eq_of_toNat_eq; simp only [BitVec.toNat_ofNat]; omega
    · apply BitVec.eq_of_toNat_eq; simp only [BitVec.toNat_ofNat]; omega
theorem RpostArgs.law (k : Nat) (hk : k < 32) (ok : Bool → RpostArgs → Bool) : FormLaw RpostArgs.form ok k := by
  refine FormLaw.of_pl (fun _ => rfl) (fun ex r => ?_) (fun ex r => ?_)
  · obtain ⟨thi, f, tlo, n⟩ := r
    simp only [RpostArgs.form, fld, RpostArgs.mk.injEq]
    refine ⟨?_, ?_, ?_, ?_⟩
    · apply BitVec.eq_of_toNat_eq; simp only [BitVec.toNat_ofNat]; omega
    · apply BitVec.eq_of_toNat_eq; simp only [BitVec.toNat_ofNat]; omega
    · apply BitVec.eq_of_toNat_eq; simp only [BitVec.toNat_ofNat]; omega
    · apply BitVec.eq_of_toNat_eq; simp only [BitVec.toNat_ofNat]; omega
  · simp only [RpostArgs.form, fld, Bool.and_eq_true, beq_iff_eq]
    refine ⟨?_, ?_⟩
    · apply BitVec.eq_of_toNat_eq; simp only [BitVec.toNat_ofNat]; omega
    · apply BitVec.eq_of_toNat_eq; simp only [BitVec.toNat_ofNat]; omega
theorem RpostPred.law (k : Nat) (hk : k < 32) (ok : Bool → RpostPred → Bool) : FormLaw RpostPred.form ok k := by
  refine FormLaw.of_pl (fun _ => rfl) (fun ex r => ?_) (fun ex r => ?_)
  · obtain ⟨f, p, n⟩ := r
    simp only [RpostPred.form, fld, RpostPred.mk.injEq]
    refine ⟨?_, ?_, ?_⟩
    · apply BitVec.eq_of_toNat_eq; simp only [BitVec.toNat_ofNat]; omega
    · apply BitVec.eq_of_toNat_eq; simp only [BitVec.toNat_ofNat]; omega
    · apply BitVec.eq_of_toNat_eq; simp only [BitVec.toNat_ofNat]; omega
  · simp only [RpostPred.form, fld, Bool.and_eq_true, beq_iff_eq]
    refine ⟨⟨?_, ?_⟩, ?_⟩
    · apply BitVec.eq_of_toNat_eq; simp only [BitVec.toNat_ofNat]; omega
    · apply BitVec.eq_of_toNat_eq; simp only [BitVec.toNat_ofNat]; omega
    · apply BitVec.eq_of_toNat_eq; simp only [BitVec.toNat_ofNat]; omega
theorem BarrArgs.law (ok : Bool → BarrArgs → Bool) : FormLaw BarrArgs.form ok 0 := by
  refine FormLaw.of_pl (fun _ => rfl) (fun ex r => ?_) (fun ex r => ?_)
  · obtain ⟨g⟩ := r
    simp only [BarrArgs.form, fld, BarrArgs.mk.injEq]
    apply BitVec.eq_of_toNat_eq; simp only [BitVec.toNat_ofNat]; omega
  · simp only [BarrArgs.form, fld, Bool.and_eq_true, beq_iff_eq, and_true]
    refine ⟨?_, ?_⟩
    · apply BitVec.eq_of_toNat_eq; simp only [BitVec.toNat_ofNat]; omega
    · apply BitVec.eq_of_toNat_eq; simp only [BitVec.toNat_ofNat]; omega
theorem FenceArgs.law (ok : Bool → FenceArgs → Bool) : FormLaw FenceArgs.form ok 0 := by
  refine FormLaw.of_pl (fun _ => rfl) (fun ex r => ?_) (fun ex r => ?_)
  · obtain ⟨kind, scope, ncls⟩ := r
    simp only [FenceArgs.form, fld, FenceArgs.mk.injEq]
    refine ⟨?_, ?_, ?_⟩
    · apply BitVec.eq_of_toNat_eq; simp only [BitVec.toNat_ofNat]; omega
    · apply BitVec.eq_of_toNat_eq; simp only [BitVec.toNat_ofNat]; omega
    · apply BitVec.eq_of_toNat_eq; simp only [BitVec.toNat_ofNat]; omega
  · simp only [FenceArgs.form, fld, Bool.and_eq_true, beq_iff_eq]
    refine ⟨?_, ?_⟩
    · apply BitVec.eq_of_toNat_eq; simp only [BitVec.toNat_ofNat]; omega
    · apply BitVec.eq_of_toNat_eq; simp only [BitVec.toNat_ofNat]; omega
theorem ForkArgs.law (ok : Bool → ForkArgs → Bool) : FormLaw ForkArgs.form ok 0 := by
  refine ⟨fun ex r _ h => ?_, fun ex r _ h => ?_⟩
  · obtain ⟨entry, b, dyn, mem⟩ := r
    cases ex
    · simp only [ForkArgs.form, fld, ForkArgs.mk.injEq] at h ⊢
      refine ⟨?_, ?_, ?_, ?_⟩
      · simp only [bne_iff_ne, ne_eq, Bool.false_eq_true, imp_false, Decidable.not_not, ↓reduceIte] at h ⊢
        refine Eq.trans (congrArg _ ?_) h
        apply BitVec.eq_of_toNat_eq; simp only [BitVec.toNat_ofNat]; omega
      · apply BitVec.eq_of_toNat_eq; simp only [BitVec.toNat_ofNat]; omega
      · apply BitVec.eq_of_toNat_eq; simp only [BitVec.toNat_ofNat]; omega
      · apply BitVec.eq_of_toNat_eq; simp only [BitVec.toNat_ofNat]; omega
    · simp only [ForkArgs.form, fld, ForkArgs.mk.injEq] at h ⊢
      refine ⟨?_, ?_, ?_, ?_⟩
      · simp only [↓reduceIte]; apply BitVec.eq_of_toNat_eq; simp only [BitVec.toNat_ofNat]; omega
      · apply BitVec.eq_of_toNat_eq; simp only [BitVec.toNat_ofNat]; omega
      · apply BitVec.eq_of_toNat_eq; simp only [BitVec.toNat_ofNat]; omega
      · apply BitVec.eq_of_toNat_eq; simp only [BitVec.toNat_ofNat]; omega
  · simp only [ForkArgs.form, fld, Bool.and_eq_true, beq_iff_eq]
    refine ⟨?_, ?_⟩
    · apply BitVec.eq_of_toNat_eq; simp only [BitVec.toNat_ofNat]; omega
    · apply BitVec.eq_of_toNat_eq; simp only [BitVec.toNat_ofNat]; omega
theorem FprobeArgs.law (k : Nat) (hk : k < 2) (ok : Bool → FprobeArgs → Bool) : FormLaw FprobeArgs.form ok k := by
  refine ⟨fun ex r _ h => ?_, fun ex r _ h => ?_⟩
  · obtain ⟨pd, entry, b, dyn, mem⟩ := r
    cases ex
    · simp only [FprobeArgs.form, fld, FprobeArgs.mk.injEq] at h ⊢
      refine ⟨?_, ?_, ?_, ?_, ?_⟩
      · apply BitVec.eq_of_toNat_eq; simp only [BitVec.toNat_ofNat]; omega
      · simp only [bne_iff_ne, ne_eq, Bool.false_eq_true, imp_false, Decidable.not_not, ↓reduceIte] at h ⊢
        refine Eq.trans (congrArg _ ?_) h
        apply BitVec.eq_of_toNat_eq; simp only [BitVec.toNat_ofNat]; omega
      · apply BitVec.eq_of_toNat_eq; simp only [BitVec.toNat_ofNat]; omega
      · apply BitVec.eq_of_toNat_eq; simp only [BitVec.toNat_ofNat]; omega
      · apply BitVec.eq_of_toNat_eq; simp only [BitVec.toNat_ofNat]; omega
    · simp only [FprobeArgs.form, fld, FprobeArgs.mk.injEq] at h ⊢
      refine ⟨?_, ?_, ?_, ?_, ?_⟩
      · apply BitVec.eq_of_toNat_eq; simp only [BitVec.toNat_ofNat]; omega
      · simp only [↓reduceIte]; apply BitVec.eq_of_toNat_eq; simp only [BitVec.toNat_ofNat]; omega
      · apply BitVec.eq_of_toNat_eq; simp only [BitVec.toNat_ofNat]; omega
      · apply BitVec.eq_of_toNat_eq; simp only [BitVec.toNat_ofNat]; omega
      · apply BitVec.eq_of_toNat_eq; simp only [BitVec.toNat_ofNat]; omega
  · simp only [FprobeArgs.form, fld, Bool.and_eq_true, beq_iff_eq]
    refine ⟨?_, ?_⟩
    · apply BitVec.eq_of_toNat_eq; simp only [BitVec.toNat_ofNat]; omega
    · apply BitVec.eq_of_toNat_eq; simp only [BitVec.toNat_ofNat]; omega
theorem VRndArgs.law (k : Nat) (hk : k < 32) (ok : Bool → VRndArgs → Bool) : FormLaw VRndArgs.form ok k := by
  refine FormLaw.of_pl (fun _ => rfl) (fun ex r => ?_) (fun ex r => ?_)
  · obtain ⟨d, str⟩ := r
    simp only [VRndArgs.form, fld, VRndArgs.mk.injEq]
    refine ⟨?_, ?_⟩
    · apply BitVec.eq_of_toNat_eq; simp only [BitVec.toNat_ofNat]; omega
    · apply BitVec.eq_of_toNat_eq; simp only [BitVec.toNat_ofNat]; omega
  · simp only [VRndArgs.form, fld, Bool.and_eq_true, beq_iff_eq]
    refine ⟨⟨?_, ?_⟩, ?_⟩
    · apply BitVec.eq_of_toNat_eq; simp only [BitVec.toNat_ofNat]; omega
    · apply BitVec.eq_of_toNat_eq; simp only [BitVec.toNat_ofNat]; omega
    · apply BitVec.eq_of_toNat_eq; simp only [BitVec.toNat_ofNat]; omega
theorem Disp.law (ok : Bool → Disp → Bool) : FormLaw Disp.form ok 0 := by
  refine ⟨fun ex r _ h => ?_, fun ex r _ h => ?_⟩
  · obtain ⟨disp⟩ := r
    cases ex
    · simp only [Disp.form, fld, Disp.mk.injEq] at h ⊢
      simp only [bne_iff_ne, ne_eq, Bool.false_eq_true, imp_false, Decidable.not_not, ↓reduceIte] at h ⊢
      refine Eq.trans (congrArg _ ?_) h
      apply BitVec.eq_of_toNat_eq; simp only [BitVec.toNat_ofNat]; omega
    · simp only [Disp.form, fld, Disp.mk.injEq] at h ⊢
      simp only [↓reduceIte]; apply BitVec.eq_of_toNat_eq; simp only [BitVec.toNat_ofNat]; omega
  · rfl
theorem JrArgs.law (ok : Bool → JrArgs → Bool) : FormLaw JrArgs.form ok 0 := by
  refine FormLaw.of_pl (fun _ => rfl) (fun ex r => ?_) (fun ex r => ?_)
  · obtain ⟨a⟩ := r
    simp only [JrArgs.form, fld, JrArgs.mk.injEq]
    apply BitVec.eq_of_toNat_eq; simp only [BitVec.toNat_ofNat]; omega
  · simp only [JrArgs.form, fld, Bool.and_eq_true, beq_iff_eq, and_true]
    refine ⟨?_, ?_⟩
    · apply BitVec.eq_of_toNat_eq; simp only [BitVec.toNat_ofNat]; omega
    · apply BitVec.eq_of_toNat_eq; simp only [BitVec.toNat_ofNat]; omega
theorem MtcfgArgs.law (ok : Bool → MtcfgArgs → Bool) : FormLaw MtcfgArgs.form ok 0 := by
  refine FormLaw.of_pl (fun _ => rfl) (fun ex r => ?_) (fun ex r => ?_)
  · obtain ⟨t, a⟩ := r
    simp only [MtcfgArgs.form, fld, MtcfgArgs.mk.injEq]
    refine ⟨?_, ?_⟩
    · apply BitVec.eq_of_toNat_eq; simp only [BitVec.toNat_ofNat]; omega
    · apply BitVec.eq_of_toNat_eq; simp only [BitVec.toNat_ofNat]; omega
  · simp only [MtcfgArgs.form, fld, Bool.and_eq_true, beq_iff_eq, and_true]
    refine ⟨?_, ?_⟩
    · apply BitVec.eq_of_toNat_eq; simp only [BitVec.toNat_ofNat]; omega
    · apply BitVec.eq_of_toNat_eq; simp only [BitVec.toNat_ofNat]; omega
theorem MftcfgArgs.law (ok : Bool → MftcfgArgs → Bool) : FormLaw MftcfgArgs.form ok 0 := by
  refine FormLaw.of_pl (fun _ => rfl) (fun ex r => ?_) (fun ex r => ?_)
  · obtain ⟨d, t⟩ := r
    simp only [MftcfgArgs.form, fld, MftcfgArgs.mk.injEq]
    refine ⟨?_, ?_⟩
    · apply BitVec.eq_of_toNat_eq; simp only [BitVec.toNat_ofNat]; omega
    · apply BitVec.eq_of_toNat_eq; simp only [BitVec.toNat_ofNat]; omega
  · simp only [MftcfgArgs.form, fld, Bool.and_eq_true, beq_iff_eq, and_true]
    refine ⟨?_, ?_⟩
    · apply BitVec.eq_of_toNat_eq; simp only [BitVec.toNat_ofNat]; omega
    · apply BitVec.eq_of_toNat_eq; simp only [BitVec.toNat_ofNat]; omega
theorem SrMove.law (ok : Bool → SrMove → Bool) : FormLaw SrMove.form ok 0 := by
  refine FormLaw.of_pl (fun _ => rfl) (fun ex r => ?_) (fun ex r => ?_)
  · obtain ⟨d, n⟩ := r
    simp only [SrMove.form, fld, SrMove.mk.injEq]
    refine ⟨?_, ?_⟩
    · apply BitVec.eq_of_toNat_eq; simp only [BitVec.toNat_ofNat]; omega
    · apply BitVec.eq_of_toNat_eq; simp only [BitVec.toNat_ofNat]; omega
  · simp only [SrMove.form, fld, Bool.and_eq_true, beq_iff_eq, and_true]; exact (by apply BitVec.eq_of_toNat_eq; simp only [BitVec.toNat_ofNat]; omega)
theorem TrapArgs.law (ok : Bool → TrapArgs → Bool) : FormLaw TrapArgs.form ok 0 := by
  refine FormLaw.of_pl (fun _ => rfl) (fun ex r => ?_) (fun ex r => ?_)
  · obtain ⟨imm⟩ := r
    simp only [TrapArgs.form, fld, TrapArgs.mk.injEq]
    apply BitVec.eq_of_toNat_eq; simp only [BitVec.toNat_ofNat]; omega
  · simp only [TrapArgs.form, fld, Bool.and_eq_true, beq_iff_eq, and_true]; exact (by apply BitVec.eq_of_toNat_eq; simp only [BitVec.toNat_ofNat]; omega)
theorem OneReg.law (k : Nat) (hk : k < 32) (ok : Bool → OneReg → Bool) : FormLaw OneReg.form ok k := by
  refine FormLaw.of_pl (fun _ => rfl) (fun ex r => ?_) (fun ex r => ?_)
  · obtain ⟨a⟩ := r
    simp only [OneReg.form, fld, OneReg.mk.injEq]
    apply BitVec.eq_of_toNat_eq; simp only [BitVec.toNat_ofNat]; omega
  · simp only [OneReg.form, fld, Bool.and_eq_true, beq_iff_eq, and_true]
    refine ⟨?_, ?_⟩
    · apply BitVec.eq_of_toNat_eq; simp only [BitVec.toNat_ofNat]; omega
    · apply BitVec.eq_of_toNat_eq; simp only [BitVec.toNat_ofNat]; omega
theorem TwoReg.law (k : Nat) (hk : k < 32) (ok : Bool → TwoReg → Bool) : FormLaw TwoReg.form ok k := by
  refine FormLaw.of_pl (fun _ => rfl) (fun ex r => ?_) (fun ex r => ?_)
  · obtain ⟨a, b⟩ := r
    simp only [TwoReg.form, fld, TwoReg.mk.injEq]
    refine ⟨?_, ?_⟩
    · apply BitVec.eq_of_toNat_eq; simp only [BitVec.toNat_ofNat]; omega
    · apply BitVec.eq_of_toNat_eq; simp only [BitVec.toNat_ofNat]; omega
  · simp only [TwoReg.form, fld, Bool.and_eq_true, beq_iff_eq, and_true]; exact (by apply BitVec.eq_of_toNat_eq; simp only [BitVec.toNat_ofNat]; omega)
theorem ZeroFn.law (k : Nat) (hk : k < 32) (ok : Bool → ZeroFn → Bool) : FormLaw ZeroFn.form ok k := by
  refine FormLaw.of_pl (fun _ => rfl) (fun ex r => ?_) (fun ex r => ?_)
  · rfl
  · simp only [ZeroFn.form, fld, Bool.and_eq_true, beq_iff_eq, and_true]; exact (by apply BitVec.eq_of_toNat_eq; simp only [BitVec.toNat_ofNat]; omega)
theorem LaunchArgs.law (ok : Bool → LaunchArgs → Bool) : FormLaw LaunchArgs.form ok 0 := by
  refine FormLaw.of_pl (fun _ => rfl) (fun ex r => ?_) (fun ex r => ?_)
  · obtain ⟨d, a, b⟩ := r
    simp only [LaunchArgs.form, fld, LaunchArgs.mk.injEq]
    refine ⟨?_, ?_, ?_⟩
    · apply BitVec.eq_of_toNat_eq; simp only [BitVec.toNat_ofNat]; omega
    · apply BitVec.eq_of_toNat_eq; simp only [BitVec.toNat_ofNat]; omega
    · apply BitVec.eq_of_toNat_eq; simp only [BitVec.toNat_ofNat]; omega
  · simp only [LaunchArgs.form, fld, Bool.and_eq_true, beq_iff_eq, and_true]; exact (by apply BitVec.eq_of_toNat_eq; simp only [BitVec.toNat_ofNat]; omega)
theorem TilePair.law (ok : Bool → TilePair → Bool) : FormLaw TilePair.form ok 0 := by
  refine FormLaw.of_pl (fun _ => rfl) (fun ex r => ?_) (fun ex r => ?_)
  · obtain ⟨d, a⟩ := r
    simp only [TilePair.form, fld, TilePair.mk.injEq]
    refine ⟨?_, ?_⟩
    · apply BitVec.eq_of_toNat_eq; simp only [BitVec.toNat_ofNat]; omega
    · apply BitVec.eq_of_toNat_eq; simp only [BitVec.toNat_ofNat]; omega
  · simp only [TilePair.form, fld, Bool.and_eq_true, beq_iff_eq, and_true]
    refine ⟨⟨?_, ?_⟩, ?_⟩
    · apply BitVec.eq_of_toNat_eq; simp only [BitVec.toNat_ofNat]; omega
    · apply BitVec.eq_of_toNat_eq; simp only [BitVec.toNat_ofNat]; omega
    · apply BitVec.eq_of_toNat_eq; simp only [BitVec.toNat_ofNat]; omega
theorem KPair.law (k : Nat) (hk : k < 32) (ok : Bool → KPair → Bool) : FormLaw KPair.form ok k := by
  refine FormLaw.of_pl (fun _ => rfl) (fun ex r => ?_) (fun ex r => ?_)
  · obtain ⟨d, a⟩ := r
    simp only [KPair.form, fld, KPair.mk.injEq]
    refine ⟨?_, ?_⟩
    · apply BitVec.eq_of_toNat_eq; simp only [BitVec.toNat_ofNat]; omega
    · apply BitVec.eq_of_toNat_eq; simp only [BitVec.toNat_ofNat]; omega
  · simp only [KPair.form, fld, Bool.and_eq_true, beq_iff_eq, and_true]
    refine ⟨⟨?_, ?_⟩, ?_⟩
    · apply BitVec.eq_of_toNat_eq; simp only [BitVec.toNat_ofNat]; omega
    · apply BitVec.eq_of_toNat_eq; simp only [BitVec.toNat_ofNat]; omega
    · apply BitVec.eq_of_toNat_eq; simp only [BitVec.toNat_ofNat]; omega
theorem TileRead.law (k : Nat) (hk : k < 2) (ok : Bool → TileRead → Bool) : FormLaw TileRead.form ok k := by
  refine FormLaw.of_pl (fun _ => rfl) (fun ex r => ?_) (fun ex r => ?_)
  · obtain ⟨d, t, part, k, w⟩ := r
    simp only [TileRead.form, fld, TileRead.mk.injEq]
    refine ⟨?_, ?_, ?_, ?_, ?_⟩
    · apply BitVec.eq_of_toNat_eq; simp only [BitVec.toNat_ofNat]; omega
    · apply BitVec.eq_of_toNat_eq; simp only [BitVec.toNat_ofNat]; omega
    · apply BitVec.eq_of_toNat_eq; simp only [BitVec.toNat_ofNat]; omega
    · apply BitVec.eq_of_toNat_eq; simp only [BitVec.toNat_ofNat]; omega
    · have : fld (TileRead.form.pl ⟨d, t, part, k, w⟩) 0 2 = w ^^^ 2#2 := by
        simp only [TileRead.form, fld]; apply BitVec.eq_of_toNat_eq; simp only [BitVec.toNat_ofNat]; omega
      simp only [TileRead.form, fld] at this; rw [this, BitVec.xor_assoc, BitVec.xor_self, BitVec.xor_zero]
  · simp only [TileRead.form, fld, Bool.and_eq_true, beq_iff_eq]
    refine ⟨⟨?_, ?_⟩, ?_⟩
    · apply BitVec.eq_of_toNat_eq; simp only [BitVec.toNat_ofNat]; omega
    · apply BitVec.eq_of_toNat_eq; simp only [BitVec.toNat_ofNat]; omega
    · apply BitVec.eq_of_toNat_eq; simp only [BitVec.toNat_ofNat]; omega
theorem TileReadReg.law (k : Nat) (hk : k < 2) (ok : Bool → TileReadReg → Bool) : FormLaw TileReadReg.form ok k := by
  refine FormLaw.of_pl (fun _ => rfl) (fun ex r => ?_) (fun ex r => ?_)
  · obtain ⟨d, t, b, part, w⟩ := r
    simp only [TileReadReg.form, fld, TileReadReg.mk.injEq]
    refine ⟨?_, ?_, ?_, ?_, ?_⟩
    · apply BitVec.eq_of_toNat_eq; simp only [BitVec.toNat_ofNat]; omega
    · apply BitVec.eq_of_toNat_eq; simp only [BitVec.toNat_ofNat]; omega
    · apply BitVec.eq_of_toNat_eq; simp only [BitVec.toNat_ofNat]; omega
    · apply BitVec.eq_of_toNat_eq; simp only [BitVec.toNat_ofNat]; omega
    · have : fld (TileReadReg.form.pl ⟨d, t, b, part, w⟩) 0 2 = w ^^^ 2#2 := by
        simp only [TileReadReg.form, fld]; apply BitVec.eq_of_toNat_eq; simp only [BitVec.toNat_ofNat]; omega
      simp only [TileReadReg.form, fld] at this; rw [this, BitVec.xor_assoc, BitVec.xor_self, BitVec.xor_zero]
  · simp only [TileReadReg.form, fld, Bool.and_eq_true, beq_iff_eq]
    refine ⟨?_, ?_⟩
    · apply BitVec.eq_of_toNat_eq; simp only [BitVec.toNat_ofNat]; omega
    · apply BitVec.eq_of_toNat_eq; simp only [BitVec.toNat_ofNat]; omega
theorem RFile.ofCode_code (f : RFile) : RFile.ofCode f.code = f := by cases f <;> rfl
theorem RFile.code_lt (f : RFile) : f.code < 5 := by cases f <;> decide
theorem Xfer.fn_lt (a b : RFile) : Xfer.fn a b < 32 := by cases a <;> cases b <;> decide
theorem Xfer.fn_listed {a b : RFile} (h : a ≠ b) : Xfer.fn a b < 20 := by cases a <;> cases b <;> first | decide | exact absurd rfl h
/-- FN names a pair of files. -/
theorem Xfer.body_fn (r : Xfer) : (fld (Xfer.form.body 0 r) 0 5).toNat = Xfer.fn r.src r.dst := by
  have := Xfer.fn_lt r.src r.dst
  simp only [Xfer.form, fld, BitVec.toNat_ofNat]; omega
theorem Xfer.fn_src {a b : RFile} (h : a ≠ b) : RFile.ofCode (Xfer.fn a b / 4) = a := by cases a <;> cases b <;> first | rfl | exact absurd rfl h
theorem Xfer.fn_dst {a b : RFile} (h : a ≠ b) :
    RFile.ofCode (if Xfer.fn a b % 4 < Xfer.fn a b / 4 then Xfer.fn a b % 4 else Xfer.fn a b % 4 + 1) = b := by
  cases a <;> cases b <;> first | rfl | exact absurd rfl h
theorem Xfer.law : FormLaw Xfer.form (fun _ r => Xfer.limits.sel r) 0 := by
  refine ⟨fun ex r hs _ => ?_, fun ex r _ _ => ?_⟩
  · have hne : r.src ≠ r.dst := by simpa [Xfer.limits] using hs
    have hl := Xfer.body_fn r
    have hb := Xfer.fn_lt r.src r.dst
    obtain ⟨src, dst, d, a, e⟩ := r
    simp only [Xfer.form, Xfer.mk.injEq] at hl ⊢
    rw [hl]
    refine ⟨Xfer.fn_src hne, Xfer.fn_dst hne, ?_, ?_, ?_⟩ <;> (apply BitVec.eq_of_toNat_eq; simp only [fld, BitVec.toNat_ofNat]; omega)
  · have hb := Xfer.fn_lt r.src r.dst
    have hp : (if ex = true then (0#24) else 0#24) = 0#24 := by cases ex <;> rfl
    simp only [Xfer.form, fld, Bool.and_eq_true, beq_iff_eq]
    exact ⟨by apply BitVec.eq_of_toNat_eq; simp only [BitVec.toNat_ofNat]; omega, hp⟩
theorem DescField.law (k : Nat) (hk : k < 32) : FormLaw DescField.form (fun ex r => r.f.isImm || !ex) k := by
  refine ⟨fun ex r hs h => ?_, fun ex r hs h => ?_⟩
  · obtain ⟨d, a, f⟩ := r
    cases f with
    | imm pos wid =>
      obtain rfl : ex = true := h rfl
      simp only [DescField.form, fld, DescField.mk.injEq, ↓reduceIte, FieldSel.imm.injEq]
      refine ⟨?_, ?_, ?_, ?_⟩ <;> (apply BitVec.eq_of_toNat_eq; simp only [BitVec.toNat_ofNat]; omega)
    | reg b =>
      obtain rfl : ex = false := by simpa [FieldSel.isImm] using hs
      simp only [DescField.form, fld, DescField.mk.injEq, Bool.false_eq_true, ↓reduceIte, FieldSel.reg.injEq]
      refine ⟨?_, ?_, ?_⟩ <;> (apply BitVec.eq_of_toNat_eq; simp only [BitVec.toNat_ofNat]; omega)
  · obtain ⟨d, a, f⟩ := r
    cases f with
    | imm pos wid =>
      obtain rfl : ex = true := h rfl
      simp only [DescField.form, fld, ↓reduceIte, Bool.and_eq_true, beq_iff_eq]
      refine ⟨?_, ?_⟩ <;> (apply BitVec.eq_of_toNat_eq; simp only [BitVec.toNat_ofNat]; omega)
    | reg b =>
      obtain rfl : ex = false := by simpa [FieldSel.isImm] using hs
      rfl
/-- FN and D name files. -/
theorem ChkArgs.body_files (r : ChkArgs) : (fld (ChkArgs.form.body 0 r) 0 3).toNat = r.fa.code ∧ (fld (ChkArgs.form.body 0 r) 15 3).toNat = r.fb.code := by
  have ha := RFile.code_lt r.fa
  have hb := RFile.code_lt r.fb
  constructor <;> (simp only [ChkArgs.form, fld, BitVec.toNat_ofNat]; omega)
theorem ChkArgs.law (ok : Bool → ChkArgs → Bool) : FormLaw ChkArgs.form ok 0 := by
  refine FormLaw.of_pl (fun _ => rfl) (fun ex r => ?_) (fun ex r => ?_)
  · obtain ⟨fa, a, fb, b⟩ := r
    have ha := RFile.code_lt fa
    have hb := RFile.code_lt fb
    simp only [ChkArgs.form, fld, ChkArgs.mk.injEq]
    refine ⟨?_, ?_, ?_, ?_⟩
    · refine Eq.trans (congrArg RFile.ofCode ?_) (RFile.ofCode_code fa); simp only [BitVec.toNat_ofNat]; omega
    · apply BitVec.eq_of_toNat_eq; simp only [BitVec.toNat_ofNat]; omega
    · refine Eq.trans (congrArg RFile.ofCode ?_) (RFile.ofCode_code fb); simp only [BitVec.toNat_ofNat]; omega
    · apply BitVec.eq_of_toNat_eq; simp only [BitVec.toNat_ofNat]; omega
  · have ha := RFile.code_lt r.fa
    have hb := RFile.code_lt r.fb
    simp only [ChkArgs.form, fld, Bool.and_eq_true, beq_iff_eq]
    refine ⟨⟨?_, ?_⟩, trivial⟩
    · apply BitVec.eq_of_toNat_eq; simp only [BitVec.toNat_ofNat]; omega
    · apply BitVec.eq_of_toNat_eq; simp only [BitVec.toNat_ofNat]; omega


end Sys2Proof
end

