-- ==== Sys2Proof/Laws/PerInstr.lean ====
section
/-! SUPPORT. Decode and encode agree, instruction by instruction: the family RoundTrip. -/
namespace Sys2Proof
set_option Elab.async false

theorem b2n_lt (b : Bool) : b2n b < 2 := by cases b <;> decide
theorem bit0_b2n (b : Bool) {n : Nat} (h : n % 2 = b2n b) : bit0 (BitVec.ofNat 1 n) = b := by
  have : BitVec.ofNat 1 n = BitVec.ofNat 1 (b2n b) := by
    apply BitVec.eq_of_toNat_eq; simp only [BitVec.toNat_ofNat]; have := b2n_lt b; omega
  rw [this]; cases b <;> rfl
/-- The fields of a slot word and its extension are read as they were written (R298, R299). -/
theorem SlotBits.ofWords_words (s : SlotBits) (h : s.ex = false → s.av = false ∧ s.ag = false ∧ s.an = 0#6 ∧ s.pl = 0#24) :
    SlotBits.ofWords s.word (if s.ex then s.extWord else 0#32) = s := by
  obtain ⟨ex, op, pn, pi, body, av, ag, an, pl⟩ := s
  have h1 := b2n_lt ex
  have h2 := b2n_lt pi
  have h3 := b2n_lt av
  have h4 := b2n_lt ag
  have hex : bit0 (fld (SlotBits.word ⟨ex, op, pn, pi, body, av, ag, an, pl⟩) 31 1) = ex := by
    apply bit0_b2n; simp only [SlotBits.word, BitVec.toNat_ofNat]; omega
  have he : (if ex then (if ex then SlotBits.extWord ⟨ex, op, pn, pi, body, av, ag, an, pl⟩ else 0#32) else 0#32)
      = SlotBits.extWord ⟨ex, op, pn, pi, body, av, ag, an, pl⟩ := by
    cases ex with
    | true => rfl
    | false => obtain ⟨rfl, rfl, rfl, rfl⟩ := h rfl; simp [SlotBits.extWord, b2n]
  simp only [SlotBits.ofWords, hex, he, SlotBits.mk.injEq]
  refine ⟨trivial, ?_, ?_, ?_, ?_, ?_, ?_, ?_, ?_⟩
  · apply BitVec.eq_of_toNat_eq; simp only [fld, SlotBits.word, BitVec.toNat_ofNat]; omega
  · apply BitVec.eq_of_toNat_eq; simp only [fld, SlotBits.word, BitVec.toNat_ofNat]; omega
  · apply bit0_b2n; simp only [SlotBits.word, BitVec.toNat_ofNat]; omega
  · apply BitVec.eq_of_toNat_eq; simp only [fld, SlotBits.word, BitVec.toNat_ofNat]; omega
  · apply bit0_b2n; simp only [SlotBits.extWord, BitVec.toNat_ofNat]; omega
  · apply bit0_b2n; simp only [SlotBits.extWord, BitVec.toNat_ofNat]; omega
  · apply BitVec.eq_of_toNat_eq; simp only [fld, SlotBits.extWord, BitVec.toNat_ofNat]; omega
  · apply BitVec.eq_of_toNat_eq; simp only [fld, SlotBits.extWord, BitVec.toNat_ofNat]; omega

/-- The words of an encoding are decoded field by field. -/
theorem decodeWords_bits (iss : Issuer) (o : OpInfo) (e : Enc) :
    decodeWords iss o.slot (let s := e.bits o; if s.ex then [s.word, s.extWord] else [s.word]) = decodeBits iss o.slot (e.bits o) := by
  have h : SlotBits.ofWords (e.bits o).word (if (e.bits o).ex then (e.bits o).extWord else 0#32) = e.bits o := by
    apply SlotBits.ofWords_words
    intro hx
    have hx : (e.ext || o.arr.isSome) = false := hx
    rw [Bool.or_eq_false_iff] at hx
    have ha : o.arr = none := by cases h : o.arr with
      | none => rfl
      | some a => rw [h] at hx; exact absurd hx.2 (by simp)
    simp [Enc.bits, hx.1, ha]
  cases hx : (e.bits o).ex with
  | true =>
    rw [hx] at h
    simp only [if_true] at h
    show decodeWords iss o.slot (if (e.bits o).ex then _ else _) = _
    rw [hx]; simp only [if_true, decodeWords, decodeSlot, h]
  | false =>
    rw [hx] at h
    simp only [Bool.false_eq_true, if_false] at h
    show decodeWords iss o.slot (if (e.bits o).ex then _ else _) = _
    rw [hx]; simp only [Bool.false_eq_true, if_false, decodeWords, decodeSlot, h]
/-- Guard and arrival are read as they were written. -/
theorem info_bits (o : OpInfo) (e : Enc) : (e.bits o).info o.slot = o := by
  obtain ⟨sl, pn, pi, arr⟩ := o
  cases arr with
  | none => rfl
  | some a =>
    cases a with
    | flag f =>
      have : fld (f.setWidth 6) 0 4 = f := by
        apply BitVec.eq_of_toNat_eq; simp only [fld, BitVec.toNat_ofNat, BitVec.toNat_setWidth]; omega
      simp [SlotBits.info, Enc.bits, arrivalOf, Arrival.ag, Arrival.an, this]
    | barrier g => simp [SlotBits.info, Enc.bits, arrivalOf, Arrival.ag, Arrival.an]
/-- Guard and extension of a well-formed operation pass the checks of R298 and R299. -/
theorem head_bits {svc : Bool} {slots : List Slot} {o : OpInfo} (h : o.ok svc slots = true) (e : Enc) :
    (!svc || (e.bits o).pn == 0#4) = true ∧ (!((e.bits o).pn == 0#4 && (e.bits o).pi) && extOk svc (e.bits o)) = true ∧ slots.contains o.slot = true := by
  obtain ⟨sl, pn, pi, arr⟩ := o
  simp only [OpInfo.ok, Bool.and_eq_true] at h
  obtain ⟨⟨hs, hg⟩, hv⟩ := h
  refine ⟨?_, ?_, hs⟩
  · cases svc with
    | false => rfl
    | true => simp at hv; simp [Enc.bits, hv.1]
  · rw [Bool.and_eq_true]
    refine ⟨hg, ?_⟩
    cases arr with
    | none => rfl
    | some a =>
      have hsvc : svc = false := by cases svc with
        | false => rfl
        | true => simp at hv
      subst hsvc
      cases a with
      | flag f =>
        have : fld (f.setWidth 6) 4 2 = 0#2 := by
          apply BitVec.eq_of_toNat_eq; simp only [fld, BitVec.toNat_ofNat, BitVec.toNat_setWidth]; omega
        simp [Enc.bits, extOk, Arrival.ag, Arrival.an, this]
      | barrier g => simp [Enc.bits, extOk, Arrival.ag]

theorem decodeRow_ok {iss : Issuer} {sl : Slot} {s : SlotBits} {row : Row} (hs : issues iss sl s.op.toNat = true)
    (hr : rowOf sl s.op.toNat s.ex s.body s.pl = .ok row)
    (hc : row.check ⟨sl, iss == .svc, !(iss == .svc) || s.pn == 0#4, !(s.pn == 0#4 && s.pi) && extOk (iss == .svc) s⟩ s.ex s.body s.pl = .ok ()) :
    decodeRow iss sl s = .ok row := by
  simp only [decodeRow, hs, hr, hc, Bool.not_true, Bool.false_eq_true, if_false]
/-- Decode after encode, for an operation of a form. -/
theorem decode_enc {α : Type} {f : Form α} {l : Limits α} {ok : Bool → α → Bool} {k op : Nat} {iss : Issuer} {o : OpInfo} {r : α}
    {slots : List Slot} {row : Row} {mk : α → Instr} (law : FormLaw f ok k) (hop : op < 64)
    (hi : ∀ ex b p, row.instr o ex b p = mk (f.get ex b p)) (hc : ∀ h ex b p, row.check h ex b p = checkForm f l h ex b p)
    (hr : ∀ sl ∈ slots, ∀ ex, (f.ext r = true → ex = true) → rowOf sl op ex (f.body k r) (if ex then f.pl r else 0#24) = .ok row)
    (hok : ok (f.ext r || o.arr.isSome) r = true) (hw : o.ok (iss == .svc) slots = true) (hl : l.ok o.slot (iss == .svc) r = true)
    (hs : issues iss o.slot (BitVec.ofNat 6 op).toNat = true) :
    decodeWords iss o.slot (let s := (f.enc op k r).bits o; if s.ex then [s.word, s.extWord] else [s.word]) = .ok (mk r) := by
  rw [decodeWords_bits iss o _]
  obtain ⟨h1, h2, h3⟩ := head_bits hw (f.enc op k r)
  have hex : f.ext r = true → (f.ext r || o.arr.isSome) = true := fun h => by rw [h]; rfl
  have hop' : (BitVec.ofNat 6 op).toNat = op := by rw [BitVec.toNat_ofNat]; omega
  have hrow := hr o.slot (by simpa using h3) _ hex
  have hg := law.get _ r hok hex
  have hz := law.zero _ r hok hex
  simp only [Limits.ok, Bool.and_eq_true] at hl
  have hck : checkForm f l ⟨o.slot, iss == .svc, !(iss == .svc) || ((f.enc op k r).bits o).pn == 0#4,
      !(((f.enc op k r).bits o).pn == 0#4 && ((f.enc op k r).bits o).pi) && extOk (iss == .svc) ((f.enc op k r).bits o)⟩
      (f.ext r || o.arr.isSome) (f.body k r) (if f.ext r || o.arr.isSome then f.pl r else 0#24) = .ok () := by
    simp only [checkForm, hg, hz, hl, h1, h2, Bool.and_true, Bool.not_true, Bool.false_eq_true, if_false]
  have hd : decodeRow iss o.slot ((f.enc op k r).bits o) = .ok row := by
    refine decodeRow_ok hs ?_ ((hc _ _ _ _).trans hck)
    have : ((f.enc op k r).bits o).op.toNat = op := hop'
    rw [this]; exact hrow
  simp only [decodeBits, hd, info_bits, hi]
  exact congrArg Except.ok (congrArg mk hg)
/-- The same for an operation without operands. -/
theorem decode_encZ {op : BitVec 6} {iss : Issuer} {o : OpInfo} {slots : List Slot} {row : Row} {i : Instr}
    (hi : ∀ ex b p, row.instr o ex b p = i) (hc : ∀ h ex b p, row.check h ex b p = checkZ h b p)
    (hr : ∀ sl ∈ slots, ∀ ex, rowOf sl op.toNat ex 0#20 0#24 = .ok row) (hw : o.ok (iss == .svc) slots = true)
    (hs : issues iss o.slot op.toNat = true) :
    decodeWords iss o.slot (let s := Enc.bits o ⟨op, 0#20, 0#24, false⟩; if s.ex then [s.word, s.extWord] else [s.word]) = .ok i := by
  rw [decodeWords_bits iss o _]
  obtain ⟨h1, h2, h3⟩ := head_bits hw ⟨op, 0#20, 0#24, false⟩
  have hp : (Enc.bits o ⟨op, 0#20, 0#24, false⟩).pl = 0#24 := ite_self _
  have hd : decodeRow iss o.slot (Enc.bits o ⟨op, 0#20, 0#24, false⟩) = .ok row := by
    refine decodeRow_ok hs ?_ ((hc _ _ _ _).trans ?_)
    · rw [hp]; exact hr o.slot (by simpa using h3) _
    · have hb : (Enc.bits o ⟨op, 0#20, 0#24, false⟩).body = 0#20 := rfl
      rw [hp, hb]
      simp only [checkZ, h1, h2, beq_self_eq_true, Bool.and_true, Bool.not_true, Bool.false_eq_true, if_false]
  simp only [decodeBits, hd, info_bits]
  exact congrArg Except.ok (hi _ _ _)

end Sys2Proof

namespace Sys2Proof.Laws.RoundTrip
set_option Elab.async false
open Sys2Proof

/-- On every issuer that has the operation, decoding the words that encode writes for a well-formed instruction gives it back; an
event has no words (R298-R312, R469). -/
def Statement (i : Instr) : Prop :=
  ∀ iss : Issuer, WellFormed (iss == .svc) i = true →
    match encodeParts i with
    | none => encode i = []
    | some (o, e) => issues iss o.slot e.op.toNat = true → decodeWords iss o.slot (encode i) = .ok i

theorem two {P Q : Bool} (h : (P && Q) = true) : P = true ∧ Q = true := by simpa using h

theorem packageReset : Statement (.packageReset) := fun _ _ => rfl
theorem bootImageVerify (img : BootImage) : Statement (.bootImageVerify img) := fun _ _ => rfl
theorem clusterPowerUp (n : BitVec 6) : Statement (.clusterPowerUp n) := fun _ _ => rfl
theorem arrayPowerGate (core : Nat) : Statement (.arrayPowerGate core) := fun _ _ => rfl
theorem arrayEnable (core : Nat) : Statement (.arrayEnable core) := fun _ _ => rfl
theorem oftFrameReceive (port : BitVec 3) (f : PortFrame) : Statement (.oftFrameReceive port f) := fun _ _ => rfl
theorem oftPutFlagIncrement (k : Nat) : Statement (.oftPutFlagIncrement k) := fun _ _ => rfl
theorem oftRetransmit (k : Nat) : Statement (.oftRetransmit k) := fun _ _ => rfl
theorem oftAckTimeout (k : Nat) : Statement (.oftAckTimeout k) := fun _ _ => rfl
theorem portLinkDown (port : BitVec 3) : Statement (.portLinkDown port) := fun _ _ => rfl
theorem portLinkUp (port : BitVec 3) (full : Bool) : Statement (.portLinkUp port full) := fun _ _ => rfl
theorem portFailover (node : BitVec 12) (cls : BitVec 4) (port : BitVec 3) : Statement (.portFailover node cls port) := fun _ _ => rfl
theorem portStatClr (port : BitVec 3) : Statement (.portStatClr port) := fun _ _ => rfl
theorem portDisable (port : BitVec 3) : Statement (.portDisable port) := fun _ _ => rfl
theorem hostMemRead (pa : BitVec 52) (n : Nat) : Statement (.hostMemRead pa n) := fun _ _ => rfl
theorem hostMemWrite (pa : BitVec 52) (data : List Byte) : Statement (.hostMemWrite pa data) := fun _ _ => rfl
theorem backInvalidateResponse (line : BitVec 46) : Statement (.backInvalidateResponse line) := fun _ _ => rfl
theorem hostSnoop (line : BitVec 46) : Statement (.hostSnoop line) := fun _ _ => rfl
theorem hostAccessTimeout (core k : Nat) : Statement (.hostAccessTimeout core k) := fun _ _ => rfl
theorem hostLinkDown : Statement (.hostLinkDown) := fun _ _ => rfl
theorem hostLinkTrain (width : BitVec 5) (rate : BitVec 8) : Statement (.hostLinkTrain width rate) := fun _ _ => rfl
theorem streamEnable (n : BitVec 6) : Statement (.streamEnable n) := fun _ _ => rfl
theorem launchComplete (k : Nat) : Statement (.launchComplete k) := fun _ _ => rfl
theorem expPortIsolate : Statement (.expPortIsolate) := fun _ _ => rfl
theorem expIsolationEnd : Statement (.expIsolationEnd) := fun _ _ => rfl
theorem expPoisonSweepDone : Statement (.expPoisonSweepDone) := fun _ _ => rfl
theorem expRetrain : Statement (.expRetrain) := fun _ _ => rfl
theorem expLinkChange (up : Bool) (speed : BitVec 2) (capacity : Nat) : Statement (.expLinkChange up speed capacity) := fun _ _ => rfl
theorem tier2ReadResponse (pa : BitVec 52) (poison : Bool) : Statement (.tier2ReadResponse pa poison) := fun _ _ => rfl
theorem bootFromHost (img : List Byte) : Statement (.bootFromHost img) := fun _ _ => rfl
theorem verifyAndWriteFlash (img : List Byte) : Statement (.verifyAndWriteFlash img) := fun _ _ => rfl
theorem attestationRequest (nonce : BitVec 256) : Statement (.attestationRequest nonce) := fun _ _ => rfl
theorem keyLoad (k : BitVec 6) : Statement (.keyLoad k) := fun _ _ => rfl
theorem keyGen (k : BitVec 6) : Statement (.keyGen k) := fun _ _ => rfl
theorem keyZero (k : BitVec 6) : Statement (.keyZero k) := fun _ _ => rfl
theorem keyCommandComplete (k : BitVec 6) : Statement (.keyCommandComplete k) := fun _ _ => rfl
theorem setEndpointId (eid : BitVec 8) : Statement (.setEndpointId eid) := fun _ _ => rfl
theorem getEndpointId : Statement (.getEndpointId) := fun _ _ => rfl
theorem getMessageTypeSupport : Statement (.getMessageTypeSupport) := fun _ _ => rfl
theorem i3cDynamicAddressAssignment (addr : BitVec 7) : Statement (.i3cDynamicAddressAssignment addr) := fun _ _ => rfl
theorem cap (msg : BitVec 384) : Statement (.cap msg) := fun _ _ => rfl
theorem readTelemetry : Statement (.readTelemetry) := fun _ _ => rfl
theorem dumpStatus : Statement (.dumpStatus) := fun _ _ => rfl
theorem alertAcknowledge (kind : BitVec 8) : Statement (.alertAcknowledge kind) := fun _ _ => rfl
theorem packageFatal (cause : Cause) : Statement (.packageFatal cause) := fun _ _ => rfl
theorem rotWatchdogExpire : Statement (.rotWatchdogExpire) := fun _ _ => rfl
theorem thermalTrip : Statement (.thermalTrip) := fun _ _ => rfl
theorem dumpWritten : Statement (.dumpWritten) := fun _ _ => rfl
theorem dumpRelease : Statement (.dumpRelease) := fun _ _ => rfl
theorem settlingWindowEnd (core : Nat) : Statement (.settlingWindowEnd core) := fun _ _ => rfl
theorem railOvercurrent (rail : BitVec 3) : Statement (.railOvercurrent rail) := fun _ _ => rfl
theorem railCeilingLowerStep (rail : RailCurrent) : Statement (.railCeilingLowerStep rail) := fun _ _ => rfl
theorem railCeilingRaiseStep (rail : BitVec 3) : Statement (.railCeilingRaiseStep rail) := fun _ _ => rfl
theorem phaseFail (rail : BitVec 3) : Statement (.phaseFail rail) := fun _ _ => rfl
theorem thermalCeilingStep (die : BitVec 2) (temp : BitVec 8) : Statement (.thermalCeilingStep die temp) := fun _ _ => rfl
theorem grantRecompute (used : Nat) : Statement (.grantRecompute used) := fun _ _ => rfl
theorem placementDecision : Statement (.placementDecision) := fun _ _ => rfl
theorem chunkStart (core : Nat) : Statement (.chunkStart core) := fun _ _ => rfl
theorem tailTileRequest (core : Nat) : Statement (.tailTileRequest core) := fun _ _ => rfl
theorem preemptRequest (core : Nat) : Statement (.preemptRequest core) := fun _ _ => rfl
theorem preemptGraceExpire (core : Nat) : Statement (.preemptGraceExpire core) := fun _ _ => rfl
theorem chunkSwitchIn (core : Nat) : Statement (.chunkSwitchIn core) := fun _ _ => rfl
theorem checkpointBoundOverrun (core : Nat) : Statement (.checkpointBoundOverrun core) := fun _ _ => rfl
theorem gangStart (launch : Nat) : Statement (.gangStart launch) := fun _ _ => rfl
theorem gangWaitTimeout (launch : Nat) : Statement (.gangWaitTimeout launch) := fun _ _ => rfl
theorem barrierArrival (k : Nat) : Statement (.barrierArrival k) := fun _ _ => rfl
theorem homeSliceAccess (k : Nat) : Statement (.homeSliceAccess k) := fun _ _ => rfl
theorem sliceRetireComplete (slice : Nat) : Statement (.sliceRetireComplete slice) := fun _ _ => rfl
theorem l2FillReturn (pa : BitVec 52) : Statement (.l2FillReturn pa) := fun _ _ => rfl
theorem patrolScrub (t : ScrubTarget) : Statement (.patrolScrub t) := fun _ _ => rfl
theorem blazeMapSave : Statement (.blazeMapSave) := fun _ _ => rfl
theorem errorInject : Statement (.errorInject) := fun _ _ => rfl
theorem updatePairAdmit (k : Nat) : Statement (.updatePairAdmit k) := fun _ _ => rfl
theorem regionRegisterWrite (off : Nat) (v : Word) : Statement (.regionRegisterWrite off v) := fun _ _ => rfl
theorem bundleIssue (core : Nat) : Statement (.bundleIssue core) := fun _ _ => rfl
theorem stallBundle (core : Nat) : Statement (.stallBundle core) := fun _ _ => rfl
theorem stretchCycle (core : Nat) : Statement (.stretchCycle core) := fun _ _ => rfl
theorem serviceBundleIssue (core : Nat) : Statement (.serviceBundleIssue core) := fun _ _ => rfl
theorem handlerStart (core : Nat) : Statement (.handlerStart core) := fun _ _ => rfl
theorem serviceTimer (core : Nat) : Statement (.serviceTimer core) := fun _ _ => rfl
theorem coreResume (core : Nat) : Statement (.coreResume core) := fun _ _ => rfl
theorem contextTerminate (ctx : BitVec 6) (cause : Cause) : Statement (.contextTerminate ctx cause) := fun _ _ => rfl
theorem contextTerminationDone (ctx : BitVec 6) : Statement (.contextTerminationDone ctx) := fun _ _ => rfl
theorem fsqEnable : Statement (.fsqEnable) := fun _ _ => rfl
theorem bankFillStart (core : Nat) : Statement (.bankFillStart core) := fun _ _ => rfl
theorem bankFillDone (core : Nat) : Statement (.bankFillDone core) := fun _ _ => rfl
theorem sideCarComputeDone (core : Nat) : Statement (.sideCarComputeDone core) := fun _ _ => rfl
theorem passStart (core : Nat) : Statement (.passStart core) := fun _ _ => rfl
theorem passDrainDone (core : Nat) : Statement (.passDrainDone core) := fun _ _ => rfl
theorem tileUnitOpDone (core : Nat) : Statement (.tileUnitOpDone core) := fun _ _ => rfl
theorem engineCauseReport (core : Nat) : Statement (.engineCauseReport core) := fun _ _ => rfl
theorem copyComplete (core k : Nat) : Statement (.copyComplete core k) := fun _ _ => rfl
theorem queueLoaderRead (core : Nat) : Statement (.queueLoaderRead core) := fun _ _ => rfl
theorem dqEntryFilled (core : Nat) : Statement (.dqEntryFilled core) := fun _ _ => rfl
theorem globalLoadComplete (core k : Nat) : Statement (.globalLoadComplete core k) := fun _ _ => rfl
theorem atomicComplete (core k : Nat) : Statement (.atomicComplete core k) := fun _ _ => rfl
theorem remotePostDeliver (k : Nat) : Statement (.remotePostDeliver k) := fun _ _ => rfl
theorem waitlineWake (core k : Nat) : Statement (.waitlineWake core k) := fun _ _ => rfl
theorem waitlineTimeout (core k : Nat) : Statement (.waitlineTimeout core k) := fun _ _ => rfl
theorem launchAnswer (core : Nat) : Statement (.launchAnswer core) := fun _ _ => rfl
theorem registerWrite (off : Nat) (v : Word) : Statement (.registerWrite off v) := fun _ _ => rfl
theorem nop (o : OpInfo) : Statement (.nop o) := fun iss hw hs =>
  decode_encZ (row := .nop) (slots := [.s, .x]) (fun _ _ _ => rfl) (fun _ _ _ _ => rfl) (fun sl hsl ex => by
    simp only [List.mem_cons, List.not_mem_nil, or_false] at hsl; rcases hsl with rfl | rfl <;> rfl) hw hs
theorem add (o : OpInfo) (r : RRR) : Statement (.add o r) := fun iss hw hs =>
  decode_enc (l := RRR.limits) (row := .add) (mk := .add o) (slots := [.s, .x]) (RRR.law 0 (by decide) (fun _ _ => true)) (by decide) (fun _ _ _ => rfl) (fun _ _ _ _ => rfl) (fun sl hsl ex hex => by
    simp only [List.mem_cons, List.not_mem_nil, or_false] at hsl
    have h0 : fld (RRR.form.body 0 r) 0 5 = 0#5 := by
      apply BitVec.eq_of_toNat_eq; simp only [RRR.form, fld, BitVec.toNat_ofNat]; omega
    rcases hsl with rfl | rfl <;> simp [rowOf, rowS, rowX, rowSX, rowSX01, h0]) rfl (two hw).1 (two hw).2 hs
theorem sub (o : OpInfo) (r : RRR) : Statement (.sub o r) := fun iss hw hs =>
  decode_enc (l := RRR.limits) (row := .sub) (mk := .sub o) (slots := [.s, .x]) (RRR.law 1 (by decide) (fun _ _ => true)) (by decide) (fun _ _ _ => rfl) (fun _ _ _ _ => rfl) (fun sl hsl ex hex => by
    simp only [List.mem_cons, List.not_mem_nil, or_false] at hsl
    have h0 : fld (RRR.form.body 1 r) 0 5 = 1#5 := by
      apply BitVec.eq_of_toNat_eq; simp only [RRR.form, fld, BitVec.toNat_ofNat]; omega
    rcases hsl with rfl | rfl <;> simp [rowOf, rowS, rowX, rowSX, rowSX01, h0]) rfl (two hw).1 (two hw).2 hs
theorem and (o : OpInfo) (r : RRR) : Statement (.and o r) := fun iss hw hs =>
  decode_enc (l := RRR.limits) (row := .and) (mk := .and o) (slots := [.s, .x]) (RRR.law 2 (by decide) (fun _ _ => true)) (by decide) (fun _ _ _ => rfl) (fun _ _ _ _ => rfl) (fun sl hsl ex hex => by
    simp only [List.mem_cons, List.not_mem_nil, or_false] at hsl
    have h0 : fld (RRR.form.body 2 r) 0 5 = 2#5 := by
      apply BitVec.eq_of_toNat_eq; simp only [RRR.form, fld, BitVec.toNat_ofNat]; omega
    rcases hsl with rfl | rfl <;> simp [rowOf, rowS, rowX, rowSX, rowSX01, h0]) rfl (two hw).1 (two hw).2 hs
theorem or (o : OpInfo) (r : RRR) : Statement (.or o r) := fun iss hw hs =>
  decode_enc (l := RRR.limits) (row := .or) (mk := .or o) (slots := [.s, .x]) (RRR.law 3 (by decide) (fun _ _ => true)) (by decide) (fun _ _ _ => rfl) (fun _ _ _ _ => rfl) (fun sl hsl ex hex => by
    simp only [List.mem_cons, List.not_mem_nil, or_false] at hsl
    have h0 : fld (RRR.form.body 3 r) 0 5 = 3#5 := by
      apply BitVec.eq_of_toNat_eq; simp only [RRR.form, fld, BitVec.toNat_ofNat]; omega
    rcases hsl with rfl | rfl <;> simp [rowOf, rowS, rowX, rowSX, rowSX01, h0]) rfl (two hw).1 (two hw).2 hs
theorem xor (o : OpInfo) (r : RRR) : Statement (.xor o r) := fun iss hw hs =>
  decode_enc (l := RRR.limits) (row := .xor) (mk := .xor o) (slots := [.s, .x]) (RRR.law 4 (by decide) (fun _ _ => true)) (by decide) (fun _ _ _ => rfl) (fun _ _ _ _ => rfl) (fun sl hsl ex hex => by
    simp only [List.mem_cons, List.not_mem_nil, or_false] at hsl
    have h0 : fld (RRR.form.body 4 r) 0 5 = 4#5 := by
      apply BitVec.eq_of_toNat_eq; simp only [RRR.form, fld, BitVec.toNat_ofNat]; omega
    rcases hsl with rfl | rfl <;> simp [rowOf, rowS, rowX, rowSX, rowSX01, h0]) rfl (two hw).1 (two hw).2 hs
theorem andn (o : OpInfo) (r : RRR) : Statement (.andn o r) := fun iss hw hs =>
  decode_enc (l := RRR.limits) (row := .andn) (mk := .andn o) (slots := [.s, .x]) (RRR.law 5 (by decide) (fun _ _ => true)) (by decide) (fun _ _ _ => rfl) (fun _ _ _ _ => rfl) (fun sl hsl ex hex => by
    simp only [List.mem_cons, List.not_mem_nil, or_false] at hsl
    have h0 : fld (RRR.form.body 5 r) 0 5 = 5#5 := by
      apply BitVec.eq_of_toNat_eq; simp only [RRR.form, fld, BitVec.toNat_ofNat]; omega
    rcases hsl with rfl | rfl <;> simp [rowOf, rowS, rowX, rowSX, rowSX01, h0]) rfl (two hw).1 (two hw).2 hs
theorem shl (o : OpInfo) (r : RRR) : Statement (.shl o r) := fun iss hw hs =>
  decode_enc (l := RRR.limits) (row := .shl) (mk := .shl o) (slots := [.s, .x]) (RRR.law 6 (by decide) (fun _ _ => true)) (by decide) (fun _ _ _ => rfl) (fun _ _ _ _ => rfl) (fun sl hsl ex hex => by
    simp only [List.mem_cons, List.not_mem_nil, or_false] at hsl
    have h0 : fld (RRR.form.body 6 r) 0 5 = 6#5 := by
      apply BitVec.eq_of_toNat_eq; simp only [RRR.form, fld, BitVec.toNat_ofNat]; omega
    rcases hsl with rfl | rfl <;> simp [rowOf, rowS, rowX, rowSX, rowSX01, h0]) rfl (two hw).1 (two hw).2 hs
theorem shr (o : OpInfo) (r : RRR) : Statement (.shr o r) := fun iss hw hs =>
  decode_enc (l := RRR.limits) (row := .shr) (mk := .shr o) (slots := [.s, .x]) (RRR.law 7 (by decide) (fun _ _ => true)) (by decide) (fun _ _ _ => rfl) (fun _ _ _ _ => rfl) (fun sl hsl ex hex => by
    simp only [List.mem_cons, List.not_mem_nil, or_false] at hsl
    have h0 : fld (RRR.form.body 7 r) 0 5 = 7#5 := by
      apply BitVec.eq_of_toNat_eq; simp only [RRR.form, fld, BitVec.toNat_ofNat]; omega
    rcases hsl with rfl | rfl <;> simp [rowOf, rowS, rowX, rowSX, rowSX01, h0]) rfl (two hw).1 (two hw).2 hs
theorem sra (o : OpInfo) (r : RRR) : Statement (.sra o r) := fun iss hw hs =>
  decode_enc (l := RRR.limits) (row := .sra) (mk := .sra o) (slots := [.s, .x]) (RRR.law 8 (by decide) (fun _ _ => true)) (by decide) (fun _ _ _ => rfl) (fun _ _ _ _ => rfl) (fun sl hsl ex hex => by
    simp only [List.mem_cons, List.not_mem_nil, or_false] at hsl
    have h0 : fld (RRR.form.body 8 r) 0 5 = 8#5 := by
      apply BitVec.eq_of_toNat_eq; simp only [RRR.form, fld, BitVec.toNat_ofNat]; omega
    rcases hsl with rfl | rfl <;> simp [rowOf, rowS, rowX, rowSX, rowSX01, h0]) rfl (two hw).1 (two hw).2 hs
theorem rol (o : OpInfo) (r : RRR) : Statement (.rol o r) := fun iss hw hs =>
  decode_enc (l := RRR.limits) (row := .rol) (mk := .rol o) (slots := [.s, .x]) (RRR.law 9 (by decide) (fun _ _ => true)) (by decide) (fun _ _ _ => rfl) (fun _ _ _ _ => rfl) (fun sl hsl ex hex => by
    simp only [List.mem_cons, List.not_mem_nil, or_false] at hsl
    have h0 : fld (RRR.form.body 9 r) 0 5 = 9#5 := by
      apply BitVec.eq_of_toNat_eq; simp only [RRR.form, fld, BitVec.toNat_ofNat]; omega
    rcases hsl with rfl | rfl <;> simp [rowOf, rowS, rowX, rowSX, rowSX01, h0]) rfl (two hw).1 (two hw).2 hs
theorem mul (o : OpInfo) (r : RRR) : Statement (.mul o r) := fun iss hw hs =>
  decode_enc (l := RRR.limits) (row := .mul) (mk := .mul o) (slots := [.s, .x]) (RRR.law 10 (by decide) (fun _ _ => true)) (by decide) (fun _ _ _ => rfl) (fun _ _ _ _ => rfl) (fun sl hsl ex hex => by
    simp only [List.mem_cons, List.not_mem_nil, or_false] at hsl
    have h0 : fld (RRR.form.body 10 r) 0 5 = 10#5 := by
      apply BitVec.eq_of_toNat_eq; simp only [RRR.form, fld, BitVec.toNat_ofNat]; omega
    rcases hsl with rfl | rfl <;> simp [rowOf, rowS, rowX, rowSX, rowSX01, h0]) rfl (two hw).1 (two hw).2 hs
theorem mulhs (o : OpInfo) (r : RRR) : Statement (.mulhs o r) := fun iss hw hs =>
  decode_enc (l := RRR.limits) (row := .mulhs) (mk := .mulhs o) (slots := [.s, .x]) (RRR.law 11 (by decide) (fun _ _ => true)) (by decide) (fun _ _ _ => rfl) (fun _ _ _ _ => rfl) (fun sl hsl ex hex => by
    simp only [List.mem_cons, List.not_mem_nil, or_false] at hsl
    have h0 : fld (RRR.form.body 11 r) 0 5 = 11#5 := by
      apply BitVec.eq_of_toNat_eq; simp only [RRR.form, fld, BitVec.toNat_ofNat]; omega
    rcases hsl with rfl | rfl <;> simp [rowOf, rowS, rowX, rowSX, rowSX01, h0]) rfl (two hw).1 (two hw).2 hs
theorem mulhu (o : OpInfo) (r : RRR) : Statement (.mulhu o r) := fun iss hw hs =>
  decode_enc (l := RRR.limits) (row := .mulhu) (mk := .mulhu o) (slots := [.s, .x]) (RRR.law 12 (by decide) (fun _ _ => true)) (by decide) (fun _ _ _ => rfl) (fun _ _ _ _ => rfl) (fun sl hsl ex hex => by
    simp only [List.mem_cons, List.not_mem_nil, or_false] at hsl
    have h0 : fld (RRR.form.body 12 r) 0 5 = 12#5 := by
      apply BitVec.eq_of_toNat_eq; simp only [RRR.form, fld, BitVec.toNat_ofNat]; omega
    rcases hsl with rfl | rfl <;> simp [rowOf, rowS, rowX, rowSX, rowSX01, h0]) rfl (two hw).1 (two hw).2 hs
theorem min (o : OpInfo) (r : RRR) : Statement (.min o r) := fun iss hw hs =>
  decode_enc (l := RRR.limits) (row := .min) (mk := .min o) (slots := [.s, .x]) (RRR.law 13 (by decide) (fun _ _ => true)) (by decide) (fun _ _ _ => rfl) (fun _ _ _ _ => rfl) (fun sl hsl ex hex => by
    simp only [List.mem_cons, List.not_mem_nil, or_false] at hsl
    have h0 : fld (RRR.form.body 13 r) 0 5 = 13#5 := by
      apply BitVec.eq_of_toNat_eq; simp only [RRR.form, fld, BitVec.toNat_ofNat]; omega
    rcases hsl with rfl | rfl <;> simp [rowOf, rowS, rowX, rowSX, rowSX01, h0]) rfl (two hw).1 (two hw).2 hs
theorem max (o : OpInfo) (r : RRR) : Statement (.max o r) := fun iss hw hs =>
  decode_enc (l := RRR.limits) (row := .max) (mk := .max o) (slots := [.s, .x]) (RRR.law 14 (by decide) (fun _ _ => true)) (by decide) (fun _ _ _ => rfl) (fun _ _ _ _ => rfl) (fun sl hsl ex hex => by
    simp only [List.mem_cons, List.not_mem_nil, or_false] at hsl
    have h0 : fld (RRR.form.body 14 r) 0 5 = 14#5 := by
      apply BitVec.eq_of_toNat_eq; simp only [RRR.form, fld, BitVec.toNat_ofNat]; omega
    rcases hsl with rfl | rfl <;> simp [rowOf, rowS, rowX, rowSX, rowSX01, h0]) rfl (two hw).1 (two hw).2 hs
theorem minu (o : OpInfo) (r : RRR) : Statement (.minu o r) := fun iss hw hs =>
  decode_enc (l := RRR.limits) (row := .minu) (mk := .minu o) (slots := [.s, .x]) (RRR.law 15 (by decide) (fun _ _ => true)) (by decide) (fun _ _ _ => rfl) (fun _ _ _ _ => rfl) (fun sl hsl ex hex => by
    simp only [List.mem_cons, List.not_mem_nil, or_false] at hsl
    have h0 : fld (RRR.form.body 15 r) 0 5 = 15#5 := by
      apply BitVec.eq_of_toNat_eq; simp only [RRR.form, fld, BitVec.toNat_ofNat]; omega
    rcases hsl with rfl | rfl <;> simp [rowOf, rowS, rowX, rowSX, rowSX01, h0]) rfl (two hw).1 (two hw).2 hs
theorem maxu (o : OpInfo) (r : RRR) : Statement (.maxu o r) := fun iss hw hs =>
  decode_enc (l := RRR.limits) (row := .maxu) (mk := .maxu o) (slots := [.s, .x]) (RRR.law 16 (by decide) (fun _ _ => true)) (by decide) (fun _ _ _ => rfl) (fun _ _ _ _ => rfl) (fun sl hsl ex hex => by
    simp only [List.mem_cons, List.not_mem_nil, or_false] at hsl
    have h0 : fld (RRR.form.body 16 r) 0 5 = 16#5 := by
      apply BitVec.eq_of_toNat_eq; simp only [RRR.form, fld, BitVec.toNat_ofNat]; omega
    rcases hsl with rfl | rfl <;> simp [rowOf, rowS, rowX, rowSX, rowSX01, h0]) rfl (two hw).1 (two hw).2 hs
theorem addw (o : OpInfo) (r : RRR) : Statement (.addw o r) := fun iss hw hs =>
  decode_enc (l := RRR.limits) (row := .addw) (mk := .addw o) (slots := [.s, .x]) (RRR.law 17 (by decide) (fun _ _ => true)) (by decide) (fun _ _ _ => rfl) (fun _ _ _ _ => rfl) (fun sl hsl ex hex => by
    simp only [List.mem_cons, List.not_mem_nil, or_false] at hsl
    have h0 : fld (RRR.form.body 17 r) 0 5 = 17#5 := by
      apply BitVec.eq_of_toNat_eq; simp only [RRR.form, fld, BitVec.toNat_ofNat]; omega
    rcases hsl with rfl | rfl <;> simp [rowOf, rowS, rowX, rowSX, rowSX01, h0]) rfl (two hw).1 (two hw).2 hs
theorem subw (o : OpInfo) (r : RRR) : Statement (.subw o r) := fun iss hw hs =>
  decode_enc (l := RRR.limits) (row := .subw) (mk := .subw o) (slots := [.s, .x]) (RRR.law 18 (by decide) (fun _ _ => true)) (by decide) (fun _ _ _ => rfl) (fun _ _ _ _ => rfl) (fun sl hsl ex hex => by
    simp only [List.mem_cons, List.not_mem_nil, or_false] at hsl
    have h0 : fld (RRR.form.body 18 r) 0 5 = 18#5 := by
      apply BitVec.eq_of_toNat_eq; simp only [RRR.form, fld, BitVec.toNat_ofNat]; omega
    rcases hsl with rfl | rfl <;> simp [rowOf, rowS, rowX, rowSX, rowSX01, h0]) rfl (two hw).1 (two hw).2 hs
theorem movr (o : OpInfo) (r : RR) : Statement (.movr o r) := fun iss hw hs =>
  decode_enc (l := RR.limits) (row := .movr) (mk := .movr o) (slots := [.s, .x]) (RR.law 19 (by decide) (fun _ _ => true)) (by decide) (fun _ _ _ => rfl) (fun _ _ _ _ => rfl) (fun sl hsl ex hex => by
    simp only [List.mem_cons, List.not_mem_nil, or_false] at hsl
    have h0 : fld (RR.form.body 19 r) 0 5 = 19#5 := by
      apply BitVec.eq_of_toNat_eq; simp only [RR.form, fld, BitVec.toNat_ofNat]; omega
    rcases hsl with rfl | rfl <;> simp [rowOf, rowS, rowX, rowSX, rowSX01, h0]) rfl (two hw).1 (two hw).2 hs
theorem addImm (o : OpInfo) (r : RImm) : Statement (.addImm o r) := fun iss hw hs =>
  decode_enc (l := RImm.limits) (row := .addImm) (mk := .addImm o) (slots := [.s, .x]) (RImm.law (fun _ _ => true)) (by decide) (fun _ _ _ => rfl) (fun _ _ _ _ => rfl) (fun sl hsl ex hex => by
    simp only [List.mem_cons, List.not_mem_nil, or_false] at hsl
    rcases hsl with rfl | rfl <;> rfl) rfl (two hw).1 (two hw).2 hs
theorem andImm (o : OpInfo) (r : RImm) : Statement (.andImm o r) := fun iss hw hs =>
  decode_enc (l := RImm.limits) (row := .andImm) (mk := .andImm o) (slots := [.s, .x]) (RImm.law (fun _ _ => true)) (by decide) (fun _ _ _ => rfl) (fun _ _ _ _ => rfl) (fun sl hsl ex hex => by
    simp only [List.mem_cons, List.not_mem_nil, or_false] at hsl
    rcases hsl with rfl | rfl <;> rfl) rfl (two hw).1 (two hw).2 hs
theorem orImm (o : OpInfo) (r : RImm) : Statement (.orImm o r) := fun iss hw hs =>
  decode_enc (l := RImm.limits) (row := .orImm) (mk := .orImm o) (slots := [.s, .x]) (RImm.law (fun _ _ => true)) (by decide) (fun _ _ _ => rfl) (fun _ _ _ _ => rfl) (fun sl hsl ex hex => by
    simp only [List.mem_cons, List.not_mem_nil, or_false] at hsl
    rcases hsl with rfl | rfl <;> rfl) rfl (two hw).1 (two hw).2 hs
theorem xorImm (o : OpInfo) (r : RImm) : Statement (.xorImm o r) := fun iss hw hs =>
  decode_enc (l := RImm.limits) (row := .xorImm) (mk := .xorImm o) (slots := [.s, .x]) (RImm.law (fun _ _ => true)) (by decide) (fun _ _ _ => rfl) (fun _ _ _ _ => rfl) (fun sl hsl ex hex => by
    simp only [List.mem_cons, List.not_mem_nil, or_false] at hsl
    rcases hsl with rfl | rfl <;> rfl) rfl (two hw).1 (two hw).2 hs
theorem shlImm (o : OpInfo) (r : RShift) : Statement (.shlImm o r) := fun iss hw hs =>
  decode_enc (l := RShift.limits) (row := .shlImm) (mk := .shlImm o) (slots := [.s, .x]) (RShift.law (fun _ _ => true)) (by decide) (fun _ _ _ => rfl) (fun _ _ _ _ => rfl) (fun sl hsl ex hex => by
    simp only [List.mem_cons, List.not_mem_nil, or_false] at hsl
    rcases hsl with rfl | rfl <;> rfl) rfl (two hw).1 (two hw).2 hs
theorem shrImm (o : OpInfo) (r : RShift) : Statement (.shrImm o r) := fun iss hw hs =>
  decode_enc (l := RShift.limits) (row := .shrImm) (mk := .shrImm o) (slots := [.s, .x]) (RShift.law (fun _ _ => true)) (by decide) (fun _ _ _ => rfl) (fun _ _ _ _ => rfl) (fun sl hsl ex hex => by
    simp only [List.mem_cons, List.not_mem_nil, or_false] at hsl
    rcases hsl with rfl | rfl <;> rfl) rfl (two hw).1 (two hw).2 hs
theorem sraImm (o : OpInfo) (r : RShift) : Statement (.sraImm o r) := fun iss hw hs =>
  decode_enc (l := RShift.limits) (row := .sraImm) (mk := .sraImm o) (slots := [.s, .x]) (RShift.law (fun _ _ => true)) (by decide) (fun _ _ _ => rfl) (fun _ _ _ _ => rfl) (fun sl hsl ex hex => by
    simp only [List.mem_cons, List.not_mem_nil, or_false] at hsl
    rcases hsl with rfl | rfl <;> rfl) rfl (two hw).1 (two hw).2 hs
theorem mulImm (o : OpInfo) (r : RImm) : Statement (.mulImm o r) := fun iss hw hs =>
  decode_enc (l := RImm.limits) (row := .mulImm) (mk := .mulImm o) (slots := [.s, .x]) (RImm.law (fun _ _ => true)) (by decide) (fun _ _ _ => rfl) (fun _ _ _ _ => rfl) (fun sl hsl ex hex => by
    simp only [List.mem_cons, List.not_mem_nil, or_false] at hsl
    rcases hsl with rfl | rfl <;> rfl) rfl (two hw).1 (two hw).2 hs
theorem mov (o : OpInfo) (r : RLong) : Statement (.mov o r) := fun iss hw hs =>
  decode_enc (l := RLong.limits) (row := .mov) (mk := .mov o) (slots := [.s, .x]) (RLong.law (fun _ _ => true)) (by decide) (fun _ _ _ => rfl) (fun _ _ _ _ => rfl) (fun sl hsl ex hex => by
    simp only [List.mem_cons, List.not_mem_nil, or_false] at hsl
    rcases hsl with rfl | rfl <;> rfl) rfl (two hw).1 (two hw).2 hs
theorem movhi (o : OpInfo) (r : RLong) : Statement (.movhi o r) := fun iss hw hs =>
  decode_enc (l := RLong.limits) (row := .movhi) (mk := .movhi o) (slots := [.s, .x]) (RLong.law (fun _ _ => true)) (by decide) (fun _ _ _ => rfl) (fun _ _ _ _ => rfl) (fun sl hsl ex hex => by
    simp only [List.mem_cons, List.not_mem_nil, or_false] at hsl
    rcases hsl with rfl | rfl <;> rfl) rfl (two hw).1 (two hw).2 hs
theorem cmp (o : OpInfo) (r : CmpReg) : Statement (.cmp o r) := fun iss hw hs =>
  decode_enc (l := CmpReg.limits) (row := .cmp) (mk := .cmp o) (slots := [.s, .x]) (CmpReg.law (fun _ _ => true)) (by decide) (fun _ _ _ => rfl) (fun _ _ _ _ => rfl) (fun sl hsl ex hex => by
    simp only [List.mem_cons, List.not_mem_nil, or_false] at hsl
    have h0 : fld (CmpReg.form.body 0 r) 1 1 = 0#1 := by
      apply BitVec.eq_of_toNat_eq; simp only [CmpReg.form, fld, BitVec.toNat_ofNat]; omega
    rcases hsl with rfl | rfl <;> simp [rowOf, rowS, rowX, rowSX, rowSX0C, h0]) rfl (two hw).1 (two hw).2 hs
theorem cmpImm (o : OpInfo) (r : CmpImm) : Statement (.cmpImm o r) := fun iss hw hs =>
  decode_enc (l := CmpImm.limits) (row := .cmpImm) (mk := .cmpImm o) (slots := [.s, .x]) (CmpImm.law (fun _ _ => true)) (by decide) (fun _ _ _ => rfl) (fun _ _ _ _ => rfl) (fun sl hsl ex hex => by
    simp only [List.mem_cons, List.not_mem_nil, or_false] at hsl
    have h0 : fld (CmpImm.form.body 0 r) 1 1 = 1#1 := by
      apply BitVec.eq_of_toNat_eq; simp only [CmpImm.form, fld, BitVec.toNat_ofNat]; omega
    rcases hsl with rfl | rfl <;> simp [rowOf, rowS, rowX, rowSX, rowSX0C, h0]) rfl (two hw).1 (two hw).2 hs
theorem pand (o : OpInfo) (r : PredLogic) : Statement (.pand o r) := fun iss hw hs =>
  decode_enc (l := PredLogic.limits) (row := .pand) (mk := .pand o) (slots := [.s]) (PredLogic.law 0 (by decide) (fun _ _ => true)) (by decide) (fun _ _ _ => rfl) (fun _ _ _ _ => rfl) (fun sl hsl ex hex => by
    simp only [List.mem_cons, List.not_mem_nil, or_false] at hsl
    have h0 : fld (PredLogic.form.body 0 r) 12 4 = 0#4 := by
      apply BitVec.eq_of_toNat_eq; simp only [PredLogic.form, fld, BitVec.toNat_ofNat]; omega
    subst hsl; simp [rowOf, rowS, rowS0D, h0]) rfl (two hw).1 (two hw).2 hs
theorem por (o : OpInfo) (r : PredLogic) : Statement (.por o r) := fun iss hw hs =>
  decode_enc (l := PredLogic.limits) (row := .por) (mk := .por o) (slots := [.s]) (PredLogic.law 1 (by decide) (fun _ _ => true)) (by decide) (fun _ _ _ => rfl) (fun _ _ _ _ => rfl) (fun sl hsl ex hex => by
    simp only [List.mem_cons, List.not_mem_nil, or_false] at hsl
    have h0 : fld (PredLogic.form.body 1 r) 12 4 = 1#4 := by
      apply BitVec.eq_of_toNat_eq; simp only [PredLogic.form, fld, BitVec.toNat_ofNat]; omega
    subst hsl; simp [rowOf, rowS, rowS0D, h0]) rfl (two hw).1 (two hw).2 hs
theorem pxor (o : OpInfo) (r : PredLogic) : Statement (.pxor o r) := fun iss hw hs =>
  decode_enc (l := PredLogic.limits) (row := .pxor) (mk := .pxor o) (slots := [.s]) (PredLogic.law 2 (by decide) (fun _ _ => true)) (by decide) (fun _ _ _ => rfl) (fun _ _ _ _ => rfl) (fun sl hsl ex hex => by
    simp only [List.mem_cons, List.not_mem_nil, or_false] at hsl
    have h0 : fld (PredLogic.form.body 2 r) 12 4 = 2#4 := by
      apply BitVec.eq_of_toNat_eq; simp only [PredLogic.form, fld, BitVec.toNat_ofNat]; omega
    subst hsl; simp [rowOf, rowS, rowS0D, h0]) rfl (two hw).1 (two hw).2 hs
theorem pandn (o : OpInfo) (r : PredLogic) : Statement (.pandn o r) := fun iss hw hs =>
  decode_enc (l := PredLogic.limits) (row := .pandn) (mk := .pandn o) (slots := [.s]) (PredLogic.law 3 (by decide) (fun _ _ => true)) (by decide) (fun _ _ _ => rfl) (fun _ _ _ _ => rfl) (fun sl hsl ex hex => by
    simp only [List.mem_cons, List.not_mem_nil, or_false] at hsl
    have h0 : fld (PredLogic.form.body 3 r) 12 4 = 3#4 := by
      apply BitVec.eq_of_toNat_eq; simp only [PredLogic.form, fld, BitVec.toNat_ofNat]; omega
    subst hsl; simp [rowOf, rowS, rowS0D, h0]) rfl (two hw).1 (two hw).2 hs
theorem xfr (o : OpInfo) (r : Xfer) : Statement (.xfr o r) := fun iss hw hs =>
  decode_enc (l := Xfer.limits) (row := .xfr) (mk := .xfr o) (slots := [.s]) Xfer.law (by decide) (fun _ _ _ => rfl) (fun _ _ _ _ => rfl) (fun sl hsl ex hex => by
    simp only [List.mem_cons, List.not_mem_nil, or_false] at hsl
    have h : r.src ≠ r.dst := by have := (two hw).2; simp only [Limits.ok, Bool.and_eq_true] at this; simpa [Xfer.limits] using this.1.1
    subst hsl; exact if_pos (by rw [Xfer.body_fn]; exact Xfer.fn_listed h)) (by have := (two hw).2; simp only [Limits.ok, Bool.and_eq_true] at this; exact this.1.1) (two hw).1 (two hw).2 hs
theorem br (o : OpInfo) (r : Disp) : Statement (.br o r) := fun iss hw hs =>
  decode_enc (l := Disp.limits) (row := .br) (mk := .br o) (slots := [.s]) (Disp.law (fun _ _ => true)) (by decide) (fun _ _ _ => rfl) (fun _ _ _ _ => rfl) (fun sl hsl ex hex => by
    simp only [List.mem_cons, List.not_mem_nil, or_false] at hsl
    subst hsl; rfl) rfl (two hw).1 (two hw).2 hs
theorem call (o : OpInfo) (r : Disp) : Statement (.call o r) := fun iss hw hs =>
  decode_enc (l := Disp.limits) (row := .call) (mk := .call o) (slots := [.s]) (Disp.law (fun _ _ => true)) (by decide) (fun _ _ _ => rfl) (fun _ _ _ _ => rfl) (fun sl hsl ex hex => by
    simp only [List.mem_cons, List.not_mem_nil, or_false] at hsl
    subst hsl; rfl) rfl (two hw).1 (two hw).2 hs
theorem brz (o : OpInfo) (r : BrReg) : Statement (.brz o r) := fun iss hw hs =>
  decode_enc (l := BrReg.limits) (row := .brz) (mk := .brz o) (slots := [.s]) (BrReg.law (fun _ _ => true)) (by decide) (fun _ _ _ => rfl) (fun _ _ _ _ => rfl) (fun sl hsl ex hex => by
    simp only [List.mem_cons, List.not_mem_nil, or_false] at hsl
    subst hsl; rfl) rfl (two hw).1 (two hw).2 hs
theorem brnz (o : OpInfo) (r : BrReg) : Statement (.brnz o r) := fun iss hw hs =>
  decode_enc (l := BrReg.limits) (row := .brnz) (mk := .brnz o) (slots := [.s]) (BrReg.law (fun _ _ => true)) (by decide) (fun _ _ _ => rfl) (fun _ _ _ _ => rfl) (fun sl hsl ex hex => by
    simp only [List.mem_cons, List.not_mem_nil, or_false] at hsl
    subst hsl; rfl) rfl (two hw).1 (two hw).2 hs
theorem ret (o : OpInfo) : Statement (.ret o) := fun iss hw hs =>
  decode_encZ (row := .ret) (slots := [.s]) (fun _ _ _ => rfl) (fun _ _ _ _ => rfl) (fun sl hsl ex => by
    simp only [List.mem_cons, List.not_mem_nil, or_false] at hsl; subst hsl; rfl) hw hs
theorem jr (o : OpInfo) (r : JrArgs) : Statement (.jr o r) := fun iss hw hs =>
  decode_enc (l := JrArgs.limits) (row := .jr) (mk := .jr o) (slots := [.s]) (JrArgs.law (fun _ _ => true)) (by decide) (fun _ _ _ => rfl) (fun _ _ _ _ => rfl) (fun sl hsl ex hex => by
    simp only [List.mem_cons, List.not_mem_nil, or_false] at hsl
    subst hsl; rfl) rfl (two hw).1 (two hw).2 hs
theorem loop (o : OpInfo) (r : LoopReg) : Statement (.loop o r) := fun iss hw hs =>
  decode_enc (l := LoopReg.limits) (row := .loop) (mk := .loop o) (slots := [.s]) (LoopReg.law (fun _ _ => true)) (by decide) (fun _ _ _ => rfl) (fun _ _ _ _ => rfl) (fun sl hsl ex hex => by
    simp only [List.mem_cons, List.not_mem_nil, or_false] at hsl
    subst hsl; rfl) rfl (two hw).1 (two hw).2 hs
theorem loopi (o : OpInfo) (r : LoopImm) : Statement (.loopi o r) := fun iss hw hs =>
  decode_enc (l := LoopImm.limits) (row := .loopi) (mk := .loopi o) (slots := [.s]) (LoopImm.law (fun _ _ => true)) (by decide) (fun _ _ _ => rfl) (fun _ _ _ _ => rfl) (fun sl hsl ex hex => by
    simp only [List.mem_cons, List.not_mem_nil, or_false] at hsl
    subst hsl; rfl) rfl (two hw).1 (two hw).2 hs
theorem mtcfg (o : OpInfo) (r : MtcfgArgs) : Statement (.mtcfg o r) := fun iss hw hs =>
  decode_enc (l := MtcfgArgs.limits) (row := .mtcfg) (mk := .mtcfg o) (slots := [.s]) (MtcfgArgs.law (fun _ _ => true)) (by decide) (fun _ _ _ => rfl) (fun _ _ _ _ => rfl) (fun sl hsl ex hex => by
    simp only [List.mem_cons, List.not_mem_nil, or_false] at hsl
    subst hsl; rfl) rfl (two hw).1 (two hw).2 hs
theorem mftcfg (o : OpInfo) (r : MftcfgArgs) : Statement (.mftcfg o r) := fun iss hw hs =>
  decode_enc (l := MftcfgArgs.limits) (row := .mftcfg) (mk := .mftcfg o) (slots := [.s]) (MftcfgArgs.law (fun _ _ => true)) (by decide) (fun _ _ _ => rfl) (fun _ _ _ _ => rfl) (fun sl hsl ex hex => by
    simp only [List.mem_cons, List.not_mem_nil, or_false] at hsl
    subst hsl; rfl) rfl (two hw).1 (two hw).2 hs
theorem dfpk (o : OpInfo) (r : DescField) : Statement (.dfpk o r) := fun iss hw hs =>
  decode_enc (l := DescField.limits) (row := .dfpk) (mk := .dfpk o) (slots := [.s]) (DescField.law 0 (by decide)) (by decide) (fun _ _ _ => rfl) (fun _ _ _ _ => rfl) (fun sl hsl ex hex => by
    simp only [List.mem_cons, List.not_mem_nil, or_false] at hsl
    have h0 : fld (DescField.form.body 0 r) 0 5 = 0#5 := by
      apply BitVec.eq_of_toNat_eq; simp only [DescField.form, fld, BitVec.toNat_ofNat]; omega
    subst hsl; simp [rowOf, rowS, rowS1A, h0]) (by
    have h := (two hw).2
    simp only [DescField.form]
    cases hf : r.f with
    | imm _ _ => rfl
    | reg _ => rw [hf] at h; simp only [FieldSel.isImm, Bool.false_or] at h ⊢; cases ha : o.arr with
      | none => rfl
      | some _ => rw [ha] at h; simp at h) (two (two hw).1).1 (two (two hw).1).2 hs
theorem dfex (o : OpInfo) (r : DescField) : Statement (.dfex o r) := fun iss hw hs =>
  decode_enc (l := DescField.limits) (row := .dfex) (mk := .dfex o) (slots := [.s]) (DescField.law 0 (by decide)) (by decide) (fun _ _ _ => rfl) (fun _ _ _ _ => rfl) (fun sl hsl ex hex => by
    simp only [List.mem_cons, List.not_mem_nil, or_false] at hsl
    have h0 : fld (DescField.form.body 0 r) 0 5 = 0#5 := by
      apply BitVec.eq_of_toNat_eq; simp only [DescField.form, fld, BitVec.toNat_ofNat]; omega
    subst hsl; simp [rowOf, rowS, rowS1B, h0]) (by
    have h := (two hw).2
    simp only [DescField.form]
    cases hf : r.f with
    | imm _ _ => rfl
    | reg _ => rw [hf] at h; simp only [FieldSel.isImm, Bool.false_or] at h ⊢; cases ha : o.arr with
      | none => rfl
      | some _ => rw [ha] at h; simp at h) (two (two hw).1).1 (two (two hw).1).2 hs
theorem dfexS (o : OpInfo) (r : DescField) : Statement (.dfexS o r) := fun iss hw hs =>
  decode_enc (l := DescField.limits) (row := .dfexS) (mk := .dfexS o) (slots := [.s]) (DescField.law 1 (by decide)) (by decide) (fun _ _ _ => rfl) (fun _ _ _ _ => rfl) (fun sl hsl ex hex => by
    simp only [List.mem_cons, List.not_mem_nil, or_false] at hsl
    have h0 : fld (DescField.form.body 1 r) 0 5 = 1#5 := by
      apply BitVec.eq_of_toNat_eq; simp only [DescField.form, fld, BitVec.toNat_ofNat]; omega
    subst hsl; simp [rowOf, rowS, rowS1B, h0]) (by
    have h := (two hw).2
    simp only [DescField.form]
    cases hf : r.f with
    | imm _ _ => rfl
    | reg _ => rw [hf] at h; simp only [FieldSel.isImm, Bool.false_or] at h ⊢; cases ha : o.arr with
      | none => rfl
      | some _ => rw [ha] at h; simp at h) (two (two hw).1).1 (two (two hw).1).2 hs
theorem ldsp (o : OpInfo) (r : SpLoad) : Statement (.ldsp o r) := fun iss hw hs =>
  decode_enc (l := SpLoad.limits) (row := .ldsp) (mk := .ldsp o) (slots := [.s]) (SpLoad.law (fun _ _ => true)) (by decide) (fun _ _ _ => rfl) (fun _ _ _ _ => rfl) (fun sl hsl ex hex => by
    simp only [List.mem_cons, List.not_mem_nil, or_false] at hsl
    subst hsl; rfl) rfl (two hw).1 (two hw).2 hs
theorem stsp (o : OpInfo) (r : SpStore) : Statement (.stsp o r) := fun iss hw hs =>
  decode_enc (l := SpStore.limits) (row := .stsp) (mk := .stsp o) (slots := [.s]) (SpStore.law (fun _ _ => true)) (by decide) (fun _ _ _ => rfl) (fun _ _ _ _ => rfl) (fun sl hsl ex hex => by
    simp only [List.mem_cons, List.not_mem_nil, or_false] at hsl
    subst hsl; rfl) rfl (two hw).1 (two hw).2 hs
theorem ld (o : OpInfo) (r : GlLoad) : Statement (.ld o r) := fun iss hw hs =>
  decode_enc (l := GlLoad.limits) (row := .ld) (mk := .ld o) (slots := [.s]) (GlLoad.law (fun _ _ => true)) (by decide) (fun _ _ _ => rfl) (fun _ _ _ _ => rfl) (fun sl hsl ex hex => by
    simp only [List.mem_cons, List.not_mem_nil, or_false] at hsl
    subst hsl; rfl) rfl (two hw).1 (two hw).2 hs
theorem st (o : OpInfo) (r : SpStore) : Statement (.st o r) := fun iss hw hs =>
  decode_enc (l := SpStore.limits) (row := .st) (mk := .st o) (slots := [.s]) (SpStore.law (fun _ _ => true)) (by decide) (fun _ _ _ => rfl) (fun _ _ _ _ => rfl) (fun sl hsl ex hex => by
    simp only [List.mem_cons, List.not_mem_nil, or_false] at hsl
    subst hsl; rfl) rfl (two hw).1 (two hw).2 hs
theorem atomAdd (o : OpInfo) (r : Atomic) : Statement (.atomAdd o r) := fun iss hw hs =>
  decode_enc (l := Atomic.limits) (row := .atomAdd) (mk := .atomAdd o) (slots := [.s]) (Atomic.law 0 (by decide) (fun _ _ => true)) (by decide) (fun _ _ _ => rfl) (fun _ _ _ _ => rfl) (fun sl hsl ex hex => by
    simp only [List.mem_cons, List.not_mem_nil, or_false] at hsl
    have h0 : fld (Atomic.form.body 0 r) 0 4 = 0#4 := by
      apply BitVec.eq_of_toNat_eq; simp only [Atomic.form, fld, BitVec.toNat_ofNat]; omega
    subst hsl; simp [rowOf, rowS, rowS24, h0]) rfl (two hw).1 (two hw).2 hs
theorem atomAnd (o : OpInfo) (r : Atomic) : Statement (.atomAnd o r) := fun iss hw hs =>
  decode_enc (l := Atomic.limits) (row := .atomAnd) (mk := .atomAnd o) (slots := [.s]) (Atomic.law 1 (by decide) (fun _ _ => true)) (by decide) (fun _ _ _ => rfl) (fun _ _ _ _ => rfl) (fun sl hsl ex hex => by
    simp only [List.mem_cons, List.not_mem_nil, or_false] at hsl
    have h0 : fld (Atomic.form.body 1 r) 0 4 = 1#4 := by
      apply BitVec.eq_of_toNat_eq; simp only [Atomic.form, fld, BitVec.toNat_ofNat]; omega
    subst hsl; simp [rowOf, rowS, rowS24, h0]) rfl (two hw).1 (two hw).2 hs
theorem atomOr (o : OpInfo) (r : Atomic) : Statement (.atomOr o r) := fun iss hw hs =>
  decode_enc (l := Atomic.limits) (row := .atomOr) (mk := .atomOr o) (slots := [.s]) (Atomic.law 2 (by decide) (fun _ _ => true)) (by decide) (fun _ _ _ => rfl) (fun _ _ _ _ => rfl) (fun sl hsl ex hex => by
    simp only [List.mem_cons, List.not_mem_nil, or_false] at hsl
    have h0 : fld (Atomic.form.body 2 r) 0 4 = 2#4 := by
      apply BitVec.eq_of_toNat_eq; simp only [Atomic.form, fld, BitVec.toNat_ofNat]; omega
    subst hsl; simp [rowOf, rowS, rowS24, h0]) rfl (two hw).1 (two hw).2 hs
theorem atomXor (o : OpInfo) (r : Atomic) : Statement (.atomXor o r) := fun iss hw hs =>
  decode_enc (l := Atomic.limits) (row := .atomXor) (mk := .atomXor o) (slots := [.s]) (Atomic.law 3 (by decide) (fun _ _ => true)) (by decide) (fun _ _ _ => rfl) (fun _ _ _ _ => rfl) (fun sl hsl ex hex => by
    simp only [List.mem_cons, List.not_mem_nil, or_false] at hsl
    have h0 : fld (Atomic.form.body 3 r) 0 4 = 3#4 := by
      apply BitVec.eq_of_toNat_eq; simp only [Atomic.form, fld, BitVec.toNat_ofNat]; omega
    subst hsl; simp [rowOf, rowS, rowS24, h0]) rfl (two hw).1 (two hw).2 hs
theorem atomSmin (o : OpInfo) (r : Atomic) : Statement (.atomSmin o r) := fun iss hw hs =>
  decode_enc (l := Atomic.limits) (row := .atomSmin) (mk := .atomSmin o) (slots := [.s]) (Atomic.law 4 (by decide) (fun _ _ => true)) (by decide) (fun _ _ _ => rfl) (fun _ _ _ _ => rfl) (fun sl hsl ex hex => by
    simp only [List.mem_cons, List.not_mem_nil, or_false] at hsl
    have h0 : fld (Atomic.form.body 4 r) 0 4 = 4#4 := by
      apply BitVec.eq_of_toNat_eq; simp only [Atomic.form, fld, BitVec.toNat_ofNat]; omega
    subst hsl; simp [rowOf, rowS, rowS24, h0]) rfl (two hw).1 (two hw).2 hs
theorem atomSmax (o : OpInfo) (r : Atomic) : Statement (.atomSmax o r) := fun iss hw hs =>
  decode_enc (l := Atomic.limits) (row := .atomSmax) (mk := .atomSmax o) (slots := [.s]) (Atomic.law 5 (by decide) (fun _ _ => true)) (by decide) (fun _ _ _ => rfl) (fun _ _ _ _ => rfl) (fun sl hsl ex hex => by
    simp only [List.mem_cons, List.not_mem_nil, or_false] at hsl
    have h0 : fld (Atomic.form.body 5 r) 0 4 = 5#4 := by
      apply BitVec.eq_of_toNat_eq; simp only [Atomic.form, fld, BitVec.toNat_ofNat]; omega
    subst hsl; simp [rowOf, rowS, rowS24, h0]) rfl (two hw).1 (two hw).2 hs
theorem atomUmin (o : OpInfo) (r : Atomic) : Statement (.atomUmin o r) := fun iss hw hs =>
  decode_enc (l := Atomic.limits) (row := .atomUmin) (mk := .atomUmin o) (slots := [.s]) (Atomic.law 6 (by decide) (fun _ _ => true)) (by decide) (fun _ _ _ => rfl) (fun _ _ _ _ => rfl) (fun sl hsl ex hex => by
    simp only [List.mem_cons, List.not_mem_nil, or_false] at hsl
    have h0 : fld (Atomic.form.body 6 r) 0 4 = 6#4 := by
      apply BitVec.eq_of_toNat_eq; simp only [Atomic.form, fld, BitVec.toNat_ofNat]; omega
    subst hsl; simp [rowOf, rowS, rowS24, h0]) rfl (two hw).1 (two hw).2 hs
theorem atomUmax (o : OpInfo) (r : Atomic) : Statement (.atomUmax o r) := fun iss hw hs =>
  decode_enc (l := Atomic.limits) (row := .atomUmax) (mk := .atomUmax o) (slots := [.s]) (Atomic.law 7 (by decide) (fun _ _ => true)) (by decide) (fun _ _ _ => rfl) (fun _ _ _ _ => rfl) (fun sl hsl ex hex => by
    simp only [List.mem_cons, List.not_mem_nil, or_false] at hsl
    have h0 : fld (Atomic.form.body 7 r) 0 4 = 7#4 := by
      apply BitVec.eq_of_toNat_eq; simp only [Atomic.form, fld, BitVec.toNat_ofNat]; omega
    subst hsl; simp [rowOf, rowS, rowS24, h0]) rfl (two hw).1 (two hw).2 hs
theorem atomSwap (o : OpInfo) (r : Atomic) : Statement (.atomSwap o r) := fun iss hw hs =>
  decode_enc (l := Atomic.limits) (row := .atomSwap) (mk := .atomSwap o) (slots := [.s]) (Atomic.law 8 (by decide) (fun _ _ => true)) (by decide) (fun _ _ _ => rfl) (fun _ _ _ _ => rfl) (fun sl hsl ex hex => by
    simp only [List.mem_cons, List.not_mem_nil, or_false] at hsl
    have h0 : fld (Atomic.form.body 8 r) 0 4 = 8#4 := by
      apply BitVec.eq_of_toNat_eq; simp only [Atomic.form, fld, BitVec.toNat_ofNat]; omega
    subst hsl; simp [rowOf, rowS, rowS24, h0]) rfl (two hw).1 (two hw).2 hs
theorem atomCas (o : OpInfo) (r : Atomic) : Statement (.atomCas o r) := fun iss hw hs =>
  decode_enc (l := Atomic.limits) (row := .atomCas) (mk := .atomCas o) (slots := [.s]) (Atomic.law 9 (by decide) (fun _ _ => true)) (by decide) (fun _ _ _ => rfl) (fun _ _ _ _ => rfl) (fun sl hsl ex hex => by
    simp only [List.mem_cons, List.not_mem_nil, or_false] at hsl
    have h0 : fld (Atomic.form.body 9 r) 0 4 = 9#4 := by
      apply BitVec.eq_of_toNat_eq; simp only [Atomic.form, fld, BitVec.toNat_ofNat]; omega
    subst hsl; simp [rowOf, rowS, rowS24, h0]) rfl (two hw).1 (two hw).2 hs
theorem atomBfi (o : OpInfo) (r : BitAtomic) : Statement (.atomBfi o r) := fun iss hw hs =>
  decode_enc (l := BitAtomic.limits) (row := .atomBfi) (mk := .atomBfi o) (slots := [.s]) (BitAtomic.law 26 (by decide) (fun _ _ => true)) (by decide) (fun _ _ _ => rfl) (fun _ _ _ _ => rfl) (fun sl hsl ex hex => by
    simp only [List.mem_cons, List.not_mem_nil, or_false] at hsl
    have h0 : fld (BitAtomic.form.body 26 r) 0 4 = 10#4 := by
      apply BitVec.eq_of_toNat_eq; simp only [BitAtomic.form, fld, BitVec.toNat_ofNat]; omega
    have h1 : fld (BitAtomic.form.body 26 r) 4 1 = 1#1 := by
      apply BitVec.eq_of_toNat_eq; simp only [BitAtomic.form, fld, BitVec.toNat_ofNat]; omega
    subst hsl; simp [rowOf, rowS, rowS24, h0, h1]) rfl (two hw).1 (two hw).2 hs
theorem atomFfcs (o : OpInfo) (r : BitAtomic) : Statement (.atomFfcs o r) := fun iss hw hs =>
  decode_enc (l := BitAtomic.limits) (row := .atomFfcs) (mk := .atomFfcs o) (slots := [.s]) (BitAtomic.law 27 (by decide) (fun _ _ => true)) (by decide) (fun _ _ _ => rfl) (fun _ _ _ _ => rfl) (fun sl hsl ex hex => by
    simp only [List.mem_cons, List.not_mem_nil, or_false] at hsl
    have h0 : fld (BitAtomic.form.body 27 r) 0 4 = 11#4 := by
      apply BitVec.eq_of_toNat_eq; simp only [BitAtomic.form, fld, BitVec.toNat_ofNat]; omega
    have h1 : fld (BitAtomic.form.body 27 r) 4 1 = 1#1 := by
      apply BitVec.eq_of_toNat_eq; simp only [BitAtomic.form, fld, BitVec.toNat_ofNat]; omega
    subst hsl; simp [rowOf, rowS, rowS24, h0, h1]) rfl (two hw).1 (two hw).2 hs
theorem atomPlset (o : OpInfo) (r : PlsetArgs) : Statement (.atomPlset o r) := fun iss hw hs =>
  decode_enc (l := PlsetArgs.limits) (row := .atomPlset) (mk := .atomPlset o) (slots := [.s]) (PlsetArgs.law 28 (by decide) (fun _ _ => true)) (by decide) (fun _ _ _ => rfl) (fun _ _ _ _ => rfl) (fun sl hsl ex hex => by
    simp only [List.mem_cons, List.not_mem_nil, or_false] at hsl
    have h0 : fld (PlsetArgs.form.body 28 r) 0 4 = 12#4 := by
      apply BitVec.eq_of_toNat_eq; simp only [PlsetArgs.form, fld, BitVec.toNat_ofNat]; omega
    have h1 : fld (PlsetArgs.form.body 28 r) 4 1 = 1#1 := by
      apply BitVec.eq_of_toNat_eq; simp only [PlsetArgs.form, fld, BitVec.toNat_ofNat]; omega
    subst hsl; simp [rowOf, rowS, rowS24, h0, h1]) rfl (two hw).1 (two hw).2 hs
theorem upd (o : OpInfo) (r : UpdArgs) : Statement (.upd o r) := fun iss hw hs =>
  decode_enc (l := UpdArgs.limits) (row := .upd) (mk := .upd o) (slots := [.s]) (UpdArgs.law (fun _ _ => true)) (by decide) (fun _ _ _ => rfl) (fun _ _ _ _ => rfl) (fun sl hsl ex hex => by
    simp only [List.mem_cons, List.not_mem_nil, or_false] at hsl
    subst hsl; rfl) rfl (two hw).1 (two hw).2 hs
theorem pref (o : OpInfo) (r : PrefArgs) : Statement (.pref o r) := fun iss hw hs =>
  decode_enc (l := PrefArgs.limits) (row := .pref) (mk := .pref o) (slots := [.s]) (PrefArgs.law (fun _ _ => true)) (by decide) (fun _ _ _ => rfl) (fun _ _ _ _ => rfl) (fun sl hsl ex hex => by
    simp only [List.mem_cons, List.not_mem_nil, or_false] at hsl
    subst hsl; rfl) rfl (two hw).1 (two hw).2 hs
theorem waitline (o : OpInfo) (r : WaitlineArgs) : Statement (.waitline o r) := fun iss hw hs =>
  decode_enc (l := WaitlineArgs.limits) (row := .waitline) (mk := .waitline o) (slots := [.s]) (WaitlineArgs.law (fun _ _ => true)) (by decide) (fun _ _ _ => rfl) (fun _ _ _ _ => rfl) (fun sl hsl ex hex => by
    simp only [List.mem_cons, List.not_mem_nil, or_false] at hsl
    subst hsl; rfl) rfl (two hw).1 (two hw).2 hs
theorem launch (o : OpInfo) (r : LaunchArgs) : Statement (.launch o r) := fun iss hw hs =>
  decode_enc (l := LaunchArgs.limits) (row := .launch) (mk := .launch o) (slots := [.s]) (LaunchArgs.law (fun _ _ => true)) (by decide) (fun _ _ _ => rfl) (fun _ _ _ _ => rfl) (fun sl hsl ex hex => by
    simp only [List.mem_cons, List.not_mem_nil, or_false] at hsl
    subst hsl; rfl) rfl (two hw).1 (two hw).2 hs
theorem exit (o : OpInfo) : Statement (.exit o) := fun iss hw hs =>
  decode_encZ (row := .exit) (slots := [.s]) (fun _ _ _ => rfl) (fun _ _ _ _ => rfl) (fun sl hsl ex => by
    simp only [List.mem_cons, List.not_mem_nil, or_false] at hsl; subst hsl; rfl) hw hs
theorem mfsr (o : OpInfo) (r : SrMove) : Statement (.mfsr o r) := fun iss hw hs =>
  decode_enc (l := SrMove.limits) (row := .mfsr) (mk := .mfsr o) (slots := [.s]) (SrMove.law (fun _ _ => true)) (by decide) (fun _ _ _ => rfl) (fun _ _ _ _ => rfl) (fun sl hsl ex hex => by
    simp only [List.mem_cons, List.not_mem_nil, or_false] at hsl
    have h1 : (fld (if ex = true then SrMove.form.pl r else 0#24) 23 1 == 1#1) = false := by cases ex <;> simp [SrMove.form, fld]
    subst hsl; simp [rowOf, rowS, rowS30, h1]) rfl (two hw).1 (two hw).2 hs
theorem mfsrIo (o : OpInfo) (r : IoMove) : Statement (.mfsrIo o r) := fun iss hw hs =>
  decode_enc (l := IoMove.limits) (row := .mfsrIo) (mk := .mfsrIo o) (slots := [.s]) (IoMove.law (fun _ _ => true)) (by decide) (fun _ _ _ => rfl) (fun _ _ _ _ => rfl) (fun sl hsl ex hex => by
    simp only [List.mem_cons, List.not_mem_nil, or_false] at hsl
    have hx : ex = true := hex (by simp only [IoMove.form, bne_iff_ne, ne_eq]; intro h; have := congrArg BitVec.toNat h; simp only [BitVec.toNat_ofNat] at this; omega)
    subst hx
    have h1 : fld (IoMove.form.pl r) 23 1 = 1#1 := by
      apply BitVec.eq_of_toNat_eq; simp only [IoMove.form, fld, BitVec.toNat_ofNat]; omega
    subst hsl; simp [rowOf, rowS, rowS30, h1]) rfl (two hw).1 (two hw).2 hs
theorem mtsr (o : OpInfo) (r : SrMove) : Statement (.mtsr o r) := fun iss hw hs =>
  decode_enc (l := SrMove.limits) (row := .mtsr) (mk := .mtsr o) (slots := [.s]) (SrMove.law (fun _ _ => true)) (by decide) (fun _ _ _ => rfl) (fun _ _ _ _ => rfl) (fun sl hsl ex hex => by
    simp only [List.mem_cons, List.not_mem_nil, or_false] at hsl
    have h1 : (fld (if ex = true then SrMove.form.pl r else 0#24) 23 1 == 1#1) = false := by cases ex <;> simp [SrMove.form, fld]
    subst hsl; simp [rowOf, rowS, rowS31, h1]) rfl (two hw).1 (two hw).2 hs
theorem mtsrIo (o : OpInfo) (r : IoMove) : Statement (.mtsrIo o r) := fun iss hw hs =>
  decode_enc (l := IoMove.limits) (row := .mtsrIo) (mk := .mtsrIo o) (slots := [.s]) (IoMove.law (fun _ _ => true)) (by decide) (fun _ _ _ => rfl) (fun _ _ _ _ => rfl) (fun sl hsl ex hex => by
    simp only [List.mem_cons, List.not_mem_nil, or_false] at hsl
    have hx : ex = true := hex (by simp only [IoMove.form, bne_iff_ne, ne_eq]; intro h; have := congrArg BitVec.toNat h; simp only [BitVec.toNat_ofNat] at this; omega)
    subst hx
    have h1 : fld (IoMove.form.pl r) 23 1 = 1#1 := by
      apply BitVec.eq_of_toNat_eq; simp only [IoMove.form, fld, BitVec.toNat_ofNat]; omega
    subst hsl; simp [rowOf, rowS, rowS31, h1]) rfl (two hw).1 (two hw).2 hs
theorem trap (o : OpInfo) (r : TrapArgs) : Statement (.trap o r) := fun iss hw hs =>
  decode_enc (l := TrapArgs.limits) (row := .trap) (mk := .trap o) (slots := [.s]) (TrapArgs.law (fun _ _ => true)) (by decide) (fun _ _ _ => rfl) (fun _ _ _ _ => rfl) (fun sl hsl ex hex => by
    simp only [List.mem_cons, List.not_mem_nil, or_false] at hsl
    subst hsl; rfl) rfl (two hw).1 (two hw).2 hs
theorem eret (o : OpInfo) : Statement (.eret o) := fun iss hw hs =>
  decode_encZ (row := .eret) (slots := [.s]) (fun _ _ _ => rfl) (fun _ _ _ _ => rfl) (fun sl hsl ex => by
    simp only [List.mem_cons, List.not_mem_nil, or_false] at hsl; subst hsl; rfl) hw hs
theorem sret (o : OpInfo) : Statement (.sret o) := fun iss hw hs =>
  decode_encZ (row := .sret) (slots := [.s]) (fun _ _ _ => rfl) (fun _ _ _ _ => rfl) (fun sl hsl ex => by
    simp only [List.mem_cons, List.not_mem_nil, or_false] at hsl; subst hsl; rfl) hw hs
theorem tlbiAll (o : OpInfo) (r : ZeroFn) : Statement (.tlbiAll o r) := fun iss hw hs =>
  decode_enc (l := ZeroFn.limits) (row := .tlbiAll) (mk := .tlbiAll o) (slots := [.s]) (ZeroFn.law 0 (by decide) (fun _ _ => true)) (by decide) (fun _ _ _ => rfl) (fun _ _ _ _ => rfl) (fun sl hsl ex hex => by
    simp only [List.mem_cons, List.not_mem_nil, or_false] at hsl
    have h0 : fld (ZeroFn.form.body 0 r) 0 5 = 0#5 := by
      apply BitVec.eq_of_toNat_eq; simp only [ZeroFn.form, fld, BitVec.toNat_ofNat] <;> rfl
    subst hsl; simp [rowOf, rowS, rowS35, h0]) rfl (two hw).1 (two hw).2 hs
theorem tlbiCtx (o : OpInfo) (r : OneReg) : Statement (.tlbiCtx o r) := fun iss hw hs =>
  decode_enc (l := OneReg.limits) (row := .tlbiCtx) (mk := .tlbiCtx o) (slots := [.s]) (OneReg.law 1 (by decide) (fun _ _ => true)) (by decide) (fun _ _ _ => rfl) (fun _ _ _ _ => rfl) (fun sl hsl ex hex => by
    simp only [List.mem_cons, List.not_mem_nil, or_false] at hsl
    have h0 : fld (OneReg.form.body 1 r) 0 5 = 1#5 := by
      apply BitVec.eq_of_toNat_eq; simp only [OneReg.form, fld, BitVec.toNat_ofNat]; omega
    subst hsl; simp [rowOf, rowS, rowS35, h0]) rfl (two hw).1 (two hw).2 hs
theorem tlbiPage (o : OpInfo) (r : TwoReg) : Statement (.tlbiPage o r) := fun iss hw hs =>
  decode_enc (l := TwoReg.limits) (row := .tlbiPage) (mk := .tlbiPage o) (slots := [.s]) (TwoReg.law 2 (by decide) (fun _ _ => true)) (by decide) (fun _ _ _ => rfl) (fun _ _ _ _ => rfl) (fun sl hsl ex hex => by
    simp only [List.mem_cons, List.not_mem_nil, or_false] at hsl
    have h0 : fld (TwoReg.form.body 2 r) 0 5 = 2#5 := by
      apply BitVec.eq_of_toNat_eq; simp only [TwoReg.form, fld, BitVec.toNat_ofNat]; omega
    subst hsl; simp [rowOf, rowS, rowS35, h0]) rfl (two hw).1 (two hw).2 hs
theorem cmntIcinv (o : OpInfo) (r : ZeroFn) : Statement (.cmntIcinv o r) := fun iss hw hs =>
  decode_enc (l := ZeroFn.limits) (row := .cmntIcinv) (mk := .cmntIcinv o) (slots := [.s]) (ZeroFn.law 0 (by decide) (fun _ _ => true)) (by decide) (fun _ _ _ => rfl) (fun _ _ _ _ => rfl) (fun sl hsl ex hex => by
    simp only [List.mem_cons, List.not_mem_nil, or_false] at hsl
    have h0 : fld (ZeroFn.form.body 0 r) 0 5 = 0#5 := by
      apply BitVec.eq_of_toNat_eq; simp only [ZeroFn.form, fld, BitVec.toNat_ofNat] <;> rfl
    subst hsl; simp [rowOf, rowS, rowS36, h0]) rfl (two hw).1 (two hw).2 hs
theorem cmntIcinvPkg (o : OpInfo) (r : ZeroFn) : Statement (.cmntIcinvPkg o r) := fun iss hw hs =>
  decode_enc (l := ZeroFn.limits) (row := .cmntIcinvPkg) (mk := .cmntIcinvPkg o) (slots := [.s]) (ZeroFn.law 1 (by decide) (fun _ _ => true)) (by decide) (fun _ _ _ => rfl) (fun _ _ _ _ => rfl) (fun sl hsl ex hex => by
    simp only [List.mem_cons, List.not_mem_nil, or_false] at hsl
    have h0 : fld (ZeroFn.form.body 1 r) 0 5 = 1#5 := by
      apply BitVec.eq_of_toNat_eq; simp only [ZeroFn.form, fld, BitVec.toNat_ofNat] <;> rfl
    subst hsl; simp [rowOf, rowS, rowS36, h0]) rfl (two hw).1 (two hw).2 hs
theorem cmntSdcinv (o : OpInfo) (r : ZeroFn) : Statement (.cmntSdcinv o r) := fun iss hw hs =>
  decode_enc (l := ZeroFn.limits) (row := .cmntSdcinv) (mk := .cmntSdcinv o) (slots := [.s]) (ZeroFn.law 2 (by decide) (fun _ _ => true)) (by decide) (fun _ _ _ => rfl) (fun _ _ _ _ => rfl) (fun sl hsl ex hex => by
    simp only [List.mem_cons, List.not_mem_nil, or_false] at hsl
    have h0 : fld (ZeroFn.form.body 2 r) 0 5 = 2#5 := by
      apply BitVec.eq_of_toNat_eq; simp only [ZeroFn.form, fld, BitVec.toNat_ofNat] <;> rfl
    subst hsl; simp [rowOf, rowS, rowS36, h0]) rfl (two hw).1 (two hw).2 hs
theorem cmntWbctx (o : OpInfo) (r : OneReg) : Statement (.cmntWbctx o r) := fun iss hw hs =>
  decode_enc (l := OneReg.limits) (row := .cmntWbctx) (mk := .cmntWbctx o) (slots := [.s]) (OneReg.law 3 (by decide) (fun _ _ => true)) (by decide) (fun _ _ _ => rfl) (fun _ _ _ _ => rfl) (fun sl hsl ex hex => by
    simp only [List.mem_cons, List.not_mem_nil, or_false] at hsl
    have h0 : fld (OneReg.form.body 3 r) 0 5 = 3#5 := by
      apply BitVec.eq_of_toNat_eq; simp only [OneReg.form, fld, BitVec.toNat_ofNat]; omega
    subst hsl; simp [rowOf, rowS, rowS36, h0]) rfl (two hw).1 (two hw).2 hs
theorem cadv (o : OpInfo) (r : CadvArgs) : Statement (.cadv o r) := fun iss hw hs =>
  decode_enc (l := CadvArgs.limits) (row := .cadv) (mk := .cadv o) (slots := [.x]) (CadvArgs.law (fun _ _ => true)) (by decide) (fun _ _ _ => rfl) (fun _ _ _ _ => rfl) (fun sl hsl ex hex => by
    simp only [List.mem_cons, List.not_mem_nil, or_false] at hsl
    subst hsl; rfl) rfl (two hw).1 (two hw).2 hs
theorem popc (o : OpInfo) (r : RR) : Statement (.popc o r) := fun iss hw hs =>
  decode_enc (l := RR.limits) (row := .popc) (mk := .popc o) (slots := [.x]) (RR.law 0 (by decide) (fun _ _ => true)) (by decide) (fun _ _ _ => rfl) (fun _ _ _ _ => rfl) (fun sl hsl ex hex => by
    simp only [List.mem_cons, List.not_mem_nil, or_false] at hsl
    have h0 : fld (RR.form.body 0 r) 0 5 = 0#5 := by
      apply BitVec.eq_of_toNat_eq; simp only [RR.form, fld, BitVec.toNat_ofNat]; omega
    subst hsl; simp [rowOf, rowX, rowX11, h0]) rfl (two hw).1 (two hw).2 hs
theorem clz (o : OpInfo) (r : RR) : Statement (.clz o r) := fun iss hw hs =>
  decode_enc (l := RR.limits) (row := .clz) (mk := .clz o) (slots := [.x]) (RR.law 1 (by decide) (fun _ _ => true)) (by decide) (fun _ _ _ => rfl) (fun _ _ _ _ => rfl) (fun sl hsl ex hex => by
    simp only [List.mem_cons, List.not_mem_nil, or_false] at hsl
    have h0 : fld (RR.form.body 1 r) 0 5 = 1#5 := by
      apply BitVec.eq_of_toNat_eq; simp only [RR.form, fld, BitVec.toNat_ofNat]; omega
    subst hsl; simp [rowOf, rowX, rowX11, h0]) rfl (two hw).1 (two hw).2 hs
theorem ctz (o : OpInfo) (r : RR) : Statement (.ctz o r) := fun iss hw hs =>
  decode_enc (l := RR.limits) (row := .ctz) (mk := .ctz o) (slots := [.x]) (RR.law 2 (by decide) (fun _ _ => true)) (by decide) (fun _ _ _ => rfl) (fun _ _ _ _ => rfl) (fun sl hsl ex hex => by
    simp only [List.mem_cons, List.not_mem_nil, or_false] at hsl
    have h0 : fld (RR.form.body 2 r) 0 5 = 2#5 := by
      apply BitVec.eq_of_toNat_eq; simp only [RR.form, fld, BitVec.toNat_ofNat]; omega
    subst hsl; simp [rowOf, rowX, rowX11, h0]) rfl (two hw).1 (two hw).2 hs
theorem bscan (o : OpInfo) (r : RRR) : Statement (.bscan o r) := fun iss hw hs =>
  decode_enc (l := RRR.limits) (row := .bscan) (mk := .bscan o) (slots := [.x]) (RRR.law 0 (by decide) (fun _ _ => true)) (by decide) (fun _ _ _ => rfl) (fun _ _ _ _ => rfl) (fun sl hsl ex hex => by
    simp only [List.mem_cons, List.not_mem_nil, or_false] at hsl
    have h0 : fld (RRR.form.body 0 r) 0 5 = 0#5 := by
      apply BitVec.eq_of_toNat_eq; simp only [RRR.form, fld, BitVec.toNat_ofNat]; omega
    subst hsl; simp [rowOf, rowX, rowX12, h0]) rfl (two hw).1 (two hw).2 hs
theorem bscanc (o : OpInfo) (r : RRR) : Statement (.bscanc o r) := fun iss hw hs =>
  decode_enc (l := RRR.limits) (row := .bscanc) (mk := .bscanc o) (slots := [.x]) (RRR.law 1 (by decide) (fun _ _ => true)) (by decide) (fun _ _ _ => rfl) (fun _ _ _ _ => rfl) (fun sl hsl ex hex => by
    simp only [List.mem_cons, List.not_mem_nil, or_false] at hsl
    have h0 : fld (RRR.form.body 1 r) 0 5 = 1#5 := by
      apply BitVec.eq_of_toNat_eq; simp only [RRR.form, fld, BitVec.toNat_ofNat]; omega
    subst hsl; simp [rowOf, rowX, rowX12, h0]) rfl (two hw).1 (two hw).2 hs
theorem aqp (o : OpInfo) (r : AqPush) : Statement (.aqp o r) := fun iss hw hs =>
  decode_enc (l := AqPush.limits) (row := .aqp) (mk := .aqp o) (slots := [.x]) (AqPush.law 0 (by decide) (fun _ _ => true)) (by decide) (fun _ _ _ => rfl) (fun _ _ _ _ => rfl) (fun sl hsl ex hex => by
    simp only [List.mem_cons, List.not_mem_nil, or_false] at hsl
    have h0 : fld (AqPush.form.body 0 r) 3 2 = 0#2 := by
      apply BitVec.eq_of_toNat_eq; simp only [AqPush.form, fld, BitVec.toNat_ofNat]; omega
    subst hsl; simp [rowOf, rowX, rowX18, h0]) rfl (two hw).1 (two hw).2 hs
theorem aqpIdx (o : OpInfo) (r : AqPushIdx) : Statement (.aqpIdx o r) := fun iss hw hs =>
  decode_enc (l := AqPushIdx.limits) (row := .aqpIdx) (mk := .aqpIdx o) (slots := [.x]) (AqPushIdx.law 1 (by decide) (fun _ _ => true)) (by decide) (fun _ _ _ => rfl) (fun _ _ _ _ => rfl) (fun sl hsl ex hex => by
    simp only [List.mem_cons, List.not_mem_nil, or_false] at hsl
    have h0 : fld (AqPushIdx.form.body 1 r) 3 2 = 1#2 := by
      apply BitVec.eq_of_toNat_eq; simp only [AqPushIdx.form, fld, BitVec.toNat_ofNat]; omega
    subst hsl; simp [rowOf, rowX, rowX18, h0]) rfl (two hw).1 (two hw).2 hs
theorem aqps (o : OpInfo) (r : AqRun) : Statement (.aqps o r) := fun iss hw hs =>
  decode_enc (l := AqRun.limits) (row := .aqps) (mk := .aqps o) (slots := [.x]) (AqRun.law 0 (by decide) (fun _ _ => true)) (by decide) (fun _ _ _ => rfl) (fun _ _ _ _ => rfl) (fun sl hsl ex hex => by
    simp only [List.mem_cons, List.not_mem_nil, or_false] at hsl
    have h0 : fld (AqRun.form.body 0 r) 3 2 = 0#2 := by
      apply BitVec.eq_of_toNat_eq; simp only [AqRun.form, fld, BitVec.toNat_ofNat]; omega
    subst hsl; simp [rowOf, rowX, rowX19, h0]) rfl (two hw).1 (two hw).2 hs
theorem vadd (o : OpInfo) (r : VInt3) : Statement (.vadd o r) := fun iss hw hs =>
  decode_enc (l := VInt3.limits) (row := .vadd) (mk := .vadd o) (slots := [.v0, .v1]) (VInt3.law 0 (by decide) (fun _ _ => true)) (by decide) (fun _ _ _ => rfl) (fun _ _ _ _ => rfl) (fun sl hsl ex hex => by
    simp only [List.mem_cons, List.not_mem_nil, or_false] at hsl
    have h0 : fld (VInt3.form.body 0 r) 0 5 = 0#5 := by
      apply BitVec.eq_of_toNat_eq; simp only [VInt3.form, fld, BitVec.toNat_ofNat]; omega
    rcases hsl with rfl | rfl <;> simp [rowOf, rowV, rowV01, h0]) rfl (two hw).1 (two hw).2 hs
theorem vsub (o : OpInfo) (r : VInt3) : Statement (.vsub o r) := fun iss hw hs =>
  decode_enc (l := VInt3.limits) (row := .vsub) (mk := .vsub o) (slots := [.v0, .v1]) (VInt3.law 1 (by decide) (fun _ _ => true)) (by decide) (fun _ _ _ => rfl) (fun _ _ _ _ => rfl) (fun sl hsl ex hex => by
    simp only [List.mem_cons, List.not_mem_nil, or_false] at hsl
    have h0 : fld (VInt3.form.body 1 r) 0 5 = 1#5 := by
      apply BitVec.eq_of_toNat_eq; simp only [VInt3.form, fld, BitVec.toNat_ofNat]; omega
    rcases hsl with rfl | rfl <;> simp [rowOf, rowV, rowV01, h0]) rfl (two hw).1 (two hw).2 hs
theorem vmul (o : OpInfo) (r : VInt3) : Statement (.vmul o r) := fun iss hw hs =>
  decode_enc (l := VInt3.limits) (row := .vmul) (mk := .vmul o) (slots := [.v0, .v1]) (VInt3.law 2 (by decide) (fun _ _ => true)) (by decide) (fun _ _ _ => rfl) (fun _ _ _ _ => rfl) (fun sl hsl ex hex => by
    simp only [List.mem_cons, List.not_mem_nil, or_false] at hsl
    have h0 : fld (VInt3.form.body 2 r) 0 5 = 2#5 := by
      apply BitVec.eq_of_toNat_eq; simp only [VInt3.form, fld, BitVec.toNat_ofNat]; omega
    rcases hsl with rfl | rfl <;> simp [rowOf, rowV, rowV01, h0]) rfl (two hw).1 (two hw).2 hs
theorem vmulhs (o : OpInfo) (r : VInt3) : Statement (.vmulhs o r) := fun iss hw hs =>
  decode_enc (l := VInt3.limits) (row := .vmulhs) (mk := .vmulhs o) (slots := [.v0, .v1]) (VInt3.law 3 (by decide) (fun _ _ => true)) (by decide) (fun _ _ _ => rfl) (fun _ _ _ _ => rfl) (fun sl hsl ex hex => by
    simp only [List.mem_cons, List.not_mem_nil, or_false] at hsl
    have h0 : fld (VInt3.form.body 3 r) 0 5 = 3#5 := by
      apply BitVec.eq_of_toNat_eq; simp only [VInt3.form, fld, BitVec.toNat_ofNat]; omega
    rcases hsl with rfl | rfl <;> simp [rowOf, rowV, rowV01, h0]) rfl (two hw).1 (two hw).2 hs
theorem vmulhu (o : OpInfo) (r : VInt3) : Statement (.vmulhu o r) := fun iss hw hs =>
  decode_enc (l := VInt3.limits) (row := .vmulhu) (mk := .vmulhu o) (slots := [.v0, .v1]) (VInt3.law 4 (by decide) (fun _ _ => true)) (by decide) (fun _ _ _ => rfl) (fun _ _ _ _ => rfl) (fun sl hsl ex hex => by
    simp only [List.mem_cons, List.not_mem_nil, or_false] at hsl
    have h0 : fld (VInt3.form.body 4 r) 0 5 = 4#5 := by
      apply BitVec.eq_of_toNat_eq; simp only [VInt3.form, fld, BitVec.toNat_ofNat]; omega
    rcases hsl with rfl | rfl <;> simp [rowOf, rowV, rowV01, h0]) rfl (two hw).1 (two hw).2 hs
theorem vmin (o : OpInfo) (r : VInt3) : Statement (.vmin o r) := fun iss hw hs =>
  decode_enc (l := VInt3.limits) (row := .vmin) (mk := .vmin o) (slots := [.v0, .v1]) (VInt3.law 5 (by decide) (fun _ _ => true)) (by decide) (fun _ _ _ => rfl) (fun _ _ _ _ => rfl) (fun sl hsl ex hex => by
    simp only [List.mem_cons, List.not_mem_nil, or_false] at hsl
    have h0 : fld (VInt3.form.body 5 r) 0 5 = 5#5 := by
      apply BitVec.eq_of_toNat_eq; simp only [VInt3.form, fld, BitVec.toNat_ofNat]; omega
    rcases hsl with rfl | rfl <;> simp [rowOf, rowV, rowV01, h0]) rfl (two hw).1 (two hw).2 hs
theorem vmax (o : OpInfo) (r : VInt3) : Statement (.vmax o r) := fun iss hw hs =>
  decode_enc (l := VInt3.limits) (row := .vmax) (mk := .vmax o) (slots := [.v0, .v1]) (VInt3.law 6 (by decide) (fun _ _ => true)) (by decide) (fun _ _ _ => rfl) (fun _ _ _ _ => rfl) (fun sl hsl ex hex => by
    simp only [List.mem_cons, List.not_mem_nil, or_false] at hsl
    have h0 : fld (VInt3.form.body 6 r) 0 5 = 6#5 := by
      apply BitVec.eq_of_toNat_eq; simp only [VInt3.form, fld, BitVec.toNat_ofNat]; omega
    rcases hsl with rfl | rfl <;> simp [rowOf, rowV, rowV01, h0]) rfl (two hw).1 (two hw).2 hs
theorem vminu (o : OpInfo) (r : VInt3) : Statement (.vminu o r) := fun iss hw hs =>
  decode_enc (l := VInt3.limits) (row := .vminu) (mk := .vminu o) (slots := [.v0, .v1]) (VInt3.law 7 (by decide) (fun _ _ => true)) (by decide) (fun _ _ _ => rfl) (fun _ _ _ _ => rfl) (fun sl hsl ex hex => by
    simp only [List.mem_cons, List.not_mem_nil, or_false] at hsl
    have h0 : fld (VInt3.form.body 7 r) 0 5 = 7#5 := by
      apply BitVec.eq_of_toNat_eq; simp only [VInt3.form, fld, BitVec.toNat_ofNat]; omega
    rcases hsl with rfl | rfl <;> simp [rowOf, rowV, rowV01, h0]) rfl (two hw).1 (two hw).2 hs
theorem vmaxu (o : OpInfo) (r : VInt3) : Statement (.vmaxu o r) := fun iss hw hs =>
  decode_enc (l := VInt3.limits) (row := .vmaxu) (mk := .vmaxu o) (slots := [.v0, .v1]) (VInt3.law 8 (by decide) (fun _ _ => true)) (by decide) (fun _ _ _ => rfl) (fun _ _ _ _ => rfl) (fun sl hsl ex hex => by
    simp only [List.mem_cons, List.not_mem_nil, or_false] at hsl
    have h0 : fld (VInt3.form.body 8 r) 0 5 = 8#5 := by
      apply BitVec.eq_of_toNat_eq; simp only [VInt3.form, fld, BitVec.toNat_ofNat]; omega
    rcases hsl with rfl | rfl <;> simp [rowOf, rowV, rowV01, h0]) rfl (two hw).1 (two hw).2 hs
theorem vadds (o : OpInfo) (r : VInt3) : Statement (.vadds o r) := fun iss hw hs =>
  decode_enc (l := VInt3.limits) (row := .vadds) (mk := .vadds o) (slots := [.v0, .v1]) (VInt3.law 9 (by decide) (fun _ _ => true)) (by decide) (fun _ _ _ => rfl) (fun _ _ _ _ => rfl) (fun sl hsl ex hex => by
    simp only [List.mem_cons, List.not_mem_nil, or_false] at hsl
    have h0 : fld (VInt3.form.body 9 r) 0 5 = 9#5 := by
      apply BitVec.eq_of_toNat_eq; simp only [VInt3.form, fld, BitVec.toNat_ofNat]; omega
    rcases hsl with rfl | rfl <;> simp [rowOf, rowV, rowV01, h0]) rfl (two hw).1 (two hw).2 hs
theorem vsubs (o : OpInfo) (r : VInt3) : Statement (.vsubs o r) := fun iss hw hs =>
  decode_enc (l := VInt3.limits) (row := .vsubs) (mk := .vsubs o) (slots := [.v0, .v1]) (VInt3.law 10 (by decide) (fun _ _ => true)) (by decide) (fun _ _ _ => rfl) (fun _ _ _ _ => rfl) (fun sl hsl ex hex => by
    simp only [List.mem_cons, List.not_mem_nil, or_false] at hsl
    have h0 : fld (VInt3.form.body 10 r) 0 5 = 10#5 := by
      apply BitVec.eq_of_toNat_eq; simp only [VInt3.form, fld, BitVec.toNat_ofNat]; omega
    rcases hsl with rfl | rfl <;> simp [rowOf, rowV, rowV01, h0]) rfl (two hw).1 (two hw).2 hs
theorem vaddus (o : OpInfo) (r : VInt3) : Statement (.vaddus o r) := fun iss hw hs =>
  decode_enc (l := VInt3.limits) (row := .vaddus) (mk := .vaddus o) (slots := [.v0, .v1]) (VInt3.law 11 (by decide) (fun _ _ => true)) (by decide) (fun _ _ _ => rfl) (fun _ _ _ _ => rfl) (fun sl hsl ex hex => by
    simp only [List.mem_cons, List.not_mem_nil, or_false] at hsl
    have h0 : fld (VInt3.form.body 11 r) 0 5 = 11#5 := by
      apply BitVec.eq_of_toNat_eq; simp only [VInt3.form, fld, BitVec.toNat_ofNat]; omega
    rcases hsl with rfl | rfl <;> simp [rowOf, rowV, rowV01, h0]) rfl (two hw).1 (two hw).2 hs
theorem vsubus (o : OpInfo) (r : VInt3) : Statement (.vsubus o r) := fun iss hw hs =>
  decode_enc (l := VInt3.limits) (row := .vsubus) (mk := .vsubus o) (slots := [.v0, .v1]) (VInt3.law 12 (by decide) (fun _ _ => true)) (by decide) (fun _ _ _ => rfl) (fun _ _ _ _ => rfl) (fun sl hsl ex hex => by
    simp only [List.mem_cons, List.not_mem_nil, or_false] at hsl
    have h0 : fld (VInt3.form.body 12 r) 0 5 = 12#5 := by
      apply BitVec.eq_of_toNat_eq; simp only [VInt3.form, fld, BitVec.toNat_ofNat]; omega
    rcases hsl with rfl | rfl <;> simp [rowOf, rowV, rowV01, h0]) rfl (two hw).1 (two hw).2 hs
theorem vabs (o : OpInfo) (r : VInt2) : Statement (.vabs o r) := fun iss hw hs =>
  decode_enc (l := VInt2.limits) (row := .vabs) (mk := .vabs o) (slots := [.v0, .v1]) (VInt2.law 13 (by decide) (fun _ _ => true)) (by decide) (fun _ _ _ => rfl) (fun _ _ _ _ => rfl) (fun sl hsl ex hex => by
    simp only [List.mem_cons, List.not_mem_nil, or_false] at hsl
    have h0 : fld (VInt2.form.body 13 r) 0 5 = 13#5 := by
      apply BitVec.eq_of_toNat_eq; simp only [VInt2.form, fld, BitVec.toNat_ofNat]; omega
    rcases hsl with rfl | rfl <;> simp [rowOf, rowV, rowV01, h0]) rfl (two hw).1 (two hw).2 hs
theorem vneg (o : OpInfo) (r : VInt2) : Statement (.vneg o r) := fun iss hw hs =>
  decode_enc (l := VInt2.limits) (row := .vneg) (mk := .vneg o) (slots := [.v0, .v1]) (VInt2.law 14 (by decide) (fun _ _ => true)) (by decide) (fun _ _ _ => rfl) (fun _ _ _ _ => rfl) (fun sl hsl ex hex => by
    simp only [List.mem_cons, List.not_mem_nil, or_false] at hsl
    have h0 : fld (VInt2.form.body 14 r) 0 5 = 14#5 := by
      apply BitVec.eq_of_toNat_eq; simp only [VInt2.form, fld, BitVec.toNat_ofNat]; omega
    rcases hsl with rfl | rfl <;> simp [rowOf, rowV, rowV01, h0]) rfl (two hw).1 (two hw).2 hs
theorem vand (o : OpInfo) (r : VInt3) : Statement (.vand o r) := fun iss hw hs =>
  decode_enc (l := VInt3.limits) (row := .vand) (mk := .vand o) (slots := [.v0, .v1]) (VInt3.law 15 (by decide) (fun _ _ => true)) (by decide) (fun _ _ _ => rfl) (fun _ _ _ _ => rfl) (fun sl hsl ex hex => by
    simp only [List.mem_cons, List.not_mem_nil, or_false] at hsl
    have h0 : fld (VInt3.form.body 15 r) 0 5 = 15#5 := by
      apply BitVec.eq_of_toNat_eq; simp only [VInt3.form, fld, BitVec.toNat_ofNat]; omega
    rcases hsl with rfl | rfl <;> simp [rowOf, rowV, rowV01, h0]) rfl (two hw).1 (two hw).2 hs
theorem vor (o : OpInfo) (r : VInt3) : Statement (.vor o r) := fun iss hw hs =>
  decode_enc (l := VInt3.limits) (row := .vor) (mk := .vor o) (slots := [.v0, .v1]) (VInt3.law 16 (by decide) (fun _ _ => true)) (by decide) (fun _ _ _ => rfl) (fun _ _ _ _ => rfl) (fun sl hsl ex hex => by
    simp only [List.mem_cons, List.not_mem_nil, or_false] at hsl
    have h0 : fld (VInt3.form.body 16 r) 0 5 = 16#5 := by
      apply BitVec.eq_of_toNat_eq; simp only [VInt3.form, fld, BitVec.toNat_ofNat]; omega
    rcases hsl with rfl | rfl <;> simp [rowOf, rowV, rowV01, h0]) rfl (two hw).1 (two hw).2 hs
theorem vxor (o : OpInfo) (r : VInt3) : Statement (.vxor o r) := fun iss hw hs =>
  decode_enc (l := VInt3.limits) (row := .vxor) (mk := .vxor o) (slots := [.v0, .v1]) (VInt3.law 17 (by decide) (fun _ _ => true)) (by decide) (fun _ _ _ => rfl) (fun _ _ _ _ => rfl) (fun sl hsl ex hex => by
    simp only [List.mem_cons, List.not_mem_nil, or_false] at hsl
    have h0 : fld (VInt3.form.body 17 r) 0 5 = 17#5 := by
      apply BitVec.eq_of_toNat_eq; simp only [VInt3.form, fld, BitVec.toNat_ofNat]; omega
    rcases hsl with rfl | rfl <;> simp [rowOf, rowV, rowV01, h0]) rfl (two hw).1 (two hw).2 hs
theorem vandn (o : OpInfo) (r : VInt3) : Statement (.vandn o r) := fun iss hw hs =>
  decode_enc (l := VInt3.limits) (row := .vandn) (mk := .vandn o) (slots := [.v0, .v1]) (VInt3.law 18 (by decide) (fun _ _ => true)) (by decide) (fun _ _ _ => rfl) (fun _ _ _ _ => rfl) (fun sl hsl ex hex => by
    simp only [List.mem_cons, List.not_mem_nil, or_false] at hsl
    have h0 : fld (VInt3.form.body 18 r) 0 5 = 18#5 := by
      apply BitVec.eq_of_toNat_eq; simp only [VInt3.form, fld, BitVec.toNat_ofNat]; omega
    rcases hsl with rfl | rfl <;> simp [rowOf, rowV, rowV01, h0]) rfl (two hw).1 (two hw).2 hs
theorem vmov (o : OpInfo) (r : VInt2) : Statement (.vmov o r) := fun iss hw hs =>
  decode_enc (l := VInt2.limits) (row := .vmov) (mk := .vmov o) (slots := [.v0, .v1]) (VInt2.law 19 (by decide) (fun _ _ => true)) (by decide) (fun _ _ _ => rfl) (fun _ _ _ _ => rfl) (fun sl hsl ex hex => by
    simp only [List.mem_cons, List.not_mem_nil, or_false] at hsl
    have h0 : fld (VInt2.form.body 19 r) 0 5 = 19#5 := by
      apply BitVec.eq_of_toNat_eq; simp only [VInt2.form, fld, BitVec.toNat_ofNat]; omega
    rcases hsl with rfl | rfl <;> simp [rowOf, rowV, rowV01, h0]) rfl (two hw).1 (two hw).2 hs
theorem vmulq (o : OpInfo) (r : VInt3) : Statement (.vmulq o r) := fun iss hw hs =>
  decode_enc (l := VInt3.limits) (row := .vmulq) (mk := .vmulq o) (slots := [.v0, .v1]) (VInt3.law 20 (by decide) (fun _ _ => true)) (by decide) (fun _ _ _ => rfl) (fun _ _ _ _ => rfl) (fun sl hsl ex hex => by
    simp only [List.mem_cons, List.not_mem_nil, or_false] at hsl
    have h0 : fld (VInt3.form.body 20 r) 0 5 = 20#5 := by
      apply BitVec.eq_of_toNat_eq; simp only [VInt3.form, fld, BitVec.toNat_ofNat]; omega
    rcases hsl with rfl | rfl <;> simp [rowOf, rowV, rowV01, h0]) rfl (two hw).1 (two hw).2 hs
theorem vmac (o : OpInfo) (r : VInt3) : Statement (.vmac o r) := fun iss hw hs =>
  decode_enc (l := VInt3.limits) (row := .vmac) (mk := .vmac o) (slots := [.v0, .v1]) (VInt3.law 21 (by decide) (fun _ _ => true)) (by decide) (fun _ _ _ => rfl) (fun _ _ _ _ => rfl) (fun sl hsl ex hex => by
    simp only [List.mem_cons, List.not_mem_nil, or_false] at hsl
    have h0 : fld (VInt3.form.body 21 r) 0 5 = 21#5 := by
      apply BitVec.eq_of_toNat_eq; simp only [VInt3.form, fld, BitVec.toNat_ofNat]; omega
    rcases hsl with rfl | rfl <;> simp [rowOf, rowV, rowV01, h0]) rfl (two hw).1 (two hw).2 hs
theorem vmacs (o : OpInfo) (r : VInt3) : Statement (.vmacs o r) := fun iss hw hs =>
  decode_enc (l := VInt3.limits) (row := .vmacs) (mk := .vmacs o) (slots := [.v0, .v1]) (VInt3.law 22 (by decide) (fun _ _ => true)) (by decide) (fun _ _ _ => rfl) (fun _ _ _ _ => rfl) (fun sl hsl ex hex => by
    simp only [List.mem_cons, List.not_mem_nil, or_false] at hsl
    have h0 : fld (VInt3.form.body 22 r) 0 5 = 22#5 := by
      apply BitVec.eq_of_toNat_eq; simp only [VInt3.form, fld, BitVec.toNat_ofNat]; omega
    rcases hsl with rfl | rfl <;> simp [rowOf, rowV, rowV01, h0]) rfl (two hw).1 (two hw).2 hs
theorem vmacwl (o : OpInfo) (r : VInt3) : Statement (.vmacwl o r) := fun iss hw hs =>
  decode_enc (l := VInt3.limits) (row := .vmacwl) (mk := .vmacwl o) (slots := [.v0, .v1]) (VInt3.law 23 (by decide) (fun _ _ => true)) (by decide) (fun _ _ _ => rfl) (fun _ _ _ _ => rfl) (fun sl hsl ex hex => by
    simp only [List.mem_cons, List.not_mem_nil, or_false] at hsl
    have h0 : fld (VInt3.form.body 23 r) 0 5 = 23#5 := by
      apply BitVec.eq_of_toNat_eq; simp only [VInt3.form, fld, BitVec.toNat_ofNat]; omega
    rcases hsl with rfl | rfl <;> simp [rowOf, rowV, rowV01, h0]) rfl (two hw).1 (two hw).2 hs
theorem vmacwh (o : OpInfo) (r : VInt3) : Statement (.vmacwh o r) := fun iss hw hs =>
  decode_enc (l := VInt3.limits) (row := .vmacwh) (mk := .vmacwh o) (slots := [.v0, .v1]) (VInt3.law 24 (by decide) (fun _ _ => true)) (by decide) (fun _ _ _ => rfl) (fun _ _ _ _ => rfl) (fun sl hsl ex hex => by
    simp only [List.mem_cons, List.not_mem_nil, or_false] at hsl
    have h0 : fld (VInt3.form.body 24 r) 0 5 = 24#5 := by
      apply BitVec.eq_of_toNat_eq; simp only [VInt3.form, fld, BitVec.toNat_ofNat]; omega
    rcases hsl with rfl | rfl <;> simp [rowOf, rowV, rowV01, h0]) rfl (two hw).1 (two hw).2 hs
theorem vshl (o : OpInfo) (r : VInt3) : Statement (.vshl o r) := fun iss hw hs =>
  decode_enc (l := VInt3.limits) (row := .vshl) (mk := .vshl o) (slots := [.v0, .v1]) (VInt3.law 0 (by decide) (fun _ _ => true)) (by decide) (fun _ _ _ => rfl) (fun _ _ _ _ => rfl) (fun sl hsl ex hex => by
    simp only [List.mem_cons, List.not_mem_nil, or_false] at hsl
    have h0 : fld (VInt3.form.body 0 r) 0 5 = 0#5 := by
      apply BitVec.eq_of_toNat_eq; simp only [VInt3.form, fld, BitVec.toNat_ofNat]; omega
    rcases hsl with rfl | rfl <;> simp [rowOf, rowV, rowV02, h0]) rfl (two hw).1 (two hw).2 hs
theorem vshr (o : OpInfo) (r : VInt3) : Statement (.vshr o r) := fun iss hw hs =>
  decode_enc (l := VInt3.limits) (row := .vshr) (mk := .vshr o) (slots := [.v0, .v1]) (VInt3.law 1 (by decide) (fun _ _ => true)) (by decide) (fun _ _ _ => rfl) (fun _ _ _ _ => rfl) (fun sl hsl ex hex => by
    simp only [List.mem_cons, List.not_mem_nil, or_false] at hsl
    have h0 : fld (VInt3.form.body 1 r) 0 5 = 1#5 := by
      apply BitVec.eq_of_toNat_eq; simp only [VInt3.form, fld, BitVec.toNat_ofNat]; omega
    rcases hsl with rfl | rfl <;> simp [rowOf, rowV, rowV02, h0]) rfl (two hw).1 (two hw).2 hs
theorem vsra (o : OpInfo) (r : VInt3) : Statement (.vsra o r) := fun iss hw hs =>
  decode_enc (l := VInt3.limits) (row := .vsra) (mk := .vsra o) (slots := [.v0, .v1]) (VInt3.law 2 (by decide) (fun _ _ => true)) (by decide) (fun _ _ _ => rfl) (fun _ _ _ _ => rfl) (fun sl hsl ex hex => by
    simp only [List.mem_cons, List.not_mem_nil, or_false] at hsl
    have h0 : fld (VInt3.form.body 2 r) 0 5 = 2#5 := by
      apply BitVec.eq_of_toNat_eq; simp only [VInt3.form, fld, BitVec.toNat_ofNat]; omega
    rcases hsl with rfl | rfl <;> simp [rowOf, rowV, rowV02, h0]) rfl (two hw).1 (two hw).2 hs
theorem vrol (o : OpInfo) (r : VInt3) : Statement (.vrol o r) := fun iss hw hs =>
  decode_enc (l := VInt3.limits) (row := .vrol) (mk := .vrol o) (slots := [.v0, .v1]) (VInt3.law 3 (by decide) (fun _ _ => true)) (by decide) (fun _ _ _ => rfl) (fun _ _ _ _ => rfl) (fun sl hsl ex hex => by
    simp only [List.mem_cons, List.not_mem_nil, or_false] at hsl
    have h0 : fld (VInt3.form.body 3 r) 0 5 = 3#5 := by
      apply BitVec.eq_of_toNat_eq; simp only [VInt3.form, fld, BitVec.toNat_ofNat]; omega
    rcases hsl with rfl | rfl <;> simp [rowOf, rowV, rowV02, h0]) rfl (two hw).1 (two hw).2 hs
theorem vshlImm (o : OpInfo) (r : VIntK) : Statement (.vshlImm o r) := fun iss hw hs =>
  decode_enc (l := VIntK.limits) (row := .vshlImm) (mk := .vshlImm o) (slots := [.v0, .v1]) (VIntK.law 4 (by decide) (fun _ _ => true)) (by decide) (fun _ _ _ => rfl) (fun _ _ _ _ => rfl) (fun sl hsl ex hex => by
    simp only [List.mem_cons, List.not_mem_nil, or_false] at hsl
    have h0 : fld (VIntK.form.body 4 r) 0 5 = 4#5 := by
      apply BitVec.eq_of_toNat_eq; simp only [VIntK.form, fld, BitVec.toNat_ofNat]; omega
    rcases hsl with rfl | rfl <;> simp [rowOf, rowV, rowV02, h0]) rfl (two hw).1 (two hw).2 hs
theorem vshrImm (o : OpInfo) (r : VIntK) : Statement (.vshrImm o r) := fun iss hw hs =>
  decode_enc (l := VIntK.limits) (row := .vshrImm) (mk := .vshrImm o) (slots := [.v0, .v1]) (VIntK.law 5 (by decide) (fun _ _ => true)) (by decide) (fun _ _ _ => rfl) (fun _ _ _ _ => rfl) (fun sl hsl ex hex => by
    simp only [List.mem_cons, List.not_mem_nil, or_false] at hsl
    have h0 : fld (VIntK.form.body 5 r) 0 5 = 5#5 := by
      apply BitVec.eq_of_toNat_eq; simp only [VIntK.form, fld, BitVec.toNat_ofNat]; omega
    rcases hsl with rfl | rfl <;> simp [rowOf, rowV, rowV02, h0]) rfl (two hw).1 (two hw).2 hs
theorem vsraImm (o : OpInfo) (r : VIntK) : Statement (.vsraImm o r) := fun iss hw hs =>
  decode_enc (l := VIntK.limits) (row := .vsraImm) (mk := .vsraImm o) (slots := [.v0, .v1]) (VIntK.law 6 (by decide) (fun _ _ => true)) (by decide) (fun _ _ _ => rfl) (fun _ _ _ _ => rfl) (fun sl hsl ex hex => by
    simp only [List.mem_cons, List.not_mem_nil, or_false] at hsl
    have h0 : fld (VIntK.form.body 6 r) 0 5 = 6#5 := by
      apply BitVec.eq_of_toNat_eq; simp only [VIntK.form, fld, BitVec.toNat_ofNat]; omega
    rcases hsl with rfl | rfl <;> simp [rowOf, rowV, rowV02, h0]) rfl (two hw).1 (two hw).2 hs
theorem vrolImm (o : OpInfo) (r : VIntK) : Statement (.vrolImm o r) := fun iss hw hs =>
  decode_enc (l := VIntK.limits) (row := .vrolImm) (mk := .vrolImm o) (slots := [.v0, .v1]) (VIntK.law 7 (by decide) (fun _ _ => true)) (by decide) (fun _ _ _ => rfl) (fun _ _ _ _ => rfl) (fun sl hsl ex hex => by
    simp only [List.mem_cons, List.not_mem_nil, or_false] at hsl
    have h0 : fld (VIntK.form.body 7 r) 0 5 = 7#5 := by
      apply BitVec.eq_of_toNat_eq; simp only [VIntK.form, fld, BitVec.toNat_ofNat]; omega
    rcases hsl with rfl | rfl <;> simp [rowOf, rowV, rowV02, h0]) rfl (two hw).1 (two hw).2 hs
theorem vcmp (o : OpInfo) (r : VCmp) : Statement (.vcmp o r) := fun iss hw hs =>
  decode_enc (l := VCmp.limits) (row := .vcmp) (mk := .vcmp o) (slots := [.v0, .v1]) (VCmp.law (fun _ _ => true)) (by decide) (fun _ _ _ => rfl) (fun _ _ _ _ => rfl) (fun sl hsl ex hex => by
    simp only [List.mem_cons, List.not_mem_nil, or_false] at hsl
    rcases hsl with rfl | rfl <;> rfl) rfl (two hw).1 (two hw).2 hs
theorem vfcmp (o : OpInfo) (r : VFCmp) : Statement (.vfcmp o r) := fun iss hw hs =>
  decode_enc (l := VFCmp.limits) (row := .vfcmp) (mk := .vfcmp o) (slots := [.v0, .v1]) (VFCmp.law (fun _ _ => true)) (by decide) (fun _ _ _ => rfl) (fun _ _ _ _ => rfl) (fun sl hsl ex hex => by
    simp only [List.mem_cons, List.not_mem_nil, or_false] at hsl
    rcases hsl with rfl | rfl <;> rfl) rfl (two hw).1 (two hw).2 hs
theorem vsel (o : OpInfo) (r : VSel) : Statement (.vsel o r) := fun iss hw hs =>
  decode_enc (l := VSel.limits) (row := .vsel) (mk := .vsel o) (slots := [.v0, .v1]) (VSel.law (fun _ _ => true)) (by decide) (fun _ _ _ => rfl) (fun _ _ _ _ => rfl) (fun sl hsl ex hex => by
    simp only [List.mem_cons, List.not_mem_nil, or_false] at hsl
    rcases hsl with rfl | rfl <;> rfl) rfl (two hw).1 (two hw).2 hs
theorem vfadd (o : OpInfo) (r : VFp3) : Statement (.vfadd o r) := fun iss hw hs =>
  decode_enc (l := VFp3.limits) (row := .vfadd) (mk := .vfadd o) (slots := [.v0, .v1]) (VFp3.law 0 (by decide) (fun _ _ => true)) (by decide) (fun _ _ _ => rfl) (fun _ _ _ _ => rfl) (fun sl hsl ex hex => by
    simp only [List.mem_cons, List.not_mem_nil, or_false] at hsl
    have h0 : fld (VFp3.form.body 0 r) 0 5 = 0#5 := by
      apply BitVec.eq_of_toNat_eq; simp only [VFp3.form, fld, BitVec.toNat_ofNat]; omega
    rcases hsl with rfl | rfl <;> simp [rowOf, rowV, rowV04, h0]) rfl (two hw).1 (two hw).2 hs
theorem vfsub (o : OpInfo) (r : VFp3) : Statement (.vfsub o r) := fun iss hw hs =>
  decode_enc (l := VFp3.limits) (row := .vfsub) (mk := .vfsub o) (slots := [.v0, .v1]) (VFp3.law 1 (by decide) (fun _ _ => true)) (by decide) (fun _ _ _ => rfl) (fun _ _ _ _ => rfl) (fun sl hsl ex hex => by
    simp only [List.mem_cons, List.not_mem_nil, or_false] at hsl
    have h0 : fld (VFp3.form.body 1 r) 0 5 = 1#5 := by
      apply BitVec.eq_of_toNat_eq; simp only [VFp3.form, fld, BitVec.toNat_ofNat]; omega
    rcases hsl with rfl | rfl <;> simp [rowOf, rowV, rowV04, h0]) rfl (two hw).1 (two hw).2 hs
theorem vfmul (o : OpInfo) (r : VFp3) : Statement (.vfmul o r) := fun iss hw hs =>
  decode_enc (l := VFp3.limits) (row := .vfmul) (mk := .vfmul o) (slots := [.v0, .v1]) (VFp3.law 2 (by decide) (fun _ _ => true)) (by decide) (fun _ _ _ => rfl) (fun _ _ _ _ => rfl) (fun sl hsl ex hex => by
    simp only [List.mem_cons, List.not_mem_nil, or_false] at hsl
    have h0 : fld (VFp3.form.body 2 r) 0 5 = 2#5 := by
      apply BitVec.eq_of_toNat_eq; simp only [VFp3.form, fld, BitVec.toNat_ofNat]; omega
    rcases hsl with rfl | rfl <;> simp [rowOf, rowV, rowV04, h0]) rfl (two hw).1 (two hw).2 hs
theorem vfdiv (o : OpInfo) (r : VFp3) : Statement (.vfdiv o r) := fun iss hw hs =>
  decode_enc (l := VFp3.limits) (row := .vfdiv) (mk := .vfdiv o) (slots := [.v0, .v1]) (VFp3.law 3 (by decide) (fun _ _ => true)) (by decide) (fun _ _ _ => rfl) (fun _ _ _ _ => rfl) (fun sl hsl ex hex => by
    simp only [List.mem_cons, List.not_mem_nil, or_false] at hsl
    have h0 : fld (VFp3.form.body 3 r) 0 5 = 3#5 := by
      apply BitVec.eq_of_toNat_eq; simp only [VFp3.form, fld, BitVec.toNat_ofNat]; omega
    rcases hsl with rfl | rfl <;> simp [rowOf, rowV, rowV04, h0]) rfl (two hw).1 (two hw).2 hs
theorem vfsqrt (o : OpInfo) (r : VFp2) : Statement (.vfsqrt o r) := fun iss hw hs =>
  decode_enc (l := VFp2.limits) (row := .vfsqrt) (mk := .vfsqrt o) (slots := [.v0, .v1]) (VFp2.law 4 (by decide) (fun _ _ => true)) (by decide) (fun _ _ _ => rfl) (fun _ _ _ _ => rfl) (fun sl hsl ex hex => by
    simp only [List.mem_cons, List.not_mem_nil, or_false] at hsl
    have h0 : fld (VFp2.form.body 4 r) 0 5 = 4#5 := by
      apply BitVec.eq_of_toNat_eq; simp only [VFp2.form, fld, BitVec.toNat_ofNat]; omega
    rcases hsl with rfl | rfl <;> simp [rowOf, rowV, rowV04, h0]) rfl (two hw).1 (two hw).2 hs
theorem vfmin (o : OpInfo) (r : VFmt3) : Statement (.vfmin o r) := fun iss hw hs =>
  decode_enc (l := VFmt3.limits) (row := .vfmin) (mk := .vfmin o) (slots := [.v0, .v1]) (VFmt3.law 5 (by decide) (fun _ _ => true)) (by decide) (fun _ _ _ => rfl) (fun _ _ _ _ => rfl) (fun sl hsl ex hex => by
    simp only [List.mem_cons, List.not_mem_nil, or_false] at hsl
    have h0 : fld (VFmt3.form.body 5 r) 0 5 = 5#5 := by
      apply BitVec.eq_of_toNat_eq; simp only [VFmt3.form, fld, BitVec.toNat_ofNat]; omega
    rcases hsl with rfl | rfl <;> simp [rowOf, rowV, rowV04, h0]) rfl (two hw).1 (two hw).2 hs
theorem vfmax (o : OpInfo) (r : VFmt3) : Statement (.vfmax o r) := fun iss hw hs =>
  decode_enc (l := VFmt3.limits) (row := .vfmax) (mk := .vfmax o) (slots := [.v0, .v1]) (VFmt3.law 6 (by decide) (fun _ _ => true)) (by decide) (fun _ _ _ => rfl) (fun _ _ _ _ => rfl) (fun sl hsl ex hex => by
    simp only [List.mem_cons, List.not_mem_nil, or_false] at hsl
    have h0 : fld (VFmt3.form.body 6 r) 0 5 = 6#5 := by
      apply BitVec.eq_of_toNat_eq; simp only [VFmt3.form, fld, BitVec.toNat_ofNat]; omega
    rcases hsl with rfl | rfl <;> simp [rowOf, rowV, rowV04, h0]) rfl (two hw).1 (two hw).2 hs
theorem vfabs (o : OpInfo) (r : VFmt2) : Statement (.vfabs o r) := fun iss hw hs =>
  decode_enc (l := VFmt2.limits) (row := .vfabs) (mk := .vfabs o) (slots := [.v0, .v1]) (VFmt2.law 7 (by decide) (fun _ _ => true)) (by decide) (fun _ _ _ => rfl) (fun _ _ _ _ => rfl) (fun sl hsl ex hex => by
    simp only [List.mem_cons, List.not_mem_nil, or_false] at hsl
    have h0 : fld (VFmt2.form.body 7 r) 0 5 = 7#5 := by
      apply BitVec.eq_of_toNat_eq; simp only [VFmt2.form, fld, BitVec.toNat_ofNat]; omega
    rcases hsl with rfl | rfl <;> simp [rowOf, rowV, rowV04, h0]) rfl (two hw).1 (two hw).2 hs
theorem vfneg (o : OpInfo) (r : VFmt2) : Statement (.vfneg o r) := fun iss hw hs =>
  decode_enc (l := VFmt2.limits) (row := .vfneg) (mk := .vfneg o) (slots := [.v0, .v1]) (VFmt2.law 8 (by decide) (fun _ _ => true)) (by decide) (fun _ _ _ => rfl) (fun _ _ _ _ => rfl) (fun sl hsl ex hex => by
    simp only [List.mem_cons, List.not_mem_nil, or_false] at hsl
    have h0 : fld (VFmt2.form.body 8 r) 0 5 = 8#5 := by
      apply BitVec.eq_of_toNat_eq; simp only [VFmt2.form, fld, BitVec.toNat_ofNat]; omega
    rcases hsl with rfl | rfl <;> simp [rowOf, rowV, rowV04, h0]) rfl (two hw).1 (two hw).2 hs
theorem vfma (o : OpInfo) (r : VFp3) : Statement (.vfma o r) := fun iss hw hs =>
  decode_enc (l := VFp3.limits) (row := .vfma) (mk := .vfma o) (slots := [.v0, .v1]) (VFp3.law 0 (by decide) (fun _ _ => true)) (by decide) (fun _ _ _ => rfl) (fun _ _ _ _ => rfl) (fun sl hsl ex hex => by
    simp only [List.mem_cons, List.not_mem_nil, or_false] at hsl
    have h0 : fld (VFp3.form.body 0 r) 0 5 = 0#5 := by
      apply BitVec.eq_of_toNat_eq; simp only [VFp3.form, fld, BitVec.toNat_ofNat]; omega
    rcases hsl with rfl | rfl <;> simp [rowOf, rowV, rowV05, h0]) rfl (two hw).1 (two hw).2 hs
theorem vfms (o : OpInfo) (r : VFp3) : Statement (.vfms o r) := fun iss hw hs =>
  decode_enc (l := VFp3.limits) (row := .vfms) (mk := .vfms o) (slots := [.v0, .v1]) (VFp3.law 1 (by decide) (fun _ _ => true)) (by decide) (fun _ _ _ => rfl) (fun _ _ _ _ => rfl) (fun sl hsl ex hex => by
    simp only [List.mem_cons, List.not_mem_nil, or_false] at hsl
    have h0 : fld (VFp3.form.body 1 r) 0 5 = 1#5 := by
      apply BitVec.eq_of_toNat_eq; simp only [VFp3.form, fld, BitVec.toNat_ofNat]; omega
    rcases hsl with rfl | rfl <;> simp [rowOf, rowV, rowV05, h0]) rfl (two hw).1 (two hw).2 hs
theorem vfnma (o : OpInfo) (r : VFp3) : Statement (.vfnma o r) := fun iss hw hs =>
  decode_enc (l := VFp3.limits) (row := .vfnma) (mk := .vfnma o) (slots := [.v0, .v1]) (VFp3.law 2 (by decide) (fun _ _ => true)) (by decide) (fun _ _ _ => rfl) (fun _ _ _ _ => rfl) (fun sl hsl ex hex => by
    simp only [List.mem_cons, List.not_mem_nil, or_false] at hsl
    have h0 : fld (VFp3.form.body 2 r) 0 5 = 2#5 := by
      apply BitVec.eq_of_toNat_eq; simp only [VFp3.form, fld, BitVec.toNat_ofNat]; omega
    rcases hsl with rfl | rfl <;> simp [rowOf, rowV, rowV05, h0]) rfl (two hw).1 (two hw).2 hs
theorem vfnms (o : OpInfo) (r : VFp3) : Statement (.vfnms o r) := fun iss hw hs =>
  decode_enc (l := VFp3.limits) (row := .vfnms) (mk := .vfnms o) (slots := [.v0, .v1]) (VFp3.law 3 (by decide) (fun _ _ => true)) (by decide) (fun _ _ _ => rfl) (fun _ _ _ _ => rfl) (fun sl hsl ex hex => by
    simp only [List.mem_cons, List.not_mem_nil, or_false] at hsl
    have h0 : fld (VFp3.form.body 3 r) 0 5 = 3#5 := by
      apply BitVec.eq_of_toNat_eq; simp only [VFp3.form, fld, BitVec.toNat_ofNat]; omega
    rcases hsl with rfl | rfl <;> simp [rowOf, rowV, rowV05, h0]) rfl (two hw).1 (two hw).2 hs
theorem vcvt (o : OpInfo) (r : VCvt) : Statement (.vcvt o r) := fun iss hw hs =>
  decode_enc (l := VCvt.limits) (row := .vcvt) (mk := .vcvt o) (slots := [.v0, .v1]) (VCvt.law (fun _ _ => true)) (by decide) (fun _ _ _ => rfl) (fun _ _ _ _ => rfl) (fun sl hsl ex hex => by
    simp only [List.mem_cons, List.not_mem_nil, or_false] at hsl
    rcases hsl with rfl | rfl <;> rfl) rfl (two hw).1 (two hw).2 hs
theorem vqntE2m1s (o : OpInfo) (r : VQnt) : Statement (.vqntE2m1s o r) := fun iss hw hs =>
  decode_enc (l := VQnt.limits) (row := .vqntE2m1s) (mk := .vqntE2m1s o) (slots := [.v0, .v1]) (VQnt.law 0 (by decide) (fun _ _ => true)) (by decide) (fun _ _ _ => rfl) (fun _ _ _ _ => rfl) (fun sl hsl ex hex => by
    simp only [List.mem_cons, List.not_mem_nil, or_false] at hsl
    have h0 : fld (VQnt.form.body 0 r) 3 2 = 0#2 := by
      apply BitVec.eq_of_toNat_eq; simp only [VQnt.form, fld, BitVec.toNat_ofNat]; omega
    rcases hsl with rfl | rfl <;> simp [rowOf, rowV, rowV09, h0]) rfl (two hw).1 (two hw).2 hs
theorem vqntE4m3 (o : OpInfo) (r : VQnt) : Statement (.vqntE4m3 o r) := fun iss hw hs =>
  decode_enc (l := VQnt.limits) (row := .vqntE4m3) (mk := .vqntE4m3 o) (slots := [.v0, .v1]) (VQnt.law 1 (by decide) (fun _ _ => true)) (by decide) (fun _ _ _ => rfl) (fun _ _ _ _ => rfl) (fun sl hsl ex hex => by
    simp only [List.mem_cons, List.not_mem_nil, or_false] at hsl
    have h0 : fld (VQnt.form.body 1 r) 3 2 = 1#2 := by
      apply BitVec.eq_of_toNat_eq; simp only [VQnt.form, fld, BitVec.toNat_ofNat]; omega
    rcases hsl with rfl | rfl <;> simp [rowOf, rowV, rowV09, h0]) rfl (two hw).1 (two hw).2 hs
theorem vqntE5m2 (o : OpInfo) (r : VQnt) : Statement (.vqntE5m2 o r) := fun iss hw hs =>
  decode_enc (l := VQnt.limits) (row := .vqntE5m2) (mk := .vqntE5m2 o) (slots := [.v0, .v1]) (VQnt.law 2 (by decide) (fun _ _ => true)) (by decide) (fun _ _ _ => rfl) (fun _ _ _ _ => rfl) (fun sl hsl ex hex => by
    simp only [List.mem_cons, List.not_mem_nil, or_false] at hsl
    have h0 : fld (VQnt.form.body 2 r) 3 2 = 2#2 := by
      apply BitVec.eq_of_toNat_eq; simp only [VQnt.form, fld, BitVec.toNat_ofNat]; omega
    rcases hsl with rfl | rfl <;> simp [rowOf, rowV, rowV09, h0]) rfl (two hw).1 (two hw).2 hs
theorem vdqnt (o : OpInfo) (r : VDqnt) : Statement (.vdqnt o r) := fun iss hw hs =>
  decode_enc (l := VDqnt.limits) (row := .vdqnt) (mk := .vdqnt o) (slots := [.v0, .v1]) (VDqnt.law 3 (by decide) (fun _ _ => true)) (by decide) (fun _ _ _ => rfl) (fun _ _ _ _ => rfl) (fun sl hsl ex hex => by
    simp only [List.mem_cons, List.not_mem_nil, or_false] at hsl
    have h0 : fld (VDqnt.form.body 3 r) 3 2 = 3#2 := by
      apply BitVec.eq_of_toNat_eq; simp only [VDqnt.form, fld, BitVec.toNat_ofNat]; omega
    rcases hsl with rfl | rfl <;> simp [rowOf, rowV, rowV09, h0]) rfl (two hw).1 (two hw).2 hs
theorem vradd (o : OpInfo) (r : VInt2) : Statement (.vradd o r) := fun iss hw hs =>
  decode_enc (l := VInt2.limits) (row := .vradd) (mk := .vradd o) (slots := [.v0, .v1]) (VInt2.law 0 (by decide) (fun _ _ => true)) (by decide) (fun _ _ _ => rfl) (fun _ _ _ _ => rfl) (fun sl hsl ex hex => by
    simp only [List.mem_cons, List.not_mem_nil, or_false] at hsl
    have h0 : fld (VInt2.form.body 0 r) 0 5 = 0#5 := by
      apply BitVec.eq_of_toNat_eq; simp only [VInt2.form, fld, BitVec.toNat_ofNat]; omega
    rcases hsl with rfl | rfl <;> simp [rowOf, rowV, rowV0A, h0]) rfl (two hw).1 (two hw).2 hs
theorem vrmin (o : OpInfo) (r : VInt2) : Statement (.vrmin o r) := fun iss hw hs =>
  decode_enc (l := VInt2.limits) (row := .vrmin) (mk := .vrmin o) (slots := [.v0, .v1]) (VInt2.law 1 (by decide) (fun _ _ => true)) (by decide) (fun _ _ _ => rfl) (fun _ _ _ _ => rfl) (fun sl hsl ex hex => by
    simp only [List.mem_cons, List.not_mem_nil, or_false] at hsl
    have h0 : fld (VInt2.form.body 1 r) 0 5 = 1#5 := by
      apply BitVec.eq_of_toNat_eq; simp only [VInt2.form, fld, BitVec.toNat_ofNat]; omega
    rcases hsl with rfl | rfl <;> simp [rowOf, rowV, rowV0A, h0]) rfl (two hw).1 (two hw).2 hs
theorem vrmax (o : OpInfo) (r : VInt2) : Statement (.vrmax o r) := fun iss hw hs =>
  decode_enc (l := VInt2.limits) (row := .vrmax) (mk := .vrmax o) (slots := [.v0, .v1]) (VInt2.law 2 (by decide) (fun _ _ => true)) (by decide) (fun _ _ _ => rfl) (fun _ _ _ _ => rfl) (fun sl hsl ex hex => by
    simp only [List.mem_cons, List.not_mem_nil, or_false] at hsl
    have h0 : fld (VInt2.form.body 2 r) 0 5 = 2#5 := by
      apply BitVec.eq_of_toNat_eq; simp only [VInt2.form, fld, BitVec.toNat_ofNat]; omega
    rcases hsl with rfl | rfl <;> simp [rowOf, rowV, rowV0A, h0]) rfl (two hw).1 (two hw).2 hs
theorem vrminu (o : OpInfo) (r : VInt2) : Statement (.vrminu o r) := fun iss hw hs =>
  decode_enc (l := VInt2.limits) (row := .vrminu) (mk := .vrminu o) (slots := [.v0, .v1]) (VInt2.law 3 (by decide) (fun _ _ => true)) (by decide) (fun _ _ _ => rfl) (fun _ _ _ _ => rfl) (fun sl hsl ex hex => by
    simp only [List.mem_cons, List.not_mem_nil, or_false] at hsl
    have h0 : fld (VInt2.form.body 3 r) 0 5 = 3#5 := by
      apply BitVec.eq_of_toNat_eq; simp only [VInt2.form, fld, BitVec.toNat_ofNat]; omega
    rcases hsl with rfl | rfl <;> simp [rowOf, rowV, rowV0A, h0]) rfl (two hw).1 (two hw).2 hs
theorem vrmaxu (o : OpInfo) (r : VInt2) : Statement (.vrmaxu o r) := fun iss hw hs =>
  decode_enc (l := VInt2.limits) (row := .vrmaxu) (mk := .vrmaxu o) (slots := [.v0, .v1]) (VInt2.law 4 (by decide) (fun _ _ => true)) (by decide) (fun _ _ _ => rfl) (fun _ _ _ _ => rfl) (fun sl hsl ex hex => by
    simp only [List.mem_cons, List.not_mem_nil, or_false] at hsl
    have h0 : fld (VInt2.form.body 4 r) 0 5 = 4#5 := by
      apply BitVec.eq_of_toNat_eq; simp only [VInt2.form, fld, BitVec.toNat_ofNat]; omega
    rcases hsl with rfl | rfl <;> simp [rowOf, rowV, rowV0A, h0]) rfl (two hw).1 (two hw).2 hs
theorem vrand (o : OpInfo) (r : VInt2) : Statement (.vrand o r) := fun iss hw hs =>
  decode_enc (l := VInt2.limits) (row := .vrand) (mk := .vrand o) (slots := [.v0, .v1]) (VInt2.law 5 (by decide) (fun _ _ => true)) (by decide) (fun _ _ _ => rfl) (fun _ _ _ _ => rfl) (fun sl hsl ex hex => by
    simp only [List.mem_cons, List.not_mem_nil, or_false] at hsl
    have h0 : fld (VInt2.form.body 5 r) 0 5 = 5#5 := by
      apply BitVec.eq_of_toNat_eq; simp only [VInt2.form, fld, BitVec.toNat_ofNat]; omega
    rcases hsl with rfl | rfl <;> simp [rowOf, rowV, rowV0A, h0]) rfl (two hw).1 (two hw).2 hs
theorem vror (o : OpInfo) (r : VInt2) : Statement (.vror o r) := fun iss hw hs =>
  decode_enc (l := VInt2.limits) (row := .vror) (mk := .vror o) (slots := [.v0, .v1]) (VInt2.law 6 (by decide) (fun _ _ => true)) (by decide) (fun _ _ _ => rfl) (fun _ _ _ _ => rfl) (fun sl hsl ex hex => by
    simp only [List.mem_cons, List.not_mem_nil, or_false] at hsl
    have h0 : fld (VInt2.form.body 6 r) 0 5 = 6#5 := by
      apply BitVec.eq_of_toNat_eq; simp only [VInt2.form, fld, BitVec.toNat_ofNat]; omega
    rcases hsl with rfl | rfl <;> simp [rowOf, rowV, rowV0A, h0]) rfl (two hw).1 (two hw).2 hs
theorem vrxor (o : OpInfo) (r : VInt2) : Statement (.vrxor o r) := fun iss hw hs =>
  decode_enc (l := VInt2.limits) (row := .vrxor) (mk := .vrxor o) (slots := [.v0, .v1]) (VInt2.law 7 (by decide) (fun _ _ => true)) (by decide) (fun _ _ _ => rfl) (fun _ _ _ _ => rfl) (fun sl hsl ex hex => by
    simp only [List.mem_cons, List.not_mem_nil, or_false] at hsl
    have h0 : fld (VInt2.form.body 7 r) 0 5 = 7#5 := by
      apply BitVec.eq_of_toNat_eq; simp only [VInt2.form, fld, BitVec.toNat_ofNat]; omega
    rcases hsl with rfl | rfl <;> simp [rowOf, rowV, rowV0A, h0]) rfl (two hw).1 (two hw).2 hs
theorem vrfadd (o : OpInfo) (r : VRed) : Statement (.vrfadd o r) := fun iss hw hs =>
  decode_enc (l := VRed.limits) (row := .vrfadd) (mk := .vrfadd o) (slots := [.v0, .v1]) (VRed.law 8 (by decide) (fun _ _ => true)) (by decide) (fun _ _ _ => rfl) (fun _ _ _ _ => rfl) (fun sl hsl ex hex => by
    simp only [List.mem_cons, List.not_mem_nil, or_false] at hsl
    have h0 : fld (VRed.form.body 8 r) 0 5 = 8#5 := by
      apply BitVec.eq_of_toNat_eq; simp only [VRed.form, fld, BitVec.toNat_ofNat]; omega
    rcases hsl with rfl | rfl <;> simp [rowOf, rowV, rowV0A, h0]) rfl (two hw).1 (two hw).2 hs
theorem vrfmin (o : OpInfo) (r : VRed) : Statement (.vrfmin o r) := fun iss hw hs =>
  decode_enc (l := VRed.limits) (row := .vrfmin) (mk := .vrfmin o) (slots := [.v0, .v1]) (VRed.law 9 (by decide) (fun _ _ => true)) (by decide) (fun _ _ _ => rfl) (fun _ _ _ _ => rfl) (fun sl hsl ex hex => by
    simp only [List.mem_cons, List.not_mem_nil, or_false] at hsl
    have h0 : fld (VRed.form.body 9 r) 0 5 = 9#5 := by
      apply BitVec.eq_of_toNat_eq; simp only [VRed.form, fld, BitVec.toNat_ofNat]; omega
    rcases hsl with rfl | rfl <;> simp [rowOf, rowV, rowV0A, h0]) rfl (two hw).1 (two hw).2 hs
theorem vrfmax (o : OpInfo) (r : VRed) : Statement (.vrfmax o r) := fun iss hw hs =>
  decode_enc (l := VRed.limits) (row := .vrfmax) (mk := .vrfmax o) (slots := [.v0, .v1]) (VRed.law 10 (by decide) (fun _ _ => true)) (by decide) (fun _ _ _ => rfl) (fun _ _ _ _ => rfl) (fun sl hsl ex hex => by
    simp only [List.mem_cons, List.not_mem_nil, or_false] at hsl
    have h0 : fld (VRed.form.body 10 r) 0 5 = 10#5 := by
      apply BitVec.eq_of_toNat_eq; simp only [VRed.form, fld, BitVec.toNat_ofNat]; omega
    rcases hsl with rfl | rfl <;> simp [rowOf, rowV, rowV0A, h0]) rfl (two hw).1 (two hw).2 hs
theorem vscanadd (o : OpInfo) (r : VInt2) : Statement (.vscanadd o r) := fun iss hw hs =>
  decode_enc (l := VInt2.limits) (row := .vscanadd) (mk := .vscanadd o) (slots := [.v0, .v1]) (VInt2.law 0 (by decide) (fun _ _ => true)) (by decide) (fun _ _ _ => rfl) (fun _ _ _ _ => rfl) (fun sl hsl ex hex => by
    simp only [List.mem_cons, List.not_mem_nil, or_false] at hsl
    have h0 : fld (VInt2.form.body 0 r) 0 5 = 0#5 := by
      apply BitVec.eq_of_toNat_eq; simp only [VInt2.form, fld, BitVec.toNat_ofNat]; omega
    rcases hsl with rfl | rfl <;> simp [rowOf, rowV, rowV0B, h0]) rfl (two hw).1 (two hw).2 hs
theorem vscanaddx (o : OpInfo) (r : VInt2) : Statement (.vscanaddx o r) := fun iss hw hs =>
  decode_enc (l := VInt2.limits) (row := .vscanaddx) (mk := .vscanaddx o) (slots := [.v0, .v1]) (VInt2.law 1 (by decide) (fun _ _ => true)) (by decide) (fun _ _ _ => rfl) (fun _ _ _ _ => rfl) (fun sl hsl ex hex => by
    simp only [List.mem_cons, List.not_mem_nil, or_false] at hsl
    have h0 : fld (VInt2.form.body 1 r) 0 5 = 1#5 := by
      apply BitVec.eq_of_toNat_eq; simp only [VInt2.form, fld, BitVec.toNat_ofNat]; omega
    rcases hsl with rfl | rfl <;> simp [rowOf, rowV, rowV0B, h0]) rfl (two hw).1 (two hw).2 hs
theorem vscanmax (o : OpInfo) (r : VInt2) : Statement (.vscanmax o r) := fun iss hw hs =>
  decode_enc (l := VInt2.limits) (row := .vscanmax) (mk := .vscanmax o) (slots := [.v0, .v1]) (VInt2.law 2 (by decide) (fun _ _ => true)) (by decide) (fun _ _ _ => rfl) (fun _ _ _ _ => rfl) (fun sl hsl ex hex => by
    simp only [List.mem_cons, List.not_mem_nil, or_false] at hsl
    have h0 : fld (VInt2.form.body 2 r) 0 5 = 2#5 := by
      apply BitVec.eq_of_toNat_eq; simp only [VInt2.form, fld, BitVec.toNat_ofNat]; omega
    rcases hsl with rfl | rfl <;> simp [rowOf, rowV, rowV0B, h0]) rfl (two hw).1 (two hw).2 hs
theorem vscanmin (o : OpInfo) (r : VInt2) : Statement (.vscanmin o r) := fun iss hw hs =>
  decode_enc (l := VInt2.limits) (row := .vscanmin) (mk := .vscanmin o) (slots := [.v0, .v1]) (VInt2.law 3 (by decide) (fun _ _ => true)) (by decide) (fun _ _ _ => rfl) (fun _ _ _ _ => rfl) (fun sl hsl ex hex => by
    simp only [List.mem_cons, List.not_mem_nil, or_false] at hsl
    have h0 : fld (VInt2.form.body 3 r) 0 5 = 3#5 := by
      apply BitVec.eq_of_toNat_eq; simp only [VInt2.form, fld, BitVec.toNat_ofNat]; omega
    rcases hsl with rfl | rfl <;> simp [rowOf, rowV, rowV0B, h0]) rfl (two hw).1 (two hw).2 hs
theorem vscanmaxu (o : OpInfo) (r : VInt2) : Statement (.vscanmaxu o r) := fun iss hw hs =>
  decode_enc (l := VInt2.limits) (row := .vscanmaxu) (mk := .vscanmaxu o) (slots := [.v0, .v1]) (VInt2.law 4 (by decide) (fun _ _ => true)) (by decide) (fun _ _ _ => rfl) (fun _ _ _ _ => rfl) (fun sl hsl ex hex => by
    simp only [List.mem_cons, List.not_mem_nil, or_false] at hsl
    have h0 : fld (VInt2.form.body 4 r) 0 5 = 4#5 := by
      apply BitVec.eq_of_toNat_eq; simp only [VInt2.form, fld, BitVec.toNat_ofNat]; omega
    rcases hsl with rfl | rfl <;> simp [rowOf, rowV, rowV0B, h0]) rfl (two hw).1 (two hw).2 hs
theorem vscanminu (o : OpInfo) (r : VInt2) : Statement (.vscanminu o r) := fun iss hw hs =>
  decode_enc (l := VInt2.limits) (row := .vscanminu) (mk := .vscanminu o) (slots := [.v0, .v1]) (VInt2.law 5 (by decide) (fun _ _ => true)) (by decide) (fun _ _ _ => rfl) (fun _ _ _ _ => rfl) (fun sl hsl ex hex => by
    simp only [List.mem_cons, List.not_mem_nil, or_false] at hsl
    have h0 : fld (VInt2.form.body 5 r) 0 5 = 5#5 := by
      apply BitVec.eq_of_toNat_eq; simp only [VInt2.form, fld, BitVec.toNat_ofNat]; omega
    rcases hsl with rfl | rfl <;> simp [rowOf, rowV, rowV0B, h0]) rfl (two hw).1 (two hw).2 hs
theorem vscanfadd (o : OpInfo) (r : VRed) : Statement (.vscanfadd o r) := fun iss hw hs =>
  decode_enc (l := VRed.limits) (row := .vscanfadd) (mk := .vscanfadd o) (slots := [.v0, .v1]) (VRed.law 6 (by decide) (fun _ _ => true)) (by decide) (fun _ _ _ => rfl) (fun _ _ _ _ => rfl) (fun sl hsl ex hex => by
    simp only [List.mem_cons, List.not_mem_nil, or_false] at hsl
    have h0 : fld (VRed.form.body 6 r) 0 5 = 6#5 := by
      apply BitVec.eq_of_toNat_eq; simp only [VRed.form, fld, BitVec.toNat_ofNat]; omega
    rcases hsl with rfl | rfl <;> simp [rowOf, rowV, rowV0B, h0]) rfl (two hw).1 (two hw).2 hs
theorem vperm (o : OpInfo) (r : VInt3) : Statement (.vperm o r) := fun iss hw hs =>
  decode_enc (l := VInt3.limits) (row := .vperm) (mk := .vperm o) (slots := [.v0, .v1]) (VInt3.law 0 (by decide) (fun _ _ => true)) (by decide) (fun _ _ _ => rfl) (fun _ _ _ _ => rfl) (fun sl hsl ex hex => by
    simp only [List.mem_cons, List.not_mem_nil, or_false] at hsl
    have h0 : fld (VInt3.form.body 0 r) 0 5 = 0#5 := by
      apply BitVec.eq_of_toNat_eq; simp only [VInt3.form, fld, BitVec.toNat_ofNat]; omega
    rcases hsl with rfl | rfl <;> simp [rowOf, rowV, rowV0C, h0]) rfl (two hw).1 (two hw).2 hs
theorem vrot (o : OpInfo) (r : VIntK) : Statement (.vrot o r) := fun iss hw hs =>
  decode_enc (l := VIntK.limits) (row := .vrot) (mk := .vrot o) (slots := [.v0, .v1]) (VIntK.law 1 (by decide) (fun _ _ => true)) (by decide) (fun _ _ _ => rfl) (fun _ _ _ _ => rfl) (fun sl hsl ex hex => by
    simp only [List.mem_cons, List.not_mem_nil, or_false] at hsl
    have h0 : fld (VIntK.form.body 1 r) 0 5 = 1#5 := by
      apply BitVec.eq_of_toNat_eq; simp only [VIntK.form, fld, BitVec.toNat_ofNat]; omega
    rcases hsl with rfl | rfl <;> simp [rowOf, rowV, rowV0C, h0]) rfl (two hw).1 (two hw).2 hs
theorem vext (o : OpInfo) (r : VExt) : Statement (.vext o r) := fun iss hw hs =>
  decode_enc (l := VExt.limits) (row := .vext) (mk := .vext o) (slots := [.v0, .v1]) (VExt.law 2 (by decide) (fun _ _ => true)) (by decide) (fun _ _ _ => rfl) (fun _ _ _ _ => rfl) (fun sl hsl ex hex => by
    simp only [List.mem_cons, List.not_mem_nil, or_false] at hsl
    have h0 : fld (VExt.form.body 2 r) 0 5 = 2#5 := by
      apply BitVec.eq_of_toNat_eq; simp only [VExt.form, fld, BitVec.toNat_ofNat]; omega
    rcases hsl with rfl | rfl <;> simp [rowOf, rowV, rowV0C, h0]) rfl (two hw).1 (two hw).2 hs
theorem vzipl (o : OpInfo) (r : VInt3) : Statement (.vzipl o r) := fun iss hw hs =>
  decode_enc (l := VInt3.limits) (row := .vzipl) (mk := .vzipl o) (slots := [.v0, .v1]) (VInt3.law 3 (by decide) (fun _ _ => true)) (by decide) (fun _ _ _ => rfl) (fun _ _ _ _ => rfl) (fun sl hsl ex hex => by
    simp only [List.mem_cons, List.not_mem_nil, or_false] at hsl
    have h0 : fld (VInt3.form.body 3 r) 0 5 = 3#5 := by
      apply BitVec.eq_of_toNat_eq; simp only [VInt3.form, fld, BitVec.toNat_ofNat]; omega
    rcases hsl with rfl | rfl <;> simp [rowOf, rowV, rowV0C, h0]) rfl (two hw).1 (two hw).2 hs
theorem vziph (o : OpInfo) (r : VInt3) : Statement (.vziph o r) := fun iss hw hs =>
  decode_enc (l := VInt3.limits) (row := .vziph) (mk := .vziph o) (slots := [.v0, .v1]) (VInt3.law 4 (by decide) (fun _ _ => true)) (by decide) (fun _ _ _ => rfl) (fun _ _ _ _ => rfl) (fun sl hsl ex hex => by
    simp only [List.mem_cons, List.not_mem_nil, or_false] at hsl
    have h0 : fld (VInt3.form.body 4 r) 0 5 = 4#5 := by
      apply BitVec.eq_of_toNat_eq; simp only [VInt3.form, fld, BitVec.toNat_ofNat]; omega
    rcases hsl with rfl | rfl <;> simp [rowOf, rowV, rowV0C, h0]) rfl (two hw).1 (two hw).2 hs
theorem vuzpe (o : OpInfo) (r : VInt3) : Statement (.vuzpe o r) := fun iss hw hs =>
  decode_enc (l := VInt3.limits) (row := .vuzpe) (mk := .vuzpe o) (slots := [.v0, .v1]) (VInt3.law 5 (by decide) (fun _ _ => true)) (by decide) (fun _ _ _ => rfl) (fun _ _ _ _ => rfl) (fun sl hsl ex hex => by
    simp only [List.mem_cons, List.not_mem_nil, or_false] at hsl
    have h0 : fld (VInt3.form.body 5 r) 0 5 = 5#5 := by
      apply BitVec.eq_of_toNat_eq; simp only [VInt3.form, fld, BitVec.toNat_ofNat]; omega
    rcases hsl with rfl | rfl <;> simp [rowOf, rowV, rowV0C, h0]) rfl (two hw).1 (two hw).2 hs
theorem vuzpo (o : OpInfo) (r : VInt3) : Statement (.vuzpo o r) := fun iss hw hs =>
  decode_enc (l := VInt3.limits) (row := .vuzpo) (mk := .vuzpo o) (slots := [.v0, .v1]) (VInt3.law 6 (by decide) (fun _ _ => true)) (by decide) (fun _ _ _ => rfl) (fun _ _ _ _ => rfl) (fun sl hsl ex hex => by
    simp only [List.mem_cons, List.not_mem_nil, or_false] at hsl
    have h0 : fld (VInt3.form.body 6 r) 0 5 = 6#5 := by
      apply BitVec.eq_of_toNat_eq; simp only [VInt3.form, fld, BitVec.toNat_ofNat]; omega
    rcases hsl with rfl | rfl <;> simp [rowOf, rowV, rowV0C, h0]) rfl (two hw).1 (two hw).2 hs
theorem vsplat (o : OpInfo) (r : VIntK) : Statement (.vsplat o r) := fun iss hw hs =>
  decode_enc (l := VIntK.limits) (row := .vsplat) (mk := .vsplat o) (slots := [.v0, .v1]) (VIntK.law 7 (by decide) (fun _ _ => true)) (by decide) (fun _ _ _ => rfl) (fun _ _ _ _ => rfl) (fun sl hsl ex hex => by
    simp only [List.mem_cons, List.not_mem_nil, or_false] at hsl
    have h0 : fld (VIntK.form.body 7 r) 0 5 = 7#5 := by
      apply BitVec.eq_of_toNat_eq; simp only [VIntK.form, fld, BitVec.toNat_ofNat]; omega
    rcases hsl with rfl | rfl <;> simp [rowOf, rowV, rowV0C, h0]) rfl (two hw).1 (two hw).2 hs
theorem vrev (o : OpInfo) (r : VInt2) : Statement (.vrev o r) := fun iss hw hs =>
  decode_enc (l := VInt2.limits) (row := .vrev) (mk := .vrev o) (slots := [.v0, .v1]) (VInt2.law 8 (by decide) (fun _ _ => true)) (by decide) (fun _ _ _ => rfl) (fun _ _ _ _ => rfl) (fun sl hsl ex hex => by
    simp only [List.mem_cons, List.not_mem_nil, or_false] at hsl
    have h0 : fld (VInt2.form.body 8 r) 0 5 = 8#5 := by
      apply BitVec.eq_of_toNat_eq; simp only [VInt2.form, fld, BitVec.toNat_ofNat]; omega
    rcases hsl with rfl | rfl <;> simp [rowOf, rowV, rowV0C, h0]) rfl (two hw).1 (two hw).2 hs
theorem vrcp (o : OpInfo) (r : VFp2) : Statement (.vrcp o r) := fun iss hw hs =>
  decode_enc (l := VFp2.limits) (row := .vrcp) (mk := .vrcp o) (slots := [.v0, .v1]) (VFp2.law 0 (by decide) (fun _ _ => true)) (by decide) (fun _ _ _ => rfl) (fun _ _ _ _ => rfl) (fun sl hsl ex hex => by
    simp only [List.mem_cons, List.not_mem_nil, or_false] at hsl
    have h0 : fld (VFp2.form.body 0 r) 0 5 = 0#5 := by
      apply BitVec.eq_of_toNat_eq; simp only [VFp2.form, fld, BitVec.toNat_ofNat]; omega
    rcases hsl with rfl | rfl <;> simp [rowOf, rowV, rowV0D, h0]) rfl (two hw).1 (two hw).2 hs
theorem vrsqrt (o : OpInfo) (r : VFp2) : Statement (.vrsqrt o r) := fun iss hw hs =>
  decode_enc (l := VFp2.limits) (row := .vrsqrt) (mk := .vrsqrt o) (slots := [.v0, .v1]) (VFp2.law 1 (by decide) (fun _ _ => true)) (by decide) (fun _ _ _ => rfl) (fun _ _ _ _ => rfl) (fun sl hsl ex hex => by
    simp only [List.mem_cons, List.not_mem_nil, or_false] at hsl
    have h0 : fld (VFp2.form.body 1 r) 0 5 = 1#5 := by
      apply BitVec.eq_of_toNat_eq; simp only [VFp2.form, fld, BitVec.toNat_ofNat]; omega
    rcases hsl with rfl | rfl <;> simp [rowOf, rowV, rowV0D, h0]) rfl (two hw).1 (two hw).2 hs
theorem vexp2 (o : OpInfo) (r : VFp2) : Statement (.vexp2 o r) := fun iss hw hs =>
  decode_enc (l := VFp2.limits) (row := .vexp2) (mk := .vexp2 o) (slots := [.v0, .v1]) (VFp2.law 2 (by decide) (fun _ _ => true)) (by decide) (fun _ _ _ => rfl) (fun _ _ _ _ => rfl) (fun sl hsl ex hex => by
    simp only [List.mem_cons, List.not_mem_nil, or_false] at hsl
    have h0 : fld (VFp2.form.body 2 r) 0 5 = 2#5 := by
      apply BitVec.eq_of_toNat_eq; simp only [VFp2.form, fld, BitVec.toNat_ofNat]; omega
    rcases hsl with rfl | rfl <;> simp [rowOf, rowV, rowV0D, h0]) rfl (two hw).1 (two hw).2 hs
theorem vlog2 (o : OpInfo) (r : VFp2) : Statement (.vlog2 o r) := fun iss hw hs =>
  decode_enc (l := VFp2.limits) (row := .vlog2) (mk := .vlog2 o) (slots := [.v0, .v1]) (VFp2.law 3 (by decide) (fun _ _ => true)) (by decide) (fun _ _ _ => rfl) (fun _ _ _ _ => rfl) (fun sl hsl ex hex => by
    simp only [List.mem_cons, List.not_mem_nil, or_false] at hsl
    have h0 : fld (VFp2.form.body 3 r) 0 5 = 3#5 := by
      apply BitVec.eq_of_toNat_eq; simp only [VFp2.form, fld, BitVec.toNat_ofNat]; omega
    rcases hsl with rfl | rfl <;> simp [rowOf, rowV, rowV0D, h0]) rfl (two hw).1 (two hw).2 hs
theorem vsinpi (o : OpInfo) (r : VFp2) : Statement (.vsinpi o r) := fun iss hw hs =>
  decode_enc (l := VFp2.limits) (row := .vsinpi) (mk := .vsinpi o) (slots := [.v0, .v1]) (VFp2.law 4 (by decide) (fun _ _ => true)) (by decide) (fun _ _ _ => rfl) (fun _ _ _ _ => rfl) (fun sl hsl ex hex => by
    simp only [List.mem_cons, List.not_mem_nil, or_false] at hsl
    have h0 : fld (VFp2.form.body 4 r) 0 5 = 4#5 := by
      apply BitVec.eq_of_toNat_eq; simp only [VFp2.form, fld, BitVec.toNat_ofNat]; omega
    rcases hsl with rfl | rfl <;> simp [rowOf, rowV, rowV0D, h0]) rfl (two hw).1 (two hw).2 hs
theorem vcospi (o : OpInfo) (r : VFp2) : Statement (.vcospi o r) := fun iss hw hs =>
  decode_enc (l := VFp2.limits) (row := .vcospi) (mk := .vcospi o) (slots := [.v0, .v1]) (VFp2.law 5 (by decide) (fun _ _ => true)) (by decide) (fun _ _ _ => rfl) (fun _ _ _ _ => rfl) (fun sl hsl ex hex => by
    simp only [List.mem_cons, List.not_mem_nil, or_false] at hsl
    have h0 : fld (VFp2.form.body 5 r) 0 5 = 5#5 := by
      apply BitVec.eq_of_toNat_eq; simp only [VFp2.form, fld, BitVec.toNat_ofNat]; omega
    rcases hsl with rfl | rfl <;> simp [rowOf, rowV, rowV0D, h0]) rfl (two hw).1 (two hw).2 hs
theorem vtanh (o : OpInfo) (r : VFp2) : Statement (.vtanh o r) := fun iss hw hs =>
  decode_enc (l := VFp2.limits) (row := .vtanh) (mk := .vtanh o) (slots := [.v0, .v1]) (VFp2.law 6 (by decide) (fun _ _ => true)) (by decide) (fun _ _ _ => rfl) (fun _ _ _ _ => rfl) (fun sl hsl ex hex => by
    simp only [List.mem_cons, List.not_mem_nil, or_false] at hsl
    have h0 : fld (VFp2.form.body 6 r) 0 5 = 6#5 := by
      apply BitVec.eq_of_toNat_eq; simp only [VFp2.form, fld, BitVec.toNat_ofNat]; omega
    rcases hsl with rfl | rfl <;> simp [rowOf, rowV, rowV0D, h0]) rfl (two hw).1 (two hw).2 hs
theorem vsigm (o : OpInfo) (r : VFp2) : Statement (.vsigm o r) := fun iss hw hs =>
  decode_enc (l := VFp2.limits) (row := .vsigm) (mk := .vsigm o) (slots := [.v0, .v1]) (VFp2.law 7 (by decide) (fun _ _ => true)) (by decide) (fun _ _ _ => rfl) (fun _ _ _ _ => rfl) (fun sl hsl ex hex => by
    simp only [List.mem_cons, List.not_mem_nil, or_false] at hsl
    have h0 : fld (VFp2.form.body 7 r) 0 5 = 7#5 := by
      apply BitVec.eq_of_toNat_eq; simp only [VFp2.form, fld, BitVec.toNat_ofNat]; omega
    rcases hsl with rfl | rfl <;> simp [rowOf, rowV, rowV0D, h0]) rfl (two hw).1 (two hw).2 hs
theorem vrnd (o : OpInfo) (r : VRndArgs) : Statement (.vrnd o r) := fun iss hw hs =>
  decode_enc (l := VRndArgs.limits) (row := .vrnd) (mk := .vrnd o) (slots := [.v0, .v1]) (VRndArgs.law 0 (by decide) (fun _ _ => true)) (by decide) (fun _ _ _ => rfl) (fun _ _ _ _ => rfl) (fun sl hsl ex hex => by
    simp only [List.mem_cons, List.not_mem_nil, or_false] at hsl
    have h0 : fld (VRndArgs.form.body 0 r) 0 5 = 0#5 := by
      apply BitVec.eq_of_toNat_eq; simp only [VRndArgs.form, fld, BitVec.toNat_ofNat]; omega
    rcases hsl with rfl | rfl <;> simp [rowOf, rowV, rowV0E, h0]) rfl (two hw).1 (two hw).2 hs
theorem vbcast (o : OpInfo) (r : RLong) : Statement (.vbcast o r) := fun iss hw hs =>
  decode_enc (l := RLong.limits) (row := .vbcast) (mk := .vbcast o) (slots := [.v0, .v1]) (RLong.law (fun _ _ => true)) (by decide) (fun _ _ _ => rfl) (fun _ _ _ _ => rfl) (fun sl hsl ex hex => by
    simp only [List.mem_cons, List.not_mem_nil, or_false] at hsl
    rcases hsl with rfl | rfl <;> rfl) rfl (two hw).1 (two hw).2 hs
theorem vtrd (o : OpInfo) (r : TileRead) : Statement (.vtrd o r) := fun iss hw hs =>
  decode_enc (l := TileRead.limits) (row := .vtrd) (mk := .vtrd o) (slots := [.v0, .v1]) (TileRead.law 0 (by decide) (fun _ _ => true)) (by decide) (fun _ _ _ => rfl) (fun _ _ _ _ => rfl) (fun sl hsl ex hex => by
    simp only [List.mem_cons, List.not_mem_nil, or_false] at hsl
    have h0 : fld (TileRead.form.body 0 r) 4 1 = 0#1 := by
      apply BitVec.eq_of_toNat_eq; simp only [TileRead.form, fld, BitVec.toNat_ofNat]; omega
    rcases hsl with rfl | rfl <;> simp [rowOf, rowV, rowV10, h0]) rfl (two hw).1 (two hw).2 hs
theorem vtrdReg (o : OpInfo) (r : TileReadReg) : Statement (.vtrdReg o r) := fun iss hw hs =>
  decode_enc (l := TileReadReg.limits) (row := .vtrdReg) (mk := .vtrdReg o) (slots := [.v0, .v1]) (TileReadReg.law 1 (by decide) (fun _ _ => true)) (by decide) (fun _ _ _ => rfl) (fun _ _ _ _ => rfl) (fun sl hsl ex hex => by
    simp only [List.mem_cons, List.not_mem_nil, or_false] at hsl
    have h0 : fld (TileReadReg.form.body 1 r) 4 1 = 1#1 := by
      apply BitVec.eq_of_toNat_eq; simp only [TileReadReg.form, fld, BitVec.toNat_ofNat]; omega
    rcases hsl with rfl | rfl <;> simp [rowOf, rowV, rowV10, h0]) rfl (two hw).1 (two hw).2 hs
theorem vtwr (o : OpInfo) (r : TileRow) : Statement (.vtwr o r) := fun iss hw hs =>
  decode_enc (l := TileRow.limits) (row := .vtwr) (mk := .vtwr o) (slots := [.v0, .v1]) (TileRow.law 0 (by decide) (fun _ _ => true)) (by decide) (fun _ _ _ => rfl) (fun _ _ _ _ => rfl) (fun sl hsl ex hex => by
    simp only [List.mem_cons, List.not_mem_nil, or_false] at hsl
    have h0 : fld (TileRow.form.body 0 r) 4 1 = 0#1 := by
      apply BitVec.eq_of_toNat_eq; simp only [TileRow.form, fld, BitVec.toNat_ofNat]; omega
    rcases hsl with rfl | rfl <;> simp [rowOf, rowV, rowV11, h0]) rfl (two hw).1 (two hw).2 hs
theorem vtwrReg (o : OpInfo) (r : TileRowReg) : Statement (.vtwrReg o r) := fun iss hw hs =>
  decode_enc (l := TileRowReg.limits) (row := .vtwrReg) (mk := .vtwrReg o) (slots := [.v0, .v1]) (TileRowReg.law 1 (by decide) (fun _ _ => true)) (by decide) (fun _ _ _ => rfl) (fun _ _ _ _ => rfl) (fun sl hsl ex hex => by
    simp only [List.mem_cons, List.not_mem_nil, or_false] at hsl
    have h0 : fld (TileRowReg.form.body 1 r) 4 1 = 1#1 := by
      apply BitVec.eq_of_toNat_eq; simp only [TileRowReg.form, fld, BitVec.toNat_ofNat]; omega
    rcases hsl with rfl | rfl <;> simp [rowOf, rowV, rowV11, h0]) rfl (two hw).1 (two hw).2 hs
theorem vldsp (o : OpInfo) (r : VSp) : Statement (.vldsp o r) := fun iss hw hs =>
  decode_enc (l := VSp.limits) (row := .vldsp) (mk := .vldsp o) (slots := [.v0, .v1]) (VSp.law (fun _ _ => true)) (by decide) (fun _ _ _ => rfl) (fun _ _ _ _ => rfl) (fun sl hsl ex hex => by
    simp only [List.mem_cons, List.not_mem_nil, or_false] at hsl
    rcases hsl with rfl | rfl <;> rfl) rfl (two hw).1 (two hw).2 hs
theorem vstsp (o : OpInfo) (r : VSp) : Statement (.vstsp o r) := fun iss hw hs =>
  decode_enc (l := VSp.limits) (row := .vstsp) (mk := .vstsp o) (slots := [.v0, .v1]) (VSp.law (fun _ _ => true)) (by decide) (fun _ _ _ => rfl) (fun _ _ _ _ => rfl) (fun sl hsl ex hex => by
    simp only [List.mem_cons, List.not_mem_nil, or_false] at hsl
    rcases hsl with rfl | rfl <;> rfl) rfl (two hw).1 (two hw).2 hs
theorem vld (o : OpInfo) (r : VLoad) : Statement (.vld o r) := fun iss hw hs =>
  decode_enc (l := VLoad.limits) (row := .vld) (mk := .vld o) (slots := [.v0, .v1]) (VLoad.law (fun _ _ => true)) (by decide) (fun _ _ _ => rfl) (fun _ _ _ _ => rfl) (fun sl hsl ex hex => by
    simp only [List.mem_cons, List.not_mem_nil, or_false] at hsl
    rcases hsl with rfl | rfl <;> rfl) rfl (two hw).1 (two hw).2 hs
theorem vst (o : OpInfo) (r : VSp) : Statement (.vst o r) := fun iss hw hs =>
  decode_enc (l := VSp.limits) (row := .vst) (mk := .vst o) (slots := [.v0, .v1]) (VSp.law (fun _ _ => true)) (by decide) (fun _ _ _ => rfl) (fun _ _ _ _ => rfl) (fun sl hsl ex hex => by
    simp only [List.mem_cons, List.not_mem_nil, or_false] at hsl
    rcases hsl with rfl | rfl <;> rfl) rfl (two hw).1 (two hw).2 hs
theorem vamoAdd (o : OpInfo) (r : VAtomic) : Statement (.vamoAdd o r) := fun iss hw hs =>
  decode_enc (l := VAtomic.limits) (row := .vamoAdd) (mk := .vamoAdd o) (slots := [.v0, .v1]) (VAtomic.law 0 (by decide) (fun _ _ => true)) (by decide) (fun _ _ _ => rfl) (fun _ _ _ _ => rfl) (fun sl hsl ex hex => by
    simp only [List.mem_cons, List.not_mem_nil, or_false] at hsl
    have h0 : fld (VAtomic.form.body 0 r) 0 4 = 0#4 := by
      apply BitVec.eq_of_toNat_eq; simp only [VAtomic.form, fld, BitVec.toNat_ofNat]; omega
    rcases hsl with rfl | rfl <;> simp [rowOf, rowV, rowV24, h0]) rfl (two hw).1 (two hw).2 hs
theorem vamoAnd (o : OpInfo) (r : VAtomic) : Statement (.vamoAnd o r) := fun iss hw hs =>
  decode_enc (l := VAtomic.limits) (row := .vamoAnd) (mk := .vamoAnd o) (slots := [.v0, .v1]) (VAtomic.law 1 (by decide) (fun _ _ => true)) (by decide) (fun _ _ _ => rfl) (fun _ _ _ _ => rfl) (fun sl hsl ex hex => by
    simp only [List.mem_cons, List.not_mem_nil, or_false] at hsl
    have h0 : fld (VAtomic.form.body 1 r) 0 4 = 1#4 := by
      apply BitVec.eq_of_toNat_eq; simp only [VAtomic.form, fld, BitVec.toNat_ofNat]; omega
    rcases hsl with rfl | rfl <;> simp [rowOf, rowV, rowV24, h0]) rfl (two hw).1 (two hw).2 hs
theorem vamoOr (o : OpInfo) (r : VAtomic) : Statement (.vamoOr o r) := fun iss hw hs =>
  decode_enc (l := VAtomic.limits) (row := .vamoOr) (mk := .vamoOr o) (slots := [.v0, .v1]) (VAtomic.law 2 (by decide) (fun _ _ => true)) (by decide) (fun _ _ _ => rfl) (fun _ _ _ _ => rfl) (fun sl hsl ex hex => by
    simp only [List.mem_cons, List.not_mem_nil, or_false] at hsl
    have h0 : fld (VAtomic.form.body 2 r) 0 4 = 2#4 := by
      apply BitVec.eq_of_toNat_eq; simp only [VAtomic.form, fld, BitVec.toNat_ofNat]; omega
    rcases hsl with rfl | rfl <;> simp [rowOf, rowV, rowV24, h0]) rfl (two hw).1 (two hw).2 hs
theorem vamoXor (o : OpInfo) (r : VAtomic) : Statement (.vamoXor o r) := fun iss hw hs =>
  decode_enc (l := VAtomic.limits) (row := .vamoXor) (mk := .vamoXor o) (slots := [.v0, .v1]) (VAtomic.law 3 (by decide) (fun _ _ => true)) (by decide) (fun _ _ _ => rfl) (fun _ _ _ _ => rfl) (fun sl hsl ex hex => by
    simp only [List.mem_cons, List.not_mem_nil, or_false] at hsl
    have h0 : fld (VAtomic.form.body 3 r) 0 4 = 3#4 := by
      apply BitVec.eq_of_toNat_eq; simp only [VAtomic.form, fld, BitVec.toNat_ofNat]; omega
    rcases hsl with rfl | rfl <;> simp [rowOf, rowV, rowV24, h0]) rfl (two hw).1 (two hw).2 hs
theorem vamoSmin (o : OpInfo) (r : VAtomic) : Statement (.vamoSmin o r) := fun iss hw hs =>
  decode_enc (l := VAtomic.limits) (row := .vamoSmin) (mk := .vamoSmin o) (slots := [.v0, .v1]) (VAtomic.law 4 (by decide) (fun _ _ => true)) (by decide) (fun _ _ _ => rfl) (fun _ _ _ _ => rfl) (fun sl hsl ex hex => by
    simp only [List.mem_cons, List.not_mem_nil, or_false] at hsl
    have h0 : fld (VAtomic.form.body 4 r) 0 4 = 4#4 := by
      apply BitVec.eq_of_toNat_eq; simp only [VAtomic.form, fld, BitVec.toNat_ofNat]; omega
    rcases hsl with rfl | rfl <;> simp [rowOf, rowV, rowV24, h0]) rfl (two hw).1 (two hw).2 hs
theorem vamoSmax (o : OpInfo) (r : VAtomic) : Statement (.vamoSmax o r) := fun iss hw hs =>
  decode_enc (l := VAtomic.limits) (row := .vamoSmax) (mk := .vamoSmax o) (slots := [.v0, .v1]) (VAtomic.law 5 (by decide) (fun _ _ => true)) (by decide) (fun _ _ _ => rfl) (fun _ _ _ _ => rfl) (fun sl hsl ex hex => by
    simp only [List.mem_cons, List.not_mem_nil, or_false] at hsl
    have h0 : fld (VAtomic.form.body 5 r) 0 4 = 5#4 := by
      apply BitVec.eq_of_toNat_eq; simp only [VAtomic.form, fld, BitVec.toNat_ofNat]; omega
    rcases hsl with rfl | rfl <;> simp [rowOf, rowV, rowV24, h0]) rfl (two hw).1 (two hw).2 hs
theorem vamoUmin (o : OpInfo) (r : VAtomic) : Statement (.vamoUmin o r) := fun iss hw hs =>
  decode_enc (l := VAtomic.limits) (row := .vamoUmin) (mk := .vamoUmin o) (slots := [.v0, .v1]) (VAtomic.law 6 (by decide) (fun _ _ => true)) (by decide) (fun _ _ _ => rfl) (fun _ _ _ _ => rfl) (fun sl hsl ex hex => by
    simp only [List.mem_cons, List.not_mem_nil, or_false] at hsl
    have h0 : fld (VAtomic.form.body 6 r) 0 4 = 6#4 := by
      apply BitVec.eq_of_toNat_eq; simp only [VAtomic.form, fld, BitVec.toNat_ofNat]; omega
    rcases hsl with rfl | rfl <;> simp [rowOf, rowV, rowV24, h0]) rfl (two hw).1 (two hw).2 hs
theorem vamoUmax (o : OpInfo) (r : VAtomic) : Statement (.vamoUmax o r) := fun iss hw hs =>
  decode_enc (l := VAtomic.limits) (row := .vamoUmax) (mk := .vamoUmax o) (slots := [.v0, .v1]) (VAtomic.law 7 (by decide) (fun _ _ => true)) (by decide) (fun _ _ _ => rfl) (fun _ _ _ _ => rfl) (fun sl hsl ex hex => by
    simp only [List.mem_cons, List.not_mem_nil, or_false] at hsl
    have h0 : fld (VAtomic.form.body 7 r) 0 4 = 7#4 := by
      apply BitVec.eq_of_toNat_eq; simp only [VAtomic.form, fld, BitVec.toNat_ofNat]; omega
    rcases hsl with rfl | rfl <;> simp [rowOf, rowV, rowV24, h0]) rfl (two hw).1 (two hw).2 hs
theorem vamoSwap (o : OpInfo) (r : VAtomic) : Statement (.vamoSwap o r) := fun iss hw hs =>
  decode_enc (l := VAtomic.limits) (row := .vamoSwap) (mk := .vamoSwap o) (slots := [.v0, .v1]) (VAtomic.law 8 (by decide) (fun _ _ => true)) (by decide) (fun _ _ _ => rfl) (fun _ _ _ _ => rfl) (fun sl hsl ex hex => by
    simp only [List.mem_cons, List.not_mem_nil, or_false] at hsl
    have h0 : fld (VAtomic.form.body 8 r) 0 4 = 8#4 := by
      apply BitVec.eq_of_toNat_eq; simp only [VAtomic.form, fld, BitVec.toNat_ofNat]; omega
    rcases hsl with rfl | rfl <;> simp [rowOf, rowV, rowV24, h0]) rfl (two hw).1 (two hw).2 hs
theorem vupd (o : OpInfo) (r : VUpdArgs) : Statement (.vupd o r) := fun iss hw hs =>
  decode_enc (l := VUpdArgs.limits) (row := .vupd) (mk := .vupd o) (slots := [.v0, .v1]) (VUpdArgs.law (fun _ _ => true)) (by decide) (fun _ _ _ => rfl) (fun _ _ _ _ => rfl) (fun sl hsl ex hex => by
    simp only [List.mem_cons, List.not_mem_nil, or_false] at hsl
    rcases hsl with rfl | rfl <;> rfl) rfl (two hw).1 (two hw).2 hs
theorem dqpop (o : OpInfo) (r : DqPop) : Statement (.dqpop o r) := fun iss hw hs =>
  decode_enc (l := DqPop.limits) (row := .dqpop) (mk := .dqpop o) (slots := [.v0, .v1]) (DqPop.law (fun _ _ => true)) (by decide) (fun _ _ _ => rfl) (fun _ _ _ _ => rfl) (fun sl hsl ex hex => by
    simp only [List.mem_cons, List.not_mem_nil, or_false] at hsl
    rcases hsl with rfl | rfl <;> rfl) rfl (two hw).1 (two hw).2 hs
theorem mldb (o : OpInfo) (r : MldbArgs) : Statement (.mldb o r) := fun iss hw hs =>
  decode_enc (l := MldbArgs.limits) (row := .mldb) (mk := .mldb o) (slots := [.m]) (MldbArgs.law (fun _ _ => true)) (by decide) (fun _ _ _ => rfl) (fun _ _ _ _ => rfl) (fun sl hsl ex hex => by
    simp only [List.mem_cons, List.not_mem_nil, or_false] at hsl
    subst hsl; rfl) rfl (two hw).1 (two hw).2 hs
theorem mswap (o : OpInfo) : Statement (.mswap o) := fun iss hw hs =>
  decode_encZ (row := .mswap) (slots := [.m]) (fun _ _ _ => rfl) (fun _ _ _ _ => rfl) (fun sl hsl ex => by
    simp only [List.mem_cons, List.not_mem_nil, or_false] at hsl; subst hsl; rfl) hw hs
theorem mma (o : OpInfo) (r : MmaArgs) : Statement (.mma o r) := fun iss hw hs =>
  decode_enc (l := MmaArgs.limits) (row := .mma) (mk := .mma o) (slots := [.m]) (MmaArgs.law (fun _ _ => true)) (by decide) (fun _ _ _ => rfl) (fun _ _ _ _ => rfl) (fun sl hsl ex hex => by
    simp only [List.mem_cons, List.not_mem_nil, or_false] at hsl
    subst hsl; rfl) rfl (two hw).1 (two hw).2 hs
theorem mmas (o : OpInfo) (r : MmasArgs) : Statement (.mmas o r) := fun iss hw hs =>
  decode_enc (l := MmasArgs.limits) (row := .mmas) (mk := .mmas o) (slots := [.m]) (MmasArgs.law (fun _ _ => true)) (by decide) (fun _ _ _ => rfl) (fun _ _ _ _ => rfl) (fun sl hsl ex hex => by
    simp only [List.mem_cons, List.not_mem_nil, or_false] at hsl
    subst hsl; rfl) rfl (two hw).1 (two hw).2 hs
theorem mdrain (o : OpInfo) (r : MdrainArgs) : Statement (.mdrain o r) := fun iss hw hs =>
  decode_enc (l := MdrainArgs.limits) (row := .mdrain) (mk := .mdrain o) (slots := [.m]) (MdrainArgs.law (fun _ _ => true)) (by decide) (fun _ _ _ => rfl) (fun _ _ _ _ => rfl) (fun sl hsl ex hex => by
    simp only [List.mem_cons, List.not_mem_nil, or_false] at hsl
    subst hsl; rfl) rfl (two hw).1 (two hw).2 hs
theorem mzacc (o : OpInfo) (r : MzaccArgs) : Statement (.mzacc o r) := fun iss hw hs =>
  decode_enc (l := MzaccArgs.limits) (row := .mzacc) (mk := .mzacc o) (slots := [.m]) (MzaccArgs.law (fun _ _ => true)) (by decide) (fun _ _ _ => rfl) (fun _ _ _ _ => rfl) (fun sl hsl ex hex => by
    simp only [List.mem_cons, List.not_mem_nil, or_false] at hsl
    subst hsl; rfl) rfl (two hw).1 (two hw).2 hs
theorem mcv (o : OpInfo) (r : McvArgs) : Statement (.mcv o r) := fun iss hw hs =>
  decode_enc (l := McvArgs.limits) (row := .mcv) (mk := .mcv o) (slots := [.m]) (McvArgs.law (fun _ _ => true)) (by decide) (fun _ _ _ => rfl) (fun _ _ _ _ => rfl) (fun sl hsl ex hex => by
    simp only [List.mem_cons, List.not_mem_nil, or_false] at hsl
    subst hsl; rfl) rfl (two hw).1 (two hw).2 hs
theorem mtrn (o : OpInfo) (r : TilePair) : Statement (.mtrn o r) := fun iss hw hs =>
  decode_enc (l := TilePair.limits) (row := .mtrn) (mk := .mtrn o) (slots := [.m]) (TilePair.law (fun _ _ => true)) (by decide) (fun _ _ _ => rfl) (fun _ _ _ _ => rfl) (fun sl hsl ex hex => by
    simp only [List.mem_cons, List.not_mem_nil, or_false] at hsl
    subst hsl; rfl) rfl (two hw).1 (two hw).2 hs
theorem mfill (o : OpInfo) (r : MfillArgs) : Statement (.mfill o r) := fun iss hw hs =>
  decode_enc (l := MfillArgs.limits) (row := .mfill) (mk := .mfill o) (slots := [.m]) (MfillArgs.law (fun _ _ => true)) (by decide) (fun _ _ _ => rfl) (fun _ _ _ _ => rfl) (fun sl hsl ex hex => by
    simp only [List.mem_cons, List.not_mem_nil, or_false] at hsl
    subst hsl; rfl) rfl (two hw).1 (two hw).2 hs
theorem mtcpy (o : OpInfo) (r : TilePair) : Statement (.mtcpy o r) := fun iss hw hs =>
  decode_enc (l := TilePair.limits) (row := .mtcpy) (mk := .mtcpy o) (slots := [.m]) (TilePair.law (fun _ _ => true)) (by decide) (fun _ _ _ => rfl) (fun _ _ _ _ => rfl) (fun sl hsl ex hex => by
    simp only [List.mem_cons, List.not_mem_nil, or_false] at hsl
    subst hsl; rfl) rfl (two hw).1 (two hw).2 hs
theorem kld (o : OpInfo) (r : KMem) : Statement (.kld o r) := fun iss hw hs =>
  decode_enc (l := KMem.limits) (row := .kld) (mk := .kld o) (slots := [.k]) (KMem.law (fun _ _ => true)) (by decide) (fun _ _ _ => rfl) (fun _ _ _ _ => rfl) (fun sl hsl ex hex => by
    simp only [List.mem_cons, List.not_mem_nil, or_false] at hsl
    subst hsl; rfl) rfl (two hw).1 (two hw).2 hs
theorem kst (o : OpInfo) (r : KMem) : Statement (.kst o r) := fun iss hw hs =>
  decode_enc (l := KMem.limits) (row := .kst) (mk := .kst o) (slots := [.k]) (KMem.law (fun _ _ => true)) (by decide) (fun _ _ _ => rfl) (fun _ _ _ _ => rfl) (fun sl hsl ex hex => by
    simp only [List.mem_cons, List.not_mem_nil, or_false] at hsl
    subst hsl; rfl) rfl (two hw).1 (two hw).2 hs
theorem kmov (o : OpInfo) (r : KPair) : Statement (.kmov o r) := fun iss hw hs =>
  decode_enc (l := KPair.limits) (row := .kmov) (mk := .kmov o) (slots := [.k]) (KPair.law 0 (by decide) (fun _ _ => true)) (by decide) (fun _ _ _ => rfl) (fun _ _ _ _ => rfl) (fun sl hsl ex hex => by
    simp only [List.mem_cons, List.not_mem_nil, or_false] at hsl
    have h0 : fld (KPair.form.body 0 r) 0 5 = 0#5 := by
      apply BitVec.eq_of_toNat_eq; simp only [KPair.form, fld, BitVec.toNat_ofNat]; omega
    subst hsl; simp [rowOf, rowK, rowK03, h0]) rfl (two hw).1 (two hw).2 hs
theorem kfill (o : OpInfo) (r : KfillArgs) : Statement (.kfill o r) := fun iss hw hs =>
  decode_enc (l := KfillArgs.limits) (row := .kfill) (mk := .kfill o) (slots := [.k]) (KfillArgs.law 1 (by decide) (fun _ _ => true)) (by decide) (fun _ _ _ => rfl) (fun _ _ _ _ => rfl) (fun sl hsl ex hex => by
    simp only [List.mem_cons, List.not_mem_nil, or_false] at hsl
    have h0 : fld (KfillArgs.form.body 1 r) 0 5 = 1#5 := by
      apply BitVec.eq_of_toNat_eq; simp only [KfillArgs.form, fld, BitVec.toNat_ofNat]; omega
    subst hsl; simp [rowOf, rowK, rowK03, h0]) rfl (two hw).1 (two hw).2 hs
theorem kspr (o : OpInfo) (r : KsprArgs) : Statement (.kspr o r) := fun iss hw hs =>
  decode_enc (l := KsprArgs.limits) (row := .kspr) (mk := .kspr o) (slots := [.k]) (KsprArgs.law 0 (by decide) (fun _ _ => true)) (by decide) (fun _ _ _ => rfl) (fun _ _ _ _ => rfl) (fun sl hsl ex hex => by
    simp only [List.mem_cons, List.not_mem_nil, or_false] at hsl
    have h0 : fld (KsprArgs.form.body 0 r) 0 5 = 0#5 := by
      apply BitVec.eq_of_toNat_eq; simp only [KsprArgs.form, fld, BitVec.toNat_ofNat]; omega
    subst hsl; simp [rowOf, rowK, rowK04, h0]) rfl (two hw).1 (two hw).2 hs
theorem ksprReg (o : OpInfo) (r : KPair) : Statement (.ksprReg o r) := fun iss hw hs =>
  decode_enc (l := KPair.limits) (row := .ksprReg) (mk := .ksprReg o) (slots := [.k]) (KPair.law 1 (by decide) (fun _ _ => true)) (by decide) (fun _ _ _ => rfl) (fun _ _ _ _ => rfl) (fun sl hsl ex hex => by
    simp only [List.mem_cons, List.not_mem_nil, or_false] at hsl
    have h0 : fld (KPair.form.body 1 r) 0 5 = 1#5 := by
      apply BitVec.eq_of_toNat_eq; simp only [KPair.form, fld, BitVec.toNat_ofNat]; omega
    subst hsl; simp [rowOf, rowK, rowK04, h0]) rfl (two hw).1 (two hw).2 hs
theorem cpy (o : OpInfo) (r : CopyArgs) : Statement (.cpy o r) := fun iss hw hs =>
  decode_enc (l := CopyArgs.limits) (row := .cpy) (mk := .cpy o) (slots := [.c0, .c1]) (CopyArgs.law (fun _ _ => true)) (by decide) (fun _ _ _ => rfl) (fun _ _ _ _ => rfl) (fun sl hsl ex hex => by
    simp only [List.mem_cons, List.not_mem_nil, or_false] at hsl
    rcases hsl with rfl | rfl <;> rfl) rfl (two hw).1 (two hw).2 hs
theorem gath (o : OpInfo) (r : IndexedCopy) : Statement (.gath o r) := fun iss hw hs =>
  decode_enc (l := IndexedCopy.limits) (row := .gath) (mk := .gath o) (slots := [.c0, .c1]) (IndexedCopy.law (fun _ _ => true)) (by decide) (fun _ _ _ => rfl) (fun _ _ _ _ => rfl) (fun sl hsl ex hex => by
    simp only [List.mem_cons, List.not_mem_nil, or_false] at hsl
    rcases hsl with rfl | rfl <;> rfl) rfl (two hw).1 (two hw).2 hs
theorem scat (o : OpInfo) (r : IndexedCopy) : Statement (.scat o r) := fun iss hw hs =>
  decode_enc (l := IndexedCopy.limits) (row := .scat) (mk := .scat o) (slots := [.c0, .c1]) (IndexedCopy.law (fun _ _ => true)) (by decide) (fun _ _ _ => rfl) (fun _ _ _ _ => rfl) (fun sl hsl ex hex => by
    simp only [List.mem_cons, List.not_mem_nil, or_false] at hsl
    rcases hsl with rfl | rfl <;> rfl) rfl (two hw).1 (two hw).2 hs
theorem tldi (o : OpInfo) (r : TileLoad) : Statement (.tldi o r) := fun iss hw hs =>
  decode_enc (l := TileLoad.limits) (row := .tldi) (mk := .tldi o) (slots := [.c0, .c1]) (TileLoad.law (fun _ _ => true)) (by decide) (fun _ _ _ => rfl) (fun _ _ _ _ => rfl) (fun sl hsl ex hex => by
    simp only [List.mem_cons, List.not_mem_nil, or_false] at hsl
    rcases hsl with rfl | rfl <;> rfl) rfl (two hw).1 (two hw).2 hs
theorem tsti (o : OpInfo) (r : TileStore) : Statement (.tsti o r) := fun iss hw hs =>
  decode_enc (l := TileStore.limits) (row := .tsti) (mk := .tsti o) (slots := [.c0, .c1]) (TileStore.law (fun _ _ => true)) (by decide) (fun _ _ _ => rfl) (fun _ _ _ _ => rfl) (fun sl hsl ex hex => by
    simp only [List.mem_cons, List.not_mem_nil, or_false] at hsl
    rcases hsl with rfl | rfl <;> rfl) rfl (two hw).1 (two hw).2 hs
theorem cpub (o : OpInfo) (r : CpubArgs) : Statement (.cpub o r) := fun iss hw hs =>
  decode_enc (l := CpubArgs.limits) (row := .cpub) (mk := .cpub o) (slots := [.c0, .c1]) (CpubArgs.law (fun _ _ => true)) (by decide) (fun _ _ _ => rfl) (fun _ _ _ _ => rfl) (fun sl hsl ex hex => by
    simp only [List.mem_cons, List.not_mem_nil, or_false] at hsl
    rcases hsl with rfl | rfl <;> rfl) rfl (two hw).1 (two hw).2 hs
theorem stmap (o : OpInfo) (r : StmapArgs) : Statement (.stmap o r) := fun iss hw hs =>
  decode_enc (l := StmapArgs.limits) (row := .stmap) (mk := .stmap o) (slots := [.c0, .c1]) (StmapArgs.law (fun _ _ => true)) (by decide) (fun _ _ _ => rfl) (fun _ _ _ _ => rfl) (fun sl hsl ex hex => by
    simp only [List.mem_cons, List.not_mem_nil, or_false] at hsl
    rcases hsl with rfl | rfl <;> rfl) rfl (two hw).1 (two hw).2 hs
theorem stfl (o : OpInfo) (r : StflArgs) : Statement (.stfl o r) := fun iss hw hs =>
  decode_enc (l := StflArgs.limits) (row := .stfl) (mk := .stfl o) (slots := [.c0, .c1]) (StflArgs.law (fun _ _ => true)) (by decide) (fun _ _ _ => rfl) (fun _ _ _ _ => rfl) (fun sl hsl ex hex => by
    simp only [List.mem_cons, List.not_mem_nil, or_false] at hsl
    rcases hsl with rfl | rfl <;> rfl) rfl (two hw).1 (two hw).2 hs
theorem chint (o : OpInfo) (r : ChintArgs) : Statement (.chint o r) := fun iss hw hs =>
  decode_enc (l := ChintArgs.limits) (row := .chint) (mk := .chint o) (slots := [.c0, .c1]) (ChintArgs.law (fun _ _ => true)) (by decide) (fun _ _ _ => rfl) (fun _ _ _ _ => rfl) (fun sl hsl ex hex => by
    simp only [List.mem_cons, List.not_mem_nil, or_false] at hsl
    rcases hsl with rfl | rfl <;> rfl) rfl (two hw).1 (two hw).2 hs
theorem cnput (o : OpInfo) (r : NetCopy) : Statement (.cnput o r) := fun iss hw hs =>
  decode_enc (l := NetCopy.limits) (row := .cnput) (mk := .cnput o) (slots := [.c0, .c1]) (NetCopy.law (fun _ _ => true)) (by decide) (fun _ _ _ => rfl) (fun _ _ _ _ => rfl) (fun sl hsl ex hex => by
    simp only [List.mem_cons, List.not_mem_nil, or_false] at hsl
    rcases hsl with rfl | rfl <;> rfl) rfl (two hw).1 (two hw).2 hs
theorem cnget (o : OpInfo) (r : NetCopy) : Statement (.cnget o r) := fun iss hw hs =>
  decode_enc (l := NetCopy.limits) (row := .cnget) (mk := .cnget o) (slots := [.c0, .c1]) (NetCopy.law (fun _ _ => true)) (by decide) (fun _ _ _ => rfl) (fun _ _ _ _ => rfl) (fun sl hsl ex hex => by
    simp only [List.mem_cons, List.not_mem_nil, or_false] at hsl
    rcases hsl with rfl | rfl <;> rfl) rfl (two hw).1 (two hw).2 hs
theorem dld (o : OpInfo) (r : DescMove) : Statement (.dld o r) := fun iss hw hs =>
  decode_enc (l := DescMove.limits) (row := .dld) (mk := .dld o) (slots := [.c0, .c1]) (DescMove.law (fun _ _ => true)) (by decide) (fun _ _ _ => rfl) (fun _ _ _ _ => rfl) (fun sl hsl ex hex => by
    simp only [List.mem_cons, List.not_mem_nil, or_false] at hsl
    rcases hsl with rfl | rfl <;> rfl) rfl (two hw).1 (two hw).2 hs
theorem dst (o : OpInfo) (r : DescMove) : Statement (.dst o r) := fun iss hw hs =>
  decode_enc (l := DescMove.limits) (row := .dst) (mk := .dst o) (slots := [.c0, .c1]) (DescMove.law (fun _ _ => true)) (by decide) (fun _ _ _ => rfl) (fun _ _ _ _ => rfl) (fun sl hsl ex hex => by
    simp only [List.mem_cons, List.not_mem_nil, or_false] at hsl
    rcases hsl with rfl | rfl <;> rfl) rfl (two hw).1 (two hw).2 hs
theorem wait (o : OpInfo) (r : WaitArgs) : Statement (.wait o r) := fun iss hw hs =>
  decode_enc (l := WaitArgs.limits) (row := .wait) (mk := .wait o) (slots := [.y]) (WaitArgs.law (fun _ _ => true)) (by decide) (fun _ _ _ => rfl) (fun _ _ _ _ => rfl) (fun sl hsl ex hex => by
    simp only [List.mem_cons, List.not_mem_nil, or_false] at hsl
    subst hsl; rfl) rfl (two hw).1 (two hw).2 hs
theorem fwait (o : OpInfo) (r : FwaitArgs) : Statement (.fwait o r) := fun iss hw hs =>
  decode_enc (l := FwaitArgs.limits) (row := .fwait) (mk := .fwait o) (slots := [.y]) (FwaitArgs.law 0 (by decide) (fun _ _ => true)) (by decide) (fun _ _ _ => rfl) (fun _ _ _ _ => rfl) (fun sl hsl ex hex => by
    simp only [List.mem_cons, List.not_mem_nil, or_false] at hsl
    have h0 : fld (FwaitArgs.form.body 0 r) 0 5 = 0#5 := by
      apply BitVec.eq_of_toNat_eq; simp only [FwaitArgs.form, fld, BitVec.toNat_ofNat]; omega
    subst hsl; simp [rowOf, rowY, rowY02, h0]) rfl (two hw).1 (two hw).2 hs
theorem fwaitC (o : OpInfo) (r : FwaitArgs) : Statement (.fwaitC o r) := fun iss hw hs =>
  decode_enc (l := FwaitArgs.limits) (row := .fwaitC) (mk := .fwaitC o) (slots := [.y]) (FwaitArgs.law 1 (by decide) (fun _ _ => true)) (by decide) (fun _ _ _ => rfl) (fun _ _ _ _ => rfl) (fun sl hsl ex hex => by
    simp only [List.mem_cons, List.not_mem_nil, or_false] at hsl
    have h0 : fld (FwaitArgs.form.body 1 r) 0 5 = 1#5 := by
      apply BitVec.eq_of_toNat_eq; simp only [FwaitArgs.form, fld, BitVec.toNat_ofNat]; omega
    subst hsl; simp [rowOf, rowY, rowY02, h0]) rfl (two hw).1 (two hw).2 hs
theorem fwaitEq (o : OpInfo) (r : FwaitArgs) : Statement (.fwaitEq o r) := fun iss hw hs =>
  decode_enc (l := FwaitArgs.limits) (row := .fwaitEq) (mk := .fwaitEq o) (slots := [.y]) (FwaitArgs.law 2 (by decide) (fun _ _ => true)) (by decide) (fun _ _ _ => rfl) (fun _ _ _ _ => rfl) (fun sl hsl ex hex => by
    simp only [List.mem_cons, List.not_mem_nil, or_false] at hsl
    have h0 : fld (FwaitArgs.form.body 2 r) 0 5 = 2#5 := by
      apply BitVec.eq_of_toNat_eq; simp only [FwaitArgs.form, fld, BitVec.toNat_ofNat]; omega
    subst hsl; simp [rowOf, rowY, rowY02, h0]) rfl (two hw).1 (two hw).2 hs
theorem fpost (o : OpInfo) (r : FpostArgs) : Statement (.fpost o r) := fun iss hw hs =>
  decode_enc (l := FpostArgs.limits) (row := .fpost) (mk := .fpost o) (slots := [.y]) (FpostArgs.law 0 (by decide) (fun _ _ => true)) (by decide) (fun _ _ _ => rfl) (fun _ _ _ _ => rfl) (fun sl hsl ex hex => by
    simp only [List.mem_cons, List.not_mem_nil, or_false] at hsl
    have h0 : fld (FpostArgs.form.body 0 r) 0 5 = 0#5 := by
      apply BitVec.eq_of_toNat_eq; simp only [FpostArgs.form, fld, BitVec.toNat_ofNat]; omega
    subst hsl; simp [rowOf, rowY, rowY03, h0]) rfl (two hw).1 (two hw).2 hs
theorem fset (o : OpInfo) (r : FsetArgs) : Statement (.fset o r) := fun iss hw hs =>
  decode_enc (l := FsetArgs.limits) (row := .fset) (mk := .fset o) (slots := [.y]) (FsetArgs.law 1 (by decide) (fun _ _ => true)) (by decide) (fun _ _ _ => rfl) (fun _ _ _ _ => rfl) (fun sl hsl ex hex => by
    simp only [List.mem_cons, List.not_mem_nil, or_false] at hsl
    have h0 : fld (FsetArgs.form.body 1 r) 0 5 = 1#5 := by
      apply BitVec.eq_of_toNat_eq; simp only [FsetArgs.form, fld, BitVec.toNat_ofNat]; omega
    subst hsl; simp [rowOf, rowY, rowY03, h0]) rfl (two hw).1 (two hw).2 hs
theorem rpost (o : OpInfo) (r : RpostArgs) : Statement (.rpost o r) := fun iss hw hs =>
  decode_enc (l := RpostArgs.limits) (row := .rpost) (mk := .rpost o) (slots := [.y]) (RpostArgs.law 0 (by decide) (fun _ _ => true)) (by decide) (fun _ _ _ => rfl) (fun _ _ _ _ => rfl) (fun sl hsl ex hex => by
    simp only [List.mem_cons, List.not_mem_nil, or_false] at hsl
    have h0 : fld (RpostArgs.form.body 0 r) 0 5 = 0#5 := by
      apply BitVec.eq_of_toNat_eq; simp only [RpostArgs.form, fld, BitVec.toNat_ofNat]; omega
    subst hsl; simp [rowOf, rowY, rowY04, h0]) rfl (two hw).1 (two hw).2 hs
theorem rpostRel (o : OpInfo) (r : RpostArgs) : Statement (.rpostRel o r) := fun iss hw hs =>
  decode_enc (l := RpostArgs.limits) (row := .rpostRel) (mk := .rpostRel o) (slots := [.y]) (RpostArgs.law 1 (by decide) (fun _ _ => true)) (by decide) (fun _ _ _ => rfl) (fun _ _ _ _ => rfl) (fun sl hsl ex hex => by
    simp only [List.mem_cons, List.not_mem_nil, or_false] at hsl
    have h0 : fld (RpostArgs.form.body 1 r) 0 5 = 1#5 := by
      apply BitVec.eq_of_toNat_eq; simp only [RpostArgs.form, fld, BitVec.toNat_ofNat]; omega
    subst hsl; simp [rowOf, rowY, rowY04, h0]) rfl (two hw).1 (two hw).2 hs
theorem rpostPred (o : OpInfo) (r : RpostPred) : Statement (.rpostPred o r) := fun iss hw hs =>
  decode_enc (l := RpostPred.limits) (row := .rpostPred) (mk := .rpostPred o) (slots := [.y]) (RpostPred.law 2 (by decide) (fun _ _ => true)) (by decide) (fun _ _ _ => rfl) (fun _ _ _ _ => rfl) (fun sl hsl ex hex => by
    simp only [List.mem_cons, List.not_mem_nil, or_false] at hsl
    have h0 : fld (RpostPred.form.body 2 r) 0 5 = 2#5 := by
      apply BitVec.eq_of_toNat_eq; simp only [RpostPred.form, fld, BitVec.toNat_ofNat]; omega
    subst hsl; simp [rowOf, rowY, rowY04, h0]) rfl (two hw).1 (two hw).2 hs
theorem barr (o : OpInfo) (r : BarrArgs) : Statement (.barr o r) := fun iss hw hs =>
  decode_enc (l := BarrArgs.limits) (row := .barr) (mk := .barr o) (slots := [.y]) (BarrArgs.law (fun _ _ => true)) (by decide) (fun _ _ _ => rfl) (fun _ _ _ _ => rfl) (fun sl hsl ex hex => by
    simp only [List.mem_cons, List.not_mem_nil, or_false] at hsl
    subst hsl; rfl) rfl (two hw).1 (two hw).2 hs
theorem bwait (o : OpInfo) (r : BarrArgs) : Statement (.bwait o r) := fun iss hw hs =>
  decode_enc (l := BarrArgs.limits) (row := .bwait) (mk := .bwait o) (slots := [.y]) (BarrArgs.law (fun _ _ => true)) (by decide) (fun _ _ _ => rfl) (fun _ _ _ _ => rfl) (fun sl hsl ex hex => by
    simp only [List.mem_cons, List.not_mem_nil, or_false] at hsl
    subst hsl; rfl) rfl (two hw).1 (two hw).2 hs
theorem rdv (o : OpInfo) (r : BarrArgs) : Statement (.rdv o r) := fun iss hw hs =>
  decode_enc (l := BarrArgs.limits) (row := .rdv) (mk := .rdv o) (slots := [.y]) (BarrArgs.law (fun _ _ => true)) (by decide) (fun _ _ _ => rfl) (fun _ _ _ _ => rfl) (fun sl hsl ex hex => by
    simp only [List.mem_cons, List.not_mem_nil, or_false] at hsl
    subst hsl; rfl) rfl (two hw).1 (two hw).2 hs
theorem fence (o : OpInfo) (r : FenceArgs) : Statement (.fence o r) := fun iss hw hs =>
  decode_enc (l := FenceArgs.limits) (row := .fence) (mk := .fence o) (slots := [.y]) (FenceArgs.law (fun _ _ => true)) (by decide) (fun _ _ _ => rfl) (fun _ _ _ _ => rfl) (fun sl hsl ex hex => by
    simp only [List.mem_cons, List.not_mem_nil, or_false] at hsl
    subst hsl; rfl) rfl (two hw).1 (two hw).2 hs
theorem chk (o : OpInfo) (r : ChkArgs) : Statement (.chk o r) := fun iss hw hs =>
  decode_enc (l := ChkArgs.limits) (row := .chk) (mk := .chk o) (slots := [.y]) (ChkArgs.law (fun _ _ => true)) (by decide) (fun _ _ _ => rfl) (fun _ _ _ _ => rfl) (fun sl hsl ex hex => by
    simp only [List.mem_cons, List.not_mem_nil, or_false] at hsl
    obtain ⟨ha, hb⟩ := ChkArgs.body_files r
    subst hsl; exact if_pos ⟨by rw [ha]; exact RFile.code_lt _, by rw [hb]; exact RFile.code_lt _⟩) rfl (two hw).1 (two hw).2 hs
theorem fork (o : OpInfo) (r : ForkArgs) : Statement (.fork o r) := fun iss hw hs =>
  decode_enc (l := ForkArgs.limits) (row := .fork) (mk := .fork o) (slots := [.f]) (ForkArgs.law (fun _ _ => true)) (by decide) (fun _ _ _ => rfl) (fun _ _ _ _ => rfl) (fun sl hsl ex hex => by
    simp only [List.mem_cons, List.not_mem_nil, or_false] at hsl
    subst hsl; rfl) rfl (two hw).1 (two hw).2 hs
theorem fprobe (o : OpInfo) (r : FprobeArgs) : Statement (.fprobe o r) := fun iss hw hs =>
  decode_enc (l := FprobeArgs.limits) (row := .fprobe) (mk := .fprobe o) (slots := [.f]) (FprobeArgs.law 0 (by decide) (fun _ _ => true)) (by decide) (fun _ _ _ => rfl) (fun _ _ _ _ => rfl) (fun sl hsl ex hex => by
    simp only [List.mem_cons, List.not_mem_nil, or_false] at hsl
    have h0 : fld (FprobeArgs.form.body 0 r) 3 1 = 0#1 := by
      apply BitVec.eq_of_toNat_eq; simp only [FprobeArgs.form, fld, BitVec.toNat_ofNat]; omega
    subst hsl; simp [rowOf, rowF, rowF02, h0]) rfl (two hw).1 (two hw).2 hs
theorem fprobeF (o : OpInfo) (r : FprobeArgs) : Statement (.fprobeF o r) := fun iss hw hs =>
  decode_enc (l := FprobeArgs.limits) (row := .fprobeF) (mk := .fprobeF o) (slots := [.f]) (FprobeArgs.law 1 (by decide) (fun _ _ => true)) (by decide) (fun _ _ _ => rfl) (fun _ _ _ _ => rfl) (fun sl hsl ex hex => by
    simp only [List.mem_cons, List.not_mem_nil, or_false] at hsl
    have h0 : fld (FprobeArgs.form.body 1 r) 3 1 = 1#1 := by
      apply BitVec.eq_of_toNat_eq; simp only [FprobeArgs.form, fld, BitVec.toNat_ofNat]; omega
    subst hsl; simp [rowOf, rowF, rowF02, h0]) rfl (two hw).1 (two hw).2 hs
theorem hostLineCacheFill (line : BitVec 46) (excl : Bool) (data : List Byte) : Statement (.hostLineCacheFill line excl data) := fun _ _ => rfl
theorem powerLoss : Statement (.powerLoss) := fun _ _ => rfl

end Sys2Proof.Laws.RoundTrip
end

