-- ==== Sys2Proof/Safety.lean ====
section
/-! DEFINITION. What counts as a safe run of the package, and the predicates on states that statements use. -/
namespace Sys2Proof.Machine
open Sys2Proof

/-- Memory stands in its canonical form. -/
def State.memOk (s : State) : Prop := Memory.wf s.mem = true
/-- Every event that has arrived and waits names an agent that exists (R4, R22, R150). -/
def State.agendaOk (s : State) : Prop := ∀ i ∈ s.agenda, Instr.isEvent i = true
/-- The next n steps each give a next state: no fault, no refusal. -/
def RunsOn : Nat → State → Prop
  | 0, _ => True
  | n + 1, s => ∃ t, step s = .next t ∧ RunsOn n t
/-- A run is safe when the package never stops on a reason of the model's own, whatever it does by itself. -/
def State.safe (s : State) : Prop := ∀ n, RunsOn n s

/-! Conditions on operands and modes that statements name. -/

/-- An arrival attached to an operation can be posted: a flag always, a barrier when the context is granted it, the bundle issues in
a gang member's chunk, and the release buffer has room (R299, R344, R220). -/
def State.arrivalOk (s : State) : Option Arrival → Prop
  | none => True
  | some (.flag _) => True
  | some (.barrier g) => s.barGranted g.toNat = true ∧ s.cur.gangMember = true ∧ s.cur.relCount < 512
/-- The state after an arrival is posted (R299): one increment of the flag, or an arrival withheld in the release buffer. -/
def State.arrival (s : State) : Option Arrival → State
  | none => s
  | some (.flag f) => s.flagInc f.toNat 1
  | some (.barrier g) => s.modCur fun c => { c with seg := { c.seg with rel := c.seg.rel ++ [.arrive g.toNat] } }

end Sys2Proof.Machine
end

