-- ==== Sys2Proof/Certificates/Slice0/Obligations.lean ====
section
/-! DEFINITION. The statements for the provers. -/
open Sys2Proof Sys2Proof.Machine

/-! Results of slot operations. Each says that the operation answers a next state, and which one: its result lands (R204), and its
arrival is posted (R299). -/

/-- R317: the register forms of the integer ALU, in the S slot, the X slot and on the service sequencer.
R318: the immediate forms, b being the sign-extended immediate, and the three immediate shifts.
R317 and R319: movr copies; mov extends its immediate; movhi sets the upper half and keeps the lower half as read at issue. -/
def Obligations.ScalarResults : Prop :=
  (∀ p ∈ ([
    (.add, fun a b => BitVec.ofNat 64 (a.toNat + b.toNat)),
    (.sub, fun a b => BitVec.ofInt 64 ((a.toNat : Int) - b.toNat)),
    (.and, fun a b => a &&& b),
    (.or, fun a b => a ||| b),
    (.xor, fun a b => a ^^^ b),
    (.andn, fun a b => a &&& ~~~b),
    (.shl, fun a b => BitVec.ofNat 64 (a.toNat * 2 ^ (b.toNat % 64))),
    (.shr, fun a b => BitVec.ofNat 64 (a.toNat / 2 ^ (b.toNat % 64))),
    (.sra, fun a b => BitVec.ofInt 64 (a.toInt / 2 ^ (b.toNat % 64))),
    (.rol, fun a b => if b.toNat % 64 = 0 then a else (a <<< (b.toNat % 64)) ||| (a >>> (64 - b.toNat % 64))),
    (.mul, fun a b => BitVec.ofNat 64 (a.toNat * b.toNat)),
    (.mulhs, fun a b => BitVec.ofInt 64 (a.toInt * b.toInt / 2 ^ 64)),
    (.mulhu, fun a b => BitVec.ofNat 64 (a.toNat * b.toNat / 2 ^ 64)),
    (.min, fun a b => BitVec.ofInt 64 (Min.min a.toInt b.toInt)),
    (.max, fun a b => BitVec.ofInt 64 (Max.max a.toInt b.toInt)),
    (.minu, fun a b => BitVec.ofNat 64 (Min.min a.toNat b.toNat)),
    (.maxu, fun a b => BitVec.ofNat 64 (Max.max a.toNat b.toNat)),
    (.addw, fun a b => (BitVec.ofNat 32 (a.toNat + b.toNat)).signExtend 64),
    (.subw, fun a b => (BitVec.ofInt 32 ((a.toNat : Int) - b.toNat)).signExtend 64)]
      : List ((OpInfo → RRR → Instr) × (Word → Word → Word))),
  ∀ (o : OpInfo) (r : RRR) (s : State), s.guard0 o = true → s.arrivalOk o.arr →
    exec (p.1 o r) s = .next ((s.landG o.slot r.d (p.2 (s.gpr o.slot r.a) (s.gpr o.slot r.b))).arrival o.arr)) ∧
  ((∀ p ∈ ([
    (.addImm, fun a b => BitVec.ofNat 64 (a.toNat + b.toNat)),
    (.andImm, fun a b => a &&& b),
    (.orImm, fun a b => a ||| b),
    (.xorImm, fun a b => a ^^^ b),
    (.mulImm, fun a b => BitVec.ofNat 64 (a.toNat * b.toNat))]
      : List ((OpInfo → RImm → Instr) × (Word → Word → Word))),
    ∀ (o : OpInfo) (r : RImm) (s : State), s.guard0 o = true → s.arrivalOk o.arr →
      exec (p.1 o r) s = .next ((s.landG o.slot r.d (p.2 (s.gpr o.slot r.a) (BitVec.ofInt 64 r.imm.toInt))).arrival o.arr)) ∧
  (∀ p ∈ ([
    (.shlImm, fun a n => BitVec.ofNat 64 (a.toNat * 2 ^ n)),
    (.shrImm, fun a n => BitVec.ofNat 64 (a.toNat / 2 ^ n)),
    (.sraImm, fun a n => BitVec.ofInt 64 (a.toInt / 2 ^ n))]
      : List ((OpInfo → RShift → Instr) × (Word → Nat → Word))),
    ∀ (o : OpInfo) (r : RShift) (s : State), s.guard0 o = true → s.arrivalOk o.arr →
      exec (p.1 o r) s = .next ((s.landG o.slot r.d (p.2 (s.gpr o.slot r.a) r.sh.toNat)).arrival o.arr))) ∧
  (∀ (o : OpInfo) (s : State), s.guard0 o = true → s.arrivalOk o.arr →
    (∀ r : RR, exec (.movr o r) s = .next ((s.landG o.slot r.d (s.gpr o.slot r.a)).arrival o.arr)) ∧
    (∀ r : RLong, exec (.mov o r) s = .next ((s.landG o.slot r.d (BitVec.ofInt 64 r.imm.toInt)).arrival o.arr)) ∧
    (∀ r : RLong, exec (.movhi o r) s = .next ((s.landG o.slot r.d
      (r.imm.setWidth 32 ++ (s.gpr o.slot r.d).setWidth 32)).arrival o.arr)))

/-- R320 and R321: a compare sets every bit of its predicate when its condition is true and clears every bit else; predicate logic
works on all 64 bits. Both land with the latency of the slot's ALU, and p0 keeps its value.
R333 to R335: compare and advance, bit counts and bit scans of the index slot. -/
def Obligations.PredicateAndIndexResults : Prop :=
  (∀ (o : OpInfo) (s : State), s.guard0 o = true → s.arrivalOk o.arr →
    let put (pd : BitVec 4) (v : Word) : State := s.landP (if o.slot = .x then .xalu else .salu) pd v (BitVec.allOnes 64)
    let cond (cc : BitVec 4) (a b : Word) : Prop :=
      (cc = 0 ∧ a = b) ∨ (cc = 1 ∧ a ≠ b) ∨ (cc = 2 ∧ a.toInt < b.toInt) ∨ (cc = 3 ∧ a.toInt ≥ b.toInt) ∨ (cc = 4 ∧ a.toNat < b.toNat) ∨
      (cc = 5 ∧ a.toNat ≥ b.toNat) ∨ (cc = 6 ∧ a.toInt ≤ b.toInt) ∨ (cc = 7 ∧ a.toInt > b.toInt) ∨ (cc = 8 ∧ a.toNat ≤ b.toNat) ∨
      (cc = 9 ∧ a.toNat > b.toNat) ∨ (cc = 10 ∧ a &&& b ≠ 0) ∨ (cc = 11 ∧ a &&& b = 0)
    (∀ r : CmpReg, r.cc.toNat < 12 →
      (cond r.cc (s.gpr o.slot r.a) (s.gpr o.slot r.b) → exec (.cmp o r) s = .next ((put r.pd (BitVec.allOnes 64)).arrival o.arr)) ∧
      (¬cond r.cc (s.gpr o.slot r.a) (s.gpr o.slot r.b) → exec (.cmp o r) s = .next ((put r.pd 0).arrival o.arr))) ∧
    (∀ r : CmpImm, r.cc.toNat < 12 →
      (cond r.cc (s.gpr o.slot r.a) (BitVec.ofInt 64 r.imm.toInt) → exec (.cmpImm o r) s = .next ((put r.pd (BitVec.allOnes 64)).arrival o.arr)) ∧
      (¬cond r.cc (s.gpr o.slot r.a) (BitVec.ofInt 64 r.imm.toInt) → exec (.cmpImm o r) s = .next ((put r.pd 0).arrival o.arr))) ∧
    (∀ p ∈ ([(.pand, fun a b => a &&& b), (.por, fun a b => a ||| b), (.pxor, fun a b => a ^^^ b), (.pandn, fun a b => a &&& ~~~b)]
        : List ((OpInfo → PredLogic → Instr) × (Word → Word → Word))),
      ∀ r : PredLogic, exec (p.1 o r) s = .next ((put r.pd (p.2 (s.cur.rP r.a.toNat) (s.cur.rP r.b.toNat))).arrival o.arr))) ∧
  (∀ (o : OpInfo) (s : State), o.slot = .x → s.guard0 o = true → s.arrivalOk o.arr →
    (∀ r : CadvArgs,
      let new : Word := s.gpr .x r.a + (if r.step = 0 then 1 else BitVec.ofInt 64 r.step.toInt)
      let c : Bool := if r.sg = 1 then decide (new.toInt < (s.gpr .x r.b).toInt) else decide (new.toNat < (s.gpr .x r.b).toNat)
      exec (.cadv o r) s = .next (((s.landG .x r.d new).landP .xalu r.pd (if c then BitVec.allOnes 64 else 0) (BitVec.allOnes 64)).arrival o.arr)) ∧
    (∀ r : RR, ∃ n : Nat, n = ((List.range 64).filter fun i => (s.gpr .x r.a).getLsbD i).length ∧
      exec (.popc o r) s = .next ((s.landG .x r.d (BitVec.ofNat 64 n)).arrival o.arr)) ∧
    (∀ r : RR, ∃ n : Nat, n ≤ 64 ∧ (∀ i, 64 - n ≤ i → (s.gpr .x r.a).getLsbD i = false) ∧ (n < 64 → (s.gpr .x r.a).getLsbD (63 - n) = true) ∧
      exec (.clz o r) s = .next ((s.landG .x r.d (BitVec.ofNat 64 n)).arrival o.arr)) ∧
    (∀ r : RR, ∃ n : Nat, n ≤ 64 ∧ (∀ i < n, (s.gpr .x r.a).getLsbD i = false) ∧ (n < 64 → (s.gpr .x r.a).getLsbD n = true) ∧
      exec (.ctz o r) s = .next ((s.landG .x r.d (BitVec.ofNat 64 n)).arrival o.arr)) ∧
    (∀ p ∈ ([(.bscan, true), (.bscanc, false)] : List ((OpInfo → RRR → Instr) × Bool)),
      ∀ r : RRR, ∃ n : Nat, n ≤ 64 ∧ (∀ i < n, (s.gpr .x r.b).toNat % 64 ≤ i → (s.gpr .x r.a).getLsbD i = !p.2) ∧
        (n < 64 → (s.gpr .x r.b).toNat % 64 ≤ n ∧ (s.gpr .x r.a).getLsbD n = p.2) ∧
        exec (p.1 o r) s = .next ((s.landG .x r.d (BitVec.ofNat 64 n)).arrival o.arr)))

/-- R355 and R356: integer vector arithmetic and logic. Each element is formed modulo 2^e, lands after the vector-integer latency, and
reaches the elements whose guard is true (landRange).
R357: shifts by a count K below the element's width; R367: rotation of elements and splat of one; R367: the two-source permutes and
the reversal. -/
def Obligations.VectorIntegerAndPermuteResults : Prop :=
  (∀ (o : OpInfo) (s : State), s.anyGuard o = true → s.arrivalOk o.arr →
    (∀ p ∈ ([
      (.vadd, fun _ a b => (a : Int) + b),
      (.vsub, fun _ a b => (a : Int) - b),
      (.vmul, fun _ a b => (a : Int) * b),
      (.vmulhs, fun e a b => sgn e a * sgn e b / 2 ^ e),
      (.vmulhu, fun e a b => (a : Int) * b / 2 ^ e),
      (.vmin, fun e a b => Min.min (sgn e a) (sgn e b)),
      (.vmax, fun e a b => Max.max (sgn e a) (sgn e b)),
      (.vminu, fun _ a b => Min.min (a : Int) b),
      (.vmaxu, fun _ a b => Max.max (a : Int) b),
      (.vadds, fun e a b => Max.max (-2 ^ (e - 1)) (Min.min (2 ^ (e - 1) - 1) (sgn e a + sgn e b))),
      (.vsubs, fun e a b => Max.max (-2 ^ (e - 1)) (Min.min (2 ^ (e - 1) - 1) (sgn e a - sgn e b))),
      (.vaddus, fun e a b => Max.max 0 (Min.min (2 ^ e - 1) ((a : Int) + b))),
      (.vsubus, fun e a b => Max.max 0 (Min.min (2 ^ e - 1) ((a : Int) - b))),
      (.vand, fun _ a b => ((a &&& b : Nat) : Int)),
      (.vor, fun _ a b => ((a ||| b : Nat) : Int)),
      (.vxor, fun _ a b => ((a ^^^ b : Nat) : Int)),
      (.vandn, fun e a b => ((a &&& (2 ^ e - 1 - b) : Nat) : Int)),
      (.vmulq, fun e a b => Max.max (-2 ^ (e - 1)) (Min.min (2 ^ (e - 1) - 1) ((sgn e a * sgn e b + 2 ^ (e - 2)) / 2 ^ (e - 1)))),
      (.vshl, fun e a b => if b % 64 < e then (a : Int) * 2 ^ (b % 64) else 0),
      (.vshr, fun e a b => if b % 64 < e then (a : Int) / 2 ^ (b % 64) else 0),
      (.vsra, fun e a b => if b % 64 < e then sgn e a / 2 ^ (b % 64) else if sgn e a < 0 then -1 else 0),
      (.vrol, fun e a b => (a : Int) * 2 ^ (b % 64 % e) + a / 2 ^ (e - b % 64 % e))]
        : List ((OpInfo → VInt3 → Instr) × (Nat → Nat → Nat → Int))),
      ∀ r : VInt3, let e := 8 * 2 ^ r.w.toNat
        ∃ v : Vec, (∀ j < 1024 / e, (elem e v j : Int) = p.2 e (elem e (s.cur.rV r.a.toNat) j) (elem e (s.cur.rV r.b.toNat) j) % 2 ^ e) ∧
          exec (p.1 o r) s = .next ((s.landRange .vint o r.d e 0 (1024 / e) v).arrival o.arr)) ∧
    (∀ p ∈ ([(.vabs, fun e a => ((sgn e a).natAbs : Int)), (.vneg, fun _ a => -(a : Int)), (.vmov, fun _ a => (a : Int))]
        : List ((OpInfo → VInt2 → Instr) × (Nat → Nat → Int))),
      ∀ r : VInt2, let e := 8 * 2 ^ r.w.toNat
        ∃ v : Vec, (∀ j < 1024 / e, (elem e v j : Int) = p.2 e (elem e (s.cur.rV r.a.toNat) j) % 2 ^ e) ∧
          exec (p.1 o r) s = .next ((s.landRange .vint o r.d e 0 (1024 / e) v).arrival o.arr)) ∧
    (∀ p ∈ ([
      (.vmac, fun _ d a b => (d : Int) + a * b),
      (.vmacs, fun e d a b => Max.max (-2 ^ (e - 1)) (Min.min (2 ^ (e - 1) - 1) (sgn e d + sgn e a * sgn e b)))]
        : List ((OpInfo → VInt3 → Instr) × (Nat → Nat → Nat → Nat → Int))),
      ∀ r : VInt3, let e := 8 * 2 ^ r.w.toNat
        ∃ v : Vec, (∀ j < 1024 / e, (elem e v j : Int) =
            p.2 e (elem e (s.cur.rV r.d.toNat) j) (elem e (s.cur.rV r.a.toNat) j) (elem e (s.cur.rV r.b.toNat) j) % 2 ^ e) ∧
          exec (p.1 o r) s = .next ((s.landRange .vint o r.d e 0 (1024 / e) v).arrival o.arr)) ∧
    (∀ p ∈ ([(.vmacwl, 0), (.vmacwh, 1)] : List ((OpInfo → VInt3 → Instr) × Nat)),
      ∀ r : VInt3, r.w.toNat < 3 → let e := 8 * 2 ^ r.w.toNat
        ∃ v : Vec, (∀ i < 1024 / (2 * e), (elem (2 * e) v i : Int) = ((elem (2 * e) (s.cur.rV r.d.toNat) i : Int) +
            sgn e (elem e (s.cur.rV r.a.toNat) (i + p.2 * (512 / e))) * sgn e (elem e (s.cur.rV r.b.toNat) (i + p.2 * (512 / e)))) % 2 ^ (2 * e)) ∧
          exec (p.1 o r) s = .next ((s.landRange .vint o r.d (2 * e) 0 (1024 / (2 * e)) v).arrival o.arr))) ∧
  (∀ (o : OpInfo) (s : State), s.anyGuard o = true → s.arrivalOk o.arr →
    (∀ p ∈ ([
      (.vshlImm, fun e (a : Nat → Nat) j k => (a j : Int) * 2 ^ k % 2 ^ e),
      (.vshrImm, fun _ a j k => (a j : Int) / 2 ^ k),
      (.vsraImm, fun e a j k => sgn e (a j) / 2 ^ k % 2 ^ e),
      (.vrolImm, fun e a j k => ((a j : Int) * 2 ^ k + a j / 2 ^ (e - k)) % 2 ^ e)]
        : List ((OpInfo → VIntK → Instr) × (Nat → (Nat → Nat) → Nat → Nat → Int))),
      ∀ r : VIntK, let e := 8 * 2 ^ r.w.toNat
        r.k.toNat < e → ∃ v : Vec, (∀ j < 1024 / e, (elem e v j : Int) = p.2 e (elem e (s.cur.rV r.a.toNat)) j r.k.toNat) ∧
          exec (p.1 o r) s = .next ((s.landRange .vint o r.d e 0 (1024 / e) v).arrival o.arr)) ∧
    (∀ p ∈ ([(.vrot, fun n a j k => a ((j + k) % n)), (.vsplat, fun _ a _ k => a k)]
        : List ((OpInfo → VIntK → Instr) × (Nat → (Nat → Nat) → Nat → Nat → Nat))),
      ∀ r : VIntK, let e := 8 * 2 ^ r.w.toNat
        r.k.toNat < 1024 / e → ∃ v : Vec, (∀ j < 1024 / e, elem e v j = p.2 (1024 / e) (elem e (s.cur.rV r.a.toNat)) j r.k.toNat) ∧
          exec (p.1 o r) s = .next ((s.landRange .vint o r.d e 0 (1024 / e) v).arrival o.arr)) ∧
    (∀ r : VExt, let e := 8 * 2 ^ r.w.toNat
        r.k.toNat ≤ 1024 / e → ∃ v : Vec, (∀ j < 1024 / e, elem e v j =
            if j + r.k.toNat < 1024 / e then elem e (s.cur.rV r.a.toNat) (j + r.k.toNat) else elem e (s.cur.rV r.b.toNat) (j + r.k.toNat - 1024 / e)) ∧
          exec (.vext o r) s = .next ((s.landRange .vint o r.d e 0 (1024 / e) v).arrival o.arr)) ∧
    (∀ p ∈ ([
      (.vperm, fun n a b j => a (b j % n)),
      (.vzipl, fun _ a b j => if j % 2 = 0 then a (j / 2) else b (j / 2)),
      (.vziph, fun n a b j => if j % 2 = 0 then a (j / 2 + n / 2) else b (j / 2 + n / 2)),
      (.vuzpe, fun n a b j => if j < n / 2 then a (2 * j) else b (2 * (j - n / 2))),
      (.vuzpo, fun n a b j => if j < n / 2 then a (2 * j + 1) else b (2 * (j - n / 2) + 1))]
        : List ((OpInfo → VInt3 → Instr) × (Nat → (Nat → Nat) → (Nat → Nat) → Nat → Nat))),
      ∀ r : VInt3, let e := 8 * 2 ^ r.w.toNat
        ∃ v : Vec, (∀ j < 1024 / e, elem e v j = p.2 (1024 / e) (elem e (s.cur.rV r.a.toNat)) (elem e (s.cur.rV r.b.toNat)) j) ∧
          exec (p.1 o r) s = .next ((s.landRange .vint o r.d e 0 (1024 / e) v).arrival o.arr)) ∧
    (∀ r : VInt2, let e := 8 * 2 ^ r.w.toNat
        ∃ v : Vec, (∀ j < 1024 / e, elem e v j = elem e (s.cur.rV r.a.toNat) (1024 / e - 1 - j)) ∧
          exec (.vrev o r) s = .next ((s.landRange .vint o r.d e 0 (1024 / e) v).arrival o.arr)) ∧
    (∀ r : RLong, ∃ v : Vec, (∀ j < 16, elem 64 v j = (BitVec.ofInt 64 r.imm.toInt).toNat) ∧
          exec (.vbcast o r) s = .next ((s.landRange .vint o r.d 64 0 16 v).arrival o.arr)) ∧
    (∀ r : VSel, let e := 8 * 2 ^ r.w.toNat
        ∃ v : Vec, (∀ j < 1024 / e, elem e v j =
            if (s.cur.rP r.c.toNat).getLsbD (j * e / 16) then elem e (s.cur.rV r.a.toNat) j else elem e (s.cur.rV r.b.toNat) j) ∧
          exec (.vsel o r) s = .next ((s.landRange .vint o r.d e 0 (1024 / e) v).arrival o.arr)))

/-- R365 and R366: integer reductions write element 0; integer scans write every element with the combination of the elements up to it.
R358: vector compares. The bit of a predicate that stands for an element of 16 bits or more takes its condition; a bit for a pair
of bytes takes both; bits whose guard is false keep their values, since the mask of what lands leaves them out. -/
def Obligations.VectorReductionAndCompareResults : Prop :=
  (∀ (o : OpInfo) (s : State) (r : VInt2), s.anyGuard o = true → s.arrivalOk o.arr →
    let e := 8 * 2 ^ r.w.toNat
    let n := 1024 / e
    let a := elem e (s.cur.rV r.a.toNat)
    let first (x : Nat) : Host.Outcome State Fault Refusal := .next ((s.landRange .vint o r.d e 0 1 (BitVec.ofNat 1024 x)).arrival o.arr)
    let all (v : Vec) : Host.Outcome State Fault Refusal := .next ((s.landRange .vint o r.d e 0 n v).arrival o.arr)
    let sum (k : Nat) : Nat := ((List.range k).map a).sum % 2 ^ e
    exec (.vradd o r) s = first (sum n) ∧
    (∃ i < n, (∀ j < n, sgn e (a i) ≤ sgn e (a j)) ∧ exec (.vrmin o r) s = first (a i)) ∧
    (∃ i < n, (∀ j < n, sgn e (a j) ≤ sgn e (a i)) ∧ exec (.vrmax o r) s = first (a i)) ∧
    (∃ i < n, (∀ j < n, a i ≤ a j) ∧ exec (.vrminu o r) s = first (a i)) ∧
    (∃ i < n, (∀ j < n, a j ≤ a i) ∧ exec (.vrmaxu o r) s = first (a i)) ∧
    (∃ x, (∀ b, x.testBit b = (List.range n).all fun j => (a j).testBit b) ∧ exec (.vrand o r) s = first x) ∧
    (∃ x, (∀ b, x.testBit b = (List.range n).any fun j => (a j).testBit b) ∧ exec (.vror o r) s = first x) ∧
    (∃ x, (∀ b, x.testBit b = decide (((List.range n).filter fun j => (a j).testBit b).length % 2 = 1)) ∧ exec (.vrxor o r) s = first x) ∧
    (∃ v, (∀ j < n, elem e v j = sum (j + 1)) ∧ exec (.vscanadd o r) s = all v) ∧
    (∃ v, (∀ j < n, elem e v j = sum j) ∧ exec (.vscanaddx o r) s = all v) ∧
    (∃ v, (∀ j < n, ∃ i ≤ j, elem e v j = a i ∧ ∀ k ≤ j, sgn e (a k) ≤ sgn e (a i)) ∧ exec (.vscanmax o r) s = all v) ∧
    (∃ v, (∀ j < n, ∃ i ≤ j, elem e v j = a i ∧ ∀ k ≤ j, sgn e (a i) ≤ sgn e (a k)) ∧ exec (.vscanmin o r) s = all v) ∧
    (∃ v, (∀ j < n, ∃ i ≤ j, elem e v j = a i ∧ ∀ k ≤ j, a k ≤ a i) ∧ exec (.vscanmaxu o r) s = all v) ∧
    (∃ v, (∀ j < n, ∃ i ≤ j, elem e v j = a i ∧ ∀ k ≤ j, a i ≤ a k) ∧ exec (.vscanminu o r) s = all v)) ∧
  (∀ (o : OpInfo) (s : State), s.anyGuard o = true → s.arrivalOk o.arr →
    let bit (e : Nat) (c : Nat → Bool) (i : Nat) : Bool := if e = 8 then c (2 * i) && c (2 * i + 1) else c (i * 16 / e)
    let live (e i : Nat) : Bool := s.cur.guardBit o (if e = 8 then i else i * 16 / e * e / 16)
    (∀ r : VCmp, let e := 8 * 2 ^ r.w.toNat
      let a := elem e (s.cur.rV r.a.toNat)
      let b := elem e (s.cur.rV r.b.toNat)
      ∀ c : Nat → Bool, (∀ j < 1024 / e, c j = true ↔
        (r.cc = 0 ∧ a j = b j) ∨ (r.cc = 1 ∧ a j ≠ b j) ∨ (r.cc = 2 ∧ sgn e (a j) < sgn e (b j)) ∨ (r.cc = 3 ∧ sgn e (a j) ≥ sgn e (b j)) ∨
        (r.cc = 4 ∧ a j < b j) ∨ (r.cc = 5 ∧ a j ≥ b j) ∨ (r.cc = 6 ∧ sgn e (a j) ≤ sgn e (b j)) ∨ (r.cc = 7 ∧ sgn e (a j) > sgn e (b j)) ∨
        (r.cc = 8 ∧ a j ≤ b j) ∨ (r.cc = 9 ∧ a j > b j) ∨ (r.cc = 10 ∧ a j &&& b j ≠ 0) ∨ (r.cc = 11 ∧ a j &&& b j = 0)) →
      r.cc.toNat < 12 → ∃ v m : Word, (∀ i < 64, m.getLsbD i = live e i) ∧ (∀ i < 64, live e i = true → v.getLsbD i = bit e c i) ∧
        exec (.vcmp o r) s = .next ((s.landP .vint r.pd v m).arrival o.arr)) ∧
    (∀ (r : VFCmp) (g : Fmt), r.fmt.toNat ∈ [7, 8, 9, 10] → floatOf r.fmt.toNat = some g →
      let a (j : Nat) : FVal := decF g (elem g.w (s.cur.rV r.a.toNat) j)
      let b (j : Nat) : FVal := decF g (elem g.w (s.cur.rV r.b.toNat) j)
      ∃ v m : Word, (∀ i < 64, m.getLsbD i = live g.w i) ∧ (∀ i < 64, live g.w i = true → v.getLsbD i = bit g.w (fun j => fcond r.cc.toNat (a j) (b j)) i) ∧
        exec (.vfcmp o r) s = .next ((s.landP .vflt r.pd v m).arrival o.arr)))

/-- R266, R267, R360, R361, R369: elementwise floating arithmetic and the transcendental functions round the exact result of each element
once, into the format that the operation names; a random value is drawn for each element under SR alone (drawFor).
R360, R365, R366: minimum, maximum, absolute value and negation work on codes; floating reductions write element 0, of which vrfadd alone
draws a random value; the floating scan rounds each exact prefix sum. -/
def Obligations.VectorFloatResults : Prop :=
  (∀ (o : OpInfo) (s : State), s.anyGuard o = true → s.arrivalOk o.arr →
    (∀ p ∈ ([
      (.vfadd, fun rdn _ a b => .exact (addF rdn a b)),
      (.vfsub, fun rdn _ a b => .exact (addF rdn a b.neg)),
      (.vfmul, fun _ _ a b => .exact (mulF a b)),
      (.vfdiv, fun _ _ a b => divF a b),
      (.vfma, fun rdn d a b => .exact (addF rdn (mulF a b) d)),
      (.vfms, fun rdn d a b => .exact (addF rdn (mulF a b) d.neg)),
      (.vfnma, fun rdn d a b => .exact (addF rdn (mulF a b).neg d)),
      (.vfnms, fun rdn d a b => .exact (addF rdn (mulF a b).neg d.neg))]
        : List ((OpInfo → VFp3 → Instr) × (Bool → FVal → FVal → FVal → RVal))),
      ∀ (r : VFp3) (g : Fmt) (m : Mode), r.fmt.toNat ∈ [7, 8, 9, 10] → floatOf r.fmt.toNat = some g → modeOf r.rm = some m →
        let n := 1024 / g.w
        let q := s.drawFor m r.str n (s.guardMask o g.w n != 0)
        let x (f : BitVec 5) (j : Nat) : FVal := decF g (elem g.w (s.cur.rV f.toNat) j)
        ∃ v : Vec, (∀ j < n, elem g.w v j = roundR g m (r.sat == 1) (q.1 j) (p.2 (m == .rdn) (x r.d j) (x r.a j) (x r.b j)) % 2 ^ g.w) ∧
          exec (p.1 o r) s = .next ((q.2.landRange .vflt o r.d g.w 0 n v).arrival o.arr)) ∧
    (∀ p ∈ ([
      (.vfsqrt, [7, 8, 9, 10], sqrtF), (.vrcp, [7, 8, 9], rcpF), (.vrsqrt, [7, 8, 9], rsqrtF), (.vexp2, [7, 8, 9], exp2F),
      (.vlog2, [7, 8, 9], log2F), (.vsinpi, [7, 8, 9], sinpiF), (.vcospi, [7, 8, 9], cospiF), (.vtanh, [7, 8, 9], tanhF),
      (.vsigm, [7, 8, 9], sigmF)]
        : List ((OpInfo → VFp2 → Instr) × List Nat × (FVal → RVal))),
      ∀ (r : VFp2) (g : Fmt) (m : Mode), r.fmt.toNat ∈ p.2.1 → floatOf r.fmt.toNat = some g → modeOf r.rm = some m →
        let n := 1024 / g.w
        let q := s.drawFor m r.str n (s.guardMask o g.w n != 0)
        ∃ v : Vec, (∀ j < n, elem g.w v j =
            roundR g m (r.sat == 1) (q.1 j) (p.2.2 (decF g (elem g.w (s.cur.rV r.a.toNat) j))) % 2 ^ g.w) ∧
          exec (p.1 o r) s = .next ((q.2.landRange .vflt o r.d g.w 0 n v).arrival o.arr))) ∧
  (∀ (o : OpInfo) (s : State), s.anyGuard o = true → s.arrivalOk o.arr →
    (∀ p ∈ ([(.vfmin, false), (.vfmax, true)] : List ((OpInfo → VFmt3 → Instr) × Bool)),
      ∀ (r : VFmt3) (g : Fmt), r.fmt.toNat ∈ [7, 8, 9, 10] → floatOf r.fmt.toNat = some g →
        let a := elem g.w (s.cur.rV r.a.toNat)
        let b := elem g.w (s.cur.rV r.b.toNat)
        ∃ v : Vec, (∀ j < 1024 / g.w,
            ((decF g (a j)).isNan = true → (decF g (b j)).isNan = true → elem g.w v j = nanOf g) ∧
            ((decF g (a j)).isNan = true → (decF g (b j)).isNan = false → elem g.w v j = b j) ∧
            ((decF g (a j)).isNan = false → (decF g (b j)).isNan = true → elem g.w v j = a j) ∧
            ((decF g (a j)).isNan = false → (decF g (b j)).isNan = false →
              (cmpF (decF g (a j)) (decF g (b j)) = (if p.2 then .gt else .lt) → elem g.w v j = a j) ∧
              (cmpF (decF g (a j)) (decF g (b j)) = (if p.2 then .lt else .gt) → elem g.w v j = b j) ∧
              (cmpF (decF g (a j)) (decF g (b j)) = .eq → (elem g.w v j = a j ∨ elem g.w v j = b j) ∧
                (decF g (elem g.w v j)).isNeg = if p.2 then (decF g (a j)).isNeg && (decF g (b j)).isNeg else (decF g (a j)).isNeg || (decF g (b j)).isNeg))) ∧
          exec (p.1 o r) s = .next ((s.landRange .vflt o r.d g.w 0 (1024 / g.w) v).arrival o.arr)) ∧
    (∀ p ∈ ([(.vfabs, false), (.vfneg, true)] : List ((OpInfo → VFmt2 → Instr) × Bool)),
      ∀ (r : VFmt2) (g : Fmt), r.fmt.toNat ∈ [7, 8, 9, 10] → floatOf r.fmt.toNat = some g →
        let a := elem g.w (s.cur.rV r.a.toNat)
        ∃ v : Vec, (∀ j < 1024 / g.w,
            ((decF g (a j)).isNan = true → elem g.w v j = nanOf g) ∧
            ((decF g (a j)).isNan = false → ∀ i < g.w,
              (elem g.w v j).testBit i = if i = g.w - 1 then (p.2 && !(a j).testBit i) else (a j).testBit i)) ∧
          exec (p.1 o r) s = .next ((s.landRange .vflt o r.d g.w 0 (1024 / g.w) v).arrival o.arr)) ∧
    (∀ (r : VRed) (g : Fmt) (m : Mode), r.fmt.toNat ∈ [7, 8, 9, 10] → floatOf r.fmt.toNat = some g → modeOf r.rm = some m →
      let n := 1024 / g.w
      let a := elem g.w (s.cur.rV r.a.toNat)
      let sum (k : Nat) : FVal := ((List.range k).map fun i => decF g (a (i + 1))).foldl (addF (m == .rdn)) (decF g (a 0))
      let q := s.drawFor m r.str n (s.guardE o g.w 0)
      let w := s.drawFor m r.str n (s.guardMask o g.w n != 0)
      let first (t : State) (x : Nat) : Host.Outcome State Fault Refusal := .next ((t.landRange .vflt o r.d g.w 0 1 (BitVec.ofNat 1024 (x % 2 ^ g.w))).arrival o.arr)
      exec (.vrfadd o r) s = first q.2 (roundF g m false (q.1 0) (sum (n - 1))) ∧
      exec (.vrfmin o r) s = first s (((List.range (n - 1)).map fun i => a (i + 1)).foldl (minmaxF g false) (a 0)) ∧
      exec (.vrfmax o r) s = first s (((List.range (n - 1)).map fun i => a (i + 1)).foldl (minmaxF g true) (a 0)) ∧
      ∃ v : Vec, (∀ j < n, elem g.w v j = roundF g m false (w.1 j) (sum j) % 2 ^ g.w) ∧
        exec (.vscanfadd o r) s = .next ((w.2.landRange .vflt o r.d g.w 0 n v).arrival o.arr)))

/-- R269, R362 to R364: conversions (narrowing ones fill one part of the destination, widening ones read one part of the source),
quantisation into blocks of 32 with their entries, and dequantisation. -/
def Obligations.VectorConversionResults : Prop :=
  ∀ (o : OpInfo) (s : State), s.arrivalOk o.arr →
    (∀ (r : VCvt) (m : Mode), s.anyGuard o = true → r.fmt.toNat ∈ [0, 1, 2, 3, 4, 5, 7, 8, 9, 10] → r.fmt2.toNat ∈ [0, 1, 2, 3, 4, 5, 7, 8, 9, 10] →
      modeOf r.rm = some m →
      let ws := fmtWidth r.fmt.toNat
      let wd := fmtWidth r.fmt2.toNat
      let unit : LatUnit := if r.fmt.toNat ≤ 3 ∧ r.fmt2.toNat ≤ 3 then .vint else .vflt
      let part := r.part.toNat
      (wd ≤ ws → part < ws / wd →
        let n := 1024 / ws
        let mask := s.guardMask o wd (1024 / wd) &&& BitVec.ofNat 1024 ((2 ^ (wd * n) - 1) * 2 ^ (wd * (part * n)))
        let q := s.drawFor m r.str n (mask != 0)
        ∃ v : Vec, (∀ i < n, elem wd v (part * n + i) =
            convert r.fmt.toNat r.fmt2.toNat m (r.sat == 1) (q.1 i) (elem ws (s.cur.rV r.a.toNat) i) % 2 ^ wd) ∧
          exec (.vcvt o r) s = .next ((q.2.landRange unit o r.d wd (part * n) n v).arrival o.arr)) ∧
      (ws < wd → part < wd / ws →
        let n := 1024 / wd
        let mask := s.guardMask o wd n &&& BitVec.ofNat 1024 (2 ^ (wd * n) - 1)
        let q := s.drawFor m r.str (1024 / ws) (mask != 0)
        ∃ v : Vec, (∀ i < n, elem wd v i =
            convert r.fmt.toNat r.fmt2.toNat m (r.sat == 1) (q.1 (part * n + i)) (elem ws (s.cur.rV r.a.toNat) (part * n + i)) % 2 ^ wd) ∧
          exec (.vcvt o r) s = .next ((q.2.landRange unit o r.d wd 0 n v).arrival o.arr))) ∧
    (∀ p ∈ ([(.vqntE2m1s, 6, 4), (.vqntE4m3, 4, 8), (.vqntE5m2, 5, 8)] : List ((OpInfo → VQnt → Instr) × Nat × Nat)),
      ∀ (r : VQnt) (g : Fmt) (m : Mode), s.guard0 o = true → r.fmt.toNat ∈ [7, 8, 9] → floatOf r.fmt.toNat = some g → modeOf r.rm = some m →
        m ∉ [Mode.rdn, .rup] →
        let nb := 1024 / g.w / 32
        let c := 4 * p.2.2
        let q0 := r.part.toNat * nb
        q0 + nb ≤ 128 / c →
        let q := s.drawFor m r.str (1024 / g.w) true
        let block (b : Nat) := quantBlock p.2.1 m (r.sat == 1) (fun k => q.1 (32 * b + k))
          ((List.range 32).map fun k => decF g (elem g.w (s.cur.rV r.a.toNat) (32 * b + k)))
        ∃ codes ents mc me : Vec,
          (∀ b < nb, (∀ k < 32, elem p.2.2 codes (32 * (q0 + b) + k) = (block b).2.getD k 0 % 2 ^ p.2.2) ∧ elem 16 ents (q0 + b) = (block b).1 % 2 ^ 16) ∧
          (∀ i < 1024, mc.getLsbD i = decide (8 * c * q0 ≤ i ∧ i < 8 * c * (q0 + nb))) ∧
          (∀ i < 1024, me.getLsbD i = decide (16 * q0 ≤ i ∧ i < 16 * (q0 + nb))) ∧
          exec (p.1 o r) s = .next (((q.2.land .vflt (.v r.d.toNat) codes mc).land .vflt (.v r.b.toNat) ents me).arrival o.arr)) ∧
    (∀ (r : VDqnt) (g : Fmt) (m : Mode), s.anyGuard o = true → r.fmt.toNat ∈ [4, 5, 6] → r.fmt2.toNat ∈ [7, 8, 9] →
      floatOf r.fmt2.toNat = some g → modeOf r.rm = some m →
      let w := if r.fmt = 6 then 4 else 8
      let nb := 1024 / g.w / 32
      let q0 := r.part.toNat * nb
      q0 + nb ≤ 128 / (4 * w) →
      let q := s.drawFor m r.str (1024 / w) (s.guardMask o g.w (1024 / g.w) != 0)
      ∃ v : Vec, (∀ i < 1024 / g.w, elem g.w v i = roundF g m (r.sat == 1) (q.1 (q0 * 32 + i))
          (blockVal r.fmt.toNat (elem 16 (s.cur.rV r.b.toNat) (q0 + i / 32)) (elem w (s.cur.rV r.a.toNat) (q0 * 32 + i))) % 2 ^ g.w) ∧
        exec (.vdqnt o r) s = .next ((q.2.landRange .vflt o r.d g.w 0 (1024 / g.w) v).arrival o.arr))

/-- R266: the exact sum and product of finite values, and the values they have when an operand is not finite.
R267, R270: m × 2^e rounded to a multiple of 2^q, for q above e. Every mode answers one of the two neighbouring multiples, and an
exact multiple itself; each mode answers the neighbour that its rule names; SR compares the fraction's top 32 bits with the random value.
R271, R272, R370: vrnd writes 16 consecutive words of a stream and moves the stream's counter on by 16; without a true guard bit it
draws nothing. -/
def Obligations.ArithmeticResults : Prop :=
  (let val (n : Bool) (m : Nat) (e : Int) : Rat := (if n then -1 else 1) * (m : Rat) * (2 : Rat) ^ e
  (∀ (rdn a b : Bool) (ma mb : Nat) (ea eb : Int),
    ∃ c m e, addF rdn (.num a ma ea) (.num b mb eb) = .num c m e ∧ val c m e = val a ma ea + val b mb eb ∧
      (m = 0 → c = if a = b ∧ ma = 0 then a else rdn)) ∧
  (∀ (a b : Bool) (ma mb : Nat) (ea eb : Int),
    ∃ c m e, mulF (.num a ma ea) (.num b mb eb) = .num c m e ∧ val c m e = val a ma ea * val b mb eb ∧ c = (a != b)) ∧
  (∀ (rdn : Bool) (x : FVal), addF rdn .nan x = .nan ∧ addF rdn x .nan = .nan ∧ mulF .nan x = .nan ∧ mulF x .nan = .nan) ∧
  (∀ (rdn a : Bool), addF rdn (.inf a) (.inf (!a)) = .nan ∧ addF rdn (.inf a) (.inf a) = .inf a) ∧
  (∀ (a b : Bool) (e : Int), mulF (.inf a) (.num b 0 e) = .nan ∧ mulF (.num b 0 e) (.inf a) = .nan)) ∧
  (∀ (u : Nat) (neg : Bool) (m : Nat) (e : Int) (k : Nat), 0 < k →
    let at' (mode : Mode) : Nat := roundAt mode u neg m e false (e + k)
    let lo := m / 2 ^ k
    (∀ mode, at' mode * 2 ^ k < m + 2 ^ k ∧ m < (at' mode + 1) * 2 ^ k) ∧
    (∀ mode, m % 2 ^ k = 0 → at' mode * 2 ^ k = m) ∧
    (2 * (at' .rne * 2 ^ k) ≤ 2 * m + 2 ^ k ∧ 2 * m ≤ 2 * (at' .rne * 2 ^ k) + 2 ^ k) ∧
    (2 * (m % 2 ^ k) = 2 ^ k → at' .rne % 2 = 0) ∧
    (2 * (at' .rna * 2 ^ k) ≤ 2 * m + 2 ^ k ∧ 2 * m ≤ 2 * (at' .rna * 2 ^ k) + 2 ^ k) ∧
    (2 * (m % 2 ^ k) = 2 ^ k → at' .rna = lo + 1) ∧
    at' .rtz = lo ∧
    (m % 2 ^ k ≠ 0 → (at' .rdn = if neg then lo + 1 else lo) ∧ (at' .rup = if neg then lo else lo + 1)) ∧
    (m % 2 ^ k ≠ 0 → neg = false → (at' .sr = lo + 1 ↔ 2 ^ 32 ≤ m % 2 ^ k * 2 ^ 32 / 2 ^ k + u)) ∧
    (m % 2 ^ k ≠ 0 → neg = true → (at' .sr = lo ↔ 2 ^ 32 ≤ (2 ^ k - m % 2 ^ k) * 2 ^ 32 / 2 ^ k + u))) ∧
  (∀ (o : OpInfo) (r : VRndArgs) (s : State), s.arrivalOk o.arr →
    let ctr := (s.cur.arch.srctr.getD r.str.toNat 0).toNat
    let moved : State := s.modCur fun c => { c with arch := { c.arch with srctr := c.arch.srctr.put 0 r.str.toNat (BitVec.ofNat 64 (ctr + 16)) } }
    (s.guardMask o 64 16 ≠ 0 → ∃ v : Vec,
      (∀ j < 16, elem 64 v j = mix (mix s.cur.arch.seed.toNat (s.issue.core * 16 + r.str.toNat)) ((ctr + j) % 2 ^ 64) % 2 ^ 64) ∧
      exec (.vrnd o r) s = .next ((moved.landRange .vint o r.d 64 0 16 v).arrival o.arr)) ∧
    (s.guardMask o 64 16 = 0 → exec (.vrnd o r) s = .next (s.arrival o.arr)))

/-- R322, R406: xfr copies between register files. Two narrow files (S, X, P) copy 64 bits; one wide file (V, K) gives or takes element E
of 64 bits and keeps the others; two wide files copy the whole register. A copy into p0 is discarded, and a copy out of a poisoned
piece of K does not complete. That a copy of a whole register into k leaves its pieces clean is the model's reading (log 17). -/
def Obligations.RegisterCopyResults : Prop :=
  ∀ (o : OpInfo) (r : Xfer) (s : State), s.guard0 o = true → s.arrivalOk o.arr →
    let c := s.cur
    let word : RFile → Nat → Word := fun f n => match f with | .s => c.rS n | .x => c.rX n | .p => c.rP n | _ => 0
    let vec : RFile → Nat → Vec := fun f n => match f with | .v => c.rV n | .k => c.rK n | _ => 0
    let put (x : State) : Host.Outcome State Fault Refusal := .next (x.arrival o.arr)
    (r.src ∈ [RFile.s, .x, .p] → r.dst ∈ [RFile.s, .x] →
      exec (.xfr o r) s = put (s.land .xfer (fileDest r.dst r.d.toNat) ((word r.src r.a.toNat).setWidth 1024) full64)) ∧
    (r.src ∈ [RFile.s, .x, .p] → r.dst = .p →
      exec (.xfr o r) s = put (if r.d = 0 then s else s.land .xfer (.p r.d.toNat) ((word r.src r.a.toNat).setWidth 1024) full64)) ∧
    (r.src ∈ [RFile.v, .k] → (r.src = .k → (c.arch.kp.getD r.a.toNat 0).getLsbD (r.e.toNat / 4) = false) → r.dst ∈ [RFile.s, .x, .p] →
      exec (.xfr o r) s = put (if r.dst = .p ∧ r.d = 0 then s
        else s.land .xfer (fileDest r.dst r.d.toNat) (BitVec.ofNat 1024 (elem 64 (vec r.src r.a.toNat) r.e.toNat)) full64)) ∧
    (r.src ∈ [RFile.s, .x, .p] → r.dst ∈ [RFile.v, .k] →
      ∃ v m : Vec, elem 64 v r.e.toNat = (word r.src r.a.toNat).toNat ∧ (∀ i < 1024, m.getLsbD i = decide (i / 64 = r.e.toNat)) ∧
        exec (.xfr o r) s = put (s.land .xfer (fileDest r.dst r.d.toNat) v m)) ∧
    (r.src ∈ [RFile.v, .k] → (r.src = .k → c.arch.kp.getD r.a.toNat 0 = 0) → r.dst = .v →
      exec (.xfr o r) s = put (s.land .xfer (.v r.d.toNat) (vec r.src r.a.toNat) fullVec)) ∧
    (r.src ∈ [RFile.v, .k] → (r.src = .k → c.arch.kp.getD r.a.toNat 0 = 0) → r.dst = .k →
      exec (.xfr o r) s = put ((s.land .xfer (.k r.d.toNat) (vec r.src r.a.toNat) fullVec).land .xfer (.kp r.d.toNat) 0 15))

/-- R323, R324: a taken transfer gives the bundle its target; displacements count words from the bundle's header; call lands the address
after the bundle in the link register (s23, e7 on the service sequencer); a register target is word-aligned.
R325: a loop of n > 0 iterations at a free level whose body stands inside the active bodies of lower levels sets its level up; with
n = 0 the body is passed over, to the bundle after its last one. -/
def Obligations.TransferAndLoopResults : Prop :=
  (∀ (o : OpInfo) (s : State), s.guard0 o = true → s.arrivalOk o.arr →
    let link : BitVec 5 := if s.issue.svc then 7 else 23
    let go (x : State) (t : Word) (leaves : Bool) : Host.Outcome State Fault Refusal :=
      .next (({ x with issue := { x.issue with target := some t, leaves } } : State).arrival o.arr)
    (∀ r : Disp, exec (.br o r) s = go s (s.issue.haddr + 4 * BitVec.ofInt 64 r.disp.toInt) true) ∧
    (∀ r : Disp, exec (.call o r) s = go (s.landG .s link (s.issue.haddr + BitVec.ofNat 64 (4 * s.issue.len)))
      (s.issue.haddr + 4 * BitVec.ofInt 64 r.disp.toInt) false) ∧
    (∀ r : BrReg, exec (.brz o r) s =
      if s.gpr .s r.a = 0 then go s (s.issue.haddr + 4 * BitVec.ofInt 64 r.disp.toInt) true else .next (s.arrival o.arr)) ∧
    (∀ r : BrReg, exec (.brnz o r) s =
      if s.gpr .s r.a = 0 then .next (s.arrival o.arr) else go s (s.issue.haddr + 4 * BitVec.ofInt 64 r.disp.toInt) true) ∧
    ((s.gpr .s link).toNat % 4 = 0 → exec (.ret o) s = go s (s.gpr .s link) false) ∧
    (∀ r : JrArgs, (s.gpr .s r.a).toNat % 4 = 0 → exec (.jr o r) s = go s (s.gpr .s r.a) true) ∧
    (∀ r : JrArgs, (s.gpr .s r.a).toNat % 4 ≠ 0 →
      exec (.jr o r) s = .next (s.takeTrap { cause := 0x082#10, faddr := s.gpr .s r.a, slot := BitVec.ofNat 4 (slotNum o.slot) }))) ∧
  (∀ (o : OpInfo) (s : State) (lv n fin : Nat) (ev : Instr), s.guard0 o = true → s.arrivalOk o.arr →
    ((∃ r : LoopReg, ev = .loop o r ∧ lv = r.lv.toNat ∧ n = (s.gpr .s r.a).toNat ∧ fin = r.fin.toNat) ∨
      (∃ r : LoopImm, ev = .loopi o r ∧ lv = r.lv.toNat ∧ n = r.n.toNat ∧ fin = r.fin.toNat)) →
    let body := s.issue.haddr + BitVec.ofNat 64 (4 * s.issue.len)
    let last := s.issue.haddr + BitVec.ofNat 64 (4 * fin)
    let level (k : Nat) : LoopLv := s.cur.arch.loops.getD k {}
    lv ≤ 5 → body.toNat ≤ last.toNat → n < 2 ^ 32 →
    (∀ k ≤ 5, (level k).act = true → k ≤ lv ∧ (k < lv →
      (level k).body.toNat ≤ body.toNat ∧ body.toNat ≤ (level k).last.toNat ∧ (level k).body.toNat ≤ last.toNat ∧ last.toNat ≤ (level k).last.toNat)) →
    (0 < n → exec ev s = .next ((s.modCur fun c =>
      { c with arch := { c.arch with loops := c.arch.loops.put {} lv ⟨body, last, BitVec.ofNat 32 n, true⟩ } }).arrival o.arr)) ∧
    (n = 0 → ∀ (h : Word32) (t : State), s.fetchWord s.who last.toNat = (.ok h, t) → t.arrivalOk o.arr →
      exec ev s = .next ((((t.modCur fun c => { c with arch := { c.arch with loops := c.arch.loops.put {} lv { c.arch.loops.getD lv {} with act := false } } }).jump
        (last + BitVec.ofNat 64 (4 * (h.toNat / 128 % 32))) false)).arrival o.arr)))

/-- R328: dfpk puts the low bits of a register into a field of another; dfex takes a field out, zero- or sign-extended. The field stands
in the instruction or in a register. -/
def Obligations.FieldResults : Prop :=
  ∀ (o : OpInfo) (s : State) (r : DescField) (pos wid : Nat), s.guard0 o = true → s.arrivalOk o.arr →
    ((∃ p w, r.f = .imm p w ∧ pos = p.toNat ∧ wid = w.toNat) ∨
      (∃ b, r.f = .reg b ∧ pos = (s.gpr .s b).toNat % 64 ∧ wid = (s.gpr .s b).toNat / 64 % 128)) →
    0 < wid → pos + wid ≤ 64 →
    let a := s.gpr .s r.a
    (∃ v : Word, (∀ i < 64, v.getLsbD i = if pos ≤ i ∧ i < pos + wid then a.getLsbD (i - pos) else (s.gpr .s r.d).getLsbD i) ∧
      exec (.dfpk o r) s = .next ((s.landG .s r.d v).arrival o.arr)) ∧
    (∃ v : Word, (∀ i < 64, v.getLsbD i = (decide (i < wid) && a.getLsbD (pos + i))) ∧
      exec (.dfex o r) s = .next ((s.landG .s r.d v).arrival o.arr)) ∧
    (∃ v : Word, (∀ i < 64, v.getLsbD i = a.getLsbD (pos + min i (wid - 1))) ∧
      exec (.dfexS o r) s = .next ((s.landG .s r.d v).arrival o.arr))

/-- R246, R252, R327, R371: a legal configuration lands in TCFG, and makes both side-car roles of the tile invalid as it lands; it reads
back with the roles in bits 17 and 18, of which one that is being computed reads 0. A row of a tile or accumulator is read as 128-byte pieces, zero past the row's bytes, and written to the bytes
of active elements that the row has. -/
def Obligations.TileRegisterResults : Prop :=
  ∀ (o : OpInfo) (s : State),
    (∀ (r : MtcfgArgs) (k : Core), s.guard0 o = true → s.arrivalOk o.arr →
      let v := (s.gpr .s r.a).toNat
      v % 16 ≠ 3 → v % 16 < 11 → (v / 16 % 64 + 1) * (v / 1024 % 64 + 1) * fmtWidth (v % 16) ≤ 131072 → (v % 16 = 10 → v / 1024 % 64 < 32) →
      s.cur.tileBlocked s.issue.since r.t.toNat true = false → s.cur.cowTile r.t.toNat = .ok k →
      exec (.mtcfg o r) s = .next (((s.setCore s.issue.core k).land .salu (.tcfg r.t.toNat) (BitVec.ofNat 1024 (v % 2 ^ 17)) (BitVec.ofNat 1024 (2 ^ 17 - 1))).arrival o.arr)) ∧
    (∀ (c : Core) (t : Nat) (v m : Vec), let k := c.landOne ⟨0, .tcfg t, v, m⟩
      k.tcfg t = v.setWidth 32 ∧ (k.tile t).a.valid = false ∧ (k.tile t).b.valid = false ∧ (k.tile t).bytes = (c.tile t).bytes) ∧
    (∀ r : MftcfgArgs, s.guard0 o = true → s.arrivalOk o.arr →
      exec (.mftcfg o r) s = .next ((s.landG o.slot r.d (BitVec.ofNat 64 ((s.cur.tcfg r.t.toNat).toNat +
        (if (s.cur.tile r.t.toNat).a.valid = true ∧ s.cur.computing r.t.toNat false = false then 2 ^ 17 else 0) +
        (if (s.cur.tile r.t.toNat).b.valid = true ∧ s.cur.computing r.t.toNat true = false then 2 ^ 18 else 0)))).arrival o.arr)) ∧
    (∀ (ev : Instr) (d t : BitVec 5) (row part : Nat) (w : BitVec 2), s.anyGuard o = true → s.arrivalOk o.arr →
      ((∃ r : TileRead, ev = .vtrd o r ∧ d = r.d ∧ t = r.t ∧ row = r.k.toNat ∧ part = r.part.toNat ∧ w = r.w) ∨
        (∃ r : TileReadReg, ev = .vtrdReg o r ∧ d = r.d ∧ t = r.t ∧ row = elem 64 (s.cur.rV r.b.toNat) 0 % 64 ∧ part = r.part.toNat ∧ w = r.w)) →
      let rows := (s.cur.rowShape t.toNat).1
      let rb := (s.cur.rowShape t.toNat).2
      let bytes : TileBytes := if t.toNat < 16 then (s.cur.tile t.toNat).bytes else (s.cur.acc (t.toNat - 16)).bytes
      s.cur.tileBlocked s.issue.since t.toNat false = false → row < rows → part * 128 < rb →
      (t.toNat < 16 → ∀ b < min 128 (rb - part * 128), (s.cur.tile t.toNat).poison.getLsbD ((row * rb + part * 128 + b) / 32) = false) →
      ∃ v : Vec, (∀ j < 128, elem 8 v j = if part * 128 + j < rb then bytes.toNat / 2 ^ (8 * (row * rb + part * 128 + j)) % 256 else 0) ∧
        exec ev s = .next ((s.landRange .vint o d (8 * 2 ^ w.toNat) 0 (1024 / (8 * 2 ^ w.toNat)) v).arrival o.arr)) ∧
    (∀ (ev : Instr) (d : BitVec 5) (t row part : Nat) (w : BitVec 2) (k : Core), s.anyGuard o = true → s.arrivalOk o.arr →
      ((∃ r : TileRow, ev = .vtwr o r ∧ d = r.d ∧ t = r.t.toNat ∧ row = r.k.toNat ∧ part = r.part.toNat ∧ w = r.w) ∨
        (∃ r : TileRowReg, ev = .vtwrReg o r ∧ d = r.d ∧ t = r.t.toNat ∧ row = elem 64 (s.cur.rV r.b.toNat) 0 % 64 ∧ part = r.part.toNat ∧ w = r.w)) →
      let rows := (s.cur.rowShape t).1
      let rb := (s.cur.rowShape t).2
      s.cur.tileBlocked s.issue.since t true = false → row < rows → part * 128 < rb → s.cur.cowTile t = .ok k →
      ∃ m : Vec, (∀ i < 1024, m.getLsbD i = (decide (part * 128 + i / 8 < rb) && (s.guardMask o (8 * 2 ^ w.toNat) (1024 / (8 * 2 ^ w.toNat))).getLsbD i)) ∧
        exec ev s = .next (if m = 0 then s.arrival o.arr else ((s.setCore s.issue.core k).land .vint (.tile t (row * rb + part * 128)) (s.cur.rV d.toNat) m).arrival o.arr))

/-- R375, R376, R379: scratchpad loads land the bytes at the address after the scratchpad latency; scratchpad stores change the named
bytes alone, with an undo entry, and reach the next bundle, at once on the service sequencer. Alignment, range and bank mask are the
conditions; where a stash window covers the bytes, a load fills its sectors first (stashTouch) and a store marks them written as it lands. -/
def Obligations.ScratchpadResults : Prop :=
  ∀ (o : OpInfo) (s : State),
    let allowed (sa : Nat) : Prop := sa < 2 ^ 20 ∧ (256 ≤ s.issue.core ∨ s.cur.kernel.bmask.getLsbD (sa / 65536) = true)
    (∀ sa n, (∀ k ∈ sectorsOf sa n, s.cur.winOfSp (k * 32) = none ∧ errIn s.cur.spErr k = false ∧ errIn s.cur.spCor k = false) →
      s.stashTouch sa n = .ok (s.touch [.scan sa n])) ∧
    (∀ (c : Core) (k : Nat) (v m : Vec), (c.winOfSp (k * 32)).isSome = true → m.getLsbD 257 = true → ∀ b < 32, elem 8 m b ≠ 0 →
      (((c.landOne ⟨0, .sp k, v, m⟩).stash.get? k).getD {}).mask.getLsbD b = true) ∧
    (∀ (r : SpLoad) (t : State), s.guard0 o = true →
      let sa := (s.scalarAddr r.am r.z r.base r.ix r.disp).toNat
      let n := 2 ^ r.z.toNat
      sa % n = 0 → allowed sa → s.stashTouch (s.cur.spVis sa) n = .ok t → t.cur.spPoison.has (t.cur.spVis sa / 32) = false → t.arrivalOk o.arr →
      ∃ x : Nat, x < 2 ^ (8 * n) ∧ (∀ i < n, x / 2 ^ (8 * i) % 256 = ((t.cur.sp.get? (t.cur.spVis sa + i)).getD 0).toNat) ∧
        let v : Word := if r.sx = 1 then BitVec.ofInt 64 (sgn (8 * n) x) else BitVec.ofNat 64 x
        exec (.ldsp o r) s = .next ((if t.issue.svc then t.landG .s r.d v else t.land .sload (.s r.d.toNat) (v.setWidth 1024) full64).arrival o.arr)) ∧
    (∀ (r : SpStore) (c : Core), s.guard0 o = true →
      let sa := (s.scalarAddr r.am r.z r.base r.ix r.disp).toNat
      let n := 2 ^ r.z.toNat
      let a := s.cur.spVis sa
      sa % n = 0 → allowed sa →
      ∃ v m : Vec, (∀ b < 32, elem 8 m b = if a % 32 ≤ b ∧ b < a % 32 + n then 255 else 0) ∧
        (∀ i, 256 ≤ i → m.getLsbD i = (decide (i = 257) && (s.cur.winOfSp (a / 32 * 32)).isSome)) ∧
        (∀ b < n, elem 8 v (a % 32 + b) = (s.gpr .s r.d).toNat / 2 ^ (8 * b) % 256) ∧
        (s.issue.svc = false → s.cur.undoFor (a / 32) = .ok c → (s.setCore s.issue.core c).arrivalOk o.arr →
          exec (.stsp o r) s = .next ((s.setCore s.issue.core (c.landIn 1 (.sp (a / 32)) v m)).arrival o.arr)) ∧
        (s.issue.svc = true → s.arrivalOk o.arr → exec (.stsp o r) s =
          .next ((s.setCore s.issue.core (s.cur.landOne ⟨0, .sp (a / 32), v, m⟩)).arrival o.arr))) ∧
    (∀ (r : VSp) (t : State),
      let n := 32 * 2 ^ r.sz.toNat
      let mask := s.activeBytes o (8 * 2 ^ r.g.toNat) n
      let sa := (s.vectorAddr r.base r.ix r.idx r.disp).toNat
      let ps := ((List.range (n / 32)).filter fun i => bits mask (32 * i) 32 != 0).map fun i => (i, s.cur.spVis ((sa + 32 * i) % 2 ^ 64))
      r.sz.toNat < 3 → mask ≠ 0 → sa % 32 = 0 → (∀ i < n / 32, bits mask (32 * i) 32 ≠ 0 → allowed ((sa + 32 * i) % 2 ^ 64)) → t.arrivalOk o.arr →
      (ps.foldl (fun (q : Res) p => q.bind fun x => x.stashTouch p.2 32) (.ok s) = .ok t → (∀ p ∈ ps, t.cur.spPoison.has (p.2 / 32) = false) →
        ∃ v m : Vec, (∀ i < 1024, m.getLsbD i = (decide (i / 8 < n) && mask.testBit (i / 8))) ∧
          (∀ b < n, mask.testBit b = true → elem 8 v b = ((t.cur.sp.get? (s.cur.spVis ((sa + 32 * (b / 32)) % 2 ^ 64) + b % 32)).getD 0).toNat) ∧
          exec (.vldsp o r) s = .next ((t.land .sload (.v r.d.toNat) v m).arrival o.arr)) ∧
      (ps.foldl (fun (q : Res) p => q.bind fun x =>
          x.spStore (p.2 / 32) (BitVec.ofNat 256 ((s.cur.rV r.d.toNat).toNat / 2 ^ (256 * p.1))) (bits mask (32 * p.1) 32) false) (.ok s) = .ok t →
        exec (.vstsp o r) s = .next (t.arrival o.arr)))

/-- R172, R374, R377, R378, R380: a global load whose pages pass the checks counts on its token and waits with its pieces; a global store
gives its bytes piece by piece to the release buffer (or to the stash window that covers them); on the service sequencer both perform
at issue, the load seeing the stores that its core has released and waiting for a released VAMO on its bytes (R192). A vector access without an active element does nothing. -/
def Obligations.GlobalAccessResults : Prop :=
  ∀ (o : OpInfo) (s : State), s.arrivalOk o.arr →
    let queued (x : State) (dst : LoadDst) (ps : List Piece) (tok cls u : Nat) : State :=
      ({ x with seq := x.seq + 1 } : State).modCur fun c => { c.arrivalDue o.arr x.seq with loads := c.loads ++
        [{ seq := x.seq, tok, dst, pieces := ps, cls, u, relN := x.issue.relN, arr := o.arr, site := (x.issue.haddr, x.cur.seg.count) }] }
    (∀ (r : GlLoad) (ps : List Piece) (t t1 t2 : State), s.guard0 o = true →
      s.xlateR .load (s.scalarAddr r.am r.z r.base r.ix r.disp).toNat (2 ^ r.z.toNat) = .ok (ps, t) →
      (s.issue.svc = false → t.issue.svc = false → t.tokAdd r.tok.toNat 1 = .ok t1 → t1.stashFor ps = .ok t2 →
        exec (.ld o r) s = .next (queued t2 (.s r.d.toNat r.z.toNat (r.sx == 1)) ps r.tok.toNat r.cls.toNat r.u.toNat)) ∧
      (t.issue.svc = true → t.meetsFlight t.issue.core false ps = false → t.stashFor ps = .ok t1 →
        ∀ l, t1.readPieces t1.who (t1.flyingOf t1.issue.core) r.u.toNat true ps = ((0, l), t2) →
        exec (.ld o r) s = .next ((t2.touch (ps.map fun p => .piece p r.u.toNat true)).landG .s r.d (loadValue (r.sx == 1) (2 ^ r.z.toNat) (bytesOf (2 ^ r.z.toNat) (placed l)))))) ∧
    (∀ (r : SpStore) (ps : List Piece) (t t1 : State), s.guard0 o = true →
      s.xlateR .store (s.scalarAddr r.am r.z r.base r.ix r.disp).toNat (2 ^ r.z.toNat) = .ok (ps, t) →
      t.storePieces ps (t.gpr .s r.d).toNat (2 ^ 2 ^ r.z.toNat - 1) r.cls.toNat = .ok t1 → t1.arrivalOk o.arr →
      exec (.st o r) s = .next (t1.arrival o.arr)) ∧
    (∀ (r : VLoad), r.sz.toNat < 3 →
      let n := 32 * 2 ^ r.sz.toNat
      let mask := s.activeBytes o (8 * 2 ^ r.g.toNat) n
      (mask = 0 → exec (.vld o r) s = .next (s.arrival o.arr)) ∧
      (∀ (ps : List Piece) (t t1 t2 : State), mask ≠ 0 →
        s.xlateTouched .load (s.vectorAddr r.base r.ix r.idx r.disp).toNat n mask = .ok (ps, t) →
        t.tokAdd r.tok.toNat 1 = .ok t1 → t1.stashFor ps = .ok t2 →
        ∃ m : Vec, (∀ i < 1024, m.getLsbD i = (decide (i / 8 < n) && mask.testBit (i / 8))) ∧
          exec (.vld o r) s = .next (queued t2 (.v r.d.toNat m) ps r.tok.toNat r.cls.toNat r.u.toNat))) ∧
    (∀ (r : VSp), r.sz.toNat < 3 →
      let n := 32 * 2 ^ r.sz.toNat
      let mask := s.activeBytes o (8 * 2 ^ r.g.toNat) n
      (mask = 0 → exec (.vst o r) s = .next (s.arrival o.arr)) ∧
      (∀ (ps : List Piece) (t t1 : State), mask ≠ 0 →
        s.xlateTouched .store (s.vectorAddr r.base r.ix r.idx r.disp).toNat n mask = .ok (ps, t) →
        t.storePieces ps (t.cur.rV r.d.toNat).toNat mask r.cls.toNat = .ok t1 → t1.arrivalOk o.arr →
        exec (.vst o r) s = .next (t1.arrival o.arr)))

/-- R153 to R158, R382, R383: a returning atomic reads the old value at its home, forms the new one, writes it when the operation
writes, logs the result for a replay and leaves it to be delivered; a replay takes the logged result and touches no memory; the service
sequencer has its result at issue, whatever the main sequencer has outstanding. -/
def Obligations.AtomicResults : Prop :=
  ∀ (o : OpInfo) (s : State) (ev : Instr) (d base ix : BitVec 5) (disp : Word) (aop w cls tok : Nat) (new : Nat → Nat → Nat → Option Nat) (res : Nat → Nat → Nat),
    s.guard0 o = true → s.arrivalOk o.arr →
    ((∃ r : Atomic, ∃ p ∈ ([
        (.atomAdd, 0, fun w a _ old => some ((old + a) % 2 ^ w)),
        (.atomAnd, 1, fun _ a _ old => some (old &&& a)),
        (.atomOr, 2, fun _ a _ old => some (old ||| a)),
        (.atomXor, 3, fun _ a _ old => some (old ^^^ a)),
        (.atomSmin, 4, fun w a _ old => some (if sgn w old ≤ sgn w a then old else a)),
        (.atomSmax, 5, fun w a _ old => some (if sgn w old ≤ sgn w a then a else old)),
        (.atomUmin, 6, fun _ a _ old => some (Min.min old a)),
        (.atomUmax, 7, fun _ a _ old => some (Max.max old a)),
        (.atomSwap, 8, fun _ a _ _ => some a),
        (.atomCas, 9, fun _ a b old => if old = a then some b else none)]
          : List ((OpInfo → Atomic → Instr) × Nat × (Nat → Nat → Nat → Nat → Option Nat))),
        ev = p.1 o r ∧ d = r.d ∧ base = r.base ∧ ix = r.a ∧ disp = BitVec.ofInt 64 r.disp.toInt ∧ aop = p.2.1 ∧ w = (if r.w = 1 then 64 else 32) ∧
        cls = r.cls.toNat ∧ tok = r.tok.toNat ∧ new = (fun a b old => p.2.2 w a b old) ∧ res = (fun _ old => old)) ∨
      (∃ r : BitAtomic, ev = .atomBfi o r ∧ d = r.d ∧ base = r.base ∧ ix = r.a ∧ disp = BitVec.ofInt 64 r.disp.toInt ∧ aop = 10 ∧ w = 64 ∧
        cls = r.cls.toNat ∧ tok = r.tok.toNat ∧ new = (fun a b old => some ((old &&& (2 ^ 64 - 1 - a)) ||| (b &&& a))) ∧ res = (fun _ old => old)) ∨
      (∃ r : BitAtomic, ev = .atomFfcs o r ∧ d = r.d ∧ base = r.base ∧ ix = r.a ∧ disp = BitVec.ofInt 64 r.disp.toInt ∧ aop = 11 ∧ w = 64 ∧
        cls = r.cls.toNat ∧ tok = r.tok.toNat ∧
        (∀ a b old, (∀ i < 64, a.testBit i = true → old.testBit i = true) → new a b old = none ∧ res a old = 64) ∧
        (∀ a b old i, i < 64 → a.testBit i = true → old.testBit i = false → (∀ k < i, a.testBit k = true → old.testBit k = true) →
          new a b old = some (old ||| 2 ^ i) ∧ res a old = i)) ∨
      (∃ r : PlsetArgs, ev = .atomPlset o r ∧ d = r.d ∧ base = r.base ∧ ix = r.a ∧ disp = BitVec.ofInt 64 r.disp.toInt ∧ aop = 12 ∧ w = 64 ∧
        cls = r.cls.toNat ∧ tok = r.tok.toNat ∧ res = (fun _ old => old) ∧
        new = (fun a _ old => if ((List.range 64).filter fun i => (old ||| a).testBit i).length ≤ Min.min r.lim.toNat 64 then some (old ||| a) else none))) →
    (10 ≤ aop → s.who.ctx < 64 → (s.ioGet (0xA800 + 8 * s.who.ctx)).getLsbD 0 = true) →
    let va := (s.gpr .s base + disp).toNat
    let a := (s.gpr .s ix).toNat % 2 ^ w
    let b := (s.gpr .s d).toNat % 2 ^ w
    let g := agentOf s.issue.core s.who.ctx
    va % (w / 8) = 0 → ∀ (p : Piece) (ps : List Piece) (t : State), s.xlateR .atomic va (w / 8) = .ok (p :: ps, t) →
      -- the home holds a host line exclusively; the write, where the operation makes one, meets no isolation; no read finds a line lost,
      -- and no access to host memory ends late
      let answered (x y z : State) : Prop :=
        x.hostLate g.id p.pa = false ∧ (tierOf p.pa = .tier2 → y.iso = false) ∧ z.lostSince x x.who.ctx (· == p.pa / 64) = false
      let written (x : State) (old : Nat) (y : State) : Prop :=
        let h := x.hostTouch p.pa (w / 8) true
        match new a b old with
          | some n => h.performWrite g p.pa (2 ^ (w / 8) - 1) (bytesOf (w / 8) n) p.key = (0, y)
          | none => y = h
      (t.issue.svc = false → t.cur.grp.n = 0 → t.cur.readReady t.seq cls (p :: ps) = true) →
      (t.issue.svc = true ∨ t.cur.grp.n = 0 → t.meetsFlight t.issue.core true (p :: ps) = false) →
      (t.issue.svc = false → ∀ t1, t.tokAdd tok 1 = .ok t1 →
        let t2 : State := { t1 with seq := t1.seq + 1 }
        let site (e : Replay) (x : State) (v : Word) : State := x.modCur fun c =>
          let c := c.arrivalDue o.arr t1.seq
          { c with seg := { c.seg with log := (if t1.cur.seg.logPos < t1.cur.seg.log.length then c.seg.log else c.seg.log ++ [e]), logPos := c.seg.logPos + 1 },
                   atoms := c.atoms ++ [{ seq := t1.seq, tok, dst := d.toNat, res := v, cause := 0, relN := x.issue.relN, arr := o.arr, pa := p.pa }] }
        (∀ e, t1.cur.seg.log[t1.cur.seg.logPos]? = some e → e.addr.toNat = va → e.w64 = decide (w = 64) → e.aop = aop →
          exec ev s = .next (site e t2 e.res)) ∧
        (t1.cur.seg.log[t1.cur.seg.logPos]? = none → t1.cur.seg.log.length < 8 →
          ∀ (bs : List Byte) (t3 : State), t2.fetchData { g with id := 1000 } p.pa (w / 8) p.key 2 = ((0, bs), t3) →
            let old := natOf bs
            let v := BitVec.ofNat 64 (res a old)
            ∀ t4, written t3 old t4 → answered t2 t3 t4 →
              exec ev s = .next (site ⟨BitVec.ofNat 64 va, decide (w = 64), aop, v⟩ (t4.touch [.home p.pa (w / 8) p.key]) v))) ∧
      (t.issue.svc = true → ∀ (bs : List Byte) (t3 : State), t.fetchData { g with id := 1000 } p.pa (w / 8) p.key 2 = ((0, bs), t3) →
        let old := natOf bs
        ∀ t4, written t3 old t4 → answered t t3 t4 →
          exec ev s = .next ((t4.touch [.home p.pa (w / 8) p.key]).landG .s d (BitVec.ofNat 64 (res a old))))

/-- R172, R177, R380: a piece of a store on a main sequencer, outside the stash windows and with its link up, adds one entry to the
release buffer: the aligned 32 bytes of the piece with the value and the byte mask; memory keeps its bytes until the commit.
R160, R384: a vector atomic with an active element, on an aligned sector whose link is up, is withheld as one entry with its
operator, element width, operands and active elements.
R161, R165, R385, R386: a pair that passes the checks of its region is withheld; a vector update withholds one pair for every element
whose guard is true, in element order, or none. -/
def Obligations.MemoryUpdatesAreWithheld : Prop :=
  (∀ (s : State) (p : Piece) (val mask cls : Nat), s.issue.svc = false → s.cur.winOfVa p.va = none → s.linkCause p.pa = 0 →
    s.cur.relCount < 512 → 0 < p.n → p.pa % 32 + p.n ≤ 32 → ∀ t, s.storePieces [p] val mask cls = .ok t →
    t.mem = s.mem ∧ t.flight = s.flight ∧ t.cur.arch = s.cur.arch ∧
    ∃ v m, t.cur.seg.rel = s.cur.seg.rel ++ [.store (p.pa / 32 * 32) p.key cls v m] ∧
      (∀ i < 32, m.getLsbD i = (decide (p.pa % 32 ≤ i ∧ i < p.pa % 32 + p.n) && mask.testBit (p.off + (i - p.pa % 32)))) ∧
      (∀ i < p.n, v.toNat / 2 ^ (8 * (p.pa % 32 + i)) % 256 = val / 2 ^ (8 * (p.off + i)) % 256)) ∧
  (∀ p ∈ ([(.vamoAdd, 0), (.vamoAnd, 1), (.vamoOr, 2), (.vamoXor, 3), (.vamoSmin, 4), (.vamoSmax, 5), (.vamoUmin, 6), (.vamoUmax, 7), (.vamoSwap, 8)]
      : List ((OpInfo → VAtomic → Instr) × Nat)),
    ∀ (o : OpInfo) (r : VAtomic) (s t : State) (q : Piece) (qs : List Piece) (m : BitVec 32),
      let e := 8 * 2 ^ r.w.toNat
      let va := (v64 (s.cur.rV r.base.toNat) + BitVec.ofInt 64 r.disp.toInt).toNat
      (∀ j < 32, m.getLsbD j = (decide (j < 256 / e) && s.guardE o e j)) → m ≠ 0 →
      va % 32 = 0 → s.xlateR .atomic va 32 = .ok (q :: qs, t) → t.linkCause q.pa = 0 → t.cur.relCount < 512 →
      let t' : State := t.setCore t.issue.core { t.cur with seg := { t.cur.seg with rel :=
        t.cur.seg.rel ++ [.vamo q.pa q.key r.cls.toNat p.2 e ((t.cur.rV r.d.toNat).setWidth 256) m] } }
      t'.arrivalOk o.arr → exec (p.1 o r) s = .next (t'.arrival o.arr)) ∧
  (∀ (o : OpInfo) (s : State),
    let pairOf (at' : Nat × Nat) (rgn cls : Nat) (v : Word) (x : State) : State :=
      x.setCore x.issue.core { x.cur with seg := { x.cur.seg with rel := x.cur.seg.rel ++ [.pair at'.1 at'.2 rgn cls v] } }
    (∀ (r : UpdArgs) (t : State) (q : Piece) (qs : List Piece), s.guard0 o = true →
      let g := r.rgn.toNat
      let w := opWidth (s.rgnOp g)
      let va := (s.gpr .s r.base + (if r.idx = 1 then s.gpr .s r.ix else 0) + BitVec.ofInt 64 r.disp.toInt).toNat
      va % w = 0 → s.rgnV g = true → s.rgnCtx g = s.who.ctx → s.rgnBase g ≤ va → va < s.rgnBase g + 64 * s.rgnLines g →
      s.xlateR .store va w = .ok (q :: qs, t) → l2Cached q.pa = true → t.linkCause q.pa = 0 → t.cur.relCount < 512 →
      let t' := pairOf (q.pa, q.key) g r.cls.toNat (t.gpr .s r.d) t
      t'.arrivalOk o.arr → exec (.upd o r) s = .next (t'.arrival o.arr)) ∧
    (∀ (r : VUpdArgs) (t : State) (pas : List (Nat × Nat × Nat)), s.anyGuard o = true →
      let g := r.rgn.toNat
      let w := opWidth (s.rgnOp g)
      let js := (List.range (128 / w)).filter fun j => s.guardE o (8 * w) j
      s.rgnV g = true →
      js.foldl (fun (q : Except TrapInfo (List (Nat × Nat × Nat) × State)) j => q.bind fun (l, x) =>
        (x.pairCheck g (x.rgnBase g + elem 32 (s.cur.rV r.base.toNat) j * w)).map fun (pa, x) => (l ++ [(j, pa)], x)) (.ok ([], s)) = .ok (pas, t) →
      t.cur.relCount + pas.length ≤ 512 →
      let t' := pas.foldl (fun x p => pairOf p.2 g r.cls.toNat (BitVec.ofNat 64 (elem (8 * w) (s.cur.rV r.d.toNat) p.1)) x) t
      t'.arrivalOk o.arr → exec (.vupd o r) s = .next (t'.arrival o.arr)))

/-- R218, R336, R337, R387: a push of addresses enters them in the address queue when they are aligned and translated and the queues have
room; a pop takes entries that hold their data from the data queue, in order, into consecutive elements. -/
def Obligations.QueueResults : Prop :=
  ∀ (o : OpInfo) (s : State), s.guard0 o = true → s.arrivalOk o.arr →
    (∀ (ev : Instr) (addrs : List Nat) (z tok cls u : Nat),
      ((∃ r : AqPush, ev = .aqp o r ∧ addrs = [(s.cur.rX r.base.toNat + BitVec.ofInt 64 r.disp.toInt).toNat] ∧
          z = r.z.toNat ∧ tok = r.tok.toNat ∧ cls = r.cls.toNat ∧ u = r.u.toNat) ∨
        (∃ r : AqPushIdx, ev = .aqpIdx o r ∧
          addrs = [(s.cur.rX r.base.toNat + s.cur.rX r.ix.toNat * BitVec.ofNat 64 (2 ^ r.z.toNat) + BitVec.ofInt 64 r.disp.toInt).toNat] ∧
          z = r.z.toNat ∧ tok = r.tok.toNat ∧ cls = r.cls.toNat ∧ u = r.u.toNat) ∨
        (∃ r : AqRun, ev = .aqps o r ∧ (s.cur.rX r.d.toNat).toNat ≤ 64 ∧
          addrs = (List.range (s.cur.rX r.d.toNat).toNat).map (fun i =>
            (s.cur.rX r.base.toNat + BitVec.ofInt 64 r.disp.toInt + BitVec.ofNat 64 i * s.cur.rX r.ix.toNat).toNat) ∧
          z = r.z.toNat ∧ tok = r.tok.toNat ∧ cls = r.cls.toNat ∧ u = r.u.toNat)) →
      ∀ (es : List (List Piece)) (t t1 t2 : State),
        addrs.foldl (fun (q : Except TrapInfo (List (List Piece) × State)) a => q.bind fun (l, x) => do
          x.keep (raiseAt (a % 2 ^ z != 0) 0x082#10 a)
          let (ps, x) ← x.xlateR .load a (2 ^ z)
          .ok (l ++ [ps], x)) (.ok ([], s)) = .ok (es, t) →
        t.cur.seg.q + es.length ≤ 64 → t.tokAdd tok es.length = .ok t1 →
        (es = [] → t1.arrivalOk o.arr → exec ev s = .next (t1.arrival o.arr)) ∧
        (es ≠ [] → es.foldl (fun (q : Res) ps => q.bind fun x => x.stashFor ps) (.ok t1) = .ok t2 →
          ∃ new : List AqEntry, new.length = es.length ∧
            (∀ i (h : i < new.length), new[i].seq = t2.seq + i ∧ new[i].tok = tok ∧ new[i].z = z ∧ some new[i].pieces = es[i]? ∧ new[i].cls = cls ∧
              new[i].u = u ∧ new[i].arr = if i + 1 = es.length then o.arr else none) ∧
            exec ev s = .next (({ t2 with seq := t2.seq + es.length } : State).modCur fun c =>
              let c := c.arrivalDue o.arr (t2.seq + es.length - 1)
              { c with aq := c.aq ++ new, seg := { c.seg with q := c.seg.q + es.length } }))) ∧
    (∀ (r : DqPop), let n := r.c.toNat + 1
      let size := 2 ^ r.z.toNat
      n ≤ s.cur.dq.length → (∀ e ∈ s.cur.dq.take n, e.data.isSome = true ∧ e.z = r.z.toNat ∧ e.cause = 0) → (r.p.toNat + n) * size ≤ 128 →
      n ≤ s.cur.seg.q →
      ∃ v m : Vec, (∀ i < 1024, m.getLsbD i = decide (8 * size * r.p.toNat ≤ i ∧ i < 8 * size * (r.p.toNat + n))) ∧
        (∀ i < n, ∀ e d, s.cur.dq[i]? = some e → e.data = some d → elem (8 * size) v (r.p.toNat + i) = d.toNat % 2 ^ (8 * size)) ∧
        exec (.dqpop o r) s = .next (((s.modCur fun c => { c with dq := c.dq.drop n, seg := { c.seg with q := c.seg.q - n } }).land .vint (.v r.d.toNat) v m).arrival o.arr))

/-- R316, R381, R425: nop changes nothing; a prefetch reads the line through L2 where it can and changes no register; chint names the
tier-2 pages of its range to the expander in runs of at most 256 pages, and nothing else. -/
def Obligations.HintResults : Prop :=
  ∀ (o : OpInfo) (s : State), s.guard0 o = true → s.arrivalOk o.arr →
    exec (.nop o) s = .next (s.arrival o.arr) ∧
    (∀ r : PrefArgs,
      let a := (s.gpr .s r.base + BitVec.ofInt 64 r.disp.toInt).toNat / 64 * 64
      ((s.cur.winOfVa a).isSome = true → exec (.pref o r) s = .next (s.arrival o.arr)) ∧
      (∀ x t, (s.cur.winOfVa a).isSome = false → s.xlatePage s.who .load a = (.error x, t) → t.arrivalOk o.arr →
        exec (.pref o r) s = .next ((t.touch [.page a]).arrival o.arr)) ∧
      (∀ pa key t, (s.cur.winOfVa a).isSome = false → s.xlatePage s.who .load a = (.ok (pa, key), t) →
        (l2Cached pa = false ∨ t.linkCause pa ≠ 0 → t.arrivalOk o.arr → exec (.pref o r) s = .next ((t.touch [.page a]).arrival o.arr)) ∧
        (l2Cached pa = true → t.linkCause pa = 0 →
          let u := (t.l2Read pa 64 t.who.ctx key r.u.toNat).touch [.page a, .line pa key r.u.toNat]
          let v : State := if r.lvl = 1 then u.sdcAdd u.issue.core (pa / 64) else u
          v.arrivalOk o.arr → exec (.pref o r) s = .next (v.arrival o.arr)))) ∧
    (∀ (r : ChintArgs) (frames : List Nat) (t' : State),
      let base := (dWord (s.cur.rD r.base.toNat) 0).toNat / 65536
      (List.range (r.pages.toNat + 1)).foldl (fun (q : List Nat × State) i =>
        match q.2.xlatePage q.2.who .load ((base + i) * 65536) with
        | (.error _, x) => (q.1, x)
        | (.ok (pa, _), x) => (if tierOf pa = .tier2 then q.1 ++ [pa / 65536] else q.1, x)) ([], s) = (frames, t') →
      let t := t'.touch ((List.range (r.pages.toNat + 1)).map fun i => .page ((base + i) * 65536))
      t.arrivalOk o.arr →
      (t.iso = true ∨ (t.ioGet 0x0508).getLsbD 1 = false → exec (.chint o r) s = .next (t.arrival o.arr)) ∧
      (t.iso = false → (t.ioGet 0x0508).getLsbD 1 = true →
        ∃ runs : List (Nat × Nat), (runs.flatMap fun q => (List.range q.2).map (q.1 + ·)) = frames ∧ (∀ q ∈ runs, 0 < q.2 ∧ q.2 ≤ 256) ∧
          exec (.chint o r) s = .next (({ t with out := t.out ++ runs.map fun q =>
            (chExpander, bytesOf 1 r.un.toNat ++ bytesOf 2 q.2 ++ bytesOf 8 q.1) } : State).arrival o.arr)))

/-- R405 to R407: kld reads every 32-byte piece, lands its active entries, and marks the entries of a piece whose sector is poisoned; kst
writes active entries to the scratchpad with the poison of the register; kmov, kfill and kspr land whole entries under the guard of the
entry, kspr the scale bytes of its destination as read at issue with new spares. The poison of k pieces after kfill, kspr and a partial kmov is
the model's reading (log 17). -/
def Obligations.ScaleSlotResults : Prop :=
  ∀ (o : OpInfo) (s : State), s.anyGuard o = true → s.arrivalOk o.arr →
    let entries (m : Vec) : Prop := ∀ i < 1024, m.getLsbD i = s.guardE o 16 (i / 16)
    let some' (i : Nat) : Bool := (List.range 16).any fun j => s.guardE o 16 (16 * i + j)
    let all' (i : Nat) : Bool := (List.range 16).all fun j => s.guardE o 16 (16 * i + j)
    let put (r : Nat) (v m : Vec) (x : State) : State := if m = 0 then x else x.land .vint (.k r) v m
    let poison (r : Nat) (v m : BitVec 4) (x : State) : State := if m = 0 then x else x.land .vint (.kp r) (v.setWidth 1024) (m.setWidth 1024)
    (∀ (r : KMem) (t : State), r.sz.toNat < 3 →
      let n := 2 ^ r.sz.toNat
      let sa := ((s.cur.rK r.base.toNat).setWidth 64 + BitVec.ofInt 64 r.disp.toInt).toNat
      r.pos.toNat + n ≤ 4 → sa % 32 = 0 →
      (∀ i < n, (sa + 32 * i) % 2 ^ 64 < 2 ^ 20 ∧ (256 ≤ s.issue.core ∨ s.cur.kernel.bmask.getLsbD ((sa + 32 * i) % 2 ^ 64 / 65536) = true)) →
      let ps := (List.range n).map fun i => (r.pos.toNat + i, s.cur.spVis ((sa + 32 * i) % 2 ^ 64))
      (ps.foldl (fun (q : Res) p => q.bind fun x => x.stashTouch p.2 32) (.ok s) = .ok t → t.arrivalOk o.arr → t.issue.core = s.issue.core → t.cur.arch = s.cur.arch →
        let ls := ps.flatMap fun p =>
          let m := s.kActive o (32 * p.1)
          let bad := t.cur.spPoison.has (p.2 / 32)
          (if m = 0 then [] else
            [(Dest.k r.d.toNat, BitVec.ofNat 1024 (natOf (readMap t.cur.sp p.2 32) * 2 ^ (256 * p.1)), BitVec.ofNat 1024 (spread 32 m * 2 ^ (256 * p.1)))]) ++
              (if bad = true ∨ m = 2 ^ 32 - 1 then [(Dest.kp r.d.toNat, (if bad then BitVec.ofNat 1024 (2 ^ p.1) else 0 : Vec), BitVec.ofNat 1024 (2 ^ p.1))] else [])
        exec (.kld o r) s = .next ((ls.foldl (fun (x : State) l => x.land .sload l.1 l.2.1 l.2.2) t).arrival o.arr)) ∧
      (ps.foldl (fun (q : Res) p => q.bind fun x =>
          if x.kActive o (32 * p.1) = 0 then .ok x
          else x.spStore (p.2 / 32) (BitVec.ofNat 256 ((x.cur.rK r.d.toNat).toNat / 2 ^ (256 * p.1))) (x.kActive o (32 * p.1)) ((x.cur.kPoison r.d.toNat).getLsbD p.1)) (.ok s) = .ok t →
        t.arrivalOk o.arr → exec (.kst o r) s = .next (t.arrival o.arr))) ∧
    (∀ (r : KPair) (m : Vec) (pm : BitVec 4), entries m →
      (∀ i < 4, pm.getLsbD i = if (s.cur.kPoison r.a.toNat).getLsbD i then some' i else all' i) →
      exec (.kmov o r) s = .next ((poison r.d.toNat (s.cur.kPoison r.a.toNat) pm (put r.d.toNat (s.cur.rK r.a.toNat) m s)).arrival o.arr)) ∧
    (∀ (r : KfillArgs) (v m : Vec) (pm : BitVec 4), entries m → (∀ i < 64, elem 16 v i = r.v.toNat) → (∀ i < 4, pm.getLsbD i = all' i) →
      exec (.kfill o r) s = .next ((poison r.d.toNat 0 pm (put r.d.toNat v m s)).arrival o.arr)) ∧
    (∀ (r : KsprArgs) (v m : Vec) (pm : BitVec 4), entries m → (∀ i < 64, elem 16 v i = elem 16 (s.cur.rK r.d.toNat) i % 256 + 256 * r.v.toNat) →
      (∀ i < 4, pm.getLsbD i = if (s.cur.kPoison r.d.toNat).getLsbD i then some' i else all' i) →
      exec (.kspr o r) s = .next ((poison r.d.toNat (s.cur.kPoison r.d.toNat) pm (put r.d.toNat v m s)).arrival o.arr)) ∧
    (∀ (r : KPair) (v m : Vec) (pm : BitVec 4), entries m →
      (∀ i < 64, elem 16 v i = elem 16 (s.cur.rK r.d.toNat) i % 256 + elem 16 (s.cur.rK r.a.toNat) i / 256 * 256) →
      let bad := s.cur.kPoison r.d.toNat ||| s.cur.kPoison r.a.toNat
      (∀ i < 4, pm.getLsbD i = if bad.getLsbD i then some' i else all' i) →
      exec (.ksprReg o r) s = .next ((poison r.d.toNat bad pm (put r.d.toNat v m s)).arrival o.arr))

/-- R391 to R404: an operation of the matrix engine whose checks hold enters the queue with what it captured; formats and shapes that
later operations see change at once; its own work is done by the engine's events. -/
def Obligations.MatrixIssueResults : Prop :=
  ∀ (o : OpInfo) (s : State), s.guard0 o = true → s.arrivalOk o.arr →
    let c := s.cur
    let free (op : MatOp) : Prop := c.mBlocked s.issue.since op = false
    let queued (k : Core) (op : MatOp) : Host.Outcome State Fault Refusal :=
      .next ((({ (s.setCore s.issue.core k) with seq := s.seq + 1 } : State)).modCur fun q => { q.arrivalDue o.arr s.seq with mq := q.mq ++
        [{ seq := s.seq, op, site := (s.issue.haddr, k.seg.count), relN := s.issue.relN, arr := o.arr }] })
    let fmt (t : Nat) : Nat := (c.tcfg t).toNat % 16
    let rows (t : Nat) : Nat := (c.tcfg t).toNat / 16 % 64 + 1
    let cols (t : Nat) : Nat := (c.tcfg t).toNat / 1024 % 64 + 1
    let fp8 (f : Nat) : Prop := f = 4 ∨ f = 5
    -- mldb: the shadow bank takes the fill, and changes when it ends
    (∀ (r : MldbArgs), c.arrayOn = true →
      let f := fmt r.a.toNat
      let ww := r.ww == 1
      let p := if r.s = 1 then c.pairOf r.q.toNat else (0, 0, 0)
      let b := !c.arch.bank
      let op : MatOp := .mldb r.a.toNat ww (r.s == 1) b (BitVec.ofNat 4 f) (cols r.a.toNat) (rows r.a.toNat) p.1 p.2.1 p.2.2
      (f = 6 → r.s = 1) → (r.s = 1 → f ∈ [4, 5, 6]) → (r.ww = 1 → fp8 f) → cols r.a.toNat * digitsOf f ww ≤ 64 → free op →
      exec (.mldb o r) s = queued c op) ∧
    exec (.mswap o) s = .next ((s.modCur fun k => { k with arch := { k.arch with bank := !k.arch.bank } }).arrival o.arr) ∧
    -- mma, mmas: a pass over the active bank, as the mldb operations before it leave it
    (∀ (ev : Instr) (d : BitVec 2) (a : BitVec 4) (af : BitVec 2) (ww ow : Bool) (q : Option Nat) (k : Core),
      ((∃ r : MmaArgs, ev = .mma o r ∧ d = r.d ∧ a = r.a ∧ af = r.af ∧ ww = (r.ww == 1) ∧ ow = (r.ow == 1) ∧ q = none) ∨
        (∃ r : MmasArgs, ev = .mmas o r ∧ d = r.d ∧ a = r.a ∧ af = r.af ∧ ww = (r.ww == 1) ∧ ow = (r.ow == 1) ∧ q = some r.q.toNat)) →
      c.arrayOn = true →
      let bk := c.bankAt c.arch.bank
      let x := c.acc d.toNat
      let p := match q with | some i => c.pairOf i | none => (0, 0, 0)
      let op : MatOp := .pass d.toNat a.toNat ow ww q.isSome af c.arch.bank p.1 p.2.1 p.2.2
        { fmt := bk.fmt, s := bk.s, n := bk.n, kb := bk.kb, scale := bk.scale, poison := (bk.poison >>> 64).setWidth 128 }
      (q = none → fmt a.toNat ≠ 6) → (q.isSome = true → fmt a.toNat ∈ [4, 5, 6]) → ww = bk.ww → passRow (fmt a.toNat) bk.fmt.toNat af.toNat = true →
      (ow = false → x.fmt ≠ 0 ∧ x.fmt = af ∧ x.rows = rows a.toNat ∧ x.cols = bk.n) → free op → c.cowAcc d.toNat = .ok k →
      exec ev s = queued (if ow then { k with accs := k.accs.ins d.toNat { x with fmt := af, rows := rows a.toNat, cols := bk.n, sat := false } } else k) op) ∧
    (∀ (r : MzaccArgs) (k : Core),
      let op : MatOp := .zacc r.d.toNat r.af (r.rows.toNat + 1) (r.cols.toNat + 1)
      (r.rows.toNat + 1) * (r.cols.toNat + 1) * accWidth r.af ≤ 16384 → free op → c.cowFor op = .ok k →
      exec (.mzacc o r) s = queued { k with accs := k.accs.ins r.d.toNat { k.acc r.d.toNat with
        fmt := r.af, rows := r.rows.toNat + 1, cols := r.cols.toNat + 1, sat := false } } op) ∧
    (∀ (r : MdrainArgs) (k : Core) (m : Mode),
      let x := c.acc r.a.toNat
      let q := if m = .sr then k.draw s.issue.core r.str.toNat (x.rows * x.cols) else ([], k)
      let op : MatOp := .drain r.d.toNat r.a.toNat r.rm (r.sat == 1) q.1
      modeOf r.rm = some m → x.fmt ≠ 0 → fmt r.d.toNat ≠ 6 → rows r.d.toNat = x.rows → cols r.d.toNat = x.cols → free op →
      c.cowTile r.d.toNat = .ok k → exec (.mdrain o r) s = queued q.2 op) ∧
    (∀ (r : McvArgs),
      let f := fmt r.d.toNat
      let p := if f = 6 then c.pairOf r.q.toNat else (0, 0, 0)
      let op : MatOp := .cv r.d.toNat (r.ra == 1) (r.rb == 1) (r.ww == 1) p.1 p.2.1
      (f ≠ 6 → r.q = 0) → (r.ww = 1 → fp8 f) → (r.rb = 1 → cols r.d.toNat * digitsOf f (r.ww == 1) ≤ 64) → free op →
      exec (.mcv o r) s = queued c op) ∧
    (∀ (r : TilePair) (k : Core),
      let op : MatOp := .trn r.d.toNat r.a.toNat
      let v : Word32 := BitVec.ofNat 32 (fmt r.a.toNat + (cols r.a.toNat - 1) * 16 + (rows r.a.toNat - 1) * 1024 + (if (c.tcfg r.d.toNat).getLsbD 16 then 65536 else 0))
      r.d ≠ r.a → fmt r.a.toNat ≠ 6 → rows r.a.toNat * cols r.a.toNat * fmtWidth (fmt r.a.toNat) ≤ 131072 → (fmt r.a.toNat = 10 → rows r.a.toNat ≤ 32) →
      free op → c.cowFor op = .ok k →
      exec (.mtrn o r) s = queued { k with arch := { k.arch with tcfg := k.arch.tcfg.put 0 r.d.toNat v } } op) ∧
    (∀ (r : MfillArgs) (k : Core),
      let op : MatOp := .fill r.d.toNat r.v
      r.v.toNat < 2 ^ Min.min (fmtWidth (fmt r.d.toNat)) 16 → free op → c.cowFor op = .ok k → exec (.mfill o r) s = queued k op) ∧
    (∀ (r : TilePair) (k : Core),
      let op : MatOp := .tcpy r.d.toNat r.a.toNat
      free op → c.cowFor op = .ok k →
      let v : Word32 := BitVec.ofNat 32 ((k.tcfg r.a.toNat).toNat % 65536 + (if (k.tcfg r.d.toNat).getLsbD 16 then 65536 else 0))
      exec (.mtcpy o r) s = queued { k with arch := { k.arch with tcfg := k.arch.tcfg.put 0 r.d.toNat v } } op)

/-- R240, R248: where the squares of the side-car and the corrections of the bank are those of the operands, the drain's check holds and
the block's term is the exact product: the sum over its rows of lane values times digit values, with their weights. -/
def Obligations.SquaresGiveProducts : Prop :=
  ∀ (d : Drain) (i j blk : Nat),
    let lane (k l : Nat) : Int := (((d.alpha.getD i []).getD blk []).getD k []).getD l 0
    let digit (k g : Nat) : Int := d.bank.beta d.db (32 * blk + k) (j * d.db + g)
    let total (f : Nat → Int) (n : Nat) : Int := ((List.range n).map f).sum
    (∀ l < d.la, ((bits d.side.sq.toNat (8 * (1024 * l + 16 * i + 8 * blk)) 64 : Nat) : Int) = total (fun k => lane k l * lane k l) 32) →
    (∀ g < d.db, ((d.bank.cAt (j * d.db + g) blk : Nat) : Int) = total (fun k => digit k g * digit k g) 32) →
    d.block i j blk = some (total (fun l => total (fun g => total (fun k => lane k l * digit k g) 32 * 2 ^ (16 * l + 8 * g)) d.db) d.la)

/-- R414, R416, R220: entry of a checked command that its engine, its tiles and the staging buffers let in. Its token counts it; a deferred
one (a destination that other agents see) takes a release-buffer entry and starts at the commit, every other starts now.
A command that starts reads its index words and its own-scratchpad source then (beginCmd); one without either changes nothing else.
R410 to R426: the copy commands pass the checks of their descriptor in order and enter their engine; tile images and stash flushes
likewise. -/
def Obligations.CopyCommandResults : Prop :=
  (∀ (o : OpInfo) (s s1 : State) (k : Cmd) (ix : Nat) (tile : Option Nat) (sas : List Nat) (c1 c2 c3 c4 : Core),
    let c := s.cur
    let post := dPv k.desc && dPcore k.desc != s.issue.core
    (s.cur.grp.n = 0 → c.engineFull k.eng = false) → (∀ t, tile = some t → c.tileBlocked s.issue.since t false = false) →
    (∀ t, k.writesTile = some t → c.tileBlocked s.issue.since t true = false) →
    (k.deferred = true → tile.isSome = true → (if k.eng = 0 then c.seg.staged0 else c.seg.staged1) ≠ 2) →
    s.tokAdd k.tok 1 = .ok s1 → s1.cur.undoForAll sas = .ok c1 → (match k.writesTile with | some t => c1.cowTile t | none => .ok c1) = .ok c2 →
    -- the place of what it publishes at its commit
    (if k.deferred then c2.release (.cmd s1.seq) else if post then c2.release (.late s1.seq true)
      else .ok (if dHv k.desc then { c2 with seg := { c2.seg with rel := c2.seg.rel ++ [.late s1.seq false] } } else c2)) = .ok c3 →
    -- the place of the barrier arrival that it makes when it retires
    (match k.deferred, o.arr with | false, some (.barrier g) => c3.release (.due s1.seq g.toNat) | _, _ => .ok c3) = .ok c4 →
    ∃ (t : State) (k' : Cmd), t.seq = s1.seq + 1 ∧ t.mem = s.mem ∧ t.issue = s1.issue ∧ t.cur.seg.rel = c4.seg.rel ∧ t.cur.cmds = c4.cmds ++ [k'] ∧
      k'.seq = s1.seq ∧ k'.tok = k.tok ∧ k'.kind = k.kind ∧ k'.desc = k.desc ∧ k'.deferred = k.deferred ∧ k'.started = k.started ∧
      (k.deferred = true → k'.arr = none ∧ s.enterCmd o k ix tile sas = t.arriveNow o.arr) ∧
      (k.deferred = false → k'.arr = o.arr ∧
        let u := t.beginCmd t.issue.core s1.seq
        ((∀ x ∈ u.cur.cmds, x.seq = s1.seq → x.bad ≠ 0x1C3#10) → s.enterCmd o k ix tile sas = .ok (u.touch (t.cur.readTouches k' ix))) ∧
        ((∀ x ∈ c4.cmds, x.seq ≠ s1.seq) → k.words = 0 → t.cur.startElems k' = none →
          u.mem = s.mem ∧ ∃ hid : SMap Bool, u.cur.cmds = c4.cmds ++ [{ k' with started := true, bad := 0, index := [], hid }]))) ∧
  (∀ (o : OpInfo) (s : State), s.guard0 o = true → s.arrivalOk o.arr →
    let c := s.cur
    (∀ (ev : Instr) (kind : CmdKind) (d cls : BitVec 4) (tok : BitVec 3) (u : Nat) (ssp dsp : List Nat) (ix : Option (BitVec 4)) (t2 : State),
      ((∃ r : CopyArgs, ev = .cpy o r ∧ kind = .cpy ∧ d = r.d ∧ cls = r.cls ∧ tok = r.tok ∧ u = r.u.toNat ∧ ssp = [0, 1, 3] ∧ dsp = [0, 1, 2, 3] ∧ ix = none) ∨
        (∃ r : IndexedCopy, ev = .gath o r ∧ kind = .gath ∧ d = r.d ∧ cls = r.cls ∧ tok = r.tok ∧ u = r.u.toNat ∧ ssp = [0] ∧ dsp = [0, 1, 3] ∧ ix = some r.ix) ∨
        (∃ r : IndexedCopy, ev = .scat o r ∧ kind = .scat ∧ d = r.d ∧ cls = r.cls ∧ tok = r.tok ∧ u = r.u.toNat ∧ ssp = [0, 1, 3] ∧ dsp = [0] ∧ ix = some r.ix) ∨
        (∃ r : NetCopy, ev = .cnput o r ∧ kind = .cnput ∧ d = r.d ∧ cls = r.cls ∧ tok = r.tok ∧ u = 2 ∧ ssp = [0, 1, 3] ∧ dsp = [4] ∧ ix = none) ∨
        (∃ r : NetCopy, ev = .cnget o r ∧ kind = .cnget ∧ d = r.d ∧ cls = r.cls ∧ tok = r.tok ∧ u = 2 ∧ ssp = [4] ∧ dsp = [0, 1] ∧ ix = none)) →
      let desc := c.rD d.toNat
      let n := dCount desc 1
      let deferred := decide (dDsp desc ∈ [0, 2, 4])
      let k : Cmd := { seq := 0, eng := if o.slot = .c1 then 1 else 0, tok := tok.toNat, cls := cls.toNat, u, kind, desc, index := List.replicate n 0, deferred }
      let ixWord : Nat := match ix with | some r => (dWord (c.rD r.toNat) 0).toNat % 2 ^ 20 | none => 0
      let words : List Int := if ix.isSome then (List.range n).map fun i => ((ixWord + 4 * i : Nat) : Int) else []
      c.descBad k ssp dsp ix.isSome = false → c.sideCheck (isCtl s.issue.core) 1 words 4 = .ok () →
      c.sideCheck (isCtl s.issue.core) (dSsp desc) k.sources (2 ^ dEsz desc) = .ok () →
      c.sideCheck (isCtl s.issue.core) (dDsp desc) k.dests (2 ^ dEsz desc) = .ok () →
      s.enterCmd o k ixWord (if dSsp desc = 3 then some (tileOf (dSaddr desc)) else none) (if dDsp desc = 1 then k.dests.map Int.toNat else []) = .ok t2 →
      exec ev s = .next t2) ∧
    (∀ (r : TileLoad) (t2 : State),
      let a := dWord (c.rD r.base.toNat) 0 + BitVec.ofInt 64 r.disp.toInt
      let n := (rowBytes (c.tcfg r.t.toNat) * tcfgRows (c.tcfg r.t.toNat) + 31) / 32
      let offs := (List.range n).map (32 * ·) ++ if r.trl = 1 then (List.range 512).map (16384 + 32 * ·) else []
      s.imageCheck a (r.spc == 1) offs = .ok () →
      s.enterCmd o { seq := 0, eng := if o.slot = .c1 then 1 else 0, tok := r.tok.toNat, cls := r.cls.toNat, u := r.u.toNat, kind := .tldi r.t.toNat a (r.trl == 1) (r.spc == 1), desc := 0, deferred := false } 0 none [] = .ok t2 →
      exec (.tldi o r) s = .next t2) ∧
    (∀ (r : TileStore) (t2 : State),
      let a := dWord (c.rD r.base.toNat) 0 + BitVec.ofInt 64 r.disp.toInt
      s.imageCheck a (r.spc == 1) ((List.range (if r.trl = 1 then 1024 else 512)).map (32 * ·)) = .ok () →
      s.enterCmd o { seq := 0, eng := if o.slot = .c1 then 1 else 0, tok := r.tok.toNat, cls := r.cls.toNat, u := 2, kind := .tsti r.t.toNat a (r.trl == 1) (r.spc == 1), desc := 0, deferred := r.spc == 0 } 0 (some r.t.toNat)
        (if r.spc = 1 then (List.range ((if r.trl = 1 then 32768 else 16384) / 32)).map fun i => a.toNat + 32 * i else []) = .ok t2 →
      exec (.tsti o r) s = .next t2) ∧
    (∀ (r : StflArgs) (t2 : State),
      s.enterCmd o { seq := 0, eng := if o.slot = .c1 then 1 else 0, tok := r.tok.toNat, cls := r.cls.toNat, u := 2, kind := .stfl (if r.all = 1 then [0, 1, 2, 3, 4, 5, 6, 7] else [r.win.toNat]) (r.inv == 1), desc := 0, deferred := true } 0 none [] = .ok t2 →
      exec (.stfl o r) s = .next t2))

/-- R421: descriptor moves between d registers and the scratchpad, whole or one word. -/
def Obligations.DescriptorMoveResults : Prop :=
  ∀ (o : OpInfo) (r : DescMove) (s t : State), s.guard0 o = true →
    let sa := 32 * r.off.toNat + (if r.ba = 1 then (dWord (s.cur.rD r.base.toNat) 0).toNat % 2 ^ 20 else 0)
    let a := if r.one = 1 then sa + 8 * r.word.toNat else sa
    let n := if r.one = 1 then 8 else 64
    let w := if r.one = 1 then r.word.toNat else 0
    a % n = 0 → a < 2 ^ 20 → (256 ≤ s.issue.core ∨ s.cur.kernel.bmask.getLsbD (a / 65536) = true) → t.arrivalOk o.arr →
    ((s.cur.dmParts a n).foldl (fun (q : Res) p => q.bind fun x => x.stashTouch p.2.1 p.2.2) (.ok s) = .ok t →
      (∀ p ∈ t.cur.dmParts a n, t.cur.spPoison.has (p.2.1 / 32) = false) →
      ∃ v m : Vec, (∀ i < 1024, m.getLsbD i = decide (64 * w ≤ i ∧ i < 64 * w + 8 * n)) ∧
        (∀ b < n, elem 8 v (8 * w + b) = ((t.cur.sp.get? (t.cur.spVis (a + b / 32 * 32) + b % 32)).getD 0).toNat) ∧
        exec (.dld o r) s = .next ((t.land .sload (.d r.d.toNat) v m).arrival o.arr)) ∧
    ((s.cur.dmParts a n).foldl (fun (q : Res) p => q.bind fun x => x.spStore (p.2.1 / 32)
        (BitVec.ofNat 256 (bits (s.cur.rD r.d.toNat).toNat (64 * w + 8 * p.1) (8 * p.2.2) * 2 ^ (8 * (p.2.1 % 32)))) ((2 ^ p.2.2 - 1) * 2 ^ (p.2.1 % 32)) false) (.ok s) = .ok t →
      exec (.dst o r) s = .next (t.arrival o.arr))

/-- R134, R422 to R424: cpub of a shadowed buffer waits at the group boundary when the segment withheld nothing before its bundle; stmap in
a checkpoint bundle sets a window that meets none of those that stood before the bundle, after the bytes of the old one have gone back; the
copy commands of its bundle keep the windows that stood before it. -/
def Obligations.WindowResults : Prop :=
  ∀ (o : OpInfo) (s : State), s.guard0 o = true → s.arrivalOk o.arr →
    (∀ (r : CpubArgs) (w : Word), s.cur.kernel.plan[r.buf.toNat]? = some w → w.getLsbD 32 = true → s.cur.withheldIn s.issue.relN = false →
      exec (.cpub o r) s = .next ((s.hold (.cpub r.buf.toNat s.seq)).arrival o.arr)) ∧
    (∀ (c : Core) (buf k : Nat), (c.swapShadow buf).arch.shadow.getD k false = if k = buf then !c.arch.shadow.getD k false else c.arch.shadow.getD k false) ∧
    (∀ r : StmapArgs,
      let d := s.cur.rD r.a.toNat
      let gva := (dWord d 0).toNat % 2 ^ 52
      let sb := (dWord d 1).toNat % 2 ^ 20
      let size := (dWord d 2).toNat % 2 ^ 15
      let w : Window := { gva := BitVec.ofNat 64 gva, spbase := sb, size, en := size != 0 }
      let old := (s.cur.wins.get? r.win.toNat).getD {}
      s.issue.ck = true → gva % 64 = 0 → sb % 64 = 0 → size ≤ 16384 → sb + 64 * size ≤ 2 ^ 20 →
      let before := s.issue.wins.getD s.cur.wins
      (size ≠ 0 → ∀ q ∈ before, q.1 ≠ r.win.toNat → q.2.en = true → q.2.meets w = false) →
      (size ≠ 0 → s.issue.core < 256 → ∀ b < 16, b * 65536 < sb + 64 * size → sb < (b + 1) * 65536 → s.cur.kernel.bmask.getLsbD b = true) →
      (old = w → exec (.stmap o r) s = .next (s.arrival o.arr)) ∧
      (old ≠ w →
        let f := if old.en then s.flushWindow s.issue.core old true else ((0, 0), s)
        let t := f.2
        let gone := if old.en then t.cur.sectorsIn old else []
        let first := match t.issue.since with | some (q, _) => q | none => t.seq
        -- the written bytes of the old window have all gone back
        f.1.1 = 0 → t.arrivalOk o.arr → exec (.stmap o r) s =
          .next ((({ t with issue := { t.issue with wins := some before } } : State).modCur fun c => { c with
            wins := c.wins.put {} r.win.toNat w, stash := c.stash.filter fun e => !gone.contains e.1
            cmds := c.cmds.map fun k => if first ≤ k.seq ∧ k.wins = none then { k with wins := some before } else k }).arrival o.arr)))

/-- R338 to R341, R344 to R347: waits hold issue at the boundary after their group; a fence holds for the operations under way and marks
the withheld ones; an arrival is withheld, and a rendezvous in a checkpoint bundle sends its arrival once and then waits.
R183, R199, R218, R340, R342, R343: posts. With nothing of its core outstanding or withheld, fpost adds to the flag and fset sets it;
a post to another core is withheld on a main sequencer; on the service sequencer it reaches its target at once, when the target's chunk
is of the same context (for a post of a control core: runs), and outlives a rollback. -/
def Obligations.WaitAndPostResults : Prop :=
  (∀ (o : OpInfo) (s : State), s.guard0 o = true → s.arrivalOk o.arr →
    let held (x : State) (h : Hold) : Host.Outcome State Fault Refusal := .next ((x.hold h).arrival o.arr)
    (∀ (r : WaitArgs) (set : List Nat), set = ((List.range 8).filter fun i => i == r.a.toNat || r.mask.getLsbD i) →
      (∀ k ∈ s.cur.cmds, k.deferred = true → k.released = false → k.tok ∉ set) →
      exec (.wait o r) s = held s (.tokens set s.issue.haddr s.cur.seg.count)) ∧
    (∀ r : FwaitArgs, exec (.fwait o r) s = held s (.flagGe r.f.toNat r.n.toNat) ∧ exec (.fwaitC o r) s = held s (.flagGeSub r.f.toNat r.n.toNat) ∧
      exec (.fwaitEq o r) s = held s (.flagEq r.f.toNat r.n.toNat)) ∧
    (∀ r : BarrArgs, s.barGranted r.g.toNat = true → s.cur.gangMember = true → s.cur.relCount < 512 →
      let t := s.setCore s.issue.core { s.cur with seg := { s.cur.seg with rel := s.cur.seg.rel ++ [.arrive r.g.toNat] } }
      t.arrivalOk o.arr → exec (.barr o r) s = .next (t.arrival o.arr)) ∧
    (∀ r : BarrArgs, s.barGranted r.g.toNat = true → Rel.arrive r.g.toNat ∉ s.cur.seg.rel → exec (.bwait o r) s = held s (.barrier r.g.toNat)) ∧
    (∀ r : BarrArgs, s.barGranted r.g.toNat = true → s.cur.gangMember = true → s.issue.ck = true →
      let t : State := if s.cur.seg.rdvDone then s
        else (s.sendArrival s.issue.core r.g.toNat).modCur fun c => { c with seg := { c.seg with rdvDone := true } }
      exec (.rdv o r) s = held t (.rdv r.g.toNat)) ∧
    (∀ r : FenceArgs, (s.issue.svc = true ∨ r.kind = 0 ∨ r.ncls = BitVec.allOnes _ → exec (.fence o r) s = .next (s.arrival o.arr)) ∧
      (s.issue.svc = false → r.kind ≠ 0 → r.ncls ≠ BitVec.allOnes _ → exec (.fence o r) s =
        held (s.modCur fun c => { c with seg := { c.seg with rel := c.seg.rel ++ [.mark (r.kind.toNat + if r.scope.toNat = 4 then 32 else 0) (~~~r.ncls).toNat] } })
          (.fence r.kind.toNat r.scope.toNat (~~~r.ncls).toNat s.seq)))) ∧
  (∀ (o : OpInfo) (s : State), s.guard0 o = true → s.arrivalOk o.arr →
    (∀ r : FpostArgs, exec (.fpost o r) s = .next ((s.flagInc r.f.toNat (r.n.toNat + 1)).arrival o.arr)) ∧
    (∀ r : FsetArgs, exec (.fset o r) s = .next ((s.flagPut r.f.toNat r.v).arrival o.arr)) ∧
    (∀ (f n : Nat), s.issue.svc = false → s.cur.withheld = [] → s.cur.seg.posts = [] → s.cur.busyBelow s.seq = false →
      s.publishBelow s.issue.core s.seq = false → (∀ q k, s.issue.since = some (q, k) → q ≤ s.seq) →
      (s.flagInc f n).cur.rF f = s.cur.rF f + BitVec.ofNat 16 n ∧ (∀ g, g ≠ f → (s.flagInc f n).cur.rF g = s.cur.rF g) ∧
      (∀ v, s.issue.incs.getD f 0 = 0 → (s.flagPut f v).cur.rF f = v ∧ ∀ g, g ≠ f → (s.flagPut f v).cur.rF g = s.cur.rF g)) ∧
    (∀ (f n : Nat), s.issue.svc = true →
      (s.flagInc f n).cur.rF f = s.cur.rF f + BitVec.ofNat 16 n ∧ (s.flagInc f n).cur.seg.ck.f.getD f 0 = s.cur.seg.ck.f.getD f 0 + BitVec.ofNat 16 n) ∧
    (∀ (ev : Instr) (target : Int) (f n : Nat),
      ((∃ r : RpostArgs, ev = .rpost o r ∧ target = ((r.thi.toNat * 32 + r.tlo.toNat : Nat) : Int) ∧ f = r.f.toNat ∧ n = r.n.toNat + 1) ∨
        (∃ r : RpostArgs, ev = .rpostRel o r ∧ target = (s.issue.core : Int) + sgn 10 (r.thi.toNat * 32 + r.tlo.toNat) ∧ f = r.f.toNat ∧ n = r.n.toNat + 1) ∨
        (∃ r : RpostPred, ev = .rpostPred o r ∧ target = (((s.cur.rP r.p.toNat).toNat % 512 : Nat) : Int) ∧ f = r.f.toNat ∧ n = r.n.toNat + 1)) →
      0 ≤ target → target ≤ 263 →
      (s.issue.svc = false → s.cur.relCount < 512 →
        let t := s.setCore s.issue.core { s.cur with seg := { s.cur.seg with rel := s.cur.seg.rel ++ [.post target.toNat f n] } }
        t.arrivalOk o.arr → exec ev s = .next (t.arrival o.arr)) ∧
      (s.issue.svc = true → (s.deliverPost s.who.ctx target.toNat f n).arrivalOk o.arr →
        exec ev s = .next ((s.deliverPost s.who.ctx target.toNat f n).arrival o.arr))) ∧
    (∀ (ctx target f n : Nat) (k : Chunk), target < 256 → (s.core target).chunk = some k →
      (if ctx = 64 then (s.core target).run ≠ .parked else k.ctx = ctx) →
      ((s.deliverPost ctx target f n).core target).rF f = (s.core target).rF f + BitVec.ofNat 16 n ∧
        ((s.deliverPost ctx target f n).core target).seg.ck.f.getD f 0 = (s.core target).seg.ck.f.getD f 0 + BitVec.ofNat 16 n))

/-- R121, R214, R348, R349: chk of equal registers changes nothing; fork reserves an idle core of the cluster and keeps s24 to s31 for the
run that the next commit starts; fprobe answers whether the core is idle, and its other form reserves it then. -/
def Obligations.ForkAndCheckResults : Prop :=
  ∀ (o : OpInfo) (s : State), s.guard0 o = true → s.arrivalOk o.arr →
    let target (b : BitVec 5) (dyn : BitVec 1) (mem : BitVec 2) : Nat :=
      s.issue.core / 4 * 4 + (if dyn = 1 then (s.cur.rP (b.toNat % 16)).toNat % 4 else mem.toNat)
    let idle (t : Nat) : Bool := t != s.issue.core && (s.core t).chunk.isNone && (s.core t).queue.isEmpty && (s.core t).reserved.isNone
    let taken (t : Nat) (entry : Word) : State :=
      (s.modCore t fun c => { c with reserved := some s.issue.core }).modCur fun c =>
        { c with seg := { c.seg with forks := c.seg.forks ++ [(t, entry, [24, 25, 26, 27, 28, 29, 30, 31].map fun i => s.cur.arch.s.getD i 0)] } }
    let probe (x : State) (pd : BitVec 4) (b : Bool) : State :=
      if pd = 0 then x else x.modCur fun c => c.landIn 1 (.p pd.toNat) ((if b then BitVec.allOnes 64 else 0 : Word).setWidth 1024) full64
    (∀ r : ChkArgs, s.cur.readFile r.fa r.a.toNat = s.cur.readFile r.fb r.b.toNat → exec (.chk o r) s = .next (s.arrival o.arr)) ∧
    (∀ r : ForkArgs, let t := target r.b r.dyn r.mem
      idle t = true → exec (.fork o r) s = .next ((taken t (s.issue.haddr + 4 * BitVec.ofInt 64 r.entry.toInt)).arrival o.arr)) ∧
    (∀ r : FprobeArgs, let t := target r.b r.dyn r.mem
      exec (.fprobe o r) s = .next ((probe s r.pd (idle t)).arrival o.arr) ∧
      exec (.fprobeF o r) s = .next ((probe (if idle t then taken t (s.issue.haddr + 4 * BitVec.ofInt 64 r.entry.toInt) else s) r.pd (idle t)).arrival o.arr))

/-- R430, R431: moves from and to the core's system registers, and to and from the I/O-die register block at supervisor privilege, once
every earlier operation of the core has been performed. -/
def Obligations.SystemRegisterResults : Prop :=
  ∀ (o : OpInfo) (s : State), s.guard0 o = true → s.arrivalOk o.arr →
    (∀ (r : SrMove) (v : Word), s.sysReg s.issue.core r.n.toNat = some v → exec (.mfsr o r) s = .next ((s.landG .s r.d v).arrival o.arr)) ∧
    (∀ (r : SrMove) (t : State), (s.sysReg s.issue.core r.n.toNat).isSome = true → s.sysWrite r.n.toNat (s.gpr .s r.d) = .ok t → t.arrivalOk o.arr →
      exec (.mtsr o r) s = .next (t.arrival o.arr)) ∧
    (∀ v : Word, s.issue.svc = false →
      s.sysWrite 0x40 v = .ok (s.modCur fun c => { c with arch := { c.arch with seed := v, srctr := [] } }) ∧
      s.sysWrite 0x64 v = .ok (s.modCur fun c => { c with svc := { c.svc with tcmp := v } })) ∧
    (∀ r : IoMove, let off := ((s.gpr .s r.a).toNat + r.off.toNat) % 2 ^ 20
      s.supervisor = true → off % 8 = 0 → (ioReg off).isSome = true → s.unperformed s.issue.core = false →
      exec (.mfsrIo o r) s = .next ((s.landG .s r.d (s.ioRead off)).arrival o.arr) ∧
      ((s.ioWrite off (s.gpr .s r.d)).arrivalOk o.arr → exec (.mtsrIo o r) s = .next ((s.ioWrite off (s.gpr .s r.d)).arrival o.arr)))

/-- R200, R429, R430: without supervisor privilege the privileged operations take 0x200, before any other effect.
R436, R437: TLB and cache maintenance once every earlier operation has been performed. TLBI drops every entry, those of a context, or
those of a page of it; CMNT empties instruction caches or the scalar data cache, or writes back the lines of a context.
R430, R433, R436, R437: while an earlier operation of the main sequencer is still to be performed, such an operation holds issue at the
boundary after its group, and takes effect there once nothing older is left. -/
def Obligations.MaintenanceResults : Prop :=
  (∀ (o : OpInfo) (s : State), s.guard0 o = true → s.supervisor = false → s.arrivalOk o.arr →
    let trap : Host.Outcome State Fault Refusal := .next (s.takeTrap { cause := 0x200#10, slot := BitVec.ofNat 4 (slotNum o.slot) })
    (∀ r, exec (.mfsrIo o r) s = trap) ∧ (∀ r, exec (.mtsrIo o r) s = trap) ∧ exec (.eret o) s = trap ∧ (∀ r, exec (.tlbiAll o r) s = trap) ∧
    (∀ r, exec (.tlbiCtx o r) s = trap) ∧ (∀ r, exec (.tlbiPage o r) s = trap) ∧ (∀ r, exec (.cmntIcinvPkg o r) s = trap) ∧
    (∀ r, exec (.cmntWbctx o r) s = trap) ∧ (∀ r, exec (.waitline o r) s = trap) ∧ (∀ r, exec (.launch o r) s = trap)) ∧
  (∀ (o : OpInfo) (s : State), s.guard0 o = true → s.arrivalOk o.arr → s.issue.svc = true ∨ s.unperformed s.issue.core = false →
    (s.supervisor = true →
      (∀ r, exec (.tlbiAll o r) s = .next (({ s with tlb := [] } : State).arrival o.arr)) ∧
      (∀ r, exec (.tlbiCtx o r) s = .next (({ s with tlb := s.tlb.filter fun q => q.1 / 2 ^ 38 % 64 != (s.gpr .s r.a).toNat % 64 } : State).arrival o.arr)) ∧
      (∀ r, exec (.tlbiPage o r) s = .next (({ s with tlb := s.tlb.filter fun q => !(q.1 / 2 ^ 38 % 64 == (s.gpr .s r.a).toNat % 64 &&
        q.1 % 2 ^ 36 == (s.gpr .s r.b).toNat / leafSize q.2.level) } : State).arrival o.arr)) ∧
      (∀ r, let t : State := { s with cores := s.cores.map fun q => (q.1, { q.2 with icache := [] }) }
        t.arrivalOk o.arr → exec (.cmntIcinvPkg o r) s = .next (t.arrival o.arr)) ∧
      (∀ r, let t := s.wbCtx ((s.gpr .s r.a).toNat % 64)
        t.arrivalOk o.arr → exec (.cmntWbctx o r) s = .next (t.arrival o.arr))) ∧
    (∀ r, exec (.cmntIcinv o r) s = .next ((s.modCur fun c => { c with icache := [] }).arrival o.arr)) ∧
    (∀ r, exec (.cmntSdcinv o r) s = .next ((s.modCur fun c => { c with sdc := [] }).arrival o.arr))) ∧
  (∀ (o : OpInfo) (s : State) (q n : Nat), s.guard0 o = true → s.arrivalOk o.arr → s.issue.svc = false → s.unperformed s.issue.core = true →
    s.issue.since = some (q, n) →
    let held (op : SysOp) : Host.Outcome State Fault Refusal := .next ((s.hold (.sys op q)).arrival o.arr)
    (s.supervisor = true →
      (∀ r : IoMove, let off := ((s.gpr .s r.a).toNat + r.off.toNat) % 2 ^ 20
        off % 8 = 0 → (ioReg off).isSome = true →
        exec (.mfsrIo o r) s = held (.ioRead off r.d (s.cur.seg.count + 1)) ∧ exec (.mtsrIo o r) s = held (.ioWrite off (s.gpr .s r.d))) ∧
      (s.cur.fscore.toNat ≤ 263 → (s.core s.cur.fscore.toNat).run = .parked → exec (.eret o) s = held (.eret s.cur.fscore.toNat)) ∧
      (∀ r, exec (.tlbiAll o r) s = held (.tlbi none none)) ∧ (∀ r, exec (.tlbiCtx o r) s = held (.tlbi (some ((s.gpr .s r.a).toNat % 64)) none)) ∧
      (∀ r, exec (.tlbiPage o r) s = held (.tlbi (some ((s.gpr .s r.a).toNat % 64)) (some (s.gpr .s r.b).toNat))) ∧
      (∀ r, exec (.cmntIcinvPkg o r) s = held .icinvPkg) ∧ (∀ r, exec (.cmntWbctx o r) s = held (.wbctx ((s.gpr .s r.a).toNat % 64)))) ∧
    (∀ r, exec (.cmntIcinv o r) s = held .icinv) ∧ (∀ r, exec (.cmntSdcinv o r) s = held .sdcinv)) ∧
  (∀ (s : State) (core seq : Nat) (op : SysOp),
    s.holdDone core false (.sys op seq) = if s.unperformedBelow core seq then none else some (.ok (s.sysLate core op)))

/-- R329 to R331, R432 to R434: trap takes its own cause; waitline watches a line; launch waits for the Distributor's answer; exit marks
its bundle; eret resumes the parked core that FSCORE names; sret ends the handler. -/
def Obligations.ControlResults : Prop :=
  ∀ (o : OpInfo) (s : State), s.guard0 o = true → s.arrivalOk o.arr →
    (∀ r : TrapArgs, exec (.trap o r) s = .next (s.takeTrap { cause := 0x3C0#10 + r.imm.setWidth 10, slot := BitVec.ofNat 4 (slotNum o.slot) })) ∧
    (∀ (r : WaitlineArgs) (p : Piece) (ps : List Piece) (t t1 t2 : State) (cause : Cause) (l : List (Nat × List Byte)),
      let a := (s.gpr .s r.base + BitVec.ofInt 64 r.disp.toInt).toNat
      s.supervisor = true → a % 64 = 0 → s.xlateR .load a 8 = .ok (p :: ps, t) →
      -- stalls are inserted at group boundaries only (R208): at most eight watches, one to a token, and the order of its class
      (t.cur.grp.n = 0 → t.cur.watches.length < 8 ∧ (∀ w ∈ t.cur.watches, w.tok ≠ r.tok.toNat) ∧ t.cur.readsDone t.seq r.cls.toNat (p :: ps) = true ∧
        t.meetsFlight t.issue.core false (p :: ps) = false) → t.tokAdd r.tok.toNat 1 = .ok t1 →
      t1.readPieces t1.who (t1.seenBy t1.issue.core t1.issue.relN) 2 false (p :: ps) = ((cause, l), t2) →
      exec (.waitline o r) s = .next (({ (t2.touch ((p :: ps).map fun p => .piece p 2 false)) with seq := t2.seq + 1 } : State).modCur fun k => { k.arrivalDue o.arr t2.seq with watches := k.watches ++
        [{ seq := t2.seq, tok := r.tok.toNat, dst := r.d.toNat, pa := p.pa, va := a, asleep := cause == 0 && BitVec.ofNat 64 (placed l) == t2.gpr .s r.ix, cause, tmo := r.tmo, relN := t2.issue.relN, arr := o.arr, cls := r.cls.toNat, key := p.key }] })) ∧
    (∀ r : LaunchArgs, s.supervisor = true → (s.gpr .s r.a).toNat % 128 = 0 →
      exec (.launch o r) s = .next ((s.hold (.launch (s.gpr .s r.a) ((s.gpr .s r.b).toNat % 64) r.d.toNat)).arrival o.arr)) ∧
    exec (.exit o) s = .next (({ s with issue := { s.issue with exit := true } } : State).arrival o.arr) ∧
    (let c := s.cur.fscore.toNat
     s.supervisor = true → c ≤ 263 → (s.core c).run = .parked → s.unperformed s.issue.core = false → (s.resumeCore c).arrivalOk o.arr →
      exec (.eret o) s = .next ((s.resumeCore c).arrival o.arr)) ∧
    (s.issue.svc = true → exec (.sret o) s = .next ((s.modCur fun c => { c with svc := { c.svc with busy := false } }).arrival o.arr))

/-! Events. Each says that the event answers a next state, and what it holds. -/

/-- R26, R53, R54, R56, R74: a reset keeps what fuses, counters and flash hold, and memory when it refreshes itself; an image that passes
its checks is measured and starts, one that fails stops the boot; the host recovers a boot that has stopped; clusters power up in order.
The model's own are: that an SVN above 63, FLAGS above 1 and a wrong total length fail step 1 (log 75), the STATUS after a failed recovery
(log 77), that a failed command 2 leaves the registers (log 76), and that the events bring the bytes which the host has written (log 40). -/
def Obligations.ResetAndBootResults : Prop :=
  ∀ s : State,
    let kept : Pkg := { svnMin := s.pkg.svnMin, attIndex := s.pkg.attIndex, blazeFlash := s.pkg.blazeFlash }
    let h (img : BootImage) (i n : Nat) : Nat := natOf ((img.bytes.drop i).take n)
    let good (img : BootImage) (id : Nat) : Prop :=
      let len := h img 8 8
      img.readOk = true ∧ h img 0 4 = 0x49394C4F ∧ h img 4 1 = id ∧ h img 5 1 ≤ 63 ∧ h img 6 2 ≤ 1 ∧ len ≤ 64 * 2 ^ 20 ∧
        h img 0x50 176 = 0 ∧ img.bytes.length = 256 + len + 2820 ∧
        h img 0x10 64 = natOf (shake256 ((img.bytes.drop 256).take len) 64) ∧
        (∃ i < 4, Config.keyRevoked i = false ∧ Config.xmssVerify (Config.vendorKey i) (BitVec.ofNat 2048 (natOf (img.bytes.take 256)))
          (BitVec.ofNat 22560 (natOf ((img.bytes.drop (256 + len)).take 2820))) = true) ∧
        s.pkg.svnMin.getD id 0 ≤ h img 5 1
    let started (img : BootImage) (id : Nat) (t : State) : Prop :=
      t.pkg.stage = id ∧ t.pkg.stopped = false ∧ (id = 4 → t.ioBits 0x0600 0 1 = 1) ∧
      t.pkg.meas.getD id 0 = BitVec.ofNat 512 (natOf (shake256 (bytesOf 64 (s.pkg.meas.getD id 0).toNat ++ bytesOf 64 (h img 0x10 64)) 64))
    let failed (t : State) : Prop := t.pkg.mbox.run = 0 ∧ 0x11 ≤ t.pkg.mbox.status.toNat ∧ t.pkg.mbox.status.toNat ≤ 0x15
    (∃ t, exec .packageReset s = .next t ∧ t.cores = [] ∧ t.pkg = kept ∧ t.keys = [] ∧ t.flight = [] ∧ t.l2 = [] ∧ t.tlb = [] ∧ t.fatal = 0 ∧ t.tmr = 0 ∧
      if Config.selfRefresh s.fresh = true then
        t.mem = s.belowL2.mem.filter (fun q => tierOf q.1 != .none) ∧ t.poison = s.belowL2.poison ∧ t.ioBits 0x0808 0 1 = s.ioBits 0x0808 0 1 ∧
          t.ioBits 0x0808 16 16 = s.ioBits 0x0808 16 16
      else t.mem = s.mem.filter (fun q => tierOf q.1 == .host) ∧ t.poison = [] ∧ t.io = []) ∧
    (∃ t, exec .powerLoss s = .next t ∧ t.cores = [] ∧ t.mem = s.mem.filter (fun q => tierOf q.1 == .host) ∧ t.io = [] ∧ t.keys = [] ∧
      t.pkg = kept ∧ t.fatal = 0) ∧
    (∀ img : BootImage, s.pkg.stopped = false → s.pkg.stage < 4 →
      (good img (s.pkg.stage + 1) → ∃ t, exec (.bootImageVerify img) s = .next t ∧ started img (s.pkg.stage + 1) t) ∧
      (¬ good img (s.pkg.stage + 1) → ∃ t, exec (.bootImageVerify img) s = .next t ∧ t.pkg.stopped = true ∧ t.pkg.stage = s.pkg.stage ∧
        t.ioBits 0x0600 8 8 = s.pkg.stage + 1 ∧ 1 ≤ t.ioBits 0x0600 4 4 ∧ t.ioBits 0x0600 4 4 ≤ 5)) ∧
    (∀ n : BitVec 6, 4 ≤ s.pkg.stage → (∀ m < n.toNat, s.pkg.powered.getLsbD m = true) → ∃ t, exec (.clusterPowerUp n) s = .next t ∧
      ∀ m : Nat, t.pkg.powered.getLsbD m = (s.pkg.powered.getLsbD m || decide (m = n.toNat))) ∧
    -- the image that the mailbox names, in host memory as the host hands it over: d are the bytes that it has written there since
    (∀ d : List Byte,
     let len := s.pkg.mbox.len.toNat
     let a := 0xC000000000000 + s.pkg.mbox.addr.toNat
     let img := (s.hostHands d).mailImage
     (s.hostHands d).mem = writeMap s.mem a (d.take (min len (2 ^ 52 - a))) ∧
     img.readOk = true ∧ (len ≤ 64 * 2 ^ 20 + 3076 → img.bytes = (s.hostHands d).readPhys a len) ∧
     (s.pkg.stopped = true → s.pkg.mbox.run = 1 → s.pkg.stage < 4 →
       (good img (s.pkg.stage + 1) → ∃ t, exec (.bootFromHost d) s = .next t ∧ started img (s.pkg.stage + 1) t ∧ t.pkg.mbox.status = 0x20 ∧
         t.pkg.mbox.run = 0 ∧ t.ioBits 0x0600 3 1 = 1 ∧ t.ioBits 0x0600 4 4 = 0) ∧
       (¬ good img (s.pkg.stage + 1) → ∃ t, exec (.bootFromHost d) s = .next t ∧ t.pkg.stopped = true ∧ t.pkg.stage = s.pkg.stage ∧
         t.ioBits 0x0600 4 4 = 6 ∧ failed t)) ∧
     (s.pkg.stopped = true → s.pkg.mbox.run = 2 →
       let id := h img 4 1
       (1 ≤ id → id ≤ 4 → good img id → ∃ t, exec (.verifyAndWriteFlash d) s = .next t ∧ t.out = s.out ++ [(chFlash, img.bytes)] ∧ t.cores = [] ∧
         t.pkg.stage = 0 ∧ t.pkg.stopped = false ∧ t.pkg.svnMin = s.pkg.svnMin ∧ t.pkg.mbox = {}) ∧
       (¬ (1 ≤ id ∧ id ≤ 4 ∧ good img id) → ∃ t, exec (.verifyAndWriteFlash d) s = .next t ∧ t.pkg.stopped = true ∧ t.io = s.io ∧ failed t))) ∧
    -- a command that has not been accepted does not run
    (s.pkg.stopped = false ∨ s.pkg.mbox.run ≠ 1 → ∀ d, exec (.bootFromHost d) s = .next s) ∧
    (s.pkg.stopped = false ∨ s.pkg.mbox.run ≠ 2 → ∀ d, exec (.verifyAndWriteFlash d) s = .next s)

/-- R58, R59, R61, R62: a report holds the nonce, the measurements, the certified key and a signature by it; a key command sets BUSY,
and ends with VALID as its kind has it and, for a load, with the key of KEYDATA; the accesses that it held come next, and the OFT frames
whose turn has come. The prefix of the device's own messages is the model's (log 83), and so is that a request before the boot is done gets no
answer (log 78). -/
def Obligations.KeyAndAttestationResults : Prop :=
  ∀ s : State,
    let vend (u : State) (b : List Byte) : State :=
      { u with out := u.out ++ [(chMctp, [0x7F] ++ (bytesOf 4 Config.iana.toNat).reverse ++ b)] }
    (∀ nonce : BitVec 256,
      let meas := (List.range 8).flatMap fun i => bytesOf 64 (s.pkg.meas.getD i 0).toNat
      let body := bytesOf 32 nonce.toNat ++ meas ++ bytesOf 68 s.pkg.attKey.toNat ++ bytesOf 4 s.pkg.attCert ++ bytesOf 2820 s.pkg.attSig.toNat
      let sign := bytesOf 2500 (Config.attSign s.pkg.attKey s.pkg.attUsed body).toNat
      (4 ≤ s.pkg.stage → s.pkg.attUsed < 1024 →
        (s.ioGet 0x0608 = 0 → exec (.attestationRequest nonce) s = .next
          { (vend s ([0x03, 0x00] ++ body ++ sign)) with pkg := { s.pkg with attUsed := s.pkg.attUsed + 1 } }) ∧
        (s.ioGet 0x0608 ≠ 0 → exec (.attestationRequest nonce) s = .next (vend s [0x03, 0x05]))) ∧
      (4 ≤ s.pkg.stage → 1024 ≤ s.pkg.attUsed →
        (s.pkg.attIndex + 1 < 2 ^ 20 → s.ioGet 0x0608 = 0 → ∃ t, exec (.attestationRequest nonce) s = .next t ∧ t.pkg.attUsed = 1 ∧
          t.pkg.attIndex = s.pkg.attIndex + 1 ∧ t.pkg.attCert = s.pkg.attIndex ∧
          t.pkg.attSig = Config.identitySign s.pkg.attIndex (bytesOf 68 t.pkg.attKey.toNat ++ meas ++ bytesOf 4 s.pkg.attIndex)) ∧
        (2 ^ 20 ≤ s.pkg.attIndex + 1 → ∃ t, exec (.attestationRequest nonce) s = .next t ∧ t.ioGet 0x0608 = 1 ∧ t.out = (vend s [0x03, 0x05]).out)) ∧
      (s.pkg.stage < 4 → exec (.attestationRequest nonce) s = .next s)) ∧
    (∀ p ∈ ([(.keyLoad, 1), (.keyGen, 2), (.keyZero, 3)] : List ((BitVec 6 → Instr) × Nat)), ∀ k : BitVec 6,
      let r := 0x2000 + 16 * k.toNat
      ((s.ioGet r).getLsbD 7 = false → ∃ t, exec (p.1 k) s = .next t ∧
        (t.ioGet r).getLsbD 7 = true ∧ t.pkg.keyOp.get? k.toNat = some p.2 ∧ t.keys = s.keys) ∧
      ((s.ioGet r).getLsbD 7 = true → exec (p.1 k) s = .next s)) ∧
    (∀ (k : BitVec 6) (cmd : Nat),
      let r := 0x2000 + 16 * k.toNat
      s.pkg.keyOp.get? k.toNat = some cmd → s.keyInUse k.toNat = false →
      ∃ t, exec (.keyCommandComplete k) s = .next (t.oftDrain s.pkg.oftAhead.length) ∧ (s.pkg.oftAhead = [] → exec (.keyCommandComplete k) s = .next t) ∧
        (t.ioGet r).getLsbD 7 = false ∧ (t.ioGet r).getLsbD 6 = decide (cmd ≠ 3) ∧
        t.pkg.keyOp.get? k.toNat = none ∧ t.agenda = s.pkg.held ++ s.agenda ∧ t.pkg.held = [] ∧
        (∀ j : Nat, j ≠ k.toNat → t.keys.get? j = s.keys.get? j) ∧
        (cmd = 1 → t.keys.get? k.toNat = some (BitVec.ofNat 512 (natOf ((List.range 8).flatMap fun i => bytesOf 8 (s.ioGet (0x2400 + 8 * i)).toNat))) ∧
          ∀ i < 8, t.ioGet (0x2400 + 8 * i) = 0) ∧
        (cmd = 2 → (t.keys.get? k.toNat).isSome = true) ∧ (cmd = 3 → t.keys.get? k.toNat = none))

/-- R66 to R70: management messages and their answers. A cap is taken only when the package is ready, its key is locked, its MAC is
right, its SEQ is new and its SRC is known. The prefix of the device's own messages is the model's (log 83), and so is the order of
SRC after the other checks (log 35) and the U of the computation after a cap (log 80). -/
def Obligations.ManagementResults : Prop :=
  ∀ s : State,
    let said (u : State) (b : List Byte) : State := { u with out := u.out ++ [(chMctp, b)] }
    let vend (u : State) (b : List Byte) : State := said u ([0x7F] ++ (bytesOf 4 Config.iana.toNat).reverse ++ b)
    (∀ eid : BitVec 8, exec (.setEndpointId eid) s = .next (said { s with pkg := { s.pkg with eid := eid } } [0x00, 0x01, 0x00, eid])) ∧
    exec .getEndpointId s = .next (said s [0x00, 0x02, 0x00, s.pkg.eid]) ∧
    exec .getMessageTypeSupport s = .next (said s [0x00, 0x05, 0x00, 0x02, 0x00, 0x7F]) ∧
    (∀ a : BitVec 7, exec (.i3cDynamicAddressAssignment a) s = .next { s with pkg := { s.pkg with i3c := a } }) ∧
    (∀ m : BitVec 384,
      let src := bits m.toNat 8 8
      let lim := bits m.toNat 16 16
      let watts := if lim = 0 then 0 else max lim 400
      let seq := m.extractLsb' 64 64
      let key := (List.range 4).flatMap fun i => bytesOf 8 (s.ioGet (0x0720 + 8 * i)).toNat
      let mac := natOf (kmac256 key (bytesOf 16 m.toNat) [0x4F, 0x4C, 0x39, 0x20, 0x43, 0x41, 0x50])
      let fresh := ∀ q, s.pkg.capSeq = some q → q.toNat < seq.toNat
      let taken : State := { s with pkg := { s.pkg with
        capSeq := some seq, capHall := if src = 0 then watts else s.pkg.capHall, capHost := if src = 0 then s.pkg.capHost else watts } }
      (s.ioBits 0x0600 0 1 = 0 → exec (.cap m) s = .next (vend s [0x01, 0x03])) ∧
      (s.ioBits 0x0600 0 1 = 1 → s.ioBits 0x0718 0 1 = 0 → exec (.cap m) s = .next (vend s [0x01, 0x04])) ∧
      (s.ioBits 0x0600 0 1 = 1 → s.ioBits 0x0718 0 1 = 1 → bits m.toNat 128 256 ≠ mac → exec (.cap m) s = .next (vend s [0x01, 0x01])) ∧
      (s.ioBits 0x0600 0 1 = 1 → s.ioBits 0x0718 0 1 = 1 → bits m.toNat 128 256 = mac →
        (¬ fresh → exec (.cap m) s = .next (vend s [0x01, 0x02])) ∧
        (fresh → 1 < src → exec (.cap m) s = .next (vend s [0x01, 0x06])) ∧
        (fresh → src ≤ 1 → exec (.cap m) s = .next (vend (taken.recompute s.pkg.used) [0x01, 0x00])))) ∧
    exec .readTelemetry s = .next (vend { s with fresh := s.fresh + 1 } ([0x02] ++ bytesOf 16 (Config.telemetry s.fresh).toNat ++
      ((List.range 8).flatMap fun p => bytesOf 8 (s.ioGet (0x4180 + 8 * p)).toNat) ++ bytesOf 8 (s.ioGet 0x4008).toNat)) ∧
    exec .dumpStatus s = .next (vend s ([0x04] ++ bytesOf 4 (s.ioGet 0x0808).toNat)) ∧
    (∀ k : BitVec 8, exec (.alertAcknowledge k) s = .next (vend { s with pkg := { s.pkg with alerts := s.pkg.alerts.del k.toNat } } [0x05, 0x00]))

/-- R71 to R73: a package-fatal cause stops the package and begins the dump; a second error while READY is 1 is counted; the end of the
dump sets READY or, unsigned, FAILED; releasing it clears READY. -/
def Obligations.FatalAndDumpResults : Prop :=
  ∀ s : State,
    (∀ q ∈ ([(.rotWatchdogExpire, 0x20A#10), (.thermalTrip, 0x20B#10)] ++
        ([0x208#10, 0x209#10, 0x20A#10, 0x20B#10, 0x20C#10, 0x20D#10].map fun c => (Instr.packageFatal c, c)) : List (Instr × Cause)),
      s.fatal = 0 → ∃ t, exec q.1 s = .next t ∧ t.fatal = q.2 ∧ t.cores = s.cores ∧ t.mem = s.mem ∧
        (s.ioBits 0x0808 0 1 = 0 → t.pkg.dumping = true ∧ (s.pkg.dumping = true → t.pkg.dumpPartial = true)) ∧
        (s.ioBits 0x0808 0 1 = 1 → t.ioBits 0x0808 16 16 = min (s.ioBits 0x0808 16 16 + 1) 0xFFFF ∧ t.pkg = s.pkg)) ∧
    (s.pkg.dumping = true → ∃ t, exec .dumpWritten s = .next t ∧ t.pkg.dumping = false ∧ t.cores = s.cores ∧
      (t.ioBits 0x0808 0 1 = 1 ∨ t.ioBits 0x0808 1 1 = 1)) ∧
    (∃ t, exec .dumpRelease s = .next t ∧ t.ioBits 0x0808 0 1 = 0 ∧ ∀ i : Nat, i ≠ 0 → (t.ioGet 0x0808).getLsbD i = (s.ioGet 0x0808).getLsbD i)

/-- R15, R20, R25: port links, failover of a traffic pair, and the two bits that software uses. -/
def Obligations.PortResults : Prop :=
  ∀ (s : State) (port : BitVec 3),
    let o := 0x0480 + 8 * port.toNat
    let r := s.ioGet o
    let sets (i : Instr) (f : Nat → Bool) : Prop := ∃ t, exec i s = .next t ∧ (∀ j : Nat, j < 64 → (t.ioGet o).getLsbD j = f j) ∧
      (∀ p : Nat, p ≠ o → t.ioGet p = s.ioGet p) ∧ t.cores = s.cores ∧ t.mem = s.mem ∧ t.pkg = s.pkg
    sets (.portLinkDown port) (fun j => if j = 6 then r.getLsbD 6 || r.getLsbD 4 else if 2 ≤ j ∧ j ≤ 4 then false else r.getLsbD j) ∧
    (∀ full : Bool, r.getLsbD 0 = true → sets (.portLinkUp port full) (fun j =>
      if j = 4 then true else if j = 2 then !(full && !r.getLsbD 1) else if j = 3 then full && !r.getLsbD 1 else r.getLsbD j)) ∧
    sets (.portStatClr port) (fun j => if 16 ≤ j ∧ j < 32 then false else r.getLsbD j) ∧
    sets (.portDisable port) (fun j => if j = 0 then false else if j = 6 then r.getLsbD 6 || r.getLsbD 4 else if 2 ≤ j ∧ j ≤ 4 then false else r.getLsbD j) ∧
    (∀ (node : BitVec 12) (cls : BitVec 4) (p : Nat), s.pkg.portOf.get? (node.toNat * 16 + cls.toNat) = some p → s.portUp p = false →
      r.getLsbD 0 = true → r.getLsbD 4 = true → Config.portReaches node.toNat port.toNat = true →
      -- no command is outstanding on the pair, of a chunk that has ended either
      (∀ q ∈ s.cores, ∀ k ∈ q.2.cmds, k.isNet = true → k.sent = true → dNode k.desc = node.toNat → k.cls ≠ cls.toNat) →
      (∀ q ∈ s.pkg.loose, q.2.isNet = true → q.2.sent = true → dNode q.2.desc = node.toNat → q.2.cls ≠ cls.toNat) →
      exec (.portFailover node cls port) s = .next { s with pkg := { s.pkg with portOf := s.pkg.portOf.ins (node.toNat * 16 + cls.toNat) port.toNat } })

/-- R16 to R22, R24, R438: what a port does with a frame. One under another EtherType or with more than 4,096 payload bytes is dropped
and counted, a duplicate is discarded, one that comes before its turn in its stream waits for it. A put or get outside its window is
refused, and its command's later frames do nothing; else its elements are written or read one after the other, each byte with its own
poison, and those before one that fails stand (R415); an answer ends the command that it belongs to. The model's own are: the contents of the
device's frames and their numbering within a stream (log 32), the port by which an answer leaves (log 108), that no frame leaves before LOCK
(log 66), and that 0x285 comes before 0x280 and 0x281 (log 67).
R18 to R21: the increment that a put names, or its discard, those of a stream in their order; a lost frame is sent again; a command
without an answer fails. -/
def Obligations.FrameResults : Prop :=
  -- a frame leaves only once the node id is locked, under OFT_ETYPE, with the next number of its stream
  (∀ (s : State) (kind port core cls cmd node win esz off count : Nat) (data : List (Byte × Bool)),
    s.oftSend kind port core cls cmd node win esz off count data =
      let q := oftStream node core cls (decide (4 ≤ kind))
      let num := s.pkg.oftSent.getD q 0
      if (s.ioGet 0x0400).getLsbD 12 then
        { s with
          out := s.out ++ [(chOft, oftMessage kind (s.ioBits 0x0410 0 16) port (s.ioBits 0x0400 0 12) num core cls cmd node win esz off count data)]
          pkg := { s.pkg with oftSent := s.pkg.oftSent.put 0 q (num + 1) } }
      else s) ∧
  (∀ (s : State) (port : BitVec 3) (f : OftFrame), s.portUp port.toNat = true →
    let o := 0x0480 + 8 * port.toNat
    let st := frameStream f
    let turn := s.pkg.oftNext.getD st 0
    let got (t : State) : Prop := exec (.oftFrameReceive port (.frame f)) s = .next t
    let large : Bool := match f.body with
      | .put _ _ d _ _ _ _ => decide (4096 < d.length) | .getResp d _ _ => decide (4096 < d.length) | _ => false
    let answer (t : State) (kind : Nat) (last : Bool) (c : Cause) (data : List (Byte × Bool)) : State :=
      t.oftSend kind port.toNat f.core.toNat f.cls.toNat f.cmd f.src.toNat (if last then 128 else 0) 0 c.toNat data.length data
    (∃ t, exec (.oftFrameReceive port .garbled) s = .next t ∧ (t.ioGet o).getLsbD 5 = true) ∧
    (f.etype.toNat ≠ s.ioBits 0x0410 0 16 ∨ large = true → ∃ t, got t ∧ t.ioBits o 16 16 = min (s.ioBits o 16 16 + 1) 65535 ∧ t.mem = s.mem ∧ t.cores = s.cores) ∧
    (f.etype.toNat = s.ioBits 0x0410 0 16 → large = false →
      let wait : State := { s with pkg := { s.pkg with oftAhead := s.pkg.oftAhead ++ [(port, f)] } }
      (f.num < turn ∨ (∃ q ∈ s.pkg.oftAhead, frameStream q.2 = st ∧ q.2.num = f.num) → got s) ∧
      (turn ≤ f.num → (∀ q ∈ s.pkg.oftAhead, frameStream q.2 = st → q.2.num ≠ f.num) → got (wait.oftDrain (s.pkg.oftAhead.length + 1))) ∧
      -- before its turn, or while a key command holds its pages, it stays
      (s.pkg.oftAhead = [] → turn < f.num ∨ (turn = f.num ∧ wait.frameHeld f = true) → got wait) ∧
      (s.pkg.oftAhead = [] → f.num = turn → wait.frameHeld f = false →
        let r : State := { s with pkg := { s.pkg with oftNext := s.pkg.oftNext.put 0 st (f.num + 1) } }
        let u := r.settleIncs f
        let gone : Prop := u.pkg.oftFailed.get? st = some f.cmd
        let failed (t : State) (c : Cause) : State :=
          answer { t with pkg := { t.pkg with oftFailed := t.pkg.oftFailed.ins st f.cmd } } 6 true c []
        let base (win : BitVec 6) := u.ioGet (0x0C00 + 16 * win.toNat)
        let size (win : BitVec 6) := u.ioBits (0x0C08 + 16 * win.toNat) 0 32 * 65536
        let ctx (win : BitVec 6) := bits (base win).toNat 58 6
        let at' (win : BitVec 6) (off : Nat) := bits (base win).toNat 16 36 * 65536 + off
        (∀ win off data poison esz last post, f.body = .put win off data poison esz last post →
          let far : Prop := ∃ c fl, post = some (c, fl) ∧ 255 < c.toNat
          let e := 2 ^ esz.toNat
          (gone → got u) ∧
          (¬ gone → far → got (failed u 0x285#10)) ∧
          (¬ gone → ¬ far → (base win).getLsbD 0 = false → got (failed u 0x280#10)) ∧
          (¬ gone → ¬ far → (base win).getLsbD 0 = true → (base win).getLsbD 2 = false → got (failed u 0x281#10)) ∧
          -- its first element ends outside the window, or does not translate: nothing is written
          (¬ gone → ¬ far → (base win).getLsbD 0 = true → (base win).getLsbD 2 = true → 0 < data.length →
            (size win < off + min data.length e → got (failed u 0x281#10)) ∧
            (∀ x t, off + min data.length e ≤ size win → u.xlate ⟨ctx win, false, 266⟩ .store (at' win off) (min data.length e) = (.error x, t) →
              got (failed t 0x281#10))) ∧
          -- the elements before the first that fails are written, each byte with its own poison, up to the first store that fails
          (∀ c cx ps t bad w, ¬ gone → ¬ far → u.window win.toNat off data.length e true = ((c, cx, ps), t) →
            (joinRuns (ps.map fun p => (p.pa, p.key, ((withPoison data poison).drop p.off).take p.n))).foldl (fun (q : Cause × State) x =>
              if q.1 ≠ 0 then q else q.2.engineStore ⟨1000, cx, false⟩ x) (0, t) = (bad, w) →
            (bad ≠ 0 → got (failed w bad)) ∧
            (bad = 0 → c ≠ 0 → got (failed w c)) ∧
            (bad = 0 → c = 0 → last = false → got w) ∧
            (bad = 0 → c = 0 → last = true → post = none → got (answer w 5 true 0 [])) ∧
            (bad = 0 → c = 0 → last = true → ∀ c fl, post = some (c, fl) → got { w with pkg := { w.pkg with
              incs := w.pkg.incs ++ [⟨cx, c.toNat, fl.toNat, port.toNat, f.src.toNat, f.core.toNat, f.cls.toNat, f.cmd⟩] } }))) ∧
        (∀ win off n esz last, f.body = .get win off n esz last →
          let e := 2 ^ esz.toNat
          (gone → got u) ∧
          (¬ gone → (base win).getLsbD 0 = false → got (failed u 0x280#10)) ∧
          (¬ gone → (base win).getLsbD 0 = true → (base win).getLsbD 1 = false → got (failed u 0x281#10)) ∧
          (¬ gone → (base win).getLsbD 0 = true → (base win).getLsbD 1 = true → 0 < n →
            (size win < off + min n e → got (failed u 0x281#10)) ∧
            (∀ x t, off + min n e ≤ size win → u.xlate ⟨ctx win, false, 266⟩ .load (at' win off) (min n e) = (.error x, t) → got (failed t 0x281#10))) ∧
          (∀ c cx ps t bad data w, ¬ gone → u.window win.toNat off n e false = ((c, cx, ps), t) →
            -- piece by piece: poison goes with the bytes; a read without bytes has failed
            ps.foldl (fun (q : (Cause × List (Byte × Bool)) × State) p =>
              if q.1.1 ≠ 0 then q
              else
                let r := q.2.fetchData ⟨1000, cx, false⟩ p.pa p.n p.key 2
                if r.1.2.isEmpty then ((r.1.1, q.1.2), r.2) else ((0, q.1.2 ++ r.1.2.map fun b => (b, r.1.1 != 0)), r.2)) ((0, []), t) = ((bad, data), w) →
            let cause := if bad ≠ 0 then bad else c
            -- the bytes before a failure come back before it
            (cause ≠ 0 → data = [] → got (failed w cause)) ∧
            (cause ≠ 0 → data ≠ [] → data.length ≤ 4096 → got (failed (answer w 4 false 0 data) cause)) ∧
            -- a long run comes in frames of 4,096
            (cause = 0 → data.length ≤ 4096 → got (answer w 4 last 0 data)) ∧
            (cause = 0 → 4096 < data.length → data.length ≤ 8192 → got (answer (answer w 4 false 0 (data.take 4096)) 4 last 0 (data.drop 4096))))) ∧
        (∀ k, r.netCmd f.core.toNat f.cls.toNat f.src.toNat f.cmd = some k →
          (f.body = .ack → k.isPut = true → got (r.endCmd f.core.toNat k 0 0 0)) ∧
          -- a failed get has its bytes from before the failure
          (∀ c, f.body = .nak c → got (if k.isPut then r.endCmd f.core.toNat k c 0 0 else r.getDone f.core.toNat k c)) ∧
          (∀ data poison last, f.body = .getResp data poison last → k.isPut = false →
            let k' := { k with src := k.src ++ withPoison data poison }
            let spoilt : Prop := ∃ i < data.length, poison.testBit i = true
            (last = true ∨ spoilt → got (r.getDone f.core.toNat k' 0)) ∧
            (last = false → ¬ spoilt → got (r.modCore f.core.toNat fun c => { c with cmds := c.cmds.map fun x => if x.seq = k.seq then k' else x })))) ∧
        (r.netCmd f.core.toNat f.cls.toNat f.src.toNat f.cmd = none →
          (f.body = .ack ∨ (∃ c, f.body = .nak c) → got { r with pkg := { r.pkg with
            loose := r.pkg.loose.filter fun q => !(q.1 == f.core.toNat && q.2.seq == f.cmd) } }) ∧
          ((∃ d p l, f.body = .getResp d p l) → got r))))) ∧
  -- an answer belongs to the sent command of that number, class and node
  (∀ (s : State) (core cls node cmd : Nat) (k : Cmd), s.netCmd core cls node cmd = some k →
    k ∈ (s.core core).cmds ∧ k.isNet = true ∧ k.sent = true ∧ k.seq = cmd ∧ k.cls = cls ∧ dNode k.desc = node) ∧
  (∀ (s : State) (k : Nat),
    (∀ i, s.pkg.incs[k]? = some i → (∀ j ∈ s.pkg.incs.take k, j.src = i.src → j.from' = i.from' → j.cls ≠ i.cls) →
      let u : State := { s with pkg := { s.pkg with incs := s.pkg.incs.eraseIdx k } }
      let told (t : State) (kind c : Nat) : State := t.oftSend kind i.port i.from' i.cls i.cmd i.src 0 0 c 0 []
      (isCtl i.core = false → i.ctx < 64 → ∀ q, (s.core i.core).chunk = some q → q.ctx = i.ctx →
        exec (.oftPutFlagIncrement k) s = .next (told (u.modCore i.core fun c => c.flagForeign i.flag 1) 5 0)) ∧
      (isCtl i.core = false → i.ctx < 64 → (s.core i.core).chunk = none → (s.core i.core).resident = [] →
        exec (.oftPutFlagIncrement k) s = .next (told (u.dropPost i.ctx) 6 0x287))) ∧
    (∀ i j, s.pkg.incs[k]? = some i → j ∈ s.pkg.incs.take k → j.src = i.src → j.from' = i.from' → j.cls = i.cls →
      exec (.oftPutFlagIncrement k) s = .next s) ∧
    (∀ b, s.out[k]? = some (chOft, b) →
      ((s.ioGet 0x0400).getLsbD 12 = true → exec (.oftRetransmit k) s = .next { s with out := s.out ++ [(chOft, b)] }) ∧
      ((s.ioGet 0x0400).getLsbD 12 = false → exec (.oftRetransmit k) s = .next s)) ∧
    (let sent := s.cores.flatMap fun q => (q.2.cmds.filter fun c => c.isNet && c.sent).map fun c => (q.1, c)
     (∀ core c, sent[k]? = some (core, c) →
       exec (.oftAckTimeout k) s = .next (if c.isPut then s.endCmd core c 0x282#10 0 0 else s.getDone core c 0x282#10)) ∧
     (sent[k]? = none → exec (.oftAckTimeout k) s = .next { s with pkg := { s.pkg with loose := s.pkg.loose.eraseIdx (k - sent.length) } })))

/-- R28 to R31, R36, R37, R62, R65: host reads and writes of HBM and tier 2, lines held on either side, link changes, host accesses that
time out, and a stream's HEAD. The base of the HDM decoder and reads of tier 2 in the clear are the model's (log 68), and so is HEAD
after a read that fails (log 102). -/
def Obligations.HostPortResults : Prop :=
  ∀ s : State,
    (∀ (pa : BitVec 52) (n : Nat), s.pkg.hostUp = true →
      let a := (pa - s.pkg.hdmBase).toNat
      let got (t : State) : Prop := exec (.hostMemRead pa n) s = .next t
      let serve (k : Nat) : Prop :=
        (s.pkg.keyOp.has k = true → got { s with pkg := { s.pkg with held := s.pkg.held ++ [.hostMemRead pa n] } }) ∧
        (s.pkg.keyOp.has k = false → ∀ bad b u, s.hostRead a n (s.keyOf k) = ((bad, b), u) → b.length = n ∧
          got { u with
            out := u.out ++ [(chHost, bytesOf 8 a ++ bytesOf 1 (if bad then 1 else 0) ++ b)]
            pkg := { u.pkg with hostHeld := (linesOf a n).foldl (fun m l => m.ins l ()) u.pkg.hostHeld } })
      (tierOf a = .hbm → tierOf (a + n - 1) = .hbm →
        -- the dump granule is read as it stands, without the table
        (s.inDump a = true → serve 64) ∧
        (s.inDump a = false → s.hostSlot a = none → got { s with out := s.out ++ [(chHost, bytesOf 8 a ++ bytesOf 1 1 ++ List.replicate n 0)] }) ∧
        (s.inDump a = false → ∀ k, s.hostSlot a = some k → serve k)) ∧
      (tierOf a = .tier2 → tierOf (a + n - 1) = .tier2 → serve 64)) ∧
    (∀ (pa : BitVec 52) (data : List Byte), s.pkg.hostUp = true →
      let a := (pa - s.pkg.hdmBase).toNat
      tierOf a = .hbm → tierOf (a + data.length - 1) = .hbm →
      (s.hostSlot a = none → ∃ t, exec (.hostMemWrite pa data) s = .next t ∧ t.mem = s.mem ∧
        t.ioBits 0x0610 0 16 = min (s.ioBits 0x0610 0 16 + 1) 65535) ∧
      (∀ k, s.hostSlot a = some k →
        (s.pkg.keyOp.has k = true → exec (.hostMemWrite pa data) s = .next { s with pkg := { s.pkg with held := s.pkg.held ++ [.hostMemWrite pa data] } }) ∧
        (s.pkg.keyOp.has k = false → ∃ t, exec (.hostMemWrite pa data) s = .next t ∧ t.readPhys a data.length = data))) ∧
    (∀ line : BitVec 46,
      let u : State := { s with pkg := { s.pkg with hostHeld := s.pkg.hostHeld.del line.toNat, snooped := s.pkg.snooped.del line.toNat } }
      let here (f : Flight) : Prop := f.rel.piece = some (2 * line.toNat) ∨ f.rel.piece = some (2 * line.toNat + 1)
      ((∀ f ∈ s.flight, ¬ here f) → exec (.backInvalidateResponse line) s = .next u) ∧
      (∀ k f, s.flight[k]? = some f → here f → (∀ j g, j < k → s.flight[j]? = some g → ¬ here g) → u.flightReady k = true →
        exec (.backInvalidateResponse line) s = .next ((u.dropFlight k).performRel f))) ∧
    (∀ line : BitVec 46, ∃ t, exec (.hostSnoop line) s = .next t ∧ t.pkg.hostCache.has line.toNat = false ∧ t.mem = s.mem ∧
      ∀ c, ∀ w ∈ (t.core c).watches, w.pa / 64 = line.toNat → w.asleep = false) ∧
    (∀ (line : BitVec 46) (excl : Bool) (data : List Byte), s.pkg.hostUp = true → tierOf (line.toNat * 64) = .host → data.length = 64 →
      ∃ t, exec (.hostLineCacheFill line excl data) s = .next t ∧ t.readPhys (line.toNat * 64) 64 = data ∧ t.pkg.hostCache.get? line.toNat = some excl ∧
        (∀ c, ∀ w ∈ (t.core c).watches, w.pa / 64 = line.toNat → w.asleep = false) ∧
        (s.pkg.hostCache.length ≤ 4096 → t.pkg.hostCache.length ≤ 4096)) ∧
    -- an access of any kind to host memory can time out
    (∀ core k a, (s.hostAccesses core)[k]? = some a →
      exec (.hostAccessTimeout core k) s = .next (s.hostFail core 0x240#10 a) ∧
      (∀ l, a = .load l → l.arr = none →
        let old := (s.core core).arch.tokOf l.tok
        let t := s.hostFail core 0x240#10 a
        (t.core core).loads = (s.core core).loads.filter (fun x => x.seq != l.seq) ∧
          (t.core core).arch.tokOf l.tok = { cnt := old.cnt - 1, cause := if old.cause = 0 then 0x240#10 else old.cause }) ∧
      (∀ c, a = .cmd c → s.hostFail core 0x240#10 a = s.endCmd core c 0x240#10 0 0) ∧
      (∀ w, a = .watch w → ∀ x ∈ ((s.hostFail core 0x240#10 a).core core).watches, x.seq = w.seq → x.asleep = false ∧ x.cause = 0x240#10) ∧
      (∀ p, a = .atom p → s.hostFail core 0x240#10 a = s.finishAtom core { p with cause := 0x240#10 })) ∧
    -- beyond those, the next access that the core makes within a step (log 92)
    (∀ core k, (s.hostAccesses core)[k]? = none → core < 264 →
      exec (.hostAccessTimeout core k) s = .next (s.modCore core fun c => { c with hostSlow := true })) ∧
    (∀ (g : Agent) (pa n key u : Nat), tierOf pa = .host → s.pkg.hostUp = true → g.id < 264 → (s.core g.id).hostSlow = true →
      s.fetchData g pa n key u = ((0x240#10, []), s.modCore g.id fun c => { c with hostSlow := false })) ∧
    (∃ t, exec .hostLinkDown s = .next t ∧ t.pkg.hostUp = false ∧ t.pkg.hostCache = [] ∧ t.pkg.hostHeld = [] ∧
      (∀ c, ∀ l ∈ (t.core c).loads, ∀ p ∈ l.pieces, tierOf p.pa ≠ .host) ∧
      (∀ c, ∀ w ∈ (t.core c).watches, tierOf w.pa = .host → w.asleep = false ∧ w.cause = 0x244#10)) ∧
    (∀ (width : BitVec 5) (rate : BitVec 8), width.toNat ∈ [16, 8, 4] → rate.toNat ∈ [128, 64, 32] →
      exec (.hostLinkTrain width rate) s = .next { s with pkg := { s.pkg with hostUp := true, hostWidth := width, hostRate := rate } }) ∧
    (∀ (n : BitVec 6) (c : Cause) (b : List Byte) (t : State),
      let u := s.ioField (0x1008 + 16 * n.toNat) 14 1 1
      let base := s.ioBits (0x1000 + 16 * n.toNat) 7 45 * 128 + if (s.ioGet (0x1008 + 16 * n.toNat)).getLsbD 13 then 0xC000000000000 else 0
      (s.ioGet (0x1008 + 16 * n.toNat)).getLsbD 14 = false →
      u.fetchData ⟨256, 64, true⟩ (base + 0x40) 8 64 2 = ((c, b), t) →
      exec (.streamEnable n) s = .next { t with pkg := { t.pkg with streamHead := t.pkg.streamHead.ins n.toNat (BitVec.ofNat 64 (natOf b)) } })

/-- R43 to R48: isolation of the expander port, its end and the sweep after it, training, link changes, a returned line. That RETRAIN is
ignored while EN is 0 is the model's (log 74). -/
def Obligations.ExpanderResults : Prop :=
  ∀ s : State,
    let c := s.ioGet 0x0508
    (c.getLsbD 0 = false → ∃ t, exec .expPortIsolate s = .next t ∧ (t.ioGet 0x0508).getLsbD 0 = true ∧
      (chMsi, bytesOf 2 250) ∈ t.out ∧ t.pkg.alerts.has 3 = true) ∧
    (c.getLsbD 1 = true → c.getLsbD 0 = true → ∃ t, exec .expIsolationEnd s = .next t ∧ (t.ioGet 0x0508).getLsbD 0 = false ∧
      t.ioBits 0x0508 16 16 = 0 ∧ t.pkg.sweep = true) ∧
    -- what isolation poisoned shows what stands below again, that sector's own poison included
    (s.pkg.sweep = true → (s.isoPoison.map Prod.fst).Nodup → ∃ t, exec .expPoisonSweepDone s = .next t ∧ t.pkg.sweep = false ∧ t.isoPoison = [] ∧
      (∀ q ∈ s.isoPoison, t.poison.has q.1 = s.backPoison.has q.1) ∧
      ∀ k : Nat, s.isoPoison.has k = false → t.poison.has k = s.poison.has k) ∧
    ((s.ioGet 0x0500).getLsbD 0 = false → exec .expRetrain s = .next s) ∧
    ((s.ioGet 0x0500).getLsbD 0 = true → ∃ t, exec .expRetrain s = .next t ∧ (t.ioGet 0x0500).getLsbD 1 = true ∧ t.ioBits 0x0508 1 3 = 0) ∧
    (∀ (speed : BitVec 2) (cap : Nat), (s.ioGet 0x0500).getLsbD 0 = true → speed ≠ 0 → ∃ t, exec (.expLinkChange true speed cap) s = .next t ∧
      (t.ioGet 0x0500).getLsbD 1 = false ∧ (t.ioGet 0x0508).getLsbD 1 = true ∧ t.ioBits 0x0508 2 2 = speed.toNat ∧ t.expCap = min cap (2 ^ 42)) ∧
    (∀ (speed : BitVec 2) (cap : Nat), ∃ t, exec (.expLinkChange false speed cap) s = .next t ∧ t.ioBits 0x0508 1 3 = 0 ∧ t.expCap = s.expCap) ∧
    (∀ pa : BitVec 52, let l := pa.toNat / 64
      tierOf (l * 64) = .tier2 → c.getLsbD 1 = true → c.getLsbD 0 = false → s.pkg.sweep = false →
      let u := s.l2Read (l * 64) 64 (s.lineReader l).1 (s.lineReader l).2 2
      let held (i : Nat) : Bool := (s.lineOf l).any fun q => q.2.valid.getLsbD i
      exec (.tier2ReadResponse pa false) s = .next u ∧
      -- poison reaches the sectors that L2 did not hold, and no other
      ∃ t, exec (.tier2ReadResponse pa true) s = .next t ∧ t.mem = u.mem ∧ t.l2 = u.l2 ∧
        (∀ i < 2, t.poison.has (2 * l + i) = (u.poison.has (2 * l + i) || !held i)) ∧
        (∀ k : Nat, k / 2 ≠ l → t.poison.has k = u.poison.has k) ∧
        -- a fill of poison is recorded
        (held 0 = false ∨ held 1 = false → ∃ r, t.recq = u.recq ++ [r] ∧ r.body.head? = some 0x07))

/-- R78 to R80, R89 to R97: the end of a settling window, rail and thermal limits, and the computation of grants. That the steps of a
rail and of a die's heat move one ceiling is the model's (log 79), and so is that a ceiling which changes in a hardware window waits for its
end (log 95), that one hardware window serves a request and a ceiling which both move the point there (log 111), and that PART_GRANT of a
disabled partition keeps its value (log 99). -/
def Obligations.PowerResults : Prop :=
  ∀ s : State,
    -- a window ends: with nothing waiting the core runs at the point asked for; else the request kept and the ceiling that waits take effect,
    -- in a program window where the request alone moves the point
    (∀ core, let c := s.core core
      (c.opPwin || c.opHwin) = true → ∃ t, exec (.settlingWindowEnd core) s = .next t ∧
      (c.opKept = none → c.opWait = none → c.opReq = c.opEff → c.opReq.toNat ≤ c.opCeil.toNat →
        (t.core core).opPwin = false ∧ (t.core core).opHwin = false ∧ (t.core core).mhz = Config.stand core c.opEff.toNat) ∧
      (∀ w, c.opWait = some w → (t.core core).opCeil = w ∧ (t.core core).opWait = none) ∧
      (∀ w, c.opWait = some w → w.toNat < c.opEff.toNat → w.toNat ≤ (c.opKept.getD c.opReq).toNat →
        (t.core core).opEff = w ∧ (t.core core).opHwin = true ∧ (t.core core).opReq = c.opKept.getD c.opReq ∧ (t.core core).opKept = none) ∧
      (∀ p, c.opKept = some p → c.opWait = none → c.opReq = c.opEff → c.opReq.toNat ≤ c.opCeil.toNat → p.toNat ≤ c.opCeil.toNat → p ≠ c.opEff →
        (t.core core).opEff = p ∧ (t.core core).opPwin = true ∧ (t.core core).opKept = none) ∧
      (∀ p w, c.opKept = some p → c.opWait = some w →
        let low (x : BitVec 3) : BitVec 3 := if x.toNat ≤ w.toNat then x else w
        low p ≠ c.opEff → (t.core core).opEff = low p ∧
          ((t.core core).opPwin, (t.core core).opHwin) = (if low c.opReq = c.opEff then (true, false) else (false, true)))) ∧
    (∀ rail : BitVec 3, rail.toNat < 7 →
      (∃ t, exec (.railOvercurrent rail) s = .next t ∧ t.pkg.railOver.has rail.toNat = true ∧
        ∀ c ∈ railCores rail.toNat, t.energyHeld c = true) ∧
      (s.pkg.railOver.has rail.toNat = true →
        exec (.railCeilingLowerStep ⟨rail, true⟩) s = .next (s.ceilingStep (railCores rail.toNat) true 1) ∧
        exec (.railCeilingLowerStep ⟨rail, false⟩) s = .next { s with pkg := { s.pkg with railOver := s.pkg.railOver.del rail.toNat } } ∧
        exec (.railCeilingRaiseStep rail) s = .next s) ∧
      (s.pkg.railOver.has rail.toNat = false →
        exec (.railCeilingRaiseStep rail) s = .next (s.ceilingStep (railCores rail.toNat) false 1) ∧
        ∀ high, exec (.railCeilingLowerStep ⟨rail, high⟩) s = .next s) ∧
      (let o := 0x4040 + 8 * rail.toNat
       0 < s.ioBits o 32 8 → ∃ t, exec (.phaseFail rail) s = .next t ∧ t.ioBits o 32 8 = s.ioBits o 32 8 - 1 ∧
         t.ioBits o 16 16 = s.ioBits o 0 16 * (s.ioBits o 32 8 - 1) / s.ioBits o 40 8 % 65536 ∧
         (t.ioGet 0x4008).getLsbD rail.toNat = true ∧ (t.ioGet 0x4008).getLsbD (8 + rail.toNat) = true ∧
         ∀ c ∈ railCores rail.toNat, (t.core c).svc.notices.getLsbD 1 = true)) ∧
    -- control cores move together, by one point of the ceiling last asked for; none below 0 or above 7
    (∀ lower : Bool, s.ceilingStep ((List.range 8).map (256 + ·)) lower 1 = (List.range 8).foldl (fun u i =>
      let c := (u.core (256 + i)).opWait.getD (u.core (256 + i)).opCeil
      if c = (if lower then 0 else 7) then u else u.modCore (256 + i) fun k => k.opLimit (256 + i) (if lower then c - 1 else c + 1)) s) ∧
    (∀ (die : BitVec 2) (temp : BitVec 8),
      let u : State := ({ s with pkg := { s.pkg with dieTemp := s.pkg.dieTemp.put 0 die.toNat temp } } : State)
      let v := u.ioField 0x4018 24 8 (u.pkg.dieTemp.foldl (fun t q => max t q.2.toNat) 0)
      let throt := v.ioBits 0x4018 0 8
      let trip := v.ioBits 0x4018 16 8
      (trip ≤ temp.toNat → exec (.thermalCeilingStep die temp) s = .next (v.packageFatal 0x20B#10)) ∧
      (temp.toNat < trip →
        (throt < temp.toNat → exec (.thermalCeilingStep die temp) s = .next (v.ceilingStep (railCores die.toNat) true 2)) ∧
        (temp.toNat + 3 ≤ throt → exec (.thermalCeilingStep die temp) s = .next (v.ceilingStep (railCores die.toNat) false 2)) ∧
        (temp.toNat ≤ throt → throt < temp.toNat + 3 → exec (.thermalCeilingStep die temp) s = .next v))) ∧
    (∀ used : Nat, ∃ t, exec (.grantRecompute used) s = .next t ∧ t.pkg.granted = true ∧ t.pkg.used = used ∧
      (∀ p, p < 8 → s.partEn p = false → t.ioGet (0x4140 + 8 * p) = s.ioGet (0x4140 + 8 * p)) ∧
      (s.limit ≤ used → ∀ p, p < 8 → s.partEn p = true → t.ioBits (0x4140 + 8 * p) 0 12 = 0))

/-- R101, R116 to R118: the flat number of a tile gives each spatial level its index, the last level fastest, and each T level its bound.
R102, R103, R106, R107, R109 to R111: a placement queues the chunks that the split gives, or reserves the participants of a gang; a
chunk begins at its kernel's entry with its first tile; a core that has finished takes a tail tile or becomes idle. The model's own are: that
PHASE reads 0 from placement on (log 100), which unsaved chunk stays so (log 114), and that stash bytes which cannot go back keep the chunk (log 106). -/
def Obligations.DistributorResults : Prop :=
  (∀ (l : Launch) (flat : Nat), l.kernel.kinds.length = l.bounds.length → (∀ b ∈ l.bounds, 0 < b) →
    (l.levelRegs flat).length = l.bounds.length ∧ (∀ i : Nat, l.kernel.kinds[i]? = some 2 → (l.levelRegs flat)[i]? = l.bounds[i]?) ∧
    ((∀ k ∈ l.kernel.kinds, k ≠ 2) → (∀ q ∈ (l.levelRegs flat).zip l.bounds, q.1 < q.2) ∧
      (flat < product l.bounds → ((l.bounds.zip (l.levelRegs flat)).foldl (fun x q => x * q.1 + q.2) 0) = flat))) ∧
  (∀ s : State,
    let entered (t : State) (core : Nat) (l : Launch) (flat : Nat) : Prop :=
      (t.core core).run = .running ∧ (t.core core).pc = l.kernel.entry ∧ (t.core core).seg.ckaddr = l.kernel.entry ∧ (t.core core).seg.count = 0 ∧
      (∀ i < 6, (t.core core).rS (24 + i) = BitVec.ofNat 64 ((l.levelRegs flat).getD i 0)) ∧ (t.core core).rS 30 = l.arga ∧ (t.core core).rS 31 = l.argb
    (∀ l round, s.choose = some (l, round) → l.ctx < 64 →
      -- at the end of a round every other context has its SHARE again
      (round = true → ∃ t, exec .placementDecision s = .next t ∧ ∀ n < 64, n ≠ l.ctx → t.pkg.credits.getD n 0 = s.shareOf n) ∧
      (l.gang = false → ∃ t, exec .placementDecision s = .next t ∧ t.pkg.credits.getD l.ctx 0 = (if round then s.shareOf l.ctx else s.pkg.credits.getD l.ctx 1) - 1 ∧
        (∀ q ∈ (s.splitLaunch l).1, ∃ k ∈ (t.core q.1).queue, k.launch = l.id ∧ k.lo = q.2.1 ∧ k.hi = q.2.2 ∧ k.started = false) ∧
        ∀ k ∈ t.pkg.launches, k.id = l.id → k.placed = true ∧ k.tails = (s.splitLaunch l).2) ∧
      (l.gang = true → ∃ t, exec .placementDecision s = .next t ∧ (∀ q ∈ (s.splitLaunch l).1, (t.core q.1).reserved = some (1000 + l.id)) ∧
        (∀ g ∈ s.barsOf l.ctx, t.pkg.bars.get? g = some ⟨l.id, (s.splitLaunch l).1.map Prod.fst, 0, []⟩ ∧ t.barPhase g = 0) ∧
        ∀ k ∈ t.pkg.launches, k.id = l.id → k.placed = true ∧ k.members = (s.splitLaunch l).1)) ∧
    (∀ core k l, (s.core core).nextChunk = some k → (s.core core).chunk = none → (s.core core).reserved = none → (s.core core).run = .idle →
      k.started = false → core < 256 → s.launchOf k.launch = some l →
      -- the banks of its switched-out chunks are saved where its kernel's overlap them
      (∀ r ∈ (s.core core).resident, r.savedMask ≠ 0 ∨ r.kernel.bmask &&& l.kernel.bmask = 0) →
      -- and no more than one stands unsaved
      ((s.core core).resident.filter fun r => decide (r.savedMask = 0 ∧ r.kernel.bmask ≠ 0)).length ≤ 1 → ∃ t, exec (.chunkStart core) s = .next t ∧ entered t core l k.lo ∧
        (t.core core).chunk = some { k with root := core, cur := k.lo, next := k.lo + 1, started := true } ∧ (t.core core).queue = (s.core core).queue.erase k ∧
        (∀ r < 24, (t.core core).rS r = 0) ∧ (∀ r, (t.core core).rX r = 0) ∧ (∀ r, (t.core core).rV r = 0) ∧ (t.core core).tiles = [] ∧ (t.core core).wins = (s.core core).wins) ∧
    (∀ core k, (s.core core).chunk = some k → (s.core core).run = .idle → (s.core core).draining = false →
      (∀ l p, s.launchOf k.launch = some l → k.forked = none → l.status = none → l.tails.find? (fun t => t.1.contains core && decide (t.2.1 < t.2.2)) = some p →
        ∃ t, exec (.tailTileRequest core) s = .next t ∧ (∀ j ∈ t.pkg.launches, j.id = l.id → p ∉ j.tails) ∧
          (t.core core).run = (if (s.core core).preempt = none then .running else .rolling) ∧ (t.core core).pc = l.kernel.entry ∧
          (t.core core).seg.ckaddr = l.kernel.entry ∧ (t.core core).chunk = some { k with hi := p.2.1 + 1, cur := p.2.1, next := p.2.1 + 1, started := true }) ∧
      ((∀ l, s.launchOf k.launch = some l → k.forked.isSome = true ∨ l.status.isSome = true ∨ ∀ p ∈ l.tails, ¬ (p.1.contains core = true ∧ p.2.1 < p.2.2)) →
        ∀ c va u, s.flushStash core = ((c, va), u) →
        (c = 0 → ∃ t, exec (.tailTileRequest core) s = .next t ∧ (t.core core).chunk = none ∧ (t.core core).run = .idle ∧ (t.core core).wins = []) ∧
        -- a written stash sector that cannot go back keeps the chunk (log 106)
        (c ≠ 0 → (u.core core).keepErr = false → ∃ t, exec (.tailTileRequest core) s = .next t ∧ (t.core core).run = .parked ∧ (t.core core).trec.cause = c ∧
          (t.core core).chunk = (u.core core).chunk))))

/-- R111, R113, R116, R224, R228, R235, R349: a request starts the grace of a chunk and of those that stop with it, or with no grace
rolls a running core back at once; when the grace is over the core rolls back; a stopped core is switched out, and its chunk comes back
with what its image holds, at its checkpoint. The model's own are: that an OWN slot which is not usable stops the switch-out (log 82), what
poison in an image does (log 37), and which unsaved chunk stays so (log 114). -/
def Obligations.PreemptionResults : Prop :=
  (∀ (s : State) (core : Nat),
    let c := s.core core
    let grace := s.ioBits 0x6808 0 20
    (∀ k, c.chunk = some k → c.preempt = none → (∃ q ∈ c.queue, k.prio < q.prio) → (c.run = .running ∨ c.run = .parked) →
      ∃ t, exec (.preemptRequest core) s = .next t ∧ (t.core core).preempt = some grace ∧
        (grace ≠ 0 ∨ c.run = .parked → (t.core core).run = c.run) ∧
        (grace = 0 → c.run = .running → c.keepErr = false → (c.grp.n ≠ 0 ∨ ∀ g, .rdv g ∉ c.grp.holds) →
          (t.core core).run = .rolling ∧ (t.core core).pc = c.seg.ckaddr ∧ (t.core core).arch = c.seg.ck) ∧
        -- a rendezvous in its hold rolls nothing back
        (c.run = .running → c.grp.n = 0 → (∃ g, .rdv g ∈ c.grp.holds) → (t.core core).run = .running ∧ (t.core core).seg = c.seg) ∧
        ∀ d j, (s.core d).chunk = some j → (s.core d).preempt = none →
          (t.core d).preempt = if j.launch = k.launch ∧ (k.gang = true ∨ j.root = k.root) then some grace else none) ∧
    -- it stops at a ck bundle that stands next, instead
    (c.run = .running → c.grp.n = 0 → s.nextIsCk core = true → exec (.preemptGraceExpire core) s = .next s) ∧
    (∀ k, c.chunk = some k → c.run = .running → c.preempt = some 0 → c.grp.holds = [] → (c.grp.n ≠ 0 ∨ s.nextIsCk core = false) → c.keepErr = false →
      c.seg.exiting = false → c.seg.exitDone = false →
      (∃ x ∈ c.cmds, x.released = true) → ∃ t, exec (.preemptGraceExpire core) s = .next t ∧ (t.core core).run = .rolling ∧ (t.core core).pc = c.seg.ckaddr ∧ (t.core core).arch = c.seg.ck) ∧
    -- an EXIT whose commit is still to come is not rolled back
    (c.run = .running → c.seg.exiting = true → c.preempt = some 0 → exec (.preemptGraceExpire core) s = .next s) ∧
    (∀ k, c.chunk = some k → c.run = .rolling → c.cmds = [] → c.seg.posts = [] → s.pkg.keyOp = [] → (s.ioGet (0xFC00 + 8 * k.ctx)).getLsbD 0 = true →
      (s.keyUsable (s.ownOf k.ctx) = false → exec (.preemptGraceExpire core) s = .next (s.park core { cause := 0x202#10 } c.pc 1)) ∧
      (s.keyUsable (s.ownOf k.ctx) = true → c.wins = [] →
        ∃ t r rest, exec (.preemptGraceExpire core) s = .next t ∧ (t.core core).chunk = none ∧ (t.core core).run = .idle ∧
          (t.core core).resident = r :: rest ∧ r.chunk = k ∧ ∃ q, (t.core core).queue = k :: q)) ∧
    (∀ r, c.returning = some r → (∀ d, d ≠ core → ∀ x ∈ (s.core d).resident, r.chunk.together x.chunk = false) → s.pkg.keyOp = [] →
      -- none that resumes with it still runs or is parked, and no bank of another chunk has to be saved
      (∀ d j, (s.core d).chunk = some j → r.chunk.together j = false) →
      (∀ x ∈ c.resident, x.savedMask ≠ 0 ∨ x.kernel.bmask &&& r.kernel.bmask = 0 ∨ x.chunk = r.chunk) →
      (c.resident.filter fun x => decide (x.savedMask = 0 ∧ x.kernel.bmask ≠ 0 ∧ x.chunk ≠ r.chunk)).length ≤ 1 →
      s.keyUsable (s.ownOf r.chunk.ctx) = true →
      exec (.chunkSwitchIn core) s = .next ((s.modCore core fun x => { x with queue := x.queue.erase r.chunk }).restore core r)) ∧
    -- what a restored core holds: the image's registers, tiles, accumulators, banks, windows and replay log, at the checkpoint;
    -- poison in the image that no register, tile or bank can carry parks it there (log 37)
    (∀ r : Saved, let m := (s.readImage core r).1
      let hurt := (s.readImage core r).2.1
      let t := s.restore core r
      (t.core core).run = (if hurt then .parked else .running) ∧ (hurt = true → (t.core core).trec.cause = 0x141#10) ∧ (t.core core).pc = r.ckaddr ∧ (t.core core).chunk = some r.chunk ∧ (t.core core).seg.ckaddr = r.ckaddr ∧
      (t.core core).arch.s = m.arch.s ∧ (t.core core).arch.x = m.arch.x ∧ (t.core core).arch.v = m.arch.v ∧ (t.core core).e = m.e ∧
      (t.core core).tiles = m.tiles ∧ (t.core core).accs = m.accs ∧ (t.core core).b0 = m.b0 ∧ (t.core core).b1 = m.b1 ∧
      (t.core core).seg.log = m.log ∧ (t.core core).seg.replayed = r.replayed ∧ (t.core core).wins = m.wins ∧ (t.core core).arch.shadow = m.arch.shadow ∧
      (t.core core).arch.lands = m.arch.lands ∧ (t.core core).arch.seed = m.arch.seed ∧ (t.core core).svc.base = m.svbase ∧ (t.core core).svc.tcmp = m.tcmp ∧ (t.core core).svc.trap = m.strap ∧
      ∀ f < 16, (∀ q ∈ r.posts, q.1 ≠ f) → (t.core core).rF f = m.arch.f.getD f 0)) ∧
  -- s0 to s31 stand first in the image, eight bytes each, as the checkpoint has them
  (∀ (c : Core) (a : Arch) (r : Nat), r < 32 → imageAt c.headImage (8 * r) 8 = (c.seg.ck.s.getD r 0).toNat ∧
    (Arch.ofImage c.headImage a).1.s.getD r 0 = c.seg.ck.s.getD r 0)

/-- R40 to R42, R116 to R119, R330: gangs, barriers, the answer to a launch, its completion.
R233: a termination takes every chunk of the context off its core, which first ends what it has released; it ends its launches with the status and disables its stream; it
is done when the last launch has completed. The model's own are: that a core keeps its chunk until what it
has released is through (log 44), the cycle of an arrival (log 101), and which unsaved chunk stays so (log 114). -/
def Obligations.GangAndTerminationResults : Prop :=
  (∀ s : State,
    (∀ id l, s.launchOf id = some l → l.gang = true → l.placed = true → l.started = false → l.status = none →
      (∀ q ∈ l.members, (s.core q.1).chunk = none ∧ (s.core q.1).run = .idle ∧
        (∀ r ∈ (s.core q.1).resident, r.savedMask ≠ 0 ∨ r.kernel.bmask &&& l.kernel.bmask = 0) ∧
        ((s.core q.1).resident.filter fun r => decide (r.savedMask = 0 ∧ r.kernel.bmask ≠ 0)).length ≤ 1) → ∃ t, exec (.gangStart id) s = .next t ∧
        ∀ q ∈ l.members, (t.core q.1).run = .running ∧ (t.core q.1).pc = l.kernel.entry ∧ (t.core q.1).reserved = none) ∧
    (∀ id, ∃ t, exec (.gangWaitTimeout id) s = .next t ∧ t.cores = s.cores ∧ t.pkg.launches.length = s.pkg.launches.length ∧
      ∀ l ∈ t.pkg.launches, l.id = id → l.gang = true → l.placed = false → l.waited = true) ∧
    -- the cycle of an arrival is that of its release (log 101)
    (∀ k core seq ctx g b time, s.flight[k]? = some ⟨seq, core, ctx, .arrive g, time⟩ → s.flightReady k = true → s.pkg.bars.get? g = some b →
      let b' : Barrier := { b with arrivals := b.arrivals ++ [(core, time.toNat * 16)] }
      (∀ l ∈ s.pkg.launches, l.id = b.launch → l.ctx = ctx → core ∈ b.members →
        ((∃ c ∈ b.members, ∀ a ∈ b'.arrivals, a.1 ≠ c) → s.launchLive b.launch = true →
          ∃ t, exec (.barrierArrival k) s = .next t ∧ t.pkg.bars.get? g = some b' ∧ t.barPhase g = s.barPhase g) ∧
        ((∀ c ∈ b.members, c < 256 ∧ ∃ a ∈ b'.arrivals, a.1 = c) → g < 64 → ∃ t, exec (.barrierArrival k) s = .next t ∧ t.barPhase g = (s.barPhase g + 1) % 2 ^ 24) ∧
        -- the last arrival of a gang whose chunks have all ended frees its barriers
        (l.gang = true → l.working = [] → s.launchLive b.launch = false → (∀ f ∈ (s.dropFlight k).flight, f.ctx = ctx → ∀ h, f.rel ≠ .arrive h) →
          ∃ t, exec (.barrierArrival k) s = .next t ∧ ∀ q ∈ t.pkg.bars, q.2.launch ≠ b.launch)) ∧
      -- an arrival of another gang than the barrier's counts for nothing
      ((∀ l ∈ s.pkg.launches, l.id = b.launch → l.ctx ≠ ctx) → exec (.barrierArrival k) s = .next (s.dropFlight k))) ∧
    (∀ k l, s.pkg.launches[k]? = some l → s.launchLive l.id = false → (∀ f ∈ s.flight, f.ctx ≠ l.ctx) →
      (l.status.isSome = true ∨ (l.placed = true ∧ l.started = true ∧ l.working = [])) → s.pkg.keyOp = [] →
      let fin (v : State) : State :=
        let w : State := if l.irq = true ∧ l.vec < 248 then { v with out := v.out ++ [(chMsi, bytesOf 2 l.vec)] } else v
        { w with pkg := { w.pkg with launches := w.pkg.launches.filter fun j => j.id != l.id, bars := w.pkg.bars.filter fun b => b.2.launch != l.id } }
      (l.caddr.toNat % 64 ≠ 0 → exec (.launchComplete k) s = .next (fin s)) ∧
      (∀ p ps u, l.caddr.toNat % 64 = 0 → s.xlate ⟨l.ctx, false, 265⟩ .store l.caddr.toNat 64 = (.ok (p :: ps), u) → exec (.launchComplete k) s = .next
        (fin (u.performWrite distributor p.pa (2 ^ 64 - 1) (bytesOf 8 l.cval.toNat ++ bytesOf 2 (l.status.getD 0) ++ bytesOf 54 0) p.key).2))) ∧
    -- the answer to a launch: 2 when its record cannot be read, 1 when the table is full; else the record enters the table, with its kernel
    (∀ core rec x d, (s.core core).grp.holds = [.launch rec x d] → s.pkg.keyOp = [] →
      let answer (v : State) (a : Nat) : State := v.modCore core fun c =>
        { c with grp := { c.grp with holds := c.grp.holds.filter fun h => h != Hold.launch rec x d } }.landIn 1 (.s d) (BitVec.ofNat 1024 a) full64
      (tierOf rec.toNat = .none → exec (.launchAnswer core) s = .next (answer s 2)) ∧
      (∀ c b u, tierOf rec.toNat ≠ .none → s.fetchData distributor rec.toNat 128 64 2 = ((c, b), u) →
        let waiting := (u.pkg.launches.filter fun l => !l.placed && l.status.isNone).length
        (c ≠ 0 → exec (.launchAnswer core) s = .next (answer u 2)) ∧
        (c = 0 → 1024 ≤ waiting → exec (.launchAnswer core) s = .next (answer u 1)) ∧
        (c = 0 → waiting < 1024 → ∀ k v, u.readKernel x (natOf ((b.drop 8).take 8)) = (k, v) → ∃ t l, exec (.launchAnswer core) s = .next t ∧
          t = answer { v with pkg := { v.pkg with launches := v.pkg.launches ++ [l], nextLaunch := v.pkg.nextLaunch + 1 } } 0 ∧
          l.id = u.pkg.nextLaunch ∧ l.ctx = x ∧ l.placed = false ∧ l.seq.toNat = natOf (b.take 4) ∧ l.arga.toNat = natOf ((b.drop 64).take 8) ∧
          l.argb.toNat = natOf ((b.drop 72).take 8) ∧ l.caddr.toNat = natOf ((b.drop 80).take 8) ∧ l.cval.toNat = natOf ((b.drop 88).take 8) ∧
          (∀ e, k = .error e → l.status = some e) ∧
          ∀ q, k = .ok q → l.kernel = q ∧ l.bounds = (List.range (min q.nlev 6)).map (fun i => natOf ((b.drop (16 + 8 * i)).take 8)) ∧
            l.status = if l.bounds.contains 0 then some 0 else none)))) ∧
  (∀ (s : State) (ctx : BitVec 6) (cause : Cause),
    ((s.ioGet (0xFA00 + 8 * ctx.toNat)).getLsbD 16 = false → ∃ t, exec (.contextTerminate ctx cause) s = .next t ∧
      -- a core keeps its chunk only while what it has released is not through
      (∀ c k, (t.core c).chunk = some k → k.ctx = ctx.toNat → (t.core c).run = .idle ∧ (t.core c).draining = true ∧ (t.core c).loads = [] ∧
        ∀ x ∈ (t.core c).cmds, x.released = true) ∧
      (∀ c, ∀ k ∈ (t.core c).queue, k.ctx ≠ ctx.toNat) ∧ (∀ c, ∀ r ∈ (t.core c).resident, r.chunk.ctx ≠ ctx.toNat) ∧
      (∀ l ∈ t.pkg.launches, l.ctx = ctx.toNat → l.status.isSome = true) ∧ (t.ioGet (0x1008 + 16 * ctx.toNat)).getLsbD 14 = false) ∧
    ((s.ioGet (0xFA00 + 8 * ctx.toNat)).getLsbD 16 = true → exec (.contextTerminate ctx cause) s = .next s) ∧
    (∀ eff, s.pkg.terming.get? ctx.toNat = some eff → (∀ l ∈ s.pkg.launches, l.ctx ≠ ctx.toNat) → ∃ t r, exec (.contextTerminationDone ctx) s = .next t ∧
      (t.ioGet (0xFA00 + 8 * ctx.toNat)).getLsbD 16 = false ∧ t.pkg.terming.get? ctx.toNat = none ∧ t.onHold.has ctx.toNat = false ∧
      t.recq = s.recq ++ [r] ∧ r.typ = 3 ∧ r.ctx = ctx.toNat))

/-- R31, R43, R167, R174, R175, R178, R343: what happens to a released entry whose turn it is. -/
def Obligations.ReleasedEntryResults : Prop :=
  ∀ (s : State) (k seq core ctx : Nat) (time : Word), s.flightReady k = true →
    (∀ pa key cls val mask, s.flight[k]? = some ⟨seq, core, ctx, .store pa key cls val mask, time⟩ → s.pkg.hostHeld.has (pa / 64) = false →
      ∀ c t, (s.dropFlight k).performWrite (agentOf core ctx) pa mask.toNat (bytesOf 32 val.toNat) key = (c, t) →
        exec (.homeSliceAccess k) s = .next (if c = 0 then t else t.relFail ⟨seq, core, ctx, .store pa key cls val mask, time⟩ c) ∧
        (tierOf pa = .hbm → c = 0 ∧ ∀ i < 32, mask.getLsbD i = true → SMap.getD t.mem (pa + i) 0 = BitVec.ofNat 8 (bits val.toNat (8 * i) 8))) ∧
    (∀ pa key cls aop w val mask, s.flight[k]? = some ⟨seq, core, ctx, .vamo pa key cls aop w val mask, time⟩ → s.pkg.hostHeld.has (pa / 64) = false →
      s.linkCause pa = 0 →
      (s.hostLate core pa = false → exec (.homeSliceAccess k) s = .next ((s.dropFlight k).performVamo (agentOf core ctx) pa key aop w val mask)) ∧
      -- one whose host access takes longer than 1 ms ends with 0x240
      (s.hostLate core pa = true → pa % 32 = 0 → (s.core core).run = .running → s.ctxOf core = ctx → (s.core core).keepErr = false →
        ∃ t, exec (.homeSliceAccess k) s = .next t ∧ (t.core core).run = .parked ∧ (t.core core).trec.cause = 0x240#10 ∧ t.mem = s.mem)) ∧
    -- a link that is down ends a store or VAMO: the core that released it stops with the cause (log 72)
    (∀ pa rel, s.flight[k]? = some ⟨seq, core, ctx, rel, time⟩ → (∃ key cls val mask, rel = .store pa key cls val mask) ∨
        (∃ key cls aop w val mask, rel = .vamo pa key cls aop w val mask) → pa % 32 = 0 → s.pkg.hostHeld.has (pa / 64) = false → s.linkCause pa ≠ 0 →
      (s.core core).run = .running → s.ctxOf core = ctx →
      exec (.homeSliceAccess k) s = .next ((s.dropFlight k).park core { cause := s.linkCause pa } (s.core core).pc 1)) ∧
    (∀ pa key cls val mask, s.flight[k]? = some ⟨seq, core, ctx, .store pa key cls val mask, time⟩ → s.pkg.hostHeld.has (pa / 64) = true →
      s.pkg.snooped.has (pa / 64) = false → ∃ t, exec (.homeSliceAccess k) s = .next t ∧ t.flight = s.flight ∧ t.mem = s.mem ∧
        t.out = s.out ++ [(chSnoop, bytesOf 8 (pa / 64 * 64))]) ∧
    (∀ pa key r cls v, s.flight[k]? = some ⟨seq, core, ctx, .pair pa key r cls v, time⟩ → (s.wayOf (pa / 64)).isSome = true →
      s.linkCause pa = 0 → s.sliceDue (s.home (pa / 64)) = false →
      let dk := s.home (pa / 64) * 256 + r
      ∀ d, (s.deck.getD dk []).get? pa = some d → ∃ t, exec (.updatePairAdmit k) s = .next t ∧ t.mem = s.mem ∧
        (t.deck.getD dk []).get? pa = some (d.join (s.rgnOp r) (deckOf (s.rgnOp r) (s.rgnFxp r) v.toNat)) ∧
        -- no other core keeps a filled copy of the sector
        ∀ q ∈ t.cores, ∀ e ∈ q.2.stash, e.2.pa = some (pa / 32) → e.2.full = false) ∧
    (∀ target f n q, s.flight[k]? = some ⟨seq, core, ctx, .post target f n, time⟩ → target < 256 → ctx ≠ 64 → (s.core target).chunk = some q → q.ctx = ctx →
      ∃ t, exec (.remotePostDeliver k) s = .next t ∧ (t.core target).rF f = (s.core target).rF f + BitVec.ofNat 16 n ∧
        (t.core target).seg.ck.f.getD f 0 = (s.core target).seg.ck.f.getD f 0 + BitVec.ofNat 16 n)

/-- R143 to R147, R462: retirement of a slice, fills, the scrubber, the blaze map, error injection. -/
def Obligations.MemoryEventResults : Prop :=
  ∀ s : State,
    (∀ slice, slice < 192 → (∃ q ∈ s.blaze, q.1 / 8192 = slice ∧ (s.usable q.1).length < 2) →
      (s.ioGet (0x8210 + 8 * (slice / 64))).getLsbD (slice % 64) = true → ∃ t q r, exec (.sliceRetireComplete slice) s = .next t ∧
        (t.ioGet (0x8210 + 8 * (slice / 64))).getLsbD (slice % 64) = false ∧ t.recq = q ++ [r] ∧ r.typ = 2) ∧
    (∀ pa : BitVec 52, l2Cached pa.toNat = true →
      exec (.l2FillReturn pa) s = .next (s.l2Read (pa.toNat / 32 * 32) 32 64 64 2)) ∧
    (∀ slice set, ∃ t, exec (.patrolScrub (.l2set slice set)) s = .next t ∧ ∀ w < 16, t.wayCnt.has (wayNo (setNo slice set) w) = false) ∧
    (∀ pa : BitVec 52, s.hbmErr.has (pa.toNat / 8) = true → s.lineOf (pa.toNat / 64) = none → ∃ t, exec (.patrolScrub (.hbmWord pa)) s = .next t ∧
      t.hbmErr.has (pa.toNat / 8) = false ∧ t.hbmCor.has (pa.toNat / 8) = false ∧ t.poison.has (pa.toNat / 32) = true ∧ t.mem = s.mem ∧
      ∀ w, w ≠ pa.toNat / 8 → t.hbmErr.has w = s.hbmErr.has w) ∧
    -- an error of a scratchpad word, and one of what a core keeps for its rollback (log 104)
    (∀ core word bad, ∃ t, exec (.patrolScrub (.spWord core word bad)) s = .next t ∧
      (if bad then (t.core core).spErr else (t.core core).spCor).has word = true ∧ t.mem = s.mem) ∧
    -- a parity error in a first-level cache takes the line there, and nothing else (R139, R140)
    (∀ core line, ∃ t, exec (.patrolScrub (.parity core line)) s = .next t ∧ (t.core core).sdc.has line = false ∧ (t.core core).icache.has line = false ∧
      t.mem = s.mem ∧ (t.core core).arch = (s.core core).arch ∧ ∀ j, j ≠ line → (t.core core).sdc.has j = (s.core core).sdc.has j) ∧
    (∀ core, ∃ t, exec (.patrolScrub (.kept core)) s = .next t ∧ (t.core core).keepErr = true ∧ (t.core core).arch = (s.core core).arch) ∧
    exec .blazeMapSave s = .next { s with pkg := { s.pkg with blazeFlash := s.blaze } } ∧
    ((s.ioGet 0x8308).getLsbD 7 = false → s.ioBits 0x8308 2 2 = 1 → let pa := s.ioBits 0x8300 3 49 * 8
      tierOf pa = .hbm → ∃ t, exec .errorInject s = .next t ∧ (t.ioGet 0x8308).getLsbD 8 = false ∧
        t.hbmErr = (if (s.ioGet 0x8308).getLsbD 1 then s.hbmErr.ins (pa / 8) () else s.hbmErr) ∧
        t.hbmCor = (if (s.ioGet 0x8308).getLsbD 1 then s.hbmCor else s.hbmCor.ins (pa / 8) ())) ∧
    ((s.ioGet 0x8308).getLsbD 7 = false → s.ioBits 0x8308 2 2 = 0 → s.lineOf (s.ioBits 0x8300 3 49 * 8 / 64) = none →
      ∃ t, exec .errorInject s = .next t ∧ (t.ioGet 0x8308).getLsbD 8 = true ∧ t.l2Err = s.l2Err ∧ t.l2Cor = s.l2Cor)

/-- R196, R204, R208, R217, R219, R224, R226: a bundle that nothing holds and that has no cause runs its operations and issues; one past the
bound without a checkpoint parks the core with 0x1C0; a header cause parks it with that cause. A checkpoint bundle commits first, waits for
its commit, or finds data in DQ (0x1C6); a re-issue after a rollback commits nothing, unless nothing has issued since its commit (log 62).
R217, R218, R220: the commit sends the withheld stores, VAMOs and pairs on their way in order, makes the core's state the checkpoint, and
empties the logs, the pool and the count.
R196, R435: a bundle of the service sequencer. -/
def Obligations.BundleResults : Prop :=
  (∀ (s : State) (core : Nat) (ws : List Word32) (b : Bundle) (u : State),
    let d := s.modCore core Core.drain
    let c := d.core core
    let start : State := { d.setCore core (if c.seg.restart then c else c.tick) with issue := { core, haddr := c.pc } }
    c.run = .running → c.seg.exitDone = false → c.seg.exiting = false → s.fatal = 0 → s.pkg.keyOp = [] →
    c.clash = false → c.preempt = none →
    -- at a group boundary nothing holds issue; within a group nothing under way is left that the bundle meets (R207)
    (c.grp.n = 0 → c.grp.holds = [] ∧ d.energyHeld core = false) → (c.grp.n ≠ 0 → d.midReady core = true) →
    start.nextWords core = (.ok ws, u) → bundleOf ws = .ok b →
    let v : State := { u with issue := { core, haddr := c.pc, len := b.hdr.len.toNat, ck := b.hdr.ck, stop := b.hdr.stop, relN := (u.core core).seg.rel.length,
                                         since := some (u.seq, (u.core core).arch.lands.length) } }
    let ds := opsOf b (mainIssuer core)
    let l := (goodOps ds).map fun q => (q, q.uses v)
    -- nothing holds the group at its boundary
    let group := if (u.core core).grp.n ≠ 0 then [] else
      l.map Prod.fst ++ if b.hdr.stop then [] else State.groupFrom 31 v core (c.pc + BitVec.ofNat 64 (4 * b.hdr.len.toNat))
    v.groupHeld core group = false → (u.core core).keepErr = false →
    (∀ x : Cause, v.headerCause (mainIssuer core) b l = some x → ∃ t, exec (.bundleIssue core) s = .next t ∧
      (t.core core).run = .parked ∧ (t.core core).trec.cause = x ∧ (t.core core).trec.slot = 0xE ∧ (t.core core).trec.baddr = c.pc ∧
      (t.core core).pc = (u.core core).seg.ckaddr ∧ (t.core core).arch = (u.core core).seg.ck) ∧
    (b.hdr.ck = false → v.headerCause (mainIssuer core) b l = none → v.encodingCause ds = none → d.ckb ≤ c.seg.count → v.ckb ≤ (u.core core).seg.count → s.ckb ≤ (s.core core).seg.count →
      s.nextIsCk core = false → ∀ i ∈ [Instr.bundleIssue core, .checkpointBoundOverrun core], ∃ t, exec i s = .next t ∧
        (t.core core).run = .parked ∧ (t.core core).trec.cause = 0x1C0 ∧ (t.core core).pc = (u.core core).seg.ckaddr) ∧
    (b.hdr.ck = true → v.headerCause (mainIssuer core) b l = none → v.encodingCause ds = none →
      let g := (u.core core).seg
      let rdv := v.rdvOf (l.map Prod.fst)
      let same : Prop := g.restart = true ∧ (g.again = false ∨ (g.rdvDone = true ∧ (v.rdvAt (l.map Prod.fst)).isSome = true))
      (¬ same → v.commitWait core rdv = some none → exec (.bundleIssue core) s = .next (d.stalled core)) ∧
      (∀ x, ¬ same → v.commitWait core rdv = some (some x) → ∃ t, exec (.bundleIssue core) s = .next t ∧
        (t.core core).run = .parked ∧ (t.core core).trec.cause = 0x1C6 ∧ (t.core core).pc = g.ckaddr ∧ (t.core core).arch = g.ck) ∧
      (∀ z, (same ∧ z = v) ∨ (¬ same ∧ v.commitWait core rdv = none ∧ z = v.commit core c.pc ∧ z.stopAtCommit core = none) →
        let y := z.rdvGo core rdv
        (∀ q ∈ l, y.cur.grp.breaks (l.any fun q => q.2.push) q.2 = false) →
        ∀ t, State.runOps (inOrder (l.map Prod.fst)) { y with issue := { y.issue with relN := 0, since := some (y.seq, (u.core core).arch.lands.length) } } [] =
          .next (t, []) → t.issue.stall = false → exec (.bundleIssue core) s = .next (t.issued core ws b l).quiet)) ∧
    (b.hdr.ck = false → v.headerCause (mainIssuer core) b l = none → v.encodingCause ds = none → (u.core core).seg.count < v.ckb →
      (∀ q ∈ l, v.cur.grp.breaks (l.any fun q => q.2.push) q.2 = false) → ∀ t, State.runOps (inOrder (l.map Prod.fst)) v [] = .next (t, []) →
      t.issue.stall = false → ∃ w, exec (.bundleIssue core) s = .next w ∧ w = (t.issued core ws b l).quiet ∧
        (w.core core).seg.count = (t.core core).seg.count + 1 ∧ w.mem = t.mem ∧
        (t.issue.exit = false → t.issue.target = none → (t.core core).arch.levels = [] → (w.core core).pc = t.issue.haddr + BitVec.ofNat 64 (4 * t.issue.len)))) ∧
  (∀ (s : State) (core : Nat) (addr : Word),
    let c := s.core core
    let t := s.commit core addr
    c.seg.forks = [] → (∀ r ∈ c.seg.rel, r.kind.isSome = true) → (∀ f ∈ s.flight, ∀ ks m, f.rel ≠ .mark ks m) →
      t.flight = s.flight ++ (numbered c.seg.rel).map (fun q => ⟨s.seq + q.1, core, s.ctxOf core, q.2, s.tmr⟩) ∧ t.seq = s.seq + c.seg.rel.length ∧
      t.mem = s.mem ∧ (t.core core).pc = c.pc ∧ (t.core core).arch = c.arch ∧ (t.core core).grp = c.grp ∧
      (t.core core).seg.ckaddr = addr ∧ (t.core core).seg.ck = c.arch ∧ (t.core core).cb0 = c.b0 ∧ (t.core core).cb1 = c.b1 ∧
      (t.core core).seg.rel = [] ∧ (t.core core).seg.log = [] ∧ (t.core core).seg.undo = [] ∧ (t.core core).seg.pool = [] ∧
      (t.core core).seg.count = 0 ∧ (t.core core).seg.rolls = 0 ∧ (t.core core).seg.replayed = false ∧ ∀ j, j ≠ core → t.core j = s.core j) ∧
  (∀ (s : State) (core : Nat) (ws : List Word32) (b : Bundle) (u t : State),
    let c := s.core core
    let start : State := { (s.modCore core fun k => { k with svc := { k.svc with hold := [] } }).modCore core Core.svcLand with
                           issue := { core, svc := true, haddr := c.svc.pc } }
    c.svc.busy = true → s.svcAlive core = true → s.fatal = 0 → s.pkg.keyOp = [] → c.svc.hold = [] →
    start.fetchBundle (start.fetcher core true) c.svc.pc = (.ok ws, u) → (Header.ofWord (ws.headD 0)).ck = false → (Header.ofWord (ws.headD 0)).opc = false →
    bundleOf ws = .ok b →
    let v : State := { u with issue := { core, svc := true, haddr := c.svc.pc, len := b.hdr.len.toNat, stop := b.hdr.stop } }
    let ds := opsOf b .svc
    let l := (goodOps ds).map fun q => (q, q.uses v)
    v.headerCause .svc b l = none → v.encodingCause ds = none → State.runOps (inOrder (goodOps ds)) v [] = .next (t, []) → t.issue.stall = false →
    ∃ w, exec (.serviceBundleIssue core) s = .next w ∧ (w.core core).svc.pc = t.issue.target.getD (c.svc.pc + BitVec.ofNat 64 (4 * b.hdr.len.toNat)) ∧
      (w.core core).run = (t.core core).run ∧ (w.core core).arch = (t.core core).arch ∧ w.mem = t.mem)

/-- R26, R86, R87, R208, R213, R228, R230, R232, R435: stalls and stretch cycles, the start of a handler by its event, the timer, resume,
the enable of the fault-service queue. -/
def Obligations.SequencerResults : Prop :=
  ∀ (s : State) (core : Nat),
    let c := s.core core
    let d := s.modCore core Core.drain
    (c.run = .running → c.grp.n = 0 → d.energyHeld core = false → exec (.stallBundle core) s = .next d) ∧
    (c.run = .running → c.grp.n = 0 → d.energyHeld core = true → (d.core core).earm = true → ∃ t, exec (.stallBundle core) s = .next t ∧
      (t.core core).svc.notices.getLsbD 0 = true ∧ (t.core core).earm = false ∧ (t.core core).pc = c.pc ∧ (t.core core).arch = c.arch) ∧
    (c.run = .running → c.latdecl.getLsbD 24 = true → exec (.stretchCycle core) s = .next d ∧ (d.core core).arch = c.arch ∧ (d.core core).pc = c.pc) ∧
    (c.svc.busy = false → c.svc.base.getLsbD 0 = true → s.svcAlive core = true →
      let slot (k : Nat) : Word := (c.svc.base &&& 0x000FFFFFFFFFFFC0#64) + BitVec.ofNat 64 (8 * k)
      let starts (k : Nat) (e0 : Word) (t : State) : Prop := exec (.handlerStart core) s = .next t ∧ (t.core core).svc.busy = true ∧
        (t.core core).svc.pc = slot k ∧ (t.core core).rE 0 = e0
      (∀ i < 4, c.svc.notices.getLsbD i = true → (∀ j < i, c.svc.notices.getLsbD j = false) → ∃ t, starts (16 + i) (BitVec.ofNat 64 (0x180 + i)) t ∧
        (t.core core).svc.notices.getLsbD i = false) ∧
      (c.svc.notices = 0 → c.svc.tpend = true → ∃ t, starts 20 s.tmr t ∧ (t.core core).svc.tpend = false ∧ (t.core core).svc.tcmp = 0) ∧
      (∀ q r, c.svc.notices = 0 → c.svc.tpend = false → c.svc.queue = q :: r → ∃ t, starts q.hn.toNat q.sa t ∧ (t.core core).rE 1 = q.bytes ∧
        (t.core core).rE 2 = q.core ∧ (t.core core).svc.queue = r)) ∧
    (c.svc.tcmp ≠ 0 → c.svc.tcmp.toNat ≤ s.tmr.toNat → ∃ t, exec (.serviceTimer core) s = .next t ∧ (t.core core).svc.tpend = true) ∧
    (c.run = .parked → s.recWaits core = false → c.preempt = none → ∃ t, exec (.coreResume core) s = .next t ∧ (t.core core).run = .running ∧
      (t.core core).pc = c.pc ∧ (t.core core).arch = c.arch ∧ (t.core core).seg = c.seg) ∧
    -- a record that waits for room keeps its core parked
    (c.run = .parked → c.recHeld = true → exec (.coreResume core) s = .next s) ∧
    (s.fsqOn = false → ∀ x b t, let u := (s.ioField 0xF008 15 1 1).ioField 0xF008 32 16 0
      u.fetchData distributor u.fsqBase 8 64 2 = ((x, b), t) → exec .fsqEnable s = .next { t with pkg := { t.pkg with fsqTail := natOf b } })

/-- R27, R242, R243, R247, R248, R251, R253, R393, R394, R399 to R404: what the matrix engine does with the operations in its queue. -/
def Obligations.EngineResults : Prop :=
  ∀ (s : State) (core : Nat),
    let c := s.core core
    (c.arrayActive = false → ∃ t, exec (.arrayPowerGate core) s = .next t ∧ (t.core core).arrayOn = false ∧ (t.core core).tiles = c.tiles) ∧
    (c.arrayEn = true → ∃ t, exec (.arrayEnable core) s = .next t ∧ (t.core core).arrayOn = true ∧ (t.core core).arrayEn = false) ∧
    (∀ m tl ww sc bank fmt n kb e0 e1 kp, m.op = .mldb tl ww sc bank fmt n kb e0 e1 kp →
      (c.mNext = some m → c.arrayOn = true → c.mNeeds m = none → c.bankFree m = true →
        exec (.bankFillStart core) s = .next (s.setCore core (c.mPut { m with started := true, side := (c.tile tl).b }))) ∧
      (c.mNext = some m → c.mNeeds m = some 1 → ∃ t, exec (.sideCarComputeDone core) s = .next t ∧
        ((t.core core).tile tl).b = computeRole (c.tcfg tl) (c.tile tl).bytes ww true (sparesOf e0 e1) ∧
        ((t.core core).tile tl).bytes = (c.tile tl).bytes ∧ (t.core core).cmiss = c.cmiss + 1) ∧
      (c.mq.find? (fun m => m.started && (match m.op with | .mldb .. => true | _ => false)) = some m → m.arr = none →
        ∃ t, exec (.bankFillDone core) s = .next t ∧ (t.core core).bankOf bank = ((c.bankOf bank).config ww sc fmt n kb e0 e1 kp).fill (c.tile tl) (c.tcfg tl) m.side ∧
          (t.core core).mq = c.mq.filter (fun x => x.seq != m.seq) ∧ (t.core core).tiles = c.tiles)) ∧
    (∀ m a tl ow ww sc af bank e0 e1 kp tag, m.op = .pass a tl ow ww sc af bank e0 e1 kp tag →
      (c.mNext = some m → c.arrayOn = true → c.enginesHeld = false → c.mNeeds m = none → c.bankFree m = true →
        ∃ t, exec (.passStart core) s = .next t ∧ (t.core core).mq = c.mq.map (fun x => if x.seq = m.seq then
          { m with started := true, side := (c.tile tl).a,
                   found := (passPoison (c.tile tl) (c.tcfg tl) (c.bankOf bank) tag sc kp).map fun a => { cause := 0x143#10, faddr := a, slot := 4, site := some m.site } } else x)) ∧
      (c.mNext = some m → c.mNeeds m = some 2 → c.bankFree m = true → ∃ t, exec (.sideCarComputeDone core) s = .next t ∧
        (t.core core).bankOf bank = (c.bankOf bank).restale ∧ (t.core core).cmiss = c.cmiss + 1) ∧
      (c.mNext = some m → c.mNeeds m = some 0 → ∃ t, exec (.sideCarComputeDone core) s = .next t ∧
        ((t.core core).tile tl).a = computeRole (c.tcfg tl) (c.tile tl).bytes ww false (sparesOf e0 e1) ∧ (t.core core).cmiss = c.cmiss + 1) ∧
      (c.mq.find? (fun m => m.started && m.found.isNone && (match m.op with | .pass .. => true | _ => false)) = some m →
        let two := decide (32 < tcfgCols (c.tcfg tl) ∨ 32 < tag.kb)
        (∀ acc, (c.drainOf m tl ww sc bank e0 e1 tag).run two ow (c.acc a) = some acc → m.arr = none → ∃ t, exec (.passDrainDone core) s = .next t ∧
          (t.core core).acc a = acc ∧ (t.core core).mq = c.mq.filter (fun x => x.seq != m.seq) ∧ ∀ x, x ≠ a → (t.core core).acc x = c.acc x) ∧
        ((c.drainOf m tl ww sc bank e0 e1 tag).run two ow (c.acc a) = none → ∃ t, exec (.passDrainDone core) s = .next t ∧
          (t.core core).accs = c.accs ∧ (t.core core).mq = c.mq.map (fun x => if x.seq = m.seq then
            { m with found := some { cause := 0x043#10, slot := 4, site := some m.site, stale := some (bank, tl) } } else x)))) ∧
    (∀ m, c.mNext = some m → m.arr = none →
      (∀ a af rows cols, m.op = .zacc a af rows cols → rows * cols * accWidth af ≤ 16384 → ∃ t, exec (.tileUnitOpDone core) s = .next t ∧
        (∀ i < rows * cols * accWidth af, ((t.core core).acc a).bytes.toNat / 2 ^ (8 * i) % 256 = 0) ∧
        (∀ i, rows * cols * accWidth af ≤ i → i < 16384 → ((t.core core).acc a).bytes.toNat / 2 ^ (8 * i) % 256 = (c.acc a).bytes.toNat / 2 ^ (8 * i) % 256)) ∧
      (∀ d a, m.op = .tcpy d a → d ≠ a → tileLen (c.tcfg a) ≤ 16384 → ∃ t, exec (.tileUnitOpDone core) s = .next t ∧ (t.core core).mq = c.mq.filter (fun x => x.seq != m.seq) ∧
        (∀ i < tileLen (c.tcfg a), ((t.core core).tile d).bytes.toNat / 2 ^ (8 * i) % 256 = (c.tile a).bytes.toNat / 2 ^ (8 * i) % 256)) ∧
      (∀ tl ra rb ww e0 e1 x, m.op = .cv tl ra rb ww e0 e1 → (c.tile tl).poisonAt (pieceMask 0 (tileLen (c.tcfg tl))) = some x →
        ∃ t, exec (.tileUnitOpDone core) s = .next t ∧ (∃ k ∈ (t.core core).mq, k.found = some { cause := 0x141#10, faddr := x, slot := 4, site := some m.site }) ∧
          (ra = true → ((t.core core).tile tl).a.valid = false) ∧ (rb = true → ((t.core core).tile tl).b.valid = false)) ∧
      (∀ tl ra rb ww e0 e1, m.op = .cv tl ra rb ww e0 e1 → (c.tile tl).poisonAt (pieceMask 0 (tileLen (c.tcfg tl))) = none →
        ∃ t, exec (.tileUnitOpDone core) s = .next t ∧ (ra = true → ((t.core core).tile tl).a = computeRole (c.tcfg tl) (c.tile tl).bytes ww false (sparesOf e0 e1)) ∧
          (rb = true → ((t.core core).tile tl).b = computeRole (c.tcfg tl) (c.tile tl).bytes ww true (sparesOf e0 e1)))) ∧
    (∀ m x, c.mq.find? (fun m => m.found.isSome) = some m → m.found = some x → x.site = some m.site → c.keepErr = false → ∃ t, exec (.engineCauseReport core) s = .next t ∧
      (t.core core).run = .parked ∧ (t.core core).trec.cause = x.cause ∧ (t.core core).trec.baddr = m.site.1 ∧ (t.core core).mq = [] ∧
      (t.core core).pc = c.seg.ckaddr)

/-- R218, R329, R336, R337, R377, R383, R414, R415: operations that a token waits for end: the value arrives, and the token counts one less. -/
def Obligations.DeliveryResults : Prop :=
  ∀ (s : State) (core k : Nat),
    let c := s.core core
    let less (tok : Nat) (cause : Cause) : Token := let t := c.arch.tokOf tok; { cnt := t.cnt - 1, cause := if t.cause = 0 then cause else t.cause }
    (∀ e r, c.aq = e :: r → e.arr = none → ∃ t, exec (.queueLoaderRead core) s = .next t ∧ (t.core core).aq = r ∧
      (t.core core).dq = c.dq ++ [⟨e.seq, e.tok, e.z, e.pieces, e.cls, e.relN, none, 0, e.u, e.site⟩]) ∧
    (∀ e cause bs u, c.dq.find? (fun e => e.data.isNone) = some e → c.readReady e.seq e.cls e.pieces = true → s.meetsFlight core false e.pieces = false →
      s.readPieces (s.mainWho core) (s.seenBy core e.relN) e.u (decide (e.z < 4)) e.pieces = ((cause, bs), u) → u.stopq = s.stopq → ∃ t, exec (.dqEntryFilled core) s = .next t ∧
        (t.core core).dq = (u.core core).dq.map (fun d => if d.seq = e.seq then { d with data := some (BitVec.ofNat 256 (placed bs)), cause } else d) ∧
        (t.core core).arch.tokOf e.tok = { cnt := ((u.core core).arch.tokOf e.tok).cnt - 1, cause := ((u.core core).arch.tokOf e.tok).cause }) ∧
    (∀ l bs u, c.loads[k]? = some l → l.arr = none → c.readReady l.seq l.cls l.pieces = true → s.meetsFlight core false l.pieces = false →
      s.readPieces (s.mainWho core) (s.seenBy core l.relN) l.u (match l.dst with | .v _ _ => false | _ => true) l.pieces = ((0, bs), u) → u.stopq = s.stopq →
      (∀ r z sx, l.dst = .s r z sx → ∃ t, exec (.globalLoadComplete core k) s = .next t ∧
        (t.core core).rS r = loadValue sx (2 ^ z) (bytesOf (2 ^ z) (placed bs)) ∧ (∀ q, q ≠ r → (t.core core).rS q = (u.core core).rS q) ∧
        ((t.core core).arch.tokOf l.tok).cnt = ((u.core core).arch.tokOf l.tok).cnt - 1 ∧ t.mem = u.mem) ∧
      (∀ r m, l.dst = .v r m → ∃ t, exec (.globalLoadComplete core k) s = .next t ∧
        (∀ i < 1024, ((t.core core).rV r).getLsbD i = if m.getLsbD i then (placed bs).testBit i else ((u.core core).rV r).getLsbD i) ∧
        ((t.core core).arch.tokOf l.tok).cnt = ((u.core core).arch.tokOf l.tok).cnt - 1)) ∧
    (∀ p, c.atoms[k]? = some p → p.arr = none → ∃ t, exec (.atomicComplete core k) s = .next t ∧
      (t.core core).rS p.dst = (if p.cause = 0 then p.res else c.rS p.dst) ∧ (t.core core).arch.tokOf p.tok = less p.tok p.cause ∧ t.mem = s.mem) ∧
    (∀ w, c.watches[k]? = some w → w.arr = none →
      (∀ b u, w.cause = 0 → s.readPieces (s.mainWho core) (s.seenBy core w.relN) 2 false [⟨w.va, w.pa, 8, 0, w.key⟩] = ((0, b), u) →
        ∀ i ∈ (if w.asleep then [] else [Instr.waitlineWake core k]) ++ (if w.tmo = 31 then [] else [.waitlineTimeout core k]), ∃ t, exec i s = .next t ∧
          (t.core core).rS w.dst = BitVec.ofNat 64 (placed b) ∧ ((t.core core).arch.tokOf w.tok).cnt = ((u.core core).arch.tokOf w.tok).cnt - 1) ∧
      (w.cause ≠ 0 → w.asleep = false → ∃ t, exec (.waitlineWake core k) s = .next t ∧ (t.core core).arch.s = c.arch.s ∧
        (t.core core).arch.tokOf w.tok = less w.tok w.cause ∧ (t.core core).watches = c.watches.filter (fun x => x.seq != w.seq))) ∧
    -- a released command starts once its engine has room among its 16
    (∀ x, c.cmds[k]? = some x → x.released = true → x.started = false → exec (.copyComplete core k) s =
      .next (if c.engineLoad x.eng < 16 ∧ s.pkg.keyOp = [] ∧ ∀ y ∈ c.cmds, y.released = true → y.started = false → y.eng = x.eng → x.seq ≤ y.seq then s.beginCmd core x.seq else s)) ∧
    -- then it moves 256 bytes at a time, each counted as it starts; with the last it completes, or is sent
    (∀ x, c.cmds[k]? = some x → s.cmdReady core x = true → x.sent = false → c.enginesHeld = false → (x.isNet = true → s.netWaits x = false) →
      let n := match x.parts with | some n => n | none => s.partsOf core x
      let u := s.spend core (engUnits 4) false
      (x.moved + 1 < n → exec (.copyComplete core k) s =
        .next (u.modCore core fun y => { y with cmds := y.cmds.map fun z => if z.seq = x.seq then { z with moved := z.moved + 1, parts := some n } else z })) ∧
      (n ≤ x.moved + 1 → let v := if x.moved < n then u else s
        exec (.copyComplete core k) s = .next (if x.isNet then v.netSend core x else v.copyDone core x))) ∧
    (∀ x, c.cmds[k]? = some x → x.started = true → c.enginesHeld = true → exec (.copyComplete core k) s = .next s)

/-- R5, R6, R29, R56, R161, R162: a write of an I/O-die register: RW bits take the value, RWL bits while the lock bit reads 0, W1C bits are cleared
by a 1, other bits stay; an offset that names no register changes nothing; a region's V stands only while its entry is well formed. -/
def Obligations.RegisterWriteResults : Prop :=
  ∀ (s : State) (o : Nat) (v : Word),
    (0x40 ≤ o → o < 2 ^ 26 → ioReg o = none → exec (.registerWrite o v) s = .next s) ∧
    -- the boot mailbox line: a command is accepted in a stopped boot while none is busy
    (let m := s.pkg.mbox
     let put (m : Mailbox) : State := { s with pkg := { s.pkg with mbox := m } }
     exec (.registerWrite 8 v) s = .next (put { m with addr := v }) ∧ exec (.registerWrite 16 v) s = .next (put { m with len := v }) ∧
     (s.pkg.stopped = true → m.status ≠ 0 → v = 1 ∨ v = 2 → exec (.registerWrite 0 v) s = .next (put { m with cmd := 0, status := 0, run := v.toNat })) ∧
     (s.pkg.stopped = false ∨ m.status = 0 → exec (.registerWrite 0 v) s = .next s)) ∧
    -- BAR2 and the HDM decoder's base, beside the register block (log 68)
    (∀ i < 1024, exec (.registerWrite (2 ^ 26 + 8 * i) v) s = .next { s with pkg := { s.pkg with bar2 := s.pkg.bar2.put 0 i v } }) ∧
    exec (.registerWrite (2 ^ 27) v) s = .next { s with pkg := { s.pkg with hdmBase := v.setWidth 52 } } ∧
    (∀ r, ioReg o = some r → (o ∈ [0x0400, 0x0408, 0x0410, 0x0510, 0x4000, 0x6800, 0x6808, 0x8200, 0xF000] ∨ (ioIdx o 0x4100 8 8).isSome = true ∨
        (ioIdx o 0x4180 8 8).isSome = true ∨ (ioIdx o 0x6900 8 64).isSome = true ∨ (ioIdx o 0x8000 8 64).isSome = true ∨ (ioIdx o 0xB000 8 256).isSome = true) →
      ∃ t, exec (.registerWrite o v) s = .next t ∧ (∀ p, p ≠ o → t.ioGet p = s.ioGet p) ∧ t.cores = s.cores ∧ t.mem = s.mem ∧ t.pkg = s.pkg ∧
        ∀ i < 64, (t.ioGet o).getLsbD i =
          (if r.w1c.getLsbD i = true ∧ v.getLsbD i = true then false
           else if r.rw.getLsbD i = true ∨ (r.rwl.getLsbD i = true ∧ ¬ (r.lock < 64 ∧ (s.ioGet o).getLsbD r.lock = true)) then v.getLsbD i
           else (s.ioGet o).getLsbD i)) ∧
    (∀ r w, r < 256 → w < 4 → o = 0xD000 + 32 * r + 8 * w → s.rgnV r = false → ∃ t, exec (.regionRegisterWrite o v) s = .next t ∧ t.mem = s.mem ∧
      (0 < w → t.rgnV r = false) ∧ (w = 0 → t.rgnV r = (v.getLsbD 0 && t.regionOk r)) ∧ (w = 1 → s.regionWrite r 1 v = t ∧ exec (.registerWrite o v) s = .next t))

/-! Words, steps and the machine as a whole. -/

/-- Words that the specification writes out decode to the operations they stand for (R297, R316, R317, R321, R325, R331, R339, R341, R343,
R346, R349, R354, R367, R378, R386, R391, R413, R425, R429, R430, R433, R453). -/
def Obligations.DecodesWrittenWords : Prop :=
  ∀ q ∈ ([
    (.cmp, .s, 0x84721788, 0x82000004, .addImm ⟨.s, 3, true, some (.flag 2)⟩ ⟨4, 5, 5000⟩),
    (.cmp, .x, 0x02008860, 0, .add ⟨.x, 0, false, none⟩ ⟨1, 2, 3⟩),
    (.cmp, .s, 0x00000000, 0, .nop ⟨.s, 0, false, none⟩),
    (.cmp, .s, 0x2E023004, 0, .loopi ⟨.s, 0, false, none⟩ ⟨1, 3, 4⟩),
    (.cmp, .s, 0x2C01901F, 0, .loop ⟨.s, 0, false, none⟩ ⟨0, 25, 31⟩),
    (.cmp, .s, 0x1A0401A4, 0, .pand ⟨.s, 0, false, none⟩ ⟨4, 3, 9⟩),
    (.cmp, .s, 0x54000000, 0, .exit ⟨.s, 0, false, none⟩),
    (.ctl, .s, 0x66000000, 0, .eret ⟨.s, 0, false, none⟩),
    (.ctl, .s, 0x5001D2BF, 0, .waitline ⟨.s, 0, false, none⟩ ⟨3, 20, 21, 31, 0, 0, 0⟩),
    (.cmp, .v0, 0x820214C0, 0x00000003, .vadd ⟨.v0, 0, false, none⟩ ⟨4, 5, 6, 1⟩),
    (.cmp, .v0, 0xCA210C00, 0x00000A00, .vupd ⟨.v0, 1, false, none⟩ ⟨2, 3, 0, 5⟩),
    (.cmp, .v0, 0xC4001C0E, 0x00020000, .vld ⟨.v0, 0, false, none⟩ ⟨0, 7, 0, 0, 3, 2, 0, 1, 2, 0⟩),
    (.cmp, .v1, 0x98052922, 0x00020003, .vext ⟨.v1, 0, false, none⟩ ⟨10, 10, 9, 1, 1⟩),
    (.cmp, .m, 0x08008C49, 0, .mmas ⟨.m, 0, false, none⟩ ⟨1, 3, 2, 2, 0, 1⟩),
    (.cmp, .k, 0x06019400, 0, .kmov ⟨.k, 0, false, none⟩ ⟨3, 5⟩),
    (.cmp, .c0, 0x82018000, 0x00040000, .cpy ⟨.c0, 0, false, none⟩ ⟨3, 0, 2, 2⟩),
    (.cmp, .c1, 0x12000400, 0, .chint ⟨.c1, 0, false, none⟩ ⟨1, 0, 0, 0⟩),
    (.cmp, .y, 0x82000000, 0x00000006, .wait ⟨.y, 0, false, none⟩ ⟨0, 6⟩),
    (.cmp, .y, 0x04001421, 0, .fwaitC ⟨.y, 0, false, none⟩ ⟨5, 1⟩),
    (.cmp, .y, 0x08001500, 0, .rpost ⟨.y, 0, false, none⟩ ⟨0, 5, 8, 0⟩),
    (.cmp, .y, 0x0E600000, 0, .rdv ⟨.y, 3, false, none⟩ ⟨0⟩),
    (.cmp, .f, 0x02001801, 0, .fork ⟨.f, 0, false, none⟩ ⟨6, 0, 0, 1⟩)]
      : List (Issuer × Slot × Word32 × Word32 × Instr)),
  decodeSlot q.1 q.2.1 q.2.2.1 q.2.2.2.1 = .ok q.2.2.2.2

/-- R298 to R312: for every instruction, decoding the words that encode writes for it gives it back, wherever its slot and sequencer have it. -/
def Obligations.DecodeOfEncode : Prop := ∀ i : Instr, Sys2Proof.Laws.RoundTrip.Statement i

/-- A step runs what it decodes. An event that has arrived is run, one step of time later, unless its part has stopped after a package-fatal
condition (R71; log 86). With none, and nothing that the package does by itself, the core whose turn it is issues its bundle, and a service
sequencer that works its own after it. That events come before the package's own moves and those before the turns, which moves come first, the
turns of the cores and the time of a step are the model's (logs 1, 2, 7, 58). An operation of a bundle is the instruction that its words decode
to, and those of a bundle run one after the other; of one that traps stands its cause, with what it has touched. -/
def Obligations.StepRunsInstructions : Prop :=
  (∀ (s : State) (i : Instr) (r : List Instr), s.agenda = i :: r → Instr.isEvent i = true →
    let p : State := { s with agenda := r, tmr := s.tmr + BitVec.ofNat 64 (Config.refclkOfStep s.fresh), fresh := s.fresh + 1 }
    (s.fatal = 0 ∨ Instr.inService i = true → step s = exec i p) ∧ (s.fatal ≠ 0 → Instr.inService i = false → step s = .next p)) ∧
  (∀ s : State, s.agenda = [] →
    let p : State := { s with tmr := s.tmr + BitVec.ofNat 64 (Config.refclkOfStep s.fresh), fresh := s.fresh + 1 }
    (s.fatal ≠ 0 → step s = if s.pkg.dumping = true then exec .dumpWritten p else .next p) ∧
    (∀ t, s.fatal = 0 → p.ownMove = some t → step s = .next t) ∧
    (∀ o, s.fatal = 0 → p.ownMove = none → p.firstMove p.moves = some o → step s = o) ∧
    (∀ c, s.fatal = 0 → p.ownMove = none → p.firstMove p.moves = none → p.turnOf = some c →
      let v : State := { (p.cycleBefore c) with turn := c + 1 }
      ((p.core c).svc.busy = false → step s = exec (.bundleIssue c) v) ∧
      (∀ t, (p.core c).svc.busy = true → exec (.bundleIssue c) v = .next t → step s = exec (.serviceBundleIssue c) t)) ∧
    (s.fatal = 0 → p.ownMove = none → p.firstMove p.moves = none → p.turnOf = none → step s = .next p.idleCycle)) ∧
  (∀ (iss : Issuer) (sl : Slot) (w ext : Word32) (q : SlotOp), slotOp iss sl w ext = .ok q →
    ∃ i, decodeSlot iss sl w ext = .ok i ∧ ∀ (s : State) (r : List SlotOp) (ts : List TrapInfo) (t : State), exec i s = .next t →
      (t.issue.stall = true → State.runOps (q :: r) s ts = .next (t, [])) ∧
      (t.issue.stall = false → t.issue.trap = none → State.runOps (q :: r) s ts = State.runOps r t ts) ∧
      (∀ x, t.issue.stall = false → t.issue.trap = some x → State.runOps (q :: r) s ts =
        State.runOps r { s with issue := { s.issue with did := if x.did = [] then s.issue.did else x.did } } (ts ++ [x])))

/-- Every step gives a next state, as long as the events that wait are events at agents that exist. -/
def Obligations.EveryStepAnswers : Prop := ∀ s : State, s.agendaOk → ∃ t, step s = .next t

/-- Every step keeps memory in its canonical form: addresses rise, and no entry holds what an unlisted address reads as. -/
def Obligations.MemoryStaysCanonical : Prop := ∀ s t : State, s.memOk → step s = .next t → t.memOk

/-- R26, R83, R85, R103, R212: the package after reset. Memory is canonical, no core runs, no event waits, and the registers that have a
reset value read it. (That an unlisted byte of memory reads 0, and that r registers read 0 then, is the model's choice: log 3, 4.) -/
def Obligations.ResetState : Prop :=
  State.reset.memOk ∧ State.reset.agendaOk ∧ (∀ c, (State.reset.core c).run = .idle ∧ (State.reset.core c).chunk = none ∧
    (State.reset.core c).eprof = 0xFFFFF000FFFFFFFF#64 ∧ (State.reset.core c).latdecl = 0x00624211#64 ∧ (State.reset.core c).opCeil = 7 ∧
    (State.reset.core c).mhz = Config.stand c 0) ∧
  State.reset.ioGet 0x0408 = 0x00C8#64 ∧ State.reset.ioGet 0x0410 = 0x88B5#64 ∧ State.reset.ioGet 0x4000 = 2100#64 ∧
  (∀ p < 8, State.reset.ioGet (0x0480 + 8 * p) = 1#64) ∧ (∀ n < 64, State.reset.ioGet (0x2800 + 8 * n) = BitVec.ofNat 64 (n * 257)) ∧
  State.reset.tmr = 0 ∧ State.reset.fatal = 0

/-- R204, R205, for the registers of S, V and P: a result with latency L that a bundle makes is not yet read by the L − 1 bundles after it, which read the old value, and
is read from the L-th on. Of two results that land in one register at the same bundle position, the later bundle's stands. -/
def Obligations.LandingTime : Prop :=
  ∀ (c : Core) (L : Nat), c.arch.lands = [] → 1 ≤ L →
    let after (d : Core) (n : Nat) : Core := (List.range n).foldl (fun x _ => x.tick) d
    (∀ (r : Nat) (v : Word), let d := c.landIn L (.s r) (v.setWidth 1024) full64
      (∀ n, n < L → (after d n).rS r = c.rS r) ∧ (∀ n, L ≤ n → (after d n).rS r = v) ∧ ∀ n q, q ≠ r → (after d n).rS q = c.rS q) ∧
    (∀ (r : Nat) (v m : Vec), let d := c.landIn L (.v r) v m
      (∀ n, n < L → (after d n).rV r = c.rV r) ∧ (∀ n, L ≤ n → ∀ i < 1024, ((after d n).rV r).getLsbD i = if m.getLsbD i then v.getLsbD i else (c.rV r).getLsbD i)) ∧
    (∀ (r : Nat) (v : Word), 0 < r → let d := c.landIn L (.p r) (v.setWidth 1024) full64
      (∀ n, n < L → (after d n).rP r = c.rP r) ∧ (∀ n, L ≤ n → (after d n).rP r = v)) ∧
    (∀ (r k : Nat), 0 < k →
      (∀ v w : Word, let d := (after (c.landIn (L + k) (.s r) (v.setWidth 1024) full64) k).landIn L (.s r) (w.setWidth 1024) full64
        (∀ n, n < L → (after d n).rS r = c.rS r) ∧ (∀ n, L ≤ n → (after d n).rS r = w)) ∧
      (∀ v w m : Vec, let d := (after (c.landIn (L + k) (.v r) v fullVec) k).landIn L (.v r) w m
        (∀ n, n < L → (after d n).rV r = c.rV r) ∧
        (∀ n, L ≤ n → ∀ i < 1024, ((after d n).rV r).getLsbD i = if m.getLsbD i then w.getLsbD i else v.getLsbD i)))

/-- R201, R206, R299: with a false guard an operation changes nothing and raises nothing, and its arrival is still posted: every instruction
of a slot when no bit of its guard is true, and outside V0, V1 and K, as dqpop and vqnt do in V0 and V1, by bit 0 alone. p0 reads all ones and is never
written. -/
def Obligations.FalseGuards : Prop :=
  (∀ (i : Instr) (o : OpInfo) (e : Enc) (s : State), encodeParts i = some (o, e) → s.arrivalOk o.arr →
    (s.anyGuard o = false → exec i s = .next (s.arrival o.arr)) ∧
    (∀ svc, s.guard0 o = false → WellFormed svc i = true → o.slot ∉ ([.v0, .v1, .k] : List Slot) → exec i s = .next (s.arrival o.arr))) ∧
  (∀ (o : OpInfo) (r : DqPop) (s : State), s.guard0 o = false → s.arrivalOk o.arr → exec (.dqpop o r) s = .next (s.arrival o.arr)) ∧
  (∀ f ∈ ([.vqntE2m1s, .vqntE4m3, .vqntE5m2] : List (OpInfo → VQnt → Instr)), ∀ (o : OpInfo) (r : VQnt) (s : State), s.guard0 o = false →
    s.arrivalOk o.arr → exec (f o r) s = .next (s.arrival o.arr)) ∧
  (∀ (c : Core) (s : State) (u : LatUnit) (v m : Word), c.rP 0 = BitVec.allOnes 64 ∧ s.landP u 0 v m = s)

/-- The frame of the operations on registers, vector and floating-point ones, conversions, permutes and copies between files among them: memory,
the registers of the I/O die, tokens, tiles, accumulators, the release buffer, loop state, flags but the arrival's, and every register as read
now stay; what changes are results in flight, one, or two where an operation has two. -/
def Obligations.RegisterFrames : Prop :=
  ∀ (o : OpInfo) (s t : State), s.issue.svc = false → s.issue.trap = none →
    let kept (n : Nat) : Prop := t.issue.trap = none → t.mem = s.mem ∧ t.io = s.io ∧ t.pkg = s.pkg ∧ t.flight = s.flight ∧ (∀ c, c ≠ s.issue.core → t.core c = s.core c) ∧
      t.cur.arch.s = s.cur.arch.s ∧ t.cur.arch.x = s.cur.arch.x ∧ t.cur.arch.v = s.cur.arch.v ∧ t.cur.arch.k = s.cur.arch.k ∧ t.cur.arch.kp = s.cur.arch.kp ∧
      t.cur.arch.d = s.cur.arch.d ∧
      t.cur.arch.p = s.cur.arch.p ∧ t.cur.arch.tok = s.cur.arch.tok ∧ t.cur.arch.loops = s.cur.arch.loops ∧ t.cur.arch.tcfg = s.cur.arch.tcfg ∧
      t.cur.tiles = s.cur.tiles ∧ t.cur.accs = s.cur.accs ∧ t.cur.sp = s.cur.sp ∧ t.cur.pc = s.cur.pc ∧ t.cur.trec = s.cur.trec ∧
      (o.arr = none → t.cur.arch.f = s.cur.arch.f ∧ t.cur.seg = s.cur.seg) ∧ (∃ l, t.cur.arch.lands = s.cur.arch.lands ++ l ∧ l.length ≤ n)
    (∀ f ∈ ([.add, .sub, .and, .or, .xor, .andn, .shl, .shr, .sra, .rol, .mul, .mulhs, .mulhu, .min, .max, .minu, .maxu, .addw, .subw, .bscan, .bscanc]
      : List (OpInfo → RRR → Instr)), ∀ r, exec (f o r) s = .next t → kept 1) ∧
    (∀ f ∈ ([.addImm, .andImm, .orImm, .xorImm, .mulImm] : List (OpInfo → RImm → Instr)), ∀ r, exec (f o r) s = .next t → kept 1) ∧
    (∀ f ∈ ([.shlImm, .shrImm, .sraImm] : List (OpInfo → RShift → Instr)), ∀ r, exec (f o r) s = .next t → kept 1) ∧
    (∀ f ∈ ([.mov, .movhi, .vbcast] : List (OpInfo → RLong → Instr)), ∀ r, exec (f o r) s = .next t → kept 1) ∧
    (∀ f ∈ ([.pand, .por, .pxor, .pandn] : List (OpInfo → PredLogic → Instr)), ∀ r, exec (f o r) s = .next t → kept 1) ∧
    (∀ r, exec (.cmp o r) s = .next t → kept 1) ∧ (∀ r, exec (.cmpImm o r) s = .next t → kept 1) ∧
    (∀ f ∈ ([.movr, .popc, .clz, .ctz] : List (OpInfo → RR → Instr)), ∀ r, exec (f o r) s = .next t → kept 1) ∧
    (∀ f ∈ ([.dfpk, .dfex, .dfexS] : List (OpInfo → DescField → Instr)), ∀ r, exec (f o r) s = .next t → kept 1) ∧
    (∀ r, exec (.mftcfg o r) s = .next t → kept 1) ∧ (∀ r, exec (.cadv o r) s = .next t → kept 2) ∧ (∀ r, exec (.xfr o r) s = .next t → kept 2) ∧
    (∀ f ∈ ([.vadd, .vsub, .vmul, .vmulhs, .vmulhu, .vmin, .vmax, .vminu, .vmaxu, .vadds, .vsubs, .vaddus, .vsubus, .vand, .vor, .vxor, .vandn, .vmulq,
        .vmac, .vmacs, .vshl, .vshr, .vsra, .vrol, .vperm, .vzipl, .vziph, .vuzpe, .vuzpo] : List (OpInfo → VInt3 → Instr)),
      ∀ r, exec (f o r) s = .next t → kept 1) ∧
    (∀ f ∈ ([.vmacwl, .vmacwh] : List (OpInfo → VInt3 → Instr)), ∀ r, exec (f o r) s = .next t → kept 1) ∧
    (∀ f ∈ ([.vabs, .vneg, .vmov, .vradd, .vrmin, .vrmax, .vrminu, .vrmaxu, .vrand, .vror, .vrxor, .vscanadd, .vscanaddx, .vscanmax, .vscanmin,
        .vscanmaxu, .vscanminu, .vrev] : List (OpInfo → VInt2 → Instr)), ∀ r, exec (f o r) s = .next t → kept 1) ∧
    (∀ f ∈ ([.vshlImm, .vshrImm, .vsraImm, .vrolImm, .vrot, .vsplat] : List (OpInfo → VIntK → Instr)), ∀ r, exec (f o r) s = .next t → kept 1) ∧
    (∀ r, exec (.vcmp o r) s = .next t → kept 1) ∧ (∀ r, exec (.vfcmp o r) s = .next t → kept 1) ∧ (∀ r, exec (.vsel o r) s = .next t → kept 1) ∧
    (∀ r, exec (.vext o r) s = .next t → kept 1) ∧
    (∀ f ∈ ([.vfadd, .vfsub, .vfmul, .vfdiv, .vfma, .vfms, .vfnma, .vfnms] : List (OpInfo → VFp3 → Instr)), ∀ r, exec (f o r) s = .next t → kept 1) ∧
    (∀ f ∈ ([.vfsqrt, .vrcp, .vrsqrt, .vexp2, .vlog2, .vsinpi, .vcospi, .vtanh, .vsigm] : List (OpInfo → VFp2 → Instr)), ∀ r, exec (f o r) s = .next t → kept 1) ∧
    (∀ f ∈ ([.vfmin, .vfmax] : List (OpInfo → VFmt3 → Instr)), ∀ r, exec (f o r) s = .next t → kept 1) ∧
    (∀ f ∈ ([.vfabs, .vfneg] : List (OpInfo → VFmt2 → Instr)), ∀ r, exec (f o r) s = .next t → kept 1) ∧
    (∀ f ∈ ([.vrfadd, .vrfmin, .vrfmax, .vscanfadd] : List (OpInfo → VRed → Instr)), ∀ r, exec (f o r) s = .next t → kept 1) ∧
    (∀ r, exec (.vcvt o r) s = .next t → kept 1) ∧ (∀ r, exec (.vdqnt o r) s = .next t → kept 1) ∧ (∀ r, exec (.vrnd o r) s = .next t → kept 1) ∧
    (∀ f ∈ ([.vqntE2m1s, .vqntE4m3, .vqntE5m2] : List (OpInfo → VQnt → Instr)), ∀ r, exec (f o r) s = .next t → kept 2)

/-- The frame of a store. At issue on a main sequencer no register, token, tile or flag changes, and nothing in memory beyond what the translation
itself does (R219): st, vst and the vector atomics outside the stash windows; a store that a window serves is one result in flight to the
scratchpad. stsp and vstsp change no memory: what lands are the bytes under their masks, in the sectors that they address.
When a released store or VAMO is performed at its home, each byte of its piece under a store's mask holds the store's byte, and every byte outside
the piece is unchanged, here for a line that stands whole in L2 without an error or a pending update, and for host memory. -/
def Obligations.StoreFrames : Prop :=
  (∀ (o : OpInfo) (s t u : State), s.issue.trap = none → s.issue.svc = false →
    let regs (u : State) : Prop := t.cur.arch.s = u.cur.arch.s ∧ t.cur.arch.x = u.cur.arch.x ∧ t.cur.arch.v = u.cur.arch.v ∧ t.cur.arch.k = u.cur.arch.k ∧
      t.cur.arch.tok = u.cur.arch.tok ∧ t.cur.pc = u.cur.pc ∧ t.cur.tiles = u.cur.tiles ∧ t.cur.accs = u.cur.accs ∧ (o.arr = none → t.cur.arch.f = u.cur.arch.f)
    let same (u : State) : Prop := t.mem = u.mem ∧ t.io = u.io ∧ t.flight = u.flight ∧ t.cur.sp = u.cur.sp ∧ regs u
    t.issue.trap = none →
    (∀ (r : SpStore) (ps : List Piece), let a := (s.scalarAddr r.am r.z r.base r.ix r.disp).toNat
      s.guard0 o = true → s.xlateR .store a (2 ^ r.z.toNat) = .ok (ps, u) → exec (.st o r) s = .next t → regs u ∧ (u.cur.wins = [] → same u)) ∧
    (∀ (r : VSp) (ps : List Piece), r.sz.toNat < 3 →
      let n := 32 * 2 ^ r.sz.toNat
      let mask := s.activeBytes o (8 * 2 ^ r.g.toNat) n
      exec (.vst o r) s = .next t → (mask = 0 → same s) ∧
        (mask ≠ 0 → s.xlateTouched .store (s.vectorAddr r.base r.ix r.idx r.disp).toNat n mask = .ok (ps, u) → regs u ∧ (u.cur.wins = [] → same u))) ∧
    (∀ f ∈ ([.vamoAdd, .vamoAnd, .vamoOr, .vamoXor, .vamoSmin, .vamoSmax, .vamoUmin, .vamoUmax, .vamoSwap] : List (OpInfo → VAtomic → Instr)),
      ∀ (r : VAtomic) (ps : List Piece), let va := (v64 (s.cur.rV r.base.toNat) + BitVec.ofInt 64 r.disp.toInt).toNat
        (∃ j, j < 256 / (8 * 2 ^ r.w.toNat) ∧ s.guardE o (8 * 2 ^ r.w.toNat) j = true) → s.xlateR .atomic va 32 = .ok (ps, u) →
        exec (f o r) s = .next t → same u) ∧
    (∀ (r : SpStore), let sa := (s.scalarAddr r.am r.z r.base r.ix r.disp).toNat
      s.guard0 o = true → exec (.stsp o r) s = .next t → same s ∧ ∃ x, t.cur.arch.lands = s.cur.arch.lands ++ [x] ∧ x.left = 1 ∧
        x.dst = .sp (s.cur.spVis sa / 32) ∧ ∀ i < 256, x.mask.getLsbD i = true → s.cur.spVis sa % 32 ≤ i / 8 ∧ i / 8 < s.cur.spVis sa % 32 + 2 ^ r.z.toNat) ∧
    (∀ (r : VSp), r.sz.toNat < 3 →
      let n := 32 * 2 ^ r.sz.toNat
      let mask := s.activeBytes o (8 * 2 ^ r.g.toNat) n
      let sa := (s.vectorAddr r.base r.ix r.idx r.disp).toNat
      exec (.vstsp o r) s = .next t → same s ∧ ∃ l, t.cur.arch.lands = s.cur.arch.lands ++ l ∧ ∀ x ∈ l, ∃ i < n / 32,
        x.dst = .sp (s.cur.spVis ((sa + 32 * i) % 2 ^ 64) / 32) ∧ x.left = 1 ∧ ∀ j < 256, x.mask.getLsbD j = true → mask.testBit (32 * i + j / 8) = true)) ∧
  (∀ (s t : State) (k seq core ctx pa : Nat) (rel : Rel) (time : Word),
    s.flight[k]? = some ⟨seq, core, ctx, rel, time⟩ → s.flightReady k = true → pa % 32 = 0 → s.pkg.hostHeld.has (pa / 64) = false →
    ((tierOf pa = .host ∧ s.pkg.hostUp = true) ∨ (tierOf pa = .hbm ∧ s.l2Err = [] ∧ s.l2Cor = [] ∧ s.sliceDue (s.home (pa / 64)) = false ∧ ∃ n l, s.lineOf (pa / 64) = some (n, l) ∧ l.valid = 3 ∧ l.u = false)) →
    exec (.homeSliceAccess k) s = .next t →
    (∀ key cls val mask, rel = .store pa key cls val mask → s.hostLate core pa = false →
      ∀ a : Nat, SMap.getD t.mem a 0 = if pa ≤ a ∧ a < pa + 32 ∧ mask.getLsbD (a - pa) = true then BitVec.ofNat 8 (bits val.toNat (8 * (a - pa)) 8) else SMap.getD s.mem a 0) ∧
    ((∃ key cls aop w val mask, rel = .vamo pa key cls aop w val mask) → ∀ a : Nat, ¬ (pa ≤ a ∧ a < pa + 32) → SMap.getD t.mem a 0 = SMap.getD s.mem a 0))

/-- R199, R202, R224, R227, R229, R230, R232, R238, R432, R433: taking a cause on a main sequencer rolls the core back to its checkpoint, writes the trap
record and parks; its record goes to the fault-service queue; eret and a resume start it again there. A cause of the service sequencer stops
its handler and waits for the next commit. The trap instruction raises 0x3C0 and its number. -/
def Obligations.TrapEntryAndReturn : Prop :=
  (∀ (s : State) (c : TrapInfo), let k := s.issue.core
    s.issue.svc = false → c.cause ≠ 0x140#10 → c.cause ≠ 0x142#10 → c.token = none → c.stale = none → s.cur.seg.forks = [] → s.cur.keepErr = false →
    let t := s.takeTrap c
    (t.core k).run = .parked ∧ (t.core k).pc = s.cur.seg.ckaddr ∧ (t.core k).arch = s.cur.seg.ck ∧ (t.core k).seg.rel = [] ∧ (t.core k).seg.count = 0 ∧
    (t.core k).loads = [] ∧ (t.core k).mq = [] ∧ (t.core k).aq = [] ∧ (t.core k).dq = [] ∧ (t.core k).b0 = s.cur.cb0 ∧ (t.core k).b1 = s.cur.cb1 ∧
    (t.core k).seg.log = s.cur.seg.log ∧ (t.core k).seg.ckaddr = s.cur.seg.ckaddr ∧
     (t.core k).trec = { cause := c.cause, slot := c.slot, kind := if contextFatal c.cause then 4 else 1, ctx := BitVec.ofNat 6 (s.ctxOf k), rolls := BitVec.ofNat 8 (min (s.cur.seg.rolls + 1) 255), core := BitVec.ofNat 16 k, baddr := (c.site.getD (s.issue.haddr, s.cur.seg.count)).1, faddr := c.faddr, ckaddr := s.cur.seg.ckaddr, lrec := (match s.cur.chunk with | some h => h.lrec | none => 0), seglen := BitVec.ofNat 32 (c.site.getD (s.issue.haddr, s.cur.seg.before)).2, time := s.tmr, info := c.info } ∧
    t.recq = s.recq ++ [⟨1, 0, (t.core k).trec.bytes, some k⟩] ∧ t.mem = s.mem ∧ ∀ j, j ≠ k → t.core j = s.core j) ∧
  -- one that found the loss of a dirty line stops its core like the others of the context: no record is queued (R146, R463)
  (∀ (s : State) (c : TrapInfo), let k := s.issue.core
    c.cause = 0x142#10 → let t := s.takeTrap c
    (t.core k).run = .parked ∧ (t.core k).pc = s.cur.seg.ckaddr ∧ (t.core k).trec.cause = 0x142#10 ∧ (t.core k).trec.kind = 5 ∧ (t.core k).trec.slot = 0xF ∧
    (t.core k).trec.faddr = c.faddr ∧ t.recq = s.recq ∧ (s.issue.svc = true → (t.core k).svc.busy = false)) ∧
  (∀ (s : State) (c : TrapInfo), s.issue.svc = true → c.cause ≠ 0x142#10 → let t := s.takeTrap c
    t.cur.svc.busy = false ∧ t.cur.svc.trap = some ({ c with slot := 0xD }, s.issue.haddr) ∧ t.cur.run = s.cur.run ∧ t.cur.arch = s.cur.arch ∧ t.recq = s.recq) ∧
  -- a rollback that meets an error in what it restores from takes 0x145, context-fatal (R238), on a control core 0x208 (R71)
  (∀ (s : State) (c : TrapInfo), let k := s.issue.core
    s.issue.svc = false → c.cause ≠ 0x140#10 → c.cause ≠ 0x142#10 → s.cur.keepErr = true →
    let t := s.takeTrap c
    (t.core k).run = .parked ∧ (t.core k).pc = s.cur.seg.ckaddr ∧ (t.core k).trec.cause = (if 256 ≤ k then 0x208#10 else 0x145#10) ∧ (t.core k).trec.kind = 4 ∧ (t.core k).keepErr = false) ∧
  (∀ (s : State) (k : Nat), (s.core k).run = .parked → s.recWaits k = false → (s.core k).preempt = none → ∃ t, exec (.coreResume k) s = .next t ∧ (t.core k).run = .running ∧
    (t.core k).pc = (s.core k).pc ∧ (t.core k).arch = (s.core k).arch ∧ (t.core k).trec = (s.core k).trec ∧ t.mem = s.mem ∧ ∀ j, j ≠ k → t.core j = s.core j) ∧
  (∀ (o : OpInfo) (r : TrapArgs) (s : State), s.issue.svc = false → s.guard0 o = true → s.arrivalOk o.arr → s.cur.seg.forks = [] → s.cur.keepErr = false →
    ∃ t, exec (.trap o r) s = .next t ∧ t.cur.run = .parked ∧ t.cur.trec.cause = 0x3C0#10 + r.imm.setWidth 10 ∧ t.cur.pc = s.cur.seg.ckaddr)

/-- R154: an atomic that is not aligned to its full width takes 0x082 with its address, whatever else holds, and an aligned one stays in one
sector, one line and one page. (BFI, FFCS and PLSET are here those of a context that may use them: R159's check comes before.) -/
def Obligations.AtomicAlignment : Prop :=
  (∀ (o : OpInfo) (s : State), s.arrivalOk o.arr →
    let trap (a : Word) : Host.Outcome State Fault Refusal := .next (s.takeTrap { cause := 0x082#10, faddr := a, slot := BitVec.ofNat 4 (slotNum o.slot) })
    (∀ f ∈ ([.atomAdd, .atomAnd, .atomOr, .atomXor, .atomSmin, .atomSmax, .atomUmin, .atomUmax, .atomSwap, .atomCas] : List (OpInfo → Atomic → Instr)),
      ∀ r : Atomic, let a := s.gpr .s r.base + BitVec.ofInt 64 r.disp.toInt
        s.guard0 o = true → a.toNat % (if r.w = 1 then 8 else 4) ≠ 0 → exec (f o r) s = trap a) ∧
    ((s.who.ctx < 64 → (s.ioGet (0xA800 + 8 * s.who.ctx)).getLsbD 0 = true) → s.guard0 o = true →
      (∀ f ∈ ([.atomBfi, .atomFfcs] : List (OpInfo → BitAtomic → Instr)), ∀ r : BitAtomic, let a := s.gpr .s r.base + BitVec.ofInt 64 r.disp.toInt
        a.toNat % 8 ≠ 0 → exec (f o r) s = trap a) ∧
      (∀ r : PlsetArgs, let a := s.gpr .s r.base + BitVec.ofInt 64 r.disp.toInt
        a.toNat % 8 ≠ 0 → exec (.atomPlset o r) s = trap a)) ∧
    (∀ f ∈ ([.vamoAdd, .vamoAnd, .vamoOr, .vamoXor, .vamoSmin, .vamoSmax, .vamoUmin, .vamoUmax, .vamoSwap] : List (OpInfo → VAtomic → Instr)),
      ∀ r : VAtomic, let a := v64 (s.cur.rV r.base.toNat) + BitVec.ofInt 64 r.disp.toInt
        (∃ j, j < 256 / (8 * 2 ^ r.w.toNat) ∧ s.guardE o (8 * 2 ^ r.w.toNat) j = true) → a.toNat % 32 ≠ 0 → exec (f o r) s = trap a)) ∧
  (∀ a w : Nat, w ∈ [4, 8, 32] → a % w = 0 → ∀ i < w, (a + i) / 32 = a / 32 ∧ (a + i) / 64 = a / 64 ∧ (a + i) / 65536 = a / 65536)

/-- R429: a control core's main sequencer runs at supervisor privilege, every other sequencer at user privilege. What an access is checked for
is that privilege, and it depends on nothing that an instruction could change: while a sequencer issues, its privilege stays. -/
def Obligations.PrivilegeOfSequencers : Prop :=
  (∀ s : State, s.supervisor = true ↔ 256 ≤ s.issue.core ∧ s.issue.svc = false) ∧ (∀ s : State, s.who.sup = s.supervisor) ∧
  (∀ (i : Instr) (s t : State), exec i s = .next t → t.issue.core = s.issue.core → t.issue.svc = s.issue.svc → t.supervisor = s.supervisor)
end

