-- ==== Sys2Proof/Laws/Exec.lean ====
section
/-! SUPPORT. The meaning of each instruction by name, so that no proof unfolds exec. -/
namespace Sys2Proof.Machine
open Sys2Proof

@[simp] theorem exec_packageReset (s : State) : exec .packageReset s = execPackageReset s := rfl
@[simp] theorem exec_bootImageVerify (img : BootImage) (s : State) : exec (.bootImageVerify img) s = execBootImageVerify img s := rfl
@[simp] theorem exec_clusterPowerUp (n : BitVec 6) (s : State) : exec (.clusterPowerUp n) s = execClusterPowerUp n s := rfl
@[simp] theorem exec_arrayPowerGate (core : Nat) (s : State) : exec (.arrayPowerGate core) s = execArrayPowerGate core s := rfl
@[simp] theorem exec_arrayEnable (core : Nat) (s : State) : exec (.arrayEnable core) s = execArrayEnable core s := rfl
@[simp] theorem exec_oftFrameReceive (port : BitVec 3) (f : PortFrame) (s : State) : exec (.oftFrameReceive port f) s = execOftFrameReceive port f s := rfl
@[simp] theorem exec_oftPutFlagIncrement (k : Nat) (s : State) : exec (.oftPutFlagIncrement k) s = execOftPutFlagIncrement k s := rfl
@[simp] theorem exec_oftRetransmit (k : Nat) (s : State) : exec (.oftRetransmit k) s = execOftRetransmit k s := rfl
@[simp] theorem exec_oftAckTimeout (k : Nat) (s : State) : exec (.oftAckTimeout k) s = execOftAckTimeout k s := rfl
@[simp] theorem exec_portLinkDown (port : BitVec 3) (s : State) : exec (.portLinkDown port) s = execPortLinkDown port s := rfl
@[simp] theorem exec_portLinkUp (port : BitVec 3) (full : Bool) (s : State) : exec (.portLinkUp port full) s = execPortLinkUp port full s := rfl
@[simp] theorem exec_portFailover (node : BitVec 12) (cls : BitVec 4) (port : BitVec 3) (s : State) : exec (.portFailover node cls port) s = execPortFailover node cls port s := rfl
@[simp] theorem exec_portStatClr (port : BitVec 3) (s : State) : exec (.portStatClr port) s = execPortStatClr port s := rfl
@[simp] theorem exec_portDisable (port : BitVec 3) (s : State) : exec (.portDisable port) s = execPortDisable port s := rfl
@[simp] theorem exec_hostMemRead (pa : BitVec 52) (n : Nat) (s : State) : exec (.hostMemRead pa n) s = execHostMemRead pa n s := rfl
@[simp] theorem exec_hostMemWrite (pa : BitVec 52) (data : List Byte) (s : State) : exec (.hostMemWrite pa data) s = execHostMemWrite pa data s := rfl
@[simp] theorem exec_backInvalidateResponse (line : BitVec 46) (s : State) : exec (.backInvalidateResponse line) s = execBackInvalidateResponse line s := rfl
@[simp] theorem exec_hostSnoop (line : BitVec 46) (s : State) : exec (.hostSnoop line) s = execHostSnoop line s := rfl
@[simp] theorem exec_hostAccessTimeout (core k : Nat) (s : State) : exec (.hostAccessTimeout core k) s = execHostAccessTimeout core k s := rfl
@[simp] theorem exec_hostLinkDown (s : State) : exec .hostLinkDown s = execHostLinkDown s := rfl
@[simp] theorem exec_hostLinkTrain (width : BitVec 5) (rate : BitVec 8) (s : State) : exec (.hostLinkTrain width rate) s = execHostLinkTrain width rate s := rfl
@[simp] theorem exec_streamEnable (n : BitVec 6) (s : State) : exec (.streamEnable n) s = execStreamEnable n s := rfl
@[simp] theorem exec_launchComplete (k : Nat) (s : State) : exec (.launchComplete k) s = execLaunchComplete k s := rfl
@[simp] theorem exec_expPortIsolate (s : State) : exec .expPortIsolate s = execExpPortIsolate s := rfl
@[simp] theorem exec_expIsolationEnd (s : State) : exec .expIsolationEnd s = execExpIsolationEnd s := rfl
@[simp] theorem exec_expPoisonSweepDone (s : State) : exec .expPoisonSweepDone s = execExpPoisonSweepDone s := rfl
@[simp] theorem exec_expRetrain (s : State) : exec .expRetrain s = execExpRetrain s := rfl
@[simp] theorem exec_expLinkChange (up : Bool) (speed : BitVec 2) (capacity : Nat) (s : State) : exec (.expLinkChange up speed capacity) s = execExpLinkChange up speed capacity s := rfl
@[simp] theorem exec_tier2ReadResponse (pa : BitVec 52) (poison : Bool) (s : State) : exec (.tier2ReadResponse pa poison) s = execTier2ReadResponse pa poison s := rfl
@[simp] theorem exec_bootFromHost (img : List Byte) (s : State) : exec (.bootFromHost img) s = execBootFromHost img s := rfl
@[simp] theorem exec_verifyAndWriteFlash (img : List Byte) (s : State) : exec (.verifyAndWriteFlash img) s = execVerifyAndWriteFlash img s := rfl
@[simp] theorem exec_attestationRequest (nonce : BitVec 256) (s : State) : exec (.attestationRequest nonce) s = execAttestationRequest nonce s := rfl
@[simp] theorem exec_keyLoad (k : BitVec 6) (s : State) : exec (.keyLoad k) s = execKeyLoad k s := rfl
@[simp] theorem exec_keyGen (k : BitVec 6) (s : State) : exec (.keyGen k) s = execKeyGen k s := rfl
@[simp] theorem exec_keyZero (k : BitVec 6) (s : State) : exec (.keyZero k) s = execKeyZero k s := rfl
@[simp] theorem exec_keyCommandComplete (k : BitVec 6) (s : State) : exec (.keyCommandComplete k) s = execKeyCommandComplete k s := rfl
@[simp] theorem exec_setEndpointId (eid : BitVec 8) (s : State) : exec (.setEndpointId eid) s = execSetEndpointId eid s := rfl
@[simp] theorem exec_getEndpointId (s : State) : exec .getEndpointId s = execGetEndpointId s := rfl
@[simp] theorem exec_getMessageTypeSupport (s : State) : exec .getMessageTypeSupport s = execGetMessageTypeSupport s := rfl
@[simp] theorem exec_i3cDynamicAddressAssignment (addr : BitVec 7) (s : State) : exec (.i3cDynamicAddressAssignment addr) s = execI3cDynamicAddressAssignment addr s := rfl
@[simp] theorem exec_cap (msg : BitVec 384) (s : State) : exec (.cap msg) s = execCap msg s := rfl
@[simp] theorem exec_readTelemetry (s : State) : exec .readTelemetry s = execReadTelemetry s := rfl
@[simp] theorem exec_dumpStatus (s : State) : exec .dumpStatus s = execDumpStatus s := rfl
@[simp] theorem exec_alertAcknowledge (kind : BitVec 8) (s : State) : exec (.alertAcknowledge kind) s = execAlertAcknowledge kind s := rfl
@[simp] theorem exec_packageFatal (cause : Cause) (s : State) : exec (.packageFatal cause) s = execPackageFatal cause s := rfl
@[simp] theorem exec_rotWatchdogExpire (s : State) : exec .rotWatchdogExpire s = execRotWatchdogExpire s := rfl
@[simp] theorem exec_thermalTrip (s : State) : exec .thermalTrip s = execThermalTrip s := rfl
@[simp] theorem exec_dumpWritten (s : State) : exec .dumpWritten s = execDumpWritten s := rfl
@[simp] theorem exec_dumpRelease (s : State) : exec .dumpRelease s = execDumpRelease s := rfl
@[simp] theorem exec_settlingWindowEnd (core : Nat) (s : State) : exec (.settlingWindowEnd core) s = execSettlingWindowEnd core s := rfl
@[simp] theorem exec_railOvercurrent (rail : BitVec 3) (s : State) : exec (.railOvercurrent rail) s = execRailOvercurrent rail s := rfl
@[simp] theorem exec_railCeilingLowerStep (rail : RailCurrent) (s : State) : exec (.railCeilingLowerStep rail) s = execRailCeilingLowerStep rail s := rfl
@[simp] theorem exec_railCeilingRaiseStep (rail : BitVec 3) (s : State) : exec (.railCeilingRaiseStep rail) s = execRailCeilingRaiseStep rail s := rfl
@[simp] theorem exec_phaseFail (rail : BitVec 3) (s : State) : exec (.phaseFail rail) s = execPhaseFail rail s := rfl
@[simp] theorem exec_thermalCeilingStep (die : BitVec 2) (temp : BitVec 8) (s : State) : exec (.thermalCeilingStep die temp) s = execThermalCeilingStep die temp s := rfl
@[simp] theorem exec_grantRecompute (used : Nat) (s : State) : exec (.grantRecompute used) s = execGrantRecompute used s := rfl
@[simp] theorem exec_placementDecision (s : State) : exec .placementDecision s = execPlacementDecision s := rfl
@[simp] theorem exec_chunkStart (core : Nat) (s : State) : exec (.chunkStart core) s = execChunkStart core s := rfl
@[simp] theorem exec_tailTileRequest (core : Nat) (s : State) : exec (.tailTileRequest core) s = execTailTileRequest core s := rfl
@[simp] theorem exec_preemptRequest (core : Nat) (s : State) : exec (.preemptRequest core) s = execPreemptRequest core s := rfl
@[simp] theorem exec_preemptGraceExpire (core : Nat) (s : State) : exec (.preemptGraceExpire core) s = execPreemptGraceExpire core s := rfl
@[simp] theorem exec_chunkSwitchIn (core : Nat) (s : State) : exec (.chunkSwitchIn core) s = execChunkSwitchIn core s := rfl
@[simp] theorem exec_checkpointBoundOverrun (core : Nat) (s : State) : exec (.checkpointBoundOverrun core) s = execCheckpointBoundOverrun core s := rfl
@[simp] theorem exec_gangStart (launch : Nat) (s : State) : exec (.gangStart launch) s = execGangStart launch s := rfl
@[simp] theorem exec_gangWaitTimeout (launch : Nat) (s : State) : exec (.gangWaitTimeout launch) s = execGangWaitTimeout launch s := rfl
@[simp] theorem exec_barrierArrival (k : Nat) (s : State) : exec (.barrierArrival k) s = execBarrierArrival k s := rfl
@[simp] theorem exec_homeSliceAccess (k : Nat) (s : State) : exec (.homeSliceAccess k) s = execHomeSliceAccess k s := rfl
@[simp] theorem exec_sliceRetireComplete (slice : Nat) (s : State) : exec (.sliceRetireComplete slice) s = execSliceRetireComplete slice s := rfl
@[simp] theorem exec_l2FillReturn (pa : BitVec 52) (s : State) : exec (.l2FillReturn pa) s = execL2FillReturn pa s := rfl
@[simp] theorem exec_patrolScrub (t : ScrubTarget) (s : State) : exec (.patrolScrub t) s = execPatrolScrub t s := rfl
@[simp] theorem exec_blazeMapSave (s : State) : exec .blazeMapSave s = execBlazeMapSave s := rfl
@[simp] theorem exec_errorInject (s : State) : exec .errorInject s = execErrorInject s := rfl
@[simp] theorem exec_updatePairAdmit (k : Nat) (s : State) : exec (.updatePairAdmit k) s = execUpdatePairAdmit k s := rfl
@[simp] theorem exec_regionRegisterWrite (off : Nat) (v : Word) (s : State) : exec (.regionRegisterWrite off v) s = execRegionRegisterWrite off v s := rfl
@[simp] theorem exec_bundleIssue (core : Nat) (s : State) : exec (.bundleIssue core) s = execBundleIssue core s := rfl
@[simp] theorem exec_stallBundle (core : Nat) (s : State) : exec (.stallBundle core) s = execStallBundle core s := rfl
@[simp] theorem exec_stretchCycle (core : Nat) (s : State) : exec (.stretchCycle core) s = execStretchCycle core s := rfl
@[simp] theorem exec_serviceBundleIssue (core : Nat) (s : State) : exec (.serviceBundleIssue core) s = execServiceBundleIssue core s := rfl
@[simp] theorem exec_handlerStart (core : Nat) (s : State) : exec (.handlerStart core) s = execHandlerStart core s := rfl
@[simp] theorem exec_serviceTimer (core : Nat) (s : State) : exec (.serviceTimer core) s = execServiceTimer core s := rfl
@[simp] theorem exec_coreResume (core : Nat) (s : State) : exec (.coreResume core) s = execCoreResume core s := rfl
@[simp] theorem exec_contextTerminate (ctx : BitVec 6) (cause : Cause) (s : State) : exec (.contextTerminate ctx cause) s = execContextTerminate ctx cause s := rfl
@[simp] theorem exec_contextTerminationDone (ctx : BitVec 6) (s : State) : exec (.contextTerminationDone ctx) s = execContextTerminationDone ctx s := rfl
@[simp] theorem exec_fsqEnable (s : State) : exec .fsqEnable s = execFsqEnable s := rfl
@[simp] theorem exec_bankFillStart (core : Nat) (s : State) : exec (.bankFillStart core) s = execBankFillStart core s := rfl
@[simp] theorem exec_bankFillDone (core : Nat) (s : State) : exec (.bankFillDone core) s = execBankFillDone core s := rfl
@[simp] theorem exec_sideCarComputeDone (core : Nat) (s : State) : exec (.sideCarComputeDone core) s = execSideCarComputeDone core s := rfl
@[simp] theorem exec_passStart (core : Nat) (s : State) : exec (.passStart core) s = execPassStart core s := rfl
@[simp] theorem exec_passDrainDone (core : Nat) (s : State) : exec (.passDrainDone core) s = execPassDrainDone core s := rfl
@[simp] theorem exec_tileUnitOpDone (core : Nat) (s : State) : exec (.tileUnitOpDone core) s = execTileUnitOpDone core s := rfl
@[simp] theorem exec_engineCauseReport (core : Nat) (s : State) : exec (.engineCauseReport core) s = execEngineCauseReport core s := rfl
@[simp] theorem exec_copyComplete (core k : Nat) (s : State) : exec (.copyComplete core k) s = execCopyComplete core k s := rfl
@[simp] theorem exec_queueLoaderRead (core : Nat) (s : State) : exec (.queueLoaderRead core) s = execQueueLoaderRead core s := rfl
@[simp] theorem exec_dqEntryFilled (core : Nat) (s : State) : exec (.dqEntryFilled core) s = execDqEntryFilled core s := rfl
@[simp] theorem exec_globalLoadComplete (core k : Nat) (s : State) : exec (.globalLoadComplete core k) s = execGlobalLoadComplete core k s := rfl
@[simp] theorem exec_atomicComplete (core k : Nat) (s : State) : exec (.atomicComplete core k) s = execAtomicComplete core k s := rfl
@[simp] theorem exec_remotePostDeliver (k : Nat) (s : State) : exec (.remotePostDeliver k) s = execRemotePostDeliver k s := rfl
@[simp] theorem exec_waitlineWake (core k : Nat) (s : State) : exec (.waitlineWake core k) s = execWaitlineWake core k s := rfl
@[simp] theorem exec_waitlineTimeout (core k : Nat) (s : State) : exec (.waitlineTimeout core k) s = execWaitlineTimeout core k s := rfl
@[simp] theorem exec_launchAnswer (core : Nat) (s : State) : exec (.launchAnswer core) s = execLaunchAnswer core s := rfl
@[simp] theorem exec_registerWrite (off : Nat) (v : Word) (s : State) : exec (.registerWrite off v) s = execRegisterWrite off v s := rfl
@[simp] theorem exec_nop (o : OpInfo) (s : State) : exec (.nop o) s = execNop o s := rfl
@[simp] theorem exec_add (o : OpInfo) (r : RRR) (s : State) : exec (.add o r) s = execAdd o r s := rfl
@[simp] theorem exec_sub (o : OpInfo) (r : RRR) (s : State) : exec (.sub o r) s = execSub o r s := rfl
@[simp] theorem exec_and (o : OpInfo) (r : RRR) (s : State) : exec (.and o r) s = execAnd o r s := rfl
@[simp] theorem exec_or (o : OpInfo) (r : RRR) (s : State) : exec (.or o r) s = execOr o r s := rfl
@[simp] theorem exec_xor (o : OpInfo) (r : RRR) (s : State) : exec (.xor o r) s = execXor o r s := rfl
@[simp] theorem exec_andn (o : OpInfo) (r : RRR) (s : State) : exec (.andn o r) s = execAndn o r s := rfl
@[simp] theorem exec_shl (o : OpInfo) (r : RRR) (s : State) : exec (.shl o r) s = execShl o r s := rfl
@[simp] theorem exec_shr (o : OpInfo) (r : RRR) (s : State) : exec (.shr o r) s = execShr o r s := rfl
@[simp] theorem exec_sra (o : OpInfo) (r : RRR) (s : State) : exec (.sra o r) s = execSra o r s := rfl
@[simp] theorem exec_rol (o : OpInfo) (r : RRR) (s : State) : exec (.rol o r) s = execRol o r s := rfl
@[simp] theorem exec_mul (o : OpInfo) (r : RRR) (s : State) : exec (.mul o r) s = execMul o r s := rfl
@[simp] theorem exec_mulhs (o : OpInfo) (r : RRR) (s : State) : exec (.mulhs o r) s = execMulhs o r s := rfl
@[simp] theorem exec_mulhu (o : OpInfo) (r : RRR) (s : State) : exec (.mulhu o r) s = execMulhu o r s := rfl
@[simp] theorem exec_min (o : OpInfo) (r : RRR) (s : State) : exec (.min o r) s = execMin o r s := rfl
@[simp] theorem exec_max (o : OpInfo) (r : RRR) (s : State) : exec (.max o r) s = execMax o r s := rfl
@[simp] theorem exec_minu (o : OpInfo) (r : RRR) (s : State) : exec (.minu o r) s = execMinu o r s := rfl
@[simp] theorem exec_maxu (o : OpInfo) (r : RRR) (s : State) : exec (.maxu o r) s = execMaxu o r s := rfl
@[simp] theorem exec_addw (o : OpInfo) (r : RRR) (s : State) : exec (.addw o r) s = execAddw o r s := rfl
@[simp] theorem exec_subw (o : OpInfo) (r : RRR) (s : State) : exec (.subw o r) s = execSubw o r s := rfl
@[simp] theorem exec_movr (o : OpInfo) (r : RR) (s : State) : exec (.movr o r) s = execMovr o r s := rfl
@[simp] theorem exec_addImm (o : OpInfo) (r : RImm) (s : State) : exec (.addImm o r) s = execAddImm o r s := rfl
@[simp] theorem exec_andImm (o : OpInfo) (r : RImm) (s : State) : exec (.andImm o r) s = execAndImm o r s := rfl
@[simp] theorem exec_orImm (o : OpInfo) (r : RImm) (s : State) : exec (.orImm o r) s = execOrImm o r s := rfl
@[simp] theorem exec_xorImm (o : OpInfo) (r : RImm) (s : State) : exec (.xorImm o r) s = execXorImm o r s := rfl
@[simp] theorem exec_shlImm (o : OpInfo) (r : RShift) (s : State) : exec (.shlImm o r) s = execShlImm o r s := rfl
@[simp] theorem exec_shrImm (o : OpInfo) (r : RShift) (s : State) : exec (.shrImm o r) s = execShrImm o r s := rfl
@[simp] theorem exec_sraImm (o : OpInfo) (r : RShift) (s : State) : exec (.sraImm o r) s = execSraImm o r s := rfl
@[simp] theorem exec_mulImm (o : OpInfo) (r : RImm) (s : State) : exec (.mulImm o r) s = execMulImm o r s := rfl
@[simp] theorem exec_mov (o : OpInfo) (r : RLong) (s : State) : exec (.mov o r) s = execMov o r s := rfl
@[simp] theorem exec_movhi (o : OpInfo) (r : RLong) (s : State) : exec (.movhi o r) s = execMovhi o r s := rfl
@[simp] theorem exec_cmp (o : OpInfo) (r : CmpReg) (s : State) : exec (.cmp o r) s = execCmp o r s := rfl
@[simp] theorem exec_cmpImm (o : OpInfo) (r : CmpImm) (s : State) : exec (.cmpImm o r) s = execCmpImm o r s := rfl
@[simp] theorem exec_pand (o : OpInfo) (r : PredLogic) (s : State) : exec (.pand o r) s = execPand o r s := rfl
@[simp] theorem exec_por (o : OpInfo) (r : PredLogic) (s : State) : exec (.por o r) s = execPor o r s := rfl
@[simp] theorem exec_pxor (o : OpInfo) (r : PredLogic) (s : State) : exec (.pxor o r) s = execPxor o r s := rfl
@[simp] theorem exec_pandn (o : OpInfo) (r : PredLogic) (s : State) : exec (.pandn o r) s = execPandn o r s := rfl
@[simp] theorem exec_xfr (o : OpInfo) (r : Xfer) (s : State) : exec (.xfr o r) s = execXfr o r s := rfl
@[simp] theorem exec_br (o : OpInfo) (r : Disp) (s : State) : exec (.br o r) s = execBr o r s := rfl
@[simp] theorem exec_call (o : OpInfo) (r : Disp) (s : State) : exec (.call o r) s = execCall o r s := rfl
@[simp] theorem exec_brz (o : OpInfo) (r : BrReg) (s : State) : exec (.brz o r) s = execBrz o r s := rfl
@[simp] theorem exec_brnz (o : OpInfo) (r : BrReg) (s : State) : exec (.brnz o r) s = execBrnz o r s := rfl
@[simp] theorem exec_ret (o : OpInfo) (s : State) : exec (.ret o) s = execRet o s := rfl
@[simp] theorem exec_jr (o : OpInfo) (r : JrArgs) (s : State) : exec (.jr o r) s = execJr o r s := rfl
@[simp] theorem exec_loop (o : OpInfo) (r : LoopReg) (s : State) : exec (.loop o r) s = execLoop o r s := rfl
@[simp] theorem exec_loopi (o : OpInfo) (r : LoopImm) (s : State) : exec (.loopi o r) s = execLoopi o r s := rfl
@[simp] theorem exec_mtcfg (o : OpInfo) (r : MtcfgArgs) (s : State) : exec (.mtcfg o r) s = execMtcfg o r s := rfl
@[simp] theorem exec_mftcfg (o : OpInfo) (r : MftcfgArgs) (s : State) : exec (.mftcfg o r) s = execMftcfg o r s := rfl
@[simp] theorem exec_dfpk (o : OpInfo) (r : DescField) (s : State) : exec (.dfpk o r) s = execDfpk o r s := rfl
@[simp] theorem exec_dfex (o : OpInfo) (r : DescField) (s : State) : exec (.dfex o r) s = execDfex o r s := rfl
@[simp] theorem exec_dfexS (o : OpInfo) (r : DescField) (s : State) : exec (.dfexS o r) s = execDfexS o r s := rfl
@[simp] theorem exec_ldsp (o : OpInfo) (r : SpLoad) (s : State) : exec (.ldsp o r) s = execLdsp o r s := rfl
@[simp] theorem exec_stsp (o : OpInfo) (r : SpStore) (s : State) : exec (.stsp o r) s = execStsp o r s := rfl
@[simp] theorem exec_ld (o : OpInfo) (r : GlLoad) (s : State) : exec (.ld o r) s = execLd o r s := rfl
@[simp] theorem exec_st (o : OpInfo) (r : SpStore) (s : State) : exec (.st o r) s = execSt o r s := rfl
@[simp] theorem exec_atomAdd (o : OpInfo) (r : Atomic) (s : State) : exec (.atomAdd o r) s = execAtomAdd o r s := rfl
@[simp] theorem exec_atomAnd (o : OpInfo) (r : Atomic) (s : State) : exec (.atomAnd o r) s = execAtomAnd o r s := rfl
@[simp] theorem exec_atomOr (o : OpInfo) (r : Atomic) (s : State) : exec (.atomOr o r) s = execAtomOr o r s := rfl
@[simp] theorem exec_atomXor (o : OpInfo) (r : Atomic) (s : State) : exec (.atomXor o r) s = execAtomXor o r s := rfl
@[simp] theorem exec_atomSmin (o : OpInfo) (r : Atomic) (s : State) : exec (.atomSmin o r) s = execAtomSmin o r s := rfl
@[simp] theorem exec_atomSmax (o : OpInfo) (r : Atomic) (s : State) : exec (.atomSmax o r) s = execAtomSmax o r s := rfl
@[simp] theorem exec_atomUmin (o : OpInfo) (r : Atomic) (s : State) : exec (.atomUmin o r) s = execAtomUmin o r s := rfl
@[simp] theorem exec_atomUmax (o : OpInfo) (r : Atomic) (s : State) : exec (.atomUmax o r) s = execAtomUmax o r s := rfl
@[simp] theorem exec_atomSwap (o : OpInfo) (r : Atomic) (s : State) : exec (.atomSwap o r) s = execAtomSwap o r s := rfl
@[simp] theorem exec_atomCas (o : OpInfo) (r : Atomic) (s : State) : exec (.atomCas o r) s = execAtomCas o r s := rfl
@[simp] theorem exec_atomBfi (o : OpInfo) (r : BitAtomic) (s : State) : exec (.atomBfi o r) s = execAtomBfi o r s := rfl
@[simp] theorem exec_atomFfcs (o : OpInfo) (r : BitAtomic) (s : State) : exec (.atomFfcs o r) s = execAtomFfcs o r s := rfl
@[simp] theorem exec_atomPlset (o : OpInfo) (r : PlsetArgs) (s : State) : exec (.atomPlset o r) s = execAtomPlset o r s := rfl
@[simp] theorem exec_upd (o : OpInfo) (r : UpdArgs) (s : State) : exec (.upd o r) s = execUpd o r s := rfl
@[simp] theorem exec_pref (o : OpInfo) (r : PrefArgs) (s : State) : exec (.pref o r) s = execPref o r s := rfl
@[simp] theorem exec_waitline (o : OpInfo) (r : WaitlineArgs) (s : State) : exec (.waitline o r) s = execWaitline o r s := rfl
@[simp] theorem exec_launch (o : OpInfo) (r : LaunchArgs) (s : State) : exec (.launch o r) s = execLaunch o r s := rfl
@[simp] theorem exec_exit (o : OpInfo) (s : State) : exec (.exit o) s = execExit o s := rfl
@[simp] theorem exec_mfsr (o : OpInfo) (r : SrMove) (s : State) : exec (.mfsr o r) s = execMfsr o r s := rfl
@[simp] theorem exec_mfsrIo (o : OpInfo) (r : IoMove) (s : State) : exec (.mfsrIo o r) s = execMfsrIo o r s := rfl
@[simp] theorem exec_mtsr (o : OpInfo) (r : SrMove) (s : State) : exec (.mtsr o r) s = execMtsr o r s := rfl
@[simp] theorem exec_mtsrIo (o : OpInfo) (r : IoMove) (s : State) : exec (.mtsrIo o r) s = execMtsrIo o r s := rfl
@[simp] theorem exec_trap (o : OpInfo) (r : TrapArgs) (s : State) : exec (.trap o r) s = execTrap o r s := rfl
@[simp] theorem exec_eret (o : OpInfo) (s : State) : exec (.eret o) s = execEret o s := rfl
@[simp] theorem exec_sret (o : OpInfo) (s : State) : exec (.sret o) s = execSret o s := rfl
@[simp] theorem exec_tlbiAll (o : OpInfo) (r : ZeroFn) (s : State) : exec (.tlbiAll o r) s = execTlbiAll o r s := rfl
@[simp] theorem exec_tlbiCtx (o : OpInfo) (r : OneReg) (s : State) : exec (.tlbiCtx o r) s = execTlbiCtx o r s := rfl
@[simp] theorem exec_tlbiPage (o : OpInfo) (r : TwoReg) (s : State) : exec (.tlbiPage o r) s = execTlbiPage o r s := rfl
@[simp] theorem exec_cmntIcinv (o : OpInfo) (r : ZeroFn) (s : State) : exec (.cmntIcinv o r) s = execCmntIcinv o r s := rfl
@[simp] theorem exec_cmntIcinvPkg (o : OpInfo) (r : ZeroFn) (s : State) : exec (.cmntIcinvPkg o r) s = execCmntIcinvPkg o r s := rfl
@[simp] theorem exec_cmntSdcinv (o : OpInfo) (r : ZeroFn) (s : State) : exec (.cmntSdcinv o r) s = execCmntSdcinv o r s := rfl
@[simp] theorem exec_cmntWbctx (o : OpInfo) (r : OneReg) (s : State) : exec (.cmntWbctx o r) s = execCmntWbctx o r s := rfl
@[simp] theorem exec_cadv (o : OpInfo) (r : CadvArgs) (s : State) : exec (.cadv o r) s = execCadv o r s := rfl
@[simp] theorem exec_popc (o : OpInfo) (r : RR) (s : State) : exec (.popc o r) s = execPopc o r s := rfl
@[simp] theorem exec_clz (o : OpInfo) (r : RR) (s : State) : exec (.clz o r) s = execClz o r s := rfl
@[simp] theorem exec_ctz (o : OpInfo) (r : RR) (s : State) : exec (.ctz o r) s = execCtz o r s := rfl
@[simp] theorem exec_bscan (o : OpInfo) (r : RRR) (s : State) : exec (.bscan o r) s = execBscan o r s := rfl
@[simp] theorem exec_bscanc (o : OpInfo) (r : RRR) (s : State) : exec (.bscanc o r) s = execBscanc o r s := rfl
@[simp] theorem exec_aqp (o : OpInfo) (r : AqPush) (s : State) : exec (.aqp o r) s = execAqp o r s := rfl
@[simp] theorem exec_aqpIdx (o : OpInfo) (r : AqPushIdx) (s : State) : exec (.aqpIdx o r) s = execAqpIdx o r s := rfl
@[simp] theorem exec_aqps (o : OpInfo) (r : AqRun) (s : State) : exec (.aqps o r) s = execAqps o r s := rfl
@[simp] theorem exec_vadd (o : OpInfo) (r : VInt3) (s : State) : exec (.vadd o r) s = execVadd o r s := rfl
@[simp] theorem exec_vsub (o : OpInfo) (r : VInt3) (s : State) : exec (.vsub o r) s = execVsub o r s := rfl
@[simp] theorem exec_vmul (o : OpInfo) (r : VInt3) (s : State) : exec (.vmul o r) s = execVmul o r s := rfl
@[simp] theorem exec_vmulhs (o : OpInfo) (r : VInt3) (s : State) : exec (.vmulhs o r) s = execVmulhs o r s := rfl
@[simp] theorem exec_vmulhu (o : OpInfo) (r : VInt3) (s : State) : exec (.vmulhu o r) s = execVmulhu o r s := rfl
@[simp] theorem exec_vmin (o : OpInfo) (r : VInt3) (s : State) : exec (.vmin o r) s = execVmin o r s := rfl
@[simp] theorem exec_vmax (o : OpInfo) (r : VInt3) (s : State) : exec (.vmax o r) s = execVmax o r s := rfl
@[simp] theorem exec_vminu (o : OpInfo) (r : VInt3) (s : State) : exec (.vminu o r) s = execVminu o r s := rfl
@[simp] theorem exec_vmaxu (o : OpInfo) (r : VInt3) (s : State) : exec (.vmaxu o r) s = execVmaxu o r s := rfl
@[simp] theorem exec_vadds (o : OpInfo) (r : VInt3) (s : State) : exec (.vadds o r) s = execVadds o r s := rfl
@[simp] theorem exec_vsubs (o : OpInfo) (r : VInt3) (s : State) : exec (.vsubs o r) s = execVsubs o r s := rfl
@[simp] theorem exec_vaddus (o : OpInfo) (r : VInt3) (s : State) : exec (.vaddus o r) s = execVaddus o r s := rfl
@[simp] theorem exec_vsubus (o : OpInfo) (r : VInt3) (s : State) : exec (.vsubus o r) s = execVsubus o r s := rfl
@[simp] theorem exec_vabs (o : OpInfo) (r : VInt2) (s : State) : exec (.vabs o r) s = execVabs o r s := rfl
@[simp] theorem exec_vneg (o : OpInfo) (r : VInt2) (s : State) : exec (.vneg o r) s = execVneg o r s := rfl
@[simp] theorem exec_vand (o : OpInfo) (r : VInt3) (s : State) : exec (.vand o r) s = execVand o r s := rfl
@[simp] theorem exec_vor (o : OpInfo) (r : VInt3) (s : State) : exec (.vor o r) s = execVor o r s := rfl
@[simp] theorem exec_vxor (o : OpInfo) (r : VInt3) (s : State) : exec (.vxor o r) s = execVxor o r s := rfl
@[simp] theorem exec_vandn (o : OpInfo) (r : VInt3) (s : State) : exec (.vandn o r) s = execVandn o r s := rfl
@[simp] theorem exec_vmov (o : OpInfo) (r : VInt2) (s : State) : exec (.vmov o r) s = execVmov o r s := rfl
@[simp] theorem exec_vmulq (o : OpInfo) (r : VInt3) (s : State) : exec (.vmulq o r) s = execVmulq o r s := rfl
@[simp] theorem exec_vmac (o : OpInfo) (r : VInt3) (s : State) : exec (.vmac o r) s = execVmac o r s := rfl
@[simp] theorem exec_vmacs (o : OpInfo) (r : VInt3) (s : State) : exec (.vmacs o r) s = execVmacs o r s := rfl
@[simp] theorem exec_vmacwl (o : OpInfo) (r : VInt3) (s : State) : exec (.vmacwl o r) s = execVmacwl o r s := rfl
@[simp] theorem exec_vmacwh (o : OpInfo) (r : VInt3) (s : State) : exec (.vmacwh o r) s = execVmacwh o r s := rfl
@[simp] theorem exec_vshl (o : OpInfo) (r : VInt3) (s : State) : exec (.vshl o r) s = execVshl o r s := rfl
@[simp] theorem exec_vshr (o : OpInfo) (r : VInt3) (s : State) : exec (.vshr o r) s = execVshr o r s := rfl
@[simp] theorem exec_vsra (o : OpInfo) (r : VInt3) (s : State) : exec (.vsra o r) s = execVsra o r s := rfl
@[simp] theorem exec_vrol (o : OpInfo) (r : VInt3) (s : State) : exec (.vrol o r) s = execVrol o r s := rfl
@[simp] theorem exec_vshlImm (o : OpInfo) (r : VIntK) (s : State) : exec (.vshlImm o r) s = execVshlImm o r s := rfl
@[simp] theorem exec_vshrImm (o : OpInfo) (r : VIntK) (s : State) : exec (.vshrImm o r) s = execVshrImm o r s := rfl
@[simp] theorem exec_vsraImm (o : OpInfo) (r : VIntK) (s : State) : exec (.vsraImm o r) s = execVsraImm o r s := rfl
@[simp] theorem exec_vrolImm (o : OpInfo) (r : VIntK) (s : State) : exec (.vrolImm o r) s = execVrolImm o r s := rfl
@[simp] theorem exec_vcmp (o : OpInfo) (r : VCmp) (s : State) : exec (.vcmp o r) s = execVcmp o r s := rfl
@[simp] theorem exec_vfcmp (o : OpInfo) (r : VFCmp) (s : State) : exec (.vfcmp o r) s = execVfcmp o r s := rfl
@[simp] theorem exec_vsel (o : OpInfo) (r : VSel) (s : State) : exec (.vsel o r) s = execVsel o r s := rfl
@[simp] theorem exec_vfadd (o : OpInfo) (r : VFp3) (s : State) : exec (.vfadd o r) s = execVfadd o r s := rfl
@[simp] theorem exec_vfsub (o : OpInfo) (r : VFp3) (s : State) : exec (.vfsub o r) s = execVfsub o r s := rfl
@[simp] theorem exec_vfmul (o : OpInfo) (r : VFp3) (s : State) : exec (.vfmul o r) s = execVfmul o r s := rfl
@[simp] theorem exec_vfdiv (o : OpInfo) (r : VFp3) (s : State) : exec (.vfdiv o r) s = execVfdiv o r s := rfl
@[simp] theorem exec_vfsqrt (o : OpInfo) (r : VFp2) (s : State) : exec (.vfsqrt o r) s = execVfsqrt o r s := rfl
@[simp] theorem exec_vfmin (o : OpInfo) (r : VFmt3) (s : State) : exec (.vfmin o r) s = execVfmin o r s := rfl
@[simp] theorem exec_vfmax (o : OpInfo) (r : VFmt3) (s : State) : exec (.vfmax o r) s = execVfmax o r s := rfl
@[simp] theorem exec_vfabs (o : OpInfo) (r : VFmt2) (s : State) : exec (.vfabs o r) s = execVfabs o r s := rfl
@[simp] theorem exec_vfneg (o : OpInfo) (r : VFmt2) (s : State) : exec (.vfneg o r) s = execVfneg o r s := rfl
@[simp] theorem exec_vfma (o : OpInfo) (r : VFp3) (s : State) : exec (.vfma o r) s = execVfma o r s := rfl
@[simp] theorem exec_vfms (o : OpInfo) (r : VFp3) (s : State) : exec (.vfms o r) s = execVfms o r s := rfl
@[simp] theorem exec_vfnma (o : OpInfo) (r : VFp3) (s : State) : exec (.vfnma o r) s = execVfnma o r s := rfl
@[simp] theorem exec_vfnms (o : OpInfo) (r : VFp3) (s : State) : exec (.vfnms o r) s = execVfnms o r s := rfl
@[simp] theorem exec_vcvt (o : OpInfo) (r : VCvt) (s : State) : exec (.vcvt o r) s = execVcvt o r s := rfl
@[simp] theorem exec_vqntE2m1s (o : OpInfo) (r : VQnt) (s : State) : exec (.vqntE2m1s o r) s = execVqntE2m1s o r s := rfl
@[simp] theorem exec_vqntE4m3 (o : OpInfo) (r : VQnt) (s : State) : exec (.vqntE4m3 o r) s = execVqntE4m3 o r s := rfl
@[simp] theorem exec_vqntE5m2 (o : OpInfo) (r : VQnt) (s : State) : exec (.vqntE5m2 o r) s = execVqntE5m2 o r s := rfl
@[simp] theorem exec_vdqnt (o : OpInfo) (r : VDqnt) (s : State) : exec (.vdqnt o r) s = execVdqnt o r s := rfl
@[simp] theorem exec_vradd (o : OpInfo) (r : VInt2) (s : State) : exec (.vradd o r) s = execVradd o r s := rfl
@[simp] theorem exec_vrmin (o : OpInfo) (r : VInt2) (s : State) : exec (.vrmin o r) s = execVrmin o r s := rfl
@[simp] theorem exec_vrmax (o : OpInfo) (r : VInt2) (s : State) : exec (.vrmax o r) s = execVrmax o r s := rfl
@[simp] theorem exec_vrminu (o : OpInfo) (r : VInt2) (s : State) : exec (.vrminu o r) s = execVrminu o r s := rfl
@[simp] theorem exec_vrmaxu (o : OpInfo) (r : VInt2) (s : State) : exec (.vrmaxu o r) s = execVrmaxu o r s := rfl
@[simp] theorem exec_vrand (o : OpInfo) (r : VInt2) (s : State) : exec (.vrand o r) s = execVrand o r s := rfl
@[simp] theorem exec_vror (o : OpInfo) (r : VInt2) (s : State) : exec (.vror o r) s = execVror o r s := rfl
@[simp] theorem exec_vrxor (o : OpInfo) (r : VInt2) (s : State) : exec (.vrxor o r) s = execVrxor o r s := rfl
@[simp] theorem exec_vrfadd (o : OpInfo) (r : VRed) (s : State) : exec (.vrfadd o r) s = execVrfadd o r s := rfl
@[simp] theorem exec_vrfmin (o : OpInfo) (r : VRed) (s : State) : exec (.vrfmin o r) s = execVrfmin o r s := rfl
@[simp] theorem exec_vrfmax (o : OpInfo) (r : VRed) (s : State) : exec (.vrfmax o r) s = execVrfmax o r s := rfl
@[simp] theorem exec_vscanadd (o : OpInfo) (r : VInt2) (s : State) : exec (.vscanadd o r) s = execVscanadd o r s := rfl
@[simp] theorem exec_vscanaddx (o : OpInfo) (r : VInt2) (s : State) : exec (.vscanaddx o r) s = execVscanaddx o r s := rfl
@[simp] theorem exec_vscanmax (o : OpInfo) (r : VInt2) (s : State) : exec (.vscanmax o r) s = execVscanmax o r s := rfl
@[simp] theorem exec_vscanmin (o : OpInfo) (r : VInt2) (s : State) : exec (.vscanmin o r) s = execVscanmin o r s := rfl
@[simp] theorem exec_vscanmaxu (o : OpInfo) (r : VInt2) (s : State) : exec (.vscanmaxu o r) s = execVscanmaxu o r s := rfl
@[simp] theorem exec_vscanminu (o : OpInfo) (r : VInt2) (s : State) : exec (.vscanminu o r) s = execVscanminu o r s := rfl
@[simp] theorem exec_vscanfadd (o : OpInfo) (r : VRed) (s : State) : exec (.vscanfadd o r) s = execVscanfadd o r s := rfl
@[simp] theorem exec_vperm (o : OpInfo) (r : VInt3) (s : State) : exec (.vperm o r) s = execVperm o r s := rfl
@[simp] theorem exec_vrot (o : OpInfo) (r : VIntK) (s : State) : exec (.vrot o r) s = execVrot o r s := rfl
@[simp] theorem exec_vext (o : OpInfo) (r : VExt) (s : State) : exec (.vext o r) s = execVext o r s := rfl
@[simp] theorem exec_vzipl (o : OpInfo) (r : VInt3) (s : State) : exec (.vzipl o r) s = execVzipl o r s := rfl
@[simp] theorem exec_vziph (o : OpInfo) (r : VInt3) (s : State) : exec (.vziph o r) s = execVziph o r s := rfl
@[simp] theorem exec_vuzpe (o : OpInfo) (r : VInt3) (s : State) : exec (.vuzpe o r) s = execVuzpe o r s := rfl
@[simp] theorem exec_vuzpo (o : OpInfo) (r : VInt3) (s : State) : exec (.vuzpo o r) s = execVuzpo o r s := rfl
@[simp] theorem exec_vsplat (o : OpInfo) (r : VIntK) (s : State) : exec (.vsplat o r) s = execVsplat o r s := rfl
@[simp] theorem exec_vrev (o : OpInfo) (r : VInt2) (s : State) : exec (.vrev o r) s = execVrev o r s := rfl
@[simp] theorem exec_vrcp (o : OpInfo) (r : VFp2) (s : State) : exec (.vrcp o r) s = execVrcp o r s := rfl
@[simp] theorem exec_vrsqrt (o : OpInfo) (r : VFp2) (s : State) : exec (.vrsqrt o r) s = execVrsqrt o r s := rfl
@[simp] theorem exec_vexp2 (o : OpInfo) (r : VFp2) (s : State) : exec (.vexp2 o r) s = execVexp2 o r s := rfl
@[simp] theorem exec_vlog2 (o : OpInfo) (r : VFp2) (s : State) : exec (.vlog2 o r) s = execVlog2 o r s := rfl
@[simp] theorem exec_vsinpi (o : OpInfo) (r : VFp2) (s : State) : exec (.vsinpi o r) s = execVsinpi o r s := rfl
@[simp] theorem exec_vcospi (o : OpInfo) (r : VFp2) (s : State) : exec (.vcospi o r) s = execVcospi o r s := rfl
@[simp] theorem exec_vtanh (o : OpInfo) (r : VFp2) (s : State) : exec (.vtanh o r) s = execVtanh o r s := rfl
@[simp] theorem exec_vsigm (o : OpInfo) (r : VFp2) (s : State) : exec (.vsigm o r) s = execVsigm o r s := rfl
@[simp] theorem exec_vrnd (o : OpInfo) (r : VRndArgs) (s : State) : exec (.vrnd o r) s = execVrnd o r s := rfl
@[simp] theorem exec_vbcast (o : OpInfo) (r : RLong) (s : State) : exec (.vbcast o r) s = execVbcast o r s := rfl
@[simp] theorem exec_vtrd (o : OpInfo) (r : TileRead) (s : State) : exec (.vtrd o r) s = execVtrd o r s := rfl
@[simp] theorem exec_vtrdReg (o : OpInfo) (r : TileReadReg) (s : State) : exec (.vtrdReg o r) s = execVtrdReg o r s := rfl
@[simp] theorem exec_vtwr (o : OpInfo) (r : TileRow) (s : State) : exec (.vtwr o r) s = execVtwr o r s := rfl
@[simp] theorem exec_vtwrReg (o : OpInfo) (r : TileRowReg) (s : State) : exec (.vtwrReg o r) s = execVtwrReg o r s := rfl
@[simp] theorem exec_vldsp (o : OpInfo) (r : VSp) (s : State) : exec (.vldsp o r) s = execVldsp o r s := rfl
@[simp] theorem exec_vstsp (o : OpInfo) (r : VSp) (s : State) : exec (.vstsp o r) s = execVstsp o r s := rfl
@[simp] theorem exec_vld (o : OpInfo) (r : VLoad) (s : State) : exec (.vld o r) s = execVld o r s := rfl
@[simp] theorem exec_vst (o : OpInfo) (r : VSp) (s : State) : exec (.vst o r) s = execVst o r s := rfl
@[simp] theorem exec_vamoAdd (o : OpInfo) (r : VAtomic) (s : State) : exec (.vamoAdd o r) s = execVamoAdd o r s := rfl
@[simp] theorem exec_vamoAnd (o : OpInfo) (r : VAtomic) (s : State) : exec (.vamoAnd o r) s = execVamoAnd o r s := rfl
@[simp] theorem exec_vamoOr (o : OpInfo) (r : VAtomic) (s : State) : exec (.vamoOr o r) s = execVamoOr o r s := rfl
@[simp] theorem exec_vamoXor (o : OpInfo) (r : VAtomic) (s : State) : exec (.vamoXor o r) s = execVamoXor o r s := rfl
@[simp] theorem exec_vamoSmin (o : OpInfo) (r : VAtomic) (s : State) : exec (.vamoSmin o r) s = execVamoSmin o r s := rfl
@[simp] theorem exec_vamoSmax (o : OpInfo) (r : VAtomic) (s : State) : exec (.vamoSmax o r) s = execVamoSmax o r s := rfl
@[simp] theorem exec_vamoUmin (o : OpInfo) (r : VAtomic) (s : State) : exec (.vamoUmin o r) s = execVamoUmin o r s := rfl
@[simp] theorem exec_vamoUmax (o : OpInfo) (r : VAtomic) (s : State) : exec (.vamoUmax o r) s = execVamoUmax o r s := rfl
@[simp] theorem exec_vamoSwap (o : OpInfo) (r : VAtomic) (s : State) : exec (.vamoSwap o r) s = execVamoSwap o r s := rfl
@[simp] theorem exec_vupd (o : OpInfo) (r : VUpdArgs) (s : State) : exec (.vupd o r) s = execVupd o r s := rfl
@[simp] theorem exec_dqpop (o : OpInfo) (r : DqPop) (s : State) : exec (.dqpop o r) s = execDqpop o r s := rfl
@[simp] theorem exec_mldb (o : OpInfo) (r : MldbArgs) (s : State) : exec (.mldb o r) s = execMldb o r s := rfl
@[simp] theorem exec_mswap (o : OpInfo) (s : State) : exec (.mswap o) s = execMswap o s := rfl
@[simp] theorem exec_mma (o : OpInfo) (r : MmaArgs) (s : State) : exec (.mma o r) s = execMma o r s := rfl
@[simp] theorem exec_mmas (o : OpInfo) (r : MmasArgs) (s : State) : exec (.mmas o r) s = execMmas o r s := rfl
@[simp] theorem exec_mdrain (o : OpInfo) (r : MdrainArgs) (s : State) : exec (.mdrain o r) s = execMdrain o r s := rfl
@[simp] theorem exec_mzacc (o : OpInfo) (r : MzaccArgs) (s : State) : exec (.mzacc o r) s = execMzacc o r s := rfl
@[simp] theorem exec_mcv (o : OpInfo) (r : McvArgs) (s : State) : exec (.mcv o r) s = execMcv o r s := rfl
@[simp] theorem exec_mtrn (o : OpInfo) (r : TilePair) (s : State) : exec (.mtrn o r) s = execMtrn o r s := rfl
@[simp] theorem exec_mfill (o : OpInfo) (r : MfillArgs) (s : State) : exec (.mfill o r) s = execMfill o r s := rfl
@[simp] theorem exec_mtcpy (o : OpInfo) (r : TilePair) (s : State) : exec (.mtcpy o r) s = execMtcpy o r s := rfl
@[simp] theorem exec_kld (o : OpInfo) (r : KMem) (s : State) : exec (.kld o r) s = execKld o r s := rfl
@[simp] theorem exec_kst (o : OpInfo) (r : KMem) (s : State) : exec (.kst o r) s = execKst o r s := rfl
@[simp] theorem exec_kmov (o : OpInfo) (r : KPair) (s : State) : exec (.kmov o r) s = execKmov o r s := rfl
@[simp] theorem exec_kfill (o : OpInfo) (r : KfillArgs) (s : State) : exec (.kfill o r) s = execKfill o r s := rfl
@[simp] theorem exec_kspr (o : OpInfo) (r : KsprArgs) (s : State) : exec (.kspr o r) s = execKspr o r s := rfl
@[simp] theorem exec_ksprReg (o : OpInfo) (r : KPair) (s : State) : exec (.ksprReg o r) s = execKsprReg o r s := rfl
@[simp] theorem exec_cpy (o : OpInfo) (r : CopyArgs) (s : State) : exec (.cpy o r) s = execCpy o r s := rfl
@[simp] theorem exec_gath (o : OpInfo) (r : IndexedCopy) (s : State) : exec (.gath o r) s = execGath o r s := rfl
@[simp] theorem exec_scat (o : OpInfo) (r : IndexedCopy) (s : State) : exec (.scat o r) s = execScat o r s := rfl
@[simp] theorem exec_tldi (o : OpInfo) (r : TileLoad) (s : State) : exec (.tldi o r) s = execTldi o r s := rfl
@[simp] theorem exec_tsti (o : OpInfo) (r : TileStore) (s : State) : exec (.tsti o r) s = execTsti o r s := rfl
@[simp] theorem exec_cpub (o : OpInfo) (r : CpubArgs) (s : State) : exec (.cpub o r) s = execCpub o r s := rfl
@[simp] theorem exec_stmap (o : OpInfo) (r : StmapArgs) (s : State) : exec (.stmap o r) s = execStmap o r s := rfl
@[simp] theorem exec_stfl (o : OpInfo) (r : StflArgs) (s : State) : exec (.stfl o r) s = execStfl o r s := rfl
@[simp] theorem exec_chint (o : OpInfo) (r : ChintArgs) (s : State) : exec (.chint o r) s = execChint o r s := rfl
@[simp] theorem exec_cnput (o : OpInfo) (r : NetCopy) (s : State) : exec (.cnput o r) s = execCnput o r s := rfl
@[simp] theorem exec_cnget (o : OpInfo) (r : NetCopy) (s : State) : exec (.cnget o r) s = execCnget o r s := rfl
@[simp] theorem exec_dld (o : OpInfo) (r : DescMove) (s : State) : exec (.dld o r) s = execDld o r s := rfl
@[simp] theorem exec_dst (o : OpInfo) (r : DescMove) (s : State) : exec (.dst o r) s = execDst o r s := rfl
@[simp] theorem exec_wait (o : OpInfo) (r : WaitArgs) (s : State) : exec (.wait o r) s = execWait o r s := rfl
@[simp] theorem exec_fwait (o : OpInfo) (r : FwaitArgs) (s : State) : exec (.fwait o r) s = execFwait o r s := rfl
@[simp] theorem exec_fwaitC (o : OpInfo) (r : FwaitArgs) (s : State) : exec (.fwaitC o r) s = execFwaitC o r s := rfl
@[simp] theorem exec_fwaitEq (o : OpInfo) (r : FwaitArgs) (s : State) : exec (.fwaitEq o r) s = execFwaitEq o r s := rfl
@[simp] theorem exec_fpost (o : OpInfo) (r : FpostArgs) (s : State) : exec (.fpost o r) s = execFpost o r s := rfl
@[simp] theorem exec_fset (o : OpInfo) (r : FsetArgs) (s : State) : exec (.fset o r) s = execFset o r s := rfl
@[simp] theorem exec_rpost (o : OpInfo) (r : RpostArgs) (s : State) : exec (.rpost o r) s = execRpost o r s := rfl
@[simp] theorem exec_rpostRel (o : OpInfo) (r : RpostArgs) (s : State) : exec (.rpostRel o r) s = execRpostRel o r s := rfl
@[simp] theorem exec_rpostPred (o : OpInfo) (r : RpostPred) (s : State) : exec (.rpostPred o r) s = execRpostPred o r s := rfl
@[simp] theorem exec_barr (o : OpInfo) (r : BarrArgs) (s : State) : exec (.barr o r) s = execBarr o r s := rfl
@[simp] theorem exec_bwait (o : OpInfo) (r : BarrArgs) (s : State) : exec (.bwait o r) s = execBwait o r s := rfl
@[simp] theorem exec_rdv (o : OpInfo) (r : BarrArgs) (s : State) : exec (.rdv o r) s = execRdv o r s := rfl
@[simp] theorem exec_fence (o : OpInfo) (r : FenceArgs) (s : State) : exec (.fence o r) s = execFence o r s := rfl
@[simp] theorem exec_chk (o : OpInfo) (r : ChkArgs) (s : State) : exec (.chk o r) s = execChk o r s := rfl
@[simp] theorem exec_fork (o : OpInfo) (r : ForkArgs) (s : State) : exec (.fork o r) s = execFork o r s := rfl
@[simp] theorem exec_fprobe (o : OpInfo) (r : FprobeArgs) (s : State) : exec (.fprobe o r) s = execFprobe o r s := rfl
@[simp] theorem exec_fprobeF (o : OpInfo) (r : FprobeArgs) (s : State) : exec (.fprobeF o r) s = execFprobeF o r s := rfl
@[simp] theorem exec_hostLineCacheFill (line : BitVec 46) (excl : Bool) (data : List Byte) (s : State) : exec (.hostLineCacheFill line excl data) s = execHostLineCacheFill line excl data s := rfl
@[simp] theorem exec_powerLoss (s : State) : exec .powerLoss s = execPowerLoss s := rfl

end Sys2Proof.Machine
end

