-- ==== Sys2Proof/Laws/Maps.lean ====
section
/-! SUPPORT. Finite maps: reads after writes, and the canonical form that every map operation keeps. -/
namespace Sys2Proof.Machine

variable {α : Type}

/-! Reads after writes. -/

@[simp] theorem SMap.get?_nil (i : Nat) : SMap.get? ([] : SMap α) i = none := rfl
theorem SMap.get?_cons (k i : Nat) (v : α) (r : SMap α) : SMap.get? ((k, v) :: r) i = if k = i then some v else SMap.get? r i := rfl
@[simp] theorem SMap.get?_ins_self (m : SMap α) (i : Nat) (v : α) : (m.ins i v).get? i = some v := by
  induction m with
  | nil => simp [SMap.ins, SMap.get?_cons]
  | cons q r ih =>
    obtain ⟨k, w⟩ := q
    simp only [SMap.ins]
    split
    · simp [SMap.get?_cons]
    · split
      · simp [SMap.get?_cons]
      · rename_i h1 h2
        rw [SMap.get?_cons, if_neg (fun h => h2 h.symm), ih]
theorem SMap.get?_ins_ne (m : SMap α) {i j : Nat} (v : α) (h : i ≠ j) : (m.ins i v).get? j = m.get? j := by
  induction m with
  | nil => simp [SMap.ins, SMap.get?_cons, h]
  | cons q r ih =>
    obtain ⟨k, w⟩ := q
    simp only [SMap.ins]
    split
    · simp [SMap.get?_cons, h]
    · split
      · rename_i h2; subst h2; simp [SMap.get?_cons, h]
      · simp [SMap.get?_cons, ih]
@[simp] theorem SMap.get?_del_self (m : SMap α) (i : Nat) : (m.del i).get? i = none := by
  induction m with
  | nil => rfl
  | cons q r ih =>
    obtain ⟨k, w⟩ := q
    simp only [SMap.del]
    split
    · exact ih
    · rename_i h; rw [SMap.get?_cons, if_neg h, ih]
theorem SMap.get?_del_ne (m : SMap α) {i j : Nat} (h : i ≠ j) : (m.del i).get? j = m.get? j := by
  induction m with
  | nil => rfl
  | cons q r ih =>
    obtain ⟨k, w⟩ := q
    simp only [SMap.del]
    split
    · rename_i h2; subst h2; simp [SMap.get?_cons, h, ih]
    · simp [SMap.get?_cons, ih]
@[simp] theorem SMap.getD_ins_self (m : SMap α) (i : Nat) (v d : α) : (m.ins i v).getD i d = v := by simp [SMap.getD]
theorem SMap.getD_ins_ne (m : SMap α) {i j : Nat} (v d : α) (h : i ≠ j) : (m.ins i v).getD j d = m.getD j d := by
  simp [SMap.getD, SMap.get?_ins_ne m v h]
@[simp] theorem SMap.getD_put_self [DecidableEq α] (d : α) (m : SMap α) (i : Nat) (v : α) : (m.put d i v).getD i d = v := by
  unfold SMap.put SMap.getD
  split <;> simp_all
theorem SMap.getD_put_ne [DecidableEq α] (d e : α) (m : SMap α) {i j : Nat} (v : α) (h : i ≠ j) : (m.put d i v).getD j e = m.getD j e := by
  unfold SMap.put SMap.getD
  split <;> simp [SMap.get?_ins_ne, SMap.get?_del_ne, h]

/-! The canonical form. -/

theorem SMap.sorted_cons {k : Nat} {v : α} {r : SMap α} :
    SMap.Sorted ((k, v) :: r) = true ↔ (∀ q ∈ r, k < q.1) ∧ SMap.Sorted r = true := by
  induction r generalizing k v with
  | nil => simp [SMap.Sorted]
  | cons q r ih =>
    obtain ⟨j, b⟩ := q
    simp only [SMap.Sorted, Bool.and_eq_true, decide_eq_true_eq, List.mem_cons, forall_eq_or_imp]
    constructor
    · rintro ⟨h, hs⟩
      exact ⟨⟨h, fun q hq => Nat.lt_trans h ((ih.mp hs).1 q hq)⟩, hs⟩
    · rintro ⟨⟨h, -⟩, hs⟩
      exact ⟨h, hs⟩
theorem SMap.mem_ins {m : SMap α} {i : Nat} {v : α} {q : Nat × α} (h : q ∈ m.ins i v) : q = (i, v) ∨ q ∈ m := by
  induction m with
  | nil => simp_all [SMap.ins]
  | cons p r ih =>
    obtain ⟨k, w⟩ := p
    simp only [SMap.ins] at h
    split at h
    · simpa using h
    · split at h
      · rcases List.mem_cons.mp h with h | h
        · exact .inl h
        · exact .inr (.tail _ h)
      · simp only [List.mem_cons] at h ⊢
        rcases h with h | h
        · exact .inr (.inl h)
        · exact (ih h).imp_right .inr
theorem SMap.mem_del {m : SMap α} {i : Nat} {q : Nat × α} (h : q ∈ m.del i) : q ∈ m := by
  induction m with
  | nil => exact h
  | cons p r ih =>
    obtain ⟨k, w⟩ := p
    simp only [SMap.del] at h
    split at h
    · exact .tail _ (ih h)
    · simp only [List.mem_cons] at h ⊢; exact h.imp_right ih
theorem SMap.sorted_ins {m : SMap α} (h : m.Sorted = true) (i : Nat) (v : α) : (m.ins i v).Sorted = true := by
  induction m with
  | nil => rfl
  | cons p r ih =>
    obtain ⟨k, w⟩ := p
    obtain ⟨hk, hr⟩ := SMap.sorted_cons.mp h
    simp only [SMap.ins]
    split
    · rename_i hlt
      refine SMap.sorted_cons.mpr ⟨fun q hq => ?_, h⟩
      rcases List.mem_cons.mp hq with rfl | hq
      · exact hlt
      · exact Nat.lt_trans hlt (hk q hq)
    · split
      · rename_i heq; subst heq; exact SMap.sorted_cons.mpr ⟨hk, hr⟩
      · refine SMap.sorted_cons.mpr ⟨fun q hq => ?_, ih hr⟩
        rcases SMap.mem_ins hq with rfl | hq
        · omega
        · exact hk q hq
theorem SMap.sorted_del {m : SMap α} (h : m.Sorted = true) (i : Nat) : (m.del i).Sorted = true := by
  induction m with
  | nil => rfl
  | cons p r ih =>
    obtain ⟨k, w⟩ := p
    obtain ⟨hk, hr⟩ := SMap.sorted_cons.mp h
    simp only [SMap.del]
    split
    · exact ih hr
    · exact SMap.sorted_cons.mpr ⟨fun q hq => hk q (SMap.mem_del hq), ih hr⟩
theorem SMap.wf_iff [DecidableEq α] (d : α) (m : SMap α) : m.wf d = true ↔ m.Sorted = true ∧ ∀ q ∈ m, q.2 ≠ d := by
  simp [SMap.wf, List.all_eq_true]
theorem SMap.wf_ins [DecidableEq α] {d : α} {m : SMap α} (h : m.wf d = true) (i : Nat) {v : α} (hv : v ≠ d) : (m.ins i v).wf d = true := by
  rw [SMap.wf_iff] at h ⊢
  refine ⟨SMap.sorted_ins h.1 i v, fun q hq => ?_⟩
  rcases SMap.mem_ins hq with rfl | hq
  · exact hv
  · exact h.2 q hq
theorem SMap.wf_del [DecidableEq α] {d : α} {m : SMap α} (h : m.wf d = true) (i : Nat) : (m.del i).wf d = true := by
  rw [SMap.wf_iff] at h ⊢
  exact ⟨SMap.sorted_del h.1 i, fun q hq => h.2 q (SMap.mem_del hq)⟩
/-- A write in canonical form keeps the form. -/
theorem SMap.wf_put [DecidableEq α] {d : α} {m : SMap α} (h : m.wf d = true) (i : Nat) (v : α) : (m.put d i v).wf d = true := by
  unfold SMap.put
  split
  · exact SMap.wf_del h i
  · exact SMap.wf_ins h i ‹_›
/-- Maps in sorted form that read alike are equal. -/
theorem SMap.eq_of_get? : ∀ {m n : SMap α}, m.Sorted = true → n.Sorted = true → (∀ i, m.get? i = n.get? i) → m = n
  | [], [], _, _, _ => rfl
  | [], (k, v) :: r, _, _, h => by simpa [SMap.get?_cons] using h k
  | (k, v) :: r, [], _, _, h => by simpa [SMap.get?_cons] using h k
  | (k, v) :: r, (j, w) :: t, hm, hn, h => by
    obtain ⟨hk, hr⟩ := SMap.sorted_cons.mp hm
    obtain ⟨hj, ht⟩ := SMap.sorted_cons.mp hn
    have low {m : SMap α} {i : Nat} (hi : ∀ q ∈ m, i < q.1) {x : Nat} (hx : x ≤ i) : m.get? x = none := by
      induction m with
      | nil => rfl
      | cons q m ih =>
        obtain ⟨a, b⟩ := q
        have : i < a := hi _ (.head _)
        rw [SMap.get?_cons, if_neg (by omega)]
        exact ih fun q hq => hi q (.tail _ hq)
    have hkj : k = j := by
      rcases Nat.lt_trichotomy k j with hl | hl | hl
      · have := h k
        rw [SMap.get?_cons, if_pos rfl, SMap.get?_cons, if_neg (by omega), low hj (by omega)] at this
        simp at this
      · exact hl
      · have := h j
        rw [SMap.get?_cons, if_neg (by omega), low hk (by omega), SMap.get?_cons, if_pos rfl] at this
        simp at this
    subst hkj
    have hv : v = w := by simpa [SMap.get?_cons] using h k
    subst hv
    congr 1
    refine SMap.eq_of_get? hr ht fun i => ?_
    by_cases hi : k = i
    · subst hi; rw [low hk (Nat.le_refl _), low hj (Nat.le_refl _)]
    · simpa [SMap.get?_cons, hi] using h i

/-! Bytes. -/

@[simp] theorem bytesOf_length (n x : Nat) : (bytesOf n x).length = n := by
  induction n generalizing x with
  | zero => rfl
  | succ n ih => simp [bytesOf, ih]
theorem natOf_bytesOf (n x : Nat) : natOf (bytesOf n x) = x % 256 ^ n := by
  induction n generalizing x with
  | zero => simp [bytesOf, natOf, Nat.mod_one]
  | succ n ih =>
    rw [bytesOf, natOf, ih, Nat.pow_succ', Nat.mod_mul]
    simp [BitVec.toNat_ofNat]
@[simp] theorem readMap_length (m : SMap Byte) (a n : Nat) : (readMap m a n).length = n := by
  induction n generalizing a with
  | zero => rfl
  | succ n ih => simp [readMap, ih]
/-- One byte after a write of bytes: a written byte reads as written, every other as before. -/
theorem getD_writeMap (m : SMap Byte) (a : Nat) (b : List Byte) (x : Nat) :
    (writeMap m a b).getD x 0 = if a ≤ x ∧ x < a + b.length then b.getD (x - a) 0 else m.getD x 0 := by
  induction b generalizing m a with
  | nil => simp [writeMap] <;> omega
  | cons c r ih =>
    rw [writeMap, ih]
    by_cases hx : x = a
    · subst hx
      rw [if_neg (by omega), if_pos (by simp)]
      simp
    · rw [SMap.getD_put_ne _ _ _ _ (fun h => hx h.symm)]
      simp only [List.length_cons]
      by_cases h : a ≤ x ∧ x < a + (r.length + 1)
      · rw [if_pos (by omega), if_pos h]
        obtain ⟨d, hd⟩ : ∃ d, x - a = d + 1 := ⟨x - a - 1, by omega⟩
        rw [hd, show x - (a + 1) = d by omega]
        simp
      · rw [if_neg (by omega), if_neg h]
theorem wf_writeMap {m : SMap Byte} (h : m.wf 0 = true) (a : Nat) (b : List Byte) : (writeMap m a b).wf 0 = true := by
  induction b generalizing m a with
  | nil => exact h
  | cons c r ih => exact ih (SMap.wf_put h a c) _
/-- The same under a byte mask. -/
theorem getD_writeMasked (m : SMap Byte) (a k : Nat) (b : List Byte) (x : Nat) :
    (writeMasked m a k b).getD x 0 = if a ≤ x ∧ x < a + b.length ∧ k.testBit (x - a) = true then b.getD (x - a) 0 else m.getD x 0 := by
  induction b generalizing m a k with
  | nil => simp [writeMasked]; omega
  | cons c r ih =>
    rw [writeMasked, ih]
    by_cases hx : x = a
    · subst hx
      rw [if_neg (by omega)]
      by_cases hb : k % 2 = 1
      · rw [if_pos hb, if_pos (by simp [Nat.testBit_zero, hb])]
        simp
      · rw [if_neg hb, if_neg (by simp [Nat.testBit_zero, hb])]
    · have hm : SMap.getD (if k % 2 = 1 then m.put 0 a c else m) x 0 = m.getD x 0 := by
        split
        · exact SMap.getD_put_ne _ _ _ _ (fun h => hx h.symm)
        · rfl
      rw [hm]
      simp only [List.length_cons]
      by_cases h : a ≤ x ∧ x < a + (r.length + 1)
      · obtain ⟨d, hd⟩ : ∃ d, x - a = d + 1 := ⟨x - a - 1, by omega⟩
        rw [hd, show x - (a + 1) = d by omega, Nat.testBit_succ]
        by_cases hb : (k / 2).testBit d = true
        · rw [if_pos ⟨by omega, by omega, hb⟩, if_pos ⟨by omega, by omega, hb⟩]; simp
        · rw [if_neg (fun q => hb q.2.2), if_neg (fun q => hb q.2.2)]
      · rw [if_neg (by omega), if_neg (by omega)]
theorem wf_writeMasked {m : SMap Byte} (h : m.wf 0 = true) (a k : Nat) (b : List Byte) : (writeMasked m a k b).wf 0 = true := by
  induction b generalizing m a k with
  | nil => exact h
  | cons c r ih =>
    refine ih ?_ _ _
    split
    · exact SMap.wf_put h a c
    · exact h
/-- Bytes just written are read back. -/
theorem readMap_writeMap (m : SMap Byte) (a : Nat) (b : List Byte) : readMap (writeMap m a b) a b.length = b := by
  refine List.ext_getElem (by simp) fun i h _ => ?_
  have get (m : SMap Byte) (a n i : Nat) (h : i < n) : (readMap m a n)[i]'(by simpa using h) = m.getD (a + i) 0 := by
    induction n generalizing a i with
    | zero => omega
    | succ n ih =>
      cases i with
      | zero => simp [readMap]
      | succ i => simp only [readMap, List.getElem_cons_succ]; rw [ih _ _ (by omega)]; congr 1; omega
  have hb : i < b.length := by simpa using h
  rw [get _ _ _ _ hb, getD_writeMap, if_pos (by omega)]
  simp [hb]

/-! Memory operations keep the canonical form. -/

theorem reset_memory_wf : Memory.wf State.reset.mem = true := by decide
theorem writePhys_wf {s : State} (h : Memory.wf s.mem = true) (pa : Nat) (b : List Byte) : Memory.wf (s.writePhys pa b).mem = true :=
  wf_writeMap h pa b
theorem writeMasked_wf {s : State} (h : Memory.wf s.mem = true) (a k : Nat) (b : List Byte) : Memory.wf (writeMasked s.mem a k b) = true :=
  wf_writeMasked h a k b
/-- A write of memory is seen byte by byte. -/
theorem read_writePhys (s : State) (pa x : Nat) (b : List Byte) :
    SMap.getD (s.writePhys pa b).mem x 0 = if pa ≤ x ∧ x < pa + b.length then b.getD (x - pa) 0 else SMap.getD s.mem x 0 :=
  getD_writeMap s.mem pa b x

end Sys2Proof.Machine
end

