-- ==== Sys2Proof/Laws/State.lean ====
section
/-! SUPPORT. What each update of the package leaves in each field: one lemma per field per update. -/
namespace Sys2Proof.Machine
open Sys2Proof

/-! setCore -/
@[simp] theorem State.setCore_cores (s : State) (c : Nat) (k : Core) : (s.setCore c k).cores = s.cores.ins c k := rfl
@[simp] theorem State.setCore_pkg (s : State) (c : Nat) (k : Core) : (s.setCore c k).pkg = s.pkg := rfl
@[simp] theorem State.setCore_io (s : State) (c : Nat) (k : Core) : (s.setCore c k).io = s.io := rfl
@[simp] theorem State.setCore_mem (s : State) (c : Nat) (k : Core) : (s.setCore c k).mem = s.mem := rfl
@[simp] theorem State.setCore_poison (s : State) (c : Nat) (k : Core) : (s.setCore c k).poison = s.poison := rfl
@[simp] theorem State.setCore_isoPoison (s : State) (c : Nat) (k : Core) : (s.setCore c k).isoPoison = s.isoPoison := rfl
@[simp] theorem State.setCore_keyTag (s : State) (c : Nat) (k : Core) : (s.setCore c k).keyTag = s.keyTag := rfl
@[simp] theorem State.setCore_tlb (s : State) (c : Nat) (k : Core) : (s.setCore c k).tlb = s.tlb := rfl
@[simp] theorem State.setCore_recq (s : State) (c : Nat) (k : Core) : (s.setCore c k).recq = s.recq := rfl
@[simp] theorem State.setCore_expCap (s : State) (c : Nat) (k : Core) : (s.setCore c k).expCap = s.expCap := rfl
@[simp] theorem State.setCore_stopq (s : State) (c : Nat) (k : Core) : (s.setCore c k).stopq = s.stopq := rfl
@[simp] theorem State.setCore_onHold (s : State) (c : Nat) (k : Core) : (s.setCore c k).onHold = s.onHold := rfl
@[simp] theorem State.setCore_hbmErr (s : State) (c : Nat) (k : Core) : (s.setCore c k).hbmErr = s.hbmErr := rfl
@[simp] theorem State.setCore_l2Err (s : State) (c : Nat) (k : Core) : (s.setCore c k).l2Err = s.l2Err := rfl
@[simp] theorem State.setCore_hbmCor (s : State) (c : Nat) (k : Core) : (s.setCore c k).hbmCor = s.hbmCor := rfl
@[simp] theorem State.setCore_l2Cor (s : State) (c : Nat) (k : Core) : (s.setCore c k).l2Cor = s.l2Cor := rfl
@[simp] theorem State.setCore_l2 (s : State) (c : Nat) (k : Core) : (s.setCore c k).l2 = s.l2 := rfl
@[simp] theorem State.setCore_blaze (s : State) (c : Nat) (k : Core) : (s.setCore c k).blaze = s.blaze := rfl
@[simp] theorem State.setCore_wayCnt (s : State) (c : Nat) (k : Core) : (s.setCore c k).wayCnt = s.wayCnt := rfl
@[simp] theorem State.setCore_deck (s : State) (c : Nat) (k : Core) : (s.setCore c k).deck = s.deck := rfl
@[simp] theorem State.setCore_runs (s : State) (c : Nat) (k : Core) : (s.setCore c k).runs = s.runs := rfl
@[simp] theorem State.setCore_flight (s : State) (c : Nat) (k : Core) : (s.setCore c k).flight = s.flight := rfl
@[simp] theorem State.setCore_out (s : State) (c : Nat) (k : Core) : (s.setCore c k).out = s.out := rfl
@[simp] theorem State.setCore_agenda (s : State) (c : Nat) (k : Core) : (s.setCore c k).agenda = s.agenda := rfl
@[simp] theorem State.setCore_turn (s : State) (c : Nat) (k : Core) : (s.setCore c k).turn = s.turn := rfl
@[simp] theorem State.setCore_seq (s : State) (c : Nat) (k : Core) : (s.setCore c k).seq = s.seq := rfl
@[simp] theorem State.setCore_fresh (s : State) (c : Nat) (k : Core) : (s.setCore c k).fresh = s.fresh := rfl
@[simp] theorem State.setCore_issue (s : State) (c : Nat) (k : Core) : (s.setCore c k).issue = s.issue := rfl
@[simp] theorem State.setCore_tmr (s : State) (c : Nat) (k : Core) : (s.setCore c k).tmr = s.tmr := rfl
@[simp] theorem State.setCore_fatal (s : State) (c : Nat) (k : Core) : (s.setCore c k).fatal = s.fatal := rfl
@[simp] theorem State.setCore_keys (s : State) (c : Nat) (k : Core) : (s.setCore c k).keys = s.keys := rfl
@[simp] theorem State.setCore_back (s : State) (c : Nat) (k : Core) : (s.setCore c k).back = s.back := rfl
@[simp] theorem State.setCore_backPoison (s : State) (c : Nat) (k : Core) : (s.setCore c k).backPoison = s.backPoison := rfl

/-! modCore -/
@[simp] theorem State.modCore_cores (s : State) (c : Nat) (f : Core → Core) : (s.modCore c f).cores = s.cores.ins c (f (s.core c)) := rfl
@[simp] theorem State.modCore_pkg (s : State) (c : Nat) (f : Core → Core) : (s.modCore c f).pkg = s.pkg := rfl
@[simp] theorem State.modCore_io (s : State) (c : Nat) (f : Core → Core) : (s.modCore c f).io = s.io := rfl
@[simp] theorem State.modCore_mem (s : State) (c : Nat) (f : Core → Core) : (s.modCore c f).mem = s.mem := rfl
@[simp] theorem State.modCore_poison (s : State) (c : Nat) (f : Core → Core) : (s.modCore c f).poison = s.poison := rfl
@[simp] theorem State.modCore_isoPoison (s : State) (c : Nat) (f : Core → Core) : (s.modCore c f).isoPoison = s.isoPoison := rfl
@[simp] theorem State.modCore_keyTag (s : State) (c : Nat) (f : Core → Core) : (s.modCore c f).keyTag = s.keyTag := rfl
@[simp] theorem State.modCore_tlb (s : State) (c : Nat) (f : Core → Core) : (s.modCore c f).tlb = s.tlb := rfl
@[simp] theorem State.modCore_recq (s : State) (c : Nat) (f : Core → Core) : (s.modCore c f).recq = s.recq := rfl
@[simp] theorem State.modCore_expCap (s : State) (c : Nat) (f : Core → Core) : (s.modCore c f).expCap = s.expCap := rfl
@[simp] theorem State.modCore_stopq (s : State) (c : Nat) (f : Core → Core) : (s.modCore c f).stopq = s.stopq := rfl
@[simp] theorem State.modCore_onHold (s : State) (c : Nat) (f : Core → Core) : (s.modCore c f).onHold = s.onHold := rfl
@[simp] theorem State.modCore_hbmErr (s : State) (c : Nat) (f : Core → Core) : (s.modCore c f).hbmErr = s.hbmErr := rfl
@[simp] theorem State.modCore_l2Err (s : State) (c : Nat) (f : Core → Core) : (s.modCore c f).l2Err = s.l2Err := rfl
@[simp] theorem State.modCore_hbmCor (s : State) (c : Nat) (f : Core → Core) : (s.modCore c f).hbmCor = s.hbmCor := rfl
@[simp] theorem State.modCore_l2Cor (s : State) (c : Nat) (f : Core → Core) : (s.modCore c f).l2Cor = s.l2Cor := rfl
@[simp] theorem State.modCore_l2 (s : State) (c : Nat) (f : Core → Core) : (s.modCore c f).l2 = s.l2 := rfl
@[simp] theorem State.modCore_blaze (s : State) (c : Nat) (f : Core → Core) : (s.modCore c f).blaze = s.blaze := rfl
@[simp] theorem State.modCore_wayCnt (s : State) (c : Nat) (f : Core → Core) : (s.modCore c f).wayCnt = s.wayCnt := rfl
@[simp] theorem State.modCore_deck (s : State) (c : Nat) (f : Core → Core) : (s.modCore c f).deck = s.deck := rfl
@[simp] theorem State.modCore_runs (s : State) (c : Nat) (f : Core → Core) : (s.modCore c f).runs = s.runs := rfl
@[simp] theorem State.modCore_flight (s : State) (c : Nat) (f : Core → Core) : (s.modCore c f).flight = s.flight := rfl
@[simp] theorem State.modCore_out (s : State) (c : Nat) (f : Core → Core) : (s.modCore c f).out = s.out := rfl
@[simp] theorem State.modCore_agenda (s : State) (c : Nat) (f : Core → Core) : (s.modCore c f).agenda = s.agenda := rfl
@[simp] theorem State.modCore_turn (s : State) (c : Nat) (f : Core → Core) : (s.modCore c f).turn = s.turn := rfl
@[simp] theorem State.modCore_seq (s : State) (c : Nat) (f : Core → Core) : (s.modCore c f).seq = s.seq := rfl
@[simp] theorem State.modCore_fresh (s : State) (c : Nat) (f : Core → Core) : (s.modCore c f).fresh = s.fresh := rfl
@[simp] theorem State.modCore_issue (s : State) (c : Nat) (f : Core → Core) : (s.modCore c f).issue = s.issue := rfl
@[simp] theorem State.modCore_tmr (s : State) (c : Nat) (f : Core → Core) : (s.modCore c f).tmr = s.tmr := rfl
@[simp] theorem State.modCore_fatal (s : State) (c : Nat) (f : Core → Core) : (s.modCore c f).fatal = s.fatal := rfl
@[simp] theorem State.modCore_keys (s : State) (c : Nat) (f : Core → Core) : (s.modCore c f).keys = s.keys := rfl
@[simp] theorem State.modCore_back (s : State) (c : Nat) (f : Core → Core) : (s.modCore c f).back = s.back := rfl
@[simp] theorem State.modCore_backPoison (s : State) (c : Nat) (f : Core → Core) : (s.modCore c f).backPoison = s.backPoison := rfl

/-! modCur -/
@[simp] theorem State.modCur_cores (s : State) (f : Core → Core) : (s.modCur f).cores = s.cores.ins s.issue.core (f s.cur) := rfl
@[simp] theorem State.modCur_pkg (s : State) (f : Core → Core) : (s.modCur f).pkg = s.pkg := rfl
@[simp] theorem State.modCur_io (s : State) (f : Core → Core) : (s.modCur f).io = s.io := rfl
@[simp] theorem State.modCur_mem (s : State) (f : Core → Core) : (s.modCur f).mem = s.mem := rfl
@[simp] theorem State.modCur_poison (s : State) (f : Core → Core) : (s.modCur f).poison = s.poison := rfl
@[simp] theorem State.modCur_isoPoison (s : State) (f : Core → Core) : (s.modCur f).isoPoison = s.isoPoison := rfl
@[simp] theorem State.modCur_keyTag (s : State) (f : Core → Core) : (s.modCur f).keyTag = s.keyTag := rfl
@[simp] theorem State.modCur_tlb (s : State) (f : Core → Core) : (s.modCur f).tlb = s.tlb := rfl
@[simp] theorem State.modCur_recq (s : State) (f : Core → Core) : (s.modCur f).recq = s.recq := rfl
@[simp] theorem State.modCur_expCap (s : State) (f : Core → Core) : (s.modCur f).expCap = s.expCap := rfl
@[simp] theorem State.modCur_stopq (s : State) (f : Core → Core) : (s.modCur f).stopq = s.stopq := rfl
@[simp] theorem State.modCur_onHold (s : State) (f : Core → Core) : (s.modCur f).onHold = s.onHold := rfl
@[simp] theorem State.modCur_hbmErr (s : State) (f : Core → Core) : (s.modCur f).hbmErr = s.hbmErr := rfl
@[simp] theorem State.modCur_l2Err (s : State) (f : Core → Core) : (s.modCur f).l2Err = s.l2Err := rfl
@[simp] theorem State.modCur_hbmCor (s : State) (f : Core → Core) : (s.modCur f).hbmCor = s.hbmCor := rfl
@[simp] theorem State.modCur_l2Cor (s : State) (f : Core → Core) : (s.modCur f).l2Cor = s.l2Cor := rfl
@[simp] theorem State.modCur_l2 (s : State) (f : Core → Core) : (s.modCur f).l2 = s.l2 := rfl
@[simp] theorem State.modCur_blaze (s : State) (f : Core → Core) : (s.modCur f).blaze = s.blaze := rfl
@[simp] theorem State.modCur_wayCnt (s : State) (f : Core → Core) : (s.modCur f).wayCnt = s.wayCnt := rfl
@[simp] theorem State.modCur_deck (s : State) (f : Core → Core) : (s.modCur f).deck = s.deck := rfl
@[simp] theorem State.modCur_runs (s : State) (f : Core → Core) : (s.modCur f).runs = s.runs := rfl
@[simp] theorem State.modCur_flight (s : State) (f : Core → Core) : (s.modCur f).flight = s.flight := rfl
@[simp] theorem State.modCur_out (s : State) (f : Core → Core) : (s.modCur f).out = s.out := rfl
@[simp] theorem State.modCur_agenda (s : State) (f : Core → Core) : (s.modCur f).agenda = s.agenda := rfl
@[simp] theorem State.modCur_turn (s : State) (f : Core → Core) : (s.modCur f).turn = s.turn := rfl
@[simp] theorem State.modCur_seq (s : State) (f : Core → Core) : (s.modCur f).seq = s.seq := rfl
@[simp] theorem State.modCur_fresh (s : State) (f : Core → Core) : (s.modCur f).fresh = s.fresh := rfl
@[simp] theorem State.modCur_issue (s : State) (f : Core → Core) : (s.modCur f).issue = s.issue := rfl
@[simp] theorem State.modCur_tmr (s : State) (f : Core → Core) : (s.modCur f).tmr = s.tmr := rfl
@[simp] theorem State.modCur_fatal (s : State) (f : Core → Core) : (s.modCur f).fatal = s.fatal := rfl
@[simp] theorem State.modCur_keys (s : State) (f : Core → Core) : (s.modCur f).keys = s.keys := rfl
@[simp] theorem State.modCur_back (s : State) (f : Core → Core) : (s.modCur f).back = s.back := rfl
@[simp] theorem State.modCur_backPoison (s : State) (f : Core → Core) : (s.modCur f).backPoison = s.backPoison := rfl

/-! modPkg -/
@[simp] theorem State.modPkg_cores (s : State) (f : Pkg → Pkg) : (s.modPkg f).cores = s.cores := rfl
@[simp] theorem State.modPkg_pkg (s : State) (f : Pkg → Pkg) : (s.modPkg f).pkg = f s.pkg := rfl
@[simp] theorem State.modPkg_io (s : State) (f : Pkg → Pkg) : (s.modPkg f).io = s.io := rfl
@[simp] theorem State.modPkg_mem (s : State) (f : Pkg → Pkg) : (s.modPkg f).mem = s.mem := rfl
@[simp] theorem State.modPkg_poison (s : State) (f : Pkg → Pkg) : (s.modPkg f).poison = s.poison := rfl
@[simp] theorem State.modPkg_isoPoison (s : State) (f : Pkg → Pkg) : (s.modPkg f).isoPoison = s.isoPoison := rfl
@[simp] theorem State.modPkg_keyTag (s : State) (f : Pkg → Pkg) : (s.modPkg f).keyTag = s.keyTag := rfl
@[simp] theorem State.modPkg_tlb (s : State) (f : Pkg → Pkg) : (s.modPkg f).tlb = s.tlb := rfl
@[simp] theorem State.modPkg_recq (s : State) (f : Pkg → Pkg) : (s.modPkg f).recq = s.recq := rfl
@[simp] theorem State.modPkg_expCap (s : State) (f : Pkg → Pkg) : (s.modPkg f).expCap = s.expCap := rfl
@[simp] theorem State.modPkg_stopq (s : State) (f : Pkg → Pkg) : (s.modPkg f).stopq = s.stopq := rfl
@[simp] theorem State.modPkg_onHold (s : State) (f : Pkg → Pkg) : (s.modPkg f).onHold = s.onHold := rfl
@[simp] theorem State.modPkg_hbmErr (s : State) (f : Pkg → Pkg) : (s.modPkg f).hbmErr = s.hbmErr := rfl
@[simp] theorem State.modPkg_l2Err (s : State) (f : Pkg → Pkg) : (s.modPkg f).l2Err = s.l2Err := rfl
@[simp] theorem State.modPkg_hbmCor (s : State) (f : Pkg → Pkg) : (s.modPkg f).hbmCor = s.hbmCor := rfl
@[simp] theorem State.modPkg_l2Cor (s : State) (f : Pkg → Pkg) : (s.modPkg f).l2Cor = s.l2Cor := rfl
@[simp] theorem State.modPkg_l2 (s : State) (f : Pkg → Pkg) : (s.modPkg f).l2 = s.l2 := rfl
@[simp] theorem State.modPkg_blaze (s : State) (f : Pkg → Pkg) : (s.modPkg f).blaze = s.blaze := rfl
@[simp] theorem State.modPkg_wayCnt (s : State) (f : Pkg → Pkg) : (s.modPkg f).wayCnt = s.wayCnt := rfl
@[simp] theorem State.modPkg_deck (s : State) (f : Pkg → Pkg) : (s.modPkg f).deck = s.deck := rfl
@[simp] theorem State.modPkg_runs (s : State) (f : Pkg → Pkg) : (s.modPkg f).runs = s.runs := rfl
@[simp] theorem State.modPkg_flight (s : State) (f : Pkg → Pkg) : (s.modPkg f).flight = s.flight := rfl
@[simp] theorem State.modPkg_out (s : State) (f : Pkg → Pkg) : (s.modPkg f).out = s.out := rfl
@[simp] theorem State.modPkg_agenda (s : State) (f : Pkg → Pkg) : (s.modPkg f).agenda = s.agenda := rfl
@[simp] theorem State.modPkg_turn (s : State) (f : Pkg → Pkg) : (s.modPkg f).turn = s.turn := rfl
@[simp] theorem State.modPkg_seq (s : State) (f : Pkg → Pkg) : (s.modPkg f).seq = s.seq := rfl
@[simp] theorem State.modPkg_fresh (s : State) (f : Pkg → Pkg) : (s.modPkg f).fresh = s.fresh := rfl
@[simp] theorem State.modPkg_issue (s : State) (f : Pkg → Pkg) : (s.modPkg f).issue = s.issue := rfl
@[simp] theorem State.modPkg_tmr (s : State) (f : Pkg → Pkg) : (s.modPkg f).tmr = s.tmr := rfl
@[simp] theorem State.modPkg_fatal (s : State) (f : Pkg → Pkg) : (s.modPkg f).fatal = s.fatal := rfl
@[simp] theorem State.modPkg_keys (s : State) (f : Pkg → Pkg) : (s.modPkg f).keys = s.keys := rfl
@[simp] theorem State.modPkg_back (s : State) (f : Pkg → Pkg) : (s.modPkg f).back = s.back := rfl
@[simp] theorem State.modPkg_backPoison (s : State) (f : Pkg → Pkg) : (s.modPkg f).backPoison = s.backPoison := rfl

/-! ioSet -/
@[simp] theorem State.ioSet_cores (s : State) (o : Nat) (v : Word) : (s.ioSet o v).cores = s.cores := rfl
@[simp] theorem State.ioSet_pkg (s : State) (o : Nat) (v : Word) : (s.ioSet o v).pkg = s.pkg := rfl
@[simp] theorem State.ioSet_io (s : State) (o : Nat) (v : Word) : (s.ioSet o v).io = s.io.ins o v := rfl
@[simp] theorem State.ioSet_mem (s : State) (o : Nat) (v : Word) : (s.ioSet o v).mem = s.mem := rfl
@[simp] theorem State.ioSet_poison (s : State) (o : Nat) (v : Word) : (s.ioSet o v).poison = s.poison := rfl
@[simp] theorem State.ioSet_isoPoison (s : State) (o : Nat) (v : Word) : (s.ioSet o v).isoPoison = s.isoPoison := rfl
@[simp] theorem State.ioSet_keyTag (s : State) (o : Nat) (v : Word) : (s.ioSet o v).keyTag = s.keyTag := rfl
@[simp] theorem State.ioSet_tlb (s : State) (o : Nat) (v : Word) : (s.ioSet o v).tlb = s.tlb := rfl
@[simp] theorem State.ioSet_recq (s : State) (o : Nat) (v : Word) : (s.ioSet o v).recq = s.recq := rfl
@[simp] theorem State.ioSet_expCap (s : State) (o : Nat) (v : Word) : (s.ioSet o v).expCap = s.expCap := rfl
@[simp] theorem State.ioSet_stopq (s : State) (o : Nat) (v : Word) : (s.ioSet o v).stopq = s.stopq := rfl
@[simp] theorem State.ioSet_onHold (s : State) (o : Nat) (v : Word) : (s.ioSet o v).onHold = s.onHold := rfl
@[simp] theorem State.ioSet_hbmErr (s : State) (o : Nat) (v : Word) : (s.ioSet o v).hbmErr = s.hbmErr := rfl
@[simp] theorem State.ioSet_l2Err (s : State) (o : Nat) (v : Word) : (s.ioSet o v).l2Err = s.l2Err := rfl
@[simp] theorem State.ioSet_hbmCor (s : State) (o : Nat) (v : Word) : (s.ioSet o v).hbmCor = s.hbmCor := rfl
@[simp] theorem State.ioSet_l2Cor (s : State) (o : Nat) (v : Word) : (s.ioSet o v).l2Cor = s.l2Cor := rfl
@[simp] theorem State.ioSet_l2 (s : State) (o : Nat) (v : Word) : (s.ioSet o v).l2 = s.l2 := rfl
@[simp] theorem State.ioSet_blaze (s : State) (o : Nat) (v : Word) : (s.ioSet o v).blaze = s.blaze := rfl
@[simp] theorem State.ioSet_wayCnt (s : State) (o : Nat) (v : Word) : (s.ioSet o v).wayCnt = s.wayCnt := rfl
@[simp] theorem State.ioSet_deck (s : State) (o : Nat) (v : Word) : (s.ioSet o v).deck = s.deck := rfl
@[simp] theorem State.ioSet_runs (s : State) (o : Nat) (v : Word) : (s.ioSet o v).runs = s.runs := rfl
@[simp] theorem State.ioSet_flight (s : State) (o : Nat) (v : Word) : (s.ioSet o v).flight = s.flight := rfl
@[simp] theorem State.ioSet_out (s : State) (o : Nat) (v : Word) : (s.ioSet o v).out = s.out := rfl
@[simp] theorem State.ioSet_agenda (s : State) (o : Nat) (v : Word) : (s.ioSet o v).agenda = s.agenda := rfl
@[simp] theorem State.ioSet_turn (s : State) (o : Nat) (v : Word) : (s.ioSet o v).turn = s.turn := rfl
@[simp] theorem State.ioSet_seq (s : State) (o : Nat) (v : Word) : (s.ioSet o v).seq = s.seq := rfl
@[simp] theorem State.ioSet_fresh (s : State) (o : Nat) (v : Word) : (s.ioSet o v).fresh = s.fresh := rfl
@[simp] theorem State.ioSet_issue (s : State) (o : Nat) (v : Word) : (s.ioSet o v).issue = s.issue := rfl
@[simp] theorem State.ioSet_tmr (s : State) (o : Nat) (v : Word) : (s.ioSet o v).tmr = s.tmr := rfl
@[simp] theorem State.ioSet_fatal (s : State) (o : Nat) (v : Word) : (s.ioSet o v).fatal = s.fatal := rfl
@[simp] theorem State.ioSet_keys (s : State) (o : Nat) (v : Word) : (s.ioSet o v).keys = s.keys := rfl
@[simp] theorem State.ioSet_back (s : State) (o : Nat) (v : Word) : (s.ioSet o v).back = s.back := rfl
@[simp] theorem State.ioSet_backPoison (s : State) (o : Nat) (v : Word) : (s.ioSet o v).backPoison = s.backPoison := rfl

/-! writePhys -/
@[simp] theorem State.writePhys_cores (s : State) (a : Nat) (b : List Byte) : (s.writePhys a b).cores = s.cores := rfl
@[simp] theorem State.writePhys_pkg (s : State) (a : Nat) (b : List Byte) : (s.writePhys a b).pkg = s.pkg := rfl
@[simp] theorem State.writePhys_io (s : State) (a : Nat) (b : List Byte) : (s.writePhys a b).io = s.io := rfl
@[simp] theorem State.writePhys_mem (s : State) (a : Nat) (b : List Byte) : (s.writePhys a b).mem = writeMap s.mem a b := rfl
@[simp] theorem State.writePhys_poison (s : State) (a : Nat) (b : List Byte) : (s.writePhys a b).poison = s.poison := rfl
@[simp] theorem State.writePhys_isoPoison (s : State) (a : Nat) (b : List Byte) : (s.writePhys a b).isoPoison = s.isoPoison := rfl
@[simp] theorem State.writePhys_keyTag (s : State) (a : Nat) (b : List Byte) : (s.writePhys a b).keyTag = s.keyTag := rfl
@[simp] theorem State.writePhys_tlb (s : State) (a : Nat) (b : List Byte) : (s.writePhys a b).tlb = s.tlb := rfl
@[simp] theorem State.writePhys_recq (s : State) (a : Nat) (b : List Byte) : (s.writePhys a b).recq = s.recq := rfl
@[simp] theorem State.writePhys_expCap (s : State) (a : Nat) (b : List Byte) : (s.writePhys a b).expCap = s.expCap := rfl
@[simp] theorem State.writePhys_stopq (s : State) (a : Nat) (b : List Byte) : (s.writePhys a b).stopq = s.stopq := rfl
@[simp] theorem State.writePhys_onHold (s : State) (a : Nat) (b : List Byte) : (s.writePhys a b).onHold = s.onHold := rfl
@[simp] theorem State.writePhys_hbmErr (s : State) (a : Nat) (b : List Byte) : (s.writePhys a b).hbmErr = s.hbmErr := rfl
@[simp] theorem State.writePhys_l2Err (s : State) (a : Nat) (b : List Byte) : (s.writePhys a b).l2Err = s.l2Err := rfl
@[simp] theorem State.writePhys_hbmCor (s : State) (a : Nat) (b : List Byte) : (s.writePhys a b).hbmCor = s.hbmCor := rfl
@[simp] theorem State.writePhys_l2Cor (s : State) (a : Nat) (b : List Byte) : (s.writePhys a b).l2Cor = s.l2Cor := rfl
@[simp] theorem State.writePhys_l2 (s : State) (a : Nat) (b : List Byte) : (s.writePhys a b).l2 = s.l2 := rfl
@[simp] theorem State.writePhys_blaze (s : State) (a : Nat) (b : List Byte) : (s.writePhys a b).blaze = s.blaze := rfl
@[simp] theorem State.writePhys_wayCnt (s : State) (a : Nat) (b : List Byte) : (s.writePhys a b).wayCnt = s.wayCnt := rfl
@[simp] theorem State.writePhys_deck (s : State) (a : Nat) (b : List Byte) : (s.writePhys a b).deck = s.deck := rfl
@[simp] theorem State.writePhys_runs (s : State) (a : Nat) (b : List Byte) : (s.writePhys a b).runs = s.runs := rfl
@[simp] theorem State.writePhys_flight (s : State) (a : Nat) (b : List Byte) : (s.writePhys a b).flight = s.flight := rfl
@[simp] theorem State.writePhys_out (s : State) (a : Nat) (b : List Byte) : (s.writePhys a b).out = s.out := rfl
@[simp] theorem State.writePhys_agenda (s : State) (a : Nat) (b : List Byte) : (s.writePhys a b).agenda = s.agenda := rfl
@[simp] theorem State.writePhys_turn (s : State) (a : Nat) (b : List Byte) : (s.writePhys a b).turn = s.turn := rfl
@[simp] theorem State.writePhys_seq (s : State) (a : Nat) (b : List Byte) : (s.writePhys a b).seq = s.seq := rfl
@[simp] theorem State.writePhys_fresh (s : State) (a : Nat) (b : List Byte) : (s.writePhys a b).fresh = s.fresh := rfl
@[simp] theorem State.writePhys_issue (s : State) (a : Nat) (b : List Byte) : (s.writePhys a b).issue = s.issue := rfl
@[simp] theorem State.writePhys_tmr (s : State) (a : Nat) (b : List Byte) : (s.writePhys a b).tmr = s.tmr := rfl
@[simp] theorem State.writePhys_fatal (s : State) (a : Nat) (b : List Byte) : (s.writePhys a b).fatal = s.fatal := rfl
@[simp] theorem State.writePhys_keys (s : State) (a : Nat) (b : List Byte) : (s.writePhys a b).keys = s.keys := rfl
@[simp] theorem State.writePhys_back (s : State) (a : Nat) (b : List Byte) : (s.writePhys a b).back = s.back := rfl
@[simp] theorem State.writePhys_backPoison (s : State) (a : Nat) (b : List Byte) : (s.writePhys a b).backPoison = s.backPoison := rfl

/-! land -/
@[simp] theorem State.land_cores (s : State) (u : LatUnit) (d : Dest) (v m : Vec) : (s.land u d v m).cores = s.cores.ins s.issue.core (s.cur.landIn (s.cur.latency u) d v m) := rfl
@[simp] theorem State.land_pkg (s : State) (u : LatUnit) (d : Dest) (v m : Vec) : (s.land u d v m).pkg = s.pkg := rfl
@[simp] theorem State.land_io (s : State) (u : LatUnit) (d : Dest) (v m : Vec) : (s.land u d v m).io = s.io := rfl
@[simp] theorem State.land_mem (s : State) (u : LatUnit) (d : Dest) (v m : Vec) : (s.land u d v m).mem = s.mem := rfl
@[simp] theorem State.land_poison (s : State) (u : LatUnit) (d : Dest) (v m : Vec) : (s.land u d v m).poison = s.poison := rfl
@[simp] theorem State.land_isoPoison (s : State) (u : LatUnit) (d : Dest) (v m : Vec) : (s.land u d v m).isoPoison = s.isoPoison := rfl
@[simp] theorem State.land_keyTag (s : State) (u : LatUnit) (d : Dest) (v m : Vec) : (s.land u d v m).keyTag = s.keyTag := rfl
@[simp] theorem State.land_tlb (s : State) (u : LatUnit) (d : Dest) (v m : Vec) : (s.land u d v m).tlb = s.tlb := rfl
@[simp] theorem State.land_recq (s : State) (u : LatUnit) (d : Dest) (v m : Vec) : (s.land u d v m).recq = s.recq := rfl
@[simp] theorem State.land_expCap (s : State) (u : LatUnit) (d : Dest) (v m : Vec) : (s.land u d v m).expCap = s.expCap := rfl
@[simp] theorem State.land_stopq (s : State) (u : LatUnit) (d : Dest) (v m : Vec) : (s.land u d v m).stopq = s.stopq := rfl
@[simp] theorem State.land_onHold (s : State) (u : LatUnit) (d : Dest) (v m : Vec) : (s.land u d v m).onHold = s.onHold := rfl
@[simp] theorem State.land_hbmErr (s : State) (u : LatUnit) (d : Dest) (v m : Vec) : (s.land u d v m).hbmErr = s.hbmErr := rfl
@[simp] theorem State.land_l2Err (s : State) (u : LatUnit) (d : Dest) (v m : Vec) : (s.land u d v m).l2Err = s.l2Err := rfl
@[simp] theorem State.land_hbmCor (s : State) (u : LatUnit) (d : Dest) (v m : Vec) : (s.land u d v m).hbmCor = s.hbmCor := rfl
@[simp] theorem State.land_l2Cor (s : State) (u : LatUnit) (d : Dest) (v m : Vec) : (s.land u d v m).l2Cor = s.l2Cor := rfl
@[simp] theorem State.land_l2 (s : State) (u : LatUnit) (d : Dest) (v m : Vec) : (s.land u d v m).l2 = s.l2 := rfl
@[simp] theorem State.land_blaze (s : State) (u : LatUnit) (d : Dest) (v m : Vec) : (s.land u d v m).blaze = s.blaze := rfl
@[simp] theorem State.land_wayCnt (s : State) (u : LatUnit) (d : Dest) (v m : Vec) : (s.land u d v m).wayCnt = s.wayCnt := rfl
@[simp] theorem State.land_deck (s : State) (u : LatUnit) (d : Dest) (v m : Vec) : (s.land u d v m).deck = s.deck := rfl
@[simp] theorem State.land_runs (s : State) (u : LatUnit) (d : Dest) (v m : Vec) : (s.land u d v m).runs = s.runs := rfl
@[simp] theorem State.land_flight (s : State) (u : LatUnit) (d : Dest) (v m : Vec) : (s.land u d v m).flight = s.flight := rfl
@[simp] theorem State.land_out (s : State) (u : LatUnit) (d : Dest) (v m : Vec) : (s.land u d v m).out = s.out := rfl
@[simp] theorem State.land_agenda (s : State) (u : LatUnit) (d : Dest) (v m : Vec) : (s.land u d v m).agenda = s.agenda := rfl
@[simp] theorem State.land_turn (s : State) (u : LatUnit) (d : Dest) (v m : Vec) : (s.land u d v m).turn = s.turn := rfl
@[simp] theorem State.land_seq (s : State) (u : LatUnit) (d : Dest) (v m : Vec) : (s.land u d v m).seq = s.seq := rfl
@[simp] theorem State.land_fresh (s : State) (u : LatUnit) (d : Dest) (v m : Vec) : (s.land u d v m).fresh = s.fresh := rfl
@[simp] theorem State.land_issue (s : State) (u : LatUnit) (d : Dest) (v m : Vec) : (s.land u d v m).issue = s.issue := rfl
@[simp] theorem State.land_tmr (s : State) (u : LatUnit) (d : Dest) (v m : Vec) : (s.land u d v m).tmr = s.tmr := rfl
@[simp] theorem State.land_fatal (s : State) (u : LatUnit) (d : Dest) (v m : Vec) : (s.land u d v m).fatal = s.fatal := rfl
@[simp] theorem State.land_keys (s : State) (u : LatUnit) (d : Dest) (v m : Vec) : (s.land u d v m).keys = s.keys := rfl
@[simp] theorem State.land_back (s : State) (u : LatUnit) (d : Dest) (v m : Vec) : (s.land u d v m).back = s.back := rfl
@[simp] theorem State.land_backPoison (s : State) (u : LatUnit) (d : Dest) (v m : Vec) : (s.land u d v m).backPoison = s.backPoison := rfl

/-! landV -/
@[simp] theorem State.landV_cores (s : State) (u : LatUnit) (d : BitVec 5) (v m : Vec) : (s.landV u d v m).cores = s.cores.ins s.issue.core (s.cur.landIn (s.cur.latency u) (.v d.toNat) v m) := rfl
@[simp] theorem State.landV_pkg (s : State) (u : LatUnit) (d : BitVec 5) (v m : Vec) : (s.landV u d v m).pkg = s.pkg := rfl
@[simp] theorem State.landV_io (s : State) (u : LatUnit) (d : BitVec 5) (v m : Vec) : (s.landV u d v m).io = s.io := rfl
@[simp] theorem State.landV_mem (s : State) (u : LatUnit) (d : BitVec 5) (v m : Vec) : (s.landV u d v m).mem = s.mem := rfl
@[simp] theorem State.landV_poison (s : State) (u : LatUnit) (d : BitVec 5) (v m : Vec) : (s.landV u d v m).poison = s.poison := rfl
@[simp] theorem State.landV_isoPoison (s : State) (u : LatUnit) (d : BitVec 5) (v m : Vec) : (s.landV u d v m).isoPoison = s.isoPoison := rfl
@[simp] theorem State.landV_keyTag (s : State) (u : LatUnit) (d : BitVec 5) (v m : Vec) : (s.landV u d v m).keyTag = s.keyTag := rfl
@[simp] theorem State.landV_tlb (s : State) (u : LatUnit) (d : BitVec 5) (v m : Vec) : (s.landV u d v m).tlb = s.tlb := rfl
@[simp] theorem State.landV_recq (s : State) (u : LatUnit) (d : BitVec 5) (v m : Vec) : (s.landV u d v m).recq = s.recq := rfl
@[simp] theorem State.landV_expCap (s : State) (u : LatUnit) (d : BitVec 5) (v m : Vec) : (s.landV u d v m).expCap = s.expCap := rfl
@[simp] theorem State.landV_stopq (s : State) (u : LatUnit) (d : BitVec 5) (v m : Vec) : (s.landV u d v m).stopq = s.stopq := rfl
@[simp] theorem State.landV_onHold (s : State) (u : LatUnit) (d : BitVec 5) (v m : Vec) : (s.landV u d v m).onHold = s.onHold := rfl
@[simp] theorem State.landV_hbmErr (s : State) (u : LatUnit) (d : BitVec 5) (v m : Vec) : (s.landV u d v m).hbmErr = s.hbmErr := rfl
@[simp] theorem State.landV_l2Err (s : State) (u : LatUnit) (d : BitVec 5) (v m : Vec) : (s.landV u d v m).l2Err = s.l2Err := rfl
@[simp] theorem State.landV_hbmCor (s : State) (u : LatUnit) (d : BitVec 5) (v m : Vec) : (s.landV u d v m).hbmCor = s.hbmCor := rfl
@[simp] theorem State.landV_l2Cor (s : State) (u : LatUnit) (d : BitVec 5) (v m : Vec) : (s.landV u d v m).l2Cor = s.l2Cor := rfl
@[simp] theorem State.landV_l2 (s : State) (u : LatUnit) (d : BitVec 5) (v m : Vec) : (s.landV u d v m).l2 = s.l2 := rfl
@[simp] theorem State.landV_blaze (s : State) (u : LatUnit) (d : BitVec 5) (v m : Vec) : (s.landV u d v m).blaze = s.blaze := rfl
@[simp] theorem State.landV_wayCnt (s : State) (u : LatUnit) (d : BitVec 5) (v m : Vec) : (s.landV u d v m).wayCnt = s.wayCnt := rfl
@[simp] theorem State.landV_deck (s : State) (u : LatUnit) (d : BitVec 5) (v m : Vec) : (s.landV u d v m).deck = s.deck := rfl
@[simp] theorem State.landV_runs (s : State) (u : LatUnit) (d : BitVec 5) (v m : Vec) : (s.landV u d v m).runs = s.runs := rfl
@[simp] theorem State.landV_flight (s : State) (u : LatUnit) (d : BitVec 5) (v m : Vec) : (s.landV u d v m).flight = s.flight := rfl
@[simp] theorem State.landV_out (s : State) (u : LatUnit) (d : BitVec 5) (v m : Vec) : (s.landV u d v m).out = s.out := rfl
@[simp] theorem State.landV_agenda (s : State) (u : LatUnit) (d : BitVec 5) (v m : Vec) : (s.landV u d v m).agenda = s.agenda := rfl
@[simp] theorem State.landV_turn (s : State) (u : LatUnit) (d : BitVec 5) (v m : Vec) : (s.landV u d v m).turn = s.turn := rfl
@[simp] theorem State.landV_seq (s : State) (u : LatUnit) (d : BitVec 5) (v m : Vec) : (s.landV u d v m).seq = s.seq := rfl
@[simp] theorem State.landV_fresh (s : State) (u : LatUnit) (d : BitVec 5) (v m : Vec) : (s.landV u d v m).fresh = s.fresh := rfl
@[simp] theorem State.landV_issue (s : State) (u : LatUnit) (d : BitVec 5) (v m : Vec) : (s.landV u d v m).issue = s.issue := rfl
@[simp] theorem State.landV_tmr (s : State) (u : LatUnit) (d : BitVec 5) (v m : Vec) : (s.landV u d v m).tmr = s.tmr := rfl
@[simp] theorem State.landV_fatal (s : State) (u : LatUnit) (d : BitVec 5) (v m : Vec) : (s.landV u d v m).fatal = s.fatal := rfl
@[simp] theorem State.landV_keys (s : State) (u : LatUnit) (d : BitVec 5) (v m : Vec) : (s.landV u d v m).keys = s.keys := rfl
@[simp] theorem State.landV_back (s : State) (u : LatUnit) (d : BitVec 5) (v m : Vec) : (s.landV u d v m).back = s.back := rfl
@[simp] theorem State.landV_backPoison (s : State) (u : LatUnit) (d : BitVec 5) (v m : Vec) : (s.landV u d v m).backPoison = s.backPoison := rfl

/-! stallNow -/
@[simp] theorem State.stallNow_cores (s : State) : (s.stallNow).cores = s.cores := rfl
@[simp] theorem State.stallNow_pkg (s : State) : (s.stallNow).pkg = s.pkg := rfl
@[simp] theorem State.stallNow_io (s : State) : (s.stallNow).io = s.io := rfl
@[simp] theorem State.stallNow_mem (s : State) : (s.stallNow).mem = s.mem := rfl
@[simp] theorem State.stallNow_poison (s : State) : (s.stallNow).poison = s.poison := rfl
@[simp] theorem State.stallNow_isoPoison (s : State) : (s.stallNow).isoPoison = s.isoPoison := rfl
@[simp] theorem State.stallNow_keyTag (s : State) : (s.stallNow).keyTag = s.keyTag := rfl
@[simp] theorem State.stallNow_tlb (s : State) : (s.stallNow).tlb = s.tlb := rfl
@[simp] theorem State.stallNow_recq (s : State) : (s.stallNow).recq = s.recq := rfl
@[simp] theorem State.stallNow_expCap (s : State) : (s.stallNow).expCap = s.expCap := rfl
@[simp] theorem State.stallNow_stopq (s : State) : (s.stallNow).stopq = s.stopq := rfl
@[simp] theorem State.stallNow_onHold (s : State) : (s.stallNow).onHold = s.onHold := rfl
@[simp] theorem State.stallNow_hbmErr (s : State) : (s.stallNow).hbmErr = s.hbmErr := rfl
@[simp] theorem State.stallNow_l2Err (s : State) : (s.stallNow).l2Err = s.l2Err := rfl
@[simp] theorem State.stallNow_hbmCor (s : State) : (s.stallNow).hbmCor = s.hbmCor := rfl
@[simp] theorem State.stallNow_l2Cor (s : State) : (s.stallNow).l2Cor = s.l2Cor := rfl
@[simp] theorem State.stallNow_l2 (s : State) : (s.stallNow).l2 = s.l2 := rfl
@[simp] theorem State.stallNow_blaze (s : State) : (s.stallNow).blaze = s.blaze := rfl
@[simp] theorem State.stallNow_wayCnt (s : State) : (s.stallNow).wayCnt = s.wayCnt := rfl
@[simp] theorem State.stallNow_deck (s : State) : (s.stallNow).deck = s.deck := rfl
@[simp] theorem State.stallNow_runs (s : State) : (s.stallNow).runs = s.runs := rfl
@[simp] theorem State.stallNow_flight (s : State) : (s.stallNow).flight = s.flight := rfl
@[simp] theorem State.stallNow_out (s : State) : (s.stallNow).out = s.out := rfl
@[simp] theorem State.stallNow_agenda (s : State) : (s.stallNow).agenda = s.agenda := rfl
@[simp] theorem State.stallNow_turn (s : State) : (s.stallNow).turn = s.turn := rfl
@[simp] theorem State.stallNow_seq (s : State) : (s.stallNow).seq = s.seq := rfl
@[simp] theorem State.stallNow_fresh (s : State) : (s.stallNow).fresh = s.fresh := rfl
@[simp] theorem State.stallNow_issue (s : State) : (s.stallNow).issue = { s.issue with stall := true } := rfl
@[simp] theorem State.stallNow_tmr (s : State) : (s.stallNow).tmr = s.tmr := rfl
@[simp] theorem State.stallNow_fatal (s : State) : (s.stallNow).fatal = s.fatal := rfl
@[simp] theorem State.stallNow_keys (s : State) : (s.stallNow).keys = s.keys := rfl
@[simp] theorem State.stallNow_back (s : State) : (s.stallNow).back = s.back := rfl
@[simp] theorem State.stallNow_backPoison (s : State) : (s.stallNow).backPoison = s.backPoison := rfl

/-! jump -/
@[simp] theorem State.jump_cores (s : State) (a : Word) (l : Bool) : (s.jump a l).cores = s.cores := rfl
@[simp] theorem State.jump_pkg (s : State) (a : Word) (l : Bool) : (s.jump a l).pkg = s.pkg := rfl
@[simp] theorem State.jump_io (s : State) (a : Word) (l : Bool) : (s.jump a l).io = s.io := rfl
@[simp] theorem State.jump_mem (s : State) (a : Word) (l : Bool) : (s.jump a l).mem = s.mem := rfl
@[simp] theorem State.jump_poison (s : State) (a : Word) (l : Bool) : (s.jump a l).poison = s.poison := rfl
@[simp] theorem State.jump_isoPoison (s : State) (a : Word) (l : Bool) : (s.jump a l).isoPoison = s.isoPoison := rfl
@[simp] theorem State.jump_keyTag (s : State) (a : Word) (l : Bool) : (s.jump a l).keyTag = s.keyTag := rfl
@[simp] theorem State.jump_tlb (s : State) (a : Word) (l : Bool) : (s.jump a l).tlb = s.tlb := rfl
@[simp] theorem State.jump_recq (s : State) (a : Word) (l : Bool) : (s.jump a l).recq = s.recq := rfl
@[simp] theorem State.jump_expCap (s : State) (a : Word) (l : Bool) : (s.jump a l).expCap = s.expCap := rfl
@[simp] theorem State.jump_stopq (s : State) (a : Word) (l : Bool) : (s.jump a l).stopq = s.stopq := rfl
@[simp] theorem State.jump_onHold (s : State) (a : Word) (l : Bool) : (s.jump a l).onHold = s.onHold := rfl
@[simp] theorem State.jump_hbmErr (s : State) (a : Word) (l : Bool) : (s.jump a l).hbmErr = s.hbmErr := rfl
@[simp] theorem State.jump_l2Err (s : State) (a : Word) (l : Bool) : (s.jump a l).l2Err = s.l2Err := rfl
@[simp] theorem State.jump_hbmCor (s : State) (a : Word) (l : Bool) : (s.jump a l).hbmCor = s.hbmCor := rfl
@[simp] theorem State.jump_l2Cor (s : State) (a : Word) (l : Bool) : (s.jump a l).l2Cor = s.l2Cor := rfl
@[simp] theorem State.jump_l2 (s : State) (a : Word) (l : Bool) : (s.jump a l).l2 = s.l2 := rfl
@[simp] theorem State.jump_blaze (s : State) (a : Word) (l : Bool) : (s.jump a l).blaze = s.blaze := rfl
@[simp] theorem State.jump_wayCnt (s : State) (a : Word) (l : Bool) : (s.jump a l).wayCnt = s.wayCnt := rfl
@[simp] theorem State.jump_deck (s : State) (a : Word) (l : Bool) : (s.jump a l).deck = s.deck := rfl
@[simp] theorem State.jump_runs (s : State) (a : Word) (l : Bool) : (s.jump a l).runs = s.runs := rfl
@[simp] theorem State.jump_flight (s : State) (a : Word) (l : Bool) : (s.jump a l).flight = s.flight := rfl
@[simp] theorem State.jump_out (s : State) (a : Word) (l : Bool) : (s.jump a l).out = s.out := rfl
@[simp] theorem State.jump_agenda (s : State) (a : Word) (l : Bool) : (s.jump a l).agenda = s.agenda := rfl
@[simp] theorem State.jump_turn (s : State) (a : Word) (l : Bool) : (s.jump a l).turn = s.turn := rfl
@[simp] theorem State.jump_seq (s : State) (a : Word) (l : Bool) : (s.jump a l).seq = s.seq := rfl
@[simp] theorem State.jump_fresh (s : State) (a : Word) (l : Bool) : (s.jump a l).fresh = s.fresh := rfl
@[simp] theorem State.jump_issue (s : State) (a : Word) (l : Bool) : (s.jump a l).issue = { s.issue with target := some a, leaves := l } := rfl
@[simp] theorem State.jump_tmr (s : State) (a : Word) (l : Bool) : (s.jump a l).tmr = s.tmr := rfl
@[simp] theorem State.jump_fatal (s : State) (a : Word) (l : Bool) : (s.jump a l).fatal = s.fatal := rfl
@[simp] theorem State.jump_keys (s : State) (a : Word) (l : Bool) : (s.jump a l).keys = s.keys := rfl
@[simp] theorem State.jump_back (s : State) (a : Word) (l : Bool) : (s.jump a l).back = s.back := rfl
@[simp] theorem State.jump_backPoison (s : State) (a : Word) (l : Bool) : (s.jump a l).backPoison = s.backPoison := rfl

/-! quiet -/
@[simp] theorem State.quiet_cores (s : State) : (s.quiet).cores = s.cores := rfl
@[simp] theorem State.quiet_pkg (s : State) : (s.quiet).pkg = s.pkg := rfl
@[simp] theorem State.quiet_io (s : State) : (s.quiet).io = s.io := rfl
@[simp] theorem State.quiet_mem (s : State) : (s.quiet).mem = s.mem := rfl
@[simp] theorem State.quiet_poison (s : State) : (s.quiet).poison = s.poison := rfl
@[simp] theorem State.quiet_isoPoison (s : State) : (s.quiet).isoPoison = s.isoPoison := rfl
@[simp] theorem State.quiet_keyTag (s : State) : (s.quiet).keyTag = s.keyTag := rfl
@[simp] theorem State.quiet_tlb (s : State) : (s.quiet).tlb = s.tlb := rfl
@[simp] theorem State.quiet_recq (s : State) : (s.quiet).recq = s.recq := rfl
@[simp] theorem State.quiet_expCap (s : State) : (s.quiet).expCap = s.expCap := rfl
@[simp] theorem State.quiet_stopq (s : State) : (s.quiet).stopq = s.stopq := rfl
@[simp] theorem State.quiet_onHold (s : State) : (s.quiet).onHold = s.onHold := rfl
@[simp] theorem State.quiet_hbmErr (s : State) : (s.quiet).hbmErr = s.hbmErr := rfl
@[simp] theorem State.quiet_l2Err (s : State) : (s.quiet).l2Err = s.l2Err := rfl
@[simp] theorem State.quiet_hbmCor (s : State) : (s.quiet).hbmCor = s.hbmCor := rfl
@[simp] theorem State.quiet_l2Cor (s : State) : (s.quiet).l2Cor = s.l2Cor := rfl
@[simp] theorem State.quiet_l2 (s : State) : (s.quiet).l2 = s.l2 := rfl
@[simp] theorem State.quiet_blaze (s : State) : (s.quiet).blaze = s.blaze := rfl
@[simp] theorem State.quiet_wayCnt (s : State) : (s.quiet).wayCnt = s.wayCnt := rfl
@[simp] theorem State.quiet_deck (s : State) : (s.quiet).deck = s.deck := rfl
@[simp] theorem State.quiet_runs (s : State) : (s.quiet).runs = s.runs := rfl
@[simp] theorem State.quiet_flight (s : State) : (s.quiet).flight = s.flight := rfl
@[simp] theorem State.quiet_out (s : State) : (s.quiet).out = s.out := rfl
@[simp] theorem State.quiet_agenda (s : State) : (s.quiet).agenda = s.agenda := rfl
@[simp] theorem State.quiet_turn (s : State) : (s.quiet).turn = s.turn := rfl
@[simp] theorem State.quiet_seq (s : State) : (s.quiet).seq = s.seq := rfl
@[simp] theorem State.quiet_fresh (s : State) : (s.quiet).fresh = s.fresh := rfl
@[simp] theorem State.quiet_issue (s : State) : (s.quiet).issue = {} := rfl
@[simp] theorem State.quiet_tmr (s : State) : (s.quiet).tmr = s.tmr := rfl
@[simp] theorem State.quiet_fatal (s : State) : (s.quiet).fatal = s.fatal := rfl
@[simp] theorem State.quiet_keys (s : State) : (s.quiet).keys = s.keys := rfl
@[simp] theorem State.quiet_back (s : State) : (s.quiet).back = s.back := rfl
@[simp] theorem State.quiet_backPoison (s : State) : (s.quiet).backPoison = s.backPoison := rfl

/-! passTime -/
@[simp] theorem State.passTime_cores (s : State) : (s.passTime).cores = s.cores := rfl
@[simp] theorem State.passTime_pkg (s : State) : (s.passTime).pkg = s.pkg := rfl
@[simp] theorem State.passTime_io (s : State) : (s.passTime).io = s.io := rfl
@[simp] theorem State.passTime_mem (s : State) : (s.passTime).mem = s.mem := rfl
@[simp] theorem State.passTime_poison (s : State) : (s.passTime).poison = s.poison := rfl
@[simp] theorem State.passTime_isoPoison (s : State) : (s.passTime).isoPoison = s.isoPoison := rfl
@[simp] theorem State.passTime_keyTag (s : State) : (s.passTime).keyTag = s.keyTag := rfl
@[simp] theorem State.passTime_tlb (s : State) : (s.passTime).tlb = s.tlb := rfl
@[simp] theorem State.passTime_recq (s : State) : (s.passTime).recq = s.recq := rfl
@[simp] theorem State.passTime_expCap (s : State) : (s.passTime).expCap = s.expCap := rfl
@[simp] theorem State.passTime_stopq (s : State) : (s.passTime).stopq = s.stopq := rfl
@[simp] theorem State.passTime_onHold (s : State) : (s.passTime).onHold = s.onHold := rfl
@[simp] theorem State.passTime_hbmErr (s : State) : (s.passTime).hbmErr = s.hbmErr := rfl
@[simp] theorem State.passTime_l2Err (s : State) : (s.passTime).l2Err = s.l2Err := rfl
@[simp] theorem State.passTime_hbmCor (s : State) : (s.passTime).hbmCor = s.hbmCor := rfl
@[simp] theorem State.passTime_l2Cor (s : State) : (s.passTime).l2Cor = s.l2Cor := rfl
@[simp] theorem State.passTime_l2 (s : State) : (s.passTime).l2 = s.l2 := rfl
@[simp] theorem State.passTime_blaze (s : State) : (s.passTime).blaze = s.blaze := rfl
@[simp] theorem State.passTime_wayCnt (s : State) : (s.passTime).wayCnt = s.wayCnt := rfl
@[simp] theorem State.passTime_deck (s : State) : (s.passTime).deck = s.deck := rfl
@[simp] theorem State.passTime_runs (s : State) : (s.passTime).runs = s.runs := rfl
@[simp] theorem State.passTime_flight (s : State) : (s.passTime).flight = s.flight := rfl
@[simp] theorem State.passTime_out (s : State) : (s.passTime).out = s.out := rfl
@[simp] theorem State.passTime_agenda (s : State) : (s.passTime).agenda = s.agenda := rfl
@[simp] theorem State.passTime_turn (s : State) : (s.passTime).turn = s.turn := rfl
@[simp] theorem State.passTime_seq (s : State) : (s.passTime).seq = s.seq := rfl
@[simp] theorem State.passTime_fresh (s : State) : (s.passTime).fresh = s.fresh + 1 := rfl
@[simp] theorem State.passTime_issue (s : State) : (s.passTime).issue = s.issue := rfl
@[simp] theorem State.passTime_tmr (s : State) : (s.passTime).tmr = s.tmr + BitVec.ofNat 64 (Config.refclkOfStep s.fresh) := rfl
@[simp] theorem State.passTime_fatal (s : State) : (s.passTime).fatal = s.fatal := rfl
@[simp] theorem State.passTime_keys (s : State) : (s.passTime).keys = s.keys := rfl
@[simp] theorem State.passTime_back (s : State) : (s.passTime).back = s.back := rfl
@[simp] theorem State.passTime_backPoison (s : State) : (s.passTime).backPoison = s.backPoison := rfl

/-! A result on its way changes nothing of a core but its results in flight. -/
@[simp] theorem Core.landIn_run (c : Core) (n : Nat) (d : Dest) (v m : Vec) : (c.landIn n d v m).run = c.run := rfl
@[simp] theorem Core.landIn_pc (c : Core) (n : Nat) (d : Dest) (v m : Vec) : (c.landIn n d v m).pc = c.pc := rfl
@[simp] theorem Core.landIn_arch (c : Core) (n : Nat) (d : Dest) (v m : Vec) : (c.landIn n d v m).arch = { c.arch with lands := c.arch.lands ++ [⟨n, d, v, m⟩] } := rfl
@[simp] theorem Core.landIn_seg (c : Core) (n : Nat) (d : Dest) (v m : Vec) : (c.landIn n d v m).seg = c.seg := rfl
@[simp] theorem Core.landIn_grp (c : Core) (n : Nat) (d : Dest) (v m : Vec) : (c.landIn n d v m).grp = c.grp := rfl
@[simp] theorem Core.landIn_e (c : Core) (n : Nat) (d : Dest) (v m : Vec) : (c.landIn n d v m).e = c.e := rfl
@[simp] theorem Core.landIn_svc (c : Core) (n : Nat) (d : Dest) (v m : Vec) : (c.landIn n d v m).svc = c.svc := rfl
@[simp] theorem Core.landIn_tiles (c : Core) (n : Nat) (d : Dest) (v m : Vec) : (c.landIn n d v m).tiles = c.tiles := rfl
@[simp] theorem Core.landIn_accs (c : Core) (n : Nat) (d : Dest) (v m : Vec) : (c.landIn n d v m).accs = c.accs := rfl
@[simp] theorem Core.landIn_b0 (c : Core) (n : Nat) (d : Dest) (v m : Vec) : (c.landIn n d v m).b0 = c.b0 := rfl
@[simp] theorem Core.landIn_b1 (c : Core) (n : Nat) (d : Dest) (v m : Vec) : (c.landIn n d v m).b1 = c.b1 := rfl
@[simp] theorem Core.landIn_cb0 (c : Core) (n : Nat) (d : Dest) (v m : Vec) : (c.landIn n d v m).cb0 = c.cb0 := rfl
@[simp] theorem Core.landIn_cb1 (c : Core) (n : Nat) (d : Dest) (v m : Vec) : (c.landIn n d v m).cb1 = c.cb1 := rfl
@[simp] theorem Core.landIn_loads (c : Core) (n : Nat) (d : Dest) (v m : Vec) : (c.landIn n d v m).loads = c.loads := rfl
@[simp] theorem Core.landIn_atoms (c : Core) (n : Nat) (d : Dest) (v m : Vec) : (c.landIn n d v m).atoms = c.atoms := rfl
@[simp] theorem Core.landIn_cmds (c : Core) (n : Nat) (d : Dest) (v m : Vec) : (c.landIn n d v m).cmds = c.cmds := rfl
@[simp] theorem Core.landIn_mq (c : Core) (n : Nat) (d : Dest) (v m : Vec) : (c.landIn n d v m).mq = c.mq := rfl
@[simp] theorem Core.landIn_aq (c : Core) (n : Nat) (d : Dest) (v m : Vec) : (c.landIn n d v m).aq = c.aq := rfl
@[simp] theorem Core.landIn_dq (c : Core) (n : Nat) (d : Dest) (v m : Vec) : (c.landIn n d v m).dq = c.dq := rfl
@[simp] theorem Core.landIn_watches (c : Core) (n : Nat) (d : Dest) (v m : Vec) : (c.landIn n d v m).watches = c.watches := rfl
@[simp] theorem Core.landIn_sp (c : Core) (n : Nat) (d : Dest) (v m : Vec) : (c.landIn n d v m).sp = c.sp := rfl
@[simp] theorem Core.landIn_spPoison (c : Core) (n : Nat) (d : Dest) (v m : Vec) : (c.landIn n d v m).spPoison = c.spPoison := rfl
@[simp] theorem Core.landIn_wins (c : Core) (n : Nat) (d : Dest) (v m : Vec) : (c.landIn n d v m).wins = c.wins := rfl
@[simp] theorem Core.landIn_stash (c : Core) (n : Nat) (d : Dest) (v m : Vec) : (c.landIn n d v m).stash = c.stash := rfl
@[simp] theorem Core.landIn_lbuf (c : Core) (n : Nat) (d : Dest) (v m : Vec) : (c.landIn n d v m).lbuf = c.lbuf := rfl
@[simp] theorem Core.landIn_opReq (c : Core) (n : Nat) (d : Dest) (v m : Vec) : (c.landIn n d v m).opReq = c.opReq := rfl
@[simp] theorem Core.landIn_opEff (c : Core) (n : Nat) (d : Dest) (v m : Vec) : (c.landIn n d v m).opEff = c.opEff := rfl
@[simp] theorem Core.landIn_opCeil (c : Core) (n : Nat) (d : Dest) (v m : Vec) : (c.landIn n d v m).opCeil = c.opCeil := rfl
@[simp] theorem Core.landIn_opPwin (c : Core) (n : Nat) (d : Dest) (v m : Vec) : (c.landIn n d v m).opPwin = c.opPwin := rfl
@[simp] theorem Core.landIn_opHwin (c : Core) (n : Nat) (d : Dest) (v m : Vec) : (c.landIn n d v m).opHwin = c.opHwin := rfl
@[simp] theorem Core.landIn_opKept (c : Core) (n : Nat) (d : Dest) (v m : Vec) : (c.landIn n d v m).opKept = c.opKept := rfl
@[simp] theorem Core.landIn_mhz (c : Core) (n : Nat) (d : Dest) (v m : Vec) : (c.landIn n d v m).mhz = c.mhz := rfl
@[simp] theorem Core.landIn_eprof (c : Core) (n : Nat) (d : Dest) (v m : Vec) : (c.landIn n d v m).eprof = c.eprof := rfl
@[simp] theorem Core.landIn_elvl (c : Core) (n : Nat) (d : Dest) (v m : Vec) : (c.landIn n d v m).elvl = c.elvl := rfl
@[simp] theorem Core.landIn_elvlS (c : Core) (n : Nat) (d : Dest) (v m : Vec) : (c.landIn n d v m).elvlS = c.elvlS := rfl
@[simp] theorem Core.landIn_earm (c : Core) (n : Nat) (d : Dest) (v m : Vec) : (c.landIn n d v m).earm = c.earm := rfl
@[simp] theorem Core.landIn_latdecl (c : Core) (n : Nat) (d : Dest) (v m : Vec) : (c.landIn n d v m).latdecl = c.latdecl := rfl
@[simp] theorem Core.landIn_cmiss (c : Core) (n : Nat) (d : Dest) (v m : Vec) : (c.landIn n d v m).cmiss = c.cmiss := rfl
@[simp] theorem Core.landIn_fscore (c : Core) (n : Nat) (d : Dest) (v m : Vec) : (c.landIn n d v m).fscore = c.fscore := rfl
@[simp] theorem Core.landIn_kernel (c : Core) (n : Nat) (d : Dest) (v m : Vec) : (c.landIn n d v m).kernel = c.kernel := rfl
@[simp] theorem Core.landIn_chunk (c : Core) (n : Nat) (d : Dest) (v m : Vec) : (c.landIn n d v m).chunk = c.chunk := rfl
@[simp] theorem Core.landIn_queue (c : Core) (n : Nat) (d : Dest) (v m : Vec) : (c.landIn n d v m).queue = c.queue := rfl
@[simp] theorem Core.landIn_resident (c : Core) (n : Nat) (d : Dest) (v m : Vec) : (c.landIn n d v m).resident = c.resident := rfl
@[simp] theorem Core.landIn_preempt (c : Core) (n : Nat) (d : Dest) (v m : Vec) : (c.landIn n d v m).preempt = c.preempt := rfl
@[simp] theorem Core.landIn_reserved (c : Core) (n : Nat) (d : Dest) (v m : Vec) : (c.landIn n d v m).reserved = c.reserved := rfl
@[simp] theorem Core.landIn_trec (c : Core) (n : Nat) (d : Dest) (v m : Vec) : (c.landIn n d v m).trec = c.trec := rfl
@[simp] theorem Core.landIn_recHeld (c : Core) (n : Nat) (d : Dest) (v m : Vec) : (c.landIn n d v m).recHeld = c.recHeld := rfl
@[simp] theorem Core.landIn_icache (c : Core) (n : Nat) (d : Dest) (v m : Vec) : (c.landIn n d v m).icache = c.icache := rfl
@[simp] theorem Core.landIn_sdc (c : Core) (n : Nat) (d : Dest) (v m : Vec) : (c.landIn n d v m).sdc = c.sdc := rfl
@[simp] theorem Core.landIn_arrayOn (c : Core) (n : Nat) (d : Dest) (v m : Vec) : (c.landIn n d v m).arrayOn = c.arrayOn := rfl
@[simp] theorem Core.landIn_arrayEn (c : Core) (n : Nat) (d : Dest) (v m : Vec) : (c.landIn n d v m).arrayEn = c.arrayEn := rfl
@[simp] theorem Core.landIn_arrived (c : Core) (n : Nat) (d : Dest) (v m : Vec) : (c.landIn n d v m).arrived = c.arrived := rfl
@[simp] theorem Core.landIn_spErr (c : Core) (n : Nat) (d : Dest) (v m : Vec) : (c.landIn n d v m).spErr = c.spErr := rfl
@[simp] theorem Core.landIn_spCor (c : Core) (n : Nat) (d : Dest) (v m : Vec) : (c.landIn n d v m).spCor = c.spCor := rfl
@[simp] theorem Core.landIn_opWait (c : Core) (n : Nat) (d : Dest) (v m : Vec) : (c.landIn n d v m).opWait = c.opWait := rfl
@[simp] theorem Core.landIn_keepErr (c : Core) (n : Nat) (d : Dest) (v m : Vec) : (c.landIn n d v m).keepErr = c.keepErr := rfl

/-- A result on its way leaves the room in the release buffer. -/
@[simp] theorem Core.landIn_relCount (c : Core) (n : Nat) (d : Dest) (v m : Vec) : (c.landIn n d v m).relCount = c.relCount := rfl

/-! Reading a core after an update. -/

@[simp] theorem State.core_setCore_self (s : State) (c : Nat) (k : Core) : (s.setCore c k).core c = k := SMap.getD_ins_self ..
theorem State.core_setCore_ne (s : State) {c j : Nat} (k : Core) (h : c ≠ j) : (s.setCore c k).core j = s.core j := SMap.getD_ins_ne _ _ _ h
@[simp] theorem State.core_modCore_self (s : State) (c : Nat) (f : Core → Core) : (s.modCore c f).core c = f (s.core c) := SMap.getD_ins_self ..
theorem State.core_modCore_ne (s : State) {c j : Nat} (f : Core → Core) (h : c ≠ j) : (s.modCore c f).core j = s.core j := SMap.getD_ins_ne _ _ _ h
@[simp] theorem State.cur_modCur (s : State) (f : Core → Core) : (s.modCur f).cur = f s.cur := SMap.getD_ins_self ..
theorem State.core_modCur_ne (s : State) {j : Nat} (f : Core → Core) (h : s.issue.core ≠ j) : (s.modCur f).core j = s.core j := SMap.getD_ins_ne _ _ _ h
@[simp] theorem State.cur_setCore (s : State) (k : Core) : (s.setCore s.issue.core k).cur = k := SMap.getD_ins_self ..
@[simp] theorem State.core_ioSet (s : State) (o : Nat) (v : Word) (j : Nat) : (s.ioSet o v).core j = s.core j := rfl
@[simp] theorem State.core_writePhys (s : State) (a : Nat) (b : List Byte) (j : Nat) : (s.writePhys a b).core j = s.core j := rfl
@[simp] theorem State.cur_land (s : State) (u : LatUnit) (d : Dest) (v m : Vec) : (s.land u d v m).cur = s.cur.landIn (s.cur.latency u) d v m := SMap.getD_ins_self ..
theorem State.core_land_ne (s : State) (u : LatUnit) (d : Dest) (v m : Vec) {j : Nat} (h : s.issue.core ≠ j) : (s.land u d v m).core j = s.core j := SMap.getD_ins_ne _ _ _ h
@[simp] theorem State.ioGet_setCore (s : State) (c : Nat) (k : Core) (o : Nat) : (s.setCore c k).ioGet o = s.ioGet o := rfl
@[simp] theorem State.ioGet_modCore (s : State) (c : Nat) (f : Core → Core) (o : Nat) : (s.modCore c f).ioGet o = s.ioGet o := rfl
@[simp] theorem State.ioGet_modCur (s : State) (f : Core → Core) (o : Nat) : (s.modCur f).ioGet o = s.ioGet o := rfl
@[simp] theorem State.ioGet_land (s : State) (u : LatUnit) (d : Dest) (v m : Vec) (o : Nat) : (s.land u d v m).ioGet o = s.ioGet o := rfl
@[simp] theorem State.ioGet_ioSet_self (s : State) (o : Nat) (v : Word) : (s.ioSet o v).ioGet o = v := SMap.getD_ins_self ..
theorem State.ioGet_ioSet_ne (s : State) {o q : Nat} (v : Word) (h : o ≠ q) : (s.ioSet o v).ioGet q = s.ioGet q := SMap.getD_ins_ne _ _ _ h

/-! Within a group, nothing moves before a bundle that is ready. -/
@[simp] theorem State.runAhead_ready {s : State} {core n : Nat} {ready : State → Bool} (h : ready s = true) : s.runAhead core ready n = s := by
  cases n with
  | zero => rfl
  | succ n => rw [State.runAhead, if_pos h]

end Sys2Proof.Machine
end

