-- ==== Sys2Proof/Laws/Ops.lean ====
section
/-! SUPPORT. What the shared ways of running an operation can do, once for each: the arrival suffix, operations that retire at issue,
that take their guard element by element, and that retire later. -/
namespace Sys2Proof.Machine
open Sys2Proof

/-- An arrival can be posted in every state that agrees on registers, chunk and room in the release buffer of the core at issue. -/
theorem State.arrivalOk_of {s t : State} {a : Option Arrival} (h : s.arrivalOk a) (hc : t.issue.core = s.issue.core) (hio : t.io = s.io)
    (hch : t.cur.chunk = s.cur.chunk) (hrel : t.cur.relCount = s.cur.relCount) : t.arrivalOk a := by
  match a, h with
  | none, _ => trivial
  | some (.flag _), _ => trivial
  | some (.barrier g), h =>
    have hk : (t.core t.issue.core).chunk = (s.core s.issue.core).chunk := hch
    simp only [State.arrivalOk, State.barGranted, State.ctxOf, State.ioGet, Core.gangMember, hc, hio, hch, hrel] at h ⊢
    rw [hc] at hk
    rw [hk]; exact h

theorem State.arriveNow_ok {s : State} {a : Option Arrival} (h : s.arrivalOk a) : s.arriveNow a = .ok (s.arrival a) := by
  match a, h with
  | none, _ => rfl
  | some (.flag _), _ => rfl
  | some (.barrier g), ⟨h1, h2, h3⟩ =>
    simp [State.arriveNow, State.barArrive, State.barCheck, raiseIf, h1, h2, Core.release, Nat.not_le.mpr h3, bind, Except.bind]
    rfl

theorem State.arriveCheck_ok {s : State} {a : Option Arrival} (h : s.arrivalOk a) : s.arriveCheck a = .ok () := by
  match a, h with
  | none, _ => rfl
  | some (.flag _), _ => rfl
  | some (.barrier g), ⟨h1, h2, h3⟩ => simp [State.arriveCheck, State.barCheck, raiseIf, h1, h2, Nat.not_le.mpr h3, bind, Except.bind]

@[simp] theorem State.keep_ok {α : Type} (s : State) (x : α) : s.keep (.ok x) = .ok x := rfl
@[simp] theorem State.redo_nil (s : State) : s.redo [] = s := rfl
@[simp] theorem State.redo_cons (s : State) (t : Touch) (l : List Touch) : s.redo (t :: l) = (s.redoOne t).redo l := rfl
theorem State.endsAfter_error {α : Type} (s : State) (t : TrapInfo) (l : List Touch) :
    (s.endsAfter t l : Except TrapInfo α) = .error { t with did := s.issue.did ++ l } := rfl
/-- An operation that touched nothing takes its trap from the state in which it issued. -/
theorem finish_error {o : OpInfo} {s : State} {t : TrapInfo} (h : t.did = []) :
    finish o s (.error t) = .next (s.takeTrap { t with slot := BitVec.ofNat 4 (slotNum o.slot) }) := by
  simp [finish, h]

theorem State.runNow_true {s t : State} {o : OpInfo} {f : State → Res} (hg : s.guard0 o = true) (hf : f s = .ok t) (ha : t.arrivalOk o.arr) :
    s.runNow o f = .next (t.arrival o.arr) := by
  simp [State.runNow, hg, hf, State.arriveNow_ok ha, finish, bind, Except.bind]

theorem State.runNow_false {s : State} {o : OpInfo} {f : State → Res} (hg : s.guard0 o = false) (ha : s.arrivalOk o.arr) :
    s.runNow o f = .next (s.arrival o.arr) := by
  simp [State.runNow, hg, State.arriveNow_ok ha, finish, bind, Except.bind]

theorem State.runNow_trap {s : State} {o : OpInfo} {f : State → Res} {x : TrapInfo} (hg : s.guard0 o = true) (hf : f s = .error x) :
    s.runNow o f = .next ((s.redo (x.did.drop s.issue.did.length)).takeTrap { x with slot := BitVec.ofNat 4 (slotNum o.slot) }) := by
  simp [State.runNow, hg, hf, finish, bind, Except.bind]

theorem State.runEach_ok {s t : State} {o : OpInfo} {f : State → Res} (hf : f s = .ok t) (ha : t.arrivalOk o.arr) :
    s.runEach o f = .next (t.arrival o.arr) := by
  simp [State.runEach, hf, State.arriveNow_ok ha, finish, bind, Except.bind]

theorem State.vec_live {s t : State} {o : OpInfo} {f : State → Res} (hg : s.anyGuard o = true) (hf : f s = .ok t) (ha : t.arrivalOk o.arr) :
    s.vec o f = .next (t.arrival o.arr) := State.runEach_ok (by simp [hg, hf]) ha

theorem State.vec_idle {s : State} {o : OpInfo} {f : State → Res} (hg : s.anyGuard o = false) (ha : s.arrivalOk o.arr) :
    s.vec o f = .next (s.arrival o.arr) := State.runEach_ok (by simp [hg]) ha

theorem State.runLate_true {s t : State} {o : OpInfo} {f : State → Res} (hg : s.guard0 o = true) (ha : s.arrivalOk o.arr) (hf : f s = .ok t) :
    s.runLate o f = .next t := by
  simp [State.runLate, hg, State.arriveCheck_ok ha, hf, finish, bind, Except.bind]

theorem State.runLate_false {s : State} {o : OpInfo} {f : State → Res} (hg : s.guard0 o = false) (ha : s.arrivalOk o.arr) :
    s.runLate o f = .next (s.arrival o.arr) := by
  simp [State.runLate, hg, State.arriveNow_ok ha, finish]

/-! A change of the core at issue that leaves chunk and release buffer alone keeps an arrival possible. -/

theorem State.arrivalOk_modCur {s : State} {a : Option Arrival} (h : s.arrivalOk a) (f : Core → Core) (hc : (f s.cur).chunk = s.cur.chunk)
    (hr : (f s.cur).relCount = s.cur.relCount) : (s.modCur f).arrivalOk a :=
  State.arrivalOk_of h rfl rfl (by simp [hc]) (by simp [hr])

theorem State.arrivalOk_setCore {s : State} {a : Option Arrival} (h : s.arrivalOk a) (k : Core) (hc : k.chunk = s.cur.chunk)
    (hr : k.relCount = s.cur.relCount) : (s.setCore s.issue.core k).arrivalOk a :=
  State.arrivalOk_of h rfl rfl (by simp [hc]) (by simp [hr])

theorem State.arrivalOk_land {s : State} {a : Option Arrival} (h : s.arrivalOk a) (u : LatUnit) (d : Dest) (v m : Vec) : (s.land u d v m).arrivalOk a :=
  State.arrivalOk_modCur h _ rfl rfl

theorem State.arrivalOk_landP {s : State} {a : Option Arrival} (h : s.arrivalOk a) (u : LatUnit) (d : BitVec 4) (v m : Word) : (s.landP u d v m).arrivalOk a := by
  unfold State.landP
  split
  · exact h
  · exact State.arrivalOk_land h ..

theorem State.arrivalOk_landG {s : State} {a : Option Arrival} (h : s.arrivalOk a) (sl : Slot) (d : BitVec 5) (v : Word) : (s.landG sl d v).arrivalOk a := by
  unfold State.landG
  split
  · exact State.arrivalOk_modCur h _ rfl rfl
  · split <;> exact State.arrivalOk_land h ..

theorem State.arrivalOk_landRange {s : State} {a : Option Arrival} (h : s.arrivalOk a) (u : LatUnit) (o : OpInfo) (d : BitVec 5) (e lo n : Nat) (v : Vec) :
    (s.landRange u o d e lo n v).arrivalOk a := by
  unfold State.landRange
  dsimp only
  split
  · exact h
  · exact State.arrivalOk_land h ..

theorem State.arrivalOk_hold {s : State} {a : Option Arrival} (h : s.arrivalOk a) (k : Hold) : (s.hold k).arrivalOk a := by
  unfold State.hold
  split <;> exact State.arrivalOk_modCur h _ rfl rfl

theorem State.arrivalOk_issue {s : State} {a : Option Arrival} (h : s.arrivalOk a) (i : Issue) (hc : i.core = s.issue.core) :
    ({ s with issue := i } : State).arrivalOk a :=
  State.arrivalOk_of h hc rfl (by simp [State.cur, hc, State.core]) (by simp [State.cur, hc, State.core])

theorem State.arrivalOk_jump {s : State} {a : Option Arrival} (h : s.arrivalOk a) (t : Word) (l : Bool) : (s.jump t l).arrivalOk a :=
  State.arrivalOk_issue h _ rfl

end Sys2Proof.Machine
end

