-- ==== Sys2Proof/Laws/Rows.lean ====
section
/-! SUPPORT. A slot word that decodes runs as exec of the instruction it decodes to. -/
namespace Sys2Proof.Machine
open Sys2Proof

theorem rowRun_eq_exec (r : Row) (o : OpInfo) (ex : Bool) (b : BitVec 20) (p : BitVec 24) (s : State) :
    rowRun r o ex b p s = exec (r.instr o ex b p) s := by
  cases r <;> rfl

theorem SlotOp.run_eq_exec (q : SlotOp) (s : State) : q.run s = exec (q.row.instr q.o q.ex q.b q.p) s := rowRun_eq_exec ..

end Sys2Proof.Machine
end

