-- ==== Sys2Proof/Laws/Vectors.lean ====
section
/-! SUPPORT. Elements of vectors: of one built element by element, of a blend under a mask of whole elements. -/
namespace Sys2Proof.Machine
open Sys2Proof

/-- Fields of e bits laid side by side. -/
def layN (e : Nat) (g : Nat → Nat) (n : Nat) : Nat := (List.range n).foldl (fun t j => t + g j * 2 ^ (e * j)) 0

theorem layN_succ (e : Nat) (g : Nat → Nat) (n : Nat) : layN e g (n + 1) = layN e g n + g n * 2 ^ (e * n) := by
  simp [layN, List.range_succ]

theorem layN_lt {e : Nat} {g : Nat → Nat} (hg : ∀ j, g j < 2 ^ e) (n : Nat) : layN e g n < 2 ^ (e * n) := by
  induction n with
  | zero => simp [layN]
  | succ n ih =>
    rw [layN_succ, Nat.mul_succ, Nat.pow_add]
    have := hg n
    calc layN e g n + g n * 2 ^ (e * n) < 2 ^ (e * n) + g n * 2 ^ (e * n) := by omega
      _ = (g n + 1) * 2 ^ (e * n) := by ring
      _ ≤ 2 ^ e * 2 ^ (e * n) := Nat.mul_le_mul_right _ this
      _ = 2 ^ (e * n) * 2 ^ e := Nat.mul_comm ..

theorem layN_get {e : Nat} {g : Nat → Nat} (hg : ∀ j, g j < 2 ^ e) {n j : Nat} (hj : j < n) : layN e g n / 2 ^ (e * j) % 2 ^ e = g j := by
  induction n with
  | zero => omega
  | succ n ih =>
    rw [layN_succ]
    by_cases h : j = n
    · subst h
      rw [Nat.add_mul_div_right _ _ (Nat.pos_of_ne_zero (by simp)), Nat.div_eq_of_lt (layN_lt hg j), Nat.zero_add, Nat.mod_eq_of_lt (hg j)]
    · have hjn : j < n := by omega
      obtain ⟨k, rfl⟩ : ∃ k, n = j + 1 + k := ⟨n - (j + 1), by omega⟩
      have e1 : g (j + 1 + k) * 2 ^ (e * (j + 1 + k)) = (g (j + 1 + k) * 2 ^ (e * k) * 2 ^ e) * 2 ^ (e * j) := by
        rw [Nat.mul_add, Nat.mul_succ, Nat.pow_add, Nat.pow_add]; ring
      rw [e1, Nat.add_mul_div_right _ _ (Nat.pos_of_ne_zero (by simp)), Nat.add_mul_mod_self_right, ih hjn]

theorem elem_lt (e : Nat) (v : Vec) (j : Nat) : elem e v j < 2 ^ e := Nat.mod_lt _ (Nat.pos_of_ne_zero (by simp))

theorem elem_mapV {e : Nat} (f : Nat → Nat) {j : Nat} (hj : j < 1024 / e) : elem e (mapV e f) j = f j % 2 ^ e := by
  have hg : ∀ j, (fun j => f j % 2 ^ e) j < 2 ^ e := fun j => Nat.mod_lt _ (Nat.pos_of_ne_zero (by simp))
  have hl : layN e (fun j => f j % 2 ^ e) (1024 / e) < 2 ^ 1024 :=
    lt_of_lt_of_le (layN_lt hg _) (Nat.pow_le_pow_right (by decide) (Nat.mul_div_le 1024 e))
  have hm : mapV e f = BitVec.ofNat 1024 (layN e (fun j => f j % 2 ^ e) (1024 / e)) := rfl
  rw [elem, hm, BitVec.toNat_ofNat, Nat.mod_eq_of_lt hl]
  exact layN_get hg hj

end Sys2Proof.Machine
end

