-- ==== Sys2Proof/Tests/Slice0.lean ====
section
/-! SUPPORT. Tests: ill-formed terms, words that the specification writes out, single operations, and a witness for the hypotheses of each
statement. -/
namespace Sys2Proof.Tests
set_option Elab.async false
open Sys2Proof Sys2Proof.Machine

/-- An operation of a slot, without guard and arrival. -/
def op (sl : Slot) : OpInfo := ⟨sl, 0, false, none⟩

/-! Well-formedness: each list holds terms that one kind of check refuses. -/

theorem test_wf_guard : ∀ i ∈ ([.nop ⟨.s, 0, true, none⟩, .wait ⟨.y, 0, true, none⟩ ⟨0, 0⟩] : List Instr), WellFormed false i = false := by decide
theorem test_wf_service : ∀ i ∈ ([.nop ⟨.s, 1, false, none⟩, .nop ⟨.s, 0, false, some (.flag 0)⟩, .add (op .s) ⟨8, 0, 0⟩, .add (op .x) ⟨0, 8, 0⟩,
    .ld (op .s) ⟨0, 0, 0, 0, 0, 0, 0, 1, 0, 0⟩, .atomAdd (op .s) ⟨0, 0, 0, 0, 0, 1, 0⟩, .atomBfi (op .s) ⟨0, 0, 0, 0, 1, 0⟩,
    .atomPlset (op .s) ⟨0, 0, 0, 0, 1, 0, 0⟩, .cadv (op .x) ⟨0, 0, 0, 0, 1, 0⟩, .rpostPred (op .y) ⟨0, 1, 0⟩] : List Instr), WellFormed true i = false := by decide
theorem test_wf_slot : ∀ i ∈ ([.add (op .y) ⟨0, 0, 0⟩, .br (op .x) ⟨0⟩, .cadv (op .s) ⟨0, 0, 0, 0, 0, 0⟩, .vadd (op .m) ⟨0, 0, 0, 0⟩,
    .mswap (op .k), .kmov (op .m) ⟨0, 0⟩, .cpy (op .y) ⟨0, 0, 0, 0⟩, .wait (op .f) ⟨0, 0⟩, .fork (op .y) ⟨0, 0, 0, 0⟩] : List Instr),
    WellFormed false i = false := by decide
theorem test_wf_registers : ∀ i ∈ ([.add (op .x) ⟨16, 0, 0⟩, .movr (op .x) ⟨0, 16⟩, .addImm (op .x) ⟨0, 31, 0⟩, .shlImm (op .x) ⟨16, 0, 0⟩,
    .mov (op .x) ⟨16, 0⟩, .xfr (op .s) ⟨.s, .x, 16, 0, 0⟩, .xfr (op .s) ⟨.p, .s, 0, 16, 0⟩, .chk (op .y) ⟨.k, 16, .v, 0⟩] : List Instr),
    WellFormed false i = false := by decide
theorem test_wf_selectors : ∀ i ∈ ([.cmp (op .s) ⟨0, 12, 0, 0⟩, .cmpImm (op .s) ⟨0, 15, 0, 0⟩, .ldsp (op .s) ⟨0, 0, 0, 0, 3, 0, 0, 0⟩,
    .ldsp (op .s) ⟨0, 0, 0, 1, 0, 3, 0, 0⟩, .stsp (op .s) ⟨0, 0, 0, 3, 0, 0, 0⟩, .ld (op .s) ⟨0, 0, 0, 1, 0, 3, 0, 0, 0, 0⟩,
    .pref (op .s) ⟨0, 2, 0, 0⟩, .aqp (op .x) ⟨0, 6, 0, 0, 0, 0⟩, .aqpIdx (op .x) ⟨0, 0, 7, 0, 0, 0, 0⟩, .aqps (op .x) ⟨0, 0, 0, 6, 0, 0, 0, 0⟩,
    .vcmp (op .v0) ⟨0, 12, 0, 0, 0⟩, .vfcmp (op .v0) ⟨0, 8, 0, 0, 0⟩, .vldsp (op .v0) ⟨0, 0, 0, 0, 0, 3, 0, 0⟩, .vld (op .v0) ⟨0, 0, 0, 0, 0, 3, 0, 0, 0, 0⟩,
    .dqpop (op .v0) ⟨0, 6, 0, 0⟩, .mma (op .m) ⟨0, 0, 0, 0, 0⟩, .mmas (op .m) ⟨0, 0, 0, 0, 0, 0⟩, .mzacc (op .m) ⟨0, 0, 0, 0⟩,
    .mcv (op .m) ⟨0, 0, 0, 0, 0⟩, .kld (op .k) ⟨0, 0, 0, 3, 0, 0⟩, .xfr (op .s) ⟨.v, .v, 0, 0, 0⟩, .chk (op .y) ⟨.s, 0, .v, 0⟩] : List Instr),
    WellFormed false i = false := by decide
theorem test_wf_reserved : ∀ i ∈ ([.ldsp (op .s) ⟨0, 0, 1, 0, 0, 0, 0, 0⟩, .st (op .s) ⟨0, 1, 0, 2, 0, 0, 0⟩, .vfadd (op .v0) ⟨0, 0, 0, 1, 0, 0, 9⟩,
    .vfsqrt (op .v0) ⟨0, 0, 1, 0, 0, 9⟩, .vcvt (op .v0) ⟨0, 0, 0, 1, 0, 0, 9, 9⟩, .vqntE4m3 (op .v0) ⟨0, 0, 0, 0, 1, 0, 0, 9⟩,
    .vdqnt (op .v0) ⟨0, 0, 0, 0, 1, 0, 0, 9, 4⟩, .vrfadd (op .v0) ⟨0, 0, 1, 0, 9⟩, .vst (op .v0) ⟨0, 0, 1, 0, 0, 0, 0, 0⟩,
    .mldb (op .m) ⟨0, 1, 0, 0⟩, .mdrain (op .m) ⟨0, 0, 0, 0, 1⟩, .stfl (op .c0) ⟨0, 1, 1, 0, 0⟩, .dld (op .c0) ⟨0, 1, 0, 0, 0, 0, 0⟩,
    .dst (op .c0) ⟨0, 0, 0, 1, 0, 0, 0⟩, .fence (op .y) ⟨0, 5, 0⟩, .fork (op .f) ⟨0, 1, 0, 0⟩, .fork (op .f) ⟨0, 16, 1, 0⟩,
    .fprobe (op .f) ⟨0, 0, 1, 0, 0⟩, .vtrd (op .v0) ⟨0, 20, 0, 0, 0⟩, .vtrdReg (op .v0) ⟨0, 31, 0, 0, 0⟩, .xfr (op .s) ⟨.s, .x, 0, 0, 1⟩] : List Instr),
    WellFormed false i = false := by decide
theorem test_wf_events : ∀ i ∈ ([.bundleIssue 264, .arrayPowerGate 264, .chunkStart 264, .copyComplete 264 0, .railOvercurrent 7, .phaseFail 7,
    .sliceRetireComplete 192, .registerWrite 4 0, .registerWrite (2 ^ 28) 0, .regionRegisterWrite 0xD004 0,
    .patrolScrub (.spWord 264 0 true), .patrolScrub (.spWord 0 131072 false), .patrolScrub (.kept 264)] : List Instr), WellFormed false i = false := by decide
theorem test_wf_legal : ∀ i ∈ ([.nop (op .s), .add (op .x) ⟨15, 15, 15⟩, .cmp (op .s) ⟨15, 11, 31, 31⟩, .vtrd (op .v1) ⟨31, 19, 3, 127, 3⟩, .fork (op .f) ⟨0, 15, 1, 0⟩,
    .phaseFail 6, .bundleIssue 263, .sliceRetireComplete 191, .patrolScrub (.spWord 263 131071 true), .patrolScrub (.kept 263)] : List Instr), WellFormed false i = true := by decide

/-! Words from the specification: the rule or the file that writes the word out stands beside it. -/

/-- The word and its extension decode to the instruction. -/
abbrev reads (iss : Issuer) (sl : Slot) (w ext : Word32) (i : Instr) : Prop := decodeSlot iss sl w ext = .ok i
-- R297
theorem test_decode_addImm : reads .cmp .s 0x84721788 0x82000004 (.addImm ⟨.s, 3, true, some (.flag 2)⟩ ⟨4, 5, 5000⟩) := by rfl
theorem test_decode_add : reads .cmp .x 0x02008860 0 (.add (op .x) ⟨1, 2, 3⟩) := by rfl
-- R326
theorem test_decode_loopi : reads .cmp .s 0x2E023004 0 (.loopi (op .s) ⟨1, 3, 4⟩) := by rfl
-- R349
theorem test_decode_fork : reads .cmp .f 0x02001801 0 (.fork (op .f) ⟨6, 0, 0, 1⟩) := by rfl
-- R354
theorem test_decode_vadd : reads .cmp .v0 0x820214C0 0x00000003 (.vadd (op .v0) ⟨4, 5, 6, 1⟩) := by rfl
-- R391
theorem test_decode_mmas : reads .cmp .m 0x08008C49 0 (.mmas (op .m) ⟨1, 3, 2, 2, 0, 1⟩) := by rfl
-- spec/23
theorem test_decode_pand : reads .cmp .s 0x1A0401A4 0 (.pand (op .s) ⟨4, 3, 9⟩) := by rfl
theorem test_decode_vupd : reads .cmp .v0 0xCA210C00 0x00000A00 (.vupd ⟨.v0, 1, false, none⟩ ⟨2, 3, 0, 5⟩) := by rfl
theorem test_decode_rdv : reads .cmp .y 0x0E600000 0 (.rdv ⟨.y, 3, false, none⟩ ⟨0⟩) := by rfl
-- spec/24
theorem test_decode_vext : reads .cmp .v1 0x98052922 0x00020003 (.vext (op .v1) ⟨10, 10, 9, 1, 1⟩) := by rfl
theorem test_decode_exit : reads .cmp .s 0x54000000 0 (.exit (op .s)) := by rfl
-- spec/25
theorem test_decode_ldsp : reads .cmp .s 0x40038411 0 (.ldsp (op .s) ⟨7, 1, 0, 1, 0, 1, 0, 0⟩) := by rfl
theorem test_decode_addOne : reads .cmp .x 0x04008401 0 (.addImm (op .x) ⟨1, 1, 1⟩) := by rfl
theorem test_decode_stsp : reads .cmp .s 0xC2050401 0x00000FFC (.stsp (op .s) ⟨10, 1, 0, 0, 1, 0, 0xFFC⟩) := by rfl
-- spec/26
theorem test_decode_chint : reads .cmp .c1 0x12000400 0 (.chint (op .c1) ⟨1, 0, 0, 0⟩) := by rfl
theorem test_decode_cpy : reads .cmp .c1 0x82700000 0x00020000 (.cpy ⟨.c1, 3, true, none⟩ ⟨0, 0, 1, 2⟩) := by rfl
theorem test_decode_fwait : reads .cmp .y 0x04000421 0 (.fwaitC (op .y) ⟨1, 1⟩) := by rfl
-- spec/27
theorem test_decode_vld : reads .cmp .v0 0xC442040D 0x00000040 (.vld ⟨.v0, 2, false, none⟩ ⟨4, 1, 0, 0, 3, 1, 0, 0, 2, 0x40⟩) := by rfl
theorem test_decode_waitline : reads .ctl .s 0x5001D2BF 0 (.waitline (op .s) ⟨3, 20, 21, 31, 0, 0, 0⟩) := by rfl
theorem test_decode_mtsrIo : reads .ctl .s 0xE2853000 0x0080FA00 (.mtsrIo ⟨.s, 4, false, none⟩ ⟨10, 12, 0xFA00⟩) := by rfl
theorem test_decode_mfsr : reads .cmp .s 0x60028040 0 (.mfsr (op .s) ⟨5, 0x40⟩) := by rfl
theorem test_decode_eret : reads .ctl .s 0x66000000 0 (.eret (op .s)) := by rfl
-- R309 with the form A of R300: OP 3 (kmov), D 3, A 5
theorem test_decode_kmov : reads .cmp .k 0x06019400 0 (.kmov (op .k) ⟨3, 5⟩) := by rfl
-- R303: an OP that the map does not list, a reserved field, a reserved guard
theorem test_decode_noOp : decodeSlot .cmp .y 0x7E000000 0 = .error 0x001 := by rfl
theorem test_decode_reservedBody : decodeSlot .cmp .s 0x00000001 0 = .error 0x002 := by rfl
theorem test_decode_sretOnMain : decodeSlot .cmp .s 0x68000000 0 = .error 0x001 := by rfl
-- R297: the header 0xC0350200 of the example
theorem test_header : (Header.ofWord 0xC0350200).len = 4 ∧ (Header.ofWord 0xC0350200).stop = true ∧ (Header.ofWord 0xC0350200).ck = true := by decide

/-! Witnesses: for each statement, states and operands that meet the hypotheses of its clauses. -/

/-- The state after reset, where core 0 is about to run an operation. -/
def s0 : State := State.reset
/-- Core 0 as given. -/
def on0 (c : Core) : State := State.reset.setCore 0 c
/-- A control core's main sequencer, whose addresses are physical. -/
def ctl : State := { State.reset with issue := { core := 256 } }
/-- The service sequencer of control core 256. -/
def svc : State := { State.reset with issue := { core := 256, svc := true } }
/-- Core 0 in context 0, about to fetch a bundle of one word at 4096. -/
def bundle (w ext : Nat) : State := State.reset.withFetchWord 64 (w + ext * 2 ^ 32)
/-- s1 holds v. -/
def s1Is (v : Word) : State := on0 { arch := { s := [(1, v)] } }

theorem witness_ScalarResults : s0.guard0 (op .s) = true ∧ s0.arrivalOk (some (.flag 2)) ∧ s0.guard0 ⟨.x, 0, false, none⟩ = true := ⟨rfl, trivial, rfl⟩
/-- A predicate that is true and one that is false, and the last condition code. -/
theorem witness_PredicateAndIndexResults : (s1Is 5).guard0 (op .x) = true ∧ (s1Is 5).gpr .s 1 = 5 ∧ (11 : BitVec 4).toNat < 12 ∧
    (s1Is 5).gpr .s 1 &&& (s1Is 5).gpr .s 0 = 0 ∧ (s1Is 5).gpr .s 1 ≠ (s1Is 5).gpr .s 0 ∧ (s1Is 5).arrivalOk none := ⟨rfl, rfl, by decide +kernel, by decide +kernel, by decide +kernel, trivial⟩
theorem witness_VectorIntegerAndPermuteResults : s0.anyGuard (op .v0) = true ∧ s0.arrivalOk none ∧ (2 : BitVec 2).toNat < 3 ∧
    (7 : BitVec 7).toNat < 8 * 2 ^ (0 : BitVec 2).toNat ∧ (127 : BitVec 7).toNat < 1024 / (8 * 2 ^ (0 : BitVec 2).toNat) ∧
    (16 : BitVec 7).toNat ≤ 1024 / (8 * 2 ^ (3 : BitVec 2).toNat) := ⟨rfl, trivial, by decide +kernel, by decide +kernel, by decide +kernel, by decide +kernel⟩
theorem witness_VectorReductionAndCompareResults : s0.anyGuard (op .v0) = true ∧ s0.arrivalOk none ∧ (11 : BitVec 4).toNat < 12 ∧
    (∀ j < 1024 / 64, (true = true ↔ elem 64 (s0.cur.rV 1) j &&& elem 64 (s0.cur.rV 2) j = 0)) ∧ (floatOf 10).isSome = true ∧ (floatOf 7).isSome = true :=
  ⟨rfl, trivial, by decide +kernel, by decide +kernel, rfl, rfl⟩
theorem witness_VectorFloatResults : s0.anyGuard (op .v1) = true ∧ s0.arrivalOk none ∧ (floatOf 10).isSome = true ∧ modeOf 5 = some .sr ∧
    (10 : BitVec 4).toNat ∈ [7, 8, 9, 10] ∧ (9 : BitVec 4).toNat ∈ [7, 8, 9] := ⟨rfl, trivial, rfl, rfl, by decide +kernel, by decide +kernel⟩
/-- Narrowing from FP64 into the last eighth, widening from the last eighth, blocks of FP32 into the last quarter. -/
theorem witness_VectorConversionResults : s0.anyGuard (op .v0) = true ∧ s0.guard0 (op .v0) = true ∧ s0.arrivalOk none ∧ modeOf 2 = some .rdn ∧
    fmtWidth 4 ≤ fmtWidth 10 ∧ (7 : BitVec 3).toNat < fmtWidth 10 / fmtWidth 4 ∧ fmtWidth 4 < fmtWidth 10 ∧ modeOf 0 = some .rne ∧ Mode.rne ∉ [Mode.rdn, .rup] ∧
    (7 : BitVec 3).toNat * (1024 / 32 / 32) + 1024 / 32 / 32 ≤ 128 / (4 * 4) ∧ (floatOf 9).map (·.w) = some 32 :=
  ⟨rfl, rfl, trivial, rfl, by decide +kernel, by decide +kernel, by decide +kernel, rfl, by decide +kernel, by decide +kernel, rfl⟩
theorem witness_ArithmeticResults : (0 < (3 : Nat)) ∧ 12 % 2 ^ 3 ≠ 0 ∧ 2 * (12 % 2 ^ 3) = 2 ^ 3 ∧ 16 % 2 ^ 3 = 0 ∧ s0.guardMask (op .v0) 64 16 ≠ 0 ∧
    s0.guardMask ⟨.v0, 1, false, none⟩ 64 16 = 0 ∧ s0.arrivalOk none := ⟨by decide +kernel, by decide +kernel, by decide +kernel, by decide +kernel, by decide +kernel, by decide +kernel, trivial⟩
theorem witness_RegisterCopyResults : s0.guard0 (op .s) = true ∧ s0.arrivalOk none ∧ RFile.p ∈ [RFile.s, .x, .p] ∧ RFile.k ∈ [RFile.v, .k] ∧
    (s0.cur.arch.kp.getD 15 0).getLsbD ((15 : BitVec 4).toNat / 4) = false ∧ s0.cur.arch.kp.getD 15 0 = 0 := ⟨rfl, trivial, by decide +kernel, by decide +kernel, rfl, rfl⟩
/-- A register target that is aligned and one that is not; a loop at level 5 with no level active; a body passed over. -/
theorem witness_TransferAndLoopResults : (s1Is 2).guard0 (op .s) = true ∧ (s1Is 2).arrivalOk none ∧ ((s1Is 2).gpr .s 23).toNat % 4 = 0 ∧
    ((s1Is 2).gpr .s 1).toNat % 4 ≠ 0 ∧ (5 : BitVec 3).toNat ≤ 5 ∧ (∀ k ≤ 5, (s0.cur.arch.loops.getD k {}).act ≠ true) ∧
    (∃ h t, ctl.fetchWord ctl.who 64 = (.ok h, t)) := ⟨rfl, trivial, by decide +kernel, by decide +kernel, by decide +kernel, by decide +kernel, _, _, rfl⟩
/-- The widest field, and a field that a register names: position 63, width 1. -/
theorem witness_FieldResults : (s1Is 127).guard0 (op .s) = true ∧ (s1Is 127).arrivalOk none ∧ 0 + 64 ≤ 64 ∧ ((s1Is 127).gpr .s 1).toNat % 64 = 63 ∧
    ((s1Is 127).gpr .s 1).toNat / 64 % 128 = 1 := ⟨rfl, trivial, by decide +kernel, by decide +kernel, by decide +kernel⟩
/-- TCFG with 64 rows of 64 columns of 32 bits; row 63 of a tile; row 0 of accumulator 3, whose shape is 1 by 1. -/
theorem witness_TileRegisterResults :
    let a := s1Is (8 + 63 * 16 + 63 * 1024)
    let v := (a.gpr .s 1).toNat
    let b := on0 { arch := { tcfg := [(2, BitVec.ofNat 32 v)] }, accs := [(3, { fmt := 1, rows := 1, cols := 1 })] }
    a.guard0 (op .s) = true ∧ a.arrivalOk none ∧ v % 16 ≠ 3 ∧ v % 16 < 11 ∧ (v / 16 % 64 + 1) * (v / 1024 % 64 + 1) * fmtWidth (v % 16) ≤ 131072 ∧
    a.cur.tileBlocked a.issue.since 2 true = false ∧ (a.cur.cowTile 2).toOption.isSome = true ∧
    b.anyGuard (op .v0) = true ∧ b.cur.tileBlocked b.issue.since 2 false = false ∧ 63 < (b.cur.rowShape 2).1 ∧ 0 * 128 < (b.cur.rowShape 2).2 ∧
    (b.cur.tile 2).poison = 0 ∧ 0 < (b.cur.rowShape 19).1 ∧ 0 * 128 < (b.cur.rowShape 19).2 := by
  refine ⟨rfl, trivial, ?_, ?_, ?_, ?_, ?_, rfl, ?_, ?_, ?_, rfl, ?_, ?_⟩ <;> decide +kernel
/-- The last word of the scratchpad, in a bank that the kernel has and in no stash window. -/
theorem witness_ScratchpadResults :
    let a : State := on0 { arch := { s := [(1, 0xFFFF8)] }, kernel := { bmask := 0xFFFF } }
    a.guard0 (op .s) = true ∧ a.arrivalOk none ∧ a.issue.svc = false ∧ (a.scalarAddr 0 3 1 0 0).toNat % 8 = 0 ∧ (a.scalarAddr 0 3 1 0 0).toNat < 2 ^ 20 ∧
    a.cur.kernel.bmask.getLsbD ((a.scalarAddr 0 3 1 0 0).toNat / 65536) = true ∧ (∀ k ∈ sectorsOf 0xFFFF8 8, a.cur.winOfSp (k * 32) = none ∧
      errIn a.cur.spErr k = false ∧ errIn a.cur.spCor k = false) ∧
    (a.stashTouch 0xFFFF8 8).toOption.isSome = true ∧ a.cur.spPoison.has (0xFFFF8 / 32) = false ∧ a.cur.winOfSp (0xFFFF8 / 32 * 32) = none ∧
    (a.cur.undoFor (0xFFFF8 / 32)).toOption.isSome = true ∧ a.activeBytes (op .v0) 8 32 ≠ 0 ∧ (a.vectorAddr 0 0 0 0).toNat % 32 = 0 ∧
    (a.spStore 0 5 1 false).toOption.isSome = true ∧ svc.issue.svc = true ∧ svc.guard0 (op .s) = true ∧ 256 ≤ svc.issue.core := by
  refine ⟨rfl, trivial, rfl, ?_, ?_, ?_, ?_, ?_, ?_, ?_, ?_, ?_, ?_, ?_, rfl, rfl, ?_⟩ <;> decide +kernel
/-- A computation that succeeds with a result of which p holds. -/
theorem ok_of {ε α : Type} {x : Except ε α} {p : α → Bool} (h : x.toOption.any p = true) : ∃ q, x = .ok q ∧ p q = true := by
  cases x with
  | error e => simp [Except.toOption] at h
  | ok a => exact ⟨a, rfl, by simpa [Except.toOption] using h⟩
/-- A load and a store of a control core, and of its service sequencer in context 0; a vector access with and without an active element. -/
theorem witness_GlobalAccessResults :
    ctl.guard0 (op .s) = true ∧ ctl.arrivalOk none ∧
    (∃ ps t t1 t2, ctl.xlateR .load (ctl.scalarAddr 0 3 0 0 0).toNat (2 ^ 3) = .ok (ps, t) ∧ ctl.issue.svc = false ∧ t.issue.svc = false ∧
      t.tokAdd 7 1 = .ok t1 ∧ t1.stashFor ps = .ok t2) ∧
    (∃ ps t t1 l t2, svc.xlateR .load 0 8 = .ok (ps, t) ∧ t.issue.svc = true ∧ t.stashFor ps = .ok t1 ∧
      t1.readPieces t1.who [] 2 true ps = ((0, l), t2)) ∧
    (∃ ps t t1, ctl.xlateR .store 0 8 = .ok (ps, t) ∧ t.storePieces ps 5 255 0 = .ok t1 ∧ t1.arrivalOk none) ∧
    (2 : BitVec 2).toNat < 3 ∧ ctl.activeBytes ⟨.v0, 1, false, none⟩ 8 128 = 0 ∧ ctl.activeBytes (op .v0) 8 128 ≠ 0 ∧
    ctl.activeBytes (op .v0) 8 128 = 0xFFFFFFFFFFFFFFFFFFFFFFFFFFFFFFFF ∧
    (∃ ps t t1 t2, ctl.xlateTouched .load 0 128 0xFFFFFFFFFFFFFFFFFFFFFFFFFFFFFFFF = .ok (ps, t) ∧ t.tokAdd 7 1 = .ok t1 ∧ t1.stashFor ps = .ok t2) ∧
    (∃ ps t t1, ctl.xlateTouched .store 0 128 0xFFFFFFFFFFFFFFFFFFFFFFFFFFFFFFFF = .ok (ps, t) ∧ t.storePieces ps 5 0xFFFFFFFFFFFFFFFFFFFFFFFFFFFFFFFF 0 = .ok t1) := by
  refine ⟨rfl, trivial, ⟨_, _, _, _, rfl, rfl, rfl, rfl, rfl⟩, ⟨_, _, _, _, _, rfl, rfl, rfl, rfl⟩, ⟨_, _, _, rfl, rfl, trivial⟩, ?_, ?_, ?_, ?_,
    ⟨_, _, _, _, rfl, rfl, rfl⟩, ⟨_, _, _, rfl, rfl⟩⟩ <;> decide +kernel
/-- A first run and a replay of an atomic add at address 0, and one of the service sequencer. -/
theorem witness_AtomicResults :
    ctl.guard0 (op .s) = true ∧ ctl.arrivalOk none ∧ (10 ≤ 10 → ctl.who.ctx < 64 → (ctl.ioGet (0xA800 + 8 * ctl.who.ctx)).getLsbD 0 = true) ∧
    (ctl.gpr .s 0 + 0).toNat % (64 / 8) = 0 ∧
    (∃ p ps t t1 bs t3, ctl.xlateR .atomic 0 (64 / 8) = .ok (p :: ps, t) ∧ t.cur.readReady t.seq 0 (p :: ps) = true ∧ t.issue.svc = false ∧
      t.meetsFlight t.issue.core true (p :: ps) = false ∧
      t.tokAdd 7 1 = .ok t1 ∧ t1.cur.seg.log[t1.cur.seg.logPos]? = none ∧ t1.cur.seg.log.length < 8 ∧
      ({ t1 with seq := t1.seq + 1 } : State).fetchData { agentOf 256 64 with id := 1000 } p.pa (64 / 8) p.key 2 = ((0, bs), t3)) ∧
    (∃ p ps t bs t3, svc.xlateR .atomic 0 (64 / 8) = .ok (p :: ps, t) ∧ t.cur.readReady t.seq 0 (p :: ps) = true ∧ t.issue.svc = true ∧
      t.fetchData { agentOf 256 64 with id := 1000 } p.pa (64 / 8) p.key 2 = ((0, bs), t3)) ∧
    (let e : Replay := ⟨0, true, 0, 7⟩
     let a : State := { State.reset.setCore 256 { seg := { log := [e] } } with issue := { core := 256 } }
     ∃ p ps t t1, a.xlateR .atomic 0 (64 / 8) = .ok (p :: ps, t) ∧ t.cur.readReady t.seq 0 (p :: ps) = true ∧
       t.meetsFlight t.issue.core true (p :: ps) = false ∧ t.tokAdd 7 1 = .ok t1 ∧ t1.cur.seg.log[t1.cur.seg.logPos]? = some e ∧
       e.addr.toNat = 0 ∧ e.w64 = decide (64 = 64) ∧ e.aop = 0) := by
  refine ⟨rfl, trivial, ?_, rfl, ⟨_, _, _, _, _, _, rfl, rfl, rfl, rfl, rfl, rfl, ?_, rfl⟩, ⟨_, _, _, _, _, rfl, rfl, rfl, rfl⟩,
    ⟨_, _, _, _, rfl, rfl, rfl, rfl, rfl, rfl, rfl, rfl⟩⟩ <;>
    decide +kernel
/-- Core 0 in context 0, whose addresses are mapped one to one, with region 0 for u32 counters at the line 0x100000. -/
def region : State :=
  let a := (State.reset.withFetchWord 64 0).ioSet 0xD000 0x100001
  { a.ioSet 0xD008 0x10 with issue := { core := 0 } }
theorem witness_MemoryUpdatesAreWithheld :
    (let p : Piece := ⟨0, 0, 8, 0, 64⟩
     ctl.issue.svc = false ∧ ctl.cur.winOfVa p.va = none ∧ ctl.linkCause p.pa = 0 ∧ ctl.cur.relCount < 512 ∧ 0 < p.n ∧ p.pa % 32 + p.n ≤ 32 ∧
       ∃ t, ctl.storePieces [p] 1 255 0 = .ok t) ∧
    ((∀ j < 32, (0xFFFFFFFF : BitVec 32).getLsbD j = (decide (j < 256 / 8) && ctl.guardE (op .v0) 8 j)) ∧ (0xFFFFFFFF : BitVec 32) ≠ 0 ∧
      (v64 (ctl.cur.rV 0) + BitVec.ofInt 64 (0 : BitVec 15).toInt).toNat % 32 = 0 ∧
      ∃ q qs t, ctl.xlateR .atomic 0 32 = .ok (q :: qs, t) ∧ t.linkCause q.pa = 0 ∧ t.cur.relCount < 512) ∧
    (region.guard0 (op .s) = true ∧ region.rgnV 0 = true ∧ region.rgnCtx 0 = region.who.ctx ∧ 0x100000 % opWidth (region.rgnOp 0) = 0 ∧
      region.rgnBase 0 ≤ 0x100000 ∧ 0x100000 < region.rgnBase 0 + 64 * region.rgnLines 0 ∧
      ∃ q qs t, region.xlateR .store 0x100000 4 = .ok (q :: qs, t) ∧ l2Cached q.pa = true ∧ t.linkCause q.pa = 0 ∧ t.cur.relCount < 512) ∧
    region.anyGuard (op .v0) = true ∧
    ∃ q : List (Nat × Nat × Nat) × State, ((List.range 32).filter fun j => region.guardE (op .v0) 32 j).foldl (fun (q : Except TrapInfo (List (Nat × Nat × Nat) × State)) j =>
        q.bind fun (l, x) => (x.pairCheck 0 (x.rgnBase 0 + elem 32 (region.cur.rV 0) j * 4)).map fun (pa, x) => (l ++ [(j, pa)], x)) (.ok ([], region)) =
      .ok q ∧ decide (q.2.cur.relCount + q.1.length ≤ 512) = true := by
  refine ⟨⟨rfl, rfl, ?_, ?_, ?_, ?_, _, rfl⟩, ⟨?_, ?_, ?_, _, _, _, rfl, ?_, ?_⟩, ⟨?_, ?_, ?_, ?_, ?_, ?_, _, _, _, rfl, ?_, ?_, ?_⟩, ?_, ok_of ?_⟩ <;>
    decide +kernel
/-- A push of one address and of a run of none; a pop of one entry that holds its data. -/
theorem witness_QueueResults :
    ctl.guard0 (op .x) = true ∧ ctl.arrivalOk none ∧ (ctl.cur.rX 0).toNat ≤ 64 ∧
    (∃ ps t t1 t2, (do raiseAt (0 % 2 ^ 3 != 0) 0x082#10 0; ctl.xlateR .load 0 (2 ^ 3)) = .ok (ps, t) ∧ t.cur.seg.q + 1 ≤ 64 ∧
      t.tokAdd 7 1 = .ok t1 ∧ t1.stashFor ps = .ok t2) ∧
    (∃ t1, ctl.tokAdd 7 0 = .ok t1 ∧ t1.arrivalOk none) ∧
    (let a := on0 { dq := [⟨0, 7, 5, [], 0, 0, some 1, 0, 2, (0, 0)⟩], seg := { q := 1 } }
     1 ≤ a.cur.dq.length ∧ (∀ e ∈ a.cur.dq.take 1, e.data.isSome = true ∧ e.z = 5 ∧ e.cause = 0) ∧ (3 + 1) * 2 ^ 5 ≤ 128 ∧ 1 ≤ a.cur.seg.q) := by
  refine ⟨rfl, trivial, ?_, ⟨_, _, _, _, rfl, ?_, rfl, rfl⟩, ⟨_, rfl, trivial⟩, ?_, ?_, ?_, ?_⟩ <;> decide +kernel
/-- A line that L2 can hold, one that it cannot, one that is not mapped; the expander up and not isolated. -/
theorem witness_HintResults :
    ctl.guard0 (op .s) = true ∧ ctl.arrivalOk none ∧ (∃ x t, ctl.xlatePage ctl.who .load (2 ^ 52) = (.error x, t)) ∧ (ctl.cur.winOfVa 0).isSome = false ∧
    (∃ pa key t, ctl.xlatePage ctl.who .load 0 = (.ok (pa, key), t) ∧ l2Cached pa = true ∧ t.linkCause pa = 0 ∧ (t.l2Read pa 64 t.who.ctx key 2).arrivalOk none) ∧
    (∃ pa key t, ctl.xlatePage ctl.who .load 0xC000000000000 = (.ok (pa, key), t) ∧ l2Cached pa = false) ∧
    (let t := ctl.ioSet 0x0508 2
     t.iso = false ∧ (t.ioGet 0x0508).getLsbD 1 = true) ∧ (ctl.ioGet 0x0508).getLsbD 1 = false := by
  refine ⟨rfl, trivial, ⟨_, _, rfl⟩, rfl, ⟨_, _, _, rfl, ?_, ?_, trivial⟩, ⟨_, _, _, rfl, ?_⟩, ⟨?_, ?_⟩, ?_⟩ <;> decide +kernel
theorem witness_ScaleSlotResults :
    let a : State := on0 { kernel := { bmask := 1 } }
    a.anyGuard (op .k) = true ∧ a.arrivalOk none ∧ (2 : BitVec 2).toNat < 3 ∧ (0 : BitVec 2).toNat + 2 ^ (2 : BitVec 2).toNat ≤ 4 ∧
    ((a.cur.rK 0).setWidth 64 + BitVec.ofInt 64 (0 : BitVec 15).toInt).toNat % 32 = 0 ∧
    (∀ i < 4, (0 + 32 * i) % 2 ^ 64 < 2 ^ 20 ∧ a.cur.kernel.bmask.getLsbD ((0 + 32 * i) % 2 ^ 64 / 65536) = true) ∧
    (∃ t, (a.stashTouch 0 32) = .ok t ∧ t.issue.core = a.issue.core ∧ t.cur.arch = a.cur.arch) ∧ (a.spStore 0 1 1 true).toOption.isSome = true ∧
    (∀ i < 1024, (BitVec.allOnes 1024).getLsbD i = (decide (0 ≤ i % 16) && a.guardE (op .k) 16 (i / 16))) := by
  refine ⟨rfl, trivial, ?_, ?_, ?_, ?_, ⟨_, rfl, rfl, rfl⟩, ?_, ?_⟩ <;> decide +kernel
/-- A core whose array is on: tile 0 holds 64 by 64 INT8, tile 1 32 by 32 of E2M1S, accumulator 0 INT32 of 64 by 64. -/
def matrix : State := on0 { arrayOn := true, arch := { tcfg := [(0, 0xFFF0#32), (1, 0x7DF6#32)] }, accs := [(0, { fmt := 1, rows := 64, cols := 64 })] }
theorem witness_MatrixIssueResults :
    let c := matrix.cur
    matrix.guard0 (op .m) = true ∧ matrix.arrivalOk none ∧ c.arrayOn = true ∧ ((c.tcfg 1).toNat % 16 = 6 → (1 : BitVec 1) = 1) ∧
    ((c.tcfg 0).toNat / 1024 % 64 + 1) * digitsOf ((c.tcfg 0).toNat % 16) false ≤ 64 ∧
    c.mBlocked matrix.issue.since (.mldb 0 false false true 6 64 64 0 0 0) = false ∧
    (false = c.b0.ww ∧ passRow ((c.tcfg 0).toNat % 16) (c.bankOf c.arch.bank).fmt.toNat 1 = true ∧ (c.acc 0).fmt = 1 ∧
      (c.acc 0).rows = (c.tcfg 0).toNat / 16 % 64 + 1 ∧ (c.acc 0).cols = (c.bankOf c.arch.bank).n ∧ (c.cowAcc 0).toOption.isSome = true) ∧
    (63 + 1) * (63 + 1) * accWidth 1 ≤ 16384 ∧ (c.cowFor (.zacc 0 1 64 64)).toOption.isSome = true ∧
    (modeOf 5 = some .sr ∧ (c.acc 0).fmt ≠ 0 ∧ (c.tcfg 0).toNat % 16 ≠ 6 ∧ (c.cowTile 0).toOption.isSome = true) ∧
    ((c.tcfg 0).toNat / 16 % 64 + 1) * ((c.tcfg 0).toNat / 1024 % 64 + 1) * fmtWidth ((c.tcfg 0).toNat % 16) ≤ 131072 ∧
    (255 : BitVec 24).toNat < 2 ^ Min.min (fmtWidth ((c.tcfg 0).toNat % 16)) 16 ∧ (c.cowFor (.tcpy 2 0)).toOption.isSome = true := by
  refine ⟨rfl, trivial, rfl, fun _ => rfl, ?_, ?_, ⟨rfl, ?_, ?_, ?_, ?_, ?_⟩, ?_, ?_, ⟨rfl, ?_, ?_, ?_⟩, ?_, ?_, ?_⟩ <;> decide +kernel
/-- A block of zeros: every square and correction is 0. -/
theorem witness_SquaresGiveProducts :
    let d : Drain := ⟨0, 1, 1, 32, [], {}, {}, {}, 0, 0, false, 0, 0⟩
    (∀ l < d.la, bits d.side.sq.toNat (8 * (1024 * l + 16 * 0 + 8 * 0)) 64 = 0) ∧ (∀ g < d.db, d.bank.cAt (0 * d.db + g) 0 = 0) ∧
    (∀ k < 32, (((d.alpha.getD 0 []).getD 0 []).getD k []).getD 0 0 = 0) ∧ (∀ k < 32, d.bank.beta d.db (32 * 0 + k) (0 * d.db + 0) = 0) := by decide +kernel
/-- One byte from one space to another: space, address, dimensions. -/
def desc (ssp saddr dsp daddr nd : Nat) : Desc512 :=
  BitVec.ofNat 512 (saddr + ssp * 2 ^ 52 + nd * 2 ^ 59 + (daddr + dsp * 2 ^ 52) * 2 ^ 64)
/-- Core 0 with the scratchpad, and three descriptors: within the scratchpad, scratchpad to memory, a gather. -/
def copier : State := on0 { arch := { d := [(0, desc 1 0 1 64 1), (1, desc 1 0 0 0 1), (2, desc 0 0 1 64 2)] }, kernel := { bmask := 0xFFFF } }
theorem witness_CopyCommandResults :
    let c := copier.cur
    let k (d : Nat) (kind : CmdKind) (def' : Bool) : Cmd := { seq := 0, eng := 1, tok := 7, cls := 0, u := 2, kind, desc := c.rD d, index := [0], deferred := def' }
    copier.guard0 (op .c1) = true ∧ copier.arrivalOk none ∧ c.engineLoad 1 < 16 ∧ (c.cowTile 0).toOption.isSome = true ∧ (c.release (.cmd 0)).toOption.isSome = true ∧
    (c.undoForAll [64]).toOption.isSome = true ∧ (copier.tokAdd 7 1).toOption.isSome = true ∧
    (c.descBad (k 0 .cpy false) [0, 1, 3] [0, 1, 2, 3] false = false ∧ c.descBad (k 1 .cpy true) [0, 1, 3] [0, 1, 2, 3] false = false ∧
      c.descBad (k 2 .gath false) [0] [0, 1, 3] true = false) ∧
    (dWord (c.rD 3) 0).toNat % 2 ^ 52 < 2 ^ 20 ∧ (c.sideCheck (isCtl copier.issue.core) 1 [0] 4).toOption.isSome = true ∧
    (c.sideCheck (isCtl copier.issue.core) 1 (k 0 .cpy false).sources 1).toOption.isSome = true ∧ (c.sideCheck (isCtl copier.issue.core) 1 (k 0 .cpy false).dests 1).toOption.isSome = true ∧
    ((c.release (.late 0 true)).toOption.isSome = true ∧ (∀ x ∈ c.cmds, x.seq ≠ 0) ∧ (k 0 .cpy false).words = 0 ∧
      { c with cmds := [k 2 .cpy false] }.startElems (k 2 .cpy false) = none ∧
      (match copier.enterCmd (op .c1) (k 0 .cpy false) 0 none [64] with | .ok u => u.cur.cmds.all fun x => x.bad != 0x1C3 | .error _ => false) = true) ∧ (copier.enterCmd (op .c1) (k 0 .cpy false) 0 none [64]).toOption.isSome = true ∧
    (copier.enterCmd (op .c1) (k 1 .cpy true) 0 none []).toOption.isSome = true ∧ (copier.imageCheck 0 true ((List.range 1024).map (32 * ·))).toOption.isSome = true ∧
    (copier.enterCmd (op .c1) (k 0 (.tsti 0 0 false true) false) 0 (some 0) [0]).toOption.isSome = true := by
  refine ⟨rfl, trivial, ?_, ?_, ?_, ?_, ?_, ⟨?_, ?_, ?_⟩, ?_, ?_, ?_, ?_, ⟨?_, ?_, ?_, ?_, ?_⟩, ?_, ?_, ?_, ?_⟩ <;> decide +kernel
/-- The last descriptor of the scratchpad, and its last word. -/
theorem witness_DescriptorMoveResults :
    let a : State := on0 { kernel := { bmask := 0xFFFF } }
    a.guard0 (op .c0) = true ∧ a.arrivalOk none ∧ 32 * (32766 : BitVec 15).toNat % 64 = 0 ∧ 32 * (32766 : BitVec 15).toNat < 2 ^ 20 ∧
    a.cur.kernel.bmask.getLsbD (32 * 32766 / 65536) = true ∧ (32 * 32767 + 8 * 3) % 8 = 0 ∧ 32 * 32767 + 8 * 3 < 2 ^ 20 ∧
    (a.stashTouch (32 * 32766) 32).toOption.isSome = true ∧ (∀ p ∈ a.cur.dmParts (32 * 32766) 64, a.cur.spPoison.has (p.2.1 / 32) = false) ∧
    (a.spStore 32766 1 255 false).toOption.isSome = true := by
  refine ⟨rfl, trivial, ?_, ?_, ?_, ?_, ?_, ?_, ?_, ?_⟩ <;> decide +kernel
/-- A shadowed buffer; a window over the whole scratchpad, first set and then cleared. -/
theorem witness_WindowResults :
    let w : Window := { gva := 0, spbase := 0, size := 16384, en := true }
    let a (wins : SMap Window) : State := { on0 { arch := { d := [(0, BitVec.ofNat 512 (16384 * 2 ^ 128))] }, kernel := { bmask := 0xFFFF, plan := [0x100000000] }, wins } with
                                            issue := { core := 0, ck := true } }
    (a []).guard0 (op .c0) = true ∧ (a []).arrivalOk none ∧ (a []).cur.kernel.plan[0]? = some 0x100000000 ∧ (0x100000000 : Word).getLsbD 32 = true ∧
    (a []).cur.withheld = [] ∧ (a []).issue.ck = true ∧ (dWord ((a []).cur.rD 0) 0).toNat % 2 ^ 52 % 64 = 0 ∧ (dWord ((a []).cur.rD 0) 2).toNat % 2 ^ 15 = 16384 ∧
    0 + 64 * 16384 ≤ 2 ^ 20 ∧ (∀ b < 16, (a []).cur.kernel.bmask.getLsbD b = true) ∧ ((a []).cur.wins.get? 7).getD {} ≠ w ∧
    ((a [(7, w)]).cur.wins.get? 7).getD {} = w ∧ ((a [(7, w)]).flushWindow 0 w true).1.1 = 0 ∧ ((a [(7, w)]).flushWindow 0 w true).2.arrivalOk none ∧ (dWord ((a []).cur.rD 1) 2).toNat % 2 ^ 15 = 0 := by
  refine ⟨rfl, trivial, rfl, ?_, ?_, ?_, ?_, ?_, ?_, ?_, ?_, ?_, ?_, trivial, ?_⟩ <;> decide +kernel
/-- Core 0 runs a gang member's chunk of context 0, which barrier 63 is granted to. -/
def member : State :=
  { (on0 { chunk := some { launch := 0, ctx := 0, prio := 0, lo := 0, hi := 1, next := 1, cur := 0, gang := true } }).ioSet 0x6200 0x8000000000000000 with issue := { core := 0, ck := true } }
theorem witness_WaitAndPostResults :
    member.guard0 (op .y) = true ∧ member.arrivalOk (some (.barrier 63)) ∧ (∀ k ∈ member.cur.cmds, k.deferred = true → k.released = false → k.tok ∉ [7]) ∧
    member.barGranted 63 = true ∧ member.cur.gangMember = true ∧ member.cur.relCount < 512 ∧ Rel.arrive 63 ∉ member.cur.seg.rel ∧ member.issue.ck = true ∧
    member.issue.svc = false ∧ (31 : BitVec 5) ≠ 0 ∧ (0 : BitVec 16) ≠ BitVec.allOnes _ ∧ member.cur.withheld = [] ∧ member.cur.seg.posts = [] ∧
    member.cur.busyBelow member.seq = false ∧ member.publishBelow member.issue.core member.seq = false ∧ member.issue.incs.getD 15 0 = 0 ∧
    (0 : Int) ≤ ((8 * 32 + 7 : Nat) : Int) ∧ ((8 * 32 + 7 : Nat) : Int) ≤ 263 ∧ svc.issue.svc = true ∧ (svc.deliverPost svc.who.ctx 263 15 1).arrivalOk none ∧
    (∃ k, (member.core 0).chunk = some k ∧ k.ctx = 0) := by
  refine ⟨rfl, ⟨?_, ?_, ?_⟩, ?_, ?_, ?_, ?_, ?_, ?_, ?_, ?_, ?_, ?_, ?_, ?_, ?_, ?_, ?_, ?_, ?_, trivial, _, rfl, rfl⟩ <;> decide +kernel
theorem witness_ForkAndCheckResults : s0.guard0 (op .f) = true ∧ s0.arrivalOk none ∧ s0.cur.readFile .v 1 = s0.cur.readFile .v 31 ∧
    (3 != s0.issue.core && (s0.core 3).chunk.isNone && (s0.core 3).queue.isEmpty && (s0.core 3).reserved.isNone) = true := ⟨rfl, trivial, rfl, rfl⟩
theorem witness_SystemRegisterResults : ctl.guard0 (op .s) = true ∧ ctl.arrivalOk none ∧ (ctl.sysReg 256 0x40).isSome = true ∧ (ctl.sysWrite 0x40 5).toOption.isSome = true ∧
    ctl.issue.svc = false ∧ ctl.supervisor = true ∧ 0x4008 % 8 = 0 ∧ (ioReg 0x4008).isSome = true ∧ ctl.unperformed ctl.issue.core = false := by
  refine ⟨rfl, trivial, ?_, ?_, ?_, ?_, ?_, ?_, ?_⟩ <;> decide +kernel
theorem witness_MaintenanceResults : s0.guard0 (op .s) = true ∧ s0.supervisor = false ∧ s0.arrivalOk none ∧ ctl.guard0 (op .s) = true ∧ ctl.supervisor = true ∧
    ctl.unperformed ctl.issue.core = false ∧ svc.issue.svc = true ∧
    (let a : State := { State.reset.setCore 256 { fscore := 263, atoms := [{ seq := 0, tok := 0, dst := 1, res := 5, cause := 0, pa := 0 }] } with
                        seq := 1, issue := { core := 256, since := some (1, 0) } }
     let b := a.setCore 263 { run := .parked }
     a.unperformed a.issue.core = true ∧ a.issue.since = some (1, 0) ∧ a.supervisor = true ∧ (ioReg 0xD000).isSome = true ∧ b.cur.fscore.toNat ≤ 263 ∧
       (b.core b.cur.fscore.toNat).run = .parked ∧ b.unperformed b.issue.core = true ∧ a.holdDone 256 false (.sys .icinv 1) = none) := by
  refine ⟨rfl, rfl, trivial, rfl, rfl, rfl, rfl, ?_, ?_, ?_, ?_, ?_, ?_, ?_, ?_⟩ <;> decide +kernel
theorem witness_ControlResults : ctl.guard0 (op .s) = true ∧ ctl.arrivalOk none ∧ ctl.supervisor = true ∧ (ctl.gpr .s 0).toNat % 128 = 0 ∧
    (∃ p ps t t1 c l t2, ctl.xlateR .load 0 8 = .ok (p :: ps, t) ∧ t.cur.watches.length < 8 ∧ t.cur.readsDone t.seq 3 (p :: ps) = true ∧
      t.meetsFlight t.issue.core false (p :: ps) = false ∧ t.tokAdd 7 1 = .ok t1 ∧
      t1.readPieces t1.who (t1.seenBy t1.issue.core t1.issue.relN) 2 false (p :: ps) = ((c, l), t2)) ∧
    (let a : State := { (ctl.setCore 263 { run := .parked }).setCore 256 { fscore := 263 } with issue := { core := 256 } }
     a.supervisor = true ∧ a.cur.fscore.toNat ≤ 263 ∧ (a.core a.cur.fscore.toNat).run = .parked ∧ a.unperformed a.issue.core = false ∧ (a.resumeCore 263).arrivalOk none) ∧
    svc.issue.svc = true := by
  refine ⟨rfl, trivial, rfl, rfl, ⟨_, _, _, _, _, _, _, rfl, ?_, rfl, rfl, rfl, rfl⟩, ⟨?_, ?_, ?_, ?_, trivial⟩, rfl⟩ <;> decide +kernel
/-- An image for stage 1 and the same in host memory: whether its signature holds is the package's own (Config.xmssVerify, no value in this
model), so that part is assumed. -/
theorem witness_ResetAndBootResults :
    let img (ok : Bool) : BootImage := ⟨bytesOf 4 0x49394C4F ++ [1, 0, 0, 0] ++ bytesOf 8 0 ++ shake256 [] 64 ++ List.replicate 2996 0, ok⟩
    let h (i n : Nat) : Nat := natOf (((img true).bytes.drop i).take n)
    let mail (n : Nat) : State := { s0.writePhys 0xC000000000040 ((img true).bytes.take 80) with
      pkg := { s0.pkg with stopped := true, mbox := { addr := 64, len := 3076, run := n } } }
    (s0.pkg.stopped = false ∧ s0.pkg.stage < 4 ∧ h 0 4 = 0x49394C4F ∧ h 4 1 = s0.pkg.stage + 1 ∧ h 5 1 ≤ 63 ∧ h 6 2 ≤ 1 ∧ h 8 8 ≤ 64 * 2 ^ 20 ∧
      h 0x50 176 = 0 ∧ (img true).bytes.length = 256 + h 8 8 + 2820 ∧ h 0x10 64 = natOf (shake256 (((img true).bytes.drop 256).take (h 8 8)) 64) ∧
      s0.pkg.svnMin.getD 1 0 ≤ h 5 1) ∧
    (img false).readOk ≠ true ∧
    ((mail 1).mailImage = img true ∧ (mail 1).pkg.stopped = true ∧ (mail 1).pkg.stage < 4 ∧ (mail 1).pkg.mbox.run = 1 ∧ (mail 2).pkg.mbox.run = 2 ∧
      { mail 2 with pkg := { (mail 2).pkg with mbox := { run := 2 } } }.mailImage.bytes = []) ∧
    (let p : State := { s0 with pkg := { s0.pkg with stage := 4, powered := 7 } }
     4 ≤ p.pkg.stage ∧ ∀ m < 3, p.pkg.powered.getLsbD m = true) := by
  refine ⟨⟨?_, ?_, ?_, ?_, ?_, ?_, ?_, ?_, ?_, ?_, ?_⟩, ?_, ⟨?_, ?_, ?_, ?_, ?_, ?_⟩, ?_, ?_⟩ <;> decide +kernel
theorem witness_KeyAndAttestationResults :
    let at' (used index : Nat) : State := { s0 with pkg := { s0.pkg with stage := 4, attUsed := used, attIndex := index } }
    let r := 0x2000 + 16 * 63
    (4 ≤ (at' 0 0).pkg.stage ∧ (at' 1023 0).pkg.attUsed < 1024 ∧ (at' 0 0).ioGet 0x0608 = 0 ∧ ((at' 0 0).ioSet 0x0608 1).ioGet 0x0608 ≠ 0 ∧
      1024 ≤ (at' 1024 0).pkg.attUsed ∧ (at' 1024 0).pkg.attIndex + 1 < 2 ^ 20 ∧ 2 ^ 20 ≤ (at' 1024 (2 ^ 20 - 1)).pkg.attIndex + 1 ∧ s0.pkg.stage < 4) ∧
    (s0.ioGet r).getLsbD 7 = false ∧ ((s0.ioSet r 0x80).ioGet r).getLsbD 7 = true ∧
    (let b : State := { s0 with pkg := { s0.pkg with keyOp := [(63, 1)] } }
     b.pkg.keyOp.get? 63 = some 1 ∧ b.keyInUse 63 = false) := by
  refine ⟨⟨?_, ?_, ?_, ?_, ?_, ?_, ?_, ?_⟩, ?_, ?_, ?_, ?_⟩ <;> decide +kernel
/-- A message that stops at each check, and one that passes them all: its MAC is that of its first bytes under the key. -/
theorem witness_ManagementResults :
    let ready := s0.ioSet 0x0600 1
    let locked := ready.ioSet 0x0718 1
    let key := (List.range 4).flatMap fun i => bytesOf 8 (locked.ioGet (0x0720 + 8 * i)).toNat
    let mac (m : Nat) := natOf (kmac256 key (bytesOf 16 m) [0x4F, 0x4C, 0x39, 0x20, 0x43, 0x41, 0x50])
    let signed (src : Nat) : Nat := src * 2 ^ 8 + mac (src * 2 ^ 8) * 2 ^ 128
    s0.ioBits 0x0600 0 1 = 0 ∧ ready.ioBits 0x0600 0 1 = 1 ∧ ready.ioBits 0x0718 0 1 = 0 ∧ locked.ioBits 0x0600 0 1 = 1 ∧ locked.ioBits 0x0718 0 1 = 1 ∧
    locked.pkg.capSeq = none ∧ (∀ src ∈ [1, 2], signed src < 2 ^ 384 ∧ bits (signed src) 8 8 = src ∧ bits (signed src) 64 64 ≤ 5 ∧
      bits (signed src) 128 256 = mac (signed src)) ∧ bits 0 128 256 ≠ mac 0 := by
  refine ⟨?_, ?_, ?_, ?_, ?_, rfl, ?_, ?_⟩ <;> decide +kernel
theorem witness_FatalAndDumpResults :
    let d : State := { s0 with pkg := { s0.pkg with dumping := true } }
    s0.fatal = 0 ∧ s0.ioBits 0x0808 0 1 = 0 ∧ d.pkg.dumping = true ∧ (s0.ioSet 0x0808 1).ioBits 0x0808 0 1 = 1 := by
  refine ⟨?_, ?_, ?_, ?_⟩ <;> decide +kernel
/-- A port that is enabled, one that is up; a failover (whether the other port reaches the node is the package's own: Config.portReaches). -/
theorem witness_PortResults :
    let r := s0.ioSet 0x0480 0x11
    (s0.ioGet 0x0480).getLsbD 0 = true ∧ (r.ioGet 0x0480).getLsbD 4 = true ∧
    (let a : State := { r with pkg := { r.pkg with portOf := [(16, 1)] } }
     a.pkg.portOf.get? ((1 : BitVec 12).toNat * 16 + (0 : BitVec 4).toNat) = some 1 ∧ a.portUp 1 = false ∧ a.cores = [] ∧ a.pkg.loose = []) := by
  refine ⟨?_, ?_, ?_, ?_, ?_, ?_⟩ <;> decide +kernel
/-- A computation that succeeds, with a result and a state of which p holds. -/
theorem ok_pair {ε α σ : Type} {x : Except ε α × σ} {p : α → σ → Bool} (h : (match x with | (.ok a, s) => p a s | _ => false) = true) :
    ∃ a s, x = (.ok a, s) ∧ p a s = true := by
  match x, h with
  | (.ok a, s), h => exact ⟨a, s, rfl, h⟩
/-- Core 0 in context 0 with its addresses mapped one to one: what reset leaves, with a program's page table. -/
def page : State := { State.reset.withFetchWord 64 0 with issue := { core := 0 } }
/-- A frame's window 0 over 64 KiB of context 0: the bytes up to its end; a put of 4 bytes there, one beyond it; a get; a window over tier 2,
whose link is down; answers to a command. -/
theorem witness_FrameResults :
    let on (base : Word) : State := ((page.ioSet 0x0480 0x11).ioSet 0x0C00 base).ioSet 0x0C08 1
    let a := on 7
    let f (e : BitVec 16) (d : OftBody) : OftFrame := ⟨e, 0x123, 0, 0, 3, 9, d⟩
    let put (n : Nat) := OftBody.put 0 65532 (List.replicate n 0) 0 2 true none
    let st := frameStream (f 0x88B5 (put 4))
    let wait (s : State) (d : OftBody) : State := { s with pkg := { s.pkg with oftAhead := s.pkg.oftAhead ++ [(0, f 0x88B5 d)] } }
    let u (s : State) (d : OftBody) : State := ({ s with pkg := { s.pkg with oftNext := s.pkg.oftNext.put 0 st 1 } } : State).settleIncs (f 0x88B5 d)
    let far := a.writePhys placedRoot (bytesOf 8 (0x3F + 2 ^ 51 + 2 ^ 56))
    let busy : State := { a with pkg := { a.pkg with keyOp := [(0, 1)] } }
    let write (s : State) (n : Nat) : Cause × Cause :=
      let r := s.window 0 65532 n 4 true
      (r.1.1, ((joinRuns (r.1.2.2.map fun p => (p.pa, p.key, ((withPoison (List.replicate n 0) 0).drop p.off).take p.n))).foldl (fun (q : Cause × State) x =>
        if q.1 ≠ 0 then q else q.2.engineStore ⟨1000, r.1.2.1, false⟩ x) (0, r.2)).1)
    let read (s : State) (off n : Nat) : Cause × Cause × Nat :=
      let r := s.window 0 off n 128 false
      let d := (r.1.2.2.foldl (fun (q : (Cause × List (Byte × Bool)) × State) p =>
        if q.1.1 ≠ 0 then q
        else
          let x := q.2.fetchData ⟨1000, r.1.2.1, false⟩ p.pa p.n p.key 2
          if x.1.2.isEmpty then ((x.1.1, q.1.2), x.2) else ((0, q.1.2 ++ x.1.2.map fun b => (b, x.1.1 != 0)), x.2)) ((0, []), r.2)).1
      (r.1.1, d.1, d.2.length)
    let k : Cmd := { seq := 9, eng := 0, tok := 0, cls := 3, u := 2, kind := .cnput, desc := desc 1 0 4 0 1, deferred := true, released := true, started := true, sent := true }
    let b := a.setCore 0 { cmds := [k, { k with kind := .cnget, cls := 4 }] }
    let n (l : List NetInc) (c : Core) : State := { on0 c with pkg := { s0.pkg with incs := l }, out := [(chOft, [1])] }
    let q : Chunk := { launch := 0, ctx := 5, prio := 0, lo := 0, hi := 1, next := 1, cur := 0, gang := false }
    let i : NetInc := ⟨5, 0, 15, 0, 0x123, 0, 3, 9⟩
    (a.portUp (0 : BitVec 3).toNat = true ∧ (f 0x88B6 (put 4)).etype.toNat ≠ a.ioBits 0x0410 0 16 ∧ (f 0x88B5 (put 4)).etype.toNat = a.ioBits 0x0410 0 16 ∧
      (List.replicate 4096 (0 : Byte)).length ≤ 4096 ∧ 4096 < (List.replicate 4097 (0 : Byte)).length) ∧
    ((f 0x88B5 (put 4)).num < ({ a.pkg with oftNext := [(st, 1)] } : Pkg).oftNext.getD st 0 ∧ (f 0x88B5 (put 4)).num = a.pkg.oftNext.getD st 0 ∧
      a.pkg.oftNext.getD st 0 < ({ f 0x88B5 (put 4) with num := 1 } : OftFrame).num ∧ a.pkg.oftAhead = [] ∧
      (wait busy (put 4)).frameHeld (f 0x88B5 (put 4)) = true ∧ (wait a (put 4)).frameHeld (f 0x88B5 (put 4)) = false ∧
      (wait a (.get 0 0 4097 7 true)).frameHeld (f 0x88B5 (.get 0 0 4097 7 true)) = false ∧ (u a (put 4)).pkg.oftFailed.get? st ≠ some 9 ∧
      (u { a with pkg := { a.pkg with oftFailed := [(st, 9)] } } (put 4)).pkg.oftFailed.get? st = some (f 0x88B5 (put 4)).cmd) ∧
    (((on 6).ioGet 0x0C00).getLsbD 0 = false ∧ ((on 1).ioGet 0x0C00).getLsbD 1 = false ∧ ((on 1).ioGet 0x0C00).getLsbD 2 = false ∧ (a.ioGet 0x0C00).getLsbD 0 = true ∧
      (a.ioGet 0x0C00).getLsbD 1 = true ∧ (a.ioGet 0x0C00).getLsbD 2 = true ∧ a.ioBits 0x0C08 0 32 * 65536 < 65533 + 4 ∧ 65532 + 4 ≤ a.ioBits 0x0C08 0 32 * 65536 ∧
      255 < (256 : BitVec 9).toNat) ∧
    (write (u a (put 4)) 4 = (0, 0) ∧ write (u a (put 4)) 8 = (0x281, 0) ∧ write (u far (put 4)) 4 = (0x242, 0) ∧ write (u { far.ioSet 0x0508 3 with expCap := 2 ^ 42 } (put 4)) 4 = (0, 0x243)) ∧
    (∃ e t, a.xlate ⟨1, false, 266⟩ .store 65532 4 = (.error e, t)) ∧ (∃ e t, a.xlate ⟨1, false, 266⟩ .load 65532 4 = (.error e, t)) ∧
    (read a 65532 4 = (0, 0, 4) ∧ read a 65408 129 = (0x281, 0, 128) ∧ read far 0 4 = (0x242, 0, 0) ∧ read a 0 4097 = (0, 0, 4097)) ∧
    (b.netCmd 0 3 0 9 = some k ∧ k.isPut = true ∧ (b.netCmd 0 4 0 9).map Cmd.isPut = some false ∧ b.netCmd 0 3 1 9 = none) ∧
    ((n [i] { chunk := some q }).pkg.incs[0]? = some i ∧ isCtl i.core = false ∧ i.ctx < 64 ∧ ((n [i] { chunk := some q }).core i.core).chunk = some q ∧
       q.ctx = i.ctx ∧ ((n [i] {}).core i.core).chunk = none ∧ ((n [i] {}).core i.core).resident = []) ∧
    ((n [i, i] {}).pkg.incs[1]? = some i ∧ i ∈ (n [i, i] {}).pkg.incs.take 1) ∧
    ((n [] {}).out[0]? = some (chOft, [1]) ∧ ((n [] {}).ioGet 0x0400).getLsbD 12 = false ∧ (((n [] {}).ioSet 0x0400 0x1000).ioGet 0x0400).getLsbD 12 = true) ∧
    (b.cores.flatMap fun q => (q.2.cmds.filter fun c => c.isNet && c.sent).map fun c => (q.1, c))[0]? = some (0, k) ∧
    ((n [] {}).cores.flatMap fun q => (q.2.cmds.filter fun c => c.isNet && c.sent).map fun c => (q.1, c))[0]? = none := by
  refine ⟨⟨?_, ?_, ?_, ?_, ?_⟩, ⟨?_, ?_, ?_, ?_, ?_, ?_, ?_, ?_, ?_⟩, ⟨?_, ?_, ?_, ?_, ?_, ?_, ?_, ?_, ?_⟩, ⟨?_, ?_, ?_, ?_⟩, ⟨_, _, rfl⟩, ⟨_, _, rfl⟩, ⟨?_, ?_, ?_, ?_⟩, ⟨?_, ?_, ?_, ?_⟩, ⟨?_, ?_, ?_, ?_, ?_, ?_, ?_⟩, ⟨?_, ?_⟩, ⟨?_, ?_, ?_⟩, ?_, ?_⟩ <;>
    decide +kernel
/-- The last line of HBM, in a region that the host may use and in one that it may not; a line of host memory and one of tier 2; an access of
each kind to host memory. -/
theorem witness_HostPortResults :
    let a : State := { s0 with pkg := { s0.pkg with hostUp := true } }
    let b := (a.ioSet (0x15000 + 8 * (0x5FFFFFFFC0 / 2 ^ 29)) 0x40).ioField 0x2000 6 1 1
    let d := a.ioField 0x0800 29 23 (0x5FFFFFFFC0 / 2 ^ 29)
    let f : Flight := ⟨0, 0, 0, .store 0xC000000000000 64 0 1 1, 0⟩
    let p : Piece := ⟨0, 0xC000000000000, 8, 0, 64⟩
    let l : PLoad := { seq := 0, tok := 0, dst := .s 1 3 false, pieces := [p], cls := 0, u := 2 }
    let w : Watch := { seq := 0, tok := 0, dst := 1, pa := p.pa, va := p.pa, asleep := true, cause := 0, tmo := 0 }
    let t : PAtom := { seq := 0, tok := 0, dst := 1, res := 5, cause := 0, pa := p.pa }
    let k : Cmd := { seq := 0, eng := 1, tok := 7, cls := 0, u := 2, kind := .cpy, desc := desc 0 p.pa 1 0 1, deferred := false, started := true }
    (a.pkg.hostUp = true ∧ tierOf 0x5FFFFFFFC0 = .hbm ∧ tierOf (0x5FFFFFFFC0 + 64 - 1) = .hbm ∧ a.hostSlot 0x5FFFFFFFC0 = none ∧ a.inDump 0x5FFFFFFFC0 = false ∧
      b.hostSlot 0x5FFFFFFFC0 = some 0 ∧ d.inDump 0x5FFFFFFFC0 = true ∧ b.pkg.keyOp.has 0 = false ∧ { b.pkg with keyOp := [(0, 1)] }.keyOp.has 0 = true ∧
      b.pkg.keyOp.has 64 = false ∧ tierOf 0x8000000000000 = .tier2 ∧ tierOf (0x8000000000000 + 64 - 1) = .tier2) ∧
    (let e : State := { a with flight := [f] }
     f.rel.piece = some (2 * (0xC000000000000 / 64)) ∧ e.flight[0]? = some f ∧ e.flightReady 0 = true ∧ s0.flight = []) ∧
    (tierOf (0x3000000000000 / 64 * 64 * 4) = .host ∧ (List.replicate 64 (0 : Byte)).length = 64 ∧ a.pkg.hostCache.length ≤ 4096) ∧
    (l.arr = none ∧ (match ((on0 { loads := [l], watches := [w], atoms := [t], cmds := [k] }).hostAccesses 0) with
      | .load l' :: .cmd k' :: .watch w' :: .atom t' :: [] => l' == l && k' == k && w' == w && t' == t | _ => false) = true) ∧
    ((s0.hostAccesses 263)[0]?.isNone = true ∧
      (let e : State := { State.reset.setCore 263 { hostSlow := true } with pkg := { s0.pkg with hostUp := true } }
       (e.core 263).hostSlow = true ∧ e.pkg.hostUp = true ∧ tierOf p.pa = .host)) ∧
    (16 : BitVec 5).toNat ∈ [16, 8, 4] ∧ (32 : BitVec 8).toNat ∈ [128, 64, 32] ∧ (s0.ioGet 0x1008).getLsbD 14 = false := by
  refine ⟨⟨?_, ?_, ?_, ?_, ?_, ?_, ?_, ?_, ?_, ?_, ?_, ?_⟩, ⟨?_, ?_, ?_, ?_⟩, ⟨?_, ?_, ?_⟩, ⟨rfl, ?_⟩, ⟨?_, ?_, ?_, ?_⟩, ?_, ?_, ?_⟩ <;> decide +kernel
theorem witness_ExpanderResults :
    let up := s0.ioSet 0x0508 2
    let iso := s0.ioSet 0x0508 3
    let on := s0.ioSet 0x0500 1
    let sweep : State := { s0 with pkg := { s0.pkg with sweep := true }, isoPoison := [(7, ())] }
    ((up.ioGet 0x0508).getLsbD 1 = true ∧ (up.ioGet 0x0508).getLsbD 0 = false ∧ (s0.ioGet 0x0508).getLsbD 0 = false ∧
      ((up.lineOf (0x8000000000000 / 64)).any fun q => q.2.valid.getLsbD 0) = false) ∧ ((iso.ioGet 0x0508).getLsbD 1 = true ∧ (iso.ioGet 0x0508).getLsbD 0 = true) ∧
    (sweep.pkg.sweep = true ∧ (sweep.isoPoison.map Prod.fst).Nodup) ∧ (s0.ioGet 0x0500).getLsbD 0 = false ∧ (on.ioGet 0x0500).getLsbD 0 = true ∧ (3 : BitVec 2) ≠ 0 ∧
    tierOf (0x8000000000000 / 64 * 64) = .tier2 ∧ up.pkg.sweep = false := by
  refine ⟨⟨?_, ?_, ?_, ?_⟩, ⟨?_, ?_⟩, ⟨?_, ?_⟩, ?_, ?_, ?_, ?_, ?_⟩ <;> decide +kernel
/-- A window that ends with nothing waiting, with a ceiling and with a request; the last rail over its limit; a phase that works; a sensor at
both sides of each limit. -/
theorem witness_PowerResults :
    let a (kept wait : Option (BitVec 3)) : Core := (on0 { opPwin := true, opReq := 3, opEff := 3, opKept := kept, opWait := wait }).core 0
    let b : State := { s0 with pkg := { s0.pkg with railOver := [(6, ())] } }
    let e := s0.ioSet 0x4070 0x200000000
    let v (temp : BitVec 8) : State := ({ s0.ioSet 0x4018 (100 + 110 * 65536) with pkg := { s0.pkg with dieTemp := [(3, temp)] } } : State).ioField 0x4018 24 8 temp.toNat
    (∀ q ∈ [(none, none), (none, some 2), (some 5, none)],
      let c := a q.1 q.2
      (c.opPwin || c.opHwin) = true ∧ c.opKept = q.1 ∧ c.opWait = q.2 ∧ c.opReq = c.opEff ∧ c.opReq.toNat ≤ c.opCeil.toNat) ∧
    ((2 : BitVec 3).toNat < (a (some 5) (some 2)).opEff.toNat ∧ (2 : BitVec 3).toNat ≤ ((a (some 5) (some 2)).opKept.getD (a (some 5) (some 2)).opReq).toNat ∧ (5 : BitVec 3).toNat ≤ (a none none).opCeil.toNat ∧ (5 : BitVec 3) ≠ (a none none).opEff) ∧
    (6 : BitVec 3).toNat < 7 ∧ b.pkg.railOver.has 6 = true ∧ s0.pkg.railOver.has 6 = false ∧ 0 < e.ioBits (0x4040 + 8 * 6) 32 8 ∧
    ((v 110).ioBits 0x4018 16 8 ≤ (110 : BitVec 8).toNat ∧ (101 : BitVec 8).toNat < (v 101).ioBits 0x4018 16 8 ∧ (v 101).ioBits 0x4018 0 8 < (101 : BitVec 8).toNat ∧
      (97 : BitVec 8).toNat + 3 ≤ (v 97).ioBits 0x4018 0 8 ∧ (100 : BitVec 8).toNat ≤ (v 100).ioBits 0x4018 0 8 ∧ (v 98).ioBits 0x4018 0 8 < (98 : BitVec 8).toNat + 3) ∧
    s0.partEn 7 = false ∧ (s0.ioSet 0x4100 1).partEn 0 = true := by
  refine ⟨?_, ⟨?_, ?_, ?_, ?_⟩, ?_, ?_, ?_, ?_, ⟨?_, ?_, ?_, ?_, ?_, ?_⟩, ?_, ?_⟩ <;> decide +kernel
/-- A launch of 2 by 3 tiles; a chunk at the head of a core's queue; a core that has finished, with a tail tile left and with none. -/
theorem witness_DistributorResults :
    let l : Launch := { id := 4, ctx := 0, kernel := { kinds := [1, 1], nlev := 2 }, bounds := [2, 3] }
    let k : Chunk := { launch := 4, ctx := 0, prio := 0, lo := 0, hi := 6, next := 0, cur := 0, gang := false }
    let a : State := { on0 { queue := [k] } with pkg := { s0.pkg with launches := [l] } }
    let b (t : List (List Nat × Nat × Nat)) : State := { on0 { chunk := some k } with pkg := { s0.pkg with launches := [{ l with tails := t }] } }
    (l.kernel.kinds.length = l.bounds.length ∧ (∀ b ∈ l.bounds, 0 < b) ∧ (∀ k ∈ l.kernel.kinds, k ≠ 2) ∧ 5 < product l.bounds) ∧
    ((a.core 0).nextChunk = some k ∧ (a.core 0).chunk = none ∧ (a.core 0).reserved = none ∧ (a.core 0).run = .idle ∧ k.started = false ∧ a.launchOf k.launch = some l ∧ l.status = none ∧
      ∀ r ∈ (a.core 0).resident, r.savedMask ≠ 0 ∨ r.kernel.bmask &&& l.kernel.bmask = 0) ∧
    ((b [([0], 5, 6)]).core 0).chunk = some k ∧ ((b []).core 0).run = .idle ∧ ((b []).core 0).draining = false ∧ k.forked = none ∧
    [(([0] : List Nat), 5, 6)].find? (fun t => t.1.contains 0 && decide (t.2.1 < t.2.2)) = some ([0], 5, 6) ∧
    (∀ p ∈ ([] : List (List Nat × Nat × Nat)), ¬ (p.1.contains 0 = true ∧ p.2.1 < p.2.2)) := by
  refine ⟨⟨?_, ?_, ?_, ?_⟩, ⟨?_, ?_, ?_, ?_, ?_, ?_, ?_, ?_⟩, ?_, ?_, ?_, ?_, ?_, ?_⟩ <;> decide +kernel
/-- With one eligible core, a launch is chosen whatever that core's entry of the stand table; a round ends with it when its context has no
credit left. -/
def launchable (gang round : Bool) : State :=
  let l : Launch := { id := 4, ctx := 0, kernel := { kinds := [1], nlev := 1 }, bounds := [1], gang }
  let a := (((s0.ioSet 0x6900 0x800).ioSet 0x4100 1).ioSet 0x4200 0x1110)
  { a with pkg := { a.pkg with launches := [l], powered := 1, credits := if round then [(0, 0)] else [] } }
theorem split_one (n t c w : Nat) : split n t [(c, w)] = ([(c, 0, n - n * t / 16)], n - n * t / 16) := by
  by_cases h : w = 0
  · simp [split, h]
  · simp [split, Nat.mul_div_cancel _ (Nat.pos_of_ne_zero h)]
theorem witness_placementDecision (gang round : Bool) : ∃ l, (launchable gang round).choose = some (l, round) ∧ l.ctx < 64 ∧ l.gang = gang := by
  have h : (launchable gang round).eligible 0 = [0] := by cases gang <;> cases round <;> decide +kernel
  have b : (if gang = true then 0 else (launchable gang round).ioBits 0x6800 0 4) ≤ 1 := by cases gang <;> cases round <;> decide +kernel
  let l : Launch := { id := 4, ctx := 0, kernel := { kinds := [1], nlev := 1 }, bounds := [1], gang }
  have hs : (launchable gang round).splitLaunch l = ([(0, 0, 1)], [([0], 1, 1)]) := by
    have e : 1 - 1 * (if gang = true then 0 else (launchable gang round).ioBits 0x6800 0 4) / 16 = 1 := by
      generalize (if gang = true then 0 else (launchable gang round).ioBits 0x6800 0 4) = t at b
      have : t = 0 ∨ t = 1 := by omega
      rcases this with rfl | rfl <;> rfl
    have p : product (l.boundsOf [0, 1]) = 1 := rfl
    simp only [State.splitLaunch, h, show l.ctx = 0 from rfl, show l.gang = gang from rfl, List.map, split_one, p, e]
    rfl
  have hp : (launchable gang round).placeable l = true := by
    simp only [State.placeable, hs]
    cases gang <;> cases round <;> decide +kernel
  refine ⟨l, ?_, (by decide : 0 < 64), rfl⟩
  have hl : (launchable gang round).pkg.launches = [l] := rfl
  have hc : decide (0 < (launchable gang round).pkg.credits.getD l.ctx 1) = !round := by cases gang <;> cases round <;> decide +kernel
  simp only [State.choose, hl, List.filter, hp, List.foldl]
  have e : (l.prio == max 0 l.prio) = true := rfl
  simp only [e, List.filter, hc, List.foldl]
  cases round <;> rfl
set_option maxRecDepth 20000 in
/-- A chunk of context 0 on core 0 with a better one queued; one before a ck bundle; one with no grace left; one that rolls; one that comes
back. -/
theorem witness_PreemptionResults :
    let k : Chunk := { launch := 4, ctx := 0, prio := 0, lo := 0, hi := 6, next := 1, cur := 0, gang := false, started := true }
    let q : Chunk := { k with launch := 5, prio := 3, started := false }
    let r : Saved := { chunk := k, kernel := {}, arch := {}, ckaddr := 64, tiles := [], accs := [], b0 := {}, b1 := {}, log := [], wins := [], svbase := 0, tcmp := 0, sq := [],
                       banks := [], savedMask := 0, spPoison := [], parked := false, posts := [], rolls := 0, arrived := [], rdvDone := false, replayed := false,
                       e := [] }
    let x : Cmd := { seq := 0, eng := 0, tok := 0, cls := 0, u := 2, kind := .cpy, desc := 0, deferred := true, released := true, started := true }
    let a (run : RunState) := on0 { chunk := some k, queue := [q], run }
    let ck := (bundle 0 0).writePhys 4098 [0x30]
    let own (s : State) : State := s.ioField 0x2000 6 1 1
    (∀ run ∈ [RunState.running, .parked], ((a run).core 0).chunk = some k ∧ ((a run).core 0).preempt = none ∧ (∃ q ∈ ((a run).core 0).queue, k.prio < q.prio) ∧
      ((a run).core 0).run = run ∧ ((a run).core 0).keepErr = false ∧ ((a run).ioSet 0x6808 5).ioBits 0x6808 0 20 ≠ 0 ∧ ((a run).ioSet 0x6808 0).ioBits 0x6808 0 20 = 0) ∧
    ((ck.core 0).run = .running ∧ (ck.core 0).grp.n = 0 ∧ ck.nextIsCk 0 = true) ∧
    (let b := on0 { chunk := some k, run := .running, preempt := some 0, cmds := [x], grp := { n := 1 } }
     (b.core 0).chunk = some k ∧ (b.core 0).run = .running ∧ (b.core 0).preempt = some 0 ∧ (b.core 0).grp.holds = [] ∧ (b.core 0).grp.n ≠ 0 ∧ (b.core 0).keepErr = false ∧
       ∃ x ∈ (b.core 0).cmds, x.released = true) ∧
    (let b := (on0 { chunk := some k, run := .rolling }).ioSet 0xFC00 1
     (b.core 0).chunk = some k ∧ (b.core 0).run = .rolling ∧ (b.core 0).cmds = [] ∧ (b.core 0).seg.posts = [] ∧ b.pkg.keyOp = [] ∧ (b.core 0).wins = [] ∧
       (b.ioGet (0xFC00 + 8 * k.ctx)).getLsbD 0 = true ∧ b.keyUsable (b.ownOf k.ctx) = false ∧ (own b).keyUsable ((own b).ownOf k.ctx) = true) ∧
    (let b := own (on0 { queue := [k], resident := [r] })
     (b.core 0).returning = some r ∧ (∀ d, d ≠ 0 → ∀ x ∈ (b.core d).resident, r.chunk.together x.chunk = false) ∧ b.pkg.keyOp = [] ∧
       b.keyUsable (b.ownOf r.chunk.ctx) = true ∧ (∀ d j, (b.core d).chunk = some j → r.chunk.together j = false) ∧
       ∀ x ∈ (b.core 0).resident, x.savedMask ≠ 0 ∨ x.kernel.bmask &&& r.kernel.bmask = 0 ∨ x.chunk = r.chunk) ∧
    (let b := on0 { chunk := some k, queue := [q], run := .running, grp := { holds := [.rdv 63] } }
     (b.core 0).run = .running ∧ (b.core 0).grp.n = 0 ∧ Hold.rdv 63 ∈ (b.core 0).grp.holds ∧ (b.core 0).preempt = none) := by
  refine ⟨?_, ⟨?_, ?_, ?_⟩, ⟨?_, ?_, ?_, ?_, ?_, ?_, _, List.mem_singleton_self _, ?_⟩, ⟨?_, ?_, ?_, ?_, ?_, ?_, ?_, ?_, ?_⟩, ⟨?_, ?_, ?_, ?_, ?_, ?_⟩,
    ?_, ?_, ?_, ?_⟩
  rotate_left 24
  · intro d j h
    have e (c : Core) (n : c.chunk = none) : ((on0 c).core d).chunk = none := by
      by_cases z : d = 0
      · subst z; exact n
      · exact congrArg Core.chunk (State.core_setCore_ne State.reset c (Ne.symm z))
    rw [show ∀ s : State, (s.ioField 0x2000 6 1 1).core d = s.core d from fun _ => rfl, e _ rfl] at h
    cases h
  rotate_left 26
  · intro d hd x hx
    have e (c : Core) : (on0 c).core d = State.reset.core d := State.core_setCore_ne State.reset c hd.symm
    exact absurd hx (by rw [show ∀ s : State, (s.ioField 0x2000 6 1 1).core d = s.core d from fun _ => rfl, e, show (State.reset.core d).resident = [] from rfl]; simp)
  all_goals decide +kernel
/-- A gang of two that has been placed; the second arrival at barrier 63; a launch that is done; answers to a launch; a context to end and one that is ending. -/
theorem witness_GangAndTerminationResults :
    let l : Launch := { id := 4, ctx := 5, gang := true, placed := true, members := [(0, 0, 1), (1, 1, 2)] }
    let done : Launch := { id := 4, ctx := 5, placed := true, started := true }
    let a : State := { s0 with pkg := { s0.pkg with launches := [l] } }
    let b (arr : List (Nat × Nat)) : State := { s0 with flight := [⟨0, 0, 5, .arrive 63, 9⟩], pkg := { s0.pkg with bars := [(63, ⟨4, [0, 1], 0, arr⟩)] } }
    let d (x : Launch) : State := { page with pkg := { page.pkg with launches := [x] } }
    let w (n : Nat) : State := { on0 { grp := { holds := [.launch 128 0 1] } } with pkg := { s0.pkg with launches := List.replicate n { id := 4, ctx := 5 } } }
    let e : State := { s0 with pkg := { s0.pkg with terming := [(5, 0x084)] } }
    (a.launchOf 4 = some l ∧ l.gang = true ∧ l.placed = true ∧ l.started = false ∧ ∀ q ∈ l.members, (a.core q.1).chunk = none ∧ (a.core q.1).run = .idle ∧ (a.core q.1).resident = []) ∧
    ((b []).flight[0]? = some ⟨0, 0, 5, .arrive 63, 9⟩ ∧ (b []).flightReady 0 = true ∧ (b []).pkg.bars.get? 63 = some ⟨4, [0, 1], 0, []⟩ ∧ 0 ∈ [0, 1] ∧
      ∃ c ∈ [0, 1], ∀ a ∈ ([] : List (Nat × Nat)) ++ [(0, (9 : Word).toNat * 16)], a.1 ≠ c) ∧
    ((b [(1, 0)]).pkg.bars.get? 63 = some ⟨4, [0, 1], 0, [(1, 0)]⟩ ∧ ∀ c ∈ [0, 1], c < 256 ∧ ∃ a ∈ [(1, 0)] ++ [(0, (9 : Word).toNat * 16)], a.1 = c) ∧
    ((d done).pkg.launches[0]? = some done ∧ (d done).launchLive 4 = false ∧ (∀ f ∈ (d done).flight, f.ctx ≠ 5) ∧ done.working = [] ∧ s0.pkg.keyOp = [] ∧ (d done).pkg.keyOp = [] ∧
      ({ done with caddr := 1 } : Launch).caddr.toNat % 64 ≠ 0 ∧ (∃ ps u, (d { done with ctx := 0 }).xlate ⟨0, false, 265⟩ .store 0 64 = (.ok ps, u) ∧ (!ps.isEmpty) = true)) ∧
    (((w 0).core 0).grp.holds = [.launch 128 0 1] ∧ ((w 0).pkg.launches.filter fun l => !l.placed && l.status.isNone).length < 1024 ∧
      tierOf ((0x6000000000000 : Word)).toNat = .none ∧ 1024 ≤ ((w 1024).pkg.launches.filter fun l => !l.placed && l.status.isNone).length) ∧
    (s0.ioGet (0xFA00 + 8 * 5)).getLsbD 16 = false ∧ ((s0.ioSet 0xFA28 0x10000).ioGet (0xFA00 + 8 * 5)).getLsbD 16 = true ∧ e.pkg.terming.get? 5 = some 0x084 ∧
    (∀ l ∈ e.pkg.launches, l.ctx ≠ 5) := by
  refine ⟨⟨?_, ?_, ?_, ?_, ?_⟩, ⟨?_, ?_, ?_, ?_, ?_⟩, ⟨?_, ?_⟩, ⟨?_, ?_, ?_, ?_, ?_, ?_, ?_, ok_pair ?_⟩, ⟨?_, ?_, ?_, ?_⟩, ?_, ?_, ?_, ?_⟩ <;> decide +kernel
/-- Released entries whose turn has come: a store, an atomic, a store to a line that the host holds, a pair whose line is in L2, a post. -/
theorem witness_ReleasedEntryResults :
    let st : Flight := ⟨0, 0, 5, .store 0 64 0 5 1, 0⟩
    let am : Flight := ⟨0, 0, 5, .vamo 0 64 0 0 32 5 1, 0⟩
    let pr : Flight := ⟨0, 0, 5, .pair 0 64 0 0 1, 0⟩
    let po : Flight := ⟨0, 0, 5, .post 1 15 1, 0⟩
    let with' (f : Flight) : State := { s0 with flight := [f] }
    let held : State := { with' st with pkg := { s0.pkg with hostHeld := [(0, ())] } }
    let u : State := { region.l2Access 0 { ctx := 64, key := 64, secs := 3, u := 2 } with flight := [pr], deck := [(region.home 0 * 256, [(0, { val := 1 })])] }
    let q : Chunk := { launch := 0, ctx := 5, prio := 0, lo := 0, hi := 1, next := 1, cur := 0, gang := false }
    ((with' st).flight[0]? = some st ∧ (with' st).flightReady 0 = true ∧ (with' st).pkg.hostHeld.has 0 = false ∧ tierOf 0 = .hbm) ∧
    ((with' am).flight[0]? = some am ∧ (with' am).flightReady 0 = true ∧ (with' am).linkCause 0 = 0) ∧ (held.flightReady 0 = true ∧ held.pkg.hostHeld.has 0 = true ∧ held.pkg.snooped.has 0 = false) ∧
    (u.flight[0]? = some pr ∧ u.flightReady 0 = true ∧ (u.wayOf 0).isSome = true ∧ (u.deck.getD (u.home 0 * 256 + 0) []).get? 0 = some { val := 1 } ∧ u.linkCause 0 = 0 ∧
      u.sliceDue (u.home 0) = false) ∧
    (let p : State := { with' po with cores := [(1, { chunk := some q })] }
     p.flight[0]? = some po ∧ p.flightReady 0 = true ∧ (p.core 1).chunk = some q ∧ q.ctx = 5 ∧ 5 ≠ 64) ∧
    (∀ r ∈ [Rel.store 0xC000000000000 64 0 5 1, .vamo 0xC000000000000 64 0 0 32 5 1],
      let p : State := { with' ⟨0, 0, 5, r, 0⟩ with cores := [(0, { chunk := some q, run := .running })] }
      p.flight[0]? = some ⟨0, 0, 5, r, 0⟩ ∧ p.flightReady 0 = true ∧ p.linkCause 0xC000000000000 ≠ 0 ∧ (p.core 0).run = .running ∧ p.ctxOf 0 = 5 ∧
        p.pkg.hostHeld.has (0xC000000000000 / 64) = false ∧ 0xC000000000000 % 32 = 0) := by
  refine ⟨⟨?_, ?_, ?_, ?_⟩, ⟨?_, ?_, ?_⟩, ⟨?_, ?_, ?_⟩, ⟨?_, ?_, ?_, ?_, ?_, ?_⟩, ⟨?_, ?_, ?_, ?_, ?_⟩, ?_⟩ <;> decide +kernel
/-- A slice with a set of one usable way; a line of HBM; a word of HBM in error; the two places of an injected error. -/
theorem witness_MemoryEventResults :
    let a := { s0 with blaze := [(191 * 8192, 0x7FFF)] }.ioSet (0x8210 + 8 * (191 / 64)) 0x8000000000000000
    let b : State := { s0 with hbmErr := [(0, ())] }
    let c := s0.ioSet 0x8308 4
    ((∃ q ∈ a.blaze, q.1 / 8192 = 191 ∧ (a.usable q.1).length < 2) ∧ (a.ioGet (0x8210 + 8 * (191 / 64))).getLsbD (191 % 64) = true) ∧
    l2Cached 0 = true ∧ (b.hbmErr.has ((0 : BitVec 52).toNat / 8) = true ∧ b.lineOf 0 = none) ∧
    ((c.ioGet 0x8308).getLsbD 7 = false ∧ c.ioBits 0x8308 2 2 = 1 ∧ tierOf (c.ioBits 0x8300 3 49 * 8) = .hbm) ∧
    ((s0.ioGet 0x8308).getLsbD 7 = false ∧ s0.ioBits 0x8308 2 2 = 0 ∧ s0.lineOf (s0.ioBits 0x8300 3 49 * 8 / 64) = none) := by
  refine ⟨⟨⟨_, List.mem_singleton_self _, ?_, ?_⟩, ?_⟩, ?_, ⟨?_, ?_⟩, ⟨?_, ?_, ?_⟩, ⟨?_, ?_, ?_⟩⟩ <;> decide +kernel
set_option maxRecDepth 20000 in
/-- A bundle of nop; one in a state past the checkpoint bound; one of the service sequencer that ends its handler. -/
theorem witness_BundleResults :
    let s := bundle 0 0
    let d := s.modCore 0 Core.drain
    let c := d.core 0
    let start : State := { d.setCore 0 (if c.seg.restart then c else c.tick) with issue := { core := 0, haddr := c.pc } }
    (c.run = .running ∧ c.seg.exitDone = false ∧ c.seg.exiting = false ∧ s.fatal = 0 ∧ s.pkg.keyOp = [] ∧ c.grp.holds = [] ∧ c.clash = false ∧
      c.preempt = none ∧ c.grp.n = 0 ∧ d.energyHeld 0 = false) ∧
    (let p := (s.modCore 0 fun k => { k with grp := { n := 1 } }).modCore 0 Core.drain
     (p.core 0).grp.n ≠ 0 ∧ p.midReady 0 = true) ∧
    (∃ ws u, start.nextWords 0 = (.ok ws, u) ∧ (match bundleOf ws with
      | .ok b =>
        let v : State := { u with issue := { core := 0, haddr := c.pc, len := b.hdr.len.toNat, ck := false, stop := b.hdr.stop, relN := (u.core 0).seg.rel.length,
                                             since := some (u.seq, (u.core 0).arch.lands.length) } }
        let l := (goodOps (opsOf b (mainIssuer 0))).map fun q => (q, q.uses v)
        let group := if (u.core 0).grp.n ≠ 0 then [] else
          l.map Prod.fst ++ if b.hdr.stop then [] else State.groupFrom 31 v 0 (c.pc + BitVec.ofNat 64 (4 * b.hdr.len.toNat))
        !(v.groupHeld 0 group) && !(u.core 0).keepErr && b.hdr.ck == false && (v.headerCause (mainIssuer 0) b l).isNone && (v.encodingCause (opsOf b (mainIssuer 0))).isNone && decide ((u.core 0).seg.count < v.ckb) &&
          l.all (fun q => v.cur.grp.breaks (l.any fun q => q.2.push) q.2 == false) &&
          (match State.runOps (inOrder (l.map Prod.fst)) v [] with
            | .next (t, ts) => ts.isEmpty && !t.issue.stall && !t.issue.exit && t.issue.target.isNone && (t.core 0).arch.levels.isEmpty | _ => false)
      | .error _ => false) = true) ∧
    (let p := s.modCore 0 fun k => { k with seg := { k.seg with count := 65536 } }
     p.ckb ≤ (p.core 0).seg.count ∧ (p.modCore 0 Core.drain).ckb ≤ ((p.modCore 0 Core.drain).core 0).seg.count ∧ p.nextIsCk 0 = false) := by
  refine ⟨⟨?_, ?_, ?_, ?_, ?_, ?_, ?_, ?_, ?_, ?_⟩, ⟨?_, ?_⟩, ok_pair ?_, ?_, ?_, ?_⟩ <;> decide +kernel
set_option maxRecDepth 20000 in
theorem witness_serviceBundle :
    let s := bundle 0x68000000 0
    let c := s.core 0
    let start : State := { (s.modCore 0 fun k => { k with svc := { k.svc with hold := [] } }).modCore 0 Core.svcLand with issue := { core := 0, svc := true, haddr := c.svc.pc } }
    (c.svc.busy = true ∧ s.svcAlive 0 = true ∧ s.fatal = 0 ∧ s.pkg.keyOp = [] ∧ c.svc.hold = []) ∧
    ∃ ws u, start.fetchBundle (start.fetcher 0 true) c.svc.pc = (.ok ws, u) ∧ (match bundleOf ws with
      | .ok b =>
        let v : State := { u with issue := { core := 0, svc := true, haddr := c.svc.pc, len := b.hdr.len.toNat, stop := b.hdr.stop } }
        let l := (goodOps (opsOf b .svc)).map fun q => (q, q.uses v)
        !(Header.ofWord (ws.headD 0)).ck && !(Header.ofWord (ws.headD 0)).opc && (v.headerCause .svc b l).isNone && (v.encodingCause (opsOf b .svc)).isNone &&
          (match State.runOps (inOrder (goodOps (opsOf b .svc))) v [] with | .next (t, ts) => ts.isEmpty && !t.issue.stall | _ => false)
      | .error _ => false) = true := by
  refine ⟨⟨?_, ?_, ?_, ?_, ?_⟩, ok_pair ?_⟩ <;> decide +kernel
/-- A core on a rail over its current; a stretching core; handlers by notice, timer and event; a timer that is due; a parked core; the queue off. -/
theorem witness_SequencerResults :
    let sv (v : Svc) : State := State.reset.setCore 256 { run := .running, svc := v }
    let q : ArrEvent := ⟨15, 32, 64, 1⟩
    let hot : State := { on0 { run := .running, earm := true } with pkg := { s0.pkg with railOver := [(0, ())] } }
    ((on0 { run := .running }).core 0).run = .running ∧ ((on0 { run := .running }).core 0).grp.n = 0 ∧ ((on0 { run := .running }).modCore 0 Core.drain).energyHeld 0 = false ∧
    (hot.modCore 0 Core.drain).energyHeld 0 = true ∧ ((hot.modCore 0 Core.drain).core 0).earm = true ∧
    ((on0 { latdecl := 0x01424211 }).core 0).latdecl.getLsbD 24 = true ∧
    (((sv { base := 1, notices := 8 }).core 256).svc.busy = false ∧ ((sv { base := 1, notices := 8 }).core 256).svc.base.getLsbD 0 = true ∧
      (sv { base := 1, notices := 8 }).svcAlive 256 = true ∧ ((sv { base := 1, notices := 8 }).core 256).svc.notices.getLsbD 3 = true ∧
      ∀ j < 3, ((sv { base := 1, notices := 8 }).core 256).svc.notices.getLsbD j = false) ∧
    ((sv { base := 1, tpend := true }).core 256).svc.tpend = true ∧ ((sv { base := 1, queue := [q] }).core 256).svc.queue = q :: [] ∧
    ((0 : Word) ≠ 5 ∧ (5 : Word).toNat ≤ ({ sv { tcmp := 5 } with tmr := 5 } : State).tmr.toNat) ∧
    (∀ h : Bool, let p := on0 { run := .parked, recHeld := h }
      (p.core 0).run = .parked ∧ p.recWaits 0 = h ∧ (p.core 0).recHeld = h ∧ (p.core 0).preempt = none) ∧ s0.fsqOn = false ∧
    (∃ r, ((s0.ioField 0xF008 15 1 1).ioField 0xF008 32 16 0).fetchData distributor ((s0.ioField 0xF008 15 1 1).ioField 0xF008 32 16 0).fsqBase 8 64 2 = r) := by
  have held (s : State) (c : Nat) (h : ((railsOf c).any fun r => s.pkg.railOver.has r) = true) : s.energyHeld c = true := by simp only [State.energyHeld, h, Bool.or_true]
  refine ⟨?_, ?_, ?_, held _ _ ?_, ?_, ?_, ⟨?_, ?_, ?_, ?_, ?_⟩, ?_, ?_, ⟨?_, ?_⟩, ?_, ?_, _, rfl⟩ <;> decide +kernel
/-- The B and the A role of tile 0 have to be computed, or serve; a fill and a pass that run, or fail their check; the tile unit; a found cause. -/
theorem witness_EngineResults :
    let fill : PMat := { seq := 0, op := .mldb 0 false false true 0 1 1 0 0 0, site := (64, 2) }
    let pass : PMat := { fill with op := .pass 0 0 false false false 1 false 0 0 0 { n := 1, kb := 1 } }
    let has (role : Bool) : SMap Tile := [(0, { a := { valid := role }, b := { valid := role } })]
    let c (m : PMat) (role : Bool) : Core := { arrayOn := true, mq := [m], tiles := has role }
    let run (m : PMat) (k : Bank) : Option Acc := (({ c m true with b0 := k }).drainOf m 0 false false false 0 0 { n := 1, kb := 1 }).run
      (decide (32 < tcfgCols 0 ∨ 32 < 1)) false { fmt := 1, rows := 1, cols := 1 }
    (({ } : Core).arrayActive = false ∧ ({ arrayEn := true } : Core).arrayEn = true) ∧
    ((c fill true).mNext = some fill ∧ (c fill true).mNeeds fill = none ∧ (c fill true).bankFree fill = true ∧ (c fill false).mNeeds fill = some 1 ∧
      ({ fill with started := true } : PMat).started = true) ∧
    ((c pass true).mNext = some pass ∧ (c pass true).enginesHeld = false ∧ (c pass true).mNeeds pass = none ∧ (c pass true).bankFree pass = true ∧
      (c pass false).mNeeds pass = some 0 ∧ ({ c pass true with b0 := { stale := true } } : Core).mNeeds pass = some 2 ∧ (run pass {}).isSome = true ∧ run pass { c := 1 } = none) ∧
    (64 * 64 * accWidth 2 ≤ 16384 ∧ (1 : Nat) ≠ 0 ∧ tileLen 0xFFF9 ≤ 16384 ∧ (({ poison := 1, paddr := [(0, 96)] } : Tile).poisonAt (pieceMask 0 (tileLen 0))) = some 96 ∧
      ({} : Tile).poisonAt (pieceMask 0 (tileLen 0)) = none) ∧
    (let x : TrapInfo := { cause := 0x143, site := some fill.site }
     [{ pass with found := some x }].find? (fun m : PMat => m.found.isSome) = some { pass with found := some x } ∧ x.site = some pass.site) ∧
    ({} : Core).keepErr = false := by
  refine ⟨⟨?_, ?_⟩, ⟨?_, ?_, ?_, ?_, ?_⟩, ⟨?_, ?_, ?_, ?_, ?_, ?_, ?_, ?_⟩, ⟨?_, ?_, ?_, ?_, ?_⟩, ⟨?_, ?_⟩, rfl⟩ <;> decide +kernel
/-- A queue entry, a scalar and a vector load, an atomic, a watch that a write woke and one with a cause; a copy of one transfer and one of
many; a put whose port is down. -/
theorem witness_DeliveryResults :
    let p : Piece := ⟨64, 64, 8, 0, 64⟩
    let l (d : LoadDst) : PLoad := ⟨0, 7, d, [p], 0, 2, 0, none, (0, 0)⟩
    let e : DqEntry := ⟨0, 7, 3, [p], 0, 0, none, 0, 2, (64, 1)⟩
    let y : AqEntry := ⟨0, 7, 3, [p], 0, 2, 0, none, (64, 1)⟩
    let a : PAtom := ⟨0, 7, 1, 5, 0, 0, none, 64⟩
    let w (slp : Bool) (cause : Cause) : Watch := ⟨0, 7, 1, 64, 64, slp, cause, 5, 0, none, 0, 64⟩
    let k (kind : CmdKind) : Cmd := { seq := 0, eng := 1, tok := 7, cls := 0, u := 2, kind, desc := 0, deferred := false, started := true, captured := true }
    let t : State := on0 { aq := [y], dq := [e], loads := [l (.s 1 3 false)], atoms := [a], watches := [w false 0], cmds := [k .cpy] }
    let n : State := (on0 { cmds := [k .cnput] }).ioSet 0x0400 0x1000
    (({ aq := [y] } : Core).aq = y :: [] ∧
      ({ dq := [e] } : Core).dq.find? (fun e => e.data.isNone) = some e ∧ ({ dq := [e] } : Core).readReady e.seq e.cls e.pieces = true ∧
      t.meetsFlight 0 false e.pieces = false ∧ ∃ cause bs u, t.readPieces (t.mainWho 0) (t.seenBy 0 e.relN) e.u (decide (e.z < 4)) e.pieces = ((cause, bs), u)) ∧
    (∀ d ∈ [LoadDst.s 1 3 false, .v 1 255], (let b := on0 { loads := [l d] }
      (b.core 0).loads[0]? = some (l d) ∧ (l d).arr = none ∧ (b.core 0).readReady 0 0 [p] = true ∧ b.meetsFlight 0 false [p] = false ∧
        (b.readPieces (b.mainWho 0) (b.seenBy 0 0) 2 (match d with | .v _ _ => false | _ => true) [p]).1.1 = 0 ∧
        (b.readPieces (b.mainWho 0) (b.seenBy 0 0) 2 (match d with | .v _ _ => false | _ => true) [p]).2.stopq = b.stopq)) ∧
    ((t.core 0).atoms[0]? = some a ∧ (t.core 0).watches[0]? = some (w false 0) ∧
      (t.readPieces (t.mainWho 0) (t.seenBy 0 0) 2 false [⟨64, 64, 8, 0, 64⟩]).1.1 = 0 ∧ (w false 0x141).cause ≠ 0 ∧ (w false 0x141).asleep = false) ∧
    ((t.core 0).cmds[0]? = some (k .cpy) ∧ (on0 { cmds := [k .cpy] }).cmdReady 0 (k .cpy) = true ∧ (k .cpy).sent = false ∧ (k .cpy).isNet = false ∧
      (on0 { cmds := [k .cpy] }).cur.enginesHeld = false ∧ t.partsOf 0 (k .cpy) ≤ 0 + 1 ∧
      (let x : Cmd := { k .cpy with released := true, started := false }
       x.released = true ∧ x.started = false ∧ ({ cmds := [x] } : Core).engineLoad x.eng < 16 ∧ ∀ y ∈ [x], x.seq ≤ y.seq)) ∧
    (let b := on0 { cmds := [k (.tsti 0 0 false true)] }
     let x : Cmd := { k (.tsti 0 0 false true) with parts := some 64 }
     b.cmdReady 0 x = true ∧ (match x.parts with | some n => 0 + 1 < n | none => False)) ∧
    ((n.core 0).cmds[0]? = some (k .cnput) ∧ n.cmdReady 0 (k .cnput) = true ∧ (k .cnput).sent = false ∧ (k .cnput).isNet = true ∧ (n.core 0).enginesHeld = false ∧
      n.netWaits (k .cnput) = false) := by
  refine ⟨⟨?_, ?_, ?_, ?_, _, _, _, rfl⟩, ?_, ⟨?_, ?_, ?_, ?_, ?_⟩, ⟨?_, ?_, ?_, ?_, ?_, ?_, ?_, ?_, ?_, ?_⟩, ⟨?_, ?_⟩, ?_, ?_, ?_, ?_, ?_, ?_⟩
  rotate_right
  · have h : ∀ p : Nat, p ∈ List.range 8 → (((on0 { cmds := [] }).ioSet 0x0400 0x1000).portUp p) = false := by decide +kernel
    have e (s : State) (k : Cmd) (l : s.oftLocked = true) (d : ∀ p ∈ List.range 8, s.portUp p = false) : s.netWaits k = false := by
      simp only [State.netWaits, l, Bool.not_true, Bool.false_or, State.portFor]
      split
      · rename_i h
        split at h
        · cases h
        split at h
        · cases h
        · rename_i q
          exfalso; apply q
          simp only [Bool.not_eq_true', List.any_eq_false, List.mem_filter, Bool.not_eq_true]
          intro p hp; exact d p hp.1
      · rfl
    exact e _ _ (by decide +kernel) h
  all_goals decide +kernel
/-- Registers that hold what is written, with and without a lock; regions 0 and 255; an offset that names none. -/
theorem witness_RegisterWriteResults :
    (0x40 ≤ 0xFF000 ∧ 0xFF000 < 2 ^ 26 ∧ ioReg 0xFF000 = none) ∧
    (let m (st : Word) : State := { s0 with pkg := { s0.pkg with stopped := true, mbox := { status := st } } }
     (m 0x20).pkg.stopped = true ∧ (m 0x20).pkg.mbox.status ≠ 0 ∧ (m 0).pkg.mbox.status = 0 ∧ s0.pkg.stopped = false) ∧
    (∀ o ∈ [0x0400, 0xF000, 0x4138, 0x41B8, 0x6AF8, 0x81F8, 0xB7F8], (ioReg o).isSome = true) ∧
    (ioIdx 0xB7F8 0xB000 8 256).isSome = true ∧ (ioIdx 0x4138 0x4100 8 8).isSome = true ∧ (ioIdx 0x41B8 0x4180 8 8).isSome = true ∧
    (ioIdx 0x6AF8 0x6900 8 64).isSome = true ∧ (ioIdx 0x81F8 0x8000 8 64).isSome = true ∧ s0.rgnV 0 = false ∧ s0.rgnV 255 = false := by
  refine ⟨⟨?_, ?_, ?_⟩, ⟨?_, ?_, ?_, ?_⟩, ?_, ?_, ?_, ?_, ?_, ?_, ?_, ?_⟩ <;> decide +kernel
/-- Each family of the opcode table has instructions that are well formed. -/
theorem witness_DecodeOfEncode : ∀ i ∈ ([.add (op .x) ⟨15, 15, 15⟩, .ld ⟨.s, 15, true, some (.barrier 63)⟩ ⟨31, 31, 0, 0, 0, 2, 15, 7, 3, 0x7FFF⟩,
    .vadd (op .v0) ⟨31, 31, 31, 2⟩, .mmas (op .m) ⟨3, 15, 7, 3, 1, 1⟩, .cpy (op .c0) ⟨15, 15, 7, 3⟩, .fork (op .f) ⟨31, 15, 1, 31⟩] : List Instr), WellFormed false i = true := by decide
theorem witness_StepRunsInstructions :
    let e (i : Instr) : State := { State.reset with agenda := [i] }
    let fatal : State := { s0 with fatal := 1 }
    let busy : State := s0.setCore 256 { run := .running, svc := { busy := true } }
    ((e (.bundleIssue 0)).agenda = .bundleIssue 0 :: [] ∧ Instr.isEvent (.bundleIssue 0) = true ∧ Instr.inService (.bundleIssue 0) = false ∧
      Instr.isEvent .packageReset = true ∧ Instr.inService .packageReset = true) ∧ s0.agenda = [] ∧ s0.fatal = 0 ∧ fatal.fatal ≠ 0 ∧
    ((bundle 0 0).turnOf = some 0 ∧ ((bundle 0 0).core 0).svc.busy = false ∧ (bundle 0 0).ownMove = none ∧ (bundle 0 0).firstMove (bundle 0 0).moves = none) ∧
    (busy.turnOf = some 256 ∧ (busy.core 256).svc.busy = true) ∧ (s0.turnOf = none ∧ s0.ownMove = none ∧ s0.firstMove s0.moves = none) ∧
    ∃ q, slotOp .cmp .y 0x0E600000 0 = .ok q := by
  refine ⟨⟨rfl, rfl, rfl, rfl, rfl⟩, rfl, rfl, ?_, ⟨?_, ?_, ?_, ?_⟩, ⟨?_, ?_⟩, ⟨?_, ?_, ?_⟩, _, rfl⟩ <;> decide +kernel
theorem witness_EveryStepAnswers : ({ State.reset with agenda := [.bundleIssue 0] } : State).agendaOk := by
  intro i h; rw [List.mem_singleton.mp h]; rfl
theorem witness_MemoryStaysCanonical : let s : State := { bundle 0 0 with agenda := [.arrayPowerGate 0] }
    s.memOk ∧ ∃ t, step s = .next t := by
  refine ⟨?_, _, rfl⟩
  show Memory.wf _ = true
  decide +kernel
theorem witness_LandingTime : (s0.core 0).arch.lands = [] ∧ (1 ≤ 1) ∧ (0 < 15) ∧ (0 < 1) := by decide +kernel
theorem witness_FalseGuards : s0.guard0 ⟨.s, 1, false, none⟩ = false ∧ s0.arrivalOk (some (.flag 2)) := ⟨rfl, trivial⟩
theorem witness_RegisterFrames : s0.issue.svc = false ∧ s0.issue.trap = none ∧ ∃ t, exec (.add (op .s) ⟨4, 5, 6⟩) s0 = .next t ∧ t.issue.trap = none := ⟨rfl, rfl, _, rfl, rfl⟩
/-- A store of a control core; a store on its way to HBM whose line is in L2, and one to memory of the host. -/
theorem witness_StoreFrames :
    let l : Flight := ⟨0, 0, 5, .store 0 64 0 5 1, 0⟩
    let h : Flight := ⟨0, 0, 5, .store 0xC000000000000 64 0 5 1, 0⟩
    let a : State := { s0.l2Access 0 { ctx := 64, key := 64, secs := 3, u := 2 } with flight := [l] }
    let b : State := { s0 with flight := [h], pkg := { s0.pkg with hostUp := true } }
    (ctl.issue.trap = none ∧ ctl.issue.svc = false ∧ ctl.guard0 (op .s) = true ∧
      (∃ ps u, ctl.xlateR .store (ctl.scalarAddr 0 3 0 0 0).toNat (2 ^ 3) = .ok (ps, u) ∧ u.cur.wins = []) ∧
      ∃ t, exec (.st (op .s) ⟨1, 0, 0, 3, 0, 0, 0⟩) ctl = .next t ∧ t.issue.trap = none) ∧
    (a.flight[0]? = some l ∧ a.flightReady 0 = true ∧ a.pkg.hostHeld.has 0 = false ∧ tierOf 0 = .hbm ∧ a.sliceDue (a.home 0) = false ∧
      (a.lineOf 0).any (fun q => q.2.valid == 3 && !q.2.u) = true) ∧
    (b.flight[0]? = some h ∧ b.flightReady 0 = true ∧ tierOf 0xC000000000000 = .host) ∧ ∃ t, exec (.homeSliceAccess 0) a = .next t := by
  refine ⟨⟨rfl, rfl, rfl, ⟨_, _, rfl, rfl⟩, _, rfl, rfl⟩, ⟨?_, ?_, ?_, ?_, ?_, ?_⟩, ⟨?_, ?_, ?_⟩, _, rfl⟩ <;> decide +kernel
theorem witness_TrapEntryAndReturn : s0.issue.svc = false ∧ (0x082 : Cause) ≠ 0x140 ∧ s0.cur.seg.forks = [] ∧ s0.cur.keepErr = false ∧
    (on0 { keepErr := true }).cur.keepErr = true ∧ svc.issue.svc = true ∧ ((on0 { run := .parked }).core 0).run = .parked ∧ (on0 { run := .parked }).recWaits 0 = false ∧
    ((on0 { run := .parked }).core 0).preempt = none ∧ s0.guard0 (op .s) = true ∧ s0.arrivalOk none :=
  ⟨rfl, by decide, rfl, rfl, rfl, rfl, rfl, rfl, rfl, rfl, trivial⟩
/-- An address that is 4 beyond a multiple of 8 and of 32: misaligned for 8 and 32 bytes; 4-byte operations take 1 beyond it. -/
theorem witness_AtomicAlignment :
    s0.arrivalOk none ∧ s0.guard0 (op .s) = true ∧ (s0.gpr .s 0 + BitVec.ofInt 64 (4 : BitVec 13).toInt).toNat % 8 ≠ 0 ∧
    (s0.gpr .s 0 + BitVec.ofInt 64 (1 : BitVec 13).toInt).toNat % 4 ≠ 0 ∧ ((page.ioSet 0xA800 1).ioGet 0xA800).getLsbD 0 = true ∧ page.who.ctx = 0 ∧
    s0.guardE (op .v0) 32 7 = true ∧ 32 ∈ [4, 8, 32] ∧ 96 % 32 = 0 := by
  refine ⟨trivial, ?_, ?_, ?_, ?_, ?_, ?_, ?_, ?_⟩ <;> decide +kernel
theorem witness_PrivilegeOfSequencers : ctl.supervisor = true ∧ svc.supervisor = false ∧ s0.supervisor = false ∧
    ∃ t, exec (.add (op .s) ⟨4, 5, 6⟩) ctl = .next t ∧ t.issue.core = ctl.issue.core ∧ t.issue.svc = ctl.issue.svc := ⟨rfl, rfl, rfl, _, rfl, rfl, rfl⟩
/-- The memory of a first page, with a kernel's descriptor at 64 KiB and a launch record of two tiles that names it at 64 KiB and 256. -/
def launcher : State :=
  let s := (page.writePhys 65536 (bytesOf 4 0x444B394F ++ [0, 1] ++ bytesOf 2 0 ++ bytesOf 8 4096 ++ [1, 255, 255, 255, 255, 255] ++ List.replicate 234 0)).writePhys 65792
    (bytesOf 8 7 ++ bytesOf 8 65536 ++ bytesOf 8 2 ++ List.replicate 104 0)
  s.modCore 0 fun c => { c with grp := { holds := [.launch 65792 0 1] } }
/-- A launch that is accepted, its kernel read; one whose kernel cannot be read; a full table; a record behind a link that is down. -/
theorem witness_launchAnswers :
    let a (s : State) (rec : Nat) := s.fetchData distributor rec 128 64 2
    (launcher.core 0).grp.holds = [.launch 65792 0 1] ∧ launcher.pkg.keyOp = [] ∧ tierOf 65792 ≠ .none ∧
    (a launcher 65792).1.1 = 0 ∧ ((a launcher 65792).2.pkg.launches.filter fun l => !l.placed && l.status.isNone).length < 1024 ∧
    ((a launcher 65792).2.readKernel 0 (natOf (((a launcher 65792).1.2.drop 8).take 8))).1.toOption = some { entry := 4096, nlev := 1, kinds := [1] } ∧
    ((a s0 65792).2.readKernel 0 0).1.toOption = none ∧ (a s0 0x8000000000000).1.1 ≠ 0 ∧
    (match exec (.launchAnswer 0) launcher with
      | .next t => t.pkg.launches.map (fun l => (l.ctx, l.seq.toNat, l.bounds, l.status)) == [(0, 7, [2], none)] && (t.core 0).grp.holds.isEmpty
      | _ => false) = true := by
  refine ⟨?_, ?_, ?_, ?_, ?_, ?_, ?_, ?_, ?_⟩ <;> decide +kernel
/-- Arrivals at a barrier of a gang that runs, of one whose chunks have ended, and of another context. -/
theorem witness_barrierArrivals :
    let l : Launch := { id := 4, ctx := 5, gang := true, placed := true, started := true }
    let q : Chunk := { launch := 4, ctx := 5, prio := 0, lo := 0, hi := 1, next := 1, cur := 0, gang := true }
    let s (l : Launch) (c : Core) : State := { on0 c with flight := [⟨0, 0, 5, .arrive 63, 9⟩], pkg := { s0.pkg with launches := [l], bars := [(63, ⟨4, [0, 1], 0, []⟩)] } }
    ((∀ j ∈ (s l {}).pkg.launches, j.id = 4 → j.ctx = 5) ∧ (s l { chunk := some q }).launchLive 4 = true ∧ (s l { chunk := some q }).flightReady 0 = true ∧
      (s l { chunk := some q }).pkg.bars.get? 63 = some ⟨4, [0, 1], 0, []⟩) ∧
    (l.working = [] ∧ (s l {}).launchLive 4 = false ∧ ((s l {}).dropFlight 0).flight = [] ∧ (s l {}).flightReady 0 = true) ∧
    (∀ j ∈ (s { l with ctx := 6 } {}).pkg.launches, j.ctx ≠ 5) ∧
    (match exec (.barrierArrival 0) (s l {}) with | .next t => t.pkg.bars.isEmpty | _ => false) = true := by
  refine ⟨⟨?_, ?_, ?_, ?_⟩, ⟨?_, ?_, ?_, ?_⟩, ?_, ?_⟩ <;> decide +kernel
/-- The written bytes of a stash sector in tier 2, whose link is down, keep the chunk of a core that has finished. -/
theorem witness_flushFails :
    let k : Chunk := { launch := 4, ctx := 0, prio := 0, lo := 0, hi := 6, next := 6, cur := 5, gang := false, started := true }
    let s : State := { on0 { chunk := some k, wins := [(0, { gva := 0, spbase := 0, size := 1, en := true })],
                             stash := [(0, { mask := 1, full := true, pa := some (0x8000000000000 / 32) })] } with
                       pkg := { s0.pkg with launches := [{ id := 4, ctx := 0, placed := true, started := true }] } }
    (s.core 0).run = .idle ∧ (s.core 0).draining = false ∧ (s.flushStash 0).1.1 = 0x242 ∧ ((s.flushStash 0).2.core 0).keepErr = false ∧
    (match exec (.tailTileRequest 0) s with | .next t => (t.core 0).run == .parked && (t.core 0).trec.cause == 0x242 && (t.core 0).chunk.isSome | _ => false) = true := by
  refine ⟨?_, ?_, ?_, ?_, ?_⟩ <;> decide +kernel
/-- A window's end with a request and a ceiling, where the request alone moves the point and where the ceiling does. -/
theorem witness_bothMove :
    let c (kept wait : BitVec 3) : Core := { opPwin := true, opReq := 3, opEff := 3, opKept := some kept, opWait := some wait }
    let low (p w : BitVec 3) : BitVec 3 := if p.toNat ≤ w.toNat then p else w
    (low 1 4 ≠ (c 1 4).opEff ∧ low 3 4 = (c 1 4).opEff) ∧ (low 5 2 ≠ (c 5 2).opEff ∧ low 3 2 ≠ (c 5 2).opEff) := by decide
/-- A last grace bundle that was an EXIT; two chunks that are switched out, one of them unsaved. -/
theorem witness_lastGrace :
    let c : Core := { run := .running, seg := { exiting := true }, preempt := some 0 }
    let k : Chunk := { launch := 4, ctx := 0, prio := 0, lo := 0, hi := 6, next := 1, cur := 0, gang := false, started := true }
    let r (bmask savedMask : BitVec 16) : Saved := { chunk := k, kernel := { bmask }, arch := {}, ckaddr := 64, tiles := [], accs := [], b0 := {}, b1 := {}, log := [], wins := [], svbase := 0, tcmp := 0, sq := [], banks := [], savedMask, spPoison := [], parked := false, posts := [], rolls := 0, arrived := [], rdvDone := false, replayed := false, e := [] }
    c.run = .running ∧ c.seg.exiting = true ∧ c.preempt = some 0 ∧ ([r 1 0, r 1 1].filter fun x => decide (x.savedMask = 0 ∧ x.kernel.bmask ≠ 0)).length ≤ 1 ∧
    ∀ x ∈ [r 1 0, r 1 1], x.savedMask ≠ 0 ∨ x.kernel.bmask &&& 2 = 0 := by decide +kernel
/-- A VAMO to host memory on its way, from a core whose host access takes too long and from one whose does not. -/
theorem witness_lateVamo :
    let q : Chunk := { launch := 0, ctx := 5, prio := 0, lo := 0, hi := 1, next := 1, cur := 0, gang := false }
    let pa := 0xC000000000000
    let f : Flight := ⟨0, 0, 5, .vamo pa 64 0 0 32 5 15, 0⟩
    let s (hostSlow : Bool) : State := { on0 { chunk := some q, run := .running, hostSlow } with flight := [f], pkg := { s0.pkg with hostUp := true } }
    (∀ b : Bool, (s b).flightReady 0 = true ∧ (s b).pkg.hostHeld.has (pa / 64) = false ∧ (s b).linkCause pa = 0 ∧ (s b).hostLate 0 pa = b) ∧
    ((s true).core 0).run = .running ∧ (s true).ctxOf 0 = 5 ∧ ((s true).core 0).keepErr = false ∧ pa % 32 = 0 := by
  refine ⟨fun b => ?_, ?_, ?_, ?_, ?_⟩
  · cases b <;> decide +kernel
  all_goals decide +kernel
/-- What a bundle of core 0 meets once it is fetched and nothing holds it: p of the bundle, the state before its operations, and these. -/
def atIssue (s : State) (p : Bundle → State → List (SlotOp × Uses) → Bool) : Bool :=
  let d := s.modCore 0 Core.drain
  let c := d.core 0
  let start : State := { d.setCore 0 (if c.seg.restart then c else c.tick) with issue := { core := 0, haddr := c.pc } }
  c.run == .running && !c.seg.exitDone && !c.seg.exiting && !c.clash && c.preempt.isNone && c.grp.n == 0 && c.grp.holds.isEmpty && !d.energyHeld 0 &&
    match start.nextWords 0 with
    | (.ok ws, u) => match bundleOf ws with
      | .ok b =>
        let v : State := { u with issue := { core := 0, haddr := c.pc, len := b.hdr.len.toNat, ck := b.hdr.ck, stop := b.hdr.stop, relN := (u.core 0).seg.rel.length,
                                             since := some (u.seq, (u.core 0).arch.lands.length) } }
        let l := (goodOps (opsOf b (mainIssuer 0))).map fun q => (q, q.uses v)
        !(v.groupHeld 0 (l.map Prod.fst)) && !(u.core 0).keepErr && (v.headerCause (mainIssuer 0) b l).isNone && (v.encodingCause (opsOf b (mainIssuer 0))).isNone && p b v l
      | _ => false
    | _ => false
/-- The bundle with CK set, at core 0 with the given part of its state. -/
def ckBundle (f : Core → Core) : State := ((bundle 0 0).writePhys 4098 [0x30]).modCore 0 f
set_option maxRecDepth 20000 in
/-- A checkpoint bundle whose commit can be made, with a post to send; one that waits for a load; one that meets data in DQ; one that is issued
again after a rollback; and a commit that sends two entries. -/
theorem witness_checkpointBundles :
    let same (v : State) : Bool := (v.core 0).seg.restart && !(v.core 0).seg.again
    let e : DqEntry := ⟨0, 7, 5, [], 0, 0, some 1, 0, 2, (0, 0)⟩
    let c : Core := { seg := { rel := [.store 64 64 0 5 1, .pair 128 64 3 0 1], count := 4 } }
    (atIssue (ckBundle fun c => { c with seg := { c.seg with rel := [.post 1 2 1], restart := false } }) fun b v l => b.hdr.ck && !same v && (v.commitWait 0 (v.rdvOf (l.map Prod.fst))).isNone &&
      let z := v.commit 0 (v.core 0).pc
      let y := z.rdvGo 0 (v.rdvOf (l.map Prod.fst))
      (z.stopAtCommit 0).isNone && l.all (fun q => y.cur.grp.breaks (l.any fun q => q.2.push) q.2 == false) &&
        match State.runOps (inOrder (l.map Prod.fst)) { y with issue := { y.issue with relN := 0, since := some (y.seq, (v.core 0).arch.lands.length) } } [] with
        | .next (t, ts) => ts.isEmpty && !t.issue.stall && t.flight.length == 1 && (t.core 0).seg.rel.isEmpty
        | _ => false) = true ∧
    (atIssue (ckBundle fun c => { c with seg := { c.seg with restart := false }, loads := [{ seq := 0, tok := 0, dst := .s 1 3 false, pieces := [], cls := 0, u := 2 }] }) fun b v l =>
      b.hdr.ck && !same v && match v.commitWait 0 (v.rdvOf (l.map Prod.fst)) with | some none => true | _ => false) = true ∧
    (atIssue (ckBundle fun c => { c with seg := { c.seg with restart := false }, dq := [e] }) fun b v l =>
      b.hdr.ck && !same v && match v.commitWait 0 (v.rdvOf (l.map Prod.fst)) with | some (some x) => x.cause == 0x1C6 | _ => false) = true ∧
    (atIssue (ckBundle fun c => { c with seg := { c.seg with restart := true, again := false } }) fun b v l => b.hdr.ck && same v &&
      match State.runOps (inOrder (l.map Prod.fst)) { v with issue := { v.issue with relN := 0 } } [] with | .next (t, ts) => ts.isEmpty && !t.issue.stall | _ => false) = true ∧
    (c.seg.forks = [] ∧ (∀ r ∈ c.seg.rel, r.kind.isSome = true) ∧ ((on0 c).commit 0 4096).flight.map (fun f => (f.seq, f.rel)) = [(0, .store 64 64 0 5 1), (1, .pair 128 64 3 0 1)]) := by
  refine ⟨?_, ?_, ?_, ?_, ?_, ?_, ?_⟩ <;> decide +kernel
/-- A queue read and a load that find no line lost, with no key command under way. -/
theorem witness_readsWithoutLoss :
    let p : Piece := ⟨64, 64, 8, 0, 64⟩
    let e : DqEntry := ⟨0, 7, 3, [p], 0, 0, none, 0, 2, (64, 1)⟩
    let s : State := on0 { dq := [e] }
    s.pkg.keyOp = [] ∧ (s.readPieces (s.mainWho 0) (s.seenBy 0 e.relN) e.u (decide (e.z < 4)) e.pieces).2.stopq = s.stopq := by decide +kernel
/-- An atomic with its line in HBM: no host access ends late, nothing is isolated, no line is lost; a write of the new value; one that writes nothing. -/
theorem witness_atomicAnswered :
    let t := ctl.fetchData { agentOf 256 64 with id := 1000 } 0 8 64 2
    let h := t.2.hostTouch 0 8 true
    ctl.hostLate (agentOf 256 64).id 0 = false ∧ tierOf 0 ≠ .tier2 ∧ h.lostSince ctl 64 (· == 0) = false ∧
    (h.performWrite (agentOf 256 64) 0 255 (bytesOf 8 5) 64).1 = 0 ∧ ((h.performWrite (agentOf 256 64) 0 255 (bytesOf 8 5) 64).2.lostSince ctl 64 (· == 0)) = false := by decide +kernel
/-- An operation that traps within a bundle, which its words give. -/
theorem witness_trappingOperation : ∃ q, slotOp .cmp .s 0x40038411 0 = .ok q ∧ decodeSlot .cmp .s 0x40038411 0 = .ok (.ldsp (op .s) ⟨7, 1, 0, 1, 0, 1, 0, 0⟩) ∧
    (match exec (.ldsp (op .s) ⟨7, 1, 0, 1, 0, 1, 0, 0⟩) (s1Is 1) with | .next t => !t.issue.stall && t.issue.trap.isSome | _ => false) = true := ⟨_, rfl, rfl, by decide +kernel⟩
theorem witness_guardsFalse : encodeParts (.vadd ⟨.v0, 1, false, none⟩ ⟨4, 5, 6, 1⟩) ≠ none ∧ s0.anyGuard ⟨.v0, 1, false, none⟩ = false ∧
    encodeParts (.ld ⟨.s, 1, false, none⟩ ⟨1, 0, 0, 0, 0, 0, 0, 0, 0, 0⟩) ≠ none ∧ s0.guard0 ⟨.s, 1, false, none⟩ = false ∧
    WellFormed false (.ld ⟨.s, 1, false, none⟩ ⟨1, 0, 0, 0, 0, 0, 0, 0, 0, 0⟩) = true := ⟨by simp [encodeParts], rfl, by simp [encodeParts], rfl, rfl⟩
/-- One operation of each kind of result answers a next state without a trap. -/
theorem witness_registerFrames : ∀ i ∈ ([.cmp (op .s) ⟨1, 0, 0, 0⟩, .cadv (op .x) ⟨0, 0, 0, 0, 1, 0⟩, .xfr (op .s) ⟨.s, .x, 0, 0, 0⟩, .vadd (op .v0) ⟨1, 2, 3, 0⟩, .vfadd (op .v0) ⟨0, 0, 0, 0, 0, 0, 9⟩,
    .vcvt (op .v0) ⟨0, 0, 0, 0, 0, 0, 9, 8⟩, .vqntE4m3 (op .v0) ⟨0, 0, 0, 0, 0, 0, 0, 9⟩] : List Instr), (match exec i s0 with | .next t => t.issue.trap.isNone | _ => false) = true := by decide +kernel
/-- Stores of a control core outside every window, a vector store with and without an active element, a vector atomic; the scratchpad's stores; a
VAMO that is performed. -/
theorem witness_storeFrames :
    let a : State := on0 { arch := { s := [(1, 0x40)], v := [(1, 0x40)] }, kernel := { bmask := 1 } }
    let f : Flight := ⟨0, 0, 5, .vamo 0 64 0 0 32 5 15, 0⟩
    let b : State := { s0.l2Access 0 { ctx := 64, key := 64, secs := 3, u := 2 } with flight := [f] }
    (∀ q ∈ [(ctl, Instr.vst (op .v0) ⟨1, 0, 0, 0, 0, 0, 0, 0⟩), (ctl, .vst ⟨.v0, 1, false, none⟩ ⟨1, 0, 0, 0, 0, 0, 0, 0⟩), (ctl, .vamoAdd (op .v0) ⟨1, 2, 0, 2, 0⟩),
        (a, .stsp (op .s) ⟨1, 1, 0, 3, 0, 0, 0⟩), (a, .vstsp (op .v0) ⟨1, 1, 0, 0, 0, 0, 0, 0⟩)],
      (match exec q.2 q.1 with | .next t => t.issue.trap.isNone | _ => false) = true) ∧
    (ctl.xlateR .atomic 0 32).toOption.isSome = true ∧ ctl.guardE (op .v0) 32 0 = true ∧
    (b.flightReady 0 = true ∧ b.l2Err = [] ∧ b.l2Cor = [] ∧ (match exec (.homeSliceAccess 0) b with | .next t => SMap.getD t.mem 0 0 == 5 && SMap.getD t.mem 32 0 == 0 | _ => false) = true) := by
  refine ⟨?_, ?_, ?_, ?_, ?_, ?_, ?_⟩ <;> decide +kernel
/-- A cause of a lost line on a main sequencer and on the service sequencer; a rollback of a control core that meets an error. -/
theorem witness_lossEntry : (lossAt 64).cause = 0x142 ∧ s0.issue.svc = false ∧ svc.issue.svc = true ∧
    (let c : State := { State.reset.setCore 256 { keepErr := true } with issue := { core := 256 } }
     c.cur.keepErr = true ∧ c.issue.svc = false ∧ (((c.takeTrap { cause := 0x082 }).core 256).trec.cause = 0x208)) := by decide +kernel
/-- A parity error at core numbers that exist and at one that does not. -/
theorem witness_parity : WellFormed false (.patrolScrub (.parity 263 0)) = true ∧ WellFormed false (.patrolScrub (.parity 264 0)) = false := by decide +kernel

end Sys2Proof.Tests
end

section
/-! SUPPORT. Writes of I/O-die registers (R5, R6, R29, R56, R161, R162): the bits that a write leaves, the offsets that a run of registers
takes up, and the write of a register that has no effect beyond its own bits. -/
namespace Sys2Proof.Machine
open Sys2Proof

/-! Fields of words and numbers. -/

theorem testBit_bits (x lo w i : Nat) : (bits x lo w).testBit i = (decide (i < w) && x.testBit (lo + i)) := by
  rw [bits, Nat.testBit_mod_two_pow, Nat.testBit_div_two_pow, Nat.add_comm]

theorem getLsbD_setBits {n : Nat} (x : BitVec n) (lo w v : Nat) {i : Nat} (hi : i < n) :
    (setBits x lo w v).getLsbD i = if lo ≤ i ∧ i < lo + w then v.testBit (i - lo) else x.getLsbD i := by
  simp only [setBits, BitVec.getLsbD_or, BitVec.getLsbD_and, BitVec.getLsbD_not, BitVec.getLsbD_ofNat, hi, decide_true, Bool.true_and,
    Nat.testBit_mul_two_pow, Nat.testBit_two_pow_sub_one, Nat.testBit_mod_two_pow]
  by_cases hlo : lo ≤ i
  · have hw : i - lo < w ↔ i < lo + w := by omega
    by_cases hin : i < lo + w <;> simp [hlo, hw, hin]
  · simp [hlo]

/-- A field reads as before when another field beside it is set. -/
theorem bits_setBits_disjoint {n : Nat} (x : BitVec n) {lo w lo' w' : Nat} (v : Nat) (h : lo + w ≤ lo' ∨ lo' + w' ≤ lo) :
    bits (setBits x lo w v).toNat lo' w' = bits x.toNat lo' w' := by
  apply Nat.eq_of_testBit_eq
  intro i
  rw [testBit_bits, testBit_bits]
  by_cases hi : i < w'
  · by_cases hn : lo' + i < n
    · have hout : ¬ (lo ≤ lo' + i ∧ lo' + i < lo + w) := by omega
      rw [BitVec.testBit_toNat, BitVec.testBit_toNat, getLsbD_setBits x lo w v hn, if_neg hout]
    · simp [BitVec.testBit_toNat, BitVec.getLsbD_of_ge _ _ (Nat.le_of_not_lt hn)]
  · simp [hi]

/-- A write of the register that holds `old` sets bit `i`: an RW bit, or an RWL bit whose lock reads 0. -/
def IoReg.takes (r : IoReg) (old : Word) (i : Nat) : Bool :=
  r.rw.getLsbD i || (r.rwl.getLsbD i && !(decide (r.lock < 64) && old.getLsbD r.lock))

theorem IoReg.takes_iff (r : IoReg) (old : Word) (i : Nat) :
    r.takes old i = true ↔ r.rw.getLsbD i = true ∨ (r.rwl.getLsbD i = true ∧ ¬ (r.lock < 64 ∧ old.getLsbD r.lock = true)) := by
  simp only [IoReg.takes, Bool.or_eq_true, Bool.and_eq_true, Bool.not_eq_true', ← Bool.not_eq_true, decide_eq_true_eq]

theorem IoReg.getLsbD_written_eq_takes (r : IoReg) (old v : Word) {i : Nat} (hi : i < 64) :
    (r.written old v).getLsbD i =
      ((old.getLsbD i && !r.takes old i || v.getLsbD i && r.takes old i) && !(v.getLsbD i && r.w1c.getLsbD i)) := by
  have hzero : (0 : Word).getLsbD i = false := BitVec.getLsbD_zero
  cases hlock : decide (r.lock < 64) && old.getLsbD r.lock <;>
    simp only [IoReg.written, IoReg.takes, hlock, hzero, BitVec.getLsbD_or, BitVec.getLsbD_and, BitVec.getLsbD_not, hi, decide_true,
      Bool.true_and, Bool.not_true, Bool.not_false, Bool.and_true, Bool.and_false, if_true, if_false, reduceCtorEq]

/-- The access codes of R5, bit by bit: W1C bits that are written 1 read 0; RW bits, and RWL bits without their lock, take the value. -/
theorem IoReg.getLsbD_written (r : IoReg) (old v : Word) {i : Nat} (hi : i < 64) :
    (r.written old v).getLsbD i =
      (if r.w1c.getLsbD i = true ∧ v.getLsbD i = true then false
       else if r.rw.getLsbD i = true ∨ (r.rwl.getLsbD i = true ∧ ¬ (r.lock < 64 ∧ old.getLsbD r.lock = true)) then v.getLsbD i
       else old.getLsbD i) := by
  simp only [← IoReg.takes_iff, r.getLsbD_written_eq_takes old v hi]
  -- what remains is a truth table of the three bits
  cases r.w1c.getLsbD i <;> cases r.takes old i <;> cases v.getLsbD i <;> simp

/-! Registers in runs. -/

theorem ioIdx_eq_some {o base step n i : Nat} (hs : 0 < step) (hi : i < n) (ho : o = base + step * i) : ioIdx o base step n = some i := by
  subst ho
  simp [ioIdx, Nat.mul_div_cancel_left i hs, hi]

theorem ioIdx_bounds {o base step n : Nat} (hs : 0 < step) (h : (ioIdx o base step n).isSome = true) : base ≤ o ∧ o < base + step * n := by
  by_cases hc : base ≤ o ∧ (o - base) % step = 0 ∧ (o - base) / step < n
  · obtain ⟨hbase, _, hn⟩ := hc
    have hlt : o - base < n * step := (Nat.div_lt_iff_lt_mul hs).mp hn
    rw [Nat.mul_comm] at hlt
    omega
  · simp [ioIdx, hc] at h

theorem ioIdx_eq_none {o base step n : Nat} (hs : 0 < step) (h : o < base ∨ base + step * n ≤ o) : ioIdx o base step n = none := by
  by_contra hne
  have := ioIdx_bounds hs (Option.isSome_iff_ne_none.mpr hne)
  omega

/-! The machine's own change of a field. -/

@[simp] theorem State.ioGet_ioField_self (s : State) (o lo w v : Nat) : (s.ioField o lo w v).ioGet o = setBits (s.ioGet o) lo w v :=
  State.ioGet_ioSet_self ..
theorem State.ioGet_ioField_ne (s : State) {o q : Nat} (lo w v : Nat) (h : o ≠ q) : (s.ioField o lo w v).ioGet q = s.ioGet q :=
  State.ioGet_ioSet_ne s _ h

/-! Which register a write of the host reaches: BAR0's mirror, and beyond it BAR2 and the HDM decoder's base. -/

theorem exec_registerWrite_eq_hostWrite (s : State) (o : Nat) (v : Word) : exec (.registerWrite o v) s = .next (s.hostWrite o v) :=
  exec_registerWrite o v s

theorem State.hostWrite_mirror (s : State) {o : Nat} (v : Word) (hlo : 0x40 ≤ o) (hhi : o < 2 ^ 26) : s.hostWrite o v = s.ioWrite o v := by
  rw [State.hostWrite, if_neg (by omega), if_neg (by simp only [bar2At]; omega), if_neg (by simp only [hdmAt]; omega)]

theorem State.hostWrite_bar2 (s : State) {i : Nat} (v : Word) (hi : i < 1024) :
    s.hostWrite (2 ^ 26 + 8 * i) v = s.modPkg fun p => { p with bar2 := p.bar2.put 0 i v } := by
  have hidx : (2 ^ 26 + 8 * i - bar2At) / 8 = i := by simp only [bar2At]; omega
  rw [State.hostWrite, if_neg (by omega), if_pos (by simp only [bar2At]; omega), hidx]

theorem State.hostWrite_hdm (s : State) (v : Word) : s.hostWrite (2 ^ 27) v = s.modPkg fun p => { p with hdmBase := v.setWidth 52 } := rfl

theorem State.hostWrite_mail (s : State) {o : Nat} (v : Word) (h : o < 0x40) : s.hostWrite o v = s.mailWrite o v := if_pos h

theorem State.mailWrite_cmd_accepted (s : State) {v : Word} (hstop : s.pkg.stopped = true) (hfree : s.pkg.mbox.status ≠ 0) (hv : v = 1 ∨ v = 2) :
    s.mailWrite 0 v = s.modPkg fun p => { p with mbox := { s.pkg.mbox with cmd := 0, status := 0, run := v.toNat } } := by
  have hopen : ¬ ((0 : Nat) ≠ 0 ∨ (!s.pkg.stopped) = true ∨ s.pkg.mbox.status = 0) := by simp only [hstop, hfree]; decide
  unfold State.mailWrite
  dsimp only
  rw [if_neg (by decide), if_neg (by decide), if_neg hopen, if_pos hv]

theorem State.mailWrite_cmd_ignored (s : State) (v : Word) (h : s.pkg.stopped = false ∨ s.pkg.mbox.status = 0) : s.mailWrite 0 v = s := by
  have hshut : (0 : Nat) ≠ 0 ∨ (!s.pkg.stopped) = true ∨ s.pkg.mbox.status = 0 := .inr (by simpa only [Bool.not_eq_true'] using h)
  unfold State.mailWrite
  dsimp only
  rw [if_neg (by decide), if_neg (by decide), if_pos hshut]

theorem State.ioWrite_unnamed (s : State) {o : Nat} (v : Word) (h : ioReg o = none) : s.ioWrite o v = s := by
  simp [State.ioWrite, h]

/-! Registers whose write changes their own bits and nothing else. -/

/-- The runs of registers (base, step and number) whose write has an effect beyond their bits, or needs another register's leave. -/
def runsWithEffect : List (Nat × Nat × Nat) :=
  [(0x0480, 8, 8), (0x0720, 8, 4), (0x1008, 16, 64), (0x2000, 16, 64), (0x4040, 8, 7), (0x6C00, 8, 256), (0x8800, 8, 1024), (0xD000, 8, 1024),
    (0xF100, 8, 264), (0xFA00, 8, 64)]

/-- The single registers of that kind. -/
def singlesWithEffect : List Nat := [0x0500, 0x0508, 0x4018, 0x8308, 0xF008]

/-- Offsets from `lo` to below `hi`: of BAR0's mirror outside the mailbox line, and of no register with an effect beyond its own bits. -/
abbrev PlainRange (lo hi : Nat) : Prop :=
  0x40 ≤ lo ∧ hi ≤ 2 ^ 26 ∧ (∀ p ∈ singlesWithEffect, p < lo ∨ hi ≤ p) ∧ ∀ q ∈ runsWithEffect, hi ≤ q.1 ∨ q.1 + q.2.1 * q.2.2 ≤ lo

abbrev PlainOffset (o : Nat) : Prop := PlainRange o (o + 1)

theorem PlainRange.offset {lo hi o : Nat} (h : PlainRange lo hi) (hlo : lo ≤ o) (hhi : o < hi) : PlainOffset o := by
  obtain ⟨hmail, hmirror, hsingle, hrun⟩ := h
  refine ⟨by omega, by omega, fun p hp => ?_, fun q hq => ?_⟩
  · have := hsingle p hp
    omega
  · have := hrun q hq
    omega

theorem PlainRange.offset_of_run {o base n : Nat} (h : PlainRange base (base + 8 * n)) (hrun : (ioIdx o base 8 n).isSome = true) : PlainOffset o :=
  have ⟨hlo, hhi⟩ := ioIdx_bounds (by decide) hrun
  h.offset hlo hhi

theorem PlainOffset.ioIdx_eq_none {o : Nat} (h : PlainOffset o) {base step n : Nat} (hq : (base, step, n) ∈ runsWithEffect) : ioIdx o base step n = none := by
  obtain ⟨_, _, _, hrun⟩ := h
  have hstep : ∀ q ∈ runsWithEffect, 0 < q.2.1 := by decide
  exact Machine.ioIdx_eq_none (hstep _ hq) (hrun _ hq)

theorem PlainOffset.ne {o : Nat} (h : PlainOffset o) {p : Nat} (hp : p ∈ singlesWithEffect) : o ≠ p := by
  obtain ⟨_, _, hsingle, _⟩ := h
  have := hsingle p hp
  omega

theorem PlainOffset.ioEffect_eq {o : Nat} (h : PlainOffset o) (s : State) (old v : Word) : s.ioEffect o old v = s := by
  simp (disch := decide) only [State.ioEffect, h.ne, if_false, h.ioIdx_eq_none]

/-- A write of such a register leaves its own bits as R5 gives them, and all else as it was. -/
theorem PlainOffset.hostWrite_eq {o : Nat} (h : PlainOffset o) (s : State) (v : Word) {r : IoReg} (hr : ioReg o = some r) :
    s.hostWrite o v = s.ioSet o (r.written (s.ioGet o) v) := by
  have ⟨hlo, hhi, _, _⟩ := h
  rw [s.hostWrite_mirror v hlo hhi, State.ioWrite, hr]
  simp (disch := decide) only [h.ioIdx_eq_none, h.ioEffect_eq, Option.isSome_none, Bool.false_and, Bool.false_eq_true, if_false]

/-- The registers that the obligation lists are plain. -/
theorem plainOffset_of_listed {o : Nat} (h : o ∈ [0x0400, 0x0408, 0x0410, 0x0510, 0x4000, 0x6800, 0x6808, 0x8200, 0xF000] ∨
      (ioIdx o 0x4100 8 8).isSome = true ∨ (ioIdx o 0x4180 8 8).isSome = true ∨ (ioIdx o 0x6900 8 64).isSome = true ∨
      (ioIdx o 0x8000 8 64).isSome = true ∨ (ioIdx o 0xB000 8 256).isSome = true) : PlainOffset o := by
  have hlist : ∀ p ∈ [0x0400, 0x0408, 0x0410, 0x0510, 0x4000, 0x6800, 0x6808, 0x8200, 0xF000], PlainOffset p := by decide
  obtain h | h | h | h | h | h := h
  · exact hlist o h
  all_goals exact PlainRange.offset_of_run (by decide) h

/-! The region table. -/

/-- The four runs of the region table are named registers. -/
theorem ioReg_isSome_of_region {o : Nat} (h : (ioIdx o 0xD000 32 256).isSome = true ∨ (ioIdx o 0xD008 32 256).isSome = true ∨
    (ioIdx o 0xD010 32 256).isSome = true ∨ (ioIdx o 0xD018 32 256).isSome = true) : (ioReg o).isSome = true := by
  simp only [ioReg, Option.orElse_eq_orElse, Option.orElse_eq_or, Option.isSome_or, Option.isSome_map, Bool.or_eq_true]
  obtain h | h | h | h := h <;> simp only [h, true_or, or_true]

theorem ioReg_region_isSome {r w : Nat} (hr : r < 256) (hw : w < 4) : (ioReg (0xD000 + 32 * r + 8 * w)).isSome = true := by
  have hidx : (ioIdx (0xD000 + 32 * r + 8 * w) (0xD000 + 8 * w) 32 256).isSome = true :=
    Option.isSome_of_eq_some (ioIdx_eq_some (by decide) hr (by omega))
  apply ioReg_isSome_of_region
  obtain rfl | rfl | rfl | rfl : w = 0 ∨ w = 1 ∨ w = 2 ∨ w = 3 := by omega
  · exact .inl hidx
  · exact .inr (.inl hidx)
  · exact .inr (.inr (.inl hidx))
  · exact .inr (.inr (.inr hidx))

theorem ioIdx_region {r w : Nat} (hr : r < 256) (hw : w < 4) : ioIdx (0xD000 + 32 * r + 8 * w) 0xD000 8 1024 = some (4 * r + w) :=
  ioIdx_eq_some (by decide) (by omega) (by omega)

theorem region_of_index {r w : Nat} (hw : w < 4) : (4 * r + w) / 4 = r ∧ (4 * r + w) % 4 = w := by omega

/-- A region's registers are written by the same write from the host, by a supervisor and by the event of the table. -/
theorem State.ioWrite_region (s : State) {r w : Nat} (v : Word) (hr : r < 256) (hw : w < 4) :
    s.ioWrite (0xD000 + 32 * r + 8 * w) v = s.regionWrite r w v := by
  obtain ⟨_, hreg⟩ := Option.isSome_iff_exists.mp (ioReg_region_isSome hr hw)
  have ⟨hdiv, hmod⟩ := region_of_index (r := r) hw
  simp only [State.ioWrite, hreg, ioIdx_region hr hw, hdiv, hmod]

theorem exec_regionRegisterWrite_region (s : State) {r w : Nat} (v : Word) (hr : r < 256) (hw : w < 4) :
    exec (.regionRegisterWrite (0xD000 + 32 * r + 8 * w) v) s = .next (s.regionWrite r w v) := by
  have ⟨hdiv, hmod⟩ := region_of_index (r := r) hw
  simp only [exec_regionRegisterWrite, execRegionRegisterWrite, ioIdx_region hr hw, hdiv, hmod]

/-- The machine's own change of V of a region. -/
def State.setRgnV (s : State) (r : Nat) (b : Bool) : State := s.ioField (0xD000 + 32 * r) 0 1 (if b then 1 else 0)

@[simp] theorem State.setRgnV_mem (s : State) (r : Nat) (b : Bool) : (s.setRgnV r b).mem = s.mem := rfl

@[simp] theorem State.rgnV_setRgnV (s : State) (r : Nat) (b : Bool) : (s.setRgnV r b).rgnV r = b := by
  rw [State.rgnV, State.setRgnV, State.ioGet_ioField_self, getLsbD_setBits _ _ _ _ (by decide)]
  cases b <;> rfl

/-- Whether an entry is well formed does not depend on its V. -/
@[simp] theorem State.regionOk_setRgnV (s : State) (r : Nat) (b : Bool) : (s.setRgnV r b).regionOk r = s.regionOk r := by
  have hbase : (s.setRgnV r b).rgnBase r = s.rgnBase r := by
    simp only [State.rgnBase, State.setRgnV, State.ioGet_ioField_self, bits_setBits_disjoint _ _ (show 0 + 1 ≤ 6 ∨ _ from .inl (by decide))]
  have hword : (s.setRgnV r b).ioGet (0xD008 + 32 * r) = s.ioGet (0xD008 + 32 * r) := State.ioGet_ioField_ne s _ _ _ (by omega)
  unfold State.regionOk State.rgnOp State.rgnLines State.rgnFxp
  rw [decide_eq_decide, hbase, hword]

/-- A write of register `w` of region `r` in the register's own bits, before V follows R162. -/
def State.regionPut (s : State) (r w : Nat) (v : Word) : State :=
  let o := 0xD000 + 32 * r + 8 * w
  s.ioSet o (((ioReg o).getD {}).written (s.ioGet o) v)

@[simp] theorem State.regionPut_mem (s : State) (r w : Nat) (v : Word) : (s.regionPut r w v).mem = s.mem := rfl

/-- R162 for an entry whose V is 0: nothing is pending that the write would apply, and V follows the write of its own bit and the form of
the entry as it then stands. -/
theorem State.regionWrite_of_invalid {s : State} {r : Nat} (w : Nat) (v : Word) (hV : s.rgnV r = false) :
    s.regionWrite r w v = (s.regionPut r w v).setRgnV r (decide (w = 0) && v.getLsbD 0 && (s.regionPut r w v).regionOk r) := by
  have hwant : (if w = 0 then v.getLsbD 0 else false) = (decide (w = 0) && v.getLsbD 0) := by
    by_cases hw : w = 0 <;> simp [hw]
  simp only [State.regionWrite, hV, Bool.false_eq_true, if_false, hwant]
  rfl

end Sys2Proof.Machine

namespace Sys2Proof.Proofs
open Sys2Proof Sys2Proof.Machine

/-- Settles O47: a register of the list is plain, so that a write leaves what `IoReg.written` gives, and a region whose V is 0 takes V from
the write and from its form alone. -/
theorem registerWriteResults : Obligations.RegisterWriteResults := by
  unfold Obligations.RegisterWriteResults
  intro s o v
  refine ⟨fun hlo hhi hnone => ?_, ⟨?_, ?_, ?_, ?_⟩, fun i hi => ?_, ?_, fun r hr hlisted => ?_, fun r w hr hw ho hV => ?_⟩
  · rw [exec_registerWrite_eq_hostWrite, s.hostWrite_mirror v hlo hhi, s.ioWrite_unnamed v hnone]
  · rfl
  · rfl
  · intro hstop hfree hv
    rw [exec_registerWrite_eq_hostWrite, s.hostWrite_mail v (by decide), s.mailWrite_cmd_accepted hstop hfree hv]
    rfl
  · intro hshut
    rw [exec_registerWrite_eq_hostWrite, s.hostWrite_mail v (by decide), s.mailWrite_cmd_ignored v hshut]
  · rw [exec_registerWrite_eq_hostWrite, s.hostWrite_bar2 v hi]
    rfl
  · rw [exec_registerWrite_eq_hostWrite, s.hostWrite_hdm v]
    rfl
  · refine ⟨_, by rw [exec_registerWrite_eq_hostWrite, (plainOffset_of_listed hlisted).hostWrite_eq s v hr],
      fun p hp => State.ioGet_ioSet_ne s _ hp.symm, rfl, rfl, rfl, fun i hi => ?_⟩
    rw [State.ioGet_ioSet_self, r.getLsbD_written _ _ hi]
  · subst ho
    have hwrite := State.regionWrite_of_invalid w v hV
    refine ⟨_, exec_regionRegisterWrite_region s v hr hw, by rw [hwrite, State.setRgnV_mem, State.regionPut_mem],
      fun hpos => ?_, fun hzero => ?_, fun hone => ?_⟩
    · have hne : w ≠ 0 := Nat.pos_iff_ne_zero.mp hpos
      simp [hwrite, hne]
    · rw [hwrite, State.rgnV_setRgnV, State.regionOk_setRgnV, hzero, decide_eq_true rfl, Bool.true_and]
    · subst hone
      exact ⟨rfl, by rw [exec_registerWrite_eq_hostWrite, s.hostWrite_mirror v (by omega) (by omega), s.ioWrite_region v hr hw]⟩

end Sys2Proof.Proofs
end

section
/-! SUPPORT. The Ethernet ports (R15, R20, R25): a change of one register and of nothing else, the bits of PORT_STATn that a port's events leave,
and the commands that are outstanding on a traffic pair. -/
namespace Sys2Proof.Machine
open Sys2Proof

/-- A bit of a register after the machine has set a field of it. -/
theorem State.getLsbD_ioGet_ioField (s : State) (o lo w v : Nat) {i : Nat} (hi : i < 64) :
    ((s.ioField o lo w v).ioGet o).getLsbD i = if lo ≤ i ∧ i < lo + w then v.testBit (i - lo) else (s.ioGet o).getLsbD i := by
  rw [State.ioGet_ioField_self, getLsbD_setBits _ _ _ _ hi]

theorem bits_setBits_self {n : Nat} (x : BitVec n) {lo w : Nat} (v : Nat) (h : lo + w ≤ n) : bits (setBits x lo w v).toNat lo w = v % 2 ^ w := by
  apply Nat.eq_of_testBit_eq
  intro i
  rw [testBit_bits, Nat.testBit_mod_two_pow]
  by_cases hi : i < w
  · rw [BitVec.testBit_toNat, getLsbD_setBits x lo w v (by omega), if_pos (by omega), Nat.add_sub_cancel_left]
  · simp [hi]

theorem State.ioBits_ioField_self (s : State) (o : Nat) {lo w : Nat} (v : Nat) (h : lo + w ≤ 64) : (s.ioField o lo w v).ioBits o lo w = v % 2 ^ w := by
  rw [State.ioBits, State.ioGet_ioField_self, bits_setBits_self _ _ h]

theorem State.ioBits_ioField_disjoint (s : State) (o : Nat) {lo w lo' w' : Nat} (v : Nat) (h : lo + w ≤ lo' ∨ lo' + w' ≤ lo) :
    (s.ioField o lo w v).ioBits o lo' w' = s.ioBits o lo' w' := by
  rw [State.ioBits, State.ioGet_ioField_self, bits_setBits_disjoint _ _ h, State.ioBits]

/-- A saturating counter of 16 bits counts up to 65,535. -/
theorem State.ioBits_ioCount (s : State) (o : Nat) {lo : Nat} (h : lo + 16 ≤ 64) : (s.ioCount o lo 16).ioBits o lo 16 = min (s.ioBits o lo 16 + 1) 65535 := by
  rw [State.ioCount, State.ioBits_ioField_self _ _ _ h]
  omega

/-- From `s` to `t` the register at `o` may change: no other register, no core, no byte of memory and nothing of the package does. -/
structure State.OnlyReg (o : Nat) (s t : State) : Prop where
  other : ∀ p, p ≠ o → t.ioGet p = s.ioGet p
  cores : t.cores = s.cores
  mem : t.mem = s.mem
  pkg : t.pkg = s.pkg

theorem State.OnlyReg.refl (o : Nat) (s : State) : State.OnlyReg o s s := ⟨fun _ _ => rfl, rfl, rfl, rfl⟩

theorem State.OnlyReg.ioField {o : Nat} {s t : State} (h : State.OnlyReg o s t) (lo w v : Nat) : State.OnlyReg o s (t.ioField o lo w v) :=
  ⟨fun p hp => (t.ioGet_ioField_ne lo w v hp.symm).trans (h.other p hp), h.cores, h.mem, h.pkg⟩

theorem State.OnlyReg.portDown {p : Nat} {s t : State} (h : State.OnlyReg (portReg p) s t) : State.OnlyReg (portReg p) s (t.portDown p) := by
  unfold State.portDown
  split
  · exact (h.ioField 6 1 1).ioField 2 3 0
  · exact h.ioField 2 3 0

/-- A link that goes down: MODE and UP read 0, FLAP is set when the link was up. -/
theorem State.getLsbD_portDown (s : State) (p : Nat) {j : Nat} (hj : j < 64) :
    ((s.portDown p).ioGet (portReg p)).getLsbD j =
      if j = 6 then (s.ioGet (portReg p)).getLsbD 6 || (s.ioGet (portReg p)).getLsbD 4
      else if 2 ≤ j ∧ j ≤ 4 then false else (s.ioGet (portReg p)).getLsbD j := by
  have hmode : 2 ≤ j ∧ j < 2 + 3 ↔ 2 ≤ j ∧ j ≤ 4 := by omega
  have hflap : 6 ≤ j ∧ j < 6 + 1 ↔ j = 6 := by omega
  cases hup : (s.ioGet (portReg p)).getLsbD 4 <;>
    simp only [State.portDown, hup, State.getLsbD_ioGet_ioField _ _ _ _ _ hj, hmode, hflap, Nat.zero_testBit, if_true, if_false,
      Bool.false_eq_true, Bool.or_false, Bool.or_true]
  all_goals
    by_cases h6 : j = 6
    · subst h6; simp
    · simp [h6]

/-- A port that is disabled: EN reads 0, and its link goes down. -/
theorem State.getLsbD_portOff (s : State) (p : Nat) {j : Nat} (hj : j < 64) :
    ((s.portOff p).ioGet (portReg p)).getLsbD j =
      if j = 0 then false else if j = 6 then (s.ioGet (portReg p)).getLsbD 6 || (s.ioGet (portReg p)).getLsbD 4
      else if 2 ≤ j ∧ j ≤ 4 then false else (s.ioGet (portReg p)).getLsbD j := by
  have hen (i : Nat) (hi : i < 64) : ((s.ioField (portReg p) 0 1 0).ioGet (portReg p)).getLsbD i = if i = 0 then false else (s.ioGet (portReg p)).getLsbD i := by
    rw [State.getLsbD_ioGet_ioField _ _ _ _ _ hi, Nat.zero_testBit]
    exact if_congr (by omega) rfl rfl
  rw [State.portOff, State.getLsbD_portDown _ _ hj, hen 6 (by decide), hen 4 (by decide), hen j hj]
  by_cases h0 : j = 0
  · subst h0; rfl
  · simp [h0]

/-- A link that has trained (R15): UP reads 1, and MODE the rate that the partner and HALF allow. -/
theorem State.getLsbD_portTrained (s : State) (p : Nat) (full : Bool) {j : Nat} (hj : j < 64) :
    let fast := full && !(s.ioGet (portReg p)).getLsbD 1
    (((s.ioField (portReg p) 4 1 1).ioField (portReg p) 2 2 (if fast then 2 else 1)).ioGet (portReg p)).getLsbD j =
      if j = 4 then true else if j = 2 then !fast else if j = 3 then fast else (s.ioGet (portReg p)).getLsbD j := by
  intro fast
  rw [State.getLsbD_ioGet_ioField _ _ _ _ _ hj, State.getLsbD_ioGet_ioField _ _ _ _ _ hj]
  obtain rfl | rfl | rfl | ⟨hmode, hup⟩ : j = 4 ∨ j = 2 ∨ j = 3 ∨ ¬ (2 ≤ j ∧ j < 2 + 2) ∧ ¬ (4 ≤ j ∧ j < 4 + 1) := by omega
  · rfl
  · cases fast <;> rfl
  · cases fast <;> rfl
  · rw [if_neg hmode, if_neg hup, if_neg (by omega), if_neg (by omega), if_neg (by omega)]

/-- No command is outstanding on a pair (R20), of a running chunk or of one that has ended. -/
theorem State.pairBusy_eq_false {s : State} {node cls : Nat}
    (hcores : ∀ q ∈ s.cores, ∀ k ∈ q.2.cmds, k.isNet = true → k.sent = true → dNode k.desc = node → k.cls ≠ cls)
    (hloose : ∀ q ∈ s.pkg.loose, q.2.isNet = true → q.2.sent = true → dNode q.2.desc = node → q.2.cls ≠ cls) : s.pairBusy node cls = false := by
  simp only [State.pairBusy, Bool.or_eq_false_iff, List.any_eq_false, Bool.and_eq_true, beq_iff_eq, not_and, and_imp]
  refine ⟨fun q hq hany => ?_, hloose⟩
  obtain ⟨k, hk, ⟨⟨hnet, hsent⟩, hnode⟩, hcls⟩ := by simpa only [List.any_eq_true, Bool.and_eq_true, beq_iff_eq] using hany
  exact hcores q hq k hk hnet hsent hnode hcls

end Sys2Proof.Machine

namespace Sys2Proof.Proofs
open Sys2Proof Sys2Proof.Machine

/-- Settles O33: each event changes fields of PORT_STATn alone, so that its bits can be read off one by one. -/
theorem portResults : Obligations.PortResults := by
  unfold Obligations.PortResults
  intro s port
  have keep := State.OnlyReg.refl (portReg port.toNat) s
  refine ⟨?_, fun full hen => ?_, ?_, ?_, fun node cls p hpair hdown hen hup hreach hcores hloose => ?_⟩
  · have only := keep.portDown
    exact ⟨_, rfl, fun j hj => s.getLsbD_portDown _ hj, only.other, only.cores, only.mem, only.pkg⟩
  · have only := (keep.ioField 4 1 1).ioField 2 2 (if full && !(s.ioGet (portReg port.toNat)).getLsbD 1 then 2 else 1)
    refine ⟨_, congrArg Host.Outcome.next (if_pos hen), fun j hj => ?_, only.other, only.cores, only.mem, only.pkg⟩
    exact s.getLsbD_portTrained port.toNat full hj
  · have only := keep.ioField 16 16 0
    refine ⟨_, rfl, fun j hj => ?_, only.other, only.cores, only.mem, only.pkg⟩
    exact (s.getLsbD_ioGet_ioField _ _ _ _ hj).trans (by rw [Nat.zero_testBit]; rfl)
  · have only := (keep.ioField 0 1 0).portDown
    exact ⟨_, rfl, fun j hj => s.getLsbD_portOff port.toNat hj, only.other, only.cores, only.mem, only.pkg⟩
  · have hto : s.portUp port.toNat = true := by simp only [State.portUp, portReg, hen, hup, Bool.and_self]
    have hfree : s.pairBusy node.toNat cls.toNat = false := State.pairBusy_eq_false hcores hloose
    simp only [exec_portFailover, execPortFailover, hpair, hdown, hto, hreach, hfree, Bool.not_false, Bool.and_self, if_true]
    rfl

end Sys2Proof.Proofs
end

section
/-! The package after reset (R26, R83, R85, R103, R212). -/
namespace Sys2Proof.Proofs
open Sys2Proof Sys2Proof.Machine

/-- Settles O53: the package after reset lists nothing, so every core is `Core.reset` and every register reads what `ioReg` has for it. -/
theorem resetState : Obligations.ResetState := by
  unfold Obligations.ResetState
  refine ⟨reset_memory_wf, fun i hi => absurd hi (List.not_mem_nil), fun c => ⟨rfl, rfl, rfl, rfl, rfl, rfl⟩, rfl, rfl, rfl, ?_, ?_, rfl, rfl⟩
  · decide
  · decide

end Sys2Proof.Proofs
end

section
/-! SUPPORT. What L2 leaves alone (R135-R149, R152-R170): its operations change memory, copies of it, records and registers of memory,
and nothing of the platform. -/
namespace Sys2Proof.Machine
open Sys2Proof

/-- The package but for what it notes of copies and keys: lines that the host holds or is asked for, late keys, a sweep under way. -/
def Pkg.platform (p : Pkg) : Pkg := { p with hostHeld := [], snooped := [], keyLate := [], sweep := false }

/-- From `s` to `t` the platform stands: the package, and every register below those of memory but the expander's EXP_STAT (0x0508), which
counts discarded writes (R45). -/
structure State.KeepsPlatform (s t : State) : Prop where
  pkg : t.pkg.platform = s.pkg.platform
  io : ∀ o < 0x8210, o ≠ 0x0508 → t.ioGet o = s.ioGet o

namespace State.KeepsPlatform

variable {s t u : State}

theorem of_update (hpkg : t.pkg = s.pkg) (hio : t.io = s.io) : KeepsPlatform s t :=
  ⟨by rw [hpkg], fun o _ _ => by rw [State.ioGet, State.ioGet, hio]⟩

/-- Any part of the package that `Pkg.platform` has is as it was. -/
theorem field {α : Type} (h : KeepsPlatform s t) (f : Pkg → α) (hf : ∀ p : Pkg, f p.platform = f p) : f t.pkg = f s.pkg := by
  rw [← hf, h.pkg, hf]

theorem refl (s : State) : KeepsPlatform s s := of_update rfl rfl

theorem trans (h : KeepsPlatform s t) (k : KeepsPlatform t u) : KeepsPlatform s u :=
  ⟨k.pkg.trans h.pkg, fun o ho hne => (k.io o ho hne).trans (h.io o ho hne)⟩

/-- A further change of neither the package nor a register. -/
theorem update (h : KeepsPlatform s t) (hpkg : u.pkg = t.pkg) (hio : u.io = t.io) : KeepsPlatform s u := h.trans (of_update hpkg hio)

theorem setReg (s : State) {o : Nat} (v : Word) (ho : 0x8210 ≤ o ∨ o = 0x0508) : KeepsPlatform s (s.ioSet o v) :=
  ⟨rfl, fun p hp hne => s.ioGet_ioSet_ne v (by omega)⟩

theorem cond (c : Prop) [Decidable c] (ht : KeepsPlatform s t) (hu : KeepsPlatform s u) : KeepsPlatform s (if c then t else u) := by
  split
  · exact ht
  · exact hu

/-- A fold keeps the platform when each of its steps does. -/
theorem foldl {α : Type} {f : State → α → State} (hf : ∀ u x, KeepsPlatform u (f u x)) (l : List α) (s : State) : KeepsPlatform s (l.foldl f s) := by
  induction l generalizing s with
  | nil => exact refl s
  | cons x l ih => exact (hf s x).trans (ih (f s x))

/-- The same for a fold that carries the package in a part of its value. -/
theorem foldlIn {α β : Type} (view : β → State) {f : β → α → β} (hf : ∀ q x, KeepsPlatform (view q) (view (f q x))) (l : List α) (q : β) :
    KeepsPlatform (view q) (view (l.foldl f q)) := by
  induction l generalizing q with
  | nil => exact refl (view q)
  | cons x l ih => exact (hf q x).trans (ih (f q x))

end State.KeepsPlatform

open State.KeepsPlatform

/-! Charges, records, retired frames. -/

theorem State.keepsPlatform_charge (s : State) (ctx k n : Nat) : KeepsPlatform s (s.charge ctx k n) :=
  KeepsPlatform.cond _ (KeepsPlatform.setReg s _ (.inl (by omega))) (refl s)

theorem State.keepsPlatform_lineRecord (s : State) (kind flags owner ctx line way : Nat) : KeepsPlatform s (s.lineRecord kind flags owner ctx line way) :=
  of_update rfl rfl

theorem State.keepsPlatform_wdrop (s : State) : KeepsPlatform s s.wdrop := KeepsPlatform.setReg s _ (.inr rfl)

theorem State.keepsPlatform_overflowed (s : State) (r : Nat) : KeepsPlatform s (s.overflowed r) := KeepsPlatform.setReg s _ (.inl (by omega))

theorem State.keepsPlatform_retireFrame (s : State) (pa : Nat) : KeepsPlatform s (s.retireFrame pa).1 := by
  unfold State.retireFrame
  dsimp only
  split
  · exact refl s
  · split
    · exact refl s
    · have hlose : KeepsPlatform s (s.tlbLose pa) := of_update rfl rfl
      exact hlose.trans (KeepsPlatform.setReg _ _ (.inl (by omega)))

/-! Sectors: what stands below L2, and copies elsewhere. -/

theorem State.keepsPlatform_keepBelow (s : State) (k : Nat) : KeepsPlatform s (s.keepBelow k) := KeepsPlatform.cond _ (refl s) (of_update rfl rfl)

theorem State.keepsPlatform_showBelow (s : State) (k : Nat) : KeepsPlatform s (s.showBelow k) := by
  unfold State.showBelow
  split
  · exact of_update rfl rfl
  · exact KeepsPlatform.cond _ (of_update rfl rfl) (refl s)

theorem State.keepsPlatform_encrypt (s : State) (sector slot : Nat) : KeepsPlatform s (s.encrypt sector slot) :=
  KeepsPlatform.cond _ (refl s) ⟨rfl, fun _ _ _ => rfl⟩

theorem State.keepsPlatform_storeBelow (s : State) (sec slot : Nat) : KeepsPlatform s (s.storeBelow sec slot) :=
  (s.keepsPlatform_encrypt sec slot).update rfl rfl

theorem State.keepsPlatform_snoopNow (s : State) (line : Nat) : KeepsPlatform s (s.snoopNow line) := by
  unfold State.snoopNow
  split
  · have hask : KeepsPlatform s (if s.pkg.snooped.has line then s else s.send chSnoop (bytesOf 8 (line * 64))) :=
      KeepsPlatform.cond _ (refl s) (of_update rfl rfl)
    exact hask.trans ⟨rfl, fun _ _ _ => rfl⟩
  · exact refl s

theorem State.keepsPlatform_dropCopies (s : State) (sector writer : Nat) (own : Bool) : KeepsPlatform s (s.dropCopies sector writer own) := by
  have hinv : KeepsPlatform s (s.invalidate sector writer own) := of_update rfl rfl
  exact (hinv.trans (KeepsPlatform.cond _ (refl _) (State.keepsPlatform_snoopNow _ _))).update rfl rfl

/-! Lines: fills, writebacks, disabled ways. -/

theorem State.keepsPlatform_fillSector (s : State) (line i : Nat) (a : L2Acc) : KeepsPlatform s (s.fillSector line i a) := by
  unfold State.fillSector
  extract_lets sec s1 s2 s3 s4 s5 s6
  have h1 : KeepsPlatform s s1 := s.keepsPlatform_charge ..
  have h2 : KeepsPlatform s s2 := h1.trans (s1.keepsPlatform_keepBelow sec)
  have h4 : KeepsPlatform s s4 := h1.trans (KeepsPlatform.cond _ (s1.keepsPlatform_lineRecord ..) (refl s1))
  have h5 : KeepsPlatform s s5 := h4.trans (KeepsPlatform.cond _ (s4.keepsPlatform_lineRecord ..) (refl s4))
  refine KeepsPlatform.cond _ (h2.update rfl rfl) (KeepsPlatform.cond _ (h2.update rfl rfl) (KeepsPlatform.cond _ h5 ?_))
  exact (h5.trans (s5.keepsPlatform_keepBelow sec)).update rfl rfl

theorem State.keepsPlatform_refetch (s : State) (n line i flags : Nat) (a : L2Acc) : KeepsPlatform s (s.refetch n line i flags a) := by
  unfold State.refetch
  extract_lets sec s1
  have hclear : KeepsPlatform s s1 := of_update rfl rfl
  exact (hclear.trans (s1.keepsPlatform_showBelow sec)).trans (State.keepsPlatform_fillSector _ line i a)

theorem State.keepsPlatform_noteCor (s : State) (n : Nat) (l : L2Line) (skip ctx : Nat) : KeepsPlatform s (s.noteCor n l skip ctx) := by
  unfold State.noteCor
  extract_lets s1
  have hrec : KeepsPlatform s s1 := foldl (fun u _ => u.keepsPlatform_lineRecord ..) _ s
  exact hrec.update rfl rfl

theorem State.keepsPlatform_writeBack (s : State) (n : Nat) (l : L2Line) (chargeTo : Nat) : KeepsPlatform s (s.writeBack n l chargeTo) := by
  unfold State.writeBack
  extract_lets s1
  have hback : KeepsPlatform s s1 := foldl (fun u i => KeepsPlatform.cond _ ((u.keepsPlatform_charge ..).trans
    (KeepsPlatform.cond _ (State.keepsPlatform_wdrop _) (State.keepsPlatform_storeBelow ..))) (refl u)) [0, 1] s
  exact hback.update rfl rfl

theorem State.keepsPlatform_dropLine (s : State) (n : Nat) : KeepsPlatform s (s.dropLine n) := by
  unfold State.dropLine
  split
  · exact refl s
  · exact ((s.keepsPlatform_showBelow _).trans (State.keepsPlatform_showBelow _ _)).update rfl rfl

theorem State.keepsPlatform_disableWay (s : State) (n : Nat) : KeepsPlatform s (s.disableWay n) := (s.keepsPlatform_dropLine n).update rfl rfl

/-! Decks: the apply of a region and what its reads find. -/

theorem State.keepsPlatform_deckFill (s : State) (line ctx : Nat) : KeepsPlatform s (s.deckFill line ctx) := by
  refine foldl (fun u i => ?_) [0, 1] s
  split
  · exact refl u
  · refine KeepsPlatform.cond _ (refl u) (KeepsPlatform.trans ?_ (State.keepsPlatform_fillSector ..))
    exact of_update rfl rfl

theorem State.keepsPlatform_applyKey (s : State) (op fxp ctx r key : Nat) (d : DeckVal) : KeepsPlatform s (s.applyKey op fxp ctx r key d) := by
  unfold State.applyKey
  extract_lets w sec line s1 s2
  have h1 : KeepsPlatform s s1 :=
    (KeepsPlatform.cond _ (s.keepsPlatform_keepBelow sec) (refl s)).trans (State.keepsPlatform_dropCopies _ sec 1000 false)
  have h2 : KeepsPlatform s s2 := by
    refine KeepsPlatform.cond _ (KeepsPlatform.cond _ (h1.trans (s1.keepsPlatform_overflowed r)) h1) ?_
    split
    extract_lets s3
    have h3 : KeepsPlatform s s3 := h1.update rfl rfl
    exact KeepsPlatform.cond _ (h3.trans (s3.keepsPlatform_overflowed r)) h3
  clear_value line
  split
  · exact h2
  · exact h2.update rfl rfl

theorem State.keepsPlatform_applyCheck (s : State) (ctx sec : Nat) : KeepsPlatform s (s.applyCheck ctx sec).2 := by
  unfold State.applyCheck
  repeat' split
  · exact refl s
  · exact refl s
  · exact of_update rfl rfl
  · exact s.keepsPlatform_refetch ..
  · exact refl s

theorem State.keepsPlatform_applyOne (s : State) (r slice : Nat) : KeepsPlatform s (s.applyOne r slice).2 := by
  unfold State.applyOne
  extract_lets op fxp ctx k deck nrun s1 s2
  have h1 : KeepsPlatform s s1 := s.keepsPlatform_charge ..
  have h2 : KeepsPlatform s s2 := h1.trans (foldl (fun u q => KeepsPlatform.cond _ (u.keepsPlatform_lineRecord ..) (refl u)) _ s1)
  split
  next runs bad _ =>
  extract_lets runs' all s3 secs
  have h3 : KeepsPlatform s s3 := h2.trans (foldl (fun u line => u.keepsPlatform_deckFill line ctx) _ s2)
  split
  next found s4 hread =>
  have h4 : KeepsPlatform s s4 := by
    refine h3.trans ?_
    rw [show s4 = _ from (congrArg Prod.snd hread).symm]
    split
    · exact refl s3
    · refine foldlIn Prod.snd (fun q x => ?_) secs ([], s3)
      exact q.2.keepsPlatform_applyCheck ctx x.1
  clear_value s3
  extract_lets us s5 s6 s7 keys
  have h5 : KeepsPlatform s s5 := KeepsPlatform.cond _ (h4.trans (s4.keepsPlatform_overflowed r)) h4
  have h6 : KeepsPlatform s s6 := by
    clear_value s5
    refine KeepsPlatform.cond _ (h5.trans ?_) (h5.trans ?_)
    case refine_2 => exact foldl (α := Nat × DeckVal) (fun u q => u.keepsPlatform_applyKey op fxp ctx r q.1 q.2) all s5
    refine foldl (fun u q => ?_) us s5
    extract_lets u1 u2 u3 u4 u5
    have h1 : KeepsPlatform u u1 := u.keepsPlatform_deckFill q.2.tag ctx
    have hkeep := (u1.keepsPlatform_keepBelow (q.2.tag * 2)).trans (State.keepsPlatform_keepBelow _ (q.2.tag * 2 + 1))
    have h2 : KeepsPlatform u1 u2 := hkeep.trans (State.keepsPlatform_dropCopies _ (q.2.tag * 2) 1000 false)
    have h3 : KeepsPlatform u2 u3 := u2.keepsPlatform_dropCopies (q.2.tag * 2 + 1) 1000 false
    have h4 : KeepsPlatform u u4 := ((h1.trans h2).trans h3).update rfl rfl
    have h5 : KeepsPlatform u u5 := by
      clear_value u4
      refine h4.trans ?_
      dsimp only [u5]
      split
      · exact of_update rfl rfl
      · exact refl u4
    exact h5.trans (u5.keepsPlatform_lineRecord ..)
  have h7 : KeepsPlatform s s7 := h6.update rfl rfl
  refine h7.trans (foldl (fun u line => ?_) keys s7)
  split
  · exact refl u
  · exact KeepsPlatform.cond _ (of_update rfl rfl) (refl u)

theorem State.keepsPlatform_applyRest (s : State) (line : Nat) : KeepsPlatform s (s.applyRest line).2 := by
  refine foldlIn Prod.snd (fun q r => ?_) _ ([], s)
  exact q.2.keepsPlatform_applyOne r (s.home line)

/-! Containment: lost lines and disabled ways. -/

theorem State.keepsPlatform_loseCore (s : State) (n tag owner bad : Nat) (scrub : Bool) (ctx : Nat) :
    KeepsPlatform s (s.loseCore n tag owner bad scrub ctx) := by
  unfold State.loseCore
  extract_lets s1 s2
  have h1 : KeepsPlatform s s1 := by
    dsimp only [s1]
    split
    · exact (s.keepsPlatform_noteCor ..).trans (State.keepsPlatform_writeBack ..)
    · exact refl s
  have h2 : KeepsPlatform s s2 := h1.trans (s1.keepsPlatform_disableWay n)
  have h3 := h2.trans (s2.keepsPlatform_retireFrame (tag * 64))
  split
  next heq =>
  rw [heq] at h3
  exact h3.update rfl rfl

theorem State.keepsPlatform_poisonBad (s : State) (l : L2Line) : KeepsPlatform s (s.poisonBad l) := by
  refine foldl (fun u i => ?_) _ s
  exact of_update rfl rfl

theorem State.keepsPlatform_countUp (s : State) (n line flags ctx : Nat) : KeepsPlatform s (s.countUp n line flags ctx).2 := by
  unfold State.countUp
  extract_lets s1 k
  have h1 : KeepsPlatform s s1 := s.keepsPlatform_lineRecord ..
  split
  · exact h1.update rfl rfl
  · exact h1

theorem State.keepsPlatform_wayGone (s : State) (n line flags ctx : Nat) : KeepsPlatform s (s.wayGone n line flags ctx) := by
  unfold State.wayGone
  split
  next l _ =>
    extract_lets s1 bad
    have h1 : KeepsPlatform s s1 := s.keepsPlatform_noteCor ..
    refine KeepsPlatform.cond _ ((h1.trans (s1.keepsPlatform_poisonBad l)).trans (State.keepsPlatform_loseCore ..)) ?_
    exact ((h1.trans (s1.keepsPlatform_writeBack ..)).trans (State.keepsPlatform_disableWay ..)).trans (State.keepsPlatform_lineRecord ..)
  next => exact (s.keepsPlatform_disableWay n).trans (State.keepsPlatform_lineRecord ..)

theorem State.keepsPlatform_settle (fuel : Nat) (found : List Nat) (s : State) : KeepsPlatform s (State.settle fuel found s) := by
  induction fuel generalizing found s with
  | zero => exact refl s
  | succ fuel ih =>
    cases found with
    | nil => exact refl s
    | cons sec rest =>
      have more (t u : State) (line : Nat) (ht : KeepsPlatform s t) (hu : KeepsPlatform (t.applyRest line).2 u) (l : List Nat) :
          KeepsPlatform s (State.settle fuel l u) := ((ht.trans (t.keepsPlatform_applyRest line)).trans hu).trans (ih l u)
      unfold State.settle
      split
      next => exact ih rest s
      next n l _ =>
        extract_lets bad
        refine KeepsPlatform.cond _ ?_ (KeepsPlatform.cond _ ?_ (ih rest s))
        · exact more _ _ l.tag (s.keepsPlatform_poisonBad l) (State.keepsPlatform_loseCore ..) _
        · have hcount := s.keepsPlatform_countUp n l.tag (2 * 2 ^ (sec % 2)) 64
          split
          next t heq =>
            rw [heq] at hcount
            exact hcount.trans (ih rest t)
          next t heq =>
            rw [heq] at hcount
            exact more t _ l.tag hcount (State.keepsPlatform_wayGone ..) _

theorem State.keepsPlatform_applyRegion (s : State) (r slice : Nat) : KeepsPlatform s (s.applyRegion r slice) :=
  (s.keepsPlatform_applyOne r slice).trans (State.keepsPlatform_settle 64 _ _)

theorem State.keepsPlatform_applyLine (s : State) (line : Nat) : KeepsPlatform s (s.applyLine line) := by
  unfold State.applyLine
  split
  · exact refl s
  · refine KeepsPlatform.cond _ ?_ (refl s)
    extract_lets s1
    have h1 : KeepsPlatform s s1 := foldl (fun u r => u.keepsPlatform_applyRegion r (u.home line)) _ s
    split
    · exact h1.update rfl rfl
    · exact h1

theorem State.keepsPlatform_loseLine (s : State) (n : Nat) (scrub : Bool) (ctx : Nat) : KeepsPlatform s (s.loseLine n scrub ctx) := by
  unfold State.loseLine
  split
  · exact refl s
  · exact ((s.keepsPlatform_poisonBad _).trans (State.keepsPlatform_applyLine ..)).trans (State.keepsPlatform_loseCore ..)

theorem State.keepsPlatform_countCorrected (s : State) (n line flags ctx : Nat) : KeepsPlatform s (s.countCorrected n line flags ctx) := by
  have hcount := s.keepsPlatform_countUp n line flags ctx
  unfold State.countCorrected
  split
  next t heq => rwa [heq] at hcount
  next t heq =>
    rw [heq] at hcount
    refine hcount.trans (KeepsPlatform.trans ?_ (State.keepsPlatform_wayGone ..))
    split
    · exact State.keepsPlatform_applyLine ..
    · exact refl _

theorem State.keepsPlatform_evict (s : State) (n : Nat) : KeepsPlatform s (s.evict n) := by
  unfold State.evict
  split
  · exact refl s
  · extract_lets s1
    have h1 : KeepsPlatform s s1 := s.keepsPlatform_applyLine _
    split
    · exact h1
    · refine KeepsPlatform.cond _ (h1.trans (s1.keepsPlatform_loseLine ..)) ?_
      extract_lets cor s2
      have h2 : KeepsPlatform s s2 := (h1.trans (s1.keepsPlatform_writeBack ..)).trans (State.keepsPlatform_dropLine ..)
      exact h2.trans (foldl (fun u i => u.keepsPlatform_countCorrected ..) cor s2)

/-! Slice retirement. -/

theorem State.keepsPlatform_retireSlice (s : State) (slice : Nat) : KeepsPlatform s (s.retireSlice slice) := by
  unfold State.retireSlice
  -- the lists' entries play no part: no check of this proof is to count them out
  generalize List.range 4096 = places, List.range 256 = regions
  extract_lets live s1 s2 o s3 next
  refine KeepsPlatform.cond _ (refl s) ?_
  have h1 : KeepsPlatform s s1 := foldl (fun u r => KeepsPlatform.cond _ (u.keepsPlatform_applyRegion r slice) (refl u)) _ s
  have h2 : KeepsPlatform s s2 := by
    refine h1.trans (foldl (fun u q => ?_) _ s1)
    exact KeepsPlatform.cond _ (u.keepsPlatform_evict q.1) (refl u)
  have h3 : KeepsPlatform s s3 := h2.trans (KeepsPlatform.setReg s2 _ (.inl (Nat.le_add_right ..)))
  split
  next s4 _ hmap =>
  have h4 : KeepsPlatform s3 s4 := by
    rw [show s4 = _ from (congrArg Prod.fst hmap).symm]
    refine foldlIn Prod.fst (fun q i => ?_) _ (s3, slice)
    dsimp only
    split
    · exact KeepsPlatform.setReg q.1 _ (.inl (by omega))
    · exact refl q.1
  exact (h3.trans h4).update rfl rfl

end Sys2Proof.Machine
end

section
/-! SUPPORT. Reset and verified boot (R26, R52-R58, R74): what the checks of an image come to, what the start of an image leaves alone in
BOOT_STAT, and what the host hands over. -/
namespace Sys2Proof.Machine
open Sys2Proof

/-! Package reset. -/

/-- READY and LOST of DUMP_STAT are put together again after a reset (R74). -/
theorem bits_ready_lost {ready lost : Nat} (hready : ready < 2) (hlost : lost < 65536) :
    bits (BitVec.ofNat 64 (ready + lost * 65536)).toNat 0 1 = ready ∧ bits (BitVec.ofNat 64 (ready + lost * 65536)).toNat 16 16 = lost := by
  simp only [bits, BitVec.toNat_ofNat]
  omega

theorem State.packageReset_eq (s : State) :
    s.packageReset = if Config.selfRefresh s.fresh = true then
      { State.reset with
        pkg := s.pkg.lasting, mem := s.belowL2.mem.filter fun q => tierOf q.1 != .none, poison := s.belowL2.poison, keyTag := s.belowL2.keyTag
        hbmErr := s.hbmErr, hbmCor := s.hbmCor, agenda := s.agenda, out := s.out, fresh := s.fresh + 1
        io := SMap.put 0 [] 0x0808 (BitVec.ofNat 64 (s.ioBits 0x0808 0 1 + s.ioBits 0x0808 16 16 * 65536)) }
    else
      { State.reset with
        pkg := s.pkg.lasting, mem := s.mem.filter fun q => tierOf q.1 == .host, agenda := s.agenda, out := s.out, fresh := s.fresh + 1 } := rfl

theorem State.ioGet_dumpStat {s : State} {v : Word} (h : s.io = SMap.put 0 [] 0x0808 v) : s.ioGet 0x0808 = v := by
  have hreset : (match ioReg 0x0808 with | some r => r.reset | none => 0) = (0 : Word) := by decide
  rw [State.ioGet, h]
  exact (congrArg _ hreset).trans (SMap.getD_put_self 0 [] 0x0808 v)

/-! The checks of R53 on an image. -/

/-- A vendor key that is not revoked verifies the image's signature over its header (R53 step 3). -/
theorem vendorSigned_iff (h : List Byte) : vendorSigned h = true ↔ ∃ i < 4, Config.keyRevoked i = false ∧
    Config.xmssVerify (Config.vendorKey i) (BitVec.ofNat 2048 (natOf (h.take 256))) (imageSig h) = true := by
  simp only [vendorSigned, List.any_eq_true, List.mem_range, Bool.and_eq_true, Bool.not_eq_true']

/-- An image that passes steps 1 to 4 of R53. -/
def State.ImageGood (s : State) (img : BootImage) (id : Nat) : Prop :=
  let h := img.bytes
  img.readOk = true ∧ headByte h 0 4 = 0x49394C4F ∧ headByte h 4 1 = id ∧ headByte h 5 1 ≤ 63 ∧ headByte h 6 2 ≤ 1 ∧ headByte h 8 8 ≤ 64 * 2 ^ 20 ∧
    headByte h 0x50 176 = 0 ∧ h.length = 256 + headByte h 8 8 + 2820 ∧ headByte h 0x10 64 = natOf (shake256 (imageBody h) 64) ∧
    (∃ i < 4, Config.keyRevoked i = false ∧
      Config.xmssVerify (Config.vendorKey i) (BitVec.ofNat 2048 (natOf (h.take 256))) (imageSig h) = true) ∧
    s.pkg.svnMin.getD id 0 ≤ headByte h 5 1

theorem ite_eq_zero_iff {c : Prop} [Decidable c] {a b : Nat} (ha : a ≠ 0) : (if c then a else b) = 0 ↔ ¬ c ∧ b = 0 := by
  by_cases hc : c <;> simp [hc, ha]

theorem State.imageErr_eq_zero_iff (s : State) (img : BootImage) (id : Nat) : s.imageErr img id = 0 ↔ s.ImageGood img id := by
  have hsize : (0x4000000 : Nat) = 64 * 2 ^ 20 := by norm_num
  simp only [State.imageErr, State.ImageGood, ← vendorSigned_iff, hsize, ite_eq_zero_iff (show 5 ≠ 0 by decide),
    ite_eq_zero_iff (show 1 ≠ 0 by decide), ite_eq_zero_iff (show 2 ≠ 0 by decide), ite_eq_zero_iff (show 3 ≠ 0 by decide),
    ite_eq_zero_iff (show 4 ≠ 0 by decide), not_or, not_not, Nat.not_lt, Bool.not_eq_true', Bool.not_eq_false, and_assoc, and_true, ne_eq]

theorem State.imageErr_le (s : State) (img : BootImage) (id : Nat) : s.imageErr img id ≤ 5 := by
  unfold State.imageErr
  dsimp only
  split_ifs <;> decide

/-! The start of an image (R53, R54, R58). -/

/-- From `s` to `t` the boot stands where it stood: images started, whether it has stopped, measurements and BOOT_STAT. -/
structure State.KeepsBoot (s t : State) : Prop where
  stage : t.pkg.stage = s.pkg.stage
  stopped : t.pkg.stopped = s.pkg.stopped
  meas : t.pkg.meas = s.pkg.meas
  stat : t.ioGet 0x0600 = s.ioGet 0x0600

namespace State.KeepsBoot

variable {s t u : State}

theorem refl (s : State) : KeepsBoot s s := ⟨rfl, rfl, rfl, rfl⟩

theorem trans (h : KeepsBoot s t) (k : KeepsBoot t u) : KeepsBoot s u :=
  ⟨k.stage.trans h.stage, k.stopped.trans h.stopped, k.meas.trans h.meas, k.stat.trans h.stat⟩

theorem ofPlatform (h : KeepsPlatform s t) : KeepsBoot s t :=
  ⟨h.field Pkg.stage fun _ => rfl, h.field Pkg.stopped fun _ => rfl, h.field Pkg.meas fun _ => rfl, h.io _ (by decide) (by decide)⟩

theorem ioBits (h : KeepsBoot s t) (lo w : Nat) : t.ioBits 0x0600 lo w = s.ioBits 0x0600 lo w := by
  rw [State.ioBits, State.ioBits, h.stat]

end State.KeepsBoot

theorem State.keepsBoot_newAttKey (s : State) : State.KeepsBoot s s.newAttKey := by
  have hspent (u : State) : State.KeepsBoot u (u.ioSet 0x0608 1) := ⟨rfl, rfl, rfl, u.ioGet_ioSet_ne 1 (by decide)⟩
  unfold State.newAttKey
  split
  · dsimp only
    split
    · refine State.KeepsBoot.trans ?_ (hspent _)
      exact ⟨rfl, rfl, rfl, rfl⟩
    · exact ⟨rfl, rfl, rfl, rfl⟩
  · exact (hspent s).trans ⟨rfl, rfl, rfl, rfl⟩

/-- The boot is done: BOOT_STAT.DONE is set, and nothing else that `KeepsBoot` names changes. -/
theorem State.keepsBoot_bootDone (s : State) : State.KeepsBoot (s.ioField 0x0600 0 1 1) s.bootDone := by
  have hcores (l : List Nat) (f : Nat → Core → Core) (u : State) : State.KeepsBoot u (l.foldl (fun s i => s.modCore (256 + i) (f i)) u) := by
    induction l generalizing u with
    | nil => exact .refl u
    | cons i l ih =>
      have hcore : State.KeepsBoot u (u.modCore (256 + i) (f i)) := ⟨rfl, rfl, rfl, rfl⟩
      exact hcore.trans (ih _)
  refine State.KeepsBoot.trans ?_ (hcores _ _ _)
  refine State.KeepsBoot.trans ?_ (State.keepsBoot_newAttKey _)
  exact ⟨rfl, rfl, rfl, rfl⟩

/-- The first part of an image's start: its stage, its measurement and its COMMIT (R53 step 5, R54). -/
def State.measured (s : State) (img : BootImage) (id : Nat) : State :=
  let h := img.bytes
  let m : BitVec 512 := BitVec.ofNat 512 (natOf (shake256 (bytesOf 64 (s.pkg.meas.getD id 0).toNat ++ bytesOf 64 (headByte h 0x10 64)) 64))
  s.modPkg fun p => { p with
    meas := p.meas.put 0 id m, stage := id
    commits := if headByte h 6 2 % 2 = 1 then p.commits.ins id (headByte h 5 1) else p.commits }

/-- The second: base-die configuration reloads the blaze map, and slices that it leaves without ways retire (R144, R145). -/
def State.configured (s : State) (id : Nat) : State :=
  if id = 2 then (List.range 192).foldl State.retireSlice { s with blaze := s.pkg.blazeFlash } else s

theorem State.imageStart_eq (s : State) (img : BootImage) (id : Nat) :
    s.imageStart img id = if id = 4 then ((s.measured img id).configured id).bootDone else (s.measured img id).configured id := rfl

theorem State.keepsBoot_configured (s : State) (id : Nat) : State.KeepsBoot s (s.configured id) := by
  refine .ofPlatform (.cond _ (.trans ?_ (.foldl (fun u slice => u.keepsPlatform_retireSlice slice) _ _)) (.refl s))
  exact .of_update rfl rfl

/-- What an image that starts leaves behind: its stage and measurement; DONE with the last; the other fields of BOOT_STAT as they were. -/
theorem State.imageStart_results (s : State) (img : BootImage) (id : Nat) :
    let t := s.imageStart img id
    t.pkg.stage = id ∧ t.pkg.stopped = s.pkg.stopped ∧ (id = 4 → t.ioBits 0x0600 0 1 = 1) ∧
    t.pkg.meas.getD id 0 =
      BitVec.ofNat 512 (natOf (shake256 (bytesOf 64 (s.pkg.meas.getD id 0).toNat ++ bytesOf 64 (headByte img.bytes 0x10 64)) 64)) ∧
    ∀ lo w, 1 ≤ lo → t.ioBits 0x0600 lo w = s.ioBits 0x0600 lo w := by
  intro t
  have ht : t = s.imageStart img id := rfl
  have hmeas : (s.measured img id).pkg.meas.getD id 0 = _ := SMap.getD_put_self ..
  have hconf := (s.measured img id).keepsBoot_configured id
  rw [State.imageStart_eq] at ht
  by_cases h4 : id = 4
  · have hdone := ((s.measured img id).configured id).keepsBoot_bootDone
    rw [if_pos h4] at ht
    rw [ht]
    refine ⟨hdone.stage.trans hconf.stage, hdone.stopped.trans hconf.stopped, fun _ => ?_, ?_, fun lo w hlo => ?_⟩
    · exact (hdone.ioBits 0 1).trans (State.ioBits_ioField_self _ _ 1 (by decide))
    · rw [hdone.meas, State.ioField, State.ioSet_pkg, hconf.meas, hmeas]
    · rw [hdone.ioBits, State.ioBits_ioField_disjoint _ _ _ (.inl hlo), hconf.ioBits]
      rfl
  · rw [if_neg h4] at ht
    rw [ht]
    exact ⟨hconf.stage, hconf.stopped, fun h => absurd h h4, by rw [hconf.meas, hmeas], fun lo w _ => hconf.ioBits lo w⟩

/-! The events of the boot. -/

theorem exec_bootImageVerify_running {s : State} (hstop : s.pkg.stopped = false) (hstage : s.pkg.stage < 4) (img : BootImage) :
    exec (.bootImageVerify img) s = .next (if s.imageErr img (s.pkg.stage + 1) = 0 then s.imageStart img (s.pkg.stage + 1)
      else s.bootFail (s.pkg.stage + 1) (s.imageErr img (s.pkg.stage + 1))) := by
  have hopen : ¬ (s.pkg.stopped = true ∨ 4 < s.pkg.stage + 1) := by
    simp only [hstop, Bool.false_eq_true, false_or]
    omega
  simp only [exec_bootImageVerify, execBootImageVerify, if_neg hopen]

theorem State.keeps_alert (s : State) (kind : Nat) :
    (s.alert kind).pkg.stopped = s.pkg.stopped ∧ (s.alert kind).pkg.stage = s.pkg.stage ∧ (s.alert kind).io = s.io := by
  unfold State.alert
  split <;> exact ⟨rfl, rfl, rfl⟩

/-- A boot that stops: BOOT_STAT names the image and the check (R55). -/
theorem State.bootFail_results (s : State) {id err : Nat} (hid : id < 2 ^ 8) (herr : err < 2 ^ 4) :
    let t := s.bootFail id err
    t.pkg.stopped = true ∧ t.pkg.stage = s.pkg.stage ∧ t.ioBits 0x0600 8 8 = id ∧ t.ioBits 0x0600 4 4 = err := by
  intro t
  obtain ⟨hstopped, hstage, hio⟩ := (((s.ioField 0x0600 8 8 id).ioField 0x0600 4 4 err).modPkg fun p => { p with stopped := true }).keeps_alert 5
  have hbits (lo w : Nat) : t.ioBits 0x0600 lo w = ((s.ioField 0x0600 8 8 id).ioField 0x0600 4 4 err).ioBits 0x0600 lo w := by
    rw [State.ioBits, State.ioBits, State.ioGet, State.ioGet]
    rw [show t.io = _ from hio]
    rfl
  refine ⟨hstopped, hstage, ?_, ?_⟩
  · rw [hbits, State.ioBits_ioField_disjoint _ _ _ (.inl (by decide)), State.ioBits_ioField_self _ _ _ (by decide), Nat.mod_eq_of_lt hid]
  · rw [hbits, State.ioBits_ioField_self _ _ _ (by decide), Nat.mod_eq_of_lt herr]

/-- Cluster n finds the clusters before it powered (R26). -/
theorem BitVec.toNat_mod_eq_of_ones {w : Nat} (x : BitVec w) {n : Nat} (h : ∀ m < n, x.getLsbD m = true) : x.toNat % 2 ^ n = 2 ^ n - 1 := by
  apply Nat.eq_of_testBit_eq
  intro i
  rw [Nat.testBit_mod_two_pow, Nat.testBit_two_pow_sub_one, BitVec.testBit_toNat]
  by_cases hi : i < n
  · simp [hi, h i hi]
  · simp [hi]

theorem BitVec.getLsbD_or_twoPow {w : Nat} (x : BitVec w) {n : Nat} (hn : n < w) (m : Nat) :
    (x ||| BitVec.ofNat w (2 ^ n)).getLsbD m = (x.getLsbD m || decide (m = n)) := by
  rw [BitVec.getLsbD_or, BitVec.getLsbD_ofNat, Nat.testBit_two_pow]
  by_cases hm : m = n
  · simp [hm, hn]
  · simp [hm, Ne.symm hm]

theorem State.hostHands_bytes (s : State) (d : List Byte) (hlen : s.pkg.mbox.len.toNat ≤ 64 * 2 ^ 20 + 3076) :
    (s.hostHands d).mailImage.bytes = (s.hostHands d).readPhys (0xC000000000000 + s.pkg.mbox.addr.toNat) s.pkg.mbox.len.toNat := by
  have hmin : min s.pkg.mbox.len.toNat (256 + 0x4000000 + 2820 + 1) = s.pkg.mbox.len.toNat := by omega
  exact congrArg ((s.hostHands d).readPhys _) hmin

/-- A boot that goes on with a recovery image: IMG and ERR are clear, RECOVERED is set (R55, R56). -/
def State.recovering (u : State) : State :=
  (((u.ioField 0x0600 8 8 0).ioField 0x0600 4 4 0).ioField 0x0600 3 1 1).modPkg fun p => { p with stopped := false }

/-- CMD 0x01 of a stopped boot: the image of the stage, from host memory (R56). -/
theorem exec_bootFromHost_accepted {s : State} (hstop : s.pkg.stopped = true) (hrun : s.pkg.mbox.run = 1) (d : List Byte) :
    let u := s.hostHands d
    let id := s.pkg.stage + 1
    let e := s.imageErr u.mailImage id
    exec (.bootFromHost d) s = .next (if e ≠ 0 then (u.ioField 0x0600 4 4 6).mailStatus (0x10 + e)
      else (u.recovering.imageStart u.mailImage id).mailStatus 1) := by
  have hopen : ¬ ((!s.pkg.stopped || s.pkg.mbox.run != 1) = true) := by simp [hstop, hrun]
  exact congrArg Host.Outcome.next (if_neg hopen)

/-- CMD 0x02 of a stopped boot: an image of any id, to flash (R56). -/
theorem exec_verifyAndWriteFlash_accepted {s : State} (hstop : s.pkg.stopped = true) (hrun : s.pkg.mbox.run = 2) (d : List Byte) :
    let u := s.hostHands d
    let id := headByte u.mailImage.bytes 4 1
    let e := if id = 0 ∨ 4 < id then 1 else s.imageErr u.mailImage id
    exec (.verifyAndWriteFlash d) s = .next (if e ≠ 0 then u.mailStatus (0x10 + e) else (u.send chFlash u.mailImage.bytes).packageReset) := by
  have hopen : ¬ ((!s.pkg.stopped || s.pkg.mbox.run != 2) = true) := by simp [hstop, hrun]
  exact congrArg Host.Outcome.next (if_neg hopen)

/-- A recovery that succeeds: the image has started, and STATUS reads as it does outside a stopped boot. -/
theorem State.recovered_results (u : State) (img : BootImage) (id : Nat) :
    let t := (u.recovering.imageStart img id).mailStatus 1
    t.pkg.stage = id ∧ t.pkg.stopped = false ∧ (id = 4 → t.ioBits 0x0600 0 1 = 1) ∧
    t.pkg.meas.getD id 0 =
      BitVec.ofNat 512 (natOf (shake256 (bytesOf 64 (u.pkg.meas.getD id 0).toNat ++ bytesOf 64 (headByte img.bytes 0x10 64)) 64)) ∧
    t.pkg.mbox.status = 0x20 ∧ t.pkg.mbox.run = 0 ∧ t.ioBits 0x0600 3 1 = 1 ∧ t.ioBits 0x0600 4 4 = 0 := by
  obtain ⟨hid, hgo, hdone, hmeas, hrest⟩ := u.recovering.imageStart_results img id
  have hopen : ¬ (u.recovering.imageStart img id).pkg.stopped = true := by
    rw [hgo]
    exact Bool.false_ne_true
  refine ⟨hid, hgo, hdone, hmeas, if_neg hopen, rfl, ?_, ?_⟩
  · exact (hrest 3 1 (by decide)).trans (State.ioBits_ioField_self _ _ 1 (by decide))
  · exact (hrest 4 4 (by decide)).trans ((State.ioBits_ioField_disjoint _ _ 1 (.inl (by decide))).trans (State.ioBits_ioField_self _ _ 0 (by decide)))

/-- STATUS of a command that failed in a stopped boot: 0x10 and the check's code (R56; log 77). -/
theorem State.mailStatus_failed (s : State) (hstop : s.pkg.stopped = true) {e : Nat} (he : e ≠ 0) (hle : e ≤ 5) :
    let t := s.mailStatus (0x10 + e)
    t.pkg.mbox.run = 0 ∧ 0x11 ≤ t.pkg.mbox.status.toNat ∧ t.pkg.mbox.status.toNat ≤ 0x15 := by
  intro t
  have hstatus : t.pkg.mbox.status = BitVec.ofNat 64 (0x10 + e) := if_pos hstop
  refine ⟨rfl, ?_⟩
  rw [hstatus, BitVec.toNat_ofNat]
  omega

end Sys2Proof.Machine

namespace Sys2Proof.Proofs
open Sys2Proof Sys2Proof.Machine

theorem packageReset_results (s : State) :
    ∃ t, exec .packageReset s = .next t ∧ t.cores = [] ∧ t.pkg = s.pkg.lasting ∧ t.keys = [] ∧ t.flight = [] ∧ t.l2 = [] ∧ t.tlb = [] ∧ t.fatal = 0 ∧
      t.tmr = 0 ∧
      if Config.selfRefresh s.fresh = true then
        t.mem = s.belowL2.mem.filter (fun q => tierOf q.1 != .none) ∧ t.poison = s.belowL2.poison ∧ t.ioBits 0x0808 0 1 = s.ioBits 0x0808 0 1 ∧
          t.ioBits 0x0808 16 16 = s.ioBits 0x0808 16 16
      else t.mem = s.mem.filter (fun q => tierOf q.1 == .host) ∧ t.poison = [] ∧ t.io = [] := by
  refine ⟨s.packageReset, rfl, ?_⟩
  by_cases hself : Config.selfRefresh s.fresh = true
  · have hready : s.ioBits 0x0808 0 1 < 2 := Nat.mod_lt _ (by decide)
    have hlost : s.ioBits 0x0808 16 16 < 65536 := Nat.mod_lt _ (by decide)
    obtain ⟨hb0, hb16⟩ := bits_ready_lost hready hlost
    rw [s.packageReset_eq.trans (if_pos hself), if_pos hself]
    refine ⟨rfl, rfl, rfl, rfl, rfl, rfl, rfl, rfl, rfl, rfl, ?_, ?_⟩
    · rw [State.ioBits, State.ioGet_dumpStat rfl, hb0]
    · rw [State.ioBits, State.ioGet_dumpStat rfl, hb16]
  · rw [s.packageReset_eq.trans (if_neg hself), if_neg hself]
    exact ⟨rfl, rfl, rfl, rfl, rfl, rfl, rfl, rfl, rfl, rfl, rfl⟩

/-- Settles O29: `imageErr` is 0 for exactly the images that pass the checks of R53, and then each event is what its equation gives: a start
(`imageStart_results`), a stop (`bootFail_results`), a recovery (`recovered_results`) or a command's failure (`mailStatus_failed`). -/
theorem resetAndBootResults : Obligations.ResetAndBootResults := by
  unfold Obligations.ResetAndBootResults
  intro s
  extract_lets kept h good started failed len a
  have hgood (img : BootImage) (id : Nat) : good img id ↔ s.imageErr img id = 0 := (s.imageErr_eq_zero_iff img id).symm
  refine ⟨packageReset_results s, ⟨_, rfl, rfl, rfl, rfl, rfl, rfl, rfl⟩, fun img hstop hstage => ?_, fun n hstage hones => ?_, fun d => ?_, ?_, ?_⟩
  · rw [exec_bootImageVerify_running hstop hstage]
    refine ⟨fun hok => ?_, fun hbad => ?_⟩
    · rw [if_pos ((hgood _ _).mp hok)]
      obtain ⟨hid, hgo, hdone, hmeas, -⟩ := s.imageStart_results img (s.pkg.stage + 1)
      exact ⟨_, rfl, hid, hgo.trans hstop, hdone, hmeas⟩
    · have herr : s.imageErr img (s.pkg.stage + 1) ≠ 0 := mt (hgood _ _).mpr hbad
      have hle := s.imageErr_le img (s.pkg.stage + 1)
      rw [if_neg herr]
      obtain ⟨hstopped, hkept, hid, hcode⟩ := s.bootFail_results (id := s.pkg.stage + 1) (err := s.imageErr img (s.pkg.stage + 1)) (by omega) (by omega)
      exact ⟨_, rfl, hstopped, hkept, hid, by rw [hcode]; omega, by rw [hcode]; exact hle⟩
  · have hbefore := BitVec.toNat_mod_eq_of_ones s.pkg.powered hones
    exact ⟨_, congrArg Host.Outcome.next (if_pos ⟨hstage, hbefore⟩), fun m => BitVec.getLsbD_or_twoPow _ n.isLt m⟩
  · extract_lets img id
    refine ⟨rfl, rfl, s.hostHands_bytes d, fun hstop hrun hstage => ?_, fun hstop hrun => ?_⟩
    · have hexec := exec_bootFromHost_accepted hstop hrun d
      refine ⟨fun hok => ?_, fun hbad => ?_⟩
      · have herr : ¬ s.imageErr img (s.pkg.stage + 1) ≠ 0 := not_not.mpr ((hgood _ _).mp hok)
        obtain ⟨hid, hgo, hdone, hmeas, hrest⟩ := (s.hostHands d).recovered_results img (s.pkg.stage + 1)
        exact ⟨_, hexec.trans (congrArg Host.Outcome.next (if_neg herr)), ⟨hid, hgo, hdone, hmeas⟩, hrest⟩
      · have herr : s.imageErr img (s.pkg.stage + 1) ≠ 0 := mt (hgood _ _).mpr hbad
        have hfail := ((s.hostHands d).ioField 0x0600 4 4 6).mailStatus_failed hstop herr (s.imageErr_le _ _)
        refine ⟨_, hexec.trans (congrArg Host.Outcome.next (if_pos herr)), hstop, rfl, ?_, hfail⟩
        exact State.ioBits_ioField_self (s.hostHands d) 0x0600 6 (by decide)
    · have hexec := exec_verifyAndWriteFlash_accepted hstop hrun d
      have herr : (if id = 0 ∨ 4 < id then 1 else s.imageErr img id) = 0 ↔ 1 ≤ id ∧ id ≤ 4 ∧ good img id := by
        rw [hgood, ite_eq_zero_iff (by decide), not_or, Nat.not_lt, Nat.one_le_iff_ne_zero, and_assoc]
      refine ⟨fun hlo hhi hok => ?_, fun hbad => ?_⟩
      · have hpass := not_not.mpr (herr.mpr ⟨hlo, hhi, hok⟩)
        refine ⟨_, hexec.trans (congrArg Host.Outcome.next (if_neg hpass)), ?_⟩
        rw [State.packageReset_eq]
        split <;> exact ⟨rfl, rfl, rfl, rfl, rfl, rfl⟩
      · have hcode := mt herr.mp hbad
        have hle : (if id = 0 ∨ 4 < id then 1 else s.imageErr img id) ≤ 5 := by
          split
          · decide
          · exact s.imageErr_le img id
        exact ⟨_, hexec.trans (congrArg Host.Outcome.next (if_pos hcode)), hstop, rfl, (s.hostHands d).mailStatus_failed hstop hcode hle⟩
  · intro hshut d
    exact congrArg Host.Outcome.next (if_pos (by simpa using hshut))
  · intro hshut d
    exact congrArg Host.Outcome.next (if_pos (by simpa using hshut))

end Sys2Proof.Proofs
end

section
/-! SUPPORT. Stalls, handlers, the timer and resume (R86-R88, R208, R213, R230, R232, R435). -/
namespace Sys2Proof.Machine
open Sys2Proof

/-! Stalls. -/

/-- The first energy stall since the level was low: notice 0x180 is pending, and the next one gives none (R88). -/
theorem State.energyStall_armed {s : State} {core : Nat} (h : (s.core core).earm = true) :
    ((s.energyStall core).core core).svc.notices.getLsbD 0 = true ∧ ((s.energyStall core).core core).earm = false ∧
    ((s.energyStall core).core core).pc = (s.core core).pc ∧ ((s.energyStall core).core core).arch = (s.core core).arch := by
  have hcore : (s.energyStall core).core core = { s.core core with
      svc := { (s.core core).svc with notices := (s.core core).svc.notices ||| BitVec.ofNat 4 (2 ^ 0) }, earm := false } := by
    simp only [State.energyStall, if_pos h, State.notice, State.core_modCore_self]
  rw [hcore]
  refine ⟨?_, rfl, rfl, rfl⟩
  rw [BitVec.getLsbD_or]
  simp

/-! The event that starts next (R435). -/

theorem ones_eq_cons {n : Nat} {x : BitVec n} {i : Nat} (hi : i < n) (hbit : x.getLsbD i = true) (hlow : ∀ j < i, x.getLsbD j = false) :
    ∃ l, ones x = i :: l := by
  have hsplit : List.range n = List.range' 0 i ++ i :: List.range' (i + 1) (n - i - 1) := by
    have happ := List.range'_append_1 (s := 0) (m := i) (n := n - i)
    rw [Nat.zero_add, show i + (n - i) = n by omega] at happ
    rw [List.range_eq_range', ← List.range'_succ, show n - i - 1 + 1 = n - i by omega, happ]
  have hnone : (List.range' 0 i).filter (fun j => x.getLsbD j) = [] := by
    simp only [List.filter_eq_nil_iff, List.mem_range'_1, Bool.not_eq_true]
    intro j hj
    exact hlow j (by omega)
  exact ⟨_, by rw [ones, hsplit, List.filter_append, hnone, List.nil_append, List.filter_cons_of_pos hbit]⟩

theorem ones_zero (n : Nat) : ones (0 : BitVec n) = [] := by
  simp [ones]

/-- The lowest pending notice comes first. -/
theorem State.nextEvent_notice (s : State) {v : Svc} {i : Nat} (hi : i < 4) (hbit : v.notices.getLsbD i = true)
    (hlow : ∀ j < i, v.notices.getLsbD j = false) :
    s.nextEvent v = some (16 + i, [BitVec.ofNat 64 (0x180 + i)], { v with notices := v.notices &&& ~~~(BitVec.ofNat 4 (2 ^ i)) }) := by
  obtain ⟨l, hones⟩ := ones_eq_cons hi hbit hlow
  rw [State.nextEvent, hones]

/-- With no notice, the timer. -/
theorem State.nextEvent_timer (s : State) {v : Svc} (hnot : v.notices = 0) (htimer : v.tpend = true) :
    s.nextEvent v = some (20, [s.tmr], { v with tpend := false, tcmp := 0 }) := by
  rw [State.nextEvent, hnot, ones_zero, htimer]
  rfl

/-- With neither, the oldest arrival event. -/
theorem State.nextEvent_arrival (s : State) {v : Svc} {q : ArrEvent} {r : List ArrEvent} (hnot : v.notices = 0) (htimer : v.tpend = false)
    (hqueue : v.queue = q :: r) : s.nextEvent v = some (q.hn.toNat, [q.sa, q.bytes, q.core], { v with queue := r }) := by
  rw [State.nextEvent, hnot, ones_zero, htimer, hqueue]
  rfl

/-- The sequencer's registers as an event gives them: e0, and what follows it in e1 and e2. -/
def eventRegs (m : SMap Word) (regs : List Word) : SMap Word := (regs.zip (List.range 3)).foldl (fun m q => SMap.put 0 m q.2 q.1) m

theorem eventRegs_first (m : SMap Word) (a : Word) (l : List Word) : (eventRegs m (a :: l)).getD 0 0 = a := by
  obtain _ | ⟨b, _ | ⟨c, l⟩⟩ := l
  · simp [eventRegs, List.range_succ]
  · simp [eventRegs, List.range_succ, SMap.getD_put_ne]
  · simp [eventRegs, List.range_succ, SMap.getD_put_ne]

theorem eventRegs_rest (m : SMap Word) (a b c : Word) :
    (eventRegs m [a, b, c]).getD 1 0 = b ∧ (eventRegs m [a, b, c]).getD 2 0 = c := by
  simp [eventRegs, List.range_succ, SMap.getD_put_ne]

/-- A handler starts at the slot of the event that comes next (R427, R435). -/
theorem State.startHandler_core {s : State} {core : Nat} (hidle : (s.core core).svc.busy = false) (hbase : (s.core core).svc.base.getLsbD 0 = true)
    (halive : s.svcAlive core = true) {k : Nat} {regs : List Word} {v : Svc} (hnext : s.nextEvent (s.core core).svc = some (k, regs, v)) :
    (s.startHandler core).core core = { s.core core with
      e := eventRegs (s.core core).svcLand.e regs
      svc := { v with busy := true, hold := [], lands := [], pc := (v.base &&& 0x000FFFFFFFFFFFC0#64) + BitVec.ofNat 64 (8 * k) } } := by
  have hopen : ¬ (((s.core core).svc.busy || !(s.core core).svc.base.getLsbD 0 || !s.svcAlive core) = true) := by simp [hidle, hbase, halive]
  rw [State.startHandler]
  dsimp only
  rw [if_neg hopen, hnext, State.core_modCore_self]
  rfl

/-! Resume (R230, R232). -/

theorem State.resumeCore_parked (s : State) {core : Nat} (hrun : (s.core core).run = .parked) (hroom : s.recWaits core = false)
    (hpre : (s.core core).preempt = none) : s.resumeCore core = s.modCore core fun k => { k with run := .running } := by
  simp [State.resumeCore, State.resume, hrun, hroom, hpre, State.modCore]

/-- A record that waits for room keeps its core parked. -/
theorem State.resumeCore_held (s : State) {core : Nat} (hheld : (s.core core).recHeld = true) : s.resumeCore core = s := by
  simp [State.resumeCore, State.recWaits, hheld]

end Sys2Proof.Machine

namespace Sys2Proof.Proofs
open Sys2Proof Sys2Proof.Machine

/-- Settles O44: a stall and a stretch cycle drain the buckets and no more, a handler starts for the event that `nextEvent` names, and the timer,
a resume and the enable of the fault-service queue are what their equations give. -/
theorem sequencerResults : Obligations.SequencerResults := by
  unfold Obligations.SequencerResults
  intro s core
  extract_lets c d slot starts u
  have hd : d.core core = c.drain := State.core_modCore_self ..
  refine ⟨fun hrun hgrp hheld => ?_, fun hrun hgrp hheld harm => ?_, fun hrun hstretch => ?_, fun hidle hbase halive => ?_, fun hset hdue => ?_,
    fun hrun hroom hpre => ?_, fun hrun hheld => ?_, fun hoff x b t hread => ?_⟩
  · exact congrArg Host.Outcome.next ((if_pos ⟨hrun, hgrp⟩).trans (if_neg (Bool.eq_false_iff.mp hheld)))
  · obtain ⟨hnotice, hspent, hpc, harch⟩ := State.energyStall_armed harm
    rw [hd] at hpc harch
    exact ⟨_, congrArg Host.Outcome.next ((if_pos ⟨hrun, hgrp⟩).trans (if_pos hheld)), hnotice, hspent, hpc, harch⟩
  · rw [hd]
    exact ⟨congrArg Host.Outcome.next (if_pos ⟨hrun, hstretch⟩), rfl, rfl⟩
  · have hstart {k : Nat} {e0 : Word} {regs : List Word} {v : Svc} (hnext : s.nextEvent c.svc = some (k, e0 :: regs, v))
        (hv : v.base = c.svc.base) :
        starts k e0 (s.startHandler core) := by
      refine ⟨rfl, ?_⟩
      rw [State.startHandler_core hidle hbase halive hnext]
      exact ⟨rfl, by rw [hv], eventRegs_first ..⟩
    refine ⟨fun i hi hbit hlow => ?_, fun hnot htimer => ?_, fun q r hnot htimer hqueue => ?_⟩
    · have hnext := s.nextEvent_notice hi hbit hlow
      refine ⟨_, hstart hnext rfl, ?_⟩
      rw [State.startHandler_core hidle hbase halive hnext, BitVec.getLsbD_and, BitVec.getLsbD_not, BitVec.getLsbD_ofNat, Nat.testBit_two_pow_self]
      simp [hi]
    · have hnext := s.nextEvent_timer hnot htimer
      refine ⟨_, hstart hnext rfl, ?_⟩
      rw [State.startHandler_core hidle hbase halive hnext]
      exact ⟨rfl, rfl⟩
    · have hnext := s.nextEvent_arrival hnot htimer hqueue
      obtain ⟨hbytes, hfrom⟩ := eventRegs_rest (s.core core).svcLand.e q.sa q.bytes q.core
      refine ⟨_, hstart hnext rfl, ?_⟩
      rw [State.startHandler_core hidle hbase halive hnext]
      exact ⟨hbytes, hfrom, rfl⟩
  · refine ⟨_, rfl, ?_⟩
    rw [State.timerFires, State.core_modCore_self, if_pos ⟨hset, hdue⟩]
  · have hresume := s.resumeCore_parked hrun hroom hpre
    refine ⟨_, congrArg Host.Outcome.next hresume, ?_⟩
    rw [State.core_modCore_self]
    exact ⟨rfl, rfl, rfl, rfl⟩
  · exact congrArg Host.Outcome.next (s.resumeCore_held hheld)
  · rw [exec_fsqEnable, execFsqEnable, if_neg (Bool.eq_false_iff.mp hoff), State.fsqEnable]
    dsimp only
    rw [show State.fetchData _ _ _ _ _ _ = _ from hread]
    rfl

end Sys2Proof.Proofs
end

section
/-! SUPPORT. Frames at a port (R16 to R22, R415, R438): when a frame's turn comes, what a window's checks end with, and what a put, a get and
an answer leave. -/
namespace Sys2Proof.Machine
open Sys2Proof

/-! A frame waits for its turn (R18, R20). -/

/-- A frame joins those that wait. -/
def State.oftWait (s : State) (port : BitVec 3) (f : OftFrame) : State := { s with pkg := { s.pkg with oftAhead := s.pkg.oftAhead ++ [(port, f)] } }
/-- The stream of a frame is past it. -/
def State.oftTurn (s : State) (f : OftFrame) : State := { s with pkg := { s.pkg with oftNext := s.pkg.oftNext.put 0 (frameStream f) (f.num + 1) } }

section Receive
variable {s : State} {port : BitVec 3} (hup : s.portUp port.toNat = true)
include hup

theorem exec_oftFrameReceive_garbled : exec (.oftFrameReceive port .garbled) s = .next (s.ioField (portReg port.toNat) 5 1 1) := by
  simp only [exec_oftFrameReceive, execOftFrameReceive, hup, Bool.not_true, Bool.false_eq_true, if_false]

theorem exec_oftFrameReceive_frame (f : OftFrame) : exec (.oftFrameReceive port (.frame f)) s = .next (
    if f.etype.toNat ≠ s.ioBits 0x0410 0 16 ∨ 4096 < oftPayload f.body then s.ioCount (portReg port.toNat) 16 16
    else if f.num < s.pkg.oftNext.getD (frameStream f) 0 || s.pkg.oftAhead.any (fun q => (frameStream q.2) == (frameStream f) && q.2.num == f.num) then s
    else (s.oftWait port f).oftDrain (s.pkg.oftAhead.length + 1)) := by
  simp only [exec_oftFrameReceive, execOftFrameReceive, hup, Bool.not_true, Bool.false_eq_true, if_false]
  rfl

end Receive

/-- Whether an OFT frame repeats one that has been performed or that waits (R18). -/
theorem oftDuplicate_iff (s : State) (f : OftFrame) :
    (f.num < s.pkg.oftNext.getD (frameStream f) 0 || s.pkg.oftAhead.any (fun q => (frameStream q.2) == (frameStream f) && q.2.num == f.num)) = true ↔
      f.num < s.pkg.oftNext.getD (frameStream f) 0 ∨ ∃ q ∈ s.pkg.oftAhead, frameStream q.2 = frameStream f ∧ q.2.num = f.num := by
  simp only [Bool.or_eq_true, decide_eq_true_eq, List.any_eq_true, Bool.and_eq_true, beq_iff_eq]

/-- The turn of a frame that waits alone. -/
theorem State.oftAhead_find {s : State} {port : BitVec 3} {f : OftFrame} (hnone : s.pkg.oftAhead = []) :
    ((s.oftWait port f).pkg.oftAhead.find? fun q =>
        q.2.num == (s.oftWait port f).pkg.oftNext.getD (frameStream q.2) 0 && !(s.oftWait port f).frameHeld q.2) =
      if f.num = s.pkg.oftNext.getD (frameStream f) 0 ∧ (s.oftWait port f).frameHeld f = false then some (port, f) else none := by
  have hahead : (s.oftWait port f).pkg.oftAhead = [(port, f)] := by rw [State.oftWait, hnone, List.nil_append]
  have hnext : (s.oftWait port f).pkg.oftNext = s.pkg.oftNext := rfl
  simp only [hahead, hnext, List.find?_singleton, Bool.and_eq_true, beq_iff_eq, Bool.not_eq_true']

/-- A frame that waits alone stays while it is not its turn, or a key command holds its pages (R62). -/
theorem State.oftDrain_stays {s : State} {port : BitVec 3} {f : OftFrame} (hnone : s.pkg.oftAhead = [])
    (h : ¬ (f.num = s.pkg.oftNext.getD (frameStream f) 0 ∧ (s.oftWait port f).frameHeld f = false)) :
    (s.oftWait port f).oftDrain 1 = s.oftWait port f := by
  rw [State.oftDrain, State.oftAhead_find hnone, if_neg h]

/-- A frame that waits alone is performed as its turn comes. -/
theorem State.oftDrain_performs {s : State} {port : BitVec 3} {f : OftFrame} (hnone : s.pkg.oftAhead = [])
    (h : f.num = s.pkg.oftNext.getD (frameStream f) 0 ∧ (s.oftWait port f).frameHeld f = false) :
    (s.oftWait port f).oftDrain 1 = (s.oftTurn f).oftPerform port.toNat f := by
  have htaken : ((s.oftWait port f).modPkg fun p =>
      { p with oftAhead := p.oftAhead.erase (port, f), oftNext := p.oftNext.put 0 (frameStream f) (f.num + 1) }) = s.oftTurn f := by
    simp only [State.oftWait, State.oftTurn, State.modPkg, hnone, List.nil_append, List.erase_cons_head]
  rw [State.oftDrain, State.oftAhead_find hnone, if_pos h]
  exact congrArg (fun t : State => t.oftPerform port.toNat f) htaken

/-! Answers (R16, R21). -/

/-- A run of at most 4,096 bytes is one frame; a longer one of at most 8,192 is two. -/
theorem frames_one {b : List (Byte × Bool)} (h : b.length ≤ 4096) (n off : Nat) : frames (n + 1) off b = [(off, b)] := by
  rw [frames, if_pos h]

theorem frames_two {b : List (Byte × Bool)} (hlo : 4096 < b.length) (hhi : b.length ≤ 8192) (n off : Nat) :
    frames (n + 2) off b = [(off, b.take 4096), (off + 4096, b.drop 4096)] := by
  have hrest : (b.drop 4096).length ≤ 4096 := by rw [List.length_drop]; omega
  rw [frames, if_neg (Nat.not_le.mpr hlo), frames_one hrest]

/-! The elements of a run and a window's checks on them (R21, R415, R438). -/

theorem runElems_cons {n e : Nat} (hn : 0 < n) (he : 0 < e) : ∃ l, runElems n e = (0, min e n) :: l := by
  obtain ⟨k, hk⟩ : ∃ k, (n + e - 1) / e = k + 1 := ⟨(n + e - 1) / e - 1, by have := Nat.div_pos (show e ≤ n + e - 1 by omega) he; omega⟩
  exact ⟨_, by rw [runElems, hk, List.range_succ_eq_map, List.map_cons, Nat.mul_zero, Nat.sub_zero]⟩

/-- The check on one element of a run, at `x.1` with `x.2` bytes, in a window of base register `a` and `size` pages. -/
def windowStep (a : Word) (size off : Nat) (put : Bool) (q : (Cause × List Piece) × State) (x : Nat × Nat) : (Cause × List Piece) × State :=
  if q.1.1 ≠ 0 then q
  else if 65536 * size < off + x.1 + x.2 then ((0x281#10, q.1.2), q.2)
  else match q.2.xlate ⟨bits a.toNat 58 6, false, 266⟩ (if put then .store else .load) (bits a.toNat 16 36 * 65536 + off + x.1) x.2 with
    | (.error _, s) => ((0x281#10, q.1.2), s)
    | (.ok l, s) => match l.find? fun p => s.linkCause p.pa != 0 with
      | some p => ((s.linkCause p.pa, q.1.2), s)
      | none => ((0, l.foldl (fun ps p => joinPiece { p with off := p.off + x.1 } ps) q.1.2), s)

/-- The bit of WIN_A that permits a put, or a get (R438). -/
def windowBit (put : Bool) : Nat := if put then 2 else 1

section Window
variable (s : State) (win off n e : Nat) (put : Bool)

theorem State.window_absent (h : (s.ioGet (0x0C00 + 16 * win)).getLsbD 0 = false) :
    s.window win off n e put = ((0x280#10, bits (s.ioGet (0x0C00 + 16 * win)).toNat 58 6, []), s) := by
  simp only [State.window, h, Bool.not_false, if_true]

theorem State.window_forbidden (h : (s.ioGet (0x0C00 + 16 * win)).getLsbD 0 = true)
    (hperm : (s.ioGet (0x0C00 + 16 * win)).getLsbD (windowBit put) = false) :
    s.window win off n e put = ((0x281#10, bits (s.ioGet (0x0C00 + 16 * win)).toNat 58 6, []), s) := by
  rw [windowBit] at hperm
  simp only [State.window, h, hperm, Bool.not_true, Bool.not_false, Bool.false_eq_true, if_true, if_false]

theorem State.window_eq (h : (s.ioGet (0x0C00 + 16 * win)).getLsbD 0 = true)
    (hperm : (s.ioGet (0x0C00 + 16 * win)).getLsbD (windowBit put) = true) :
    s.window win off n e put =
      let a := s.ioGet (0x0C00 + 16 * win)
      let size := s.ioBits (0x0C08 + 16 * win) 0 32
      let r := (runElems (min n (65536 * size - off + 1)) e).foldl (windowStep a size off put) ((0, []), s)
      ((r.1.1, bits a.toNat 58 6, r.1.2.reverse), r.2) := by
  rw [windowBit] at hperm
  simp only [State.window, h, hperm, Bool.not_true, Bool.false_eq_true, if_false]
  rfl

end Window

/-- A check that has failed stands: nothing after it is looked at. -/
theorem foldl_windowStep_failed (a : Word) (size off : Nat) (put : Bool) {q : (Cause × List Piece) × State} (h : q.1.1 ≠ 0) (l : List (Nat × Nat)) :
    l.foldl (windowStep a size off put) q = q := by
  induction l with
  | nil => rfl
  | cons x l ih => rw [List.foldl_cons, show windowStep a size off put q x = q from if_pos h, ih]

section FirstElement
variable {s t : State} {win off n e : Nat} {put : Bool} (hon : (s.ioGet (0x0C00 + 16 * win)).getLsbD 0 = true)
  (hperm : (s.ioGet (0x0C00 + 16 * win)).getLsbD (windowBit put) = true) (hn : 0 < n) (he : 0 < e)
include hon hperm hn he

/-- When the first element fails its check, the window gives its cause and no piece. -/
theorem State.window_first_fails {c : Cause} (hc : c ≠ 0)
    (hfirst : windowStep (s.ioGet (0x0C00 + 16 * win)) (s.ioBits (0x0C08 + 16 * win) 0 32) off put ((0, []), s)
      (0, min e (min n (65536 * s.ioBits (0x0C08 + 16 * win) 0 32 - off + 1))) = ((c, []), t)) :
    s.window win off n e put = ((c, bits (s.ioGet (0x0C00 + 16 * win)).toNat 58 6, []), t) := by
  obtain ⟨l, hl⟩ := runElems_cons (n := min n (65536 * s.ioBits (0x0C08 + 16 * win) 0 32 - off + 1)) (by omega) he
  rw [s.window_eq win off n e put hon hperm]
  dsimp only
  rw [hl, List.foldl_cons, hfirst, foldl_windowStep_failed _ _ _ _ hc]
  rfl

/-- Its first element ends outside the window. -/
theorem State.window_short (hshort : s.ioBits (0x0C08 + 16 * win) 0 32 * 65536 < off + min n e) :
    s.window win off n e put = ((0x281#10, bits (s.ioGet (0x0C00 + 16 * win)).toNat 58 6, []), s) := by
  refine State.window_first_fails hon hperm hn he (by decide) ?_
  have hout : 65536 * s.ioBits (0x0C08 + 16 * win) 0 32 < off + 0 + min e (min n (65536 * s.ioBits (0x0C08 + 16 * win) 0 32 - off + 1)) := by omega
  exact (if_neg (not_not.mpr rfl)).trans (if_pos hout)

/-- Its first element does not translate in the window's context. -/
theorem State.window_untranslated (hfits : off + min n e ≤ s.ioBits (0x0C08 + 16 * win) 0 32 * 65536) {x : TrapInfo}
    (hxlate : s.xlate ⟨bits (s.ioGet (0x0C00 + 16 * win)).toNat 58 6, false, 266⟩ (if put then .store else .load)
      (bits (s.ioGet (0x0C00 + 16 * win)).toNat 16 36 * 65536 + off) (min n e) = (.error x, t)) :
    s.window win off n e put = ((0x281#10, bits (s.ioGet (0x0C00 + 16 * win)).toNat 58 6, []), t) := by
  refine State.window_first_fails hon hperm hn he (by decide) ?_
  have hlen : min e (min n (65536 * s.ioBits (0x0C08 + 16 * win) 0 32 - off + 1)) = min n e := by omega
  have hin : ¬ 65536 * s.ioBits (0x0C08 + 16 * win) 0 32 < off + 0 + min n e := by omega
  rw [hlen]
  refine (if_neg (not_not.mpr rfl)).trans ((if_neg hin).trans ?_)
  rw [Nat.add_zero, hxlate]

end FirstElement

/-! Puts. -/

@[simp] theorem withPoison_length (data : List Byte) (poison : Nat) : (withPoison data poison).length = data.length := by
  simp [withPoison]

/-- The remote core id that a put names is out of range (R21, cause 0x285). -/
def FarCore (post : Option (BitVec 9 × BitVec 4)) : Prop := ∃ c fl, post = some (c, fl) ∧ 255 < c.toNat

theorem farCore_iff (post : Option (BitVec 9 × BitVec 4)) :
    (match post with | some (c, _) => decide (255 < c.toNat) | none => false) = true ↔ FarCore post := by
  obtain _ | ⟨c, fl⟩ := post
  · simp [FarCore]
  · simp [FarCore]

/-- The end of a put whose bytes have all been performed: the increment that it names waits, or it is acknowledged (R19). -/
def State.putDone (s : State) (port : Nat) (f : OftFrame) (cx : Nat) (post : Option (BitVec 9 × BitVec 4)) : State :=
  match post with
  | some (c, fl) => s.modPkg fun q => { q with incs := q.incs ++ [⟨cx, c.toNat, fl.toNat, port, f.src.toNat, f.core.toNat, f.cls.toNat, f.cmd⟩] }
  | none => s.answer 5 port f true 0 []

section Put
variable {s t w : State} {port : Nat} {f : OftFrame} {win off : Nat} {data : List (Byte × Bool)} {e : Nat} {last : Bool}
  {post : Option (BitVec 9 × BitVec 4)}

theorem State.putFrame_gone (h : s.pkg.oftFailed.get? (frameStream f) = some f.cmd) : s.putFrame port f win off data e last post = s := if_pos h

variable (hgone : ¬ s.pkg.oftFailed.get? (frameStream f) = some f.cmd)
include hgone

theorem State.putFrame_far (hfar : FarCore post) : s.putFrame port f win off data e last post = s.failFrame port f 0x285 :=
  (if_neg hgone).trans (if_pos ((farCore_iff post).mpr hfar))

variable (hfar : ¬ FarCore post)
include hfar

/-- What a put comes to once its window has been looked at and its pieces have been stored. -/
theorem State.putFrame_stored {c bad : Cause} {cx : Nat} {ps : List Piece} (hwin : s.window win off data.length e true = ((c, cx, ps), t))
    (hstore : (joinRuns (ps.map fun p => (p.pa, p.key, (data.drop p.off).take p.n))).foldl (fun (q : Cause × State) x =>
      if q.1 ≠ 0 then q else q.2.engineStore ⟨1000, cx, false⟩ x) (0, t) = (bad, w)) :
    s.putFrame port f win off data e last post =
      if (if bad ≠ 0 then bad else c) ≠ 0 then w.failFrame port f (if bad ≠ 0 then bad else c)
      else if !last then w else w.putDone port f cx post := by
  refine (if_neg hgone).trans ((if_neg (mt (farCore_iff post).mp hfar)).trans ?_)
  rw [hwin]
  dsimp only
  rw [hstore]
  rfl

/-- A put whose window gives a cause and no piece writes nothing. -/
theorem State.putFrame_refused {c : Cause} {cx : Nat} (hc : c ≠ 0) (hwin : s.window win off data.length e true = ((c, cx, []), t)) :
    s.putFrame port f win off data e last post = t.failFrame port f c := by
  rw [State.putFrame_stored hgone hfar hwin (w := t) (bad := 0) rfl]
  exact if_pos hc

end Put

/-! Gets. -/

/-- The answers of a get that has read `data`: in frames of at most 4,096 bytes, the last marked when nothing failed; none when it failed at once. -/
def State.getAnswers (s : State) (port : Nat) (f : OftFrame) (last : Bool) (cause : Cause) (data : List (Byte × Bool)) : State :=
  let fs := if cause ≠ 0 ∧ data.isEmpty then [] else frames (data.length + 1) 0 data
  (fs.zip (List.range fs.length)).foldl (fun s q => s.answer 4 port f (cause == 0 && last && decide (q.2 + 1 = fs.length)) 0 q.1.2) s

section Answers
variable (s : State) (port : Nat) (f : OftFrame) (last : Bool) {cause : Cause} {data : List (Byte × Bool)}

theorem State.getAnswers_failed_at_once (hc : cause ≠ 0) : s.getAnswers port f last cause [] = s := by
  simp only [State.getAnswers, if_pos (show cause ≠ 0 ∧ ([] : List (Byte × Bool)).isEmpty = true from ⟨hc, rfl⟩), List.zip_nil_left, List.foldl_nil]

theorem State.getAnswers_one (hany : cause = 0 ∨ data ≠ []) (hlen : data.length ≤ 4096) :
    s.getAnswers port f last cause data = s.answer 4 port f (cause == 0 && last) 0 data := by
  have hsome : ¬ (cause ≠ 0 ∧ data.isEmpty = true) := by
    rw [List.isEmpty_iff, not_and_or, not_not]
    exact hany
  rw [State.getAnswers, if_neg hsome, frames_one hlen]
  simp

theorem State.getAnswers_two (hc : cause = 0) (hlo : 4096 < data.length) (hhi : data.length ≤ 8192) :
    s.getAnswers port f last cause data = (s.answer 4 port f false 0 (data.take 4096)).answer 4 port f last 0 (data.drop 4096) := by
  obtain ⟨k, hk⟩ : ∃ k, data.length + 1 = k + 2 := ⟨data.length - 1, by omega⟩
  have hfs : frames (data.length + 1) 0 data = [(0, data.take 4096), (0 + 4096, data.drop 4096)] := by rw [hk, frames_two hlo hhi]
  simp [State.getAnswers, hc, hfs, List.range_succ]

end Answers

section Get
variable {s t w : State} {port : Nat} {f : OftFrame} {win off n e : Nat} {last : Bool}

theorem State.getFrame_gone (h : s.pkg.oftFailed.get? (frameStream f) = some f.cmd) : s.getFrame port f win off n e last = s := if_pos h

variable (hgone : ¬ s.pkg.oftFailed.get? (frameStream f) = some f.cmd)
include hgone

/-- What a get comes to once its window has been looked at and its pieces have been read. -/
theorem State.getFrame_read {c bad : Cause} {cx : Nat} {ps : List Piece} {data : List (Byte × Bool)}
    (hwin : s.window win off n e false = ((c, cx, ps), t))
    (hread : ps.foldl (fun (q : (Cause × List (Byte × Bool)) × State) p =>
      if q.1.1 ≠ 0 then q
      else
        let r := q.2.fetchData ⟨1000, cx, false⟩ p.pa p.n p.key 2
        if r.1.2.isEmpty then ((r.1.1, q.1.2), r.2) else ((0, q.1.2 ++ r.1.2.map fun b => (b, r.1.1 != 0)), r.2)) ((0, []), t) = ((bad, data), w)) :
    s.getFrame port f win off n e last =
      let cause := if bad ≠ 0 then bad else c
      if cause ≠ 0 then (w.getAnswers port f last cause data).failFrame port f cause else w.getAnswers port f last cause data := by
  refine (if_neg hgone).trans ?_
  rw [hwin]
  dsimp only
  rw [show List.foldl _ _ ps = _ from hread]
  rfl

/-- A get whose window gives a cause and no piece answers nothing but the cause. -/
theorem State.getFrame_refused {c : Cause} {cx : Nat} (hc : c ≠ 0) (hwin : s.window win off n e false = ((c, cx, []), t)) :
    s.getFrame port f win off n e last = t.failFrame port f c := by
  rw [State.getFrame_read hgone hwin (w := t) (bad := 0) (data := []) rfl]
  exact (if_pos hc).trans (congrArg (fun v : State => v.failFrame port f c) (t.getAnswers_failed_at_once port f last hc))

end Get

/-! What each kind of frame does as its turn comes. -/

section Perform
variable {s : State} {port : Nat} {f : OftFrame}

theorem State.oftPerform_put {win : BitVec 6} {off : Nat} {data : List Byte} {poison : Nat} {esz : BitVec 3} {last : Bool}
    {post : Option (BitVec 9 × BitVec 4)} (hbody : f.body = .put win off data poison esz last post) :
    s.oftPerform port f = (s.settleIncs f).putFrame port f win.toNat off (withPoison data poison) (2 ^ esz.toNat) last post := by
  simp only [State.oftPerform, hbody]

theorem State.oftPerform_get {win : BitVec 6} {off n : Nat} {esz : BitVec 3} {last : Bool} (hbody : f.body = .get win off n esz last) :
    s.oftPerform port f = (s.settleIncs f).getFrame port f win.toNat off n (2 ^ esz.toNat) last := by
  simp only [State.oftPerform, hbody]

section Answered
variable {k : Cmd} (hcmd : s.netCmd f.core.toNat f.cls.toNat f.src.toNat f.cmd = some k)
include hcmd

theorem State.oftPerform_ack (hbody : f.body = .ack) (hput : k.isPut = true) : s.oftPerform port f = s.endCmd f.core.toNat k 0 0 0 := by
  simp only [State.oftPerform, hbody, hcmd, hput, if_true]

theorem State.oftPerform_nak {c : Cause} (hbody : f.body = .nak c) :
    s.oftPerform port f = if k.isPut then s.endCmd f.core.toNat k c 0 0 else s.getDone f.core.toNat k c := by
  simp only [State.oftPerform, hbody, hcmd]

end Answered

/-- A byte of the data is poisoned. -/
theorem poisoned_iff (n poison : Nat) : (n ≠ 0 ∧ poison % 2 ^ n ≠ 0) ↔ ∃ i < n, poison.testBit i = true := by
  constructor
  · rintro ⟨-, hbits⟩
    obtain ⟨i, hi⟩ := Nat.exists_testBit_of_ne_zero hbits
    rw [Nat.testBit_mod_two_pow, Bool.and_eq_true, decide_eq_true_eq] at hi
    exact ⟨i, hi⟩
  · rintro ⟨i, hi, hbit⟩
    refine ⟨by omega, fun hzero => ?_⟩
    have hread := Nat.testBit_mod_two_pow poison n i
    rw [hzero, hbit, Nat.zero_testBit] at hread
    simp [hi] at hread

theorem State.oftPerform_getResp {k : Cmd} (hcmd : s.netCmd f.core.toNat f.cls.toNat f.src.toNat f.cmd = some k) (hget : k.isPut = false)
    {data : List Byte} {poison : Nat} {last : Bool} (hbody : f.body = .getResp data poison last) :
    let k' := { k with src := k.src ++ withPoison data poison }
    s.oftPerform port f = if last = true ∨ ∃ i < data.length, poison.testBit i = true then s.getDone f.core.toNat k' 0
      else s.modCore f.core.toNat fun c => { c with cmds := c.cmds.map fun x => if x.seq = k.seq then k' else x } := by
  simp only [State.oftPerform, hbody, hcmd, hget, Bool.false_eq_true, if_false, ← poisoned_iff]

section Unknown
variable (hcmd : s.netCmd f.core.toNat f.cls.toNat f.src.toNat f.cmd = none)
include hcmd

theorem State.oftPerform_late_end (hbody : f.body = .ack ∨ ∃ c, f.body = .nak c) : s.oftPerform port f = s.tighten f.core.toNat f.cmd := by
  obtain hbody | ⟨c, hbody⟩ := hbody <;> simp only [State.oftPerform, hbody, hcmd]

theorem State.oftPerform_late_data (hbody : ∃ d p l, f.body = .getResp d p l) : s.oftPerform port f = s := by
  obtain ⟨d, p, l, hbody⟩ := hbody
  simp only [State.oftPerform, hbody, hcmd]

end Unknown
end Perform

/-- An answer belongs to a sent command of its number, class and node (R20). -/
theorem State.netCmd_spec {s : State} {core cls node cmd : Nat} {k : Cmd} (h : s.netCmd core cls node cmd = some k) :
    k ∈ (s.core core).cmds ∧ k.isNet = true ∧ k.sent = true ∧ k.seq = cmd ∧ k.cls = cls ∧ dNode k.desc = node := by
  refine ⟨List.mem_of_find?_eq_some h, ?_⟩
  simpa only [Bool.and_eq_true, beq_iff_eq, and_assoc] using List.find?_some h

/-! Increments, lost frames and acknowledgements that do not come (R19, R21). -/

theorem exec_oftPutFlagIncrement_first {s : State} {k : Nat} {i : NetInc} (hk : s.pkg.incs[k]? = some i)
    (hfirst : ∀ j ∈ s.pkg.incs.take k, j.src = i.src → j.from' = i.from' → j.cls ≠ i.cls) :
    exec (.oftPutFlagIncrement k) s = .next (({ s with pkg := { s.pkg with incs := s.pkg.incs.eraseIdx k } } : State).incDone i) := by
  have hnone : ((s.pkg.incs.take k).any fun j => j.src == i.src && j.from' == i.from' && j.cls == i.cls) = false := by
    simp only [List.any_eq_false, Bool.and_eq_true, beq_iff_eq, not_and, and_imp]
    exact hfirst
  simp only [exec_oftPutFlagIncrement, execOftPutFlagIncrement, hk, hnone, Bool.false_eq_true, if_false, State.modPkg, List.eraseIdx_eq_take_drop_succ]

theorem exec_oftPutFlagIncrement_later {s : State} {k : Nat} {i j : NetInc} (hk : s.pkg.incs[k]? = some i) (hj : j ∈ s.pkg.incs.take k)
    (hsrc : j.src = i.src) (hfrom : j.from' = i.from') (hcls : j.cls = i.cls) : exec (.oftPutFlagIncrement k) s = .next s := by
  have hsome : ((s.pkg.incs.take k).any fun j => j.src == i.src && j.from' == i.from' && j.cls == i.cls) = true :=
    List.any_eq_true.mpr ⟨j, hj, by simp only [hsrc, hfrom, hcls, beq_self_eq_true, Bool.and_self]⟩
  simp only [exec_oftPutFlagIncrement, execOftPutFlagIncrement, hk, hsome, if_true]

section Increment
variable {s : State} {i : NetInc} (hcore : isCtl i.core = false)
include hcore

/-- The named core holds a chunk of the context: its flag counts. -/
theorem State.incDone_held (hctx : i.ctx < 64) {q : Chunk} (hchunk : (s.core i.core).chunk = some q) (hq : q.ctx = i.ctx) :
    s.incDone i = (s.modCore i.core fun c => c.flagForeign i.flag 1).oftSend 5 i.port i.from' i.cls i.cmd i.src 0 0 0 0 [] := by
  have hne : i.ctx ≠ 64 := Nat.ne_of_lt hctx
  have hheld : (s.remoteHeld i.ctx i.core).isSome = true := by simp [State.remoteHeld, hchunk, hq]
  have hpost : s.deliverPost i.ctx i.core i.flag 1 = s.modCore i.core fun c => c.flagForeign i.flag 1 := by
    simp [State.deliverPost, hcore, hchunk, hq, hne]
  simp only [State.incDone, hheld, hpost, if_true]

/-- It holds none: the increment is discarded and counted (R343). -/
theorem State.incDone_unheld (hchunk : (s.core i.core).chunk = none) (hres : (s.core i.core).resident = []) :
    s.incDone i = (s.dropPost i.ctx).oftSend 6 i.port i.from' i.cls i.cmd i.src 0 0 0x287 0 [] := by
  have hheld : (s.remoteHeld i.ctx i.core).isSome = false := by simp [State.remoteHeld, hchunk, hres]
  have hpost : s.deliverPost i.ctx i.core i.flag 1 = s.dropPost i.ctx := by simp [State.deliverPost, hcore, hchunk, hres]
  simp only [State.incDone, hheld, hpost, Bool.false_eq_true, if_false]

end Increment

end Sys2Proof.Machine

namespace Sys2Proof.Proofs
open Sys2Proof Sys2Proof.Machine

/-- Settles O34: a frame that arrives is dropped, waits for its turn or is performed; a put and a get are then what their window's checks
and their pieces leave, and an answer ends the command that it belongs to. -/
theorem frameResults : Obligations.FrameResults := by
  unfold Obligations.FrameResults
  refine ⟨fun s kind port core cls cmd node win esz off count data => rfl, fun s port f hup => ?_, fun s core cls node cmd k hk => State.netCmd_spec hk,
    fun s k => ⟨fun i hk hfirst => ?_, fun i j hk hj hsrc hfrom hcls => exec_oftPutFlagIncrement_later hk hj hsrc hfrom hcls, fun b hb => ?_, ?_⟩⟩
  · intro o st turn got large answer
    have hlarge : large = true ↔ 4096 < oftPayload f.body := by
      dsimp only [large]
      cases f.body <;> simp [oftPayload]
    have hframe := exec_oftFrameReceive_frame hup f
    refine ⟨⟨_, exec_oftFrameReceive_garbled hup, (s.getLsbD_ioGet_ioField _ _ _ _ (by decide)).trans rfl⟩, fun hdrop => ?_, fun hety hsmall => ?_⟩
    · have hbad : f.etype.toNat ≠ s.ioBits 0x0410 0 16 ∨ 4096 < oftPayload f.body := hdrop.imp_right hlarge.mp
      refine ⟨_, hframe.trans (congrArg Host.Outcome.next (if_pos hbad)), s.ioBits_ioCount _ (by decide), rfl, rfl⟩
    · intro wait
      have hok : ¬ (f.etype.toNat ≠ s.ioBits 0x0410 0 16 ∨ 4096 < oftPayload f.body) :=
        not_or.mpr ⟨not_not.mpr hety, fun h => Bool.false_ne_true (hsmall.symm.trans (hlarge.mpr h))⟩
      replace hframe := hframe.trans (congrArg Host.Outcome.next (if_neg hok))
      have hfresh (hturn : turn ≤ f.num) (hnew : ∀ q ∈ s.pkg.oftAhead, frameStream q.2 = st → q.2.num ≠ f.num) :
          got (wait.oftDrain (s.pkg.oftAhead.length + 1)) := by
        refine hframe.trans (congrArg Host.Outcome.next (if_neg (mt (oftDuplicate_iff s f).mp ?_)))
        rintro (hlt | ⟨q, hq, hst, hnum⟩)
        · exact Nat.not_lt.mpr hturn hlt
        · exact hnew q hq hst hnum
      have halone (hnone : s.pkg.oftAhead = []) (hturn : turn ≤ f.num) : got (wait.oftDrain 1) := by
        have hdrain := hfresh hturn (by simp [hnone])
        rwa [hnone] at hdrain
      refine ⟨fun hdup => hframe.trans (congrArg Host.Outcome.next (if_pos ((oftDuplicate_iff s f).mpr hdup))), hfresh, fun hnone hstay => ?_,
        fun hnone hturn hfree => ?_⟩
      · have hturn : turn ≤ f.num := hstay.elim Nat.le_of_lt fun h => Nat.le_of_eq h.1
        have hnot : ¬ (f.num = turn ∧ wait.frameHeld f = false) := by
          rintro ⟨hnum, hfree⟩
          obtain hlt | ⟨-, hheld⟩ := hstay
          · omega
          · exact Bool.false_ne_true (hfree.symm.trans hheld)
        exact (halone hnone hturn).trans (congrArg Host.Outcome.next (State.oftDrain_stays hnone hnot))
      · intro r u gone failed base size ctx at'
        have hperform : got (r.oftPerform port.toNat f) :=
          (halone hnone (Nat.le_of_eq hturn.symm)).trans (congrArg Host.Outcome.next (State.oftDrain_performs hnone ⟨hturn, hfree⟩))
        refine ⟨fun win off data poison esz last post hbody => ?_, fun win off n esz last hbody => ?_, fun k hcmd => ?_, fun hcmd => ?_⟩
        · have hto {t : State} (h : u.putFrame port.toNat f win.toNat off (withPoison data poison) (2 ^ esz.toNat) last post = t) : got t :=
            hperform.trans (congrArg Host.Outcome.next ((State.oftPerform_put hbody).trans h))
          have hlen (put : Bool) (e : Nat) : u.window win.toNat off (withPoison data poison).length e put = u.window win.toNat off data.length e put := by
            rw [withPoison_length]
          intro far e
          have he : 0 < e := Nat.two_pow_pos _
          refine ⟨fun hgone => hto (State.putFrame_gone hgone), fun hgone hfar => hto (State.putFrame_far hgone hfar), fun hgone hfar hoff => ?_,
            fun hgone hfar hon hperm => ?_, fun hgone hfar hon hperm hpos => ⟨fun hshort => ?_, fun x t hfits hx => ?_⟩,
            fun c cx ps t bad w hgone hfar hwin hstore => ?_⟩
          · exact hto (State.putFrame_refused hgone hfar (by decide) ((hlen _ _).trans (u.window_absent _ _ _ _ _ hoff)))
          · exact hto (State.putFrame_refused hgone hfar (by decide) ((hlen _ _).trans (u.window_forbidden _ _ _ _ _ hon hperm)))
          · exact hto (State.putFrame_refused hgone hfar (by decide) ((hlen _ _).trans (State.window_short hon hperm hpos he hshort)))
          · exact hto (State.putFrame_refused hgone hfar (by decide) ((hlen _ _).trans (State.window_untranslated hon hperm hpos he hfits hx)))
          · have hput := State.putFrame_stored (port := port.toNat) (last := last) hgone hfar ((hlen _ _).trans hwin) hstore
            refine ⟨fun hbad => hto (hput.trans ?_), fun hbad hc => hto (hput.trans ?_), fun hbad hc hlast => hto (hput.trans ?_),
              fun hbad hc hlast hpost => hto (hput.trans ?_), fun hbad hc hlast core fl hpost => hto (hput.trans ?_)⟩
            · rw [if_pos hbad, if_pos hbad]
              rfl
            · rw [if_neg (not_not.mpr hbad), if_pos hc]
              rfl
            · rw [if_neg (not_not.mpr hbad), if_neg (not_not.mpr hc), if_pos (by rw [hlast]; rfl)]
            · rw [if_neg (not_not.mpr hbad), if_neg (not_not.mpr hc), if_neg (by rw [hlast]; decide), hpost]
              rfl
            · rw [if_neg (not_not.mpr hbad), if_neg (not_not.mpr hc), if_neg (by rw [hlast]; decide), hpost]
              rfl
        · have hto {t : State} (h : u.getFrame port.toNat f win.toNat off n (2 ^ esz.toNat) last = t) : got t :=
            hperform.trans (congrArg Host.Outcome.next ((State.oftPerform_get hbody).trans h))
          intro e
          have he : 0 < e := Nat.two_pow_pos _
          refine ⟨fun hgone => hto (State.getFrame_gone hgone), fun hgone hoff => ?_, fun hgone hon hperm => ?_,
            fun hgone hon hperm hpos => ⟨fun hshort => ?_, fun x t hfits hx => ?_⟩, fun c cx ps t bad data w hgone hwin hread => ?_⟩
          · exact hto (State.getFrame_refused hgone (by decide) (u.window_absent _ _ _ _ _ hoff))
          · exact hto (State.getFrame_refused hgone (by decide) (u.window_forbidden _ _ _ _ _ hon hperm))
          · exact hto (State.getFrame_refused hgone (by decide) (State.window_short hon hperm hpos he hshort))
          · exact hto (State.getFrame_refused hgone (by decide) (State.window_untranslated hon hperm hpos he hfits hx))
          · intro cause
            have hget := State.getFrame_read (port := port.toNat) (last := last) hgone hwin hread
            have hfails {v : State} (hc : cause ≠ 0) (hv : w.getAnswers port.toNat f last cause data = v) : got (failed v cause) := by
              refine hto (hget.trans ((if_pos hc).trans ?_))
              rw [hv]
              rfl
            have hdone {v : State} (hc : cause = 0) (hv : w.getAnswers port.toNat f last cause data = v) : got v :=
              hto (hget.trans ((if_neg (not_not.mpr hc)).trans hv))
            refine ⟨fun hc hempty => ?_, fun hc hsome hshort => ?_, fun hc hshort => ?_, fun hc hlo hhi => ?_⟩
            · subst hempty
              exact hfails hc (w.getAnswers_failed_at_once port.toNat f last hc)
            · refine hfails hc ((w.getAnswers_one port.toNat f last (.inr hsome) hshort).trans ?_)
              rw [beq_false_of_ne hc, Bool.false_and]
              rfl
            · refine hdone hc ((w.getAnswers_one port.toNat f last (.inl hc) hshort).trans ?_)
              rw [hc]
              rfl
            · exact hdone hc (w.getAnswers_two port.toNat f last hc hlo hhi)
        · refine ⟨fun hack hput => ?_, fun c hnak => ?_, fun data poison last hresp hget => ?_⟩
          · rwa [State.oftPerform_ack hcmd hack hput] at hperform
          · rwa [State.oftPerform_nak hcmd hnak] at hperform
          · rw [State.oftPerform_getResp hcmd hget hresp] at hperform
            intro k' spoilt
            refine ⟨fun hend => ?_, fun hlast hclean => ?_⟩
            · rwa [if_pos hend] at hperform
            · rwa [if_neg (not_or.mpr ⟨by simp [hlast], hclean⟩)] at hperform
        · refine ⟨fun hend => ?_, fun hdata => ?_⟩
          · rwa [State.oftPerform_late_end hcmd hend] at hperform
          · rwa [State.oftPerform_late_data hcmd hdata] at hperform
  · intro u told
    have hexec := exec_oftPutFlagIncrement_first hk hfirst
    refine ⟨fun hcore hctx q hchunk hq => ?_, fun hcore hctx hchunk hres => ?_⟩
    · exact hexec.trans (congrArg Host.Outcome.next (State.incDone_held hcore hctx hchunk hq))
    · exact hexec.trans (congrArg Host.Outcome.next (State.incDone_unheld hcore hchunk hres))
  · rw [exec_oftRetransmit, execOftRetransmit, hb]
    refine ⟨fun hlock => congrArg Host.Outcome.next (if_pos ?_), fun hlock => congrArg Host.Outcome.next (if_neg ?_)⟩
    · rw [State.oftLocked, hlock]
      rfl
    · rw [State.oftLocked, hlock]
      decide
  · intro sent
    refine ⟨fun core c hc => ?_, fun hnone => ?_⟩
    · rw [exec_oftAckTimeout, execOftAckTimeout]
      rw [show (List.flatMap _ _)[k]? = _ from hc]
      rfl
    · rw [exec_oftAckTimeout, execOftAckTimeout]
      rw [show (List.flatMap _ _)[k]? = _ from hnone]
      rfl

end Sys2Proof.Proofs
end

section
/-! SUPPORT. Hints (R44, R316, R381, R425): the runs of pages that a tier hint names, and what a prefetch and a hint do case by case. -/
namespace Sys2Proof.Machine
open Sys2Proof

/-- The pages that a run of consecutive page frames names. -/
def runPages (q : Nat × Nat) : List Nat := (List.range q.2).map (q.1 + ·)

theorem runPages_succ (a n : Nat) : runPages (a, n + 1) = runPages (a, n) ++ [a + n] := by
  simp [runPages, List.range_succ]

/-- One more page extends the last run, or begins another. -/
def addPage (acc : List (Nat × Nat)) (p : Nat) : List (Nat × Nat) :=
  match acc with
  | (a, n) :: t => if a + n = p ∧ n < 256 then (a, n + 1) :: t else (p, 1) :: (a, n) :: t
  | [] => [(p, 1)]

theorem pageRuns_eq (l : List Nat) : pageRuns l = (l.foldl addPage []).reverse := rfl

/-- A run names at least one page and at most 256. -/
def RunFits (q : Nat × Nat) : Prop := 0 < q.2 ∧ q.2 ≤ 256

theorem addPage_pages (acc : List (Nat × Nat)) (p : Nat) : (addPage acc p).reverse.flatMap runPages = acc.reverse.flatMap runPages ++ [p] := by
  match acc with
  | [] => simp [addPage, runPages]
  | (a, n) :: t =>
    by_cases h : a + n = p ∧ n < 256
    · simp [addPage, h, runPages_succ]
    · simp [addPage, h, runPages]

theorem addPage_fits {acc : List (Nat × Nat)} (hacc : ∀ q ∈ acc, RunFits q) (p : Nat) : ∀ q ∈ addPage acc p, RunFits q := by
  match acc with
  | [] => simp [addPage, RunFits]
  | (a, n) :: t =>
    obtain ⟨⟨hpos, -⟩, ht⟩ := List.forall_mem_cons.mp hacc
    by_cases h : a + n = p ∧ n < 256
    · simp only [addPage, h, and_self, if_true, List.forall_mem_cons]
      exact ⟨⟨by simp, h.2⟩, ht⟩
    · simp only [addPage, h, if_false, List.forall_mem_cons]
      exact ⟨⟨Nat.one_pos, Nat.le_of_ble_eq_true rfl⟩, List.forall_mem_cons.mp hacc⟩

theorem pageRuns_pages (l : List Nat) : (pageRuns l).flatMap runPages = l := by
  have h (acc : List (Nat × Nat)) : (l.foldl addPage acc).reverse.flatMap runPages = acc.reverse.flatMap runPages ++ l := by
    induction l generalizing acc with
    | nil => simp
    | cons p l ih => rw [List.foldl_cons, ih, addPage_pages, List.append_assoc, List.singleton_append]
  exact h []

theorem pageRuns_fits (l : List Nat) : ∀ q ∈ pageRuns l, RunFits q := by
  have h {acc : List (Nat × Nat)} (hacc : ∀ q ∈ acc, RunFits q) : ∀ q ∈ l.foldl addPage acc, RunFits q := by
    induction l generalizing acc with
    | nil => exact hacc
    | cons p l ih => exact ih (addPage_fits hacc p)
  simpa [pageRuns_eq] using h (acc := []) (by simp)

/-! Prefetch (R381). -/

/-- The line that a prefetch names. -/
def State.prefLine (s : State) (r : PrefArgs) : Nat := (s.gpr .s r.base + BitVec.ofInt 64 r.disp.toInt).toNat / 64 * 64

/-- A line comes through L2, and enters the scalar data cache where the level asks for it. -/
def State.prefFetch (t : State) (r : PrefArgs) (a pa key : Nat) : State :=
  let u := (t.l2Read pa 64 t.who.ctx key r.u.toNat).touch [.page a, .line pa key r.u.toNat]
  if r.lvl = 1 then u.sdcAdd u.issue.core (pa / 64) else u

/-- What a prefetch does when its guard is true. -/
def prefEffect (r : PrefArgs) (s : State) : Res :=
  let a := s.prefLine r
  if (s.cur.winOfVa a).isSome then .ok s
  else match s.xlatePage s.who .load a with
    | (.error _, t) => .ok (t.touch [.page a])
    | (.ok (pa, key), t) => if !l2Cached pa || t.linkCause pa != 0 then .ok (t.touch [.page a]) else .ok (t.prefFetch r a pa key)

theorem exec_pref_eq_runNow (o : OpInfo) (r : PrefArgs) (s : State) : exec (.pref o r) s = s.runNow o (prefEffect r) := by
  rw [exec_pref]; rfl

section Prefetch
variable {s t : State} {r : PrefArgs} 

theorem prefEffect_window (hw : (s.cur.winOfVa (s.prefLine r)).isSome = true) : prefEffect r s = .ok s := if_pos hw

theorem prefEffect_untranslated {x : TrapInfo} (hw : (s.cur.winOfVa (s.prefLine r)).isSome = false)
    (hx : s.xlatePage s.who .load (s.prefLine r) = (.error x, t)) : prefEffect r s = .ok (t.touch [.page (s.prefLine r)]) := by
  simp only [prefEffect, hw, hx, Bool.false_eq_true, if_false]

variable {pa key : Nat} (hw : (s.cur.winOfVa (s.prefLine r)).isSome = false) (hx : s.xlatePage s.who .load (s.prefLine r) = (.ok (pa, key), t))
include hw hx

theorem prefEffect_unreachable (h : l2Cached pa = false ∨ t.linkCause pa ≠ 0) : prefEffect r s = .ok (t.touch [.page (s.prefLine r)]) := by
  have h : (!l2Cached pa || t.linkCause pa != 0) = true := by simpa using h
  simp only [prefEffect, hw, hx, h, Bool.false_eq_true, if_false, if_true]

theorem prefEffect_fetch (hl2 : l2Cached pa = true) (hlink : t.linkCause pa = 0) : prefEffect r s = .ok (t.prefFetch r (s.prefLine r) pa key) := by
  have h : (!l2Cached pa || t.linkCause pa != 0) = false := by simp [hl2, hlink]
  simp only [prefEffect, hw, hx, h, Bool.false_eq_true, if_false]

end Prefetch

theorem State.arrivalOk_touch {s : State} {a : Option Arrival} (h : s.arrivalOk a) (l : List Touch) : (s.touch l).arrivalOk a :=
  State.arrivalOk_issue h _ rfl

/-! Tier hints (R44, R425). -/

/-- The first page that a tier hint names. -/
def State.hintBase (s : State) (r : ChintArgs) : Nat := (dWord (s.cur.rD r.base.toNat) 0).toNat / 65536

/-- One page of a hint: its frame is noted when it stands in tier 2. -/
def hintPage (base : Nat) (q : List Nat × State) (i : Nat) : List Nat × State :=
  match q.2.xlatePage q.2.who .load ((base + i) * 65536) with
  | (.error _, x) => (q.1, x)
  | (.ok (pa, _), x) => (if tierOf pa = .tier2 then q.1 ++ [pa / 65536] else q.1, x)

/-- The expander is told of runs of pages. -/
def State.tellExpander (t : State) (un : Nat) (runs : List (Nat × Nat)) : State :=
  { t with out := t.out ++ runs.map fun q => (chExpander, bytesOf 1 un ++ bytesOf 2 q.2 ++ bytesOf 8 q.1) }

/-- The pages that a tier hint walks, as touches. -/
def State.hintTouches (s : State) (r : ChintArgs) : List Touch := (List.range (r.pages.toNat + 1)).map fun i => .page ((s.hintBase r + i) * 65536)

/-- What a hint does when its guard is true. -/
def chintEffect (r : ChintArgs) (s : State) : Res :=
  let q := (List.range (r.pages.toNat + 1)).foldl (hintPage (s.hintBase r)) ([], s)
  let t := q.2.touch (s.hintTouches r)
  if t.iso ∨ !(t.ioGet 0x0508).getLsbD 1 then .ok t else .ok (t.tellExpander r.un.toNat (pageRuns q.1))

theorem exec_chint_eq_runNow (o : OpInfo) (r : ChintArgs) (s : State) : exec (.chint o r) s = s.runNow o (chintEffect r) := by
  rw [exec_chint]; rfl

theorem chintEffect_silent {r : ChintArgs} {s t' : State} {frames : List Nat}
    (hf : (List.range (r.pages.toNat + 1)).foldl (hintPage (s.hintBase r)) ([], s) = (frames, t'))
    (h : (t'.touch (s.hintTouches r)).iso = true ∨ ((t'.touch (s.hintTouches r)).ioGet 0x0508).getLsbD 1 = false) :
    chintEffect r s = .ok (t'.touch (s.hintTouches r)) := by
  simp only [chintEffect, hf]
  rw [if_pos (by simpa using h)]

theorem chintEffect_tells {r : ChintArgs} {s t' : State} {frames : List Nat}
    (hf : (List.range (r.pages.toNat + 1)).foldl (hintPage (s.hintBase r)) ([], s) = (frames, t'))
    (hiso : (t'.touch (s.hintTouches r)).iso = false) (hup : ((t'.touch (s.hintTouches r)).ioGet 0x0508).getLsbD 1 = true) :
    chintEffect r s = .ok ((t'.touch (s.hintTouches r)).tellExpander r.un.toNat (pageRuns frames)) := by
  simp only [chintEffect, hf]
  rw [if_neg (by simp [hiso, hup])]

end Sys2Proof.Machine

namespace Sys2Proof.Proofs
open Sys2Proof Sys2Proof.Machine

/-- Settles O17: each hint retires at issue, so that it ends in its effect and the arrival; the runs of a tier hint name its frames in order. -/
theorem hintResults : Obligations.HintResults := by
  unfold Obligations.HintResults
  intro o s hg ha
  refine ⟨State.runNow_true hg rfl ha, fun r => ?_, fun r frames t' => ?_⟩
  · have pref {t : State} (h : prefEffect r s = .ok t) (ht : t.arrivalOk o.arr) : exec (.pref o r) s = .next (t.arrival o.arr) :=
      (exec_pref_eq_runNow o r s).trans (State.runNow_true hg h ht)
    exact ⟨fun hw => pref (prefEffect_window hw) ha, fun x t hw hx ht => pref (prefEffect_untranslated hw hx) (State.arrivalOk_touch ht _),
      fun pa key t hw hx => ⟨fun hno ht => pref (prefEffect_unreachable hw hx hno) (State.arrivalOk_touch ht _),
        fun hl2 hlink hv => pref (prefEffect_fetch hw hx hl2 hlink) hv⟩⟩
  · intro base hf t ht
    have chint {u : State} (h : chintEffect r s = .ok u) (hu : u.arrivalOk o.arr) : exec (.chint o r) s = .next (u.arrival o.arr) :=
      (exec_chint_eq_runNow o r s).trans (State.runNow_true hg h hu)
    refine ⟨fun hno => chint (chintEffect_silent hf hno) ht, fun hiso hup => ⟨pageRuns frames, pageRuns_pages frames, pageRuns_fits frames, ?_⟩⟩
    exact chint (chintEffect_tells hf hiso hup) (State.arrivalOk_of ht rfl rfl rfl rfl)

end Sys2Proof.Proofs
end

section
/-! SUPPORT. Finite maps: whether a key is listed after an update (R3). -/
namespace Sys2Proof.Machine
open Sys2Proof

variable {α : Type}

theorem SMap.has_ins (m : SMap α) (i : Nat) (v : α) (j : Nat) : (m.ins i v).has j = (decide (i = j) || m.has j) := by
  by_cases h : i = j
  · subst h; simp [SMap.has]
  · simp [SMap.has, SMap.get?_ins_ne _ _ h, h]

theorem SMap.has_del (m : SMap α) (i j : Nat) : (m.del i).has j = (!decide (i = j) && m.has j) := by
  by_cases h : i = j
  · subst h; simp [SMap.has]
  · simp [SMap.has, SMap.get?_del_ne _ h, h]

@[simp] theorem SMap.has_nil (j : Nat) : SMap.has ([] : SMap α) j = false := rfl
@[simp] theorem SMap.has_ins_self (m : SMap α) (i : Nat) (v : α) : (m.ins i v).has i = true := by simp [SMap.has_ins]
@[simp] theorem SMap.has_del_self (m : SMap α) (i : Nat) : (m.del i).has i = false := by simp [SMap.has_del]

theorem SMap.has_mark (m : SMap Unit) (i : Nat) (b : Bool) (j : Nat) : (m.mark i b).has j = if i = j then b else m.has j := by
  cases b
  · by_cases h : i = j <;> simp [SMap.mark, SMap.has_del, h]
  · by_cases h : i = j <;> simp [SMap.mark, SMap.has_ins, h]

/-- Whether a key is listed reads off the list of keys. -/
theorem SMap.has_iff_mem (m : SMap α) (i : Nat) : m.has i = true ↔ i ∈ m.map Prod.fst := by
  induction m with
  | nil => simp
  | cons q m ih =>
    obtain ⟨k, v⟩ := q
    simp only [SMap.has] at ih
    by_cases h : k = i
    · simp [SMap.has, SMap.get?_cons, h]
    · simp [SMap.has, SMap.get?_cons, h, ih, Ne.symm h]

end Sys2Proof.Machine
end

section
/-! SUPPORT. The expander port (R43 to R48): what each of its events leaves in EXP_STAT and in the poison of memory. -/
namespace Sys2Proof.Machine
open Sys2Proof

/-! The sweep of isolation poison (R45). -/

@[simp] theorem State.wake_poison (s : State) (line : Nat) : (s.wake line).poison = s.poison := rfl
@[simp] theorem State.wake_backPoison (s : State) (line : Nat) : (s.wake line).backPoison = s.backPoison := rfl

/-- A sector that L2 gives up is poisoned as it stands below; every other is as it was. -/
theorem State.poison_showBelow (s : State) (k j : Nat) (hk : s.poison.has k = false) :
    (s.showBelow k).poison.has j = if k = j then s.backPoison.has j else s.poison.has j := by
  unfold State.showBelow
  split
  · refine (SMap.has_mark ..).trans ?_
    by_cases h : k = j <;> simp [h]
  · by_cases h : k = j
    · subst h
      cases hb : s.backPoison.has k <;> simp [hk]
    · cases s.backPoison.has k <;> simp [h, SMap.has_ins]

theorem State.backPoison_showBelow (s : State) {k j : Nat} (h : k ≠ j) : (s.showBelow k).backPoison.has j = s.backPoison.has j := by
  unfold State.showBelow
  split
  · simp [SMap.has_del, h]
  · split <;> simp [SMap.has_del, h]

/-- The sweep of one sector. -/
def State.sweepSector (s : State) (k : Nat) : State :=
  let s := ({ s with poison := s.poison.del k }.showBelow k).wake (k / 2)
  match s.lineOf (k / 2) with
  | some (n, l) =>
    let m := ~~~(BitVec.ofNat 2 (2 ^ (k % 2)))
    { s with l2 := s.l2.ins n { l with valid := l.valid &&& m, dirty := l.dirty &&& m } }
  | none => s

theorem State.sweepDone_eq (s : State) : s.sweepDone =
    let t := s.isoPoison.foldl (fun u q => u.sweepSector q.1) s
    { t with isoPoison := [], pkg := { t.pkg with sweep := false } } := rfl

theorem State.sweepSector_eq (s : State) (k : Nat) : ∃ m, s.sweepSector k = { ({ s with poison := s.poison.del k }.showBelow k).wake (k / 2) with l2 := m } := by
  unfold State.sweepSector
  dsimp only
  split
  · exact ⟨_, rfl⟩
  · exact ⟨_, rfl⟩

theorem State.poison_sweepSector (s : State) (k j : Nat) : (s.sweepSector k).poison.has j = if k = j then s.backPoison.has j else s.poison.has j := by
  obtain ⟨m, h⟩ := s.sweepSector_eq k
  rw [h]
  refine (State.poison_showBelow { s with poison := s.poison.del k } k j (SMap.has_del_self ..)).trans ?_
  by_cases hj : k = j <;> simp [hj, SMap.has_del]

theorem State.backPoison_sweepSector (s : State) {k j : Nat} (hj : k ≠ j) : (s.sweepSector k).backPoison.has j = s.backPoison.has j := by
  obtain ⟨m, h⟩ := s.sweepSector_eq k
  rw [h]
  exact State.backPoison_showBelow { s with poison := s.poison.del k } hj

/-- The sweep shows the poison that stands below in each sector swept, and touches no other. -/
theorem State.poison_sweep (l : SMap Unit) (s : State) (hl : (l.map Prod.fst).Nodup) (j : Nat) :
    (l.foldl (fun u q => u.sweepSector q.1) s).poison.has j = if j ∈ l.map Prod.fst then s.backPoison.has j else s.poison.has j := by
  induction l generalizing s with
  | nil => rfl
  | cons q l ih =>
    obtain ⟨hq, hl⟩ := List.nodup_cons.mp hl
    rw [List.foldl_cons, ih _ hl, State.poison_sweepSector]
    by_cases hj : q.1 = j
    · subst hj
      rw [if_neg hq, if_pos rfl, if_pos (by simp)]
    · rw [State.backPoison_sweepSector _ hj, if_neg hj]
      simp only [List.map_cons, List.mem_cons, Ne.symm hj, false_or]

/-! A line that comes back (R44, R141, R148). -/

/-- Sectors of a line become poison in L2. -/
def State.poisonFilled (s : State) (line : Nat) (l : List Nat) : State :=
  l.foldl (fun s i => let s := s.keepBelow (2 * line + i); { s with poison := s.poison.ins (2 * line + i) () }) s

@[simp] theorem State.keepBelow_poison (s : State) (k : Nat) : (s.keepBelow k).poison = s.poison := by unfold State.keepBelow; split <;> rfl
@[simp] theorem State.keepBelow_mem (s : State) (k : Nat) : (s.keepBelow k).mem = s.mem := by unfold State.keepBelow; split <;> rfl
@[simp] theorem State.keepBelow_l2 (s : State) (k : Nat) : (s.keepBelow k).l2 = s.l2 := by unfold State.keepBelow; split <;> rfl
@[simp] theorem State.keepBelow_recq (s : State) (k : Nat) : (s.keepBelow k).recq = s.recq := by unfold State.keepBelow; split <;> rfl

theorem State.poisonFilled_keeps (s : State) (line : Nat) (l : List Nat) :
    (s.poisonFilled line l).mem = s.mem ∧ (s.poisonFilled line l).l2 = s.l2 ∧ (s.poisonFilled line l).recq = s.recq := by
  induction l generalizing s with
  | nil => exact ⟨rfl, rfl, rfl⟩
  | cons i l ih =>
    obtain ⟨hm, hl2, hq⟩ := ih { s.keepBelow (2 * line + i) with poison := (s.keepBelow (2 * line + i)).poison.ins (2 * line + i) () }
    exact ⟨hm.trans (State.keepBelow_mem ..), hl2.trans (State.keepBelow_l2 ..), hq.trans (State.keepBelow_recq ..)⟩

theorem State.poison_poisonFilled (s : State) (line : Nat) (l : List Nat) (k : Nat) :
    (s.poisonFilled line l).poison.has k = (decide (∃ i ∈ l, 2 * line + i = k) || s.poison.has k) := by
  induction l generalizing s with
  | nil => simp [State.poisonFilled]
  | cons i l ih =>
    refine (ih _).trans ?_
    by_cases h : 2 * line + i = k <;> simp [SMap.has_ins, h]

theorem mem_ones {n : Nat} (x : BitVec n) (i : Nat) : i ∈ ones x ↔ i < n ∧ x.getLsbD i = true := by simp [ones]

/-- The sectors of a line that L2 holds. -/
def State.heldSectors (s : State) (l : Nat) : BitVec 2 := match s.lineOf l with | some (_, x) => x.valid | none => 0

theorem State.getLsbD_heldSectors (s : State) (l i : Nat) : (s.heldSectors l).getLsbD i = (s.lineOf l).any fun q => q.2.valid.getLsbD i := by
  unfold State.heldSectors
  cases h : s.lineOf l <;> simp

/-- A poisoned line fills what L2 does not hold, with a record. -/
def State.poisonLine (u : State) (l ctx : Nat) (held : BitVec 2) : State :=
  (u.poisonFilled l (ones (~~~held))).lineRecord 7 (2 * (~~~held).toNat) 0 ctx l (((u.poisonFilled l (ones (~~~held))).wayOf l).getD 0)

theorem exec_tier2ReadResponse_eq (s : State) (pa : BitVec 52) (poison : Bool) : exec (.tier2ReadResponse pa poison) s =
    let l := pa.toNat / 64
    let u := s.l2Read (l * 64) 64 (s.lineReader l).1 (s.lineReader l).2 2
    .next (if tierOf (l * 64) ≠ .tier2 ∨ !s.expUp ∨ s.iso ∨ s.pkg.sweep then s
      else if poison ∧ s.heldSectors l ≠ 3 then u.poisonLine l (s.lineReader l).1 (s.heldSectors l) else u) := by
  rw [exec_tier2ReadResponse]; rfl

/-- A poisoned line poisons the sectors that L2 does not hold. -/
theorem State.poison_poisonLine (u : State) (l ctx : Nat) (held : BitVec 2) {i : Nat} (hi : i < 2) :
    (u.poisonLine l ctx held).poison.has (2 * l + i) = (u.poison.has (2 * l + i) || !held.getLsbD i) := by
  refine (State.poison_poisonFilled u l (ones (~~~held)) (2 * l + i)).trans ?_
  have h : (∃ j ∈ ones (~~~held), 2 * l + j = 2 * l + i) ↔ held.getLsbD i = false := by
    simp only [mem_ones, Nat.add_left_cancel_iff, exists_eq_right, BitVec.getLsbD_not, hi, decide_true, Bool.true_and, true_and, Bool.not_eq_true']
  rw [Bool.or_comm]
  simp only [h, Bool.decide_eq_false]

theorem State.poison_poisonLine_ne (u : State) (l ctx : Nat) (held : BitVec 2) {k : Nat} (hk : k / 2 ≠ l) :
    (u.poisonLine l ctx held).poison.has k = u.poison.has k := by
  refine (State.poison_poisonFilled u l (ones (~~~held)) k).trans ?_
  have h : ¬ ∃ j ∈ ones (~~~held), 2 * l + j = k := by
    rintro ⟨j, hj, rfl⟩
    have := ((mem_ones _ _).mp hj).1
    omega
  simp [h]

/-- What a poisoned line leaves alone, and its record. -/
theorem State.poisonLine_keeps (u : State) (l ctx : Nat) (held : BitVec 2) : (u.poisonLine l ctx held).mem = u.mem ∧ (u.poisonLine l ctx held).l2 = u.l2 ∧
    ∃ r, (u.poisonLine l ctx held).recq = u.recq ++ [r] ∧ r.body.head? = some 0x07 := by
  obtain ⟨hm, hl2, hq⟩ := u.poisonFilled_keeps l (ones (~~~held))
  exact ⟨hm, hl2, _, congrArg (· ++ _) hq, rfl⟩

theorem heldSectors_eq_three (x : BitVec 2) : x = 3 ↔ x.getLsbD 0 = true ∧ x.getLsbD 1 = true := by decide +revert

/-! EXP_STAT (R45 to R48). -/

/-- An alert is pending afterwards; it changes no register, and what was sent before stays sent. -/
theorem State.alert_results (s : State) (kind : Nat) :
    (s.alert kind).io = s.io ∧ (∀ m ∈ s.out, m ∈ (s.alert kind).out) ∧ (s.alert kind).pkg.alerts.has kind = true := by
  unfold State.alert
  split
  · exact ⟨rfl, fun _ h => h, ‹_›⟩
  · exact ⟨rfl, fun _ h => List.mem_append_left _ h, SMap.has_ins_self ..⟩

theorem exec_expPortIsolate_eq {s : State} (h : s.iso = false) : exec .expPortIsolate s = .next (((s.ioField 0x0508 0 1 1).msi 250).alert 3) := by
  rw [exec_expPortIsolate, execExpPortIsolate, h]; rfl

theorem exec_expIsolationEnd_eq {s : State} (hup : s.expUp = true) (hiso : s.iso = true) : exec .expIsolationEnd s =
    .next (((s.ioField 0x0508 0 1 0).ioField 0x0508 16 16 0).modPkg fun p => { p with sweep := true }) := by
  rw [exec_expIsolationEnd, execExpIsolationEnd, State.endIsolation, hup, hiso]; rfl

theorem exec_expRetrain_eq (s : State) : exec .expRetrain s = .next s.retrain := by rw [exec_expRetrain]; rfl

/-- The link that has trained, at a speed and with the capacity of the expander. -/
def State.expTrained (s : State) (speed : BitVec 2) (cap : Nat) : State :=
  { ((s.ioField 0x0500 1 1 0).ioField 0x0508 1 1 1).ioField 0x0508 2 2 speed.toNat with expCap := min cap (2 ^ 42) }

theorem exec_expLinkChange_up {s : State} {speed : BitVec 2} (cap : Nat) (hen : (s.ioGet 0x0500).getLsbD 0 = true) (hs : speed ≠ 0) :
    exec (.expLinkChange true speed cap) s = .next (s.expTrained speed cap) := by
  rw [exec_expLinkChange, execExpLinkChange, if_pos rfl, if_pos (by rw [hen, Bool.true_and]; exact bne_iff_ne.mpr hs)]; rfl

theorem exec_expLinkChange_down (s : State) (speed : BitVec 2) (cap : Nat) : exec (.expLinkChange false speed cap) s = .next (s.ioField 0x0508 1 3 0) := by
  rw [exec_expLinkChange, execExpLinkChange]; rfl

end Sys2Proof.Machine

namespace Sys2Proof.Proofs
open Sys2Proof Sys2Proof.Machine

/-- Settles O36: the events of the port change fields of EXP_STAT that are read off one by one; the sweep shows what stands below each
sector that isolation filled; a poisoned line poisons what L2 does not hold of it. -/
theorem expanderResults : Obligations.ExpanderResults := by
  unfold Obligations.ExpanderResults
  intro s c
  refine ⟨fun hiso => ?_, fun hup hiso => ?_, fun hsweep hnodup => ?_, fun hen => ?_, fun hen => ?_, fun speed cap hen hs => ?_, fun speed cap => ?_, ?_⟩
  · obtain ⟨hio, hout, hkind⟩ := ((s.ioField 0x0508 0 1 1).msi 250).alert_results 3
    refine ⟨_, exec_expPortIsolate_eq hiso, ?_, hout _ ?_, hkind⟩
    · rw [State.ioGet, hio]
      exact (State.getLsbD_ioGet_ioField s 0x0508 0 1 1 (by decide)).trans (if_pos (by decide))
    · exact List.mem_append_right _ (List.mem_singleton_self _)
  · refine ⟨_, exec_expIsolationEnd_eq hup hiso, ?_, ?_, rfl⟩
    · refine (State.getLsbD_ioGet_ioField _ 0x0508 16 16 0 (by decide)).trans ?_
      rw [if_neg (by decide), State.getLsbD_ioGet_ioField _ _ _ _ _ (by decide), if_pos (by decide)]; rfl
    · exact State.ioBits_ioField_self _ _ _ (by decide)
  · refine ⟨s.sweepDone, ?_, rfl, rfl, fun q hq => ?_, fun k hk => ?_⟩
    · rw [exec_expPoisonSweepDone, execExpPoisonSweepDone, if_pos hsweep]
    · exact (State.poison_sweep s.isoPoison s hnodup q.1).trans (if_pos (List.mem_map_of_mem hq))
    · exact (State.poison_sweep s.isoPoison s hnodup k).trans (if_neg (by rw [← SMap.has_iff_mem, hk]; decide))
  · rw [exec_expRetrain_eq, State.retrain, if_neg (by rw [hen]; decide)]
  · refine ⟨_, exec_expRetrain_eq s, ?_⟩
    rw [State.retrain, if_pos hen]
    refine ⟨?_, State.ioBits_ioField_self _ _ _ (by decide)⟩
    rw [State.ioGet_ioField_ne _ _ _ _ (by decide), State.getLsbD_ioGet_ioField _ _ _ _ _ (by decide), if_pos (by decide)]; rfl
  · refine ⟨_, exec_expLinkChange_up cap hen hs, ?_, ?_, ?_, rfl⟩
    · have hctl : (s.expTrained speed cap).ioGet 0x0500 = (s.ioField 0x0500 1 1 0).ioGet 0x0500 :=
        (State.ioGet_ioField_ne _ 2 2 _ (by decide)).trans (State.ioGet_ioField_ne _ 1 1 1 (by decide))
      rw [hctl, State.getLsbD_ioGet_ioField _ _ _ _ _ (by decide), if_pos (by decide)]; rfl
    · refine (State.getLsbD_ioGet_ioField _ 0x0508 2 2 speed.toNat (by decide)).trans ((if_neg (by decide)).trans ?_)
      exact (State.getLsbD_ioGet_ioField _ 0x0508 1 1 1 (by decide)).trans (if_pos (by decide))
    · exact (State.ioBits_ioField_self _ _ _ (by decide)).trans (Nat.mod_eq_of_lt speed.isLt)
  · exact ⟨_, exec_expLinkChange_down s speed cap, State.ioBits_ioField_self _ _ _ (by decide), rfl⟩
  · intro pa l htier hup hiso hsweep u held
    have hgo : ¬ (tierOf (l * 64) ≠ .tier2 ∨ (!s.expUp) = true ∨ s.iso = true ∨ s.pkg.sweep = true) := by
      rw [show s.expUp = true from hup, show s.iso = false from hiso]; simp [htier, hsweep]
    have hheld (i : Nat) : held i = (s.heldSectors l).getLsbD i := (s.getLsbD_heldSectors l i).symm
    have hexec (poison : Bool) : exec (.tier2ReadResponse pa poison) s =
        .next (if poison ∧ s.heldSectors l ≠ 3 then u.poisonLine l (s.lineReader l).1 (s.heldSectors l) else u) := by
      rw [exec_tier2ReadResponse_eq]
      exact congrArg Host.Outcome.next (if_neg hgo)
    refine ⟨(hexec false).trans rfl, _, hexec true, ?_⟩
    by_cases hall : s.heldSectors l = 3
    · obtain ⟨h0, h1⟩ := (heldSectors_eq_three _).mp hall
      have hboth : ∀ i < 2, held i = true := fun i hi => by
        rw [hheld]
        obtain rfl | rfl : i = 0 ∨ i = 1 := by omega
        · exact h0
        · exact h1
      rw [if_neg (by simp [hall])]
      refine ⟨rfl, rfl, fun i hi => by simp [hboth i hi], fun _ _ => rfl, fun hno => ?_⟩
      simp [hboth] at hno
    · obtain ⟨hmem, hl2, hrec⟩ := u.poisonLine_keeps l (s.lineReader l).1 (s.heldSectors l)
      rw [if_pos ⟨rfl, hall⟩]
      refine ⟨hmem, hl2, fun i hi => ?_, fun k hk => u.poison_poisonLine_ne _ _ _ hk, fun _ => hrec⟩
      rw [hheld]
      exact u.poison_poisonLine _ _ _ hi

end Sys2Proof.Proofs
end

section
/-! SUPPORT. Memory as it is read and written at its home (R30, R136, R152): reads after masked writes, and the write of HBM. -/
namespace Sys2Proof.Machine
open Sys2Proof

/-! Bytes read back. -/

theorem getElem_readMap (m : SMap Byte) (a n : Nat) {i : Nat} (h : i < (readMap m a n).length) : (readMap m a n)[i] = m.getD (a + i) 0 := by
  induction n generalizing a i with
  | zero => simp at h
  | succ n ih =>
    cases i with
    | zero => rfl
    | succ i =>
      have hi : i < (readMap m (a + 1) n).length := by simpa using h
      exact (ih (a + 1) hi).trans (by rw [Nat.add_right_comm, Nat.add_assoc])

/-- Bytes just written whole are read back. -/
theorem readMap_writeMasked (m : SMap Byte) (a : Nat) (b : List Byte) : readMap (writeMasked m a (2 ^ b.length - 1) b) a b.length = b := by
  refine List.ext_getElem (by simp) fun i h hb => ?_
  rw [getElem_readMap, getD_writeMasked, Nat.add_sub_cancel_left]
  rw [if_pos ⟨by omega, by omega, by simp [Nat.testBit_two_pow_sub_one, hb]⟩]
  simp [hb]

/-! A write of HBM at its home. -/

theorem State.linkCause_hbm (s : State) {pa : Nat} (h : tierOf pa = .hbm) : s.linkCause pa = 0 := by simp [State.linkCause, h]
theorem State.hostLate_hbm (s : State) (core : Nat) {pa : Nat} (h : tierOf pa = .hbm) : s.hostLate core pa = false := by simp [State.hostLate, h]
theorem State.hostTouch_of_ne (s : State) {pa : Nat} (n : Nat) (excl : Bool) (h : tierOf pa ≠ .host) : s.hostTouch pa n excl = s := if_neg h

theorem State.performWrite_nothing (s : State) (g : Agent) {pa mask : Nat} {b : List Byte} (key : Nat) (h : tierOf pa = .hbm) (hm : mask % 2 ^ b.length = 0) :
    s.performWrite g pa mask b key = (0, s) := by
  simp only [State.performWrite, s.linkCause_hbm h, s.hostLate_hbm g.id h, hm, ne_eq, not_true, if_false, if_true, Bool.false_eq_true]

/-- A write of HBM ends without a cause, and leaves its bytes in memory. -/
theorem State.performWrite_hbm (s : State) (g : Agent) {pa mask : Nat} {b : List Byte} (key : Nat) (h : tierOf pa = .hbm) (hm : mask % 2 ^ b.length ≠ 0) :
    ∃ u : State, s.performWrite g pa mask b key = (0, { u with mem := writeMasked u.mem pa mask b }) := by
  have hput (v : State) (a : L2Acc) : ∃ u : State, v.l2Put pa mask b a = { u with mem := writeMasked u.mem pa mask b } := by
    unfold State.l2Put
    dsimp only
    rw [if_neg (by simp [h])]
    exact ⟨_, rfl⟩
  simp only [State.performWrite, s.linkCause_hbm h, s.hostLate_hbm g.id h, hm, h, ne_eq, not_true, if_false, Bool.false_eq_true,
    reduceCtorEq, decide_false, Bool.false_and, State.l2Write]
  obtain ⟨u, hu⟩ := hput ((sectorsOf pa b.length).foldl (fun s k => s.dropCopies k g.id false) s) _
  refine ⟨u, ?_⟩
  rw [hu, State.hostTouch_of_ne _ _ _ (by simp [h])]

end Sys2Proof.Machine

namespace Sys2Proof.Machine
open Sys2Proof

/-! Reads and writes of the host (R30, R62, R65). -/

theorem sectorsOf_length (pa n : Nat) : (sectorsOf pa n).length = if n = 0 then 0 else (pa + n - 1) / 32 - pa / 32 + 1 := by
  unfold sectorsOf; split <;> simp

theorem length_flatMap_bytesOf (l : List Nat) (f : Nat → Nat) : (l.flatMap fun k => bytesOf 32 (f k)).length = 32 * l.length := by
  induction l with
  | nil => rfl
  | cons k l ih => simp only [List.flatMap_cons, List.length_append, bytesOf_length, ih, List.length_cons]; omega

/-- A host read answers as many bytes as it asks for. -/
theorem State.length_hostRead (s : State) (a n : Nat) (key : Option (BitVec 512)) : (s.hostRead a n key).1.2.length = n := by
  unfold State.hostRead
  dsimp only
  rw [List.length_take, List.length_drop, length_flatMap_bytesOf, sectorsOf_length]
  split
  · omega
  · omega

/-- The answer to a host read, and the lines that the host holds from then on. -/
def State.hostAnswers (u : State) (a n : Nat) (bad : Bool) (b : List Byte) : State :=
  { u with
    out := u.out ++ [(chHost, bytesOf 8 a ++ bytesOf 1 (if bad then 1 else 0) ++ b)]
    pkg := { u.pkg with hostHeld := (linesOf a n).foldl (fun m l => m.ins l ()) u.pkg.hostHeld } }

/-- The slot under which a host read goes: none where the table has none. -/
def State.readSlot (s : State) (a : Nat) : Option Nat := if s.inDump a ∨ tierOf a = .tier2 then some 64 else s.hostSlot a

/-- What a host read of decoded memory does, by the slot under which it goes. -/
def State.hostServe (s : State) (pa : BitVec 52) (n : Nat) : Option Nat → State
  | none => s.send chHost (bytesOf 8 (s.hdm pa) ++ bytesOf 1 1 ++ List.replicate n 0)
  | some k =>
    if s.keyBusy k then s.holdFor (.hostMemRead pa n)
    else
      let q := s.hostRead (s.hdm pa) n (s.keyOf k)
      q.2.hostAnswers (s.hdm pa) n q.1.1 q.1.2

theorem exec_hostMemRead_eq {s : State} {pa : BitVec 52} {n : Nat} (hup : s.pkg.hostUp = true) (hl2 : l2Cached (s.hdm pa) = true)
    (htier : tierOf (s.hdm pa + n - 1) = tierOf (s.hdm pa)) : exec (.hostMemRead pa n) s = .next (s.hostServe pa n (s.readSlot (s.hdm pa))) := by
  have hgo : ¬ ((!s.pkg.hostUp) = true ∨ (!l2Cached (s.hdm pa)) = true ∨ tierOf (s.hdm pa + n - 1) ≠ tierOf (s.hdm pa)) := by simp [hup, hl2, htier]
  rw [exec_hostMemRead, execHostMemRead]
  dsimp only
  rw [if_neg hgo, ← State.readSlot]
  cases s.readSlot (s.hdm pa) with
  | none => rfl
  | some k => rw [State.hostServe]; dsimp only; split <;> rfl

theorem State.hostServe_waits {s : State} {k : Nat} (h : s.keyBusy k = true) (pa : BitVec 52) (n : Nat) :
    s.hostServe pa n (some k) = s.holdFor (.hostMemRead pa n) := if_pos h

theorem State.hostServe_read {s u : State} {k : Nat} (h : s.keyBusy k = false) {pa : BitVec 52} {n : Nat} {bad : Bool} {b : List Byte}
    (hread : s.hostRead (s.hdm pa) n (s.keyOf k) = ((bad, b), u)) : s.hostServe pa n (some k) = u.hostAnswers (s.hdm pa) n bad b := by
  rw [State.hostServe, if_neg (by rw [h]; decide), hread]

/-- What a host write of decoded HBM does, by the slot under which it goes. -/
def State.hostStore (s : State) (pa : BitVec 52) (data : List Byte) : Option Nat → State
  | none => s.ioCount 0x0610 0 16
  | some k => if s.keyBusy k then s.holdFor (.hostMemWrite pa data)
    else (s.performWrite ⟨264, 64, true⟩ (s.hdm pa) (2 ^ data.length - 1) data k).2

theorem exec_hostMemWrite_eq {s : State} {pa : BitVec 52} {data : List Byte} (hup : s.pkg.hostUp = true) (ha : tierOf (s.hdm pa) = .hbm)
    (hend : tierOf (s.hdm pa + data.length - 1) = .hbm) : exec (.hostMemWrite pa data) s = .next (s.hostStore pa data (s.hostSlot (s.hdm pa))) := by
  have hgo : ¬ ((!s.pkg.hostUp) = true ∨ tierOf (s.hdm pa) ≠ .hbm ∨ tierOf (s.hdm pa + data.length - 1) ≠ .hbm) := by simp [hup, ha, hend]
  rw [exec_hostMemWrite, execHostMemWrite]
  refine (if_neg hgo).trans ?_
  cases s.hostSlot (s.hdm pa) with
  | none => rfl
  | some k => rw [State.hostStore]; dsimp only; split <;> rfl

/-- Bytes that an agent writes whole to HBM are read back. -/
theorem State.readPhys_performWrite_hbm (s : State) (g : Agent) {pa : Nat} (b : List Byte) (key : Nat) (h : tierOf pa = .hbm) :
    (s.performWrite g pa (2 ^ b.length - 1) b key).2.readPhys pa b.length = b := by
  by_cases hb : b.length = 0
  · rw [List.eq_nil_of_length_eq_zero hb]; rfl
  · have hm : (2 ^ b.length - 1) % 2 ^ b.length ≠ 0 := by
      have := Nat.one_lt_two_pow hb
      rw [Nat.mod_eq_of_lt (by omega)]; omega
    obtain ⟨u, hu⟩ := s.performWrite_hbm g key h hm
    rw [hu]
    exact readMap_writeMasked u.mem pa b

/-! Sleeps on a line (R37, R329). -/

theorem SMap.get?_map {α β : Type} (f : α → β) (m : SMap α) (i : Nat) : SMap.get? (m.map fun q => (q.1, f q.2)) i = (SMap.get? m i).map f := by
  induction m with
  | nil => rfl
  | cons q m ih =>
    rw [List.map_cons, SMap.get?_cons, ih]
    obtain ⟨k, v⟩ := q
    rw [SMap.get?_cons]
    split <;> rfl

/-- A watch of a line sleeps no more. -/
def Watch.woken (line : Nat) (w : Watch) : Watch := if w.pa / 64 = line then { w with asleep := false } else w

def Core.woken (line : Nat) (c : Core) : Core := { c with watches := c.watches.map (Watch.woken line) }

theorem State.core_wake (s : State) (line c : Nat) : (s.wake line).core c = (s.core c).woken line := by
  have h : SMap.get? (s.wake line).cores c = (SMap.get? s.cores c).map (Core.woken line) := SMap.get?_map (Core.woken line) s.cores c
  rw [State.core, State.core, SMap.getD, SMap.getD, h]
  cases SMap.get? s.cores c <;> rfl

theorem State.awake_of_wake (s : State) (line c : Nat) : ∀ w ∈ ((s.wake line).core c).watches, w.pa / 64 = line → w.asleep = false := by
  intro w hw hline
  rw [State.core_wake] at hw
  obtain ⟨v, -, rfl⟩ := List.mem_map.mp hw
  unfold Watch.woken at hline ⊢
  split
  · rfl
  · next h => rw [if_neg h] at hline; exact absurd hline h

/-! The host-line cache (R29, R152). -/

theorem SMap.length_ins_le {α : Type} (m : SMap α) (i : Nat) (v : α) : (m.ins i v).length ≤ m.length + 1 := by
  induction m with
  | nil => exact Nat.le_refl _
  | cons q m ih =>
    obtain ⟨k, w⟩ := q
    rw [SMap.ins]
    split
    · simp
    · split
      · simp
      · simpa using ih

theorem SMap.length_del_le {α : Type} (m : SMap α) (i : Nat) : (m.del i).length ≤ m.length := by
  induction m with
  | nil => exact Nat.le_refl _
  | cons q m ih =>
    obtain ⟨k, w⟩ := q
    rw [SMap.del]
    split
    · exact Nat.le_succ_of_le ih
    · simpa using ih

theorem hostAdd_new {m : SMap Bool} {line : Nat} (h : m.has line = false) (excl : Bool) :
    (hostAdd m line excl).get? line = some excl ∧ (m.length ≤ 4096 → (hostAdd m line excl).length ≤ 4096) := by
  have hold : m.getD line false = false := by
    rw [SMap.has, Option.isSome_eq_false_iff, Option.isNone_iff_eq_none] at h
    rw [SMap.getD, h]; rfl
  rw [hostAdd, hold, Bool.or_false, h, Bool.false_or]
  refine ⟨SMap.get?_ins_self .., fun hlen => ?_⟩
  by_cases hroom : m.length < 4096
  · simp only [hroom, decide_true, if_true]
    exact (SMap.length_ins_le ..).trans hroom
  · simp only [hroom, decide_false, Bool.false_eq_true, if_false]
    refine (SMap.length_ins_le ..).trans ?_
    rw [List.length_drop]; omega

theorem State.hostEnter_results (s : State) (line : Nat) (excl : Bool) :
    (s.hostEnter line excl).mem = s.mem ∧ (s.hostEnter line excl).pkg.hostCache = hostAdd s.pkg.hostCache line excl := by
  unfold State.hostEnter
  dsimp only
  split <;> exact ⟨rfl, rfl⟩

/-- The line that the host grants, with its bytes in memory, before it enters the cache. -/
def State.granted (s : State) (line : Nat) (data : List Byte) : State :=
  (s.writePhys (line * 64) (data.take 64)).modPkg fun p => { p with hostCache := p.hostCache.del line }

theorem exec_hostLineCacheFill_eq {s : State} {line : BitVec 46} (excl : Bool) (data : List Byte) (hup : s.pkg.hostUp = true)
    (htier : tierOf (line.toNat * 64) = .host) :
    exec (.hostLineCacheFill line excl data) s = .next (((s.granted line.toNat data).hostEnter line.toNat excl).wake line.toNat) := by
  have hgo : ¬ ((!s.pkg.hostUp) = true ∨ tierOf (line.toNat * 64) ≠ .host) := by simp [hup, htier]
  rw [exec_hostLineCacheFill, execHostLineCacheFill]
  exact if_neg hgo

end Sys2Proof.Machine

/-! SUPPORT. Accesses of a core to host memory that end with a cause (R31, R49): what each end changes in the core, and that it changes no
other core and nothing of the package outside the cores. -/
namespace Sys2Proof.Machine
open Sys2Proof

/-! The operations of one core. -/

/-- From `s` to `t` one core may change, and what is on its way: no other core, no register, no byte of memory and nothing of the package. -/
structure State.OnlyCore (core : Nat) (s t : State) : Prop where
  other : ∀ c, c ≠ core → t.core c = s.core c
  pkg : t.pkg = s.pkg
  io : t.io = s.io
  mem : t.mem = s.mem

/-- Two states of a core have the same loads and watches outstanding. -/
def Core.sameReads (c d : Core) : Prop := d.loads = c.loads ∧ d.watches = c.watches

namespace State.OnlyCore
variable {core : Nat} {s t u : State}

theorem refl (core : Nat) (s : State) : OnlyCore core s s := ⟨fun _ _ => rfl, rfl, rfl, rfl⟩

theorem trans (h : OnlyCore core s t) (k : OnlyCore core t u) : OnlyCore core s u :=
  ⟨fun c hc => (k.other c hc).trans (h.other c hc), k.pkg.trans h.pkg, k.io.trans h.io, k.mem.trans h.mem⟩

theorem modCore (core : Nat) (s : State) (f : Core → Core) : OnlyCore core s (s.modCore core f) :=
  ⟨fun _ hc => State.core_modCore_ne _ _ (Ne.symm hc), rfl, rfl, rfl⟩

theorem cond (c : Prop) [Decidable c] (ht : OnlyCore core s t) (hu : OnlyCore core s u) : OnlyCore core s (if c then t else u) := by
  split
  · exact ht
  · exact hu

end State.OnlyCore

/-- From `s` to `t` one core may change, but none of its loads and watches. -/
structure State.KeepsReads (core : Nat) (s t : State) : Prop extends State.OnlyCore core s t where
  reads : (s.core core).sameReads (t.core core)

namespace State.KeepsReads
variable {core : Nat} {s t u : State}

theorem refl (core : Nat) (s : State) : KeepsReads core s s := ⟨.refl core s, rfl, rfl⟩

theorem trans (h : KeepsReads core s t) (k : KeepsReads core t u) : KeepsReads core s u :=
  ⟨h.toOnlyCore.trans k.toOnlyCore, k.reads.1.trans h.reads.1, k.reads.2.trans h.reads.2⟩

theorem modCore (core : Nat) (s : State) (f : Core → Core) (hf : (s.core core).sameReads (f (s.core core))) : KeepsReads core s (s.modCore core f) :=
  ⟨.modCore core s f, by rw [State.core_modCore_self]; exact hf⟩

theorem cond (c : Prop) [Decidable c] (ht : KeepsReads core s t) (hu : KeepsReads core s u) : KeepsReads core s (if c then t else u) := by
  split
  · exact ht
  · exact hu

/-- A change of what is on its way changes no core. -/
theorem onItsWay (h : KeepsReads core s t) (l : List Flight) : KeepsReads core s { t with flight := l } := ⟨⟨h.other, h.pkg, h.io, h.mem⟩, h.reads⟩

end State.KeepsReads

open State

theorem Core.sameReads_applyPost (c : Core) (p : Post) : c.sameReads (c.applyPost p) := by
  unfold Core.applyPost
  dsimp only
  split <;> exact ⟨rfl, rfl⟩

theorem Core.sameReads_tokDone (c : Core) (t : Nat) (cause : Cause) (released : Bool) : c.sameReads (c.tokDone t cause released) := by
  unfold Core.tokDone
  dsimp only
  split <;> exact ⟨rfl, rfl⟩

theorem State.keepsReads_postOwn (s : State) (core : Nat) (p : Post) : KeepsReads core s (s.postOwn core p) :=
  .cond _ (.modCore core s _ (Core.sameReads_applyPost ..)) (.modCore core s _ (by exact ⟨rfl, rfl⟩))

theorem State.keepsReads_arriveLate (s : State) (core : Nat) (arr : Option Arrival) (seq relN bundle : Nat) :
    KeepsReads core s (s.arriveLate core arr seq relN bundle) := by
  match arr with
  | none => exact .refl core s
  | some (.flag f) => exact s.keepsReads_postOwn core _
  | some (.barrier g) =>
    unfold State.arriveLate
    refine .modCore core s _ ?_
    exact ⟨rfl, rfl⟩

theorem State.keepsReads_finishAtom (s : State) (core : Nat) (p : PAtom) : KeepsReads core s (s.finishAtom core p) := by
  refine (KeepsReads.modCore core s _ ?_).trans (State.keepsReads_arriveLate ..)
  exact ⟨(Core.sameReads_tokDone ..).1, (Core.sameReads_tokDone ..).2⟩

/-- The end of a command is its own affair: its token, its flag, what it makes at its commit. -/
theorem State.keepsReads_endCmd (s : State) (core : Nat) (k : Cmd) (cause : Cause) (first bytes : Nat) : KeepsReads core s (s.endCmd core k cause first bytes) := by
  unfold State.endCmd
  extract_lets d ok s1 own s2 s3 post event s5 s4
  clear_value post event
  have h1 : KeepsReads core s s1 := .modCore core s _ ⟨rfl, rfl⟩
  have h2 : KeepsReads core s1 s2 := by
    refine .cond _ (.modCore core s1 _ ?_) (.refl core s1)
    split <;> exact ⟨rfl, rfl⟩
  have h3 : KeepsReads core s2 s3 := .modCore core s2 _ (Core.sameReads_tokDone ..)
  have h4 : KeepsReads core s3 s4 := by
    refine .cond _ ?_ (.cond _ (.refl core s3) (.modCore core s3 _ (by exact ⟨rfl, rfl⟩)))
    have h5 : KeepsReads core s3 s5 := by
      unfold s5
      cases post with
      | some p => exact (KeepsReads.refl core s3).onItsWay _
      | none => exact .refl core s3
    cases event with
    | some e => exact h5.onItsWay _
    | none => exact h5
  exact ((((h1.trans h2).trans h3).trans h4).trans (State.keepsReads_arriveLate ..)).onItsWay _

end Sys2Proof.Machine

namespace Sys2Proof.Machine
open Sys2Proof State

/-! Accesses that end with a cause. -/

/-- A watch whose own access ends, by the cause. -/
def HostAcc.ended (cause : Cause) : HostAcc → Watch → Watch
  | .watch w, x => if x.seq = w.seq then { x with asleep := false, cause } else x
  | _, x => x

/-- What the end of accesses leaves of a core: loads that are none of them, and watches that have ended where they are. -/
structure Core.AccessesEnded (cause : Cause) (l : List HostAcc) (c d : Core) : Prop where
  loads : ∀ x ∈ d.loads, x ∈ c.loads ∧ ∀ y, .load y ∈ l → x.seq ≠ y.seq
  watches : d.watches = c.watches.map fun w => l.foldl (fun w a => a.ended cause w) w

theorem Core.AccessesEnded.of_sameReads {c d : Core} (cause : Cause) {a : HostAcc} (h : c.sameReads d) (hload : ∀ y, a ≠ .load y) (hwatch : ∀ w, a ≠ .watch w) :
    Core.AccessesEnded cause [a] c d := by
  obtain ⟨hl, hw⟩ := h
  refine ⟨fun x hx => ⟨hl ▸ hx, fun y hy => absurd (List.mem_singleton.mp hy).symm (hload y)⟩, ?_⟩
  have hid (w : Watch) : a.ended cause w = w := by
    cases a with
    | watch v => exact absurd rfl (hwatch v)
    | _ => rfl
  simp [hw, hid]

theorem Core.AccessesEnded.append {cause : Cause} {l m : List HostAcc} {c d e : Core} (h : Core.AccessesEnded cause l c d) (k : Core.AccessesEnded cause m d e) :
    Core.AccessesEnded cause (l ++ m) c e := by
  refine ⟨fun x hx => ?_, ?_⟩
  · obtain ⟨hd, hm⟩ := k.loads x hx
    obtain ⟨hc, hl⟩ := h.loads x hd
    exact ⟨hc, fun y hy => (List.mem_append.mp hy).elim (hl y) (hm y)⟩
  · rw [k.watches, h.watches, List.map_map]
    simp [Function.comp_def]

theorem State.core_failLoad (s : State) (core : Nat) (l : PLoad) (cause : Cause) :
    State.OnlyCore core s (s.failLoad core l cause) ∧ Core.AccessesEnded cause [.load l] (s.core core) ((s.failLoad core l cause).core core) := by
  have hend := (State.keepsReads_arriveLate (s.modCore core fun c => { c with loads := c.loads.filter (·.seq != l.seq) }.tokDone l.tok cause false) core l.arr l.seq l.relN 0)
  refine ⟨(OnlyCore.modCore core s _).trans hend.toOnlyCore, ?_⟩
  obtain ⟨hl, hw⟩ := hend.reads
  rw [State.core_modCore_self] at hl hw
  refine ⟨fun x hx => ?_, hw.trans (by simp [HostAcc.ended, (Core.sameReads_tokDone _ _ _ _).2])⟩
  rw [show ((s.failLoad core l cause).core core).loads = _ from hl, (Core.sameReads_tokDone _ _ _ _).1] at hx
  obtain ⟨hmem, hne⟩ := List.mem_filter.mp hx
  refine ⟨hmem, fun y hy => ?_⟩
  obtain rfl : y = l := by simpa using hy
  exact bne_iff_ne.mp hne

/-- The end of one access that is no released store. -/
theorem State.hostFail_results (s : State) (core : Nat) (cause : Cause) {a : HostAcc} (ha : ∀ k f, a ≠ .rel k f) :
    State.OnlyCore core s (s.hostFail core cause a) ∧ Core.AccessesEnded cause [a] (s.core core) ((s.hostFail core cause a).core core) := by
  have same {t : State} (h : State.KeepsReads core s t) (hload : ∀ y, a ≠ .load y) (hwatch : ∀ w, a ≠ .watch w) :
      State.OnlyCore core s t ∧ Core.AccessesEnded cause [a] (s.core core) (t.core core) := ⟨h.toOnlyCore, .of_sameReads cause h.reads hload hwatch⟩
  cases a with
  | load l => exact s.core_failLoad core l cause
  | cmd k => exact same (s.keepsReads_endCmd core k cause 0 0) (by simp) (by simp)
  | watch w =>
    rw [State.hostFail]
    refine ⟨.modCore core s _, ?_⟩
    rw [State.core_modCore_self]
    exact ⟨fun x hx => ⟨hx, by simp⟩, rfl⟩
  | atom p => exact same (s.keepsReads_finishAtom core _) (by simp) (by simp)
  | queue e =>
    rw [State.hostFail]
    refine same (.modCore core s _ ?_) (by simp) (by simp)
    exact ⟨(Core.sameReads_tokDone ..).1, (Core.sameReads_tokDone ..).2⟩
  | rel k f => exact absurd rfl (ha k f)

/-! The host link goes down (R31, R329). -/

/-- An access of a core ends as the host link goes down; a released store waits for its turn. -/
def State.linkEnds (core : Nat) (s : State) (a : HostAcc) : State :=
  match a with
  | .rel _ _ => s
  | a => s.hostFail core 0x244#10 a

theorem State.linkEnds_results (core : Nat) (s : State) (a : HostAcc) :
    State.OnlyCore core s (s.linkEnds core a) ∧ Core.AccessesEnded 0x244 [a] (s.core core) ((s.linkEnds core a).core core) := by
  by_cases h : ∃ k f, a = .rel k f
  · obtain ⟨k, f, rfl⟩ := h
    exact ⟨.refl core s, .of_sameReads _ ⟨rfl, rfl⟩ (by simp) (by simp)⟩
  · have hfail : s.linkEnds core a = s.hostFail core 0x244 a := by
      cases a with
      | rel k f => exact absurd ⟨k, f, rfl⟩ h
      | _ => rfl
    rw [hfail]
    exact s.hostFail_results core 0x244 fun k f hk => h ⟨k, f, hk⟩

theorem State.linkEnds_all (core : Nat) (l : List HostAcc) (s : State) :
    State.OnlyCore core s (l.foldl (State.linkEnds core) s) ∧ Core.AccessesEnded 0x244 l (s.core core) ((l.foldl (State.linkEnds core) s).core core) := by
  induction l generalizing s with
  | nil => exact ⟨.refl core s, ⟨fun x hx => ⟨hx, by simp⟩, by simp⟩⟩
  | cons a l ih =>
    obtain ⟨h1, e1⟩ := s.linkEnds_results core a
    obtain ⟨h2, e2⟩ := ih (s.linkEnds core a)
    exact ⟨h1.trans h2, e1.append e2⟩

/-- A watch that has ended with a cause. -/
def Watch.done (cause : Cause) (w : Watch) : Watch := { w with asleep := false, cause }

theorem HostAcc.ended_eq (cause : Cause) (a : HostAcc) (w : Watch) : a.ended cause w = w ∨ a.ended cause w = w.done cause := by
  cases a with
  | watch x =>
    rw [HostAcc.ended]
    split
    · exact .inr rfl
    · exact .inl rfl
  | _ => exact .inl rfl

theorem Watch.done_stays (cause : Cause) (l : List HostAcc) (w : Watch) : l.foldl (fun w a => a.ended cause w) (w.done cause) = w.done cause := by
  induction l with
  | nil => rfl
  | cons a l ih =>
    rw [List.foldl_cons]
    rcases a.ended_eq cause (w.done cause) with h | h
    · rw [h, ih]
    · rw [h]; exact ih

/-- Among accesses that end, a watch is left as it was, or has ended: the latter when it is one of them. -/
theorem Watch.ended_all (cause : Cause) (l : List HostAcc) (w : Watch) :
    (l.foldl (fun w a => a.ended cause w) w = w ∨ l.foldl (fun w a => a.ended cause w) w = w.done cause) ∧
      (.watch w ∈ l → l.foldl (fun w a => a.ended cause w) w = w.done cause) := by
  induction l with
  | nil => simp
  | cons a l ih =>
    rw [List.foldl_cons]
    rcases a.ended_eq cause w with h | h
    · refine ⟨by rw [h]; exact ih.1, fun hw => ?_⟩
      rcases List.mem_cons.mp hw with rfl | hw
      · have hdone : (HostAcc.watch w).ended cause w = w.done cause := if_pos rfl
        rw [hdone, Watch.done_stays]
      · rw [h]; exact ih.2 hw
    · rw [h, Watch.done_stays]
      exact ⟨.inr rfl, fun _ => rfl⟩

/-- No access of a core to host memory is under way: no load of it, and no watch of it but one that has ended. -/
structure Core.LinkLost (c : Core) : Prop where
  loads : ∀ l ∈ c.loads, ∀ p ∈ l.pieces, tierOf p.pa ≠ .host
  watches : ∀ w ∈ c.watches, tierOf w.pa = .host → w.asleep = false ∧ w.cause = 0x244

theorem State.linkLost_core (core : Nat) (s : State) : (((s.hostAccesses core).foldl (State.linkEnds core) s).core core).LinkLost := by
  obtain ⟨-, hloads, hwatches⟩ := State.linkEnds_all core (s.hostAccesses core) s
  refine ⟨fun l hl p hp htier => ?_, fun w hw htier => ?_⟩
  · obtain ⟨hmem, hne⟩ := hloads l hl
    have hin : inHost l.pieces = true := List.any_eq_true.mpr ⟨p, hp, by simp [htier]⟩
    refine hne l ?_ rfl
    simp [State.hostAccesses, hmem, hin]
  · rw [hwatches] at hw
    obtain ⟨v, hv, rfl⟩ := List.mem_map.mp hw
    obtain ⟨heq, hdone⟩ := Watch.ended_all 0x244 (s.hostAccesses core) v
    have hpa : tierOf v.pa = .host := by rcases heq with h | h <;> rw [h] at htier <;> exact htier
    rw [hdone (by simp [State.hostAccesses, hv, hpa])]
    exact ⟨rfl, rfl⟩

/-- The accesses of one core end, and no other core changes. -/
theorem State.linkLost_all (l : SMap Core) (s : State) :
    let t := l.foldl (fun s q => (s.hostAccesses q.1).foldl (State.linkEnds q.1) s) s
    t.pkg = s.pkg ∧ ∀ c, (c ∈ l.map Prod.fst → (t.core c).LinkLost) ∧ (c ∉ l.map Prod.fst → t.core c = s.core c) := by
  induction l using List.reverseRecOn generalizing s with
  | nil => simp
  | append_singleton l q ih =>
    obtain ⟨hpkg, hcores⟩ := ih s
    simp only [List.foldl_append, List.foldl_cons, List.foldl_nil]
    obtain ⟨hone, -⟩ := State.linkEnds_all q.1 ((l.foldl (fun s q => (s.hostAccesses q.1).foldl (State.linkEnds q.1) s) s).hostAccesses q.1)
      (l.foldl (fun s q => (s.hostAccesses q.1).foldl (State.linkEnds q.1) s) s)
    refine ⟨hone.pkg.trans hpkg, fun c => ?_⟩
    by_cases hc : c = q.1
    · subst hc
      exact ⟨fun _ => State.linkLost_core .., fun h => absurd (by simp) h⟩
    · rw [hone.other c hc]
      simpa [hc] using hcores c

end Sys2Proof.Machine

namespace Sys2Proof.Machine
open Sys2Proof State

/-- The platform as the host link goes down, before the accesses of the cores end. -/
def State.linkGone (s : State) : State := s.modPkg fun p => { p with hostUp := false, hostCache := [], hostHeld := [], snooped := [] }

theorem State.core_of_not_mem {s : State} {c : Nat} (h : c ∉ s.cores.map Prod.fst) : s.core c = Core.reset c := by
  have hget : SMap.has s.cores c = false := by rw [Bool.eq_false_iff, Ne, SMap.has_iff_mem]; exact h
  rw [SMap.has, Option.isSome_eq_false_iff, Option.isNone_iff_eq_none] at hget
  rw [State.core, SMap.getD, hget]; rfl

/-- The host link goes down: the accesses of every core end. -/
def State.hostDown (s : State) : State := s.cores.foldl (fun s q => (s.hostAccesses q.1).foldl (State.linkEnds q.1) s) s.linkGone

theorem exec_hostLinkDown_eq (s : State) : exec .hostLinkDown s = .next s.hostDown := by
  rw [exec_hostLinkDown]; rfl

theorem State.hostDown_lost (s : State) (c : Nat) : (s.hostDown.core c).LinkLost := by
  obtain ⟨-, hcores⟩ := State.linkLost_all s.cores s.linkGone
  by_cases hc : c ∈ s.cores.map Prod.fst
  · exact (hcores c).1 hc
  · have hreset : s.hostDown.core c = Core.reset c := ((hcores c).2 hc).trans (State.core_of_not_mem (s := s.linkGone) hc)
    rw [hreset]
    exact ⟨by simp [Core.reset], by simp [Core.reset]⟩

/-! Streams and back-invalidate answers (R30, R36). -/

/-- A stream is enabled: the base is that of before, for its own bit is not in it. -/
theorem exec_streamEnable_eq {s t : State} {n : BitVec 6} {c : Cause} {b : List Byte} (hoff : (s.ioGet (0x1008 + 16 * n.toNat)).getLsbD 14 = false)
    (hread : (s.ioField (0x1008 + 16 * n.toNat) 14 1 1).fetchData ⟨256, 64, true⟩ (s.streamBase n.toNat + 0x40) 8 64 2 = ((c, b), t)) :
    exec (.streamEnable n) s = .next { t with pkg := { t.pkg with streamHead := t.pkg.streamHead.ins n.toNat (BitVec.ofNat 64 (natOf b)) } } := by
  have hbase : (s.ioField (0x1008 + 16 * n.toNat) 14 1 1).streamBase n.toNat = s.streamBase n.toNat := by
    unfold State.streamBase State.ioBits
    have hhost : ((s.ioField (0x1008 + 16 * n.toNat) 14 1 1).ioGet (0x1008 + 16 * n.toNat)).getLsbD 13 = (s.ioGet (0x1008 + 16 * n.toNat)).getLsbD 13 :=
      (State.getLsbD_ioGet_ioField _ _ _ _ _ (by decide)).trans (if_neg (by decide))
    rw [State.ioGet_ioField_ne _ _ _ _ (by omega), hhost]
  rw [exec_streamEnable, execStreamEnable]
  dsimp only
  rw [hoff, if_neg (by decide), State.streamOn, hbase, hread]
  rfl

/-- The platform once the host has given a line up. -/
def State.lineBack (s : State) (line : Nat) : State :=
  { s with pkg := { s.pkg with hostHeld := s.pkg.hostHeld.del line, snooped := s.pkg.snooped.del line } }

/-- A released store or VAMO writes a sector of the line. -/
def Flight.writesLine (line : Nat) (f : Flight) : Bool := f.rel.piece == some (2 * line) || f.rel.piece == some (2 * line + 1)

theorem Flight.writesLine_iff (line : Nat) (f : Flight) : f.writesLine line = true ↔ f.rel.piece = some (2 * line) ∨ f.rel.piece = some (2 * line + 1) := by
  simp [Flight.writesLine]

/-- Among the places of a list, the first whose entry passes a test. -/
theorem find_range_some {α : Type} {l : List α} {p : α → Bool} {q : Nat → Bool} (hq : ∀ i x, l[i]? = some x → q i = p x) {k : Nat} {x : α}
    (hk : l[k]? = some x) (hx : p x = true) (hfirst : ∀ j y, j < k → l[j]? = some y → p y = false) : (List.range l.length).find? q = some k := by
  obtain ⟨hlt, -⟩ := List.getElem?_eq_some_iff.mp hk
  refine List.find?_range_eq_some.mpr ⟨(hq k x hk).trans hx, List.mem_range.mpr hlt, fun j hj => ?_⟩
  have hy : l[j]? = some l[j] := List.getElem?_eq_getElem _
  rw [hq j _ hy, hfirst j _ hj hy]; rfl

theorem find_range_none {α : Type} {l : List α} {p : α → Bool} {q : Nat → Bool} (hq : ∀ i x, l[i]? = some x → q i = p x) (h : ∀ x ∈ l, p x = false) :
    (List.range l.length).find? q = none := by
  refine List.find?_eq_none.mpr fun i hi => ?_
  have hx : l[i]? = some (l[i]'(List.mem_range.mp hi)) := List.getElem?_eq_getElem _
  rw [hq i _ hx, h _ (List.getElem_mem _)]; decide

/-- The first entry on its way that writes a sector of a line, by its place. -/
def State.firstWriter (s : State) (line : Nat) : Option Nat :=
  (List.range s.flight.length).find? fun k => match s.flight[k]? with | some f => f.writesLine line | none => false

theorem exec_backInvalidateResponse_eq (s : State) (line : BitVec 46) : exec (.backInvalidateResponse line) s =
    .next (match s.firstWriter line.toNat with | some k => (s.lineBack line.toNat).sliceAccess k | none => s.lineBack line.toNat) := by
  rw [exec_backInvalidateResponse]; rfl

theorem State.firstWriter_test (s : State) (line i : Nat) (f : Flight) (h : s.flight[i]? = some f) :
    (match s.flight[i]? with | some f => f.writesLine line | none => false) = f.writesLine line := by rw [h]

theorem State.firstWriter_eq_none {s : State} {line : Nat} (h : ∀ f ∈ s.flight, f.writesLine line = false) : s.firstWriter line = none :=
  find_range_none (s.firstWriter_test line) h

theorem State.firstWriter_eq_some {s : State} {line k : Nat} {f : Flight} (hk : s.flight[k]? = some f) (hf : f.writesLine line = true)
    (hfirst : ∀ j g, j < k → s.flight[j]? = some g → g.writesLine line = false) : s.firstWriter line = some k :=
  find_range_some (s.firstWriter_test line) hk hf hfirst

/-- A store or VAMO whose turn it is performs when the host holds no line of it. -/
theorem linesOf_sector (p : Nat) : linesOf (p * 32) 32 = [p / 2] := by
  have h : (p * 32 + 32 - 1) / 64 - p * 32 / 64 = 0 := by omega
  have hp : p * 32 / 64 = p / 2 := by omega
  rw [linesOf, if_neg (by decide), h, hp]; rfl

theorem State.snoopHost_free {s : State} {p : Nat} (h : s.pkg.hostHeld.has (p / 2) = false) : s.snoopHost (p * 32) 32 = (false, s) := by
  simp [State.snoopHost, linesOf_sector, h]

theorem State.sliceAccess_performs {s : State} {k p : Nat} {f : Flight} (hk : s.flight[k]? = some f) (hp : f.rel.piece = some p)
    (hready : s.flightReady k = true) (hfree : s.pkg.hostHeld.has (p / 2) = false) : s.sliceAccess k = (s.dropFlight k).performRel f := by
  simp only [State.sliceAccess, hk, hp, hready, Bool.not_true, Bool.false_eq_true, if_false, State.snoopHost_free hfree]

end Sys2Proof.Machine

namespace Sys2Proof.Proofs
open Sys2Proof Sys2Proof.Machine

/-- Settles O35: reads and writes of the host come to what `hostServe` and `hostStore` do by the slot; what an access changes that ends is said by
`hostFail_results`. -/
theorem hostPortResults : Obligations.HostPortResults := by
  unfold Obligations.HostPortResults
  intro s
  refine ⟨fun pa n hup => ?_, fun pa data hup => ?_, fun line => ?_, fun line => ?_, fun line excl data hup htier hlen => ?_,
    fun core k a ha => ?_, fun core k hk hcore => ?_, fun g pa n key u htier hup hg hslow => ?_, ?_, fun width rate hw hr => ?_, fun n c b t => ?_⟩
  · intro a got serve
    have hserve (k : Nat) (hl2 : l2Cached a = true) (hend : tierOf (a + n - 1) = tierOf a) (hslot : s.readSlot a = some k) : serve k := by
      have hexec : exec (.hostMemRead pa n) s = .next (s.hostServe pa n (some k)) := by rw [← hslot]; exact exec_hostMemRead_eq hup hl2 hend
      refine ⟨fun hbusy => hexec.trans (congrArg _ (State.hostServe_waits hbusy pa n)), fun hbusy bad b u hread => ⟨?_, ?_⟩⟩
      · have := s.length_hostRead a n (s.keyOf k)
        rwa [hread] at this
      · exact hexec.trans (congrArg _ (State.hostServe_read hbusy hread))
    refine ⟨fun ha hend => ?_, fun ha hend => ?_⟩
    · have hl2 : l2Cached a = true := by rw [l2Cached, ha]
      have hslot (hdump : s.inDump a = false) : s.readSlot a = s.hostSlot a := if_neg (by simp [hdump, ha])
      refine ⟨fun hdump => hserve 64 hl2 (hend.trans ha.symm) (if_pos (.inl hdump)), fun hdump hnone => ?_, fun hdump k hk => ?_⟩
      · refine (exec_hostMemRead_eq hup hl2 (hend.trans ha.symm)).trans ?_
        rw [show s.readSlot (s.hdm pa) = none from (hslot hdump).trans hnone]; rfl
      · exact hserve k hl2 (hend.trans ha.symm) ((hslot hdump).trans hk)
    · exact hserve 64 (by rw [l2Cached, ha]) (hend.trans ha.symm) (if_pos (.inr ha))
  · intro a ha hend
    have hexec := exec_hostMemWrite_eq hup ha hend
    refine ⟨fun hnone => ?_, fun k hk => ⟨fun hbusy => ?_, fun hbusy => ?_⟩⟩
    · rw [show s.hostSlot (s.hdm pa) = none from hnone] at hexec
      exact ⟨_, hexec, rfl, s.ioBits_ioCount 0x0610 (by decide)⟩
    · rw [show s.hostSlot (s.hdm pa) = some k from hk] at hexec
      exact hexec.trans (congrArg _ (if_pos hbusy))
    · rw [show s.hostSlot (s.hdm pa) = some k from hk] at hexec
      exact ⟨_, hexec.trans (congrArg _ (if_neg (by rw [State.keyBusy, hbusy]; decide))), s.readPhys_performWrite_hbm _ data k ha⟩
  · intro u here
    have hhere (f : Flight) : ¬ here f ↔ f.writesLine line.toNat = false := by rw [← Bool.not_eq_true, Flight.writesLine_iff]
    refine ⟨fun hnone => ?_, fun k f hk hf hfirst hready => ?_⟩
    · rw [exec_backInvalidateResponse_eq, State.firstWriter_eq_none fun f hf => (hhere f).mp (hnone f hf)]; rfl
    · obtain ⟨p, hp, hline⟩ : ∃ p, f.rel.piece = some p ∧ p / 2 = line.toNat := by
        rcases hf with hf | hf
        · exact ⟨_, hf, by omega⟩
        · exact ⟨_, hf, by omega⟩
      rw [exec_backInvalidateResponse_eq, State.firstWriter_eq_some hk ((Flight.writesLine_iff ..).mpr hf) fun j g hj hg => (hhere g).mp (hfirst j g hj hg)]
      refine congrArg _ (State.sliceAccess_performs hk hp hready ?_)
      rw [hline]
      exact SMap.has_del_self ..
  · refine ⟨_, exec_hostSnoop line s, SMap.has_del_self .., rfl, fun c => ?_⟩
    exact State.awake_of_wake _ line.toNat c
  · obtain ⟨hmem, hcache⟩ := (s.granted line.toNat data).hostEnter_results line.toNat excl
    obtain ⟨hexcl, hroom⟩ := hostAdd_new (SMap.has_del_self s.pkg.hostCache line.toNat) excl
    refine ⟨_, exec_hostLineCacheFill_eq excl data hup htier, ?_, ?_, State.awake_of_wake _ line.toNat, fun hle => ?_⟩
    · have hgranted : (s.granted line.toNat data).mem = writeMap s.mem (line.toNat * 64) data := by
        exact congrArg (writeMap s.mem (line.toNat * 64)) (List.take_of_length_le (le_of_eq hlen))
      rw [State.readPhys, show (State.wake _ _).mem = _ from hmem, hgranted, ← hlen]
      exact readMap_writeMap ..
    · exact (congrArg (SMap.get? · line.toNat) hcache).trans hexcl
    · exact (congrArg List.length hcache).trans_le (hroom ((SMap.length_del_le ..).trans hle))
  · refine ⟨?_, fun l hl harr => ?_, fun c hc => ?_, fun w hw x hx hseq => ?_, fun p hp => ?_⟩
    · rw [exec_hostAccessTimeout, execHostAccessTimeout, ha]
    · subst hl
      intro old t
      have ht : t = s.modCore core fun c => { c with loads := c.loads.filter (·.seq != l.seq) }.tokDone l.tok 0x240 false := by
        show s.failLoad core l 0x240 = _
        rw [State.failLoad, harr]; rfl
      rw [ht, State.core_modCore_self]
      exact ⟨(Core.sameReads_tokDone ..).1, SMap.getD_put_self ..⟩
    · subst hc; rfl
    · subst hw
      rw [State.hostFail, State.core_modCore_self] at hx
      obtain ⟨y, -, rfl⟩ := List.mem_map.mp hx
      by_cases hy : y.seq = w.seq
      · rw [if_pos hy]; exact ⟨rfl, rfl⟩
      · rw [if_neg hy] at hseq; exact absurd hseq hy
    · subst hp; rfl
  · rw [exec_hostAccessTimeout, execHostAccessTimeout, hk]
    exact congrArg _ (if_pos hcore)
  · have hlink : s.linkCause pa = 0 := by rw [State.linkCause, htier]; exact if_pos hup
    have hlate : s.hostLate g.id pa = true := by simp [State.hostLate, htier, hg, hslow]
    rw [State.fetchData, hlink]
    exact (if_neg (by decide)).trans (if_pos hlate)
  · obtain ⟨hpkg, -⟩ := State.linkLost_all s.cores s.linkGone
    exact ⟨_, exec_hostLinkDown_eq s, congrArg Pkg.hostUp hpkg, congrArg Pkg.hostCache hpkg, congrArg Pkg.hostHeld hpkg,
      fun c => (s.hostDown_lost c).loads, fun c => (s.hostDown_lost c).watches⟩
  · rw [exec_hostLinkTrain, execHostLinkTrain]
    exact congrArg _ (if_pos (by simp only [Bool.and_eq_true, List.contains_iff_mem]; exact ⟨hw, hr⟩))
  · intro u base hoff hread
    exact exec_streamEnable_eq hoff hread

end Sys2Proof.Proofs
end

section
/-! SUPPORT. Released entries whose turn it is (R31, R43, R167, R174, R175, R178, R343): the core that stops with a cause, a store, a VAMO, a
pair and a post. -/
namespace Sys2Proof.Machine
open Sys2Proof State

/-! A core that stops with a cause (R224, R229, R230). -/

/-- Freeing the reservations of a FORK changes what cores are reserved for, and nothing else. -/
theorem State.freeForks_keeps (s : State) (c : Nat) : (s.freeForks c).pkg = s.pkg ∧ (s.freeForks c).io = s.io ∧ (s.freeForks c).mem = s.mem := by
  unfold State.freeForks
  induction (s.core c).seg.forks generalizing s with
  | nil => exact ⟨rfl, rfl, rfl⟩
  | cons f l ih => exact ih _

theorem State.packageFatal_keeps (s : State) (c : Cause) : (s.packageFatal c).cores = s.cores ∧ (s.packageFatal c).mem = s.mem := by
  unfold State.packageFatal
  dsimp only
  split
  · exact ⟨rfl, rfl⟩
  · split <;> exact ⟨rfl, rfl⟩

/-- A core stands parked with a cause, in the memory of `s`. -/
def State.Stopped (s : State) (c : Nat) (cause : Cause) (u : State) : Prop :=
  (u.core c).run = .parked ∧ (u.core c).trec.cause = cause ∧ u.mem = s.mem

theorem State.Stopped.packageFatal {s u : State} {c : Nat} {cause : Cause} (h : s.Stopped c cause u) (x : Cause) : s.Stopped c cause (u.packageFatal x) := by
  obtain ⟨hcores, hmem⟩ := u.packageFatal_keeps x
  have hcore : (u.packageFatal x).core c = u.core c := by rw [State.core, State.core, hcores]
  rw [State.Stopped, hcore, hmem]
  exact h

theorem State.Stopped.cond {s u v : State} {c : Nat} {cause : Cause} (p : Prop) [Decidable p] (hu : s.Stopped c cause u) (hv : s.Stopped c cause v) :
    s.Stopped c cause (if p then u else v) := by
  split
  · exact hu
  · exact hv

theorem State.Stopped.setCore {s u : State} (c : Nat) {cause : Cause} {k : Core} (hmem : u.mem = s.mem) (hrun : k.run = .parked) (hcause : k.trec.cause = cause) :
    s.Stopped c cause (u.setCore c k) := by
  rw [State.Stopped, State.core_setCore_self]
  exact ⟨hrun, hcause, hmem⟩

/-- A core parks with the cause, and no byte of memory changes. -/
theorem State.park_stopped (s : State) {c : Nat} (t : TrapInfo) (haddr : Word) (kind : Nat) (hkeep : (s.core c).keepErr = false) :
    s.Stopped c t.cause (s.park c t haddr kind) := by
  obtain ⟨-, -, hmem⟩ := s.freeForks_keeps c
  unfold State.park
  simp only [hkeep, Bool.false_eq_true, false_and, if_false]
  have hv {v : State} (h : s.Stopped c t.cause v) :
      s.Stopped c t.cause (if t.cause = 0x208#10 then v.packageFatal 0x208#10 else if c = 256 then v.packageFatal 0x20C#10 else v) :=
    .cond _ (h.packageFatal _) (.cond _ (h.packageFatal _) h)
  exact hv (.cond _ (.setCore c hmem rfl rfl) (State.Stopped.setCore c hmem rfl rfl))

/-! An entry whose turn it is (R178). -/

@[simp] theorem State.dropFlight_cores (s : State) (k : Nat) : (s.dropFlight k).cores = s.cores := rfl

section Turn
variable {s : State} {k : Nat} {f : Flight} (hk : s.flight[k]? = some f) (hready : s.flightReady k = true)
include hk hready

/-- A store or VAMO reaches its home. -/
theorem exec_homeSliceAccess_performs {pa : Nat} (hp : f.rel.piece = some (pa / 32)) (hfree : s.pkg.hostHeld.has (pa / 64) = false) :
    exec (.homeSliceAccess k) s = .next ((s.dropFlight k).performRel f) := by
  have hline : pa / 32 / 2 = pa / 64 := by omega
  rw [exec_homeSliceAccess, execHomeSliceAccess, State.sliceAccess_performs hk hp hready (by rw [hline]; exact hfree)]

/-- The host holds the line: it is asked to give it up, and the entry waits. -/
theorem exec_homeSliceAccess_snoops {pa : Nat} (hp : f.rel.piece = some (pa / 32)) (hheld : s.pkg.hostHeld.has (pa / 64) = true)
    (hnew : s.pkg.snooped.has (pa / 64) = false) : exec (.homeSliceAccess k) s =
      .next ((s.send chSnoop (bytesOf 8 (pa / 64 * 64))).modPkg fun p => { p with snooped := p.snooped.ins (pa / 64) () }) := by
  have hline : pa / 32 / 2 = pa / 64 := by omega
  have hsnoop : s.snoopHost (pa / 32 * 32) 32 = (true, (s.send chSnoop (bytesOf 8 (pa / 64 * 64))).modPkg fun p => { p with snooped := p.snooped.ins (pa / 64) () }) := by
    simp [State.snoopHost, linesOf_sector, hline, hheld, hnew]
  rw [exec_homeSliceAccess, execHomeSliceAccess, State.sliceAccess]
  simp only [hk, hp, hready, Bool.not_true, Bool.false_eq_true, if_false, hsnoop]

end Turn

/-- An entry that ends with a cause stops the core that released it, when that still runs for the context. -/
theorem State.relFail_stops {s : State} {f : Flight} (c : Cause) (hrun : (s.core f.core).run = .running) (hctx : s.ctxOf f.core = f.ctx) :
    s.relFail f c = s.park f.core { cause := c } (s.core f.core).pc 1 := if_pos ⟨hrun, hctx⟩

section Perform
variable (s : State) {seq core ctx pa key cls : Nat} {time : Word}

theorem State.performRel_store {val : BitVec 256} {mask : BitVec 32} {c : Cause} {t : State}
    (h : s.performWrite (agentOf core ctx) pa mask.toNat (bytesOf 32 val.toNat) key = (c, t)) :
    s.performRel ⟨seq, core, ctx, .store pa key cls val mask, time⟩ = if c = 0 then t else t.relFail ⟨seq, core, ctx, .store pa key cls val mask, time⟩ c := by
  simp only [State.performRel, h]

theorem State.performRel_vamo {aop w : Nat} {val : BitVec 256} {mask : BitVec 32} (hlink : s.linkCause pa = 0) :
    s.performRel ⟨seq, core, ctx, .vamo pa key cls aop w val mask, time⟩ =
      if s.hostLate core pa then (s.hostOver core).relFail ⟨seq, core, ctx, .vamo pa key cls aop w val mask, time⟩ 0x240
      else s.performVamo (agentOf core ctx) pa key aop w val mask := by
  simp only [State.performRel, hlink, ne_eq, not_true, if_false]

/-- A link that is down ends a store, or a VAMO. -/
theorem State.performRel_linkDown {rel : Rel} (hrel : (∃ cls val mask, rel = .store pa key cls val mask) ∨ ∃ cls aop w val mask, rel = .vamo pa key cls aop w val mask)
    (hlink : s.linkCause pa ≠ 0) : s.performRel ⟨seq, core, ctx, rel, time⟩ = s.relFail ⟨seq, core, ctx, rel, time⟩ (s.linkCause pa) := by
  rcases hrel with ⟨cls, val, mask, rfl⟩ | ⟨cls, aop, w, val, mask, rfl⟩
  · have hw : s.performWrite (agentOf core ctx) pa mask.toNat (bytesOf 32 val.toNat) key = (s.linkCause pa, s) := if_pos hlink
    rw [s.performRel_store hw, if_neg hlink]
  · exact if_pos hlink

end Perform

/-! Bytes that a store leaves in HBM. -/

theorem getD_bytesOf (n x : Nat) {i : Nat} (hi : i < n) : (bytesOf n x).getD i 0 = BitVec.ofNat 8 (bits x (8 * i) 8) := by
  induction n generalizing x i with
  | zero => omega
  | succ n ih =>
    cases i with
    | zero => exact BitVec.eq_of_toNat_eq (by simp [bytesOf, bits])
    | succ i =>
      rw [bytesOf, List.getD_cons_succ, ih _ (by omega), bits, bits, Nat.div_div_eq_div_mul]
      congr 3
      rw [Nat.mul_succ, Nat.pow_add, Nat.mul_comm]

/-- A masked store of 32 bytes to HBM ends without a cause, and its bytes stand in memory. -/
theorem State.performWrite_hbm_bytes {s t : State} {g : Agent} {pa key : Nat} {val : BitVec 256} {mask : BitVec 32} {c : Cause} (h : tierOf pa = .hbm)
    (hw : s.performWrite g pa mask.toNat (bytesOf 32 val.toNat) key = (c, t)) :
    c = 0 ∧ ∀ i < 32, mask.getLsbD i = true → SMap.getD t.mem (pa + i) 0 = BitVec.ofNat 8 (bits val.toNat (8 * i) 8) := by
  by_cases hm : mask.toNat % 2 ^ (bytesOf 32 val.toNat).length = 0
  · have hzero : mask = 0 := BitVec.eq_of_toNat_eq (by rwa [bytesOf_length, Nat.mod_eq_of_lt mask.isLt] at hm)
    rw [s.performWrite_nothing g key h hm] at hw
    exact ⟨(congrArg Prod.fst hw).symm, fun i _ hi => by simp [hzero] at hi⟩
  · obtain ⟨u, hu⟩ := s.performWrite_hbm g key h hm
    rw [hu] at hw
    obtain ⟨rfl, rfl⟩ := Prod.mk.inj hw
    refine ⟨rfl, fun i hi hbit => ?_⟩
    rw [getD_writeMasked, Nat.add_sub_cancel_left, if_pos ⟨by omega, by simp [hi], by rwa [BitVec.testBit_toNat]⟩, getD_bytesOf _ _ hi]

/-! Pairs (R167, R175). -/

/-- A core whose stash keeps of a sector no more than its own written bytes. -/
def Core.StashStale (c : Core) (sector : Nat) : Prop := ∀ e ∈ c.stash, e.2.pa = some sector → e.2.full = false

theorem StashSector.stale_full (t : StashSector) (sector : Nat) (h : (t.stale sector).pa = some sector) : (t.stale sector).full = false := by
  unfold StashSector.stale at h ⊢
  split
  · rfl
  · next hne => rw [if_neg hne] at h; exact absurd h hne

theorem State.stash_invalidate (s : State) {sector writer : Nat} {q : Nat × Core} (hq : q ∈ (s.invalidate sector writer false).cores) : q.2.StashStale sector := by
  obtain ⟨p, -, rfl⟩ := List.mem_map.mp hq
  intro e he
  simp only [Bool.false_eq_true, and_false, if_false] at he
  obtain ⟨d, -, rfl⟩ := List.mem_map.mp (List.mem_filter.mp he).1
  exact d.2.stale_full sector

theorem State.snoopNow_cores (s : State) (line : Nat) : (s.snoopNow line).cores = s.cores := by
  unfold State.snoopNow
  split
  · dsimp only; split <;> rfl
  · rfl

/-- Once another agent has written a sector, no stash of a core holds more of it than its own written bytes. -/
theorem State.stash_dropCopies (s : State) {sector writer : Nat} {q : Nat × Core} (hq : q ∈ (s.dropCopies sector writer false).cores) : q.2.StashStale sector := by
  obtain ⟨p, hp, rfl⟩ := List.mem_map.mp hq
  have hp : p ∈ (s.invalidate sector writer false).cores := by
    split at hp
    · exact hp
    · rwa [State.snoopNow_cores] at hp
  have hstale : p.2.StashStale sector := s.stash_invalidate hp
  exact hstale

/-- What decides where a pair goes: memory, registers, L2, disabled ways and decks. -/
structure State.SameHome (s t : State) : Prop where
  mem : t.mem = s.mem
  io : t.io = s.io
  l2 : t.l2 = s.l2
  blaze : t.blaze = s.blaze
  deck : t.deck = s.deck

namespace State.SameHome
variable {s t : State} (h : SameHome s t)
include h

theorem ioGet (o : Nat) : t.ioGet o = s.ioGet o := by rw [State.ioGet, State.ioGet, h.io]
theorem home (line : Nat) : t.home line = s.home line := by rw [State.home, State.home, h.ioGet]
theorem wayOf (line : Nat) : t.wayOf line = s.wayOf line := by rw [State.wayOf, State.wayOf, h.home, h.l2]
theorem sliceDue (slice : Nat) : t.sliceDue slice = s.sliceDue slice := by
  have husable : t.usable = s.usable := funext fun sn => by rw [State.usable, State.usable, h.blaze]
  rw [State.sliceDue, State.sliceDue, h.blaze, h.ioGet, husable]
theorem rgnOp (r : Nat) : t.rgnOp r = s.rgnOp r := by rw [State.rgnOp, State.rgnOp, h.ioGet]
theorem rgnFxp (r : Nat) : t.rgnFxp r = s.rgnFxp r := by rw [State.rgnFxp, State.rgnFxp, h.ioGet]

end State.SameHome

theorem State.sameHome_dropCopies (s : State) (sector writer : Nat) (own : Bool) : State.SameHome s (s.dropCopies sector writer own) := by
  unfold State.dropCopies State.snoopNow
  dsimp only
  split
  · exact ⟨rfl, rfl, rfl, rfl, rfl⟩
  · split
    · split <;> exact ⟨rfl, rfl, rfl, rfl, rfl⟩
    · exact ⟨rfl, rfl, rfl, rfl, rfl⟩

theorem State.retireSlice_of_lives {s : State} {slice : Nat} (h : s.sliceDue slice = false) : s.retireSlice slice = s := by
  unfold State.retireSlice
  -- the lists' entries play no part: no check of this proof is to count them out
  generalize List.range 4096 = places, List.range 256 = regions
  exact if_pos (by rw [h]; rfl)

/-- A charge changes a counter of its context, and no register from SMAP on. -/
theorem State.ioGet_charge (s : State) {ctx k n o : Nat} (hk : k < 4) (ho : 0xC000 ≤ o) : (s.charge ctx k n).ioGet o = s.ioGet o := by
  unfold State.charge
  split
  · exact State.ioGet_ioSet_ne _ _ (by omega)
  · rfl

theorem State.charge_keeps (s : State) (ctx k n : Nat) :
    (s.charge ctx k n).mem = s.mem ∧ (s.charge ctx k n).l2 = s.l2 ∧ (s.charge ctx k n).deck = s.deck ∧ (s.charge ctx k n).cores = s.cores := by
  unfold State.charge
  split <;> exact ⟨rfl, rfl, rfl, rfl⟩

theorem State.home_charge (s : State) (ctx n line : Nat) {k : Nat} (hk : k < 4) : (s.charge ctx k n).home line = s.home line := by
  rw [State.home, State.ioGet_charge _ hk (by omega), State.home]

theorem State.wayOf_charge (s : State) (ctx n line : Nat) {k : Nat} (hk : k < 4) : (s.charge ctx k n).wayOf line = s.wayOf line := by
  rw [State.wayOf, State.home_charge _ _ _ _ hk, (s.charge_keeps ctx k n).2.1, State.wayOf]

/-- A key that stands in its deck, at a line that has a way, needs no room. -/
theorem State.pairRoom_of_present {s : State} {key slot r ctx : Nat} (hhas : (s.deck.getD (s.home (key / 64) * 256 + r) []).has key = true)
    (hway : (s.wayOf (key / 64)).isSome = true) : s.pairRoom key slot r ctx = s := by
  simp only [State.pairRoom, hhas, hway, if_true]

/-- Admission of a pair whose key stands in its deck already, and whose line has a way, at a slice that lives on. -/
theorem State.takePair_joins (s : State) {key slot r v ctx : Nat} {d : DeckVal} (hdue : s.sliceDue (s.home (key / 64)) = false)
    (hway : (s.wayOf (key / 64)).isSome = true) (hd : (s.deck.getD (s.home (key / 64) * 256 + r) []).get? key = some d) :
    (s.takePair key slot r v ctx).mem = s.mem ∧ (s.takePair key slot r v ctx).cores = s.cores ∧
      ((s.takePair key slot r v ctx).deck.getD (s.home (key / 64) * 256 + r) []).get? key = some (d.join (s.rgnOp r) (deckOf (s.rgnOp r) (s.rgnFxp r) v)) := by
  obtain ⟨hmem, hl2, hdeck, hcores⟩ := s.charge_keeps ctx 2 (opWidth (s.rgnOp r))
  have hhome := s.home_charge ctx (opWidth (s.rgnOp r)) (key / 64) (k := 2) (by decide)
  have hroom : (s.charge ctx 2 (opWidth (s.rgnOp r))).pairRoom key slot r ctx = s.charge ctx 2 (opWidth (s.rgnOp r)) :=
    State.pairRoom_of_present (by rw [hhome, hdeck, SMap.has, hd]; rfl) (by rw [State.wayOf_charge _ _ _ _ (by decide)]; exact hway)
  have hfxp : (s.charge ctx 2 (opWidth (s.rgnOp r))).rgnFxp r = s.rgnFxp r := by
    rw [State.rgnFxp, State.ioGet_charge _ (by decide) (by omega), State.rgnFxp]
  unfold State.takePair
  dsimp only
  rw [State.readySlice, State.retireSlice_of_lives hdue, hroom, hroom, hfxp, hhome, hdeck, hd]
  split
  · exact ⟨hmem, hcores, by rw [SMap.getD_ins_self]; exact SMap.get?_ins_self ..⟩
  · exact ⟨hmem, hcores, by rw [SMap.getD_ins_self]; exact SMap.get?_ins_self ..⟩

/-- A posted increment reaches a core that runs for the context (R343). -/
theorem State.deliverPost_running {s : State} {ctx target : Nat} (f n : Nat) {q : Chunk} (ht : target < 256) (hctx : ctx ≠ 64)
    (hchunk : (s.core target).chunk = some q) (hq : q.ctx = ctx) : s.deliverPost ctx target f n = s.modCore target fun c => c.flagForeign f (BitVec.ofNat 16 n) := by
  have hctl : isCtl target = false := by simp [isCtl]; omega
  unfold State.deliverPost
  dsimp only
  rw [hctl, if_neg (by decide), if_pos (by simp [hchunk, hctx, hq])]

end Sys2Proof.Machine

namespace Sys2Proof.Machine
open Sys2Proof State

theorem exec_updatePairAdmit_eq {s : State} {k seq core ctx pa key r cls : Nat} {v time : Word}
    (hk : s.flight[k]? = some ⟨seq, core, ctx, .pair pa key r cls v, time⟩) (hready : s.flightReady k = true) (hlink : s.linkCause pa = 0) :
    exec (.updatePairAdmit k) s = .next ((s.dropFlight k).admitPair pa key r v ctx) := by
  rw [exec_updatePairAdmit, execUpdatePairAdmit]
  simp only [State.pairAdmit, hk, hready, hlink, Bool.not_true, Bool.false_eq_true, if_false, ne_eq, not_true]

theorem exec_remotePostDeliver_eq {s : State} {k seq core ctx target f n : Nat} {time : Word}
    (hk : s.flight[k]? = some ⟨seq, core, ctx, .post target f n, time⟩) (hready : s.flightReady k = true) :
    exec (.remotePostDeliver k) s = .next ((s.dropFlight k).deliverPost ctx target f n) := by
  rw [exec_remotePostDeliver, execRemotePostDeliver]
  simp only [State.postArrives, hk, hready, if_true]

end Sys2Proof.Machine

namespace Sys2Proof.Proofs
open Sys2Proof Sys2Proof.Machine

/-- Settles O41: an entry whose turn it is leaves what is on its way and is performed; a store, VAMO or pair is then what `performRel` and
`takePair` say of it, and a post increments the flag of the core that still runs for the context. -/
theorem releasedEntryResults : Obligations.ReleasedEntryResults := by
  unfold Obligations.ReleasedEntryResults
  intro s k seq core ctx time hready
  refine ⟨fun pa key cls val mask hk hfree c t hw => ?_, fun pa key cls aop w val mask hk hfree hlink => ⟨fun hlate => ?_, fun hlate hal hrun hctx hkeep => ?_⟩,
    fun pa rel hk hrel hal hfree hlink hrun hctx => ?_, fun pa key cls val mask hk hheld hnew => ?_, fun pa key r cls v hk hway hlink hdue d hd => ?_,
    fun target f n q hk htarget hctx hchunk hq => ?_⟩
  · refine ⟨(exec_homeSliceAccess_performs hk hready rfl hfree).trans (congrArg _ (State.performRel_store _ hw)), fun htier => State.performWrite_hbm_bytes htier hw⟩
  · refine (exec_homeSliceAccess_performs hk hready rfl hfree).trans (congrArg _ ?_)
    exact (State.performRel_vamo (s.dropFlight k) hlink).trans (if_neg (by rw [show (s.dropFlight k).hostLate core pa = false from hlate]; decide))
  · have hlost : (s.dropFlight k).performRel ⟨seq, core, ctx, .vamo pa key cls aop w val mask, time⟩ = _ :=
      (State.performRel_vamo (s.dropFlight k) hlink).trans (if_pos hlate)
    have hcore : ((s.dropFlight k).hostOver core).core core = { s.core core with hostSlow := false } := State.core_modCore_self ..
    have hchunk : ((s.dropFlight k).hostOver core).ctxOf core = s.ctxOf core := by rw [State.ctxOf, hcore, State.ctxOf]
    rw [State.relFail_stops _ (by rw [hcore]; exact hrun) (hchunk.trans hctx)] at hlost
    obtain ⟨hparked, hcause, hmem⟩ := ((s.dropFlight k).hostOver core).park_stopped { cause := 0x240 }
      (((s.dropFlight k).hostOver core).core core).pc 1 (by rw [hcore]; exact hkeep)
    exact ⟨_, (exec_homeSliceAccess_performs hk hready rfl hfree).trans (congrArg _ hlost), hparked, hcause, hmem⟩
  · have hpiece : rel.piece = some (pa / 32) := by
      rcases hrel with ⟨_, _, _, _, rfl⟩ | ⟨_, _, _, _, _, _, rfl⟩ <;> rfl
    have hfail : (s.dropFlight k).performRel ⟨seq, core, ctx, rel, time⟩ = (s.dropFlight k).relFail ⟨seq, core, ctx, rel, time⟩ (s.linkCause pa) := by
      rcases hrel with ⟨key, cls, val, mask, rfl⟩ | ⟨key, cls, aop, w, val, mask, rfl⟩
      · exact State.performRel_linkDown (s.dropFlight k) (key := key) (.inl ⟨cls, val, mask, rfl⟩) hlink
      · exact State.performRel_linkDown (s.dropFlight k) (key := key) (.inr ⟨cls, aop, w, val, mask, rfl⟩) hlink
    exact (exec_homeSliceAccess_performs hk hready hpiece hfree).trans (congrArg _ (hfail.trans (State.relFail_stops _ hrun hctx)))
  · refine ⟨_, exec_homeSliceAccess_snoops hk hready rfl hheld hnew, rfl, rfl, rfl⟩
  · have hsame : State.SameHome s ((s.dropFlight k).dropCopies (pa / 32) 1000 false) :=
      let h := (s.dropFlight k).sameHome_dropCopies (pa / 32) 1000 false
      ⟨h.mem, h.io, h.l2, h.blaze, h.deck⟩
    obtain ⟨hmem, hcores, hjoin⟩ := ((s.dropFlight k).dropCopies (pa / 32) 1000 false).takePair_joins (slot := key) (v := v.toNat) (ctx := ctx)
      (by rw [hsame.home, hsame.sliceDue]; exact hdue) (by rw [hsame.wayOf]; exact hway) (by rw [hsame.home, hsame.deck]; exact hd)
    rw [hsame.home, hsame.rgnOp, hsame.rgnFxp] at hjoin
    exact ⟨_, exec_updatePairAdmit_eq hk hready hlink, hmem.trans hsame.mem, hjoin, fun q hq => (s.dropFlight k).stash_dropCopies (hcores ▸ hq)⟩
  · refine ⟨_, exec_remotePostDeliver_eq hk hready, ?_⟩
    rw [State.deliverPost_running (s := s.dropFlight k) f n htarget hctx hchunk hq, State.core_modCore_self]
    exact ⟨SMap.getD_put_self .., SMap.getD_put_self ..⟩

end Sys2Proof.Proofs
end

section
/-! SUPPORT. What L2 and the accesses to memory leave of a core (R132-R149, R163-R168): they change the copies that a core holds, the errors
of its scratchpad and what it waits for, and nothing of its work. -/
namespace Sys2Proof.Machine
open Sys2Proof

/-! The work of a core. -/

/-- A core but for its copies of memory, its scratchpad, the sleeps of its watches, the end of its next host access and its reservation. -/
def Core.work (c : Core) : Core :=
  { c with
    watches := [], sdc := [], stash := [], sp := [], spPoison := [], spErr := [], spCor := [], hostSlow := false, reserved := none
    seg := { c.seg with undo := [] } }

theorem SMap.get?_mapKey {α β : Type} (f : Nat → α → β) (m : SMap α) (i : Nat) :
    SMap.get? (m.map fun q => (q.1, f q.1 q.2)) i = (SMap.get? m i).map (f i) := by
  induction m with
  | nil => rfl
  | cons q m ih =>
    rw [List.map_cons, SMap.get?_cons, ih]
    obtain ⟨k, v⟩ := q
    rw [SMap.get?_cons]
    split
    · next h => rw [show k = i from h]; rfl
    · rfl

/-- From `s` to `t` every core keeps its work. -/
structure State.KeepsWork (s t : State) : Prop where
  work : ∀ c, (t.core c).work = (s.core c).work

namespace State.KeepsWork

variable {s t u : State}

theorem of_cores (h : t.cores = s.cores) : KeepsWork s t := ⟨fun c => by rw [State.core, State.core, h]⟩

theorem refl (s : State) : KeepsWork s s := ⟨fun _ => rfl⟩

theorem trans (h : KeepsWork s t) (k : KeepsWork t u) : KeepsWork s u := ⟨fun c => (k.work c).trans (h.work c)⟩

/-- A further change of no core. -/
theorem update (h : KeepsWork s t) (hcores : u.cores = t.cores) : KeepsWork s u := h.trans (of_cores hcores)

theorem cond (c : Prop) [Decidable c] (ht : KeepsWork s t) (hu : KeepsWork s u) : KeepsWork s (if c then t else u) := by
  split
  · exact ht
  · exact hu

/-- A fold keeps the work when each of its steps does. -/
theorem foldl {α : Type} {f : State → α → State} (hf : ∀ u x, KeepsWork u (f u x)) (l : List α) (s : State) : KeepsWork s (l.foldl f s) := by
  induction l generalizing s with
  | nil => exact refl s
  | cons x l ih => exact (hf s x).trans (ih (f s x))

/-- The same for a fold whose value holds the state in a part of it. -/
theorem foldlIn {α β : Type} (view : β → State) {f : β → α → β} (hf : ∀ q x, KeepsWork (view q) (view (f q x))) (l : List α) (q : β) :
    KeepsWork (view q) (view (l.foldl f q)) := by
  induction l generalizing q with
  | nil => exact refl (view q)
  | cons x l ih => exact (hf q x).trans (ih (f q x))

/-- Every core becomes one of the same work. -/
theorem map {f : Nat → Core → Core} (hf : ∀ i c, (f i c).work = c.work) (h : t.cores = s.cores.map fun q => (q.1, f q.1 q.2)) : KeepsWork s t := by
  refine ⟨fun c => ?_⟩
  have hget : SMap.get? t.cores c = (SMap.get? s.cores c).map (f c) := h ▸ SMap.get?_mapKey f s.cores c
  rw [State.core, State.core, SMap.getD, SMap.getD, hget]
  cases SMap.get? s.cores c with
  | none => rfl
  | some k => exact hf c k

theorem setCore {c : Nat} {k : Core} (h : k.work = (s.core c).work) : KeepsWork s (s.setCore c k) := by
  refine ⟨fun j => ?_⟩
  by_cases hj : c = j
  · rw [← hj, State.core_setCore_self, h]
  · rw [s.core_setCore_ne k hj]

end State.KeepsWork

open State.KeepsWork

theorem State.keepsWork_wake (s : State) (line : Nat) : KeepsWork s (s.wake line) := map (f := fun _ => Core.woken line) (fun _ _ => rfl) rfl

theorem State.keepsWork_invalidate (s : State) (sector writer : Nat) (own : Bool) : KeepsWork s (s.invalidate sector writer own) := by
  refine map (f := fun i c => { c with
    sdc := if i = writer then c.sdc else c.sdc.del (sector / 2)
    stash := if i = writer ∧ own then c.stash
      else (c.stash.map fun e => (e.1, e.2.stale sector)).filter fun e => e.2.full || e.2.mask != 0 || e.2.pa != some sector ||
        c.seg.undo.any fun u => u.sector == e.1 && u.stash.any fun t => t.mask != 0
    seg := if i = writer ∧ own then c.seg
      else { c.seg with undo := c.seg.undo.map fun u => { u with stash := u.stash.map fun t => t.stale sector } } }) (fun i c => ?_) rfl
  unfold Core.work
  dsimp only
  split <;> rfl

/-! Charges, records, retired frames. -/

theorem State.keepsWork_charge (s : State) (ctx k n : Nat) : KeepsWork s (s.charge ctx k n) := KeepsWork.cond _ (of_cores rfl) (refl s)

theorem State.keepsWork_lineRecord (s : State) (kind flags owner ctx line way : Nat) : KeepsWork s (s.lineRecord kind flags owner ctx line way) :=
  of_cores rfl

theorem State.keepsWork_wdrop (s : State) : KeepsWork s s.wdrop := of_cores rfl

theorem State.keepsWork_overflowed (s : State) (r : Nat) : KeepsWork s (s.overflowed r) := of_cores rfl

theorem State.keepsWork_retireFrame (s : State) (pa : Nat) : KeepsWork s (s.retireFrame pa).1 := by
  unfold State.retireFrame
  dsimp only
  split
  · exact refl s
  · split
    · exact refl s
    · exact of_cores rfl

/-! Sectors: what stands below L2, and copies elsewhere. -/

theorem State.keepsWork_keepBelow (s : State) (k : Nat) : KeepsWork s (s.keepBelow k) := KeepsWork.cond _ (refl s) (of_cores rfl)

theorem State.keepsWork_showBelow (s : State) (k : Nat) : KeepsWork s (s.showBelow k) := by
  unfold State.showBelow
  split
  · exact of_cores rfl
  · exact KeepsWork.cond _ (of_cores rfl) (refl s)

theorem State.keepsWork_encrypt (s : State) (sector slot : Nat) : KeepsWork s (s.encrypt sector slot) :=
  KeepsWork.cond _ (refl s) (of_cores rfl)

theorem State.keepsWork_storeBelow (s : State) (sec slot : Nat) : KeepsWork s (s.storeBelow sec slot) :=
  (s.keepsWork_encrypt sec slot).update rfl

theorem State.keepsWork_snoopNow (s : State) (line : Nat) : KeepsWork s (s.snoopNow line) := by
  unfold State.snoopNow
  split
  · have hask : KeepsWork s (if s.pkg.snooped.has line then s else s.send chSnoop (bytesOf 8 (line * 64))) :=
      KeepsWork.cond _ (refl s) (of_cores rfl)
    exact hask.update rfl
  · exact refl s

theorem State.keepsWork_dropCopies (s : State) (sector writer : Nat) (own : Bool) : KeepsWork s (s.dropCopies sector writer own) := by
  exact ((s.keepsWork_invalidate sector writer own).trans (KeepsWork.cond _ (refl _) (State.keepsWork_snoopNow _ _))).trans (State.keepsWork_wake _ _)

/-! Lines: fills, writebacks, disabled ways. -/

theorem State.keepsWork_fillSector (s : State) (line i : Nat) (a : L2Acc) : KeepsWork s (s.fillSector line i a) := by
  unfold State.fillSector
  extract_lets sec s1 s2 s3 s4 s5 s6
  have h1 : KeepsWork s s1 := s.keepsWork_charge ..
  have h2 : KeepsWork s s2 := h1.trans (s1.keepsWork_keepBelow sec)
  have h4 : KeepsWork s s4 := h1.trans (KeepsWork.cond _ (s1.keepsWork_lineRecord ..) (refl s1))
  have h5 : KeepsWork s s5 := h4.trans (KeepsWork.cond _ (s4.keepsWork_lineRecord ..) (refl s4))
  refine KeepsWork.cond _ (h2.update rfl) (KeepsWork.cond _ (h2.update rfl) (KeepsWork.cond _ h5 ?_))
  exact (h5.trans (s5.keepsWork_keepBelow sec)).update rfl

theorem State.keepsWork_refetch (s : State) (n line i flags : Nat) (a : L2Acc) : KeepsWork s (s.refetch n line i flags a) := by
  unfold State.refetch
  extract_lets sec s1
  have hclear : KeepsWork s s1 := of_cores rfl
  exact (hclear.trans (s1.keepsWork_showBelow sec)).trans (State.keepsWork_fillSector _ line i a)

theorem State.keepsWork_noteCor (s : State) (n : Nat) (l : L2Line) (skip ctx : Nat) : KeepsWork s (s.noteCor n l skip ctx) := by
  unfold State.noteCor
  extract_lets s1
  have hrec : KeepsWork s s1 := foldl (fun u _ => u.keepsWork_lineRecord ..) _ s
  exact hrec.update rfl

theorem State.keepsWork_writeBack (s : State) (n : Nat) (l : L2Line) (chargeTo : Nat) : KeepsWork s (s.writeBack n l chargeTo) := by
  unfold State.writeBack
  extract_lets s1
  have hback : KeepsWork s s1 := foldl (fun u i => KeepsWork.cond _ ((u.keepsWork_charge ..).trans
    (KeepsWork.cond _ (State.keepsWork_wdrop _) (State.keepsWork_storeBelow ..))) (refl u)) [0, 1] s
  exact hback.update rfl

theorem State.keepsWork_dropLine (s : State) (n : Nat) : KeepsWork s (s.dropLine n) := by
  unfold State.dropLine
  split
  · exact refl s
  · extract_lets s1 clr
    have h1 : KeepsWork s s1 := (s.keepsWork_showBelow _).trans (State.keepsWork_showBelow _ _)
    refine KeepsWork.trans ?_ (State.keepsWork_wake _ _)
    exact h1.update rfl

theorem State.keepsWork_disableWay (s : State) (n : Nat) : KeepsWork s (s.disableWay n) := (s.keepsWork_dropLine n).update rfl

/-! Decks: the apply of a region and what its reads find. -/

theorem State.keepsWork_deckFill (s : State) (line ctx : Nat) : KeepsWork s (s.deckFill line ctx) := by
  refine foldl (fun u i => ?_) [0, 1] s
  split
  · exact refl u
  · refine KeepsWork.cond _ (refl u) (KeepsWork.trans ?_ (State.keepsWork_fillSector ..))
    exact of_cores rfl

theorem State.keepsWork_applyKey (s : State) (op fxp ctx r key : Nat) (d : DeckVal) : KeepsWork s (s.applyKey op fxp ctx r key d) := by
  unfold State.applyKey
  extract_lets w sec line s1 s2
  have h1 : KeepsWork s s1 :=
    (KeepsWork.cond _ (s.keepsWork_keepBelow sec) (refl s)).trans (State.keepsWork_dropCopies _ sec 1000 false)
  have h2 : KeepsWork s s2 := by
    refine KeepsWork.cond _ (KeepsWork.cond _ (h1.trans (s1.keepsWork_overflowed r)) h1) ?_
    split
    extract_lets s3
    have h3 : KeepsWork s s3 := h1.update rfl
    exact KeepsWork.cond _ (h3.trans (s3.keepsWork_overflowed r)) h3
  clear_value line
  split
  · exact h2
  · exact h2.update rfl

theorem State.keepsWork_applyCheck (s : State) (ctx sec : Nat) : KeepsWork s (s.applyCheck ctx sec).2 := by
  unfold State.applyCheck
  repeat' split
  · exact refl s
  · exact refl s
  · exact of_cores rfl
  · exact s.keepsWork_refetch ..
  · exact refl s

theorem State.keepsWork_applyOne (s : State) (r slice : Nat) : KeepsWork s (s.applyOne r slice).2 := by
  unfold State.applyOne
  extract_lets op fxp ctx k deck nrun s1 s2
  have h1 : KeepsWork s s1 := s.keepsWork_charge ..
  have h2 : KeepsWork s s2 := h1.trans (foldl (fun u q => KeepsWork.cond _ (u.keepsWork_lineRecord ..) (refl u)) _ s1)
  split
  next runs bad _ =>
  extract_lets runs' all s3 secs
  have h3 : KeepsWork s s3 := h2.trans (foldl (fun u line => u.keepsWork_deckFill line ctx) _ s2)
  split
  next found s4 hread =>
  have h4 : KeepsWork s s4 := by
    refine h3.trans ?_
    rw [show s4 = _ from (congrArg Prod.snd hread).symm]
    split
    · exact refl s3
    · refine foldlIn Prod.snd (fun q x => ?_) secs ([], s3)
      exact q.2.keepsWork_applyCheck ctx x.1
  clear_value s3
  extract_lets us s5 s6 s7 keys
  have h5 : KeepsWork s s5 := KeepsWork.cond _ (h4.trans (s4.keepsWork_overflowed r)) h4
  have h6 : KeepsWork s s6 := by
    clear_value s5
    refine KeepsWork.cond _ (h5.trans ?_) (h5.trans ?_)
    case refine_2 => exact foldl (α := Nat × DeckVal) (fun u q => u.keepsWork_applyKey op fxp ctx r q.1 q.2) all s5
    refine foldl (fun u q => ?_) us s5
    extract_lets u1 u2 u3 u4 u5
    have h1 : KeepsWork u u1 := u.keepsWork_deckFill q.2.tag ctx
    have hkeep := (u1.keepsWork_keepBelow (q.2.tag * 2)).trans (State.keepsWork_keepBelow _ (q.2.tag * 2 + 1))
    have h2 : KeepsWork u1 u2 := hkeep.trans (State.keepsWork_dropCopies _ (q.2.tag * 2) 1000 false)
    have h3 : KeepsWork u2 u3 := u2.keepsWork_dropCopies (q.2.tag * 2 + 1) 1000 false
    have h4 : KeepsWork u u4 := ((h1.trans h2).trans h3).update rfl
    have h5 : KeepsWork u u5 := by
      clear_value u4
      refine h4.trans ?_
      dsimp only [u5]
      split
      · exact of_cores rfl
      · exact refl u4
    exact h5.trans (u5.keepsWork_lineRecord ..)
  have h7 : KeepsWork s s7 := h6.update rfl
  refine h7.trans (foldl (fun u line => ?_) keys s7)
  split
  · exact refl u
  · exact KeepsWork.cond _ (of_cores rfl) (refl u)

theorem State.keepsWork_applyRest (s : State) (line : Nat) : KeepsWork s (s.applyRest line).2 := by
  refine foldlIn Prod.snd (fun q r => ?_) _ ([], s)
  exact q.2.keepsWork_applyOne r (s.home line)

/-! Containment: lost lines and disabled ways. -/

theorem State.keepsWork_loseCore (s : State) (n tag owner bad : Nat) (scrub : Bool) (ctx : Nat) :
    KeepsWork s (s.loseCore n tag owner bad scrub ctx) := by
  unfold State.loseCore
  extract_lets s1 s2
  have h1 : KeepsWork s s1 := by
    dsimp only [s1]
    split
    · exact (s.keepsWork_noteCor ..).trans (State.keepsWork_writeBack ..)
    · exact refl s
  have h2 : KeepsWork s s2 := h1.trans (s1.keepsWork_disableWay n)
  have h3 := h2.trans (s2.keepsWork_retireFrame (tag * 64))
  split
  next heq =>
  rw [heq] at h3
  exact h3.update rfl

theorem State.keepsWork_poisonBad (s : State) (l : L2Line) : KeepsWork s (s.poisonBad l) := by
  refine foldl (fun u i => ?_) _ s
  exact of_cores rfl

theorem State.keepsWork_countUp (s : State) (n line flags ctx : Nat) : KeepsWork s (s.countUp n line flags ctx).2 := by
  unfold State.countUp
  extract_lets s1 k
  have h1 : KeepsWork s s1 := s.keepsWork_lineRecord ..
  split
  · exact h1.update rfl
  · exact h1

theorem State.keepsWork_wayGone (s : State) (n line flags ctx : Nat) : KeepsWork s (s.wayGone n line flags ctx) := by
  unfold State.wayGone
  split
  next l _ =>
    extract_lets s1 bad
    have h1 : KeepsWork s s1 := s.keepsWork_noteCor ..
    refine KeepsWork.cond _ ((h1.trans (s1.keepsWork_poisonBad l)).trans (State.keepsWork_loseCore ..)) ?_
    exact ((h1.trans (s1.keepsWork_writeBack ..)).trans (State.keepsWork_disableWay ..)).trans (State.keepsWork_lineRecord ..)
  next => exact (s.keepsWork_disableWay n).trans (State.keepsWork_lineRecord ..)

theorem State.keepsWork_settle (fuel : Nat) (found : List Nat) (s : State) : KeepsWork s (State.settle fuel found s) := by
  induction fuel generalizing found s with
  | zero => exact refl s
  | succ fuel ih =>
    cases found with
    | nil => exact refl s
    | cons sec rest =>
      have more (t u : State) (line : Nat) (ht : KeepsWork s t) (hu : KeepsWork (t.applyRest line).2 u) (l : List Nat) :
          KeepsWork s (State.settle fuel l u) := ((ht.trans (t.keepsWork_applyRest line)).trans hu).trans (ih l u)
      unfold State.settle
      split
      next => exact ih rest s
      next n l _ =>
        extract_lets bad
        refine KeepsWork.cond _ ?_ (KeepsWork.cond _ ?_ (ih rest s))
        · exact more _ _ l.tag (s.keepsWork_poisonBad l) (State.keepsWork_loseCore ..) _
        · have hcount := s.keepsWork_countUp n l.tag (2 * 2 ^ (sec % 2)) 64
          split
          next t heq =>
            rw [heq] at hcount
            exact hcount.trans (ih rest t)
          next t heq =>
            rw [heq] at hcount
            exact more t _ l.tag hcount (State.keepsWork_wayGone ..) _

theorem State.keepsWork_applyRegion (s : State) (r slice : Nat) : KeepsWork s (s.applyRegion r slice) :=
  (s.keepsWork_applyOne r slice).trans (State.keepsWork_settle 64 _ _)

theorem State.keepsWork_applyLine (s : State) (line : Nat) : KeepsWork s (s.applyLine line) := by
  unfold State.applyLine
  split
  · exact refl s
  · refine KeepsWork.cond _ ?_ (refl s)
    extract_lets s1
    have h1 : KeepsWork s s1 := foldl (fun u r => u.keepsWork_applyRegion r (u.home line)) _ s
    split
    · exact h1.update rfl
    · exact h1

theorem State.keepsWork_loseLine (s : State) (n : Nat) (scrub : Bool) (ctx : Nat) : KeepsWork s (s.loseLine n scrub ctx) := by
  unfold State.loseLine
  split
  · exact refl s
  · exact ((s.keepsWork_poisonBad _).trans (State.keepsWork_applyLine ..)).trans (State.keepsWork_loseCore ..)

theorem State.keepsWork_countCorrected (s : State) (n line flags ctx : Nat) : KeepsWork s (s.countCorrected n line flags ctx) := by
  have hcount := s.keepsWork_countUp n line flags ctx
  unfold State.countCorrected
  split
  next t heq => rwa [heq] at hcount
  next t heq =>
    rw [heq] at hcount
    refine hcount.trans (KeepsWork.trans ?_ (State.keepsWork_wayGone ..))
    split
    · exact State.keepsWork_applyLine ..
    · exact refl _

theorem State.keepsWork_evict (s : State) (n : Nat) : KeepsWork s (s.evict n) := by
  unfold State.evict
  split
  · exact refl s
  · extract_lets s1
    have h1 : KeepsWork s s1 := s.keepsWork_applyLine _
    split
    · exact h1
    · refine KeepsWork.cond _ (h1.trans (s1.keepsWork_loseLine ..)) ?_
      extract_lets cor s2
      have h2 : KeepsWork s s2 := (h1.trans (s1.keepsWork_writeBack ..)).trans (State.keepsWork_dropLine ..)
      exact h2.trans (foldl (fun u i => u.keepsWork_countCorrected ..) cor s2)

/-! Slice retirement. -/

theorem State.keepsWork_retireSlice (s : State) (slice : Nat) : KeepsWork s (s.retireSlice slice) := by
  unfold State.retireSlice
  -- the lists' entries play no part: no check of this proof is to count them out
  generalize List.range 4096 = places, List.range 256 = regions
  extract_lets live s1 s2 o s3 next
  refine KeepsWork.cond _ (refl s) ?_
  have h1 : KeepsWork s s1 := foldl (fun u r => KeepsWork.cond _ (u.keepsWork_applyRegion r slice) (refl u)) _ s
  have h2 : KeepsWork s s2 := by
    refine h1.trans (foldl (fun u q => ?_) _ s1)
    exact KeepsWork.cond _ (u.keepsWork_evict q.1) (refl u)
  have h3 : KeepsWork s s3 := h2.trans (of_cores rfl)
  split
  next s4 _ hmap =>
  have h4 : KeepsWork s3 s4 := by
    rw [show s4 = _ from (congrArg Prod.fst hmap).symm]
    refine foldlIn Prod.fst (fun q i => ?_) _ (s3, slice)
    dsimp only
    split
    · exact of_cores rfl
    · exact refl q.1
  exact (h3.trans h4).update rfl

/-! Accesses to a line (R136, R137, R138, R145). -/

theorem State.keepsWork_sweepDone (s : State) : KeepsWork s s.sweepDone := by
  refine KeepsWork.update (t := s.isoPoison.foldl (fun u q => u.sweepSector q.1) s) (foldl (fun u q => ?_) _ s) (by rw [State.sweepDone_eq])
  obtain ⟨m, hm⟩ := u.sweepSector_eq q.1
  rw [hm]
  refine KeepsWork.update (t := ({ u with poison := u.poison.del q.1 }.showBelow q.1).wake (q.1 / 2)) ?_ rfl
  refine KeepsWork.trans (KeepsWork.trans ?_ (State.keepsWork_showBelow _ _)) (State.keepsWork_wake _ _)
  exact of_cores rfl

theorem State.cores_victim {s t : State} {sn w : Nat} {cands : List Nat} (h : s.victim sn cands = some (w, t)) : t.cores = s.cores := by
  unfold State.victim at h
  split at h
  · cases h; rfl
  · dsimp only at h
    split at h
    · cases h
    · cases h; rfl

theorem State.cores_wayFor {s t : State} {line w : Nat} {resv : Bool} (h : s.wayFor line resv = some (w, t)) : t.cores = s.cores := by
  unfold State.wayFor at h
  dsimp only at h
  split at h
  · obtain ⟨x, -, hx⟩ := Option.map_eq_some_iff.mp h
    cases hx; rfl
  · exact State.cores_victim h

theorem State.keepsWork_allocateIn (fuel line : Nat) (a : L2Acc) (s : State) : KeepsWork s (State.allocateIn fuel line a s) := by
  induction fuel generalizing s with
  | zero => exact refl s
  | succ fuel ih =>
    unfold State.allocateIn
    split
    · exact refl s
    next w t hway =>
      extract_lets sn u
      have hu : KeepsWork s u := (of_cores (State.cores_wayFor hway)).trans (State.keepsWork_evict t _)
      exact KeepsWork.cond _ (hu.update rfl) ((hu.trans (State.keepsWork_retireSlice u _)).trans (ih _))

theorem State.keepsWork_allocate (s : State) (line : Nat) (a : L2Acc) : KeepsWork s (s.allocate line a) :=
  (s.keepsWork_retireSlice _).trans (State.keepsWork_allocateIn 17 line a _)

theorem State.keepsWork_checkErr (s : State) (line i : Nat) (a : L2Acc) : KeepsWork s (s.checkErr line i a) := by
  unfold State.checkErr
  dsimp only
  split
  · exact refl s
  · refine KeepsWork.cond _ (s.keepsWork_countCorrected ..) (KeepsWork.cond _ (refl s) (KeepsWork.cond _ (s.keepsWork_loseLine ..) ?_))
    exact s.keepsWork_refetch ..

theorem State.keepsWork_needSector (s : State) (line i : Nat) (a : L2Acc) : KeepsWork s (s.needSector line i a) := by
  unfold State.needSector
  extract_lets sec s0 s1 blind s2
  have h1 : KeepsWork s s1 := KeepsWork.cond _ (of_cores rfl) (refl s)
  have h2 : KeepsWork s s2 := h1.trans (KeepsWork.cond _ (refl s1) (s1.keepsWork_checkErr line i a))
  refine KeepsWork.cond _ (refl s) (KeepsWork.cond _ (of_cores rfl) ?_)
  split
  · exact h2
  · exact KeepsWork.cond _ h2 (h2.trans (s2.keepsWork_fillSector line i a))

theorem State.keepsWork_mergeBelow (s : State) (line i : Nat) (a : L2Acc) : KeepsWork s (s.mergeBelow line i a) := by
  unfold State.mergeBelow
  extract_lets sec s0 kept s1 s2 s3
  have h1 : KeepsWork s s1 := KeepsWork.cond _ (of_cores rfl) (refl s)
  have h2 : KeepsWork s s2 := h1.trans (KeepsWork.cond _ (s1.keepsWork_lineRecord ..) (refl s1))
  have h3 : KeepsWork s s3 := h2.trans (KeepsWork.cond _ (refl s2) (of_cores rfl))
  refine KeepsWork.cond _ ((s.keepsWork_storeBelow sec a.key).update rfl) ?_
  exact (h3.trans (s3.keepsWork_encrypt sec a.key)).update rfl

theorem State.keepsWork_wroteSector (s : State) (line i : Nat) (a : L2Acc) : KeepsWork s (s.wroteSector line i a) := by
  unfold State.wroteSector
  extract_lets sec one s1 s2 s3
  split
  · exact KeepsWork.cond _ (s.keepsWork_mergeBelow line i a) (refl s)
  · have h1 : KeepsWork s s1 := KeepsWork.cond _ (of_cores rfl) (refl s)
    refine KeepsWork.cond _ (refl s) (KeepsWork.cond _ (s.keepsWork_mergeBelow line i a) (KeepsWork.cond _ ?_ ?_))
    · exact (h1.trans (s1.keepsWork_storeBelow sec a.key)).update rfl
    · exact (h1.trans (s1.keepsWork_keepBelow sec)).update rfl

theorem State.keepsWork_spillLine (s : State) (line : Nat) (a : L2Acc) : KeepsWork s (s.spillLine line a) :=
  foldl (fun u i => KeepsWork.cond _ ((u.keepsWork_mergeBelow line i a).trans (State.keepsWork_charge ..)) (refl u)) [0, 1] s

theorem State.keepsWork_l2Access (s : State) (line : Nat) (a : L2Acc) : KeepsWork s (s.l2Access line a) := by
  unfold State.l2Access
  extract_lets s1 s2 s3 hit kept s4 s5 gone lost s6 s7 s8 s9
  have h1 : KeepsWork s s1 := s.keepsWork_retireSlice _
  have h2 : KeepsWork s s2 := h1.trans (KeepsWork.cond _ s1.keepsWork_sweepDone (refl s1))
  have h3 : KeepsWork s s3 := h2.trans (s2.keepsWork_applyLine line)
  have h4 : KeepsWork s s4 := h3.trans (KeepsWork.cond _ (refl s3) (s3.keepsWork_allocate line a))
  have h5 : KeepsWork s s5 := h4.trans (s4.keepsWork_needSector line 0 a)
  have h6 : KeepsWork s s6 := h5.trans (KeepsWork.cond _ (s5.keepsWork_allocate line a) (refl s5))
  have h7 : KeepsWork s s7 := h6.trans (s6.keepsWork_needSector line 1 a)
  have h8 : KeepsWork s s8 := h7.trans (KeepsWork.cond _ (((s7.keepsWork_allocate line a).trans (State.keepsWork_needSector ..)).trans
    (State.keepsWork_needSector ..)) (refl s7))
  have h9 : KeepsWork s s9 := by
    clear_value s8
    refine h8.trans ?_
    dsimp only [s9]
    split
    · exact refl s8
    · exact of_cores rfl
  refine KeepsWork.cond _ (h3.trans (s3.keepsWork_spillLine line a)) (KeepsWork.cond _ ?_ h9)
  exact (h9.trans (s9.keepsWork_wroteSector line 0 a)).trans (State.keepsWork_wroteSector _ line 1 a)

theorem State.keepsWork_l2Read (s : State) (pa n ctx key u : Nat) : KeepsWork s (s.l2Read pa n ctx key u) :=
  KeepsWork.cond _ (foldl (fun v l => v.keepsWork_l2Access l _) _ s) (refl s)

theorem State.keepsWork_l2Put (s : State) (pa mask : Nat) (b : List Byte) (a : L2Acc) : KeepsWork s (s.l2Put pa mask b a) := by
  unfold State.l2Put
  extract_lets n whole s1
  have h1 : KeepsWork s s1 := KeepsWork.cond _ (foldl (fun v l => v.keepsWork_l2Access l _) _ s) (refl s)
  exact KeepsWork.cond _ (h1.trans s1.keepsWork_wdrop) (h1.update rfl)

/-! Recalls, links and the accesses of an agent (R29-R31, R133, R152). -/

theorem State.keepsWork_spScan (s : State) (core sa n : Nat) : KeepsWork s (s.spScan core sa n) := by
  refine foldl (fun u k => ?_) _ s
  dsimp only
  refine KeepsWork.cond _ (refl u) ?_
  refine KeepsWork.update (t := u.setCore core _) ?_ rfl
  exact KeepsWork.setCore rfl

theorem Core.work_answerRecall (c : Core) (k : Nat) (t : StashSector) : (c.answerRecall k t).2.work = c.work := by
  unfold Core.answerRecall
  split
  · split <;> rfl
  · rfl

theorem State.keepsWork_stashPut (s : State) (core pa key : Nat) (r : Recalled) : KeepsWork s (s.stashPut core pa key r) := by
  unfold State.stashPut
  extract_lets ctx s1 s2
  have h2 : KeepsWork s s2 := (s.keepsWork_dropCopies ..).trans (s1.keepsWork_l2Put ..)
  exact KeepsWork.cond _ (refl s) (KeepsWork.cond _ (h2.update rfl) h2)

theorem State.keepsWork_recall (s : State) (sector except : Nat) : KeepsWork s (s.recall sector except) := by
  refine foldl (fun u q => KeepsWork.cond _ (refl u) (foldl (fun v e => KeepsWork.cond _ ?_ (refl v)) _ u)) _ s
  have hscan := v.keepsWork_spScan q.1 (e.1 * 32) 32
  exact (hscan.trans (KeepsWork.setCore (Core.work_answerRecall ..))).trans (State.keepsWork_stashPut ..)

theorem State.keepsWork_hostTouch (s : State) (pa n : Nat) (excl : Bool) : KeepsWork s (s.hostTouch pa n excl) := by
  refine KeepsWork.cond _ (foldl (fun u l => ?_) _ s) (refl s)
  unfold State.hostEnter
  extract_lets p t
  have ht : KeepsWork u t := of_cores rfl
  split
  · exact ht.trans (State.keepsWork_wake t _)
  · exact ht

theorem State.keepsWork_hostOver (s : State) (core : Nat) : KeepsWork s (s.hostOver core) := KeepsWork.setCore rfl

theorem State.keepsWork_fetchData (s : State) (a : Agent) (pa n key u : Nat) : KeepsWork s (s.fetchData a pa n key u).2 := by
  unfold State.fetchData
  extract_lets link s1 s2
  have h1 : KeepsWork s s1 := foldl (fun v k => v.keepsWork_recall k a.id) _ s
  split
  · exact refl s
  · split
    · exact s.keepsWork_hostOver a.id
    · exact (h1.trans (s1.keepsWork_l2Read ..)).trans (State.keepsWork_hostTouch ..)

/-! Translation and the stash (R125-R129, R132, R133). -/

theorem State.keepsWork_walkL2 (ctx va fuel level base : Nat) (s : State) : KeepsWork s (State.walkL2 ctx va fuel level base s).2 := by
  induction fuel generalizing level base s with
  | zero => exact refl s
  | succ fuel ih =>
    have hread := s.keepsWork_fetchData ⟨1000, ctx, false⟩ (base + 8 * levelIndex level va) 8 (s.ptkOf ctx) 2
    unfold State.walkL2
    split
    next c b t heq =>
      rw [heq] at hread
      dsimp only
      repeat' split
      any_goals exact hread
      exact hread.trans (ih ..)

theorem State.cores_tlbAdd (s : State) (unit core ctx va : Nat) (l : Leaf) : (s.tlbAdd unit core ctx va l).cores = s.cores := by
  unfold State.tlbAdd
  grind

theorem State.keepsWork_xlatePage (s : State) (w : Who) (k : AccKind) (va : Nat) : KeepsWork s (s.xlatePage w k va).2 := by
  unfold State.xlatePage
  dsimp only
  split
  · exact refl s
  split
  · exact refl s
  split
  · exact refl s
  split
  · exact refl s
  split
  · exact of_cores (s.cores_tlbAdd ..)
  split
  · exact refl s
  next base _ _ _ _ _ _ =>
  have hwalk := State.keepsWork_walkL2 w.ctx va 3 1 base s
  split
  next heq => rwa [heq] at hwalk
  next heq =>
    rw [heq] at hwalk
    exact hwalk.update (by rw [State.cores_tlbAdd, State.cores_tlbAdd])

theorem Core.work_undoFor {c d : Core} {k : Nat} (h : c.undoFor k = .ok d) : d.work = c.work := by
  unfold Core.undoFor at h
  split at h
  · cases h; rfl
  · split at h
    · cases h
    · cases h; rfl

theorem Core.work_spWrote (c : Core) (k : Nat) (whole poisoned : Bool) : (c.spWrote k whole poisoned).work = c.work := by
  unfold Core.spWrote
  cases whole <;> cases poisoned <;> rfl

theorem State.keepsWork_stashFill (s : State) (core : Nat) (who : Who) (k : Nat) (w : Window) : KeepsWork s (s.stashFill core who k w).2 := by
  unfold State.stashFill
  dsimp only
  split
  · exact refl s
  have hpage := s.keepsWork_xlatePage who .load (w.gva.toNat + (k * 32 - w.spbase))
  split
  next heq => rwa [heq] at hpage
  next pa key t heq =>
  rw [heq] at hpage
  split
  · exact hpage
  split
  · exact hpage
  next c hundo =>
  have hc : c.work = (t.core core).work := by
    split at hundo
    · cases hundo; rfl
    · exact Core.work_undoFor hundo
  have hread := (hpage.trans (KeepsWork.setCore (c := core) hc)).trans (State.keepsWork_fetchData _ (agentOf core who.ctx) pa 32 key 2)
  split
  · exact hread
  · exact hread.trans (KeepsWork.setCore (Core.work_spWrote ..))

theorem State.keepsWork_stashPlace (s : State) (core k : Nat) : KeepsWork s (s.stashPlace core k).2 := by
  unfold State.stashPlace
  split
  next w _ _ =>
    split
    · exact refl s
    · have hfill := s.keepsWork_stashFill core (s.mainWho core) k w
      split
      next heq => rwa [heq] at hfill
      next heq => rwa [heq] at hfill
  · exact refl s

theorem State.keepsWork_flushSector (s : State) (core k : Nat) (inv : Bool) : KeepsWork s (s.flushSector core k inv).2 := by
  have hplace := s.keepsWork_stashPlace core k
  unfold State.flushSector
  split
  next c0 t heq =>
  rw [heq] at hplace
  split
  · exact hplace
  next e _ =>
  split
  · exact hplace
  next p _ =>
  have hscan := hplace.trans (t.keepsWork_spScan core (k * 32) 32)
  have hanswer := Core.work_answerRecall ((t.spScan core (k * 32) 32).core core) k e
  extract_lets u
  split
  next r c hr =>
  rw [hr] at hanswer
  extract_lets link v
  split
  · exact hscan
  · have hput := (hscan.trans (KeepsWork.setCore hanswer)).trans (State.keepsWork_stashPut _ core (p * 32) e.key r)
    refine KeepsWork.cond _ (hput.trans ?_) hput
    exact KeepsWork.setCore rfl

theorem State.keepsWork_flushWindow (s : State) (core : Nat) (w : Window) (inv : Bool) : KeepsWork s (s.flushWindow core w inv).2 := by
  refine foldlIn Prod.snd (fun q k => ?_) _ ((0, 0), s)
  exact q.2.keepsWork_flushSector core k inv

theorem State.keepsWork_flushStash (s : State) (core : Nat) : KeepsWork s (s.flushStash core).2 := by
  refine foldlIn Prod.snd (fun q w => ?_) _ ((0, 0), s)
  exact q.2.keepsWork_flushWindow core w.2 true

end Sys2Proof.Machine
end

section
/-! SUPPORT. Gangs, barriers, launches and the termination of a context (R40-R42, R116-R119, R233, R330): what each step of these comes to. -/
namespace Sys2Proof.Machine
open Sys2Proof State

/-- A fold brings about a property of every key that it visits, when the step at a key does so whatever stood before, and each other step
keeps it; `I` is what the steps rely on. -/
theorem foldl_reaches {α σ : Type} {I : σ → Prop} {P : σ → Nat → Prop} {f : σ → α → σ} {key : α → Nat} (hI : ∀ s x, I s → I (f s x))
    (hself : ∀ s x, I s → P (f s x) (key x)) (hkeep : ∀ s x c, I s → c ≠ key x → P s c → P (f s x) c) (l : List α) {s : σ} (hs : I s) {c : Nat}
    (hc : c ∈ l.map key ∨ P s c) : P (l.foldl f s) c := by
  induction l generalizing s with
  | nil => exact hc.resolve_left (by simp)
  | cons x l ih =>
    refine ih (hI s x hs) ?_
    by_cases hx : c = key x
    · exact .inr (hx ▸ hself s x hs)
    · rcases hc with hmem | hP
      · exact .inl ((List.mem_cons.mp hmem).resolve_left hx)
      · exact .inr (hkeep s x c hs hx hP)

/-! Room for a kernel's banks (R111, R235). -/

/-- A switched-out chunk whose banks are still to be saved when they are needed. -/
def Saved.unsaved (r : Saved) : Bool := decide (r.savedMask = 0 ∧ r.kernel.bmask ≠ 0)

/-- One step of `State.makeRoom`: the banks of one switched-out chunk. -/
def roomStep (core : Nat) (mask : Half) (self : Option Chunk) (q : Bool × Bool × State) (r : Saved) : Bool × Bool × State :=
  let (ok, kept, s) := q
  if r.savedMask ≠ 0 ∨ r.kernel.bmask = 0 ∨ self = some r.chunk then q
  else if r.kernel.bmask &&& mask = 0 ∧ !kept then (ok, true, s)
  else if !(s.ioGet (0xFC00 + 8 * r.chunk.ctx)).getLsbD 0 then (ok, kept, s.termGo r.chunk.ctx 0x1C8#10)
  else if !s.pkg.keyOp.isEmpty ∨ !s.keyUsable (s.ownOf r.chunk.ctx) then (false, kept, s)
  else (ok, kept, (s.saveBanks core r.chunk.ctx r.kernel.bmask).modCore core fun c =>
    { c with resident := c.resident.map fun x => if x.chunk = r.chunk then { x with savedMask := r.kernel.bmask } else x })

theorem State.makeRoom_eq (s : State) (core : Nat) (mask : Half) (self : Option Chunk) : s.makeRoom core mask self =
    (((s.core core).resident.foldl (roomStep core mask self) (true, false, s)).1, ((s.core core).resident.foldl (roomStep core mask self) (true, false, s)).2.2) := rfl

/-- Chunks whose banks are saved or do not overlap `mask`, all but one of them saved, need nothing. -/
theorem foldl_roomStep (core : Nat) {mask : Half} (s : State) (l : List Saved) (kept : Bool)
    (hfree : ∀ r ∈ l, r.savedMask ≠ 0 ∨ r.kernel.bmask &&& mask = 0) (hone : (l.filter Saved.unsaved).length + kept.toNat ≤ 1) :
    ∃ k, l.foldl (roomStep core mask none) (true, kept, s) = (true, k, s) := by
  induction l generalizing kept with
  | nil => exact ⟨kept, rfl⟩
  | cons r l ih =>
    rw [List.foldl_cons]
    have hrest : ∀ x ∈ l, x.savedMask ≠ 0 ∨ x.kernel.bmask &&& mask = 0 := fun x hx => hfree x (.tail _ hx)
    by_cases hr : r.unsaved = true
    · obtain ⟨hmask, hbanks⟩ : r.savedMask = 0 ∧ r.kernel.bmask ≠ 0 := of_decide_eq_true hr
      rw [List.filter_cons_of_pos hr, List.length_cons] at hone
      obtain rfl : kept = false := by
        cases kept
        · rfl
        · simp only [Bool.toNat_true] at hone; omega
      have hopen : ¬ (r.savedMask ≠ 0 ∨ r.kernel.bmask = 0 ∨ none = some r.chunk) := by
        rintro (h | h | h)
        · exact h hmask
        · exact hbanks h
        · cases h
      have hstep : roomStep core mask none (true, false, s) r = (true, true, s) :=
        (if_neg hopen).trans (if_pos ⟨(hfree r (.head _)).resolve_left fun h => h hmask, rfl⟩)
      rw [hstep]
      exact ih true hrest (by simp only [Bool.toNat_true, Bool.toNat_false] at hone ⊢; omega)
    · have hdone : r.savedMask ≠ 0 ∨ r.kernel.bmask = 0 := by
        by_contra h
        push Not at h
        exact hr (decide_eq_true h)
      have hstep : roomStep core mask none (true, kept, s) r = (true, kept, s) := if_pos (hdone.imp_right .inl)
      rw [hstep]
      rw [List.filter_cons_of_neg hr] at hone
      exact ih kept hrest hone

theorem State.makeRoom_stays {s : State} {core : Nat} {mask : Half} (hfree : ∀ r ∈ (s.core core).resident, r.savedMask ≠ 0 ∨ r.kernel.bmask &&& mask = 0)
    (hone : ((s.core core).resident.filter Saved.unsaved).length ≤ 1) : s.makeRoom core mask none = (true, s) := by
  obtain ⟨k, hk⟩ := foldl_roomStep core s _ false hfree hone
  rw [State.makeRoom_eq, hk]

/-! A chunk begins (R103). -/

theorem State.onlyCore_setLeak (s : State) (core : Nat) : OnlyCore core s (s.setLeak core) := by
  unfold State.setLeak
  exact OnlyCore.modCore core s _

theorem State.onlyCore_freshCore (s : State) (core : Nat) (k : Kernel) : OnlyCore core s (s.freshCore core k) :=
  (OnlyCore.modCore core s _).trans (State.onlyCore_setLeak _ core)

theorem State.onlyCore_startTile (s : State) (core flat : Nat) : OnlyCore core s (s.startTile core flat) := by
  unfold State.startTile
  split
  · exact .refl core s
  · split
    · exact .refl core s
    · exact OnlyCore.modCore core s _

theorem State.onlyCore_beginChunk (s : State) (core : Nat) (k : Chunk) : OnlyCore core s (s.beginChunk core k) := by
  unfold State.beginChunk
  split
  · exact .refl core s
  · exact (((s.onlyCore_freshCore core _).trans (OnlyCore.modCore core _ _)).trans (State.onlyCore_setLeak _ core)).trans (State.onlyCore_startTile _ core _)

/-- A core runs from the entry of a kernel, reserved for nothing. -/
def Core.Entered (entry : Word) (c : Core) : Prop := c.run = .running ∧ c.pc = entry ∧ c.reserved = none

theorem State.startTile_entered {s : State} {core : Nat} {k : Chunk} {l : Launch} (flat : Nat) (hchunk : (s.core core).chunk = some k)
    (hl : s.launchOf k.launch = some l) (hres : (s.core core).reserved = none) : ((s.startTile core flat).core core).Entered l.kernel.entry := by
  unfold State.startTile
  rw [hchunk]
  dsimp only
  rw [hl]
  dsimp only
  rw [State.core_modCore_self]
  exact ⟨rfl, rfl, hres⟩

theorem State.beginChunk_entered {s : State} {core : Nat} {k : Chunk} {l : Launch} (hl : s.launchOf k.launch = some l) :
    ((s.beginChunk core k).core core).Entered l.kernel.entry := by
  unfold State.beginChunk
  rw [hl]
  dsimp only
  refine State.startTile_entered (k := { k with root := core }) k.lo ?_ hl ?_
  · rw [State.setLeak, State.core_modCore_self, State.core_modCore_self]
  · rw [State.setLeak, State.core_modCore_self, State.core_modCore_self, State.freshCore, State.setLeak, State.core_modCore_self, State.core_modCore_self]

/-! Gangs (R116). -/

theorem State.launchOf_modLaunch (s : State) (id j : Nat) {f : Launch → Launch} (hf : ∀ l, (f l).id = l.id) :
    (s.modLaunch id f).launchOf j = (s.launchOf j).map fun l => if l.id = id then f l else l := by
  have hid : ((fun l : Launch => l.id == j) ∘ fun l => if l.id = id then f l else l) = fun l => l.id == j := by
    funext l
    dsimp only [Function.comp]
    split
    · rw [hf]
    · rfl
  change List.find? _ (s.pkg.launches.map _) = _
  rw [List.find?_map, hid]
  rfl

/-- The members of a gang can start: each is idle, and has room for the kernel's banks. -/
structure State.GangReady (s : State) (l : Launch) : Prop where
  idle : ∀ q ∈ l.members, (s.core q.1).chunk = none ∧ (s.core q.1).run = .idle
  room : ∀ q ∈ l.members, s.makeRoom q.1 l.kernel.bmask none = (true, s)

theorem State.GangReady.room_all {s : State} {l : Launch} (h : s.GangReady l) :
    (l.members.foldl (fun (q : Bool × State) m => ((q.1 && (q.2.makeRoom m.1 l.kernel.bmask none).1), (q.2.makeRoom m.1 l.kernel.bmask none).2)) (true, s)) = (true, s) := by
  have hroom := h.room
  generalize l.members = ms at hroom ⊢
  induction ms with
  | nil => rfl
  | cons m ms ih =>
    rw [List.foldl_cons, hroom m (.head _)]
    exact ih fun q hq => hroom q (.tail _ hq)

/-- A gang that starts: its barriers' phases begin, and its chunks. -/
def State.gangStarts (s : State) (l : Launch) : State :=
  l.members.foldl (fun s q => s.beginChunk q.1 (l.chunk q))
    ((s.modLaunch l.id fun k => { k with started := true }).modPkg fun p => { p with
      bars := p.bars.map fun b => if b.2.launch = l.id then (b.1, { b.2 with start := s.tmr.toNat * 16 }) else b })

theorem exec_gangStart_eq {s : State} {id : Nat} {l : Launch} (hl : s.launchOf id = some l) (hgang : l.gang = true) (hplaced : l.placed = true)
    (hstarted : l.started = false) (hstatus : l.status = none) (hready : s.GangReady l) : exec (.gangStart id) s = .next (s.gangStarts l) := by
  have hid : l.id = id := by simpa using List.find?_some hl
  have hcan : (l.gang && l.placed && !l.started && l.members.all fun q => (s.core q.1).chunk.isNone && (s.core q.1).run == .idle) = true := by
    rw [hgang, hplaced, hstarted]
    simp only [Bool.not_false, Bool.true_and, List.all_eq_true]
    intro q hq
    obtain ⟨hchunk, hrun⟩ := hready.idle q hq
    rw [hchunk, hrun]; rfl
  rw [exec_gangStart, execGangStart, State.beginGang, hl]
  dsimp only
  rw [if_pos hcan, hready.room_all]
  dsimp only
  rw [hl]
  dsimp only
  rw [if_neg (by rw [hstatus]; decide), State.gangStarts, hid]
  rfl

/-- The members of a gang that is in the table begin one after the other, each from the kernel's entry. -/
theorem State.beginMembers_entered {t : State} {l : Launch} (ht : t.launchOf l.id = some { l with started := true }) :
    ∀ q ∈ l.members, ((l.members.foldl (fun u x => u.beginChunk x.1 (l.chunk x)) t).core q.1).Entered l.kernel.entry := by
  intro q hq
  have hbegin (u : State) (x : Nat × Nat × Nat) := u.onlyCore_beginChunk x.1 (l.chunk x)
  have hstay (u : State) (x : Nat × Nat × Nat) (hu : u.launchOf l.id = some { l with started := true }) :
      (u.beginChunk x.1 (l.chunk x)).launchOf l.id = some { l with started := true } := by
    rw [State.launchOf, (hbegin u x).pkg]
    exact hu
  have h := foldl_reaches (P := fun (u : State) c => (u.core c).Entered l.kernel.entry) (key := Prod.fst) hstay
    (fun u x hu => State.beginChunk_entered (l := { l with started := true }) hu)
    (fun u x c _ hc hP => ((hbegin u x).other c hc).symm ▸ hP) l.members ht (c := q.1) (.inl (List.mem_map_of_mem hq))
  exact h

theorem State.gangStarts_entered (s : State) {l : Launch} (hl : s.launchOf l.id = some l) :
    ∀ q ∈ l.members, ((s.gangStarts l).core q.1).Entered l.kernel.entry := by
  have hmod := s.launchOf_modLaunch l.id l.id (f := fun k => { k with started := true }) fun _ => rfl
  rw [hl, Option.map_some, if_pos rfl] at hmod
  exact State.beginMembers_entered hmod

/-! Barriers (R117-R119). -/

/-- From `s` to `t` registers may change, and the barriers in use. -/
structure State.OnlyBars (s t : State) : Prop where
  cores : t.cores = s.cores
  flight : t.flight = s.flight
  launches : t.pkg.launches = s.pkg.launches

theorem State.OnlyBars.refl (s : State) : OnlyBars s s := ⟨rfl, rfl, rfl⟩

theorem State.OnlyBars.trans {s t u : State} (h : OnlyBars s t) (k : OnlyBars t u) : OnlyBars s u :=
  ⟨k.cores.trans h.cores, k.flight.trans h.flight, k.launches.trans h.launches⟩

theorem State.OnlyBars.launchLive {s t : State} (h : OnlyBars s t) (id : Nat) : t.launchLive id = s.launchLive id := by
  rw [State.launchLive, State.launchLive, h.cores]

theorem State.onlyBars_modBars (s : State) (bars : SMap Barrier) : OnlyBars s (s.modPkg fun p => { p with bars }) := ⟨rfl, rfl, rfl⟩

@[simp] theorem State.barPhase_modPkg (s : State) (f : Pkg → Pkg) (g : Nat) : (s.modPkg f).barPhase g = s.barPhase g := rfl

/-- A fold that sets registers, each to a value that the state before it gives. -/
def State.setAll {α : Type} (off : α → Nat) (val : State → α → Word) (s : State) (l : List α) : State := l.foldl (fun u x => u.ioSet (off x) (val u x)) s

theorem State.onlyBars_setAll {α : Type} (off : α → Nat) (val : State → α → Word) (s : State) (l : List α) : OnlyBars s (s.setAll off val l) := by
  induction l generalizing s with
  | nil => exact .refl s
  | cons x l ih =>
    have hset : OnlyBars s (s.ioSet (off x) (val s x)) := ⟨rfl, rfl, rfl⟩
    exact hset.trans (ih _)

theorem State.ioGet_setAll {α : Type} {off : α → Nat} (val : State → α → Word) (s : State) {l : List α} {o : Nat} (h : ∀ x ∈ l, off x ≠ o) :
    (s.setAll off val l).ioGet o = s.ioGet o := by
  induction l generalizing s with
  | nil => rfl
  | cons x l ih => exact (ih _ fun y hy => h y (.tail _ hy)).trans (s.ioGet_ioSet_ne _ (h x (.head _)))

/-- When each member of a barrier arrived last, as `State.phaseDone` takes it. -/
def Barrier.times (b : Barrier) : List (Nat × Nat) := b.members.map fun c => (c, match b.arrivals.find? fun a => a.1 == c with | some a => a.2 | none => 0)

/-- The registers of a barrier's record after a phase: cycle of the first arrival, phase number, last member, spread, late members (R118). -/
def State.phaseRecord (s : State) (g : Nat) (b : Barrier) : State :=
  let arr := b.times
  let first := arr.foldl (fun t a => min t a.2) (match arr with | a :: _ => a.2 | [] => 0)
  let last := arr.foldl (fun (t : Nat × Nat) a => if t.2 ≤ a.2 then (if t.2 = a.2 then (max t.1 a.1, a.2) else a) else t) (0, 0)
  let o := 0x17000 + 64 * g
  let late := s.ioBits 0x6800 4 32
  let s := s.ioSet o (BitVec.ofNat 64 first)
  let s := ((s.ioField (o + 8) 40 24 (s.barPhase g + 1)).ioField (o + 8) 32 8 last.1).ioField (o + 8) 0 32 (min (last.2 - first) 0xFFFFFFFF)
  s.setAll (fun j => o + 0x10 + 8 * j)
    (fun _ j => BitVec.ofNat 64 (arr.foldl (fun t a => if a.1 / 64 = j ∧ late < a.2 - first then t + 2 ^ (a.1 % 64) else t) 0)) (List.range 4)

theorem State.onlyBars_phaseRecord (s : State) (g : Nat) (b : Barrier) : OnlyBars s (s.phaseRecord g b) := by
  unfold State.phaseRecord
  extract_lets arr first last o late s1 s2
  have h2 : OnlyBars s s2 := ⟨rfl, rfl, rfl⟩
  exact h2.trans (State.onlyBars_setAll ..)

theorem State.barPhase_phaseRecord (s : State) (g : Nat) (b : Barrier) : (s.phaseRecord g b).barPhase g = (s.barPhase g + 1) % 2 ^ 24 := by
  unfold State.phaseRecord
  extract_lets arr first last o late s1 s2
  have ho : o + 8 = 0x17008 + 64 * g := by omega
  have hphase (u : State) : u.barPhase g = u.ioBits (o + 8) 40 24 := by rw [ho]; rfl
  rw [hphase, State.ioBits, State.ioGet_setAll _ _ fun j _ => by omega, ← State.ioBits, State.ioBits_ioField_disjoint _ _ _ (by omega),
    State.ioBits_ioField_disjoint _ _ _ (by omega), State.ioBits_ioField_self _ _ _ (by omega), hphase, State.ioBits, State.ioGet_ioSet_ne _ _ (by omega), ho]
  rfl

/-- The efficiency factors of a feedback launch after a phase in which its members took `took` (R119). -/
def State.phaseWeights (s : State) (b : Barrier) : State :=
  let took (t : Nat) : Nat := max 1 (t - b.start)
  let mean := b.times.foldl (fun t a => t + took a.2) 0 / b.members.length
  s.setAll (fun a => 0x6C00 + 8 * a.1) (fun s a =>
    let e := s.ioBits (0x6C00 + 8 * a.1) 0 10
    BitVec.ofNat 64 (min 512 (max 64 ((7 * e + e * mean / took a.2) / 8)))) b.times

/-- The barrier as a phase leaves it: the arrivals that the phase has not taken, and when it was complete (R118). -/
def Barrier.nextPhase (b : Barrier) : Barrier :=
  { b with
    arrivals := b.members.foldl (fun (l : List (Nat × Nat)) c => match l.find? fun a => a.1 == c with | some a => l.erase a | none => l) b.arrivals
    start := (b.times.foldl (fun (t : Nat × Nat) a => if t.2 ≤ a.2 then (if t.2 = a.2 then (max t.1 a.1, a.2) else a) else t) (0, 0)).2 }

/-- The state in which the next phase of a barrier begins, before the factors change. -/
def State.phaseBegins (s : State) (g : Nat) (b : Barrier) : State :=
  (s.phaseRecord g b).modPkg fun p => { p with bars := (s.phaseRecord g b).pkg.bars.ins g b.nextPhase }

theorem State.phaseDone_eq (s : State) (g : Nat) (b : Barrier) : s.phaseDone g b =
    if (match (s.phaseBegins g b).launchOf b.launch with | some l => l.feedback | none => false) then (s.phaseBegins g b).phaseWeights b
    else s.phaseBegins g b := by
  unfold State.phaseDone State.phaseWeights State.phaseBegins State.phaseRecord State.setAll Barrier.nextPhase Barrier.times
  rfl

theorem State.onlyBars_phaseDone (s : State) (g : Nat) (b : Barrier) : OnlyBars s (s.phaseDone g b) := by
  have hbars : OnlyBars s (s.phaseBegins g b) := (s.onlyBars_phaseRecord g b).trans (State.onlyBars_modBars _ _)
  rw [State.phaseDone_eq]
  split_ifs
  · exact hbars.trans (State.onlyBars_setAll ..)
  · exact hbars

theorem State.barPhase_phaseDone (s : State) {g : Nat} {b : Barrier} (hmembers : ∀ c ∈ b.members, c < 256) :
    (s.phaseDone g b).barPhase g = (s.barPhase g + 1) % 2 ^ 24 := by
  have hrecord : (s.phaseBegins g b).barPhase g = (s.barPhase g + 1) % 2 ^ 24 :=
    (State.barPhase_modPkg _ _ g).trans (s.barPhase_phaseRecord g b)
  rw [State.phaseDone_eq]
  split_ifs
  case neg => exact hrecord
  case pos =>
    refine Eq.trans ?_ hrecord
    have htimes : ∀ a ∈ b.times, 0x6C00 + 8 * a.1 ≠ 0x17008 + 64 * g := by
      intro a ha
      obtain ⟨c, hc, rfl⟩ := List.mem_map.mp ha
      have := hmembers c hc
      dsimp only
      omega
    exact congrArg (fun w : Word => bits w.toNat 40 24) (State.ioGet_setAll _ _ htimes)

/-! An arrival (R117). -/

/-- The barrier with one arrival more. -/
def Barrier.arrive (b : Barrier) (core : Nat) (time : Word) : Barrier := { b with arrivals := b.arrivals ++ [(core, time.toNat * 16)] }

/-- Every member of a barrier has arrived. -/
def Barrier.full (b : Barrier) : Bool := b.members.all fun c => b.arrivals.any fun a => a.1 == c

theorem Barrier.full_iff (b : Barrier) : b.full = true ↔ ∀ c ∈ b.members, ∃ a ∈ b.arrivals, a.1 = c := by simp [Barrier.full]

/-- A barrier that has taken an arrival. -/
def State.barTakes (s : State) (g : Nat) (b : Barrier) : State :=
  let s := s.modPkg fun p => { p with bars := p.bars.ins g b }
  if b.full then s.phaseDone g b else s

theorem State.onlyBars_barTakes (s : State) (g : Nat) (b : Barrier) : OnlyBars s (s.barTakes g b) := by
  unfold State.barTakes
  extract_lets t
  have ht : OnlyBars s t := ⟨rfl, rfl, rfl⟩
  split
  · exact ht.trans (t.onlyBars_phaseDone g b)
  · exact ht

section Arrival
variable {s : State} {k seq core ctx g : Nat} {time : Word} {b : Barrier} (hk : s.flight[k]? = some ⟨seq, core, ctx, .arrive g, time⟩)
  (hready : s.flightReady k = true) (hbar : s.pkg.bars.get? g = some b)
include hk hready hbar

/-- An arrival of a member that runs for the barrier's gang counts. -/
theorem exec_barrierArrival_counts {l : Launch} (hl : l ∈ s.pkg.launches) (hid : l.id = b.launch) (hctx : l.ctx = ctx) (hmem : core ∈ b.members) :
    exec (.barrierArrival k) s = .next (((s.dropFlight k).barTakes g (b.arrive core time)).freeBars b.launch) := by
  have hof : (s.dropFlight k).pkg.launches.any (fun l => l.id == b.launch && l.ctx == ctx) = true :=
    List.any_eq_true.mpr ⟨l, hl, by simp [hid, hctx]⟩
  have hbar' : (s.dropFlight k).pkg.bars.get? g = some b := hbar
  rw [exec_barrierArrival, execBarrierArrival, State.barrierArrives, hk]
  dsimp only
  rw [if_neg (by rw [hready]; decide), hbar']
  dsimp only
  rw [if_neg (by rw [hof, List.contains_iff_mem.mpr hmem]; decide)]
  rfl

theorem exec_barrierArrival_lost (hctx : ∀ l ∈ s.pkg.launches, l.id = b.launch → l.ctx ≠ ctx) : exec (.barrierArrival k) s = .next (s.dropFlight k) := by
  have hof : (s.dropFlight k).pkg.launches.any (fun l => l.id == b.launch && l.ctx == ctx) = false := by
    refine List.any_eq_false.mpr fun l hl h => ?_
    obtain ⟨hid, hc⟩ := Bool.and_eq_true_iff.mp h
    exact hctx l hl (beq_iff_eq.mp hid) (beq_iff_eq.mp hc)
  have hbar' : (s.dropFlight k).pkg.bars.get? g = some b := hbar
  rw [exec_barrierArrival, execBarrierArrival, State.barrierArrives, hk]
  dsimp only
  rw [if_neg (by rw [hready]; decide), hbar']
  dsimp only
  rw [if_pos (by rw [hof]; simp)]

end Arrival

/-- A barrier of a launch that still has work on a core stays. -/
theorem State.freeBars_live {s : State} {id : Nat} (h : s.launchLive id = true) : s.freeBars id = s := by
  unfold State.freeBars
  rw [h]
  simp

@[simp] theorem State.barPhase_freeBars (s : State) (id g : Nat) : (s.freeBars id).barPhase g = s.barPhase g := by
  unfold State.freeBars
  split <;> rfl

/-- The barriers of a gang that has ended, with no arrival on its way, leave use. -/
theorem State.freeBars_ended {s : State} {l : Launch} (hl : l ∈ s.pkg.launches) (hgang : l.gang = true) (hworking : l.working = [])
    (hlive : s.launchLive l.id = false) (hway : ∀ f ∈ s.flight, f.ctx = l.ctx → ∀ h, f.rel ≠ .arrive h) :
    ∀ q ∈ (s.freeBars l.id).pkg.bars, q.2.launch ≠ l.id := by
  have hnone : s.flight.any (fun f => f.ctx == l.ctx && (match f.rel with | .arrive _ => true | _ => false)) = false := by
    refine List.any_eq_false.mpr fun f hf h => ?_
    obtain ⟨hc, harr⟩ := Bool.and_eq_true_iff.mp h
    split at harr
    · next g hrel => exact hway f hf (beq_iff_eq.mp hc) g hrel
    · cases harr
  have hfree : s.freeBars l.id = s.modPkg fun p => { p with bars := p.bars.filter fun b => b.2.launch != l.id } := by
    refine if_pos ?_
    rw [hlive]
    refine Bool.and_eq_true_iff.mpr ⟨List.any_eq_true.mpr ⟨l, hl, ?_⟩, rfl⟩
    refine Bool.and_eq_true_iff.mpr ⟨by simp [hgang, hworking], ?_⟩
    exact congrArg not hnone
  intro q hq
  rw [hfree] at hq
  simpa using (List.mem_filter.mp hq).2

end Sys2Proof.Machine
end

section
/-! SUPPORT. The completion of a launch, the answer to one, and the termination of a context (R34, R40-R42, R233, R294, R330). -/
namespace Sys2Proof.Machine
open Sys2Proof State

/-! Completion (R40-R42). -/

/-- The vector that tells the host of a launch's end, where the launch asks for one (R42). -/
def State.vectorSent (v : State) (l : Launch) : State :=
  if l.irq = true ∧ l.vec < 248 then { v with out := v.out ++ [(chMsi, bytesOf 2 l.vec)] } else v

theorem State.vectorSent_eq (v : State) (l : Launch) : (if (l.irq && decide (l.vec < 248)) = true then v.msi l.vec else v) = v.vectorSent l := by
  unfold State.vectorSent
  by_cases h : l.irq = true ∧ l.vec < 248
  · rw [if_pos h, if_pos (by simpa using h)]
    exact if_pos (by omega)
  · rw [if_neg h, if_neg (by simpa using h)]

/-- The vector of a launch, and the launch out of the table with its barriers. -/
def State.launchGone (v : State) (l : Launch) : State :=
  (v.vectorSent l).modPkg fun p => { p with launches := p.launches.filter fun j => j.id != l.id, bars := p.bars.filter fun b => b.2.launch != l.id }

theorem State.complete_eq (s : State) (l : Launch) : s.complete l = (s.completionLine l (l.status.getD 0)).launchGone l := by
  unfold State.complete State.launchGone
  exact congrArg (fun w : State => w.modPkg _) (State.vectorSent_eq _ l)

theorem State.completionLine_none {s : State} {l : Launch} (status : Nat) (h : l.caddr.toNat % 64 ≠ 0) : s.completionLine l status = s := if_pos h

theorem State.completionLine_written {s u : State} {l : Launch} (status : Nat) {p : Piece} {ps : List Piece} (h : l.caddr.toNat % 64 = 0)
    (hx : s.xlate ⟨l.ctx, false, 265⟩ .store l.caddr.toNat 64 = (.ok (p :: ps), u)) : s.completionLine l status =
      (u.performWrite distributor p.pa (2 ^ 64 - 1) (bytesOf 8 l.cval.toNat ++ bytesOf 2 status ++ bytesOf 54 0) p.key).2 := by
  unfold State.completionLine
  rw [if_neg (not_not.mpr h), hx]

theorem exec_launchComplete_ended {s : State} {k : Nat} {l : Launch} (hk : s.pkg.launches[k]? = some l) (hlive : s.launchLive l.id = false)
    (hway : ∀ f ∈ s.flight, f.ctx ≠ l.ctx) (hend : l.status.isSome = true ∨ (l.placed = true ∧ l.started = true ∧ l.working = [])) (hkey : s.pkg.keyOp = []) :
    exec (.launchComplete k) s = .next (s.complete l) := by
  have hnone : s.flight.any (fun f => f.ctx == l.ctx) = false := List.any_eq_false.mpr fun f hf h => hway f hf (beq_iff_eq.mp h)
  have hcan : s.completable l = true := by
    unfold State.completable
    rw [hkey, hlive, hnone]
    rcases hend with h | ⟨hplaced, hstarted, hworking⟩
    · simp [h]
    · simp [hplaced, hstarted, hworking]
  rw [exec_launchComplete, execLaunchComplete, hk]
  exact congrArg _ (if_pos hcan)

/-! The answer to a launch (R34, R294, R330). -/

theorem natOf_take_lt (l : List Byte) (n : Nat) : natOf (l.take n) < 256 ^ n := by
  induction n generalizing l with
  | zero => simp [natOf]
  | succ n ih =>
    cases l with
    | nil => simp [natOf]
    | cons b l =>
      rw [List.take_succ_cons, natOf, Nat.pow_succ']
      have := ih l
      have := b.isLt
      omega

theorem toNat_natOf_take {w : Nat} (l : List Byte) {n : Nat} (h : 256 ^ n = 2 ^ w) : (BitVec.ofNat w (natOf (l.take n))).toNat = natOf (l.take n) := by
  rw [BitVec.toNat_ofNat, Nat.mod_eq_of_lt (h ▸ natOf_take_lt l n)]

/-- The core that waits for an answer has it, and its launch holds it no more. -/
def State.answered (v : State) (core : Nat) (rec : Word) (x d a : Nat) : State := v.modCore core fun c =>
  { c with grp := { c.grp with holds := c.grp.holds.filter fun h => h != Hold.launch rec x d } }.landIn 1 (.s d) (BitVec.ofNat 1024 a) full64

theorem exec_launchAnswer_eq {s : State} {core x d : Nat} {rec : Word} (hhold : (s.core core).grp.holds = [.launch rec x d]) (hkey : s.pkg.keyOp = []) :
    exec (.launchAnswer core) s = .next ((s.acceptLaunch rec x).2.answered core rec x d (s.acceptLaunch rec x).1) := by
  rw [exec_launchAnswer, execLaunchAnswer, State.answerLaunch, hhold]
  dsimp only [List.findSome?]
  rw [if_neg (by rw [hkey]; decide)]
  rfl

section Accept
variable {s u : State} {rec : Word} {x : Nat} {c : Cause} {b : List Byte}

theorem State.acceptLaunch_nowhere (h : tierOf rec.toNat = .none) : s.acceptLaunch rec x = (2, s) := if_pos h

variable (ht : tierOf rec.toNat ≠ .none) (hread : s.fetchData distributor rec.toNat 128 64 2 = ((c, b), u))
include ht hread

theorem State.acceptLaunch_unread (hc : c ≠ 0) : s.acceptLaunch rec x = (2, u) := by
  unfold State.acceptLaunch
  dsimp only
  rw [if_neg ht, hread]
  exact if_pos hc

theorem State.acceptLaunch_full (hc : c = 0) (hfull : u.tableFull = true) : s.acceptLaunch rec x = (1, u) := by
  unfold State.acceptLaunch
  dsimp only
  rw [if_neg ht, hread]
  exact (if_neg (not_not.mpr hc)).trans (if_pos hfull)

theorem State.acceptLaunch_enters (hc : c = 0) (hfull : u.tableFull = false) : s.acceptLaunch rec x = (0, u.enterRecord b x) := by
  unfold State.acceptLaunch
  dsimp only
  rw [if_neg ht, hread]
  exact (if_neg (not_not.mpr hc)).trans (if_neg (by rw [hfull]; decide))

end Accept

theorem State.tableFull_iff (s : State) : s.tableFull = true ↔ 1024 ≤ (s.pkg.launches.filter fun l => !l.placed && l.status.isNone).length := decide_eq_true_iff

/-- A record in the table, with the kernel that its descriptor gives, or the status with which the launch will complete. -/
def Launch.withKernel (l : Launch) : Except Nat Kernel → Launch
  | .error e => { l with status := some e }
  | .ok k =>
    let l := { l with kernel := k, bounds := l.bounds.take k.nlev }
    if l.bounds.contains 0 then { l with status := some 0 } else l

theorem State.enterRecord_eq {u v : State} {b : List Byte} {x : Nat} {k : Except Nat Kernel} (h : u.readKernel x (natOf ((b.drop 8).take 8)) = (k, v)) :
    u.enterRecord b x = { v with pkg := { v.pkg with
      launches := v.pkg.launches ++ [{ launchOfRecord b x with id := u.pkg.nextLaunch }.withKernel k], nextLaunch := v.pkg.nextLaunch + 1 } } := by
  unfold State.enterRecord
  dsimp only
  rw [h]
  rfl

/-- What the kernel leaves of a record. -/
theorem Launch.withKernel_keeps (l : Launch) (k : Except Nat Kernel) :
    (l.withKernel k).id = l.id ∧ (l.withKernel k).ctx = l.ctx ∧ (l.withKernel k).placed = l.placed ∧ (l.withKernel k).seq = l.seq ∧
      (l.withKernel k).arga = l.arga ∧ (l.withKernel k).argb = l.argb ∧ (l.withKernel k).caddr = l.caddr ∧ (l.withKernel k).cval = l.cval := by
  unfold Launch.withKernel
  split
  · exact ⟨rfl, rfl, rfl, rfl, rfl, rfl, rfl, rfl⟩
  · dsimp only
    split <;> exact ⟨rfl, rfl, rfl, rfl, rfl, rfl, rfl, rfl⟩

theorem Launch.withKernel_ok (l : Launch) (q : Kernel) (hstatus : l.status = none) :
    (l.withKernel (.ok q)).kernel = q ∧ (l.withKernel (.ok q)).bounds = l.bounds.take q.nlev ∧
      (l.withKernel (.ok q)).status = if (l.bounds.take q.nlev).contains 0 then some 0 else none := by
  unfold Launch.withKernel
  dsimp only
  split
  · exact ⟨rfl, rfl, rfl⟩
  · exact ⟨rfl, rfl, hstatus⟩

theorem launchOfRecord_bounds (b : List Byte) (x n : Nat) :
    (launchOfRecord b x).bounds.take n = (List.range (min n 6)).map fun i => natOf ((b.drop (16 + 8 * i)).take 8) := by
  rw [← List.take_range, List.map_take]
  rfl

/-! Cores that a context leaves (R233). -/

theorem Core.work_reserved (c : Core) (r : Option Nat) : { c with reserved := r }.work = c.work := rfl

theorem State.keepsWork_freeForks (s : State) (c : Nat) : KeepsWork s (s.freeForks c) := by
  refine KeepsWork.foldl (fun u f => KeepsWork.setCore ?_) _ s
  dsimp only
  split
  · exact Core.work_reserved ..
  · rfl

/-- A core that parks leaves the work of the others. -/
theorem State.work_park_ne (s : State) {c j : Nat} (h : j ≠ c) (t : TrapInfo) (haddr : Word) (kind : Nat) :
    ((s.park c t haddr kind).core j).work = (s.core j).work := by
  unfold State.park
  extract_lets k u k0 seg
  split
  next t kind _ =>
  extract_lets site k1 k2 r v w
  have hv : (v.core j).work = (s.core j).work := by
    rw [State.core_setCore_ne _ _ h.symm]
    exact (s.keepsWork_freeForks c).work j
  have hw : (w.core j).work = (s.core j).work := by
    dsimp only [w]
    split
    · exact hv
    · exact hv
  have hfatal (x : Cause) : ((w.packageFatal x).core j).work = (s.core j).work := by
    rw [State.core, (w.packageFatal_keeps x).1]
    exact hw
  split
  · exact hfatal _
  · split
    · exact hfatal _
    · exact hw

theorem State.work_dropChunk_ne (s : State) {c j : Nat} (h : j ≠ c) : ((s.dropChunk c).core j).work = (s.core j).work := by
  unfold State.dropChunk
  extract_lets u v
  have hu : (u.core j).work = (s.core j).work := by
    dsimp only [u, State.closeWindows]
    rw [State.core_modCore_ne _ _ h.symm]
    exact (s.keepsWork_flushStash c).work j
  have hv : v.core j = u.core j := by
    dsimp only [v]
    split <;> rfl
  rw [State.core_modCore_ne _ _ h.symm, hv, hu]

/-- A core keeps a chunk of the context only while what it has released is not through. -/
def Core.Draining (ctx : Nat) (c : Core) : Prop :=
  ∀ k, c.chunk = some k → k.ctx = ctx → c.run = .idle ∧ c.draining = true ∧ c.loads = [] ∧ ∀ x ∈ c.cmds, x.released = true

/-- A core that a context has left: of its work there is only a chunk that drains. -/
structure Core.Left (ctx : Nat) (c : Core) : Prop where
  chunk : c.Draining ctx
  queue : ∀ k ∈ c.queue, k.ctx ≠ ctx
  resident : ∀ r ∈ c.resident, r.chunk.ctx ≠ ctx

theorem Core.Left.of_work {ctx : Nat} {c d : Core} (h : c.Left ctx) (hw : d.work = c.work) : d.Left ctx := by
  have hchunk : d.chunk = c.chunk := (congrArg Core.chunk hw :)
  have hrun : d.run = c.run := (congrArg Core.run hw :)
  have hcmds : d.cmds = c.cmds := (congrArg Core.cmds hw :)
  have hposts : d.seg.posts = c.seg.posts := (congrArg (fun k : Core => k.seg.posts) hw :)
  have hloads : d.loads = c.loads := (congrArg Core.loads hw :)
  have hqueue : d.queue = c.queue := (congrArg Core.queue hw :)
  have hresident : d.resident = c.resident := (congrArg Core.resident hw :)
  obtain ⟨hc, hq, hr⟩ := h
  refine ⟨?_, hqueue ▸ hq, hresident ▸ hr⟩
  unfold Core.Draining Core.draining at hc ⊢
  rw [hchunk, hrun, hcmds, hposts, hloads]
  exact hc

theorem State.dropChunk_draining (s : State) (c ctx : Nat) : ((s.dropChunk c).core c).Draining ctx := by
  unfold State.dropChunk
  extract_lets u v
  rw [State.core_modCore_self]
  intro k hk hctx
  dsimp only at hk ⊢
  split at hk
  case isFalse => cases hk
  case isTrue hdrain =>
    rw [if_pos hdrain]
    refine ⟨rfl, hdrain, rfl, fun x hx => (List.mem_filter.mp hx).2⟩

/-- What a termination does at one core (R233 steps 2 and 3). -/
def State.leaveCore (ctx : Nat) (eff : Cause) (s : State) (i : Nat) : State :=
  let s : State := match (s.core i).chunk with
    | some k =>
      if k.ctx ≠ ctx then s
      else (if (s.core i).run = .parked then s else s.park i { cause := eff } (s.core i).pc 5).dropChunk i
    | none => s
  s.modCore i fun (c : Core) => { c with queue := c.queue.filter fun k => k.ctx != ctx, resident := c.resident.filter fun r => r.chunk.ctx != ctx }

theorem State.leaveCore_self (ctx : Nat) (eff : Cause) (s : State) (i : Nat) : ((s.leaveCore ctx eff i).core i).Left ctx := by
  unfold State.leaveCore
  extract_lets u
  have hu : (u.core i).Draining ctx := by
    dsimp only [u]
    split
    next k hchunk =>
      split
      · intro q hq hctx
        rw [hchunk] at hq
        cases hq
        contradiction
      · exact State.dropChunk_draining _ i ctx
    next hchunk =>
      intro q hq
      rw [hchunk] at hq
      cases hq
  rw [State.core_modCore_self]
  refine ⟨hu, fun k hk => ?_, fun r hr => ?_⟩
  · simpa using (List.mem_filter.mp hk).2
  · simpa using (List.mem_filter.mp hr).2

theorem State.work_leaveCore_ne (ctx : Nat) (eff : Cause) (s : State) {i j : Nat} (h : j ≠ i) : ((s.leaveCore ctx eff i).core j).work = (s.core j).work := by
  unfold State.leaveCore
  extract_lets u
  rw [State.core_modCore_ne _ _ h.symm]
  dsimp only [u]
  split
  · split
    · rfl
    · rw [State.work_dropChunk_ne _ h]
      split
      · rfl
      · exact s.work_park_ne h _ _ _
  · rfl

/-- The cores of a package that a context leaves. -/
def State.leaveCores (s : State) (ctx : Nat) (eff : Cause) : State := s.cores.foldl (fun s q => s.leaveCore ctx eff q.1) s

theorem State.leaveCores_left (s : State) (ctx : Nat) (eff : Cause) (c : Nat) : ((s.leaveCores ctx eff).core c).Left ctx := by
  have hall := foldl_reaches (I := fun _ : State => True) (P := fun (t : State) i => (t.core i).Left ctx) (f := fun s q => s.leaveCore ctx eff q.1)
    (key := Prod.fst) (fun _ _ _ => trivial) (fun t q _ => t.leaveCore_self ctx eff q.1)
    (fun t q i _ hi hleft => hleft.of_work (t.work_leaveCore_ne ctx eff hi)) s.cores (s := s) trivial (c := c)
  refine hall ?_
  by_cases hc : c ∈ s.cores.map Prod.fst
  · exact .inl hc
  · refine .inr ?_
    rw [State.core_of_not_mem hc]
    refine ⟨fun k hk => ?_, fun k hk => ?_, fun r hr => ?_⟩
    · cases hk
    · cases hk
    · cases hr

/-- Reservations of gangs that are gone end. -/
def State.dropGangs (s : State) (gone : List Nat) : State :=
  { s with cores := s.cores.map fun q => (q.1, if gone.any (fun g => q.2.reserved == some g) then { q.2 with reserved := none } else q.2) }

theorem State.keepsWork_dropGangs (s : State) (gone : List Nat) : KeepsWork s (s.dropGangs gone) := by
  refine KeepsWork.map (f := fun _ c => if gone.any (fun g => c.reserved == some g) then { c with reserved := none } else c) (fun _ c => ?_) rfl
  split
  · exact Core.work_reserved c none
  · rfl

/-- The launches of a context end with a status, and its barriers leave use. -/
def Pkg.endLaunches (p : Pkg) (ctx : Nat) (eff : Cause) : Pkg :=
  { p with
    launches := p.launches.map fun l => if l.ctx = ctx ∧ l.status.isNone then { l with status := some eff.toNat, working := [] } else l
    bars := p.bars.filter fun b => !p.launches.any fun l => l.id == b.2.launch && l.ctx == ctx }

theorem Pkg.status_endLaunches (p : Pkg) (ctx : Nat) (eff : Cause) : ∀ l ∈ (p.endLaunches ctx eff).launches, l.ctx = ctx → l.status.isSome = true := by
  intro l hl hctx
  obtain ⟨j, -, rfl⟩ := List.mem_map.mp hl
  split at hctx
  case isTrue h => rw [if_pos h]; rfl
  case isFalse h =>
    rw [if_neg h]
    cases hs : j.status with
    | some _ => rfl
    | none => exact absurd ⟨hctx, by rw [hs]; rfl⟩ h

/-- GO of a context is taken: BUSY, and the cause with which its launches end. -/
def State.termBusy (s : State) (ctx : Nat) (eff : Cause) : State :=
  (s.ioField (0xFA00 + 8 * ctx) 16 1 1).modPkg fun p => { p with terming := p.terming.ins ctx eff }

/-- The marks with which the gangs of a context reserve cores. -/
def State.gangsOf (s : State) (ctx : Nat) : List Nat := (s.pkg.launches.filter fun l => l.ctx == ctx).map fun l => gangMark l.id

theorem State.terminate_eq (s : State) (ctx : Nat) (cause : Cause) : s.terminate ctx cause =
    let eff : Cause := if cause = 0 then 0x1C9#10 else cause
    let t := (s.termBusy ctx eff).leaveCores ctx eff
    ((t.dropGangs (t.gangsOf ctx)).modPkg fun p => p.endLaunches ctx eff).ioField (0x1008 + 16 * ctx) 14 1 0 := rfl

theorem State.terminate_results (s : State) (ctx : Nat) (cause : Cause) :
    (∀ c, ((s.terminate ctx cause).core c).Left ctx) ∧ (∀ l ∈ (s.terminate ctx cause).pkg.launches, l.ctx = ctx → l.status.isSome = true) ∧
      ((s.terminate ctx cause).ioGet (0x1008 + 16 * ctx)).getLsbD 14 = false := by
  rw [State.terminate_eq]
  extract_lets eff t
  have hleft (c : Nat) : ((t.dropGangs (t.gangsOf ctx)).core c).Left ctx :=
    (State.leaveCores_left (s.termBusy ctx eff) ctx eff c).of_work ((t.keepsWork_dropGangs _).work c)
  refine ⟨hleft, Pkg.status_endLaunches _ ctx eff, ?_⟩
  rw [State.getLsbD_ioGet_ioField _ _ _ _ _ (by omega)]
  simp

theorem exec_contextTerminate_free {s : State} {ctx : BitVec 6} (cause : Cause) (h : (s.ioGet (0xFA00 + 8 * ctx.toNat)).getLsbD 16 = false) :
    exec (.contextTerminate ctx cause) s = .next ((s.ioField (0xFA00 + 8 * ctx.toNat) 0 10 cause.toNat).terminate ctx.toNat cause) := by
  rw [exec_contextTerminate, execContextTerminate, State.termGo, if_neg (by rw [h]; decide)]

theorem exec_contextTerminate_busy {s : State} {ctx : BitVec 6} (cause : Cause) (h : (s.ioGet (0xFA00 + 8 * ctx.toNat)).getLsbD 16 = true) :
    exec (.contextTerminate ctx cause) s = .next s := by
  rw [exec_contextTerminate, execContextTerminate, State.termGo, if_pos h]

end Sys2Proof.Machine
end

section
/-! PROOF. O40: gangs, barriers, launches and the termination of a context (R40-R42, R116-R119, R233, R330). -/
namespace Sys2Proof.Proofs
open Sys2Proof Sys2Proof.Machine

/-- Settles O40: a gang's members begin one after the other without touching each other, a phase changes registers of its record and factors
alone, a record enters the table as its bytes say, and a termination visits every core and leaves there what is still on its way. -/
theorem gangAndTerminationResults : Obligations.GangAndTerminationResults := by
  unfold Obligations.GangAndTerminationResults
  refine ⟨fun s => ⟨?start, ?timeout, ?arrival, ?complete, ?answer⟩, fun s ctx cause => ⟨?terminate, ?busy, ?done⟩⟩
  case start =>
    intro id l hl hgang hplaced hstarted hstatus hmembers
    have hid : l.id = id := by simpa using List.find?_some hl
    have hready : s.GangReady l := by
      refine ⟨fun q hq => ?_, fun q hq => ?_⟩
      · obtain ⟨hchunk, hrun, -, -⟩ := hmembers q hq
        exact ⟨hchunk, hrun⟩
      · obtain ⟨-, -, hfree, hone⟩ := hmembers q hq
        exact State.makeRoom_stays hfree hone
    exact ⟨_, exec_gangStart_eq hl hgang hplaced hstarted hstatus hready, s.gangStarts_entered (hid ▸ hl)⟩
  case timeout =>
    intro id
    refine ⟨_, exec_gangWaitTimeout id s, rfl, List.length_map _, fun l hl hid hgang hplaced => ?_⟩
    obtain ⟨j, -, rfl⟩ := List.mem_map.mp hl
    dsimp only at hid hgang hplaced ⊢
    split at hid
    case isFalse h => exact absurd hid h
    case isTrue h =>
      rw [if_pos h] at hgang hplaced ⊢
      split at hgang
      case isTrue hwait => rw [if_pos hwait]
      case isFalse hwait =>
        rw [if_neg hwait] at hplaced
        exact absurd (by rw [hgang, hplaced]; rfl) hwait
  case arrival =>
    intro k core seq ctx g b time hk hready hbar b'
    refine ⟨fun l hl hid hctx hmem => ?_, exec_barrierArrival_lost hk hready hbar⟩
    have hexec := exec_barrierArrival_counts hk hready hbar hl hid hctx hmem
    have hkeeps := (s.dropFlight k).onlyBars_barTakes g (b.arrive core time)
    refine ⟨fun hopen hlive => ⟨_, hexec, ?_⟩, fun hall hg => ⟨_, hexec, ?_⟩, fun hgang hworking hlive hway => ⟨_, hexec, ?_⟩⟩
    · have hfull : (b.arrive core time).full = false := by
        obtain ⟨c, hc, hnone⟩ := hopen
        refine Bool.eq_false_iff.mpr fun h => ?_
        obtain ⟨a, ha, hac⟩ := (Barrier.full_iff _).mp h c hc
        exact hnone a ha hac
      have hlive' : ((s.dropFlight k).barTakes g (b.arrive core time)).launchLive b.launch = true := (hkeeps.launchLive b.launch).trans hlive
      rw [State.freeBars_live hlive', State.barTakes, if_neg (by rw [hfull]; decide)]
      exact ⟨SMap.get?_ins_self .., rfl⟩
    · have hfull : (b.arrive core time).full = true := (Barrier.full_iff _).mpr fun c hc => (hall c hc).2
      rw [State.barPhase_freeBars, State.barTakes, if_pos hfull, State.barPhase_phaseDone (b := b.arrive core time) _ fun c hc => (hall c hc).1]
      rfl
    · rw [← hid]
      refine State.freeBars_ended (hkeeps.launches ▸ hl) hgang hworking ?_ fun f hf hf' => ?_
      · rw [hkeeps.launchLive, hid]
        exact hlive
      · exact hway f (hkeeps.flight ▸ hf) (hf'.trans hctx)
  case complete =>
    intro k l hk hlive hway hend hkey fin
    have hexec := exec_launchComplete_ended hk hlive hway hend hkey
    refine ⟨fun hodd => ?_, fun p ps u heven hx => ?_⟩
    · rw [hexec, State.complete_eq, State.completionLine_none _ hodd]
      rfl
    · rw [hexec, State.complete_eq, State.completionLine_written _ heven hx]
      rfl
  case answer =>
    intro core rec x d hhold hkey answer
    have hexec := exec_launchAnswer_eq hhold hkey
    refine ⟨fun hnone => ?_, fun c b u ht hread => ?_⟩
    · rw [hexec, State.acceptLaunch_nowhere hnone]
      rfl
    intro waiting
    refine ⟨fun hc => ?_, fun hc hfull => ?_, fun hc hroom k v hkernel => ?_⟩
    · rw [hexec, State.acceptLaunch_unread ht hread hc]
      rfl
    · rw [hexec, State.acceptLaunch_full ht hread hc (u.tableFull_iff.mpr hfull)]
      rfl
    · have hopen : u.tableFull = false := Bool.eq_false_iff.mpr fun h => absurd (u.tableFull_iff.mp h) (by omega)
      rw [State.acceptLaunch_enters ht hread hc hopen, State.enterRecord_eq hkernel] at hexec
      obtain ⟨hid, hctx, hplaced, hseq, harga, hargb, hcaddr, hcval⟩ := Launch.withKernel_keeps { launchOfRecord b x with id := u.pkg.nextLaunch } k
      refine ⟨_, _, hexec, rfl, hid, hctx, hplaced, ?_, ?_, ?_, ?_, ?_, fun e he => ?_, fun q hq => ?_⟩
      · rw [hseq]; exact toNat_natOf_take b rfl
      · rw [harga]; exact toNat_natOf_take _ rfl
      · rw [hargb]; exact toNat_natOf_take _ rfl
      · rw [hcaddr]; exact toNat_natOf_take _ rfl
      · rw [hcval]; exact toNat_natOf_take _ rfl
      · rw [he]; rfl
      · rw [hq]
        obtain ⟨hkern, hbounds, hstatus⟩ := Launch.withKernel_ok { launchOfRecord b x with id := u.pkg.nextLaunch } q rfl
        refine ⟨hkern, hbounds.trans (launchOfRecord_bounds b x _), ?_⟩
        rw [hstatus, hbounds]
  case terminate =>
    intro hidle
    obtain ⟨hleft, hlaunches, hstream⟩ := (s.ioField (0xFA00 + 8 * ctx.toNat) 0 10 cause.toNat).terminate_results ctx.toNat cause
    refine ⟨_, exec_contextTerminate_free cause hidle, fun c => (hleft c).chunk, fun c => (hleft c).queue, fun c => (hleft c).resident, hlaunches, hstream⟩
  case busy => exact exec_contextTerminate_busy cause
  case done =>
    intro eff heff hgone
    have hnone : s.pkg.launches.any (fun l => l.ctx == ctx.toNat) = false := List.any_eq_false.mpr fun l hl h => hgone l hl (beq_iff_eq.mp h)
    rw [exec_contextTerminationDone, execContextTerminationDone, State.termDone, heff]
    dsimp only
    rw [if_neg (by rw [hnone]; decide)]
    refine ⟨_, _, rfl, ?_, SMap.get?_del_self .., SMap.has_del_self .., rfl, rfl, rfl⟩
    change ((s.ioField (0xFA00 + 8 * ctx.toNat) 16 1 0).ioGet (0xFA00 + 8 * ctx.toNat)).getLsbD 16 = false
    rw [State.getLsbD_ioGet_ioField _ _ _ _ _ (by omega)]
    simp

end Sys2Proof.Proofs
end

section
/-! SUPPORT. How a core stops with a cause and goes on (R199, R202, R224, R227, R229, R230, R238): what a rollback restores, the trap record, and
the ways in which the cause of a bundle is taken. -/
namespace Sys2Proof.Machine
open Sys2Proof

/-! The rollback of a core (R224). -/

/-- A core but for what undo log and pool give back: scratchpad, stash, tiles and accumulators. -/
def Core.withoutData (c : Core) : Core := { c with sp := [], spPoison := [], spErr := [], spCor := [], stash := [], tiles := [], accs := [] }

theorem Core.withoutData_foldl {α : Type} {f : Core → α → Core} (hf : ∀ c x, (f c x).withoutData = c.withoutData) (l : List α) (c : Core) :
    (l.foldl f c).withoutData = c.withoutData := by
  induction l generalizing c with
  | nil => rfl
  | cons x l ih => exact (ih (f c x)).trans (hf c x)

theorem Core.withoutData_unwindUndo (c : Core) : c.unwindUndo.withoutData = c.withoutData := by
  refine Core.withoutData_foldl (fun d u => ?_) _ c
  dsimp only
  split
  · cases u.stash <;> rfl
  · rfl

theorem Core.withoutData_unwindPool (c : Core) : c.unwindPool.withoutData = c.withoutData := by
  refine Core.withoutData_foldl (fun d q => ?_) _ c
  cases q <;> rfl

/-- A core `d` at the checkpoint of `c`: registers and banks are the checkpoint's, and of the segment only its log and its place are left. -/
structure Core.RolledBack (c d : Core) : Prop where
  pc : d.pc = c.seg.ckaddr
  arch : d.arch = c.seg.ck
  loads : d.loads = []
  mq : d.mq = []
  aq : d.aq = []
  dq : d.dq = []
  b0 : d.b0 = c.cb0
  b1 : d.b1 = c.cb1
  rel : d.seg.rel = []
  count : d.seg.count = 0
  log : d.seg.log = c.seg.log
  ckaddr : d.seg.ckaddr = c.seg.ckaddr
  rolls : d.seg.rolls = min (c.seg.rolls + 1) 255
  chunk : d.chunk = c.chunk
  svc : d.svc = c.svc

theorem Core.rolledBack_rollback (c : Core) : c.RolledBack c.rollback := by
  unfold Core.rollback
  extract_lets dropped d seg
  have hd : d.withoutData = dropped.withoutData := dropped.unwindUndo.withoutData_unwindPool.trans dropped.withoutData_unwindUndo
  have hfield {α : Type} (f : Core → α) (hf : ∀ k : Core, f k.withoutData = f k) : f d = f dropped := by rw [← hf, hd, hf]
  have hseg : d.seg = c.seg := hfield Core.seg fun _ => rfl
  constructor
  case loads => exact hfield Core.loads fun _ => rfl
  case mq => exact hfield Core.mq fun _ => rfl
  case aq => exact hfield Core.aq fun _ => rfl
  case dq => exact hfield Core.dq fun _ => rfl
  case b0 => exact hfield Core.cb0 fun _ => rfl
  case b1 => exact hfield Core.cb1 fun _ => rfl
  case chunk => exact hfield Core.chunk fun _ => rfl
  case svc => exact hfield Core.svc fun _ => rfl
  case log => exact (congrArg Seg.log hseg :)
  case ckaddr => exact (congrArg Seg.ckaddr hseg :)
  all_goals simp only [hseg]

/-! A core that parks (R224, R229, R230). -/

theorem State.freeForks_nil {s : State} {c : Nat} (h : (s.core c).seg.forks = []) : s.freeForks c = s := by rw [State.freeForks, h, List.foldl_nil]

/-- Freeing reservations changes no core but in the core that has it reserved. -/
theorem State.core_freeForks (s : State) (c j : Nat) : ∃ r, (s.freeForks c).core j = { s.core j with reserved := r } := by
  unfold State.freeForks
  induction (s.core c).seg.forks generalizing s with
  | nil => exact ⟨_, rfl⟩
  | cons f l ih =>
    obtain ⟨r, hr⟩ := ih (s.modCore f.1 fun k => if k.reserved = some c then { k with reserved := none } else k)
    rw [List.foldl_cons, hr]
    by_cases hf : f.1 = j
    · subst hf
      rw [State.core_modCore_self]
      split <;> exact ⟨r, rfl⟩
    · rw [State.core_modCore_ne _ _ hf]
      exact ⟨r, rfl⟩

theorem State.recq_freeForks (s : State) (c : Nat) : (s.freeForks c).recq = s.recq := by
  unfold State.freeForks
  induction (s.core c).seg.forks generalizing s with
  | nil => rfl
  | cons f l ih => exact ih _

/-- The core as its rollback leaves it, with the token whose cause a wait took and the bank whose corrections failed (R202, R248). -/
def Core.stopped (c : Core) (t : TrapInfo) : Core :=
  let k := c.rollback
  let k := match t.token with
    | some n =>
      let clr (a : Arch) : Arch := a.setTok n { a.tokOf n with cause := 0 }
      { k with arch := clr k.arch, seg := { k.seg with ck := clr k.seg.ck } }
    | none => k
  match t.stale with | some (b, tl) => k.staleBank b tl | none => k

theorem Core.stopped_plain (c : Core) {t : TrapInfo} (htoken : t.token = none) (hstale : t.stale = none) : c.stopped t = c.rollback := by
  rw [Core.stopped, htoken, hstale]

/-- Neither a token nor a bank moves the core from its checkpoint. -/
theorem Core.stopped_at (c : Core) (t : TrapInfo) : (c.stopped t).pc = c.seg.ckaddr ∧ (c.stopped t).svc = c.svc := by
  have h := c.rolledBack_rollback
  have hstale (k : Core) (b : Bool) (tl : Nat) : (k.staleBank b tl).pc = k.pc ∧ (k.staleBank b tl).svc = k.svc := by
    unfold Core.staleBank
    cases b <;> exact ⟨rfl, rfl⟩
  unfold Core.stopped
  extract_lets k seg l
  have hl : l.pc = k.pc ∧ l.svc = k.svc := by
    dsimp only [l]
    split <;> exact ⟨rfl, rfl⟩
  split
  · exact ⟨((hstale ..).1.trans hl.1).trans h.pc, ((hstale ..).2.trans hl.2).trans h.svc⟩
  · exact ⟨hl.1.trans h.pc, hl.2.trans h.svc⟩

/-- The record of a core `k` that has stopped at BADDR and SEGLEN of `site` (R229). -/
def State.trapRecord (s : State) (c : Nat) (t : TrapInfo) (kind : Nat) (site : Word × Nat) (k : Core) : TrapRec :=
  { cause := t.cause, slot := t.slot, kind := BitVec.ofNat 8 kind, ctx := BitVec.ofNat 6 (s.ctxOf c), rolls := BitVec.ofNat 8 k.seg.rolls
    core := BitVec.ofNat 16 c, baddr := site.1, faddr := t.faddr, ckaddr := k.seg.ckaddr
    lrec := (match k.chunk with | some ch => ch.lrec | none => 0), seglen := BitVec.ofNat 32 site.2, time := s.tmr, info := t.info }

/-- The parked core. -/
def State.parkedCore (s : State) (c : Nat) (t : TrapInfo) (kind : Nat) (site : Word × Nat) : Core :=
  let k := (s.core c).stopped t
  { k with run := .parked, trec := s.trapRecord c t kind site k, keepErr := false }

/-- The package with it: the record is queued unless a whole context stops, and what concerns a control core may be package-fatal (R71, R230, R234). -/
def State.parkWith (s : State) (c : Nat) (t : TrapInfo) (kind : Nat) (site : Word × Nat) : State :=
  let k := s.parkedCore c t kind site
  let v := s.setCore c k
  let w : State := if kind = 3 ∨ kind = 5 then v else { v with recq := v.recq ++ [⟨1, 0, k.trec.bytes, some c⟩] }
  if t.cause = 0x208#10 then w.packageFatal 0x208#10 else if c = 256 then w.packageFatal 0x20C#10 else w

theorem State.packageFatal_recq_issue (s : State) (c : Cause) : (s.packageFatal c).recq = s.recq ∧ (s.packageFatal c).issue = s.issue := by
  unfold State.packageFatal
  dsimp only
  split
  · exact ⟨rfl, rfl⟩
  · split <;> exact ⟨rfl, rfl⟩

/-- From `s` to `t` core `c` stands as `k`, and `l` has joined the records; no other core, no byte and no core at issue has changed. -/
structure State.Parks (c : Nat) (k : Core) (l : List FsqRec) (s t : State) : Prop where
  core : t.core c = k
  other : ∀ j, j ≠ c → t.core j = s.core j
  mem : t.mem = s.mem
  recq : t.recq = s.recq ++ l
  atIssue : t.issue.core = s.issue.core

theorem State.Parks.packageFatal {c : Nat} {k : Core} {l : List FsqRec} {s t : State} (h : State.Parks c k l s t) (x : Cause) :
    State.Parks c k l s (t.packageFatal x) := by
  obtain ⟨hcores, hmem⟩ := t.packageFatal_keeps x
  obtain ⟨hrecq, hissue⟩ := t.packageFatal_recq_issue x
  have hcore (j : Nat) : (t.packageFatal x).core j = t.core j := by rw [State.core, State.core, hcores]
  exact ⟨(hcore c).trans h.core, fun j hj => (hcore j).trans (h.other j hj), hmem.trans h.mem, hrecq.trans h.recq, (congrArg Issue.core hissue).trans h.atIssue⟩

theorem State.parkWith_parks (s : State) (c : Nat) (t : TrapInfo) (kind : Nat) (site : Word × Nat) :
    State.Parks c (s.parkedCore c t kind site)
      (if kind = 3 ∨ kind = 5 then [] else [⟨1, 0, (s.parkedCore c t kind site).trec.bytes, some c⟩]) s (s.parkWith c t kind site) := by
  unfold State.parkWith
  extract_lets k v w
  rw [show s.parkedCore c t kind site = k from rfl]
  have hv : State.Parks c k [] s v := ⟨s.core_setCore_self c k, fun j hj => s.core_setCore_ne k hj.symm, rfl, (List.append_nil _).symm, rfl⟩
  have hw : State.Parks c k (if kind = 3 ∨ kind = 5 then [] else [⟨1, 0, k.trec.bytes, some c⟩]) s w := by
    dsimp only [w]
    split
    · exact hv
    · exact ⟨hv.core, hv.other, rfl, rfl, rfl⟩
  generalize (if kind = 3 ∨ kind = 5 then [] else [(⟨1, 0, k.trec.bytes, some c⟩ : FsqRec)]) = l at hw ⊢
  split
  · exact hw.packageFatal _
  · split
    · exact hw.packageFatal _
    · exact hw

/-- What a core parks with: its cause, or 0x145, on a control core 0x208, when it meets an error in what it restores from (R238, R71). -/
def State.parkCause (s : State) (c : Nat) (t : TrapInfo) (kind : Nat) : TrapInfo × Nat :=
  if (s.core c).keepErr ∧ kind ≠ 5 then ({ cause := if isCtl c then 0x208#10 else 0x145#10, slot := t.slot }, 4) else (t, kind)

theorem State.park_eq (s : State) (c : Nat) (t : TrapInfo) (haddr : Word) (kind : Nat) :
    s.park c t haddr kind = (s.freeForks c).parkWith c (s.parkCause c t kind).1 (s.parkCause c t kind).2
      ((s.parkCause c t kind).1.site.getD (haddr, (s.core c).seg.before)) := rfl

theorem State.parkCause_ok {s : State} {c : Nat} {kind : Nat} (h : (s.core c).keepErr = false ∨ kind = 5) (t : TrapInfo) :
    s.parkCause c t kind = (t, kind) := by
  refine if_neg ?_
  rintro ⟨herr, hkind⟩
  rcases h with h | h
  · exact absurd (h.symm.trans herr) (by decide)
  · exact hkind h

theorem State.parkCause_keepErr {s : State} {c : Nat} {kind : Nat} (herr : (s.core c).keepErr = true) (hkind : kind ≠ 5) (t : TrapInfo) :
    s.parkCause c t kind = ({ cause := if 256 ≤ c then 0x208#10 else 0x145#10, slot := t.slot }, 4) := by
  rw [State.parkCause, if_pos ⟨herr, hkind⟩, isCtl]
  simp only [decide_eq_true_eq]

theorem State.park_parks (s : State) (c : Nat) (t : TrapInfo) (haddr : Word) (kind : Nat) :
    let q := s.parkCause c t kind
    let k := (s.freeForks c).parkedCore c q.1 q.2 (q.1.site.getD (haddr, (s.core c).seg.before))
    State.Parks c k (if q.2 = 3 ∨ q.2 = 5 then [] else [⟨1, 0, k.trec.bytes, some c⟩]) (s.freeForks c) (s.park c t haddr kind) := by
  intro q k
  rw [State.park_eq]
  exact State.parkWith_parks ..

/-- The core that parks stands at its checkpoint, and its service sequencer as it did. -/
theorem State.parkedCore_at (s : State) (c : Nat) (t : TrapInfo) (kind : Nat) (site : Word × Nat) :
    ((s.freeForks c).parkedCore c t kind site).pc = (s.core c).seg.ckaddr ∧ ((s.freeForks c).parkedCore c t kind site).svc = (s.core c).svc := by
  obtain ⟨r, hr⟩ := s.core_freeForks c c
  obtain ⟨hpc, hsvc⟩ := ((s.freeForks c).core c).stopped_at t
  rw [hr] at hpc hsvc
  simp only [State.parkedCore, hr]
  exact ⟨hpc, hsvc⟩

/-! The cause of a bundle is taken (R224, R227). -/

/-- The bundle at issue ends in a trap. -/
def State.trapped (s : State) (t : TrapInfo) : State := { s with issue := { s.issue with trap := some t } }

/-- A cause of the main sequencer, but for a mismatch of CHK and for the loss of a dirty line. -/
theorem State.takeTrap_main {s : State} {t : TrapInfo} (hsvc : s.issue.svc = false) (hchk : t.cause ≠ 0x140#10) (hlost : t.cause ≠ 0x142#10) :
    let u := s.park s.issue.core t s.issue.haddr (if contextFatal t.cause then 4 else 1)
    s.takeTrap t = u.trapped t := by
  simp only [State.takeTrap, State.trapped, if_neg hlost, hsvc, Bool.false_eq_true, if_false, if_neg hchk]

/-- The package as a handler that found the loss of a dirty line leaves it: stopped. -/
def State.handlerStopped (s : State) : State :=
  if s.issue.svc then s.modCore s.issue.core fun k => { k with svc := { k.svc with busy := false, hold := [], lands := [] } } else s

theorem State.takeTrap_lost {s : State} {t : TrapInfo} (hlost : t.cause = 0x142#10) :
    let u := s.handlerStopped.park s.issue.core { t with slot := 0xF } s.issue.haddr 5
    s.takeTrap t = u.trapped t := by
  simp only [State.takeTrap, State.trapped, if_pos hlost]
  rfl

theorem State.takeTrap_svc {s : State} {t : TrapInfo} (hsvc : s.issue.svc = true) (hlost : t.cause ≠ 0x142#10) :
    let u := s.parkSvc s.issue.core t s.issue.haddr
    s.takeTrap t = u.trapped t := by
  simp only [State.takeTrap, State.trapped, if_neg hlost, hsvc, if_true]

end Sys2Proof.Machine

namespace Sys2Proof.Proofs
open Sys2Proof Sys2Proof.Machine

section Main
variable {s : State} {c : TrapInfo} (hsvc : s.issue.svc = false) (hchk : c.cause ≠ 0x140#10) (hlost : c.cause ≠ 0x142#10)
include hsvc hchk hlost

/-- A cause of the main sequencer parks its core, which nothing keeps from restoring, and queues the record. -/
theorem takeTrap_parks (htoken : c.token = none) (hstale : c.stale = none) (hforks : s.cur.seg.forks = []) (hkeep : s.cur.keepErr = false) :
    let r := s.trapRecord s.issue.core c (if contextFatal c.cause then 4 else 1) (c.site.getD (s.issue.haddr, s.cur.seg.before)) s.cur.rollback
    State.Parks s.issue.core { s.cur.rollback with run := .parked, trec := r, keepErr := false } [⟨1, 0, r.bytes, some s.issue.core⟩] s (s.takeTrap c) := by
  intro r
  have h := s.park_parks s.issue.core c s.issue.haddr (if contextFatal c.cause then 4 else 1)
  have hkind : ¬ ((if contextFatal c.cause then 4 else 1) = 3 ∨ (if contextFatal c.cause then 4 else 1) = 5) := by split <;> decide
  rw [State.parkCause_ok (.inl hkeep), State.freeForks_nil hforks] at h
  simp only [if_neg hkind, State.parkedCore, Core.stopped_plain _ htoken hstale] at h
  rw [State.takeTrap_main hsvc hchk hlost]
  exact ⟨h.core, h.other, h.mem, h.recq, h.atIssue⟩

/-- A rollback that meets an error takes 0x145, or 0x208, in place of the cause. -/
theorem takeTrap_keepErr (hkeep : s.cur.keepErr = true) :
    let t := s.takeTrap c
    let k := t.core s.issue.core
    k.run = .parked ∧ k.pc = s.cur.seg.ckaddr ∧ k.trec.cause = (if 256 ≤ s.issue.core then 0x208#10 else 0x145#10) ∧ k.trec.kind = 4 ∧ k.keepErr = false := by
  intro t k
  have h := s.park_parks s.issue.core c s.issue.haddr (if contextFatal c.cause then 4 else 1)
  have hkind : (if contextFatal c.cause then 4 else 1) ≠ 5 := by split <;> decide
  rw [State.parkCause_keepErr hkeep hkind] at h
  have hk : k = _ := (congrArg (State.core · s.issue.core) (State.takeTrap_main hsvc hchk hlost)).trans h.core
  rw [hk]
  exact ⟨rfl, (s.parkedCore_at ..).1, rfl, rfl, rfl⟩

end Main

/-- The loss of a dirty line stops the core without a record (R146, R463). -/
theorem takeTrap_lost_stops (s : State) {c : TrapInfo} (hlost : c.cause = 0x142#10) :
    let t := s.takeTrap c
    let k := t.core s.issue.core
    k.run = .parked ∧ k.pc = s.cur.seg.ckaddr ∧ k.trec.cause = 0x142#10 ∧ k.trec.kind = 5 ∧ k.trec.slot = 0xF ∧ k.trec.faddr = c.faddr ∧
      t.recq = s.recq ∧ (s.issue.svc = true → k.svc.busy = false) := by
  intro t k
  have hu : (s.handlerStopped.core s.issue.core).seg = s.cur.seg ∧ s.handlerStopped.recq = s.recq ∧
      (s.issue.svc = true → (s.handlerStopped.core s.issue.core).svc.busy = false) := by
    unfold State.handlerStopped
    split
    · rw [State.core_modCore_self]
      exact ⟨rfl, rfl, fun _ => rfl⟩
    · next hmain => exact ⟨rfl, rfl, fun h => absurd h hmain⟩
  obtain ⟨hseg, hrecq, hbusy⟩ := hu
  have h := s.handlerStopped.park_parks s.issue.core { c with slot := 0xF } s.issue.haddr 5
  rw [State.parkCause_ok (.inr rfl)] at h
  have ht : t = _ := State.takeTrap_lost hlost
  have hk : k = _ := (congrArg (State.core · s.issue.core) ht).trans h.core
  have hq : t.recq = _ := (congrArg State.recq ht).trans h.recq
  obtain ⟨hpc, hsvc⟩ := s.handlerStopped.parkedCore_at s.issue.core { c with slot := 0xF } 5
    (({ c with slot := 0xF } : TrapInfo).site.getD (s.issue.haddr, (s.handlerStopped.core s.issue.core).seg.before))
  rw [hk, hq]
  refine ⟨rfl, hpc.trans (congrArg Seg.ckaddr hseg), hlost, rfl, rfl, rfl, ?_, fun h => ?_⟩
  · rw [if_pos (.inr rfl), List.append_nil, State.recq_freeForks, hrecq]
  · rw [hsvc]
    exact hbusy h

/-- A cause of the service sequencer waits for the commit of the main one (R227). -/
theorem takeTrap_svc_stops {s : State} {c : TrapInfo} (hsvc : s.issue.svc = true) (hlost : c.cause ≠ 0x142#10) :
    let t := s.takeTrap c
    t.cur.svc.busy = false ∧ t.cur.svc.trap = some ({ c with slot := 0xD }, s.issue.haddr) ∧ t.cur.run = s.cur.run ∧ t.cur.arch = s.cur.arch ∧
      t.recq = s.recq := by
  intro t
  have ht : t = _ := State.takeTrap_svc hsvc hlost
  have hcur : t.cur = (s.parkSvc s.issue.core c s.issue.haddr).core s.issue.core := (congrArg State.cur ht :)
  rw [hcur, State.parkSvc, State.core_modCore_self]
  exact ⟨rfl, rfl, rfl, rfl, (congrArg State.recq ht :)⟩

/-- The instruction trap takes its own cause (R432). -/
theorem exec_trap_takes {o : OpInfo} {s : State} (hguard : s.guard0 o = true) (r : TrapArgs) :
    exec (.trap o r) s = .next (s.takeTrap { cause := 0x3C0#10 + r.imm.setWidth 10, slot := BitVec.ofNat 4 (slotNum o.slot) }) := by
  rw [exec_trap, execTrap, State.runNow_trap hguard rfl, List.drop_nil, State.redo_nil]

/-- Its cause is none of the memory's. -/
theorem trapCause_range (i : BitVec 6) : 0x3C0#10 + i.setWidth 10 ≠ 0x140#10 ∧ 0x3C0#10 + i.setWidth 10 ≠ 0x142#10 := by decide +revert

/-- Settles O58: `takeTrap` is a park (`park_parks`) of the core as its rollback leaves it (`rolledBack_rollback`), of a handler's cause a note at the
service sequencer; a resume changes the run state alone. -/
theorem trapEntryAndReturn : Obligations.TrapEntryAndReturn := by
  unfold Obligations.TrapEntryAndReturn
  refine ⟨fun s c => ?_, fun s c => ?_, fun s c hsvc hlost => takeTrap_svc_stops hsvc hlost, fun s c => ?_, fun s k hrun hroom hpre => ?_, fun o r s => ?_⟩
  · intro k hsvc hchk hlost htoken hstale hforks hkeep t
    have h := takeTrap_parks hsvc hchk hlost htoken hstale hforks hkeep
    have hback := s.cur.rolledBack_rollback
    rw [h.core]
    refine ⟨rfl, hback.pc, hback.arch, hback.rel, hback.count, hback.loads, hback.mq, hback.aq, hback.dq, hback.b0, hback.b1, hback.log, hback.ckaddr, ?_,
      h.recq, h.mem, h.other⟩
    simp only [State.trapRecord, hback.rolls, hback.ckaddr, hback.chunk]
    -- BADDR and SEGLEN are of the site when the cause has one; KIND follows the severity
    cases c.site <;> split <;> rfl
  · intro k hlost
    exact takeTrap_lost_stops s hlost
  · intro k hsvc hchk hlost hkeep
    exact takeTrap_keepErr hsvc hchk hlost hkeep
  · have hresume := s.resumeCore_parked hrun hroom hpre
    refine ⟨_, congrArg Host.Outcome.next hresume, ?_⟩
    rw [State.core_modCore_self]
    exact ⟨rfl, rfl, rfl, rfl, rfl, fun j hj => State.core_modCore_ne _ _ hj.symm⟩
  · intro hsvc hguard harr hforks hkeep
    obtain ⟨hchk, hlost⟩ := trapCause_range r.imm
    have h := takeTrap_parks (c := { cause := 0x3C0#10 + r.imm.setWidth 10, slot := BitVec.ofNat 4 (slotNum o.slot) }) hsvc hchk hlost rfl rfl hforks hkeep
    refine ⟨_, exec_trap_takes hguard r, ?_⟩
    rw [State.cur, h.atIssue, h.core]
    exact ⟨rfl, rfl, s.cur.rolledBack_rollback.pc⟩

end Sys2Proof.Proofs
end

section
/-! SUPPORT. Package-fatal conditions and the dump (R71 to R73): what the first cause leaves, and what the dump's writes leave alone. -/
namespace Sys2Proof.Machine
open Sys2Proof

/-- A field of one bit. -/
theorem State.ioBits_one (s : State) (o i : Nat) : s.ioBits o i 1 = ((s.ioGet o).getLsbD i).toNat := (Nat.toNat_testBit ..).symm

/-! The first cause (R71, R73). -/

section Fatal
variable {s : State} (c : Cause)

theorem State.packageFatal_first (hfirst : s.fatal = 0) : (s.packageFatal c).fatal = c := by
  unfold State.packageFatal
  dsimp only
  rw [if_pos hfirst]
  split
  · rfl
  · split <;> rfl

/-- With the granule free a dump begins, or the one that is being written becomes partial. -/
theorem State.packageFatal_free (hfree : s.ioBits 0x0808 0 1 = 0) :
    (s.packageFatal c).pkg.dumping = true ∧ (s.pkg.dumping = true → (s.packageFatal c).pkg.dumpPartial = true) := by
  have hready : ¬ (s.ioGet 0x0808).getLsbD 0 = true := by
    rw [State.ioBits_one, Bool.toNat_eq_zero] at hfree
    rw [hfree]
    decide
  unfold State.packageFatal
  dsimp only
  rw [if_neg hready]
  split
  · next hdump => exact ⟨hdump, fun _ => rfl⟩
  · next hdump => exact ⟨rfl, fun h => absurd h hdump⟩

/-- With a dump in the granule the loss is counted, and nothing else of the package changes. -/
theorem State.packageFatal_lost (hready : s.ioBits 0x0808 0 1 = 1) :
    (s.packageFatal c).ioBits 0x0808 16 16 = min (s.ioBits 0x0808 16 16 + 1) 0xFFFF ∧ (s.packageFatal c).pkg = s.pkg := by
  have hset : (s.ioGet 0x0808).getLsbD 0 = true := by rwa [State.ioBits_one, Bool.toNat_eq_one] at hready
  unfold State.packageFatal
  dsimp only
  rw [if_pos hset]
  refine ⟨?_, rfl⟩
  rw [State.ioBits, State.ioGet_ioSet_self, bits_setBits_self _ _ (by decide), State.ioBits]
  omega

end Fatal

/-! The dump is written (R72, R73). -/

/-- From `s` to `t` the cores stand, and a dump goes on or not as before. -/
structure State.KeepsDump (s t : State) : Prop where
  dumping : t.pkg.dumping = s.pkg.dumping
  cores : t.cores = s.cores

namespace State.KeepsDump

theorem refl (s : State) : KeepsDump s s := ⟨rfl, rfl⟩

theorem trans {s t u : State} (h : KeepsDump s t) (k : KeepsDump t u) : KeepsDump s u := ⟨k.dumping.trans h.dumping, k.cores.trans h.cores⟩

theorem foldl {α : Type} {f : State → α → State} (hf : ∀ u x, KeepsDump u (f u x)) (l : List α) (s : State) : KeepsDump s (l.foldl f s) := by
  induction l generalizing s with
  | nil => exact refl s
  | cons x l ih => exact (hf s x).trans (ih (f s x))

end State.KeepsDump

theorem State.keepsDump_snoopNow (s : State) (line : Nat) : KeepsDump s (s.snoopNow line) :=
  ⟨(s.keepsPlatform_snoopNow line).field Pkg.dumping fun _ => rfl, s.snoopNow_cores line⟩

theorem State.keepsDump_dumpWrite (s : State) (pa : Nat) (b : List Byte) : KeepsDump s (s.dumpWrite pa b) := by
  refine .foldl (fun u k => ?_) _ s
  extract_lets old new v w
  refine (u.keepsDump_snoopNow (k / 2)).trans ?_
  split <;> exact ⟨rfl, rfl⟩

theorem State.keepsDump_writeDump (s : State) (base : Nat) : KeepsDump s (s.writeDump base) := by
  unfold State.writeDump
  extract_lets records copies logs map
  have hrecords : KeepsDump s records := .foldl (fun u c => u.keepsDump_dumpWrite ..) _ s
  have hcopies : KeepsDump s copies := hrecords.trans (.foldl (fun u c => u.keepsDump_dumpWrite ..) _ records)
  have hlogs : KeepsDump s logs := hcopies.trans (copies.keepsDump_dumpWrite ..)
  exact (hlogs.trans (logs.keepsDump_dumpWrite ..)).trans (map.keepsDump_dumpWrite ..)

theorem State.cores_newAttKey (s : State) : s.newAttKey.cores = s.cores := by
  unfold State.newAttKey
  split
  · dsimp only
    split <;> rfl
  · rfl

theorem State.cores_attReady (s : State) : s.attReady.2.cores = s.cores := by
  unfold State.attReady
  dsimp only
  split
  · rfl
  · exact s.cores_newAttKey

theorem State.keepsDump_alert (s : State) (kind : Nat) : KeepsDump s (s.alert kind) := by
  unfold State.alert
  split
  · exact .refl s
  · exact ⟨rfl, rfl⟩

/-- What a signed dump ends with: header and signature, MAGIC, READY, vector 251 and interrupt 0x04 (R73). -/
theorem State.dumpSigned_results (s : State) (pa qa : Nat) (head magic : List Byte) :
    let t := ((((s.dumpWrite pa head).dumpWrite qa magic).ioField 0x0808 0 1 1).msi 251).alert 4
    t.pkg.dumping = s.pkg.dumping ∧ t.cores = s.cores ∧ t.ioBits 0x0808 0 1 = 1 := by
  have hwrites : KeepsDump s ((s.dumpWrite pa head).dumpWrite qa magic) := (s.keepsDump_dumpWrite pa head).trans (State.keepsDump_dumpWrite _ qa magic)
  generalize (s.dumpWrite pa head).dumpWrite qa magic = d at hwrites ⊢
  intro t
  have hend : KeepsDump ((d.ioField 0x0808 0 1 1).msi 251) t := State.keepsDump_alert _ 4
  have hio : t.ioGet 0x0808 = (d.ioField 0x0808 0 1 1).ioGet 0x0808 := by
    rw [State.ioGet, show t.io = _ from (State.alert_results _ 4).1]
    rfl
  refine ⟨hend.dumping.trans hwrites.dumping, hend.cores.trans hwrites.cores, ?_⟩
  rw [State.ioBits, hio]
  exact d.ioBits_ioField_self 0x0808 1 (by decide)

/-- What a dump without a signature ends with: the header and FAIL. -/
theorem State.dumpUnsigned_results (s : State) (pa : Nat) (head : List Byte) :
    let t := (s.dumpWrite pa head).ioField 0x0808 1 1 1
    t.pkg.dumping = s.pkg.dumping ∧ t.cores = s.cores ∧ t.ioBits 0x0808 1 1 = 1 := by
  obtain ⟨hdump, hcores⟩ := s.keepsDump_dumpWrite pa head
  exact ⟨hdump, hcores, State.ioBits_ioField_self _ 0x0808 1 (by decide)⟩

/-- A dump ends with READY when it is signed, and with FAIL when it is not. -/
theorem State.finishDump_results (s : State) : s.finishDump.pkg.dumping = false ∧ s.finishDump.cores = s.cores ∧
    (s.finishDump.ioBits 0x0808 0 1 = 1 ∨ s.finishDump.ioBits 0x0808 1 1 = 1) := by
  unfold State.finishDump
  extract_lets base w magic
  have hw : KeepsDump s w := (s.keepsDump_dumpWrite ..).trans (State.keepsDump_writeDump ..)
  clear_value w base magic
  split
  next ready u heq =>
  have hu : u.cores = s.cores := by rw [show u = _ from (congrArg Prod.snd heq).symm, w.cores_attReady, hw.cores]
  extract_lets signs head pkg v sig x
  have hv : v.pkg.dumping = false ∧ v.cores = s.cores := ⟨rfl, hu⟩
  have hx : x.pkg.dumping = false ∧ x.cores = s.cores := hv
  clear_value signs head sig v x
  split
  · obtain ⟨hdump, hcores, hready⟩ := x.dumpSigned_results (base + 8) base (head ++ bytesOf 2500 sig.toNat) magic
    exact ⟨hdump.trans hx.1, hcores.trans hx.2, .inl hready⟩
  · obtain ⟨hdump, hcores, hfail⟩ := v.dumpUnsigned_results (base + 8) head
    exact ⟨hdump.trans hv.1, hcores.trans hv.2, .inr hfail⟩

end Sys2Proof.Machine

namespace Sys2Proof.Proofs
open Sys2Proof Sys2Proof.Machine

/-- Settles O32: every event of the list is `packageFatal` of its cause, which a dump in the granule counts as lost and which else starts a dump
(`packageFatal_lost`, `packageFatal_free`); the end of a dump is `finishDump_results`. -/
theorem fatalAndDumpResults : Obligations.FatalAndDumpResults := by
  unfold Obligations.FatalAndDumpResults
  intro s
  refine ⟨fun q hq hfirst => ?_, fun hdump => ?_, ?_⟩
  · have hexec : exec q.1 s = .next (s.packageFatal q.2) := by
      simp only [List.map_cons, List.map_nil, List.mem_append, List.mem_cons, List.not_mem_nil, or_false] at hq
      rcases hq with (rfl | rfl) | rfl | rfl | rfl | rfl | rfl | rfl <;> rfl
    obtain ⟨hcores, hmem⟩ := s.packageFatal_keeps q.2
    exact ⟨_, hexec, State.packageFatal_first q.2 hfirst, hcores, hmem, State.packageFatal_free q.2, State.packageFatal_lost q.2⟩
  · obtain ⟨hended, hcores, hstat⟩ := s.finishDump_results
    exact ⟨_, congrArg Host.Outcome.next (if_pos hdump), hended, hcores, hstat⟩
  · refine ⟨_, exec_dumpRelease s, s.ioBits_ioField_self 0x0808 0 (by decide), fun i hi => ?_⟩
    by_cases hlt : i < 64
    · rw [s.getLsbD_ioGet_ioField _ _ _ _ hlt, if_neg (by omega)]
    · rw [BitVec.getLsbD_of_ge _ _ (Nat.le_of_not_lt hlt), BitVec.getLsbD_of_ge _ _ (Nat.le_of_not_lt hlt)]

end Sys2Proof.Proofs
end

section
/-! SUPPORT. Cap messages (R68, R69): the status that the checks end with, and what a status does. -/
namespace Sys2Proof.Machine
open Sys2Proof

/-- The MAC that a cap message has under the key of the management registers (R68). -/
def State.capMac (s : State) (m : BitVec 384) : Nat :=
  natOf (kmac256 ((List.range 4).flatMap fun i => bytesOf 8 (s.ioGet (0x0720 + 8 * i)).toNat) (bytesOf 16 m.toNat) [0x4F, 0x4C, 0x39, 0x20, 0x43, 0x41, 0x50])

/-- The sequence number of a message is above that of the last one taken (R69). -/
def State.capFresh (s : State) (m : BitVec 384) : Prop := ∀ q, s.pkg.capSeq = some q → q.toNat < (m.extractLsb' 64 64).toNat

/-- A message that passes all checks: its limit stands for its source (R68). -/
def State.capTaken (s : State) (m : BitVec 384) : State :=
  let lim := bits m.toNat 16 16
  let watts := if lim = 0 then 0 else max lim 400
  { s with pkg := { s.pkg with
    capSeq := some (m.extractLsb' 64 64)
    capHall := if bits m.toNat 8 8 = 0 then watts else s.pkg.capHall, capHost := if bits m.toNat 8 8 = 0 then s.pkg.capHost else watts } }

/-- The check of the sequence number, as `State.capStatus` makes it. -/
def State.capOld (s : State) (m : BitVec 384) : Bool :=
  match s.pkg.capSeq with | some q => decide ((m.extractLsb' 64 64).toNat ≤ q.toNat) | none => false

section Cap
variable {s : State} {m : BitVec 384}

/-- A number that is not above that of the last message taken. -/
theorem State.capFresh_iff : s.capFresh m ↔ ¬ s.capOld m = true := by
  unfold State.capFresh State.capOld
  cases s.pkg.capSeq <;> simp

theorem State.capStatus_notReady (h : s.ioBits 0x0600 0 1 = 0) : s.capStatus m = 3 := if_pos h

variable (hready : s.ioBits 0x0600 0 1 = 1)
include hready

theorem State.capStatus_ready : s.capStatus m = if s.ioBits 0x0718 0 1 = 0 then 4 else if s.capMac m ≠ bits m.toNat 128 256 then 1
    else if s.capOld m then 2 else if 1 < bits m.toNat 8 8 then 6 else 0 := by
  have hne : ¬ s.ioBits 0x0600 0 1 = 0 := by omega
  exact if_neg hne

theorem State.capStatus_unlocked (h : s.ioBits 0x0718 0 1 = 0) : s.capStatus m = 4 := (State.capStatus_ready hready).trans (if_pos h)

variable (hlocked : s.ioBits 0x0718 0 1 = 1)
include hlocked

theorem State.capStatus_forged (h : bits m.toNat 128 256 ≠ s.capMac m) : s.capStatus m = 1 := by
  rw [State.capStatus_ready hready, if_neg (by omega), if_pos h.symm]

theorem State.capStatus_signed (h : bits m.toNat 128 256 = s.capMac m) :
    (¬ s.capFresh m → s.capStatus m = 2) ∧ (s.capFresh m → s.capStatus m = if 1 < bits m.toNat 8 8 then 6 else 0) := by
  rw [State.capStatus_ready hready, if_neg (by omega), if_neg (not_not.mpr h.symm), State.capFresh_iff]
  exact ⟨fun hold => if_pos (not_not.mp hold), fun hnew => if_neg hnew⟩

end Cap

/-- A cap that is refused gives its status, and changes nothing. -/
theorem exec_cap_refused {s : State} {m : BitVec 384} (h : s.capStatus m ≠ 0) : exec (.cap m) s = .next (s.vendor [0x01, BitVec.ofNat 8 (s.capStatus m)]) :=
  congrArg Host.Outcome.next (if_pos h)

/-- What a message that is taken changes before the grants are computed again: its limit, for its source. -/
def Pkg.capSet (p : Pkg) (m : BitVec 384) (watts : Nat) : Pkg :=
  let p := { p with capSeq := some (m.extractLsb' 64 64) }
  if bits m.toNat 8 8 = 0 then { p with capHall := watts } else { p with capHost := watts }

theorem State.capTaken_eq (s : State) (m : BitVec 384) :
    s.capTaken m = s.modPkg fun p => p.capSet m (if bits m.toNat 16 16 = 0 then 0 else max (bits m.toNat 16 16) 400) := by
  by_cases hsrc : bits m.toNat 8 8 = 0
  · simp only [State.capTaken, Pkg.capSet, State.modPkg, if_pos hsrc]
  · simp only [State.capTaken, Pkg.capSet, State.modPkg, if_neg hsrc]

theorem exec_cap_taken {s : State} {m : BitVec 384} (h : s.capStatus m = 0) :
    exec (.cap m) s = .next (((s.capTaken m).recompute s.pkg.used).vendor [0x01, 0x00]) := by
  have hexec : exec (.cap m) s = .next (((s.modPkg fun p => p.capSet m (if bits m.toNat 16 16 = 0 then 0 else max (bits m.toNat 16 16) 400)).recompute
      (s.modPkg fun p => p.capSet m (if bits m.toNat 16 16 = 0 then 0 else max (bits m.toNat 16 16) 400)).pkg.used).vendor [0x01, 0x00]) :=
    congrArg Host.Outcome.next (if_neg (not_not.mpr h))
  rw [hexec, ← State.capTaken_eq]
  rfl

end Sys2Proof.Machine

namespace Sys2Proof.Proofs
open Sys2Proof Sys2Proof.Machine

/-- Settles O31: the answers are the events' equations; a cap message ends with its `capStatus`, whose value each state of the package's keys and
of the message gives. -/
theorem managementResults : Obligations.ManagementResults := by
  unfold Obligations.ManagementResults
  intro s said vend
  refine ⟨fun eid => rfl, rfl, rfl, fun a => rfl, fun m => ?_, rfl, rfl, fun k => rfl⟩
  intro src lim watts seq key mac fresh taken
  have refused {n : Nat} (h : s.capStatus m = n) (hn : n ≠ 0) : exec (.cap m) s = .next (vend s [0x01, BitVec.ofNat 8 n]) := by
    subst h
    exact exec_cap_refused hn
  refine ⟨fun hboot => refused (State.capStatus_notReady hboot) (by decide), fun hready hopen => refused (State.capStatus_unlocked hready hopen) (by decide),
    fun hready hlocked hmac => refused (State.capStatus_forged hready hlocked hmac) (by decide), fun hready hlocked hmac => ?_⟩
  obtain ⟨hold, hnew⟩ := State.capStatus_signed hready hlocked hmac
  refine ⟨fun h => refused (hold h) (by decide), fun h hsrc => refused ((hnew h).trans (if_pos hsrc)) (by decide), fun h hsrc => ?_⟩
  exact exec_cap_taken ((hnew h).trans (if_neg (Nat.not_lt.mpr hsrc)))

end Sys2Proof.Proofs
end

section
/-! SUPPORT. Attestation and key slots (R58, R59, R61, R62): the key that signs a report, and what a key command leaves as it starts and as it ends. -/
namespace Sys2Proof.Machine
open Sys2Proof

/-! Attestation (R58, R59). -/

/-- The package with a fresh attestation key, certified with the next identity index. -/
def State.certified (s : State) : State :=
  let key : BitVec 544 := (Config.freeValue s.fresh).setWidth 544
  { s with
    fresh := s.fresh + 1
    pkg := { s.pkg with
      attIndex := s.pkg.attIndex + 1, attUsed := 0, attKey := key, attCert := s.pkg.attIndex
      attSig := Config.identitySign s.pkg.attIndex (bytesOf 68 key.toNat ++ s.measBytes ++ bytesOf 4 s.pkg.attIndex) } }

/-- With the last index ATT_EXH is set. -/
theorem State.newAttKey_certified {s : State} (h : s.pkg.attIndex < 2 ^ 20) :
    s.newAttKey = if s.pkg.attIndex + 1 = 2 ^ 20 then s.certified.ioSet 0x0608 1 else s.certified := if_pos h

/-- With no index left there is none: ATT_EXH is set. -/
theorem State.newAttKey_exhausted {s : State} (h : ¬ s.pkg.attIndex < 2 ^ 20) :
    s.newAttKey = (s.ioSet 0x0608 1).modPkg fun p => { p with attUsed := 1024 } := if_neg h

theorem State.attReady_open {s : State} (h : s.pkg.attUsed < 1024) : s.attReady = (true, s) := by
  simp only [State.attReady, h, if_true, decide_true]

theorem State.attReady_spent {s : State} (h : 1024 ≤ s.pkg.attUsed) : s.attReady = (decide (s.newAttKey.pkg.attUsed < 1024), s.newAttKey) := by
  simp only [State.attReady, if_neg (Nat.not_lt.mpr h)]

/-- A request once the boot is done: a report by a key that can sign, or status 0x05. -/
theorem exec_attestationRequest_booted {s u : State} {ready : Bool} (hboot : 4 ≤ s.pkg.stage) (hready : s.attReady = (ready, u)) (nonce : BitVec 256) :
    exec (.attestationRequest nonce) s = .next (if ready = true ∧ u.ioGet 0x0608 = 0 then u.report nonce else u.vendor [0x03, 0x05]) := by
  simp only [exec_attestationRequest, execAttestationRequest, if_neg (Nat.not_lt.mpr hboot), hready, Bool.and_eq_true, beq_iff_eq]

/-- A key that has signed 1,024 reports is replaced, and the new one signs (R58). -/
theorem exec_attestationRequest_renews {s : State} (hboot : 4 ≤ s.pkg.stage) (hspent : 1024 ≤ s.pkg.attUsed) (hmore : s.pkg.attIndex + 1 < 2 ^ 20)
    (hgood : s.ioGet 0x0608 = 0) (nonce : BitVec 256) : exec (.attestationRequest nonce) s = .next (s.certified.report nonce) := by
  have hkey : s.newAttKey = s.certified := (State.newAttKey_certified (Nat.lt_of_succ_lt hmore)).trans (if_neg (Nat.ne_of_lt hmore))
  rw [exec_attestationRequest_booted hboot (State.attReady_spent hspent), hkey, if_pos ⟨rfl, hgood⟩]

/-- The last index, or none that is left, sets ATT_EXH (R58). -/
theorem State.newAttKey_last {s : State} (hlast : 2 ^ 20 ≤ s.pkg.attIndex + 1) : s.newAttKey.ioGet 0x0608 = 1 ∧ s.newAttKey.out = s.out := by
  by_cases hleft : s.pkg.attIndex < 2 ^ 20
  · rw [State.newAttKey_certified hleft, if_pos (Nat.le_antisymm hleft hlast)]
    exact ⟨State.ioGet_ioSet_self .., rfl⟩
  · rw [State.newAttKey_exhausted hleft]
    exact ⟨State.ioGet_ioSet_self s 0x0608 1, rfl⟩

theorem exec_attestationRequest_exhausted {s : State} (hboot : 4 ≤ s.pkg.stage) (hspent : 1024 ≤ s.pkg.attUsed) (hlast : 2 ^ 20 ≤ s.pkg.attIndex + 1)
    (nonce : BitVec 256) : exec (.attestationRequest nonce) s = .next (s.newAttKey.vendor [0x03, 0x05]) := by
  have hexh : ¬ s.newAttKey.ioGet 0x0608 = 0 := by
    rw [(State.newAttKey_last hlast).1]
    decide
  rw [exec_attestationRequest_booted hboot (State.attReady_spent hspent), if_neg fun h => hexh h.2]

/-! Key commands (R61, R62). -/

theorem State.keyCmd_starts {s : State} {k cmd : Nat} (hidle : (s.ioGet (keyReg k)).getLsbD 7 = false) (hcmd : 1 ≤ cmd ∧ cmd ≤ 3) :
    s.keyCmd k cmd = (s.ioField (keyReg k) 7 1 1).modPkg fun p => { p with keyOp := p.keyOp.ins k cmd } := by
  refine if_neg ?_
  rw [hidle]
  simp only [Bool.false_eq_true, false_or]
  omega

theorem State.keyCmd_busy {s : State} {k : Nat} (hbusy : (s.ioGet (keyReg k)).getLsbD 7 = true) (cmd : Nat) : s.keyCmd k cmd = s := if_pos (.inl hbusy)

/-- Setting registers changes registers alone. -/
theorem State.setAll_eq {α : Type} (off : α → Nat) (val : State → α → Word) (s : State) (l : List α) : ∃ m, s.setAll off val l = { s with io := m } := by
  induction l generalizing s with
  | nil => exact ⟨s.io, rfl⟩
  | cons x l ih => exact ih (s.ioSet (off x) (val s x))

/-- Each register of the list has the value that all of them are given. -/
theorem State.ioGet_setAll_const {α : Type} (off : α → Nat) (v : Word) (s : State) {l : List α} {o : Nat} (h : o ∈ l.map off) :
    (s.setAll off (fun _ _ => v) l).ioGet o = v := by
  induction l generalizing s with
  | nil => cases h
  | cons x l ih =>
    by_cases hrest : o ∈ l.map off
    · exact ih (s.ioSet (off x) v) hrest
    · have hx : off x = o := ((List.mem_cons.mp h).resolve_right hrest).symm
      refine (State.ioGet_setAll _ (s.ioSet (off x) v) fun y hy hyo => hrest (List.mem_map.mpr ⟨y, hy, hyo⟩)).trans ?_
      rw [← hx]
      exact State.ioGet_ioSet_self ..

/-- The effect of a key command on the slots: LOAD takes KEYDATA and clears it, GENERATE a fresh key, ZERO none. -/
def State.keyChanged (s : State) (k cmd : Nat) : State :=
  if cmd = 1 then ({ s with keys := s.keys.ins k s.keyData } : State).setAll (fun i => 0x2400 + 8 * i) (fun _ _ => 0) (List.range 8)
  else if cmd = 2 then { s with keys := s.keys.ins k ((Config.freeValue s.fresh).setWidth 512), fresh := s.fresh + 1 }
  else { s with keys := s.keys.del k }

/-- BUSY and VALID as a command leaves them (R61). -/
def State.keyStatus (s : State) (k cmd : Nat) : State := (s.ioField (keyReg k) 7 1 0).ioField (keyReg k) 6 1 (if cmd = 3 then 0 else 1)

/-- Late sectors stand under the new key, and what the command held comes next (R62). -/
def State.keyReleased (s : State) (k : Nat) : State :=
  let u := s.keyLanded k
  { u with agenda := u.pkg.held ++ u.agenda, pkg := { u.pkg with keyOp := u.pkg.keyOp.del k, held := [] } }

@[simp] theorem State.keyReleased_keys (s : State) (k : Nat) : (s.keyReleased k).keys = s.keys := rfl
@[simp] theorem State.keyReleased_agenda (s : State) (k : Nat) : (s.keyReleased k).agenda = s.pkg.held ++ s.agenda := rfl
@[simp] theorem State.keyReleased_oftAhead (s : State) (k : Nat) : (s.keyReleased k).pkg.oftAhead = s.pkg.oftAhead := rfl
@[simp] theorem State.keyReleased_keyOp (s : State) (k : Nat) : (s.keyReleased k).pkg.keyOp = s.pkg.keyOp.del k := rfl
@[simp] theorem State.keyReleased_held (s : State) (k : Nat) : (s.keyReleased k).pkg.held = [] := rfl
@[simp] theorem State.ioGet_keyReleased (s : State) (k o : Nat) : (s.keyReleased k).ioGet o = s.ioGet o := rfl

/-- The end of a key command before the frames that wait (R62). -/
def State.keyEnded (s : State) (k cmd : Nat) : State := ((s.keyStatus k cmd).keyChanged k cmd).keyReleased k

theorem exec_keyCommandComplete_ends {s : State} {k : BitVec 6} {cmd : Nat} (hcmd : s.pkg.keyOp.get? k.toNat = some cmd) (hfree : s.keyInUse k.toNat = false) :
    exec (.keyCommandComplete k) s = .next ((s.keyEnded k.toNat cmd).oftDrain (s.keyEnded k.toNat cmd).pkg.oftAhead.length) := by
  rw [exec_keyCommandComplete, execKeyCommandComplete, State.keyDone, hcmd]
  dsimp only
  rw [if_neg (by rw [hfree]; decide)]
  rfl

/-- Only the command's own slot changes, and of the registers only KEYDATA. -/
theorem State.keyChanged_keeps (s : State) (k cmd : Nat) : let t := s.keyChanged k cmd
    t.pkg = s.pkg ∧ t.agenda = s.agenda ∧ (∀ o < 0x2400, t.ioGet o = s.ioGet o) ∧ ∀ j, j ≠ k → t.keys.get? j = s.keys.get? j := by
  intro t
  have ht : t = s.keyChanged k cmd := rfl
  unfold State.keyChanged at ht
  split at ht
  · obtain ⟨m, hm⟩ := State.setAll_eq (fun i => 0x2400 + 8 * i) (fun _ _ => 0) { s with keys := s.keys.ins k s.keyData } (List.range 8)
    refine ⟨?_, ?_, fun o ho => ?_, fun j hj => ?_⟩
    · rw [ht, hm]
    · rw [ht, hm]
    · rw [ht, State.ioGet_setAll _ _ fun i _ => by omega]
      rfl
    · rw [ht, hm]
      exact SMap.get?_ins_ne _ _ hj.symm
  · split at ht
    · rw [ht]
      exact ⟨rfl, rfl, fun _ _ => rfl, fun j hj => SMap.get?_ins_ne _ _ hj.symm⟩
    · rw [ht]
      exact ⟨rfl, rfl, fun _ _ => rfl, fun j hj => SMap.get?_del_ne _ hj.symm⟩

/-- The slot's new key. -/
theorem State.keyChanged_key (s : State) (k cmd : Nat) : let t := s.keyChanged k cmd
    (cmd = 1 → t.keys.get? k = some s.keyData ∧ ∀ i < 8, t.ioGet (0x2400 + 8 * i) = 0) ∧ (cmd = 2 → (t.keys.get? k).isSome = true) ∧
    (cmd = 3 → t.keys.get? k = none) := by
  refine ⟨?_, ?_, ?_⟩
  · rintro rfl
    obtain ⟨m, hm⟩ := State.setAll_eq (fun i => 0x2400 + 8 * i) (fun _ _ => 0) { s with keys := s.keys.ins k s.keyData } (List.range 8)
    have ht : s.keyChanged k 1 = _ := if_pos rfl
    refine ⟨?_, fun i hi => ?_⟩
    · rw [ht, hm]
      exact SMap.get?_ins_self ..
    · rw [ht]
      exact State.ioGet_setAll_const _ 0 _ (List.mem_map.mpr ⟨i, List.mem_range.mpr hi, rfl⟩)
  · rintro rfl
    exact congrArg Option.isSome (SMap.get?_ins_self ..)
  · rintro rfl
    exact SMap.get?_del_self ..

theorem keyReg_lt {k : Nat} (hk : k < 64) : keyReg k < 0x2400 := by
  rw [keyReg]
  omega

/-- BUSY is clear and VALID as the command's kind has it. -/
theorem State.keyEnded_status (s : State) {k : Nat} (hk : k < 64) (cmd : Nat) : let t := s.keyEnded k cmd
    (t.ioGet (keyReg k)).getLsbD 7 = false ∧ (t.ioGet (keyReg k)).getLsbD 6 = decide (cmd ≠ 3) := by
  intro t
  obtain ⟨-, -, hreg, -⟩ := (s.keyStatus k cmd).keyChanged_keeps k cmd
  have hstat : t.ioGet (keyReg k) = (s.keyStatus k cmd).ioGet (keyReg k) := hreg _ (keyReg_lt hk)
  rw [hstat, State.keyStatus]
  simp only [State.getLsbD_ioGet_ioField _ _ _ _ _ (show 7 < 64 by decide), State.getLsbD_ioGet_ioField _ _ _ _ _ (show 6 < 64 by decide)]
  by_cases h : cmd = 3 <;> simp [h]

/-- KEYDATA stands beyond the slots' own registers. -/
theorem State.keyData_keyStatus (s : State) {k : Nat} (hk : k < 64) (cmd : Nat) : (s.keyStatus k cmd).keyData = s.keyData := by
  have hlt := keyReg_lt hk
  have hreg (i : Nat) : (s.keyStatus k cmd).ioGet (0x2400 + 8 * i) = s.ioGet (0x2400 + 8 * i) :=
    (State.ioGet_ioField_ne _ _ _ _ (by omega)).trans (State.ioGet_ioField_ne _ _ _ _ (by omega))
  simp only [State.keyData, hreg]

/-- The rest of a key command's end: accesses that it held come next, its slot has its new key, and no other slot changes. -/
theorem State.keyEnded_results (s : State) {k : Nat} (hk : k < 64) (cmd : Nat) : let t := s.keyEnded k cmd
    t.pkg.oftAhead = s.pkg.oftAhead ∧ t.pkg.keyOp.get? k = none ∧ t.agenda = s.pkg.held ++ s.agenda ∧ t.pkg.held = [] ∧
    (∀ j, j ≠ k → t.keys.get? j = s.keys.get? j) ∧ (cmd = 1 → t.keys.get? k = some s.keyData ∧ ∀ i < 8, t.ioGet (0x2400 + 8 * i) = 0) ∧
    (cmd = 2 → (t.keys.get? k).isSome = true) ∧ (cmd = 3 → t.keys.get? k = none) := by
  obtain ⟨hpkg, hagenda, -, hother⟩ := (s.keyStatus k cmd).keyChanged_keeps k cmd
  have hkey := (s.keyStatus k cmd).keyChanged_key k cmd
  rw [s.keyData_keyStatus hk cmd] at hkey
  simp only [State.keyEnded, State.keyReleased_oftAhead, State.keyReleased_keyOp, State.keyReleased_agenda, State.keyReleased_held,
    State.keyReleased_keys, State.ioGet_keyReleased, hpkg, hagenda]
  exact ⟨rfl, SMap.get?_del_self .., rfl, trivial, hother, hkey⟩

end Sys2Proof.Machine

namespace Sys2Proof.Proofs
open Sys2Proof Sys2Proof.Machine

/-- Settles O30: a request is answered by the key that signs next (`attReady_open`, `exec_attestationRequest_renews`); a key command starts with
BUSY (`keyCmd_starts`), and its end is `keyEnded`, which the frames that wait follow. -/
theorem keyAndAttestationResults : Obligations.KeyAndAttestationResults := by
  unfold Obligations.KeyAndAttestationResults
  intro s vend
  refine ⟨fun nonce => ?_, fun p hp k => ?_, fun k cmd => ?_⟩
  · intro meas body sign
    refine ⟨fun hboot hopen => ?_, fun hboot hspent => ⟨fun hmore hgood => ?_, fun hlast => ?_⟩, fun hearly => congrArg Host.Outcome.next (if_pos hearly)⟩
    · have hexec := exec_attestationRequest_booted hboot (State.attReady_open hopen) nonce
      exact ⟨fun hgood => hexec.trans (congrArg _ (if_pos ⟨rfl, hgood⟩)), fun hexh => hexec.trans (congrArg _ (if_neg fun h => hexh h.2))⟩
    · exact ⟨_, exec_attestationRequest_renews hboot hspent hmore hgood nonce, rfl, rfl, rfl, rfl⟩
    · obtain ⟨hexh, hout⟩ := State.newAttKey_last hlast
      exact ⟨_, exec_attestationRequest_exhausted hboot hspent hlast nonce, hexh, congrArg (· ++ _) hout⟩
  · intro r
    have hexec : exec (p.1 k) s = .next (s.keyCmd k.toNat p.2) ∧ 1 ≤ p.2 ∧ p.2 ≤ 3 := by
      simp only [List.mem_cons, List.not_mem_nil, or_false] at hp
      rcases hp with rfl | rfl | rfl <;> exact ⟨rfl, by decide⟩
    obtain ⟨hstart, hcmd⟩ := hexec
    refine ⟨fun hidle => ⟨_, hstart.trans (congrArg _ (State.keyCmd_starts hidle hcmd)), ?_, SMap.get?_ins_self .., rfl⟩,
      fun hbusy => hstart.trans (congrArg _ (State.keyCmd_busy hbusy p.2))⟩
    exact s.getLsbD_ioGet_ioField (keyReg k.toNat) 7 1 1 (by decide)
  · intro r hcmd hfree
    have hexec := exec_keyCommandComplete_ends hcmd hfree
    obtain ⟨hbusy, hvalid⟩ := s.keyEnded_status k.isLt cmd
    obtain ⟨hahead, hrest⟩ := s.keyEnded_results k.isLt cmd
    rw [hahead] at hexec
    refine ⟨s.keyEnded k.toNat cmd, hexec, fun hnone => ?_, hbusy, hvalid, hrest⟩
    rw [hexec, hnone]
    rfl

end Sys2Proof.Proofs
end

section
/-! SUPPORT. A step by its branches (R71, R195, R204, R435): an event, the package's own moves, the turn of a core; and the operations of a bundle one
after the other (R297, R298). -/
namespace Sys2Proof.Machine
open Sys2Proof

/-! An event that has arrived. -/

section Event
variable {s : State} {i : Instr} {r : List Instr} (hagenda : s.agenda = i :: r) (hevent : Instr.isEvent i = true)
include hagenda hevent

theorem step_event : step s =
    if s.fatal ≠ 0 ∧ !Instr.inService i then .next ({ s with agenda := r } : State).passTime else exec i ({ s with agenda := r } : State).passTime := by
  rw [step, State.advance, hagenda]
  dsimp only
  rw [hevent]
  rfl

/-- It is run unless its part has stopped (R71). -/
theorem step_event_runs (h : s.fatal = 0 ∨ Instr.inService i = true) : step s = exec i ({ s with agenda := r } : State).passTime := by
  rw [step_event hagenda hevent, if_neg]
  rintro ⟨hfatal, hstopped⟩
  rcases h with h | h
  · exact hfatal h
  · rw [h] at hstopped
    exact absurd hstopped (by decide)

theorem step_event_stopped (hfatal : s.fatal ≠ 0) (h : Instr.inService i = false) : step s = .next ({ s with agenda := r } : State).passTime := by
  rw [step_event hagenda hevent, if_pos ⟨hfatal, by rw [h]; rfl⟩]

end Event

/-! No event. -/

theorem step_quiet {s : State} (h : s.agenda = []) : step s = s.passTime.goOn := by rw [step, State.advance, h]

/-- After a package-fatal condition only a dump is written (R71, R73). -/
theorem State.goOn_fatal {s : State} (h : s.fatal ≠ 0) : s.goOn = if s.pkg.dumping then exec .dumpWritten s else .next s := if_pos h

section Running
variable {s : State} (h : s.fatal = 0)
include h

theorem State.goOn_running : s.goOn = match s.ownMove with
    | some t => .next t
    | none => match s.firstMove s.moves with
      | some o => o
      | none => match s.turnOf with
        | some c => (s.cycleBefore c).takeTurn c
        | none => .next s.idleCycle := if_neg (not_not.mpr h)

theorem State.goOn_ownMove {t : State} (hown : s.ownMove = some t) : s.goOn = .next t := by rw [State.goOn_running h, hown]

variable (hown : s.ownMove = none)
include hown

theorem State.goOn_move {o : Out} (hmove : s.firstMove s.moves = some o) : s.goOn = o := by rw [State.goOn_running h, hown, hmove]

variable (hmove : s.firstMove s.moves = none)
include hmove

theorem State.goOn_turn {c : Nat} (hturn : s.turnOf = some c) : s.goOn = (s.cycleBefore c).takeTurn c := by
  rw [State.goOn_running h, hown, hmove, hturn]

theorem State.goOn_idle (hturn : s.turnOf = none) : s.goOn = .next s.idleCycle := by rw [State.goOn_running h, hown, hmove, hturn]

end Running

/-! The turn of a core. -/

/-- A cycle that passes for a core drains its buckets; its sequencers stay. -/
theorem State.svc_idleCycle (s : State) (c : Nat) : (s.idleCycle.core c).svc = (s.core c).svc := by
  have hcores : s.idleCycle.cores = s.cores.map fun q => (q.1, if q.2.run = .running then q.2 else q.2.drain) := by
    refine List.map_congr_left fun q _ => ?_
    split <;> rfl
  rw [State.core, State.core, SMap.getD, SMap.getD, hcores, SMap.get?_map fun k : Core => if k.run = .running then k else k.drain]
  cases SMap.get? s.cores c with
  | none => rfl
  | some k =>
    show (if k.run = .running then k else k.drain).svc = k.svc
    split <;> rfl

theorem State.svc_cycleBefore (s : State) (c : Nat) : ((s.cycleBefore c).core c).svc = (s.core c).svc := by
  unfold State.cycleBefore
  split
  · exact s.svc_idleCycle c
  · rfl

/-- A turn is the bundle of the main sequencer alone while no handler works. -/
theorem State.takeTurn_main {s : State} {c : Nat} (h : (s.core c).svc.busy = false) :
    s.takeTurn c = exec (.bundleIssue c) { s with turn := c + 1 } := by
  have hidle : (({ s with turn := c + 1 } : State).core c).svc.busy = false := h
  rw [State.takeTurn, hidle]
  cases exec (.bundleIssue c) { s with turn := c + 1 } <;> rfl

/-- Else a bundle of the service sequencer follows it. -/
theorem State.takeTurn_svc {s t : State} {c : Nat} (h : (s.core c).svc.busy = true) (hmain : exec (.bundleIssue c) { s with turn := c + 1 } = .next t) :
    s.takeTurn c = exec (.serviceBundleIssue c) t := by
  have hbusy : (({ s with turn := c + 1 } : State).core c).svc.busy = true := h
  rw [State.takeTurn, hmain, hbusy]
  rfl

/-! The operations of a bundle. -/

/-- A word that a sequencer takes as an operation decodes to the instruction that the operation runs. -/
theorem decodeSlot_of_slotOp {iss : Issuer} {sl : Slot} {w ext : Word32} {q : SlotOp} (h : slotOp iss sl w ext = .ok q) :
    decodeSlot iss sl w ext = .ok (q.row.instr q.o q.ex q.b q.p) := by
  rw [decodeSlot, decodeBits]
  unfold slotOp at h
  dsimp only at h
  cases hrow : decodeRow iss sl (SlotBits.ofWords w ext) with
  | error c =>
    rw [hrow] at h
    cases h
  | ok r =>
    rw [hrow] at h
    cases h
    rfl

section Ops
variable {q : SlotOp} {s t : State} (h : q.run s = .next t) (r : List SlotOp) (ts : List TrapInfo)
include h

theorem State.runOps_stall (hstall : t.issue.stall = true) : State.runOps (q :: r) s ts = .next (t, []) := by
  rw [State.runOps, h]
  exact if_pos hstall

variable (hstall : t.issue.stall = false)
include hstall

theorem State.runOps_done (htrap : t.issue.trap = none) : State.runOps (q :: r) s ts = State.runOps r t ts := by
  rw [State.runOps, h]
  dsimp only
  rw [hstall, htrap]
  rfl

theorem State.runOps_trap {x : TrapInfo} (htrap : t.issue.trap = some x) : State.runOps (q :: r) s ts =
    State.runOps r { s with issue := { s.issue with did := if x.did = [] then s.issue.did else x.did } } (ts ++ [x]) := by
  rw [State.runOps, h]
  dsimp only
  rw [hstall, htrap]
  simp only [Bool.false_eq_true, if_false, List.isEmpty_iff]

end Ops

end Sys2Proof.Machine

namespace Sys2Proof.Proofs
open Sys2Proof Sys2Proof.Machine

/-- Settles O50: `step` takes the branch of `advance` and `goOn` that the state has, and `runOps` an operation at a time, each of which is
`exec` of what its words decode to. -/
theorem stepRunsInstructions : Obligations.StepRunsInstructions := by
  unfold Obligations.StepRunsInstructions
  refine ⟨fun s i r hagenda hevent => ⟨step_event_runs hagenda hevent, step_event_stopped hagenda hevent⟩, fun s hagenda => ?_, fun iss sl w ext q hq => ?_⟩
  · intro p
    have hstep : step s = p.goOn := step_quiet hagenda
    rw [hstep]
    refine ⟨fun hfatal => State.goOn_fatal (s := p) hfatal, fun t hfatal hown => State.goOn_ownMove (s := p) hfatal hown,
      fun o hfatal hown hmove => State.goOn_move (s := p) hfatal hown hmove, fun c hfatal hown hmove hturn => ?_,
      fun hfatal hown hmove hturn => State.goOn_idle (s := p) hfatal hown hmove hturn⟩
    have hbusy : ((p.cycleBefore c).core c).svc.busy = (p.core c).svc.busy := congrArg Svc.busy (p.svc_cycleBefore c)
    rw [State.goOn_turn (s := p) hfatal hown hmove hturn, ← hbusy]
    exact ⟨State.takeTurn_main, fun t hserves hmain => State.takeTurn_svc hserves hmain⟩
  · refine ⟨_, decodeSlot_of_slotOp hq, fun s r ts t hexec => ?_⟩
    have hrun : q.run s = .next t := (q.run_eq_exec s).trans hexec
    exact ⟨State.runOps_stall hrun r ts, State.runOps_done hrun r ts, fun x hstall htrap => State.runOps_trap hrun r ts hstall htrap⟩

end Sys2Proof.Proofs
end

section
/-! SUPPORT. Operating points and limits (R78-R80, R89-R97): what the end of a settling window comes to, what a limit's step moves, and what
the computation of grants leaves. -/
namespace Sys2Proof.Machine
open Sys2Proof

/-! Settling windows (R78-R80). -/

/-- The lower of a point and a ceiling. -/
def underCeiling (p ceil : BitVec 3) : BitVec 3 := if p.toNat ≤ ceil.toNat then p else ceil

theorem underCeiling_of_le {p ceil : BitVec 3} (h : p.toNat ≤ ceil.toNat) : underCeiling p ceil = p := if_pos h

theorem underCeiling_of_ge {p ceil : BitVec 3} (h : ceil.toNat ≤ p.toNat) : underCeiling p ceil = ceil := by
  unfold underCeiling
  split
  · exact BitVec.eq_of_toNat_eq (by omega)
  · rfl

theorem underCeiling_le (p ceil : BitVec 3) : (underCeiling p ceil).toNat ≤ ceil.toNat := by
  unfold underCeiling
  split
  · assumption
  · exact le_refl _

theorem Core.opSettle_stays {c : Core} (id : Nat) (program : Bool) (h : underCeiling c.opReq c.opCeil = c.opEff) : c.opSettle id program = c := if_pos h

theorem Core.opSettle_moves {c : Core} (id : Nat) (program : Bool) (h : underCeiling c.opReq c.opCeil ≠ c.opEff) :
    (c.opSettle id program).opEff = underCeiling c.opReq c.opCeil ∧ (c.opSettle id program).opPwin = program ∧
    (c.opSettle id program).opHwin = !program := by
  have hmoves : c.opSettle id program = _ := if_neg h
  rw [hmoves]
  exact ⟨rfl, rfl, rfl⟩

theorem Core.opSettle_keeps (c : Core) (id : Nat) (program : Bool) : (c.opSettle id program).opReq = c.opReq ∧
    (c.opSettle id program).opKept = c.opKept ∧ (c.opSettle id program).opCeil = c.opCeil ∧ (c.opSettle id program).opWait = c.opWait := by
  by_cases h : underCeiling c.opReq c.opCeil = c.opEff
  · rw [Core.opSettle_stays id program h]
    exact ⟨rfl, rfl, rfl, rfl⟩
  · have hmoves : c.opSettle id program = _ := if_neg h
    rw [hmoves]
    exact ⟨rfl, rfl, rfl, rfl⟩

/-- A core whose window has ended, before what waited for its end moves the point. -/
def Core.opEnded (c : Core) (id : Nat) : Core :=
  { c with opPwin := false, opHwin := false, mhz := Config.stand id c.opEff.toNat, opReq := c.opKept.getD c.opReq, opKept := none,
           opCeil := c.opCeilNext, opWait := none }

/-- The ceiling that waited moves the point, whatever the request kept. -/
def Core.opByCeil (c : Core) : Bool := underCeiling c.opReq c.opCeilNext != c.opEff

section WindowEnd
variable {c : Core} (id : Nat) (hopen : (c.opPwin || c.opHwin) = true)
include hopen

theorem Core.opWindowEnd_eq : c.opWindowEnd id = (c.opEnded id).opSettle id !c.opByCeil := by
  rw [Core.opWindowEnd, hopen]
  rfl

/-- What waited is in force, and nothing waits any more. -/
theorem Core.opWindowEnd_takes : (c.opWindowEnd id).opReq = c.opKept.getD c.opReq ∧ (c.opWindowEnd id).opKept = none ∧
    (c.opWindowEnd id).opCeil = c.opCeilNext ∧ (c.opWindowEnd id).opWait = none := by
  rw [Core.opWindowEnd_eq id hopen]
  exact Core.opSettle_keeps ..

theorem Core.opWindowEnd_stays (h : underCeiling (c.opKept.getD c.opReq) c.opCeilNext = c.opEff) :
    (c.opWindowEnd id).opPwin = false ∧ (c.opWindowEnd id).opHwin = false ∧ (c.opWindowEnd id).mhz = Config.stand id c.opEff.toNat := by
  rw [Core.opWindowEnd_eq id hopen, Core.opSettle_stays (c := c.opEnded id) id _ h]
  exact ⟨rfl, rfl, rfl⟩

theorem Core.opWindowEnd_moves (h : underCeiling (c.opKept.getD c.opReq) c.opCeilNext ≠ c.opEff) :
    (c.opWindowEnd id).opEff = underCeiling (c.opKept.getD c.opReq) c.opCeilNext ∧ (c.opWindowEnd id).opPwin = (!c.opByCeil) ∧
    (c.opWindowEnd id).opHwin = c.opByCeil := by
  rw [Core.opWindowEnd_eq id hopen]
  have hmoves := Core.opSettle_moves (c := c.opEnded id) id (!c.opByCeil) h
  rwa [Bool.not_not] at hmoves

end WindowEnd

/-! What a window's end comes to, by what has waited for it (R79, R80). -/

section Waited
variable {c : Core} (id : Nat) (hopen : (c.opPwin || c.opHwin) = true)
include hopen

/-- Nothing has waited: the core runs at the point asked for. -/
theorem Core.opWindowEnd_free (hkept : c.opKept = none) (hwait : c.opWait = none) (hat : c.opReq = c.opEff) (hle : c.opReq.toNat ≤ c.opCeil.toNat) :
    (c.opWindowEnd id).opPwin = false ∧ (c.opWindowEnd id).opHwin = false ∧ (c.opWindowEnd id).mhz = Config.stand id c.opEff.toNat := by
  refine Core.opWindowEnd_stays id hopen ?_
  rw [hkept, Core.opCeilNext, hwait]
  exact (underCeiling_of_le hle).trans hat

/-- A ceiling below the point has waited, and the request does not ask for less: a hardware window for the ceiling. -/
theorem Core.opWindowEnd_lowered {w : BitVec 3} (hwait : c.opWait = some w) (hlt : w.toNat < c.opEff.toNat)
    (hle : w.toNat ≤ (c.opKept.getD c.opReq).toNat) : (c.opWindowEnd id).opEff = w ∧ (c.opWindowEnd id).opHwin = true := by
  have hnext : c.opCeilNext = w := by rw [Core.opCeilNext, hwait]; rfl
  have hpoint : underCeiling (c.opKept.getD c.opReq) c.opCeilNext = w := by rw [hnext, underCeiling_of_ge hle]
  obtain ⟨heff, -, hhwin⟩ := Core.opWindowEnd_moves id hopen (hpoint ▸ fun h => hlt.ne (congrArg BitVec.toNat h))
  refine ⟨heff.trans hpoint, hhwin.trans (bne_iff_ne.mpr fun h => ?_)⟩
  have hunder := underCeiling_le c.opReq c.opCeilNext
  rw [h, hnext] at hunder
  omega

/-- A request under the ceiling has waited alone: a program window for it. -/
theorem Core.opWindowEnd_requested {p : BitVec 3} (hkept : c.opKept = some p) (hwait : c.opWait = none) (hat : c.opReq = c.opEff)
    (hle : c.opReq.toNat ≤ c.opCeil.toNat) (hp : p.toNat ≤ c.opCeil.toNat) (hne : p ≠ c.opEff) :
    (c.opWindowEnd id).opEff = p ∧ (c.opWindowEnd id).opPwin = true := by
  have hnext : c.opCeilNext = c.opCeil := by rw [Core.opCeilNext, hwait]; rfl
  have hpoint : underCeiling (c.opKept.getD c.opReq) c.opCeilNext = p := by rw [hnext, hkept]; exact underCeiling_of_le hp
  have hceil : c.opByCeil = false := by rw [Core.opByCeil, hnext, underCeiling_of_le hle, hat, bne_self_eq_false]
  obtain ⟨heff, hpwin, -⟩ := Core.opWindowEnd_moves id hopen (hpoint ▸ hne)
  exact ⟨heff.trans hpoint, by rw [hpwin, hceil]; rfl⟩

/-- Both have waited: the kind of window goes by whether the ceiling alone moves the point. -/
theorem Core.opWindowEnd_both {p w : BitVec 3} (hkept : c.opKept = some p) (hwait : c.opWait = some w) (hne : underCeiling p w ≠ c.opEff) :
    (c.opWindowEnd id).opEff = underCeiling p w ∧ ((c.opWindowEnd id).opPwin, (c.opWindowEnd id).opHwin) =
      (if underCeiling c.opReq w = c.opEff then (true, false) else (false, true)) := by
  have hnext : c.opCeilNext = w := by rw [Core.opCeilNext, hwait]; rfl
  have hpoint : underCeiling (c.opKept.getD c.opReq) c.opCeilNext = underCeiling p w := by rw [hnext, hkept]; rfl
  obtain ⟨heff, hpwin, hhwin⟩ := Core.opWindowEnd_moves id hopen (hpoint ▸ hne)
  refine ⟨heff.trans hpoint, ?_⟩
  rw [hpwin, hhwin, Core.opByCeil, hnext]
  split
  next h => rw [h, bne_self_eq_false]; rfl
  next h => rw [bne_iff_ne.mpr h]; rfl

end Waited

theorem exec_settlingWindowEnd_core (s : State) (core : Nat) :
    ∃ t, exec (.settlingWindowEnd core) s = .next t ∧ t.core core = (s.core core).opWindowEnd core :=
  ⟨_, rfl, State.core_modCore_self ..⟩

/-! Rails (R89-R91). -/

/-- A core whose current a rail carries has the rail among its own. -/
theorem mem_railsOf {r c : Nat} (hr : r < 7) (hc : c ∈ railCores r) : r ∈ railsOf c := by
  unfold railCores at hc
  unfold railsOf isCtl
  split at hc
  · obtain ⟨i, hi, rfl⟩ := List.mem_map.mp hc
    rw [List.mem_range] at hi
    rw [if_neg (by simp only [decide_eq_true_eq]; omega), show (64 * r + i) / 64 = r by omega]
    exact List.mem_cons_self ..
  · split at hc
    next h6 =>
      obtain ⟨i, -, rfl⟩ := List.mem_map.mp hc
      rw [if_pos (decide_eq_true (Nat.le_add_right ..)), h6]
      exact List.mem_cons_self ..
    next h4 h6 =>
      rw [List.mem_range] at hc
      rw [if_neg (by simp only [decide_eq_true_eq]; omega)]
      have hr : r = 4 ∨ r = 5 := by omega
      rcases hr with rfl | rfl <;> simp

theorem State.energyHeld_of_rail {s : State} {r c : Nat} (hover : s.pkg.railOver.has r = true) (hr : r < 7) (hc : c ∈ railCores r) :
    s.energyHeld c = true := by
  rw [State.energyHeld, Bool.or_eq_true]
  exact .inr (List.any_eq_true.mpr ⟨r, mem_railsOf hr hc, hover⟩)

section Rail
variable {s : State} {rail : BitVec 3} (hr : rail.toNat < 7)
include hr

theorem exec_railOvercurrent_rail : exec (.railOvercurrent rail) s = .next (s.modPkg fun p => { p with railOver := p.railOver.ins rail.toNat () }) :=
  congrArg Host.Outcome.next (if_pos hr)

theorem exec_railCeilingLowerStep_over (high : Bool) (hover : s.pkg.railOver.has rail.toNat = true) : exec (.railCeilingLowerStep ⟨rail, high⟩) s =
    .next (if high then s.ceilingStep (railCores rail.toNat) true 1 else s.modPkg fun p => { p with railOver := p.railOver.del rail.toNat }) :=
  congrArg Host.Outcome.next (if_pos (by rw [Bool.and_eq_true]; exact ⟨decide_eq_true hr, hover⟩))

omit hr in
theorem exec_railCeilingLowerStep_under (high : Bool) (hunder : s.pkg.railOver.has rail.toNat = false) :
    exec (.railCeilingLowerStep ⟨rail, high⟩) s = .next s :=
  congrArg Host.Outcome.next (if_neg (by simp [hunder]))

omit hr in
theorem exec_railCeilingRaiseStep_over (hover : s.pkg.railOver.has rail.toNat = true) : exec (.railCeilingRaiseStep rail) s = .next s :=
  congrArg Host.Outcome.next (if_neg (by simp [hover]))

theorem exec_railCeilingRaiseStep_under (hunder : s.pkg.railOver.has rail.toNat = false) :
    exec (.railCeilingRaiseStep rail) s = .next (s.ceilingStep (railCores rail.toNat) false 1) :=
  congrArg Host.Outcome.next (if_pos (by simp [hunder, hr]))

end Rail

/-! Notices (R91, R97, R98). -/

/-- A notice to each core of a list. -/
def State.noticeAll (s : State) (i : Nat) (l : List Nat) : State := l.foldl (fun u c => u.notice c i) s

/-- The notice is pending at each core of the list. -/
theorem State.noticeAll_pending (s : State) {i : Nat} (hi : i < 4) {l : List Nat} {c : Nat} (hc : c ∈ l) :
    ((s.noticeAll i l).core c).svc.notices.getLsbD i = true := by
  have hself (u : State) (c : Nat) : ((u.notice c i).core c).svc.notices.getLsbD i = true := by
    simp only [State.notice, State.core_modCore_self, BitVec.getLsbD_or, BitVec.getLsbD_ofNat, Nat.testBit_two_pow_self, hi, decide_true,
      Bool.and_self, Bool.or_true]
  refine foldl_reaches (I := fun _ => True) (P := fun u c => (u.core c).svc.notices.getLsbD i = true) (key := id) (fun _ _ _ => trivial)
    (fun u x _ => hself u x) (fun u x j _ hne h => ?_) l trivial (.inl (by rwa [List.map_id]))
  rwa [State.notice, State.core_modCore_ne _ _ (show x ≠ j from Ne.symm hne)]

theorem State.noticeAll_keeps (s : State) (i : Nat) (l : List Nat) : (s.noticeAll i l).io = s.io ∧ (s.noticeAll i l).pkg = s.pkg := by
  induction l generalizing s with
  | nil => exact ⟨rfl, rfl⟩
  | cons c l ih => exact ih (s.notice c i)

theorem State.ioGet_noticeAll (s : State) (i : Nat) (l : List Nat) (o : Nat) : (s.noticeAll i l).ioGet o = s.ioGet o := by
  rw [State.ioGet, (s.noticeAll_keeps i l).1, State.ioGet]

theorem State.ioGet_alert (s : State) (kind o : Nat) : (s.alert kind).ioGet o = s.ioGet o := by
  rw [State.ioGet, (s.alert_results kind).1, State.ioGet]

theorem State.msi_keeps (s : State) (v : Nat) : (s.msi v).io = s.io ∧ (s.msi v).pkg = s.pkg := by
  unfold State.msi
  split <;> exact ⟨rfl, rfl⟩

theorem State.ioGet_msi (s : State) (v o : Nat) : (s.msi v).ioGet o = s.ioGet o := by
  rw [State.ioGet, (s.msi_keeps v).1, State.ioGet]

/-! A lost phase (R91). -/

/-- The registers after a phase of a rail is lost. -/
def State.phaseLost (s : State) (r : Nat) : State :=
  (((s.ioField (railReg r) 32 8 (s.ioBits (railReg r) 32 8 - 1)).railEff r).ioField 0x4008 r 1 1).ioField 0x4008 (8 + r) 1 1

theorem exec_phaseFail_rail {s : State} {rail : BitVec 3} (hr : rail.toNat < 7) (hok : 0 < s.ioBits (railReg rail.toNat) 32 8) :
    exec (.phaseFail rail) s = .next ((((s.phaseLost rail.toNat).msi 248).alert 1).noticeAll 1 (railCores rail.toNat)) :=
  congrArg Host.Outcome.next (if_neg (by omega))

theorem State.phaseLost_rail (s : State) (r : Nat) (hr : r < 7) : (s.phaseLost r).ioBits (railReg r) 32 8 = s.ioBits (railReg r) 32 8 - 1 ∧
    (s.phaseLost r).ioBits (railReg r) 16 16 =
      s.ioBits (railReg r) 0 16 * (s.ioBits (railReg r) 32 8 - 1) / s.ioBits (railReg r) 40 8 % 65536 := by
  have hreg : (0x4008 : Nat) ≠ railReg r := by unfold railReg; omega
  have hlt : s.ioBits (railReg r) 32 8 < 2 ^ 8 := Nat.mod_lt _ (by decide)
  have hget : (s.phaseLost r).ioGet (railReg r) = ((s.ioField (railReg r) 32 8 (s.ioBits (railReg r) 32 8 - 1)).railEff r).ioGet (railReg r) := by
    rw [State.phaseLost, State.ioGet_ioField_ne _ _ _ _ hreg, State.ioGet_ioField_ne _ _ _ _ hreg]
  have hphok : (s.ioField (railReg r) 32 8 (s.ioBits (railReg r) 32 8 - 1)).ioBits (railReg r) 32 8 = s.ioBits (railReg r) 32 8 - 1 := by
    rw [State.ioBits_ioField_self _ _ _ (by decide), Nat.mod_eq_of_lt (by omega)]
  constructor
  · rw [State.ioBits, hget, ← State.ioBits, State.railEff, State.ioBits_ioField_disjoint _ _ _ (by decide), hphok]
  · rw [State.ioBits, hget, ← State.ioBits, State.railEff, State.ioBits_ioField_self _ _ _ (by decide), hphok,
      State.ioBits_ioField_disjoint _ _ _ (by decide), State.ioBits_ioField_disjoint _ _ _ (by decide)]
    rfl

theorem State.phaseLost_status (s : State) {r : Nat} (hr : r < 7) :
    ((s.phaseLost r).ioGet 0x4008).getLsbD r = true ∧ ((s.phaseLost r).ioGet 0x4008).getLsbD (8 + r) = true := by
  constructor
  · rw [State.phaseLost, State.getLsbD_ioGet_ioField _ _ _ _ _ (by omega), if_neg (by omega), State.getLsbD_ioGet_ioField _ _ _ _ _ (by omega),
      if_pos (by omega), Nat.sub_self]
    rfl
  · rw [State.phaseLost, State.getLsbD_ioGet_ioField _ _ _ _ _ (by omega), if_pos (by omega), Nat.sub_self]
    rfl

/-! Ceilings (R90, R92). -/

/-- The end of a core's ceiling towards which a step goes. -/
def lastPoint (lower : Bool) : BitVec 3 := if lower then 0 else 7

/-- One step of a core's ceiling (R90). -/
def Core.stepCeil (c : Core) (id : Nat) (lower : Bool) : Core := c.opLimit id (if lower then c.opCeilNext - 1 else c.opCeilNext + 1)

/-- A step of a core's ceiling that stops at the last point. -/
def State.stepCeil (lower : Bool) (s : State) (core : Nat) : State :=
  if (s.core core).opCeilNext = lastPoint lower then s else s.modCore core fun k => k.stepCeil core lower

theorem State.core_stepCeil_ne (lower : Bool) (s : State) {c j : Nat} (h : c ≠ j) : (s.stepCeil lower c).core j = s.core j := by
  unfold State.stepCeil
  split
  · rfl
  · exact State.core_modCore_ne _ _ h

/-- Which cores of a list still move is the same before their steps and as each comes: none is stepped twice. -/
theorem State.foldl_stepCeil (lower : Bool) {m : Nat → Bool} {l : List Nat} (hl : l.Nodup) {s : State}
    (hm : ∀ c ∈ l, m c = true ↔ (s.core c).opCeilNext ≠ lastPoint lower) :
    l.foldl (fun u c => if m c then u.modCore c fun k => k.stepCeil c lower else u) s = l.foldl (State.stepCeil lower) s := by
  induction l generalizing s with
  | nil => rfl
  | cons c l ih =>
    obtain ⟨hc, hl⟩ := List.nodup_cons.mp hl
    have hstep : (if m c then s.modCore c fun k => k.stepCeil c lower else s) = s.stepCeil lower c := by
      simp only [hm c (List.mem_cons_self ..), ne_eq, ite_not, State.stepCeil]
    rw [List.foldl_cons, List.foldl_cons, hstep]
    refine ih hl fun j hj => ?_
    rw [hm j (List.mem_cons_of_mem _ hj), s.core_stepCeil_ne lower (ne_of_mem_of_not_mem hj hc).symm]

/-- Control cores move together (R90). -/
theorem State.ceilingStep_ctl (s : State) {cores : List Nat} (hne : cores ≠ []) (hctl : ∀ c ∈ cores, isCtl c = true) (hnd : cores.Nodup)
    (lower : Bool) (cause : Nat) : s.ceilingStep cores lower cause = cores.foldl (State.stepCeil lower) s := by
  have hall : cores.filter isCtl = cores := List.filter_eq_self.mpr hctl
  have hmoves : (!(cores.filter isCtl).isEmpty) = true := by rw [hall]; simp [hne]
  unfold State.ceilingStep
  extract_lets movable move ctl
  rw [if_pos hmoves]
  refine (congrArg (move s) hall).trans (State.foldl_stepCeil lower hnd fun c _ => ?_)
  cases lower <;> exact bne_iff_ne

/-! A sensor's reading (R92). -/

theorem exec_thermalCeilingStep_eq (s : State) (die : BitVec 2) (temp : BitVec 8) {v : State} (hv : s.sensorRead die temp = v) :
    exec (.thermalCeilingStep die temp) s = .next (
      if v.ioBits 0x4018 16 8 ≤ temp.toNat then v.packageFatal 0x20B#10
      else if v.ioBits 0x4018 0 8 < temp.toNat then v.ceilingStep (railCores die.toNat) true 2
      else if temp.toNat + 3 ≤ v.ioBits 0x4018 0 8 then v.ceilingStep (railCores die.toNat) false 2 else v) := hv ▸ rfl

/-! Grants (R93, R95-R97). -/

/-- The package's own bits of CAP_CAUSE for a grant `g` under the limit `l`. -/
def State.limitBits (s : State) (l : Nat) (g : Nat × Nat) : Nat :=
  if decide (g.2 < s.ioBits (0x4100 + 8 * g.1) 32 12) then
    (if min (s.ioBits 0x4000 0 12) 2100 = l then 1 else 0) + (if s.pkg.capHall ≠ 0 ∧ s.pkg.capHall = l then 8 else 0) +
      (if s.pkg.capHost ≠ 0 ∧ s.pkg.capHost = l then 16 else 0) else 0

/-- A partition is given its grant: the register, its cause, and the notice of a change when `first` does not hold. -/
def State.grantOne (l : Nat) (first : Bool) (s : State) (g : Nat × Nat) : State :=
  let t := s.ioField (0x4140 + 8 * g.1) 0 12 g.2
  let u := t.capCause g.1 ((t.ioBits (0x4180 + 8 * g.1) 8 5 &&& 6) ||| t.limitBits l g)
  if first ∨ g.2 = s.ioBits (0x4140 + 8 * g.1) 0 12 then u else u.partNotice g.1 (decide (g.2 < s.ioBits (0x4140 + 8 * g.1) 0 12))

/-- The partitions that take part in the computation. -/
def State.claims (s : State) : List Grant := ((List.range 8).filter fun p => s.partEn p).map fun p =>
  let m : Rat := (s.ioBits (0x4100 + 8 * p) 32 12 : Nat)
  ⟨p, s.partRank p, m, ((s.ioBits (0x4100 + 8 * p) 16 12 : Nat) : Rat), m⟩

/-- What the computation gives each of them. -/
def State.shares (s : State) (used : Nat) : List (Nat × Nat) := grantsOf ((s.limit : Int) - used) s.claims

/-- EPROF of each core of an enabled partition follows its grant (R95). -/
def State.leakAll (s : State) : State := ((List.range 256).filter fun c => s.coreOn c && s.partEn (s.partOf c)).foldl (fun s c => s.setLeak c) s

theorem State.recompute_eq (s : State) (used : Nat) : s.recompute used =
    ((s.shares used).foldl (State.grantOne s.limit (!s.pkg.granted)) (s.modPkg fun q => { q with granted := true, used })).leakAll := rfl


theorem State.capCause_keeps (s : State) (p active : Nat) :
    (∀ o, o ≠ 0x4180 + 8 * p → (s.capCause p active).ioGet o = s.ioGet o) ∧ (s.capCause p active).pkg = s.pkg := by
  refine ⟨fun o ho => ?_, rfl⟩
  rw [State.capCause, State.ioGet_ioField_ne _ _ _ _ ho.symm, State.ioGet_ioField_ne _ _ _ _ ho.symm, State.ioGet_ioField_ne _ _ _ _ ho.symm]

theorem State.alert_grants (s : State) (kind : Nat) : (s.alert kind).pkg.granted = s.pkg.granted ∧ (s.alert kind).pkg.used = s.pkg.used := by
  unfold State.alert
  split <;> exact ⟨rfl, rfl⟩

/-- A notice of a changed grant touches no register and nothing of what the computation has noted. -/
theorem State.partNotice_keeps (s : State) (p : Nat) (fell : Bool) : (s.partNotice p fell).io = s.io ∧
    (s.partNotice p fell).pkg.granted = s.pkg.granted ∧ (s.partNotice p fell).pkg.used = s.pkg.used := by
  obtain ⟨hio, hpkg⟩ := s.noticeAll_keeps (if fell then 2 else 3) ((List.range 256).filter fun c => s.partOf c == p)
  unfold State.partNotice
  extract_lets u
  change u.io = s.io at hio
  change u.pkg = s.pkg at hpkg
  obtain ⟨hmio, hmpkg⟩ := u.msi_keeps 249
  split
  · obtain ⟨hgranted, hused⟩ := (u.msi 249).alert_grants 2
    exact ⟨((u.msi 249).alert_results 2).1.trans (hmio.trans hio), by rw [hgranted, hmpkg, hpkg], by rw [hused, hmpkg, hpkg]⟩
  · exact ⟨hio, by rw [hpkg], by rw [hpkg]⟩

/-- Beside its grant only the partition's cause changes among the registers. -/
theorem State.grantOne_keeps (l : Nat) (first : Bool) (s : State) (g : Nat × Nat) :
    (∀ o, o ≠ 0x4180 + 8 * g.1 → (State.grantOne l first s g).ioGet o = (s.ioField (0x4140 + 8 * g.1) 0 12 g.2).ioGet o) ∧
    (State.grantOne l first s g).pkg.granted = s.pkg.granted ∧ (State.grantOne l first s g).pkg.used = s.pkg.used := by
  unfold State.grantOne
  extract_lets t u
  obtain ⟨hcap, hpkg⟩ := t.capCause_keeps g.1 ((t.ioBits (0x4180 + 8 * g.1) 8 5 &&& 6) ||| t.limitBits l g)
  split
  · exact ⟨hcap, congrArg Pkg.granted hpkg, congrArg Pkg.used hpkg⟩
  · obtain ⟨hio, hgranted, hused⟩ := u.partNotice_keeps g.1 (decide (g.2 < s.ioBits (0x4140 + 8 * g.1) 0 12))
    refine ⟨fun o ho => ?_, hgranted.trans (congrArg Pkg.granted hpkg), hused.trans (congrArg Pkg.used hpkg)⟩
    rw [State.ioGet, hio, ← State.ioGet]
    exact hcap o ho

theorem State.ioGet_grantOne_ne (l : Nat) (first : Bool) (s : State) {g : Nat × Nat} {p : Nat} (hp : p < 8) (hne : p ≠ g.1) :
    (State.grantOne l first s g).ioGet (0x4140 + 8 * p) = s.ioGet (0x4140 + 8 * p) := by
  rw [(State.grantOne_keeps l first s g).1 _ (by omega), State.ioGet_ioField_ne _ _ _ _ (by omega)]

theorem State.ioBits_grantOne_self (l : Nat) (first : Bool) (s : State) (g : Nat × Nat) :
    (State.grantOne l first s g).ioBits (0x4140 + 8 * g.1) 0 12 = g.2 % 2 ^ 12 := by
  rw [State.ioBits, (State.grantOne_keeps l first s g).1 _ (by omega), ← State.ioBits, State.ioBits_ioField_self _ _ _ (by decide)]

section Fold
variable (l : Nat) (first : Bool) (s : State) (gs : List (Nat × Nat))

theorem State.grantAll_keeps : (gs.foldl (State.grantOne l first) s).pkg.granted = s.pkg.granted ∧
    (gs.foldl (State.grantOne l first) s).pkg.used = s.pkg.used := by
  induction gs generalizing s with
  | nil => exact ⟨rfl, rfl⟩
  | cons g gs ih =>
    obtain ⟨-, hgranted, hused⟩ := State.grantOne_keeps l first s g
    exact ⟨(ih _).1.trans hgranted, (ih _).2.trans hused⟩

/-- A partition that is given no grant keeps the one it has. -/
theorem State.ioGet_grantAll_ne {p : Nat} (hp : p < 8) (hne : ∀ g ∈ gs, p ≠ g.1) :
    (gs.foldl (State.grantOne l first) s).ioGet (0x4140 + 8 * p) = s.ioGet (0x4140 + 8 * p) := by
  induction gs generalizing s with
  | nil => rfl
  | cons g gs ih =>
    rw [List.foldl_cons, ih _ fun q hq => hne q (List.mem_cons_of_mem _ hq), State.ioGet_grantOne_ne l first s hp (hne g (List.mem_cons_self ..))]

/-- Partitions that are all given the grant 0 have it. -/
theorem State.ioBits_grantAll_zero {ps : List Nat} {p : Nat} (hp : p < 8) (hmem : p ∈ ps) :
    ((ps.map fun p => (p, 0)).foldl (State.grantOne l first) s).ioBits (0x4140 + 8 * p) 0 12 = 0 := by
  rw [List.foldl_map]
  refine foldl_reaches (I := fun _ => True) (P := fun (u : State) q => q < 8 → u.ioBits (0x4140 + 8 * q) 0 12 = 0) (key := fun q => q) (fun _ _ _ => trivial)
    (fun u q _ _ => State.ioBits_grantOne_self l first u (q, 0)) (fun u q j _ hne h hj => ?_) ps trivial (.inl (by rwa [List.map_id'])) hp
  rw [State.ioBits, State.ioGet_grantOne_ne l first u hj hne, ← State.ioBits]
  exact h hj

end Fold

theorem State.leakAll_keeps (s : State) : s.leakAll.pkg = s.pkg ∧ s.leakAll.io = s.io := by
  unfold State.leakAll
  induction (List.range 256).filter _ generalizing s with
  | nil => exact ⟨rfl, rfl⟩
  | cons c l ih => exact ih (s.setLeak c)

/-! Shares (R95). -/

/-- A cut changes grants and nothing else of a claim. -/
theorem cutRank_partitions (r n : Nat) (x : Rat) (l : List Grant) : (cutRank r n x l).2.map Grant.p = l.map Grant.p := by
  induction n generalizing x l with
  | zero => rfl
  | succ n ih =>
    unfold cutRank
    extract_lets inQ sum cut
    split
    · rfl
    · rw [ih, List.map_map]
      rfl

theorem foldl_cutRank_partitions (rs : List Nat) (x : Rat) (l : List Grant) :
    (rs.foldl (fun (q : Rat × List Grant) r => cutRank r 9 q.1 q.2) (x, l)).2.map Grant.p = l.map Grant.p := by
  generalize hq : (x, l) = q
  rw [show l = q.2 from congrArg Prod.snd hq]
  clear hq
  induction rs generalizing q with
  | nil => rfl
  | cons r rs ih => rw [List.foldl_cons, ih, cutRank_partitions]

/-- Every claim gets one share, in order. -/
theorem grantsOf_partitions (a : Int) (l : List Grant) : (grantsOf a l).map Prod.fst = l.map Grant.p := by
  unfold grantsOf
  extract_lets x mins
  have hcut := foldl_cutRank_partitions (List.range 8) x l
  split
  next y l2 heq =>
  rw [heq] at hcut
  split
  · rw [List.map_map]; rfl
  · split
    · rw [List.map_map]; rfl
    · rw [List.map_map]; exact hcut

theorem grantsOf_nothing {a : Int} (h : a ≤ 0) (l : List Grant) : grantsOf a l = l.map fun q => (q.p, 0) := if_pos h

theorem State.mem_claims (s : State) (p : Nat) : p ∈ s.claims.map Grant.p ↔ p < 8 ∧ s.partEn p = true := by
  rw [State.claims, List.map_map]
  simp

theorem State.shares_enabled {s : State} {used : Nat} {g : Nat × Nat} (h : g ∈ s.shares used) : s.partEn g.1 = true := by
  have hmem : g.1 ∈ (s.shares used).map Prod.fst := List.mem_map_of_mem h
  rw [State.shares, grantsOf_partitions] at hmem
  exact ((s.mem_claims g.1).mp hmem).2

theorem State.shares_nothing {s : State} {used : Nat} (h : s.limit ≤ used) : s.shares used = (s.claims.map Grant.p).map fun p => (p, 0) := by
  rw [State.shares, grantsOf_nothing (by omega), List.map_map]
  rfl

/-! The computation as a whole. -/

theorem State.recompute_notes (s : State) (used : Nat) : (s.recompute used).pkg.granted = true ∧ (s.recompute used).pkg.used = used := by
  obtain ⟨hgranted, hused⟩ := State.grantAll_keeps s.limit (!s.pkg.granted) (s.modPkg fun q => { q with granted := true, used }) (s.shares used)
  rw [State.recompute_eq, (State.leakAll_keeps _).1]
  exact ⟨hgranted, hused⟩

theorem State.ioGet_recompute_disabled (s : State) (used : Nat) {p : Nat} (hp : p < 8) (hdis : s.partEn p = false) :
    (s.recompute used).ioGet (0x4140 + 8 * p) = s.ioGet (0x4140 + 8 * p) := by
  rw [State.recompute_eq, State.ioGet, (State.leakAll_keeps _).2, ← State.ioGet, State.ioGet_grantAll_ne _ _ _ _ hp]
  · rfl
  · intro g hg heq
    rw [heq, State.shares_enabled hg] at hdis
    cases hdis

theorem State.ioBits_recompute_exhausted {s : State} {used p : Nat} (hlimit : s.limit ≤ used) (hp : p < 8) (hen : s.partEn p = true) :
    (s.recompute used).ioBits (0x4140 + 8 * p) 0 12 = 0 := by
  rw [State.recompute_eq, State.ioBits, State.ioGet, (State.leakAll_keeps _).2, ← State.ioGet, ← State.ioBits, State.shares_nothing hlimit]
  exact State.ioBits_grantAll_zero _ _ _ hp ((s.mem_claims p).mpr ⟨hp, hen⟩)

end Sys2Proof.Machine

namespace Sys2Proof.Proofs
open Sys2Proof Sys2Proof.Machine

/-- Settles O37: the end of a window is `opSettle` of the core that what waited leaves, a rail's or a sensor's step is one `ceilingStep`, and
the computation writes the grant of each enabled partition and no other's. -/
theorem powerResults : Obligations.PowerResults := by
  unfold Obligations.PowerResults
  intro s
  refine ⟨fun core => ?_, fun rail hr => ⟨?_, fun hover => ?_, fun hunder => ?_, fun hok => ?_⟩, fun lower => ?_, fun die temp => ?_, fun used => ?_⟩
  · intro c hopen
    obtain ⟨t, hexec, hcore⟩ := exec_settlingWindowEnd_core s core
    obtain ⟨hreq, hkept, hceil, hwait⟩ := Core.opWindowEnd_takes core hopen
    refine ⟨t, hexec, ?_⟩
    rw [hcore]
    refine ⟨Core.opWindowEnd_free core hopen, fun w hw => ?_, fun w hw hlt hle => ?_, fun p hk hw hat hle hp hne => ?_,
      fun p w hk hw => Core.opWindowEnd_both core hopen hk hw⟩
    · rw [hceil, Core.opCeilNext, hw]
      exact ⟨rfl, hwait⟩
    · obtain ⟨heff, hhwin⟩ := Core.opWindowEnd_lowered core hopen hw hlt hle
      exact ⟨heff, hhwin, hreq, hkept⟩
    · obtain ⟨heff, hpwin⟩ := Core.opWindowEnd_requested core hopen hk hw hat hle hp hne
      exact ⟨heff, hpwin, hkept⟩
  · have hover : (s.modPkg fun p => { p with railOver := p.railOver.ins rail.toNat () }).pkg.railOver.has rail.toNat = true := SMap.has_ins_self ..
    exact ⟨_, exec_railOvercurrent_rail hr, hover, fun c hc => State.energyHeld_of_rail hover hr hc⟩
  · exact ⟨exec_railCeilingLowerStep_over hr true hover, exec_railCeilingLowerStep_over hr false hover, exec_railCeilingRaiseStep_over hover⟩
  · exact ⟨exec_railCeilingRaiseStep_under hr hunder, fun high => exec_railCeilingLowerStep_under high hunder⟩
  · obtain ⟨hphok, heff⟩ := s.phaseLost_rail rail.toNat hr
    obtain ⟨hlost, hfew⟩ := s.phaseLost_status hr
    have hio (o : Nat) : ((((s.phaseLost rail.toNat).msi 248).alert 1).noticeAll 1 (railCores rail.toNat)).ioGet o = (s.phaseLost rail.toNat).ioGet o := by
      rw [State.ioGet_noticeAll, State.ioGet_alert, State.ioGet_msi]
    refine ⟨_, exec_phaseFail_rail hr hok, ?_, ?_, ?_, ?_, fun c hc => State.noticeAll_pending _ (by decide) hc⟩
    · rw [State.ioBits, hio]; exact hphok
    · rw [State.ioBits, hio]; exact heff
    · rw [hio]; exact hlost
    · rw [hio]; exact hfew
  · rw [s.ceilingStep_ctl (by decide) (by decide) (by decide) lower 1, List.foldl_map]
    rfl
  · intro u v throt trip
    rw [exec_thermalCeilingStep_eq s die temp (v := v) rfl]
    refine ⟨fun htrip => ?_, fun htrip => ⟨fun hhot => ?_, fun hcool => ?_, fun hle hlt => ?_⟩⟩
    · rw [if_pos htrip]
    · rw [if_neg (Nat.not_le.mpr htrip), if_pos hhot]
    · rw [if_neg (Nat.not_le.mpr htrip), if_neg (Nat.not_lt.mpr (Nat.le_of_add_right_le hcool)), if_pos hcool]
    · rw [if_neg (Nat.not_le.mpr htrip), if_neg (Nat.not_lt.mpr hle), if_neg (Nat.not_le.mpr hlt)]
  · obtain ⟨hgranted, hused⟩ := s.recompute_notes used
    exact ⟨_, rfl, hgranted, hused, fun p hp => s.ioGet_recompute_disabled used hp, fun hlimit p hp => State.ioBits_recompute_exhausted hlimit hp⟩

end Sys2Proof.Proofs
end

section
/-! SUPPORT. Losses that have been found (R146): the operations of memory add to `stopq` and take nothing from it, so that what is known
to be lost stays known. -/
namespace Sys2Proof.Machine
open Sys2Proof

/-! Folds. -/

theorem State.stopq_foldl {known : List (Nat × Nat)} {α : Type} {f : State → α → State}
    (hf : ∀ u x, known <+: u.stopq → known <+: (f u x).stopq) (l : List α) {s : State} (h : known <+: s.stopq) : known <+: (l.foldl f s).stopq := by
  induction l generalizing s with
  | nil => exact h
  | cons x l ih => exact ih (hf s x h)

/-- The same for a fold whose value holds the state in a part of it. -/
theorem State.stopq_foldlIn {known : List (Nat × Nat)} {α β : Type} (view : β → State) {f : β → α → β}
    (hf : ∀ q x, known <+: (view q).stopq → known <+: (view (f q x)).stopq) (l : List α) {q : β} (h : known <+: (view q).stopq) :
    known <+: (view (l.foldl f q)).stopq := by
  induction l generalizing q with
  | nil => exact h
  | cons x l ih => exact ih (hf q x h)

namespace State
variable {known : List (Nat × Nat)} {s : State} (h : known <+: s.stopq)
include h

theorem stopq_cond (c : Prop) [Decidable c] {t : State} (ht : known <+: t.stopq) : known <+: (if c then t else s).stopq := by
  split
  · exact ht
  · exact h

/-! Charges, records, retired frames. -/

theorem stopq_charge (ctx k n : Nat) : known <+: (s.charge ctx k n).stopq := by grind [charge, ioSet_stopq]

theorem stopq_lineRecord (kind flags owner ctx line way : Nat) : known <+: (s.lineRecord kind flags owner ctx line way).stopq := h

theorem stopq_wdrop : known <+: s.wdrop.stopq := h

theorem stopq_overflowed (r : Nat) : known <+: (s.overflowed r).stopq := h

theorem stopq_retireFrame (pa : Nat) : known <+: (s.retireFrame pa).1.stopq := by grind [retireFrame, tlbLose, ioSet_stopq]

/-! Sectors: what stands below L2, and copies elsewhere. -/

theorem stopq_keepBelow (k : Nat) : known <+: (s.keepBelow k).stopq := by grind [keepBelow]

theorem stopq_showBelow (k : Nat) : known <+: (s.showBelow k).stopq := by grind [showBelow, writePhys_stopq]

theorem stopq_encrypt (sector slot : Nat) : known <+: (s.encrypt sector slot).stopq := by grind [encrypt]

theorem stopq_storeBelow (sec slot : Nat) : known <+: (s.storeBelow sec slot).stopq := stopq_encrypt h sec slot

theorem stopq_send (ch : Nat) (b : List Byte) : known <+: (s.send ch b).stopq := h

theorem stopq_snoopNow (line : Nat) : known <+: (s.snoopNow line).stopq := by grind [snoopNow, stopq_send]

theorem stopq_wake (line : Nat) : known <+: (s.wake line).stopq := h

theorem stopq_invalidate (sector writer : Nat) (own : Bool) : known <+: (s.invalidate sector writer own).stopq := h

theorem stopq_dropCopies (sector writer : Nat) (own : Bool) : known <+: (s.dropCopies sector writer own).stopq := by
  grind [dropCopies, stopq_invalidate, stopq_snoopNow, stopq_wake]

/-! Lines: fills, writebacks, disabled ways. -/

theorem stopq_fillSector (line i : Nat) (a : L2Acc) : known <+: (s.fillSector line i a).stopq := by
  grind [fillSector, stopq_charge, stopq_lineRecord, stopq_keepBelow, writePhys_stopq]

theorem stopq_refetch (n line i flags : Nat) (a : L2Acc) : known <+: (s.refetch n line i flags a).stopq := by
  grind [refetch, stopq_lineRecord, stopq_showBelow, stopq_fillSector]

theorem stopq_noteCor (n : Nat) (l : L2Line) (skip ctx : Nat) : known <+: (s.noteCor n l skip ctx).stopq :=
  stopq_foldl (fun _ _ hu => stopq_lineRecord hu ..) _ h

theorem stopq_writeBack (n : Nat) (l : L2Line) (chargeTo : Nat) : known <+: (s.writeBack n l chargeTo).stopq := by
  refine stopq_foldl (fun u i hu => ?_) [0, 1] h
  grind [stopq_charge, stopq_wdrop, stopq_storeBelow]

theorem stopq_dropLine (n : Nat) : known <+: (s.dropLine n).stopq := by grind [dropLine, stopq_wake, stopq_showBelow]

theorem stopq_disableWay (n : Nat) : known <+: (s.disableWay n).stopq := stopq_dropLine h n

/-! Decks: the apply of a region and what its reads find. -/

theorem stopq_deckFill (line ctx : Nat) : known <+: (s.deckFill line ctx).stopq := by
  refine stopq_foldl (fun u i hu => ?_) [0, 1] h
  grind [stopq_fillSector]

theorem stopq_applyKey (op fxp ctx r key : Nat) (d : DeckVal) : known <+: (s.applyKey op fxp ctx r key d).stopq := by
  grind [applyKey, stopq_keepBelow, stopq_dropCopies, stopq_overflowed, writePhys_stopq]

theorem stopq_applyCheck (ctx sec : Nat) : known <+: (s.applyCheck ctx sec).2.stopq := by grind [applyCheck, stopq_refetch]

theorem stopq_applyOne (r slice : Nat) : known <+: (s.applyOne r slice).2.stopq := by
  unfold applyOne
  extract_lets op fxp ctx k deck nrun s1 s2
  have h2 : known <+: s2.stopq := stopq_foldl (fun u q hu => by grind [stopq_lineRecord]) _ (stopq_charge h ..)
  clear_value s2
  split
  next runs bad _ =>
  extract_lets runs' all s3 secs
  have h3 : known <+: s3.stopq := stopq_foldl (fun u line hu => stopq_deckFill hu line ctx) _ h2
  clear_value s3
  split
  next found s4 hread =>
  have h4 : known <+: s4.stopq := by
    rw [show s4 = _ from (congrArg Prod.snd hread).symm]
    split
    · exact h3
    · exact stopq_foldlIn Prod.snd (fun q x hq => stopq_applyCheck hq ctx x.1) secs (q := ([], s3)) h3
  extract_lets us s5 s6 s7 keys
  have h5 : known <+: s5.stopq := by grind [stopq_overflowed]
  clear_value s5
  have h6 : known <+: s6.stopq := by
    unfold s6
    split
    · refine stopq_foldl (fun u q hu => ?_) us h5
      have hkept := stopq_keepBelow (stopq_keepBelow (stopq_deckFill hu q.2.tag ctx) (q.2.tag * 2)) (q.2.tag * 2 + 1)
      have halone := stopq_dropCopies (stopq_dropCopies hkept (q.2.tag * 2) 1000 false) (q.2.tag * 2 + 1) 1000 false
      refine stopq_lineRecord ?_ ..
      split <;> exact halone
    · exact stopq_foldl (α := Nat × DeckVal) (fun u q hu => stopq_applyKey hu op fxp ctx r q.1 q.2) all h5
  exact stopq_foldl (fun u line hu => by grind) keys (s := s7) h6

theorem stopq_applyRest (line : Nat) : known <+: (s.applyRest line).2.stopq := by
  refine stopq_foldlIn Prod.snd (fun q r hq => ?_) (s.rgnsFor line) (q := ([], s)) h
  exact stopq_applyOne hq r (s.home line)

/-! Containment: lost lines and disabled ways. -/

theorem stopq_loseCore (n tag owner bad : Nat) (scrub : Bool) (ctx : Nat) :
    known <+: (s.loseCore n tag owner bad scrub ctx).stopq := by
  unfold loseCore
  extract_lets s1 s2
  have h1 : known <+: s1.stopq := by
    unfold s1
    split
    · exact stopq_writeBack (stopq_noteCor h ..) ..
    · exact h
  have h3 := stopq_retireFrame (stopq_disableWay h1 n) (tag * 64)
  split
  next heq =>
  rw [heq] at h3
  exact h3.trans (List.prefix_append ..)

theorem stopq_poisonBad (l : L2Line) : known <+: (s.poisonBad l).stopq := stopq_foldl (fun _ _ hu => by exact hu) _ h

theorem stopq_countUp (n line flags ctx : Nat) : known <+: (s.countUp n line flags ctx).2.stopq := by grind [countUp, stopq_lineRecord]

theorem stopq_wayGone (n line flags ctx : Nat) : known <+: (s.wayGone n line flags ctx).stopq := by
  grind [wayGone, stopq_noteCor, stopq_poisonBad, stopq_loseCore, stopq_writeBack, stopq_disableWay, stopq_lineRecord]

theorem stopq_settle (fuel : Nat) (found : List Nat) : known <+: (settle fuel found s).stopq := by
  induction fuel generalizing found s with
  | zero => exact h
  | succ fuel ih =>
    cases found with
    | nil => exact h
    | cons sec rest =>
      unfold settle
      split
      next => exact ih h rest
      next n l _ =>
        extract_lets bad
        refine stopq_cond (stopq_cond (ih h rest) _ ?_) _ ?_
        · have hcount := stopq_countUp h n l.tag (2 * 2 ^ (sec % 2)) 64
          split
          next t heq => exact ih (by rwa [heq] at hcount) rest
          next t heq =>
            rw [heq] at hcount
            exact ih (stopq_wayGone (stopq_applyRest hcount l.tag) ..) _
        · exact ih (stopq_loseCore (stopq_applyRest (stopq_poisonBad h l) l.tag) ..) _

theorem stopq_applyRegion (r slice : Nat) : known <+: (s.applyRegion r slice).stopq := stopq_settle (stopq_applyOne h r slice) 64 _

theorem stopq_applyLine (line : Nat) : known <+: (s.applyLine line).stopq := by
  have hregions := stopq_foldl (fun u r hu => stopq_applyRegion hu r (u.home line)) (s.rgnsFor line) h
  grind [applyLine]

theorem stopq_loseLine (n : Nat) (scrub : Bool) (ctx : Nat) : known <+: (s.loseLine n scrub ctx).stopq := by
  grind [loseLine, stopq_poisonBad, stopq_applyLine, stopq_loseCore]

theorem stopq_countCorrected (n line flags ctx : Nat) : known <+: (s.countCorrected n line flags ctx).stopq := by
  grind [countCorrected, stopq_countUp, stopq_applyLine, stopq_wayGone]

theorem stopq_evict (n : Nat) : known <+: (s.evict n).stopq := by
  unfold evict
  split
  · exact h
  · extract_lets s1
    have h1 : known <+: s1.stopq := stopq_applyLine h _
    split
    · exact h1
    · refine stopq_cond ?_ _ (stopq_loseLine h1 ..)
      exact stopq_foldl (fun _ i hu => stopq_countCorrected hu ..) _ (stopq_dropLine (stopq_writeBack h1 ..) n)

/-! Slice retirement. -/

theorem stopq_retireSlice (slice : Nat) : known <+: (s.retireSlice slice).stopq := by
  unfold retireSlice
  -- the lists' entries play no part: no check of this proof is to count them out
  generalize List.range 4096 = places, List.range 256 = regions
  extract_lets live s1 s2 o s3 next
  have h1 : known <+: s1.stopq := stopq_foldl (fun u r hu => by grind [stopq_applyRegion]) regions h
  have h2 : known <+: s2.stopq := stopq_foldl (fun u q hu => by grind [stopq_evict]) _ h1
  refine stopq_cond ?_ _ h
  split
  next s4 _ hmap =>
  have h4 : known <+: s4.stopq := by
    rw [show s4 = _ from (congrArg Prod.fst hmap).symm]
    refine stopq_foldlIn Prod.fst (fun q i hq => ?_) _ (q := (s3, slice)) h2
    dsimp only
    split <;> exact hq
  exact h4

/-! Accesses to a line (R136, R137, R138, R145). -/

theorem stopq_sweepDone : known <+: s.sweepDone.stopq := by
  rw [sweepDone_eq]
  refine stopq_foldl (fun u q hu => ?_) _ h
  obtain ⟨m, hm⟩ := u.sweepSector_eq q.1
  rw [hm]
  exact stopq_wake (stopq_showBelow (s := { u with poison := u.poison.del q.1 }) hu q.1) (q.1 / 2)

theorem stopq_victim {t : State} {sn w : Nat} {cands : List Nat} (hway : s.victim sn cands = some (w, t)) : known <+: t.stopq := by
  unfold victim at hway
  dsimp only at hway
  split at hway
  · cases hway; exact h
  · split at hway <;> cases hway
    exact h

theorem stopq_wayFor {t : State} {line w : Nat} {resv : Bool} (hway : s.wayFor line resv = some (w, t)) : known <+: t.stopq := by
  unfold wayFor at hway
  dsimp only at hway
  split at hway
  · obtain ⟨x, -, hx⟩ := Option.map_eq_some_iff.mp hway
    cases hx; exact h
  · exact stopq_victim h hway

theorem stopq_allocateIn (fuel line : Nat) (a : L2Acc) : known <+: (allocateIn fuel line a s).stopq := by
  induction fuel generalizing s with
  | zero => exact h
  | succ fuel ih => grind [allocateIn, stopq_wayFor, stopq_evict, readySlice, stopq_retireSlice]

theorem stopq_allocate (line : Nat) (a : L2Acc) : known <+: (s.allocate line a).stopq := stopq_allocateIn (stopq_retireSlice h _) 17 line a

theorem stopq_checkErr (line i : Nat) (a : L2Acc) : known <+: (s.checkErr line i a).stopq := by
  grind [checkErr, stopq_countCorrected, stopq_loseLine, stopq_refetch]

theorem stopq_needSector (line i : Nat) (a : L2Acc) : known <+: (s.needSector line i a).stopq := by
  grind [needSector, forgetWords, stopq_checkErr, stopq_fillSector]

theorem stopq_mergeBelow (line i : Nat) (a : L2Acc) : known <+: (s.mergeBelow line i a).stopq := by
  grind [mergeBelow, stopq_storeBelow, stopq_lineRecord, stopq_encrypt, writePhys_stopq]

theorem stopq_wroteSector (line i : Nat) (a : L2Acc) : known <+: (s.wroteSector line i a).stopq := by
  grind [wroteSector, stopq_mergeBelow, stopq_storeBelow, stopq_keepBelow]

theorem stopq_spillLine (line : Nat) (a : L2Acc) : known <+: (s.spillLine line a).stopq := by
  refine stopq_foldl (fun u i hu => ?_) [0, 1] h
  grind [stopq_mergeBelow, stopq_charge]

theorem stopq_l2Access (line : Nat) (a : L2Acc) : known <+: (s.l2Access line a).stopq := by
  unfold l2Access
  extract_lets s1 s2 s3 hit kept s4 s5 gone lost s6 s7 s8 s9
  have h1 : known <+: s1.stopq := stopq_retireSlice h _
  have h3 : known <+: s3.stopq := stopq_applyLine (stopq_cond h1 _ (stopq_sweepDone h1)) line
  have h4 : known <+: s4.stopq := stopq_cond (stopq_allocate h3 line a) _ h3
  have h5 : known <+: s5.stopq := stopq_needSector h4 line 0 a
  have h7 : known <+: s7.stopq := stopq_needSector (stopq_cond h5 _ (stopq_allocate h5 line a)) line 1 a
  have h8 : known <+: s8.stopq := stopq_cond h7 _ (stopq_needSector (stopq_needSector (stopq_allocate h7 line a) line 0 a) line 1 a)
  have h9 : known <+: s9.stopq := by
    clear_value s8
    unfold s9
    split <;> exact h8
  exact stopq_cond (stopq_cond h9 _ (stopq_wroteSector (stopq_wroteSector h9 line 0 a) line 1 a)) _ (stopq_spillLine h3 line a)

theorem stopq_l2Read (pa n ctx key u : Nat) : known <+: (s.l2Read pa n ctx key u).stopq := by
  unfold l2Read
  exact stopq_cond h _ (stopq_foldl (fun _ l hu => stopq_l2Access hu l _) _ h)

theorem stopq_l2Put (pa mask : Nat) (b : List Byte) (a : L2Acc) : known <+: (s.l2Put pa mask b a).stopq := by
  unfold l2Put
  extract_lets n whole s1
  have h1 : known <+: s1.stopq := by
    unfold s1
    split
    · exact stopq_foldl (fun _ l hu => stopq_l2Access hu l _) _ h
    · exact h
  split
  · exact stopq_wdrop h1
  · exact h1

/-! Recalls, links and the accesses of an agent (R29-R31, R133, R152). -/

theorem stopq_spScan (core sa n : Nat) : known <+: (s.spScan core sa n).stopq := by
  refine stopq_foldl (fun u k hu => ?_) _ h
  grind [setCore_stopq, record]

theorem stopq_stashPut (core pa key : Nat) (r : Recalled) : known <+: (s.stashPut core pa key r).stopq := by
  grind [stashPut, l2Write, stopq_dropCopies, stopq_l2Put]

theorem stopq_recall (sector except : Nat) : known <+: (s.recall sector except).stopq := by
  refine stopq_foldl (fun u q hu => ?_) _ h
  split
  · exact hu
  · refine stopq_foldl (fun v e hv => ?_) _ hu
    grind [stopq_spScan, setCore_stopq, stopq_stashPut]

theorem stopq_hostEnter (line : Nat) (excl : Bool) : known <+: (s.hostEnter line excl).stopq := by grind [hostEnter, stopq_wake]

theorem stopq_hostTouch (pa n : Nat) (excl : Bool) : known <+: (s.hostTouch pa n excl).stopq := by
  have henter := stopq_foldl (fun _ l hu => stopq_hostEnter hu l excl) (linesOf pa n) h
  grind [hostTouch]

theorem stopq_fetchData (a : Agent) (pa n key u : Nat) : known <+: (s.fetchData a pa n key u).2.stopq := by
  have hrecall := stopq_foldl (fun _ k hv => stopq_recall hv k a.id) (sectorsOf pa n) h
  grind [fetchData, hostOver, modCore_stopq, stopq_l2Read, stopq_hostTouch]

/-! Translation and the stash (R125-R129, R132, R133). -/

theorem stopq_walkL2 (ctx va fuel level base : Nat) : known <+: (walkL2 ctx va fuel level base s).2.stopq := by
  induction fuel generalizing level base s with
  | zero => exact h
  | succ fuel ih => grind [walkL2, stopq_fetchData]

theorem stopq_tlbAdd (unit core ctx va : Nat) (l : Leaf) : known <+: (s.tlbAdd unit core ctx va l).stopq := by
  unfold tlbAdd
  extract_lets key set rivals s1
  have h1 : known <+: s1.stopq := by
    refine stopq_cond ?_ _ h
    split <;> exact h
  exact h1

theorem stopq_xlatePage (w : Who) (k : AccKind) (va : Nat) : known <+: (s.xlatePage w k va).2.stopq := by
  unfold xlatePage
  dsimp only
  split
  · exact h
  split
  · exact h
  split
  · exact h
  split
  · exact h
  split
  · exact stopq_tlbAdd h ..
  split
  · exact h
  next base _ _ _ _ _ _ =>
  have hwalk := stopq_walkL2 h w.ctx va 3 1 base
  split
  next heq => rwa [heq] at hwalk
  next heq => exact stopq_tlbAdd (stopq_tlbAdd (by rwa [heq] at hwalk) ..) ..

theorem stopq_stashFill (core : Nat) (who : Who) (k : Nat) (w : Window) : known <+: (s.stashFill core who k w).2.stopq := by
  grind [stashFill, stopq_xlatePage, setCore_stopq, stopq_fetchData]

/-! Loads of the main sequencer (R139, R177, R377). -/

theorem stopq_sdcAdd (core line : Nat) : known <+: (s.sdcAdd core line).stopq := by grind [sdcAdd, modCore_stopq]

theorem stopq_loadGlobal (core : Nat) (rel : List Rel) (p : Piece) (u : Nat) (small : Bool) : known <+: (s.loadGlobal core rel p u small).2.stopq := by
  have hlines {v : State} (hv : known <+: v.stopq) := stopq_foldl (fun _ l hu => stopq_sdcAdd hu core l) (linesOf p.pa p.n) hv
  grind [loadGlobal, stopq_fetchData]

theorem stopq_loadPiece (w : Who) (rel : List Rel) (p : Piece) (u : Nat) (small : Bool) : known <+: (s.loadPiece w rel p u small).2.stopq := by
  grind [loadPiece, stopq_loadGlobal, stopq_stashFill, stopq_spScan]

end State

end Sys2Proof.Machine
end

section
/-! Deliveries: loads, queue entries, atomics, waitlines and copies (R84, R87, R202, R218, R329, R336, R337, R377, R383, R414, R415). -/
namespace Sys2Proof.Machine
open Sys2Proof

/-! Wait tokens (R202). -/

theorem Core.tokOf_tokDone_self (c : Core) (t : Nat) (cause : Cause) : (c.tokDone t cause false).arch.tokOf t =
    { cnt := (c.arch.tokOf t).cnt - 1, cause := if (c.arch.tokOf t).cause = 0 then cause else (c.arch.tokOf t).cause } :=
  SMap.getD_put_self ..

theorem Core.tokOf_tokDone_zero (c : Core) (t : Nat) : (c.tokDone t 0 false).arch.tokOf t =
    { cnt := (c.arch.tokOf t).cnt - 1, cause := (c.arch.tokOf t).cause } := by
  rw [Core.tokOf_tokDone_self]
  congr 1
  split
  next hzero => exact hzero.symm
  next => rfl

@[simp] theorem Core.cnt_tokDone_self (c : Core) (t : Nat) (cause : Cause) :
    ((c.tokDone t cause false).arch.tokOf t).cnt = (c.arch.tokOf t).cnt - 1 := by rw [Core.tokOf_tokDone_self]

@[simp] theorem Core.rS_tokDone (c : Core) (t : Nat) (cause : Cause) (r : Nat) : (c.tokDone t cause false).rS r = c.rS r := rfl

@[simp] theorem Core.rV_tokDone (c : Core) (t : Nat) (cause : Cause) (r : Nat) : (c.tokDone t cause false).rV r = c.rV r := rfl

/-! Reads of a list of pieces, and the losses that they find (R146, R463). -/

theorem State.readPieces_state (s : State) (w : Who) (rel : List Rel) (u : Nat) (small : Bool) (ps : List Piece) :
    (s.readPieces w rel u small ps).2 = ps.foldl (fun v p => (v.loadPiece w rel p u small).2) s :=
  (List.foldl_hom Prod.snd (fun _ _ => rfl)).symm

theorem State.stopq_readPieces (s : State) (w : Who) (rel : List Rel) (u : Nat) (small : Bool) (ps : List Piece) :
    s.stopq <+: (s.readPieces w rel u small ps).2.stopq := by
  rw [State.readPieces_state]
  exact State.stopq_foldl (fun v p hv => State.stopq_loadPiece hv w rel p u small) ps (List.prefix_refl _)

theorem State.lostSince_same {s t : State} (h : t.stopq = s.stopq) (ctx : Nat) (reads : Nat → Bool) : t.lostSince s ctx reads = false := by
  simp [State.lostSince, h]

/-- Each piece's read adds to the losses known: when none is known after the last that was not before the first, none found one. -/
theorem State.lossOf_eq_none {s : State} {w : Who} {rel : List Rel} {u : Nat} {small : Bool} {ps : List Piece}
    (h : (s.readPieces w rel u small ps).2.stopq = s.stopq) : s.lossOf w rel u small ps = none := by
  induction ps generalizing s with
  | nil => rfl
  | cons p ps ih =>
    have hfirst : s.stopq <+: (s.loadPiece w rel p u small).2.stopq := State.stopq_loadPiece (List.prefix_refl _) ..
    have hrest := (s.loadPiece w rel p u small).2.stopq_readPieces w rel u small ps
    rw [State.readPieces_state, List.foldl_cons, ← State.readPieces_state] at h
    have hsame : (s.loadPiece w rel p u small).2.stopq = s.stopq :=
      (hfirst.eq_of_length_le (h ▸ hrest.length_le)).symm
    simp [State.lossOf, State.lostSince_same hsame, ih (h.trans hsame.symm)]

/-! The access queue and the data queue (R336, R337). -/

theorem exec_queueLoaderRead_next {s : State} {core : Nat} {e : AqEntry} {r : List AqEntry} (haq : (s.core core).aq = e :: r) (harr : e.arr = none) :
    exec (.queueLoaderRead core) s = .next (s.modCore core fun c =>
      { c with aq := r, dq := c.dq ++ [⟨e.seq, e.tok, e.z, e.pieces, e.cls, e.relN, none, 0, e.u, e.site⟩] }) := by
  rw [exec_queueLoaderRead, execQueueLoaderRead]
  simp only [State.queueRead, haq, harr, State.arriveLate]

theorem State.queueFill_of_readPieces {s u : State} {core : Nat} {e : DqEntry} {cause : Cause} {bs : List (Nat × List Byte)}
    (he : (s.core core).dq.find? (fun e => e.data.isNone) = some e)
    (hread : s.readPieces (s.mainWho core) (s.seenBy core e.relN) e.u (decide (e.z < 4)) e.pieces = ((cause, bs), u)) (hkept : u.stopq = s.stopq) :
    s.queueFill core = u.modCore core fun c =>
      { c with dq := c.dq.map fun (d : DqEntry) => if d.seq = e.seq then { d with data := some (BitVec.ofNat 256 (placed bs)), cause } else d }.tokDone e.tok 0 false := by
  have hloss := State.lossOf_eq_none (by rwa [hread])
  simp only [State.queueFill, he, hread, hloss]

theorem exec_dqEntryFilled_ready {s : State} {core : Nat} {e : DqEntry} (he : (s.core core).dq.find? (fun e => e.data.isNone) = some e)
    (hready : (s.core core).readReady e.seq e.cls e.pieces = true) (hmeets : s.meetsFlight core false e.pieces = false) :
    exec (.dqEntryFilled core) s = .next (s.queueFill core) := by
  rw [exec_dqEntryFilled, execDqEntryFilled]
  simp [he, hready, hmeets]

/-! Loads (R377). -/

section
variable {s u : State} {core : Nat} {l : PLoad} {bs : List (Nat × List Byte)} (harr : l.arr = none) (hkept : u.stopq = s.stopq)
include harr hkept

theorem State.finishLoad_scalar {r z : Nat} {sx : Bool} (hdst : l.dst = .s r z sx)
    (hread : s.readPieces (s.mainWho core) (s.seenBy core l.relN) l.u true l.pieces = ((0, bs), u)) :
    s.finishLoad core l = u.modCore core fun c =>
      { c with
        arch := { c.arch with s := c.arch.s.put 0 r (loadValue sx (2 ^ z) (bytesOf (2 ^ z) (placed bs))) }
        loads := c.loads.filter (·.seq != l.seq) }.tokDone l.tok 0 false := by
  have hloss := State.lossOf_eq_none (by rwa [hread])
  simp [State.finishLoad, hdst, hread, hloss, harr, State.arriveLate]

theorem State.finishLoad_vector {r : Nat} {m : Vec} (hdst : l.dst = .v r m)
    (hread : s.readPieces (s.mainWho core) (s.seenBy core l.relN) l.u false l.pieces = ((0, bs), u)) :
    s.finishLoad core l = u.modCore core fun c =>
      { c with
        arch := { c.arch with v := c.arch.v.put 0 r (blend (c.arch.v.getD r 0) (BitVec.ofNat 1024 (placed bs)) m) }
        loads := c.loads.filter (·.seq != l.seq) }.tokDone l.tok 0 false := by
  have hloss := State.lossOf_eq_none (by rwa [hread])
  simp [State.finishLoad, hdst, hread, hloss, harr, State.arriveLate]

end

theorem exec_globalLoadComplete_ready {s : State} {core k : Nat} {l : PLoad} (hl : (s.core core).loads[k]? = some l)
    (hready : (s.core core).readReady l.seq l.cls l.pieces = true) (hmeets : s.meetsFlight core false l.pieces = false) :
    exec (.globalLoadComplete core k) s = .next (s.finishLoad core l) := by
  rw [exec_globalLoadComplete, execGlobalLoadComplete]
  simp [hl, hready, hmeets]

theorem getLsbD_blend_ofNat {n i : Nat} (x m : BitVec n) (v : Nat) (hi : i < n) :
    (blend x (BitVec.ofNat n v) m).getLsbD i = if m.getLsbD i then v.testBit i else x.getLsbD i := by
  simp only [blend, BitVec.getLsbD_or, BitVec.getLsbD_and, BitVec.getLsbD_not, BitVec.getLsbD_ofNat, hi, decide_true, Bool.true_and]
  cases m.getLsbD i <;> simp

/-! Atomics (R383). -/

theorem exec_atomicComplete_some {s : State} {core k : Nat} {p : PAtom} (hp : (s.core core).atoms[k]? = some p) (harr : p.arr = none) :
    exec (.atomicComplete core k) s = .next (s.modCore core fun c =>
      { c with
        arch := if p.cause ≠ 0 then c.arch else { c.arch with s := c.arch.s.put 0 p.dst p.res }
        atoms := c.atoms.filter (·.seq != p.seq) }.tokDone p.tok p.cause false) := by
  rw [exec_atomicComplete, execAtomicComplete]
  simp only [hp, State.finishAtom, harr, State.arriveLate]

/-! Waitlines (R329). -/

theorem State.finishWatch_of_cause {s : State} {core : Nat} {w : Watch} (harr : w.arr = none) (hcause : w.cause ≠ 0) :
    s.finishWatch core w = s.modCore core fun c => { c with watches := c.watches.filter (·.seq != w.seq) }.tokDone w.tok w.cause false := by
  simp only [State.finishWatch, hcause, harr, State.arriveLate, ne_eq, not_false_eq_true, if_true]

theorem State.finishWatch_of_readPieces {s u : State} {core : Nat} {w : Watch} {b : List (Nat × List Byte)} (harr : w.arr = none) (hcause : w.cause = 0)
    (hread : s.readPieces (s.mainWho core) (s.seenBy core w.relN) 2 false [⟨w.va, w.pa, 8, 0, w.key⟩] = ((0, b), u)) :
    s.finishWatch core w = u.modCore core fun c =>
      { c with
        watches := c.watches.filter (·.seq != w.seq)
        arch := { c.arch with s := c.arch.s.put 0 w.dst (BitVec.ofNat 64 (placed b)) } }.tokDone w.tok 0 false := by
  have hvalue : BitVec.ofNat 64 (natOf (bytesOf 8 (placed b))) = BitVec.ofNat 64 (placed b) := by
    rw [natOf_bytesOf]
    exact BitVec.eq_of_toNat_eq (by simp)
  simp only [State.finishWatch, hcause, hread, harr, State.arriveLate, hvalue, ne_eq, not_true_eq_false, if_false]

theorem exec_waitlineWake_awake {s : State} {core k : Nat} {w : Watch} (hw : (s.core core).watches[k]? = some w) (h : w.asleep = false) :
    exec (.waitlineWake core k) s = .next (s.finishWatch core w) := by
  rw [exec_waitlineWake, execWaitlineWake]
  simp [hw, h]

theorem exec_waitlineTimeout_timed {s : State} {core k : Nat} {w : Watch} (hw : (s.core core).watches[k]? = some w) (h : w.tmo ≠ 31) :
    exec (.waitlineTimeout core k) s = .next (s.finishWatch core w) := by
  rw [exec_waitlineTimeout, execWaitlineTimeout]
  simp only [hw, h, if_false]

/-- Either way a sleep may end, the watch is finished. -/
theorem exec_sleepEnd {s : State} {core k : Nat} {w : Watch} (hw : (s.core core).watches[k]? = some w) {i : Instr}
    (hi : i ∈ (if w.asleep then [] else [Instr.waitlineWake core k]) ++ (if w.tmo = 31 then [] else [.waitlineTimeout core k])) :
    exec i s = .next (s.finishWatch core w) := by
  rcases List.mem_append.mp hi with hwake | htimeout
  · split at hwake
    · cases hwake
    next hawake =>
      rw [List.mem_singleton.mp hwake]
      exact exec_waitlineWake_awake hw (Bool.eq_false_of_not_eq_true hawake)
  · split at htimeout
    · cases htimeout
    next htimed =>
      rw [List.mem_singleton.mp htimeout]
      exact exec_waitlineTimeout_timed hw htimed

/-! Commands of the engines (R84, R87, R414, R415). -/

theorem Core.engineFree_iff (c : Core) (k : Cmd) : c.engineFree k = true ↔
    c.engineLoad k.eng < 16 ∧ ∀ y ∈ c.cmds, y.released = true → y.started = false → y.eng = k.eng → k.seq ≤ y.seq := by
  simp [Core.engineFree]

theorem State.started_of_cmdReady {s : State} {core : Nat} {x : Cmd} (hready : s.cmdReady core x = true) : x.started = true := by
  simp only [State.cmdReady, Bool.and_eq_true] at hready
  tauto

section
variable {s : State} {core k : Nat} {x : Cmd} (hx : (s.core core).cmds[k]? = some x)
include hx

theorem exec_copyComplete_waiting (hrel : x.released = true) (hstart : x.started = false) :
    exec (.copyComplete core k) s = .next (if (s.core core).engineFree x && s.pkg.keyOp.isEmpty then s.beginCmd core x.seq else s) := by
  rw [exec_copyComplete, execCopyComplete]
  simp [hx, hrel, hstart]

theorem exec_copyComplete_held (hstart : x.started = true) (hheld : (s.core core).enginesHeld = true) :
    exec (.copyComplete core k) s = .next s := by
  rw [exec_copyComplete, execCopyComplete]
  simp [hx, hstart, hheld]

section
variable (hready : s.cmdReady core x = true) (hsent : x.sent = false) (hfree : (s.core core).enginesHeld = false)
  (hturn : (x.isNet && s.netWaits x) = false) {n : Nat} (hparts : x.parts.getD (s.partsOf core x) = n)
include hready hsent hfree hturn hparts

theorem exec_copyComplete_moves (hmore : x.moved + 1 < n) :
    exec (.copyComplete core k) s = .next ((s.spend core (engUnits 4) false).modCore core fun y => { y with cmds := y.cmds.map fun z =>
      if z.seq = x.seq then { z with moved := z.moved + 1, parts := some n } else z }) := by
  have hleft : x.moved < n := Nat.lt_of_succ_lt hmore
  rw [exec_copyComplete, execCopyComplete]
  simp only [hx, State.started_of_cmdReady hready, hready, hsent, hfree, hturn, hparts, hmore, hleft, Bool.not_true, Bool.and_false, Bool.or_false,
    Bool.false_eq_true, if_false, if_true]

theorem exec_copyComplete_last (hlast : n ≤ x.moved + 1) :
    let v := if x.moved < n then s.spend core (engUnits 4) false else s
    exec (.copyComplete core k) s = .next (if x.isNet then v.netSend core x else v.copyDone core x) := by
  rw [exec_copyComplete, execCopyComplete]
  simp only [hx, State.started_of_cmdReady hready, hready, hsent, hfree, hturn, hparts, hlast.not_gt, Bool.not_true, Bool.and_false, Bool.or_false,
    Bool.false_eq_true, if_false]

end

end

end Sys2Proof.Machine

namespace Sys2Proof.Proofs
open Sys2Proof Sys2Proof.Machine

/-- Settles O46: each operation's end is one update of its core, made on the state that its read leaves; a read after which no loss is known that
was not before found none (R146, R463), so that its value arrives. -/
theorem deliveryResults : Obligations.DeliveryResults := by
  unfold Obligations.DeliveryResults
  intro s core k
  dsimp only
  refine ⟨?queueRead, ?queueFill, ?load, ?atomic, ?waitline, ?starts, ?transfers, ?held⟩
  case queueRead =>
    intro e r haq harr
    exact ⟨_, exec_queueLoaderRead_next haq harr, by simp, by simp⟩
  case queueFill =>
    intro e cause bs u he hready hmeets hread hkept
    refine ⟨_, exec_dqEntryFilled_ready he hready hmeets, ?_⟩
    rw [State.queueFill_of_readPieces he hread hkept, State.core_modCore_self]
    exact ⟨rfl, Core.tokOf_tokDone_zero ..⟩
  case load =>
    intro l bs u hl harr hready hmeets hread hkept
    refine ⟨fun r z sx hdst => ⟨_, exec_globalLoadComplete_ready hl hready hmeets, ?_⟩, fun r m hdst => ⟨_, exec_globalLoadComplete_ready hl hready hmeets, ?_⟩⟩
    · rw [hdst] at hread
      rw [State.finishLoad_scalar harr hkept hdst hread, State.core_modCore_self]
      exact ⟨SMap.getD_put_self .., fun q hq => SMap.getD_put_ne _ _ _ _ hq.symm, Core.cnt_tokDone_self .., State.modCore_mem ..⟩
    · rw [hdst] at hread
      rw [State.finishLoad_vector harr hkept hdst hread, State.core_modCore_self]
      refine ⟨fun i hi => ?_, Core.cnt_tokDone_self ..⟩
      rw [Core.rV_tokDone, Core.rV, SMap.getD_put_self, getLsbD_blend_ofNat _ _ _ hi]
      rfl
  case atomic =>
    intro p hp harr
    refine ⟨_, exec_atomicComplete_some hp harr, ?_, ?_, State.modCore_mem ..⟩
    · rw [State.core_modCore_self, Core.rS_tokDone]
      by_cases hcause : p.cause = 0
      · rw [if_pos hcause, if_neg (not_not_intro hcause)]
        exact SMap.getD_put_self ..
      · rw [if_neg hcause, if_pos hcause]
        rfl
    · rw [State.core_modCore_self, Core.tokOf_tokDone_self]
      split <;> rfl
  case waitline =>
    intro w hw harr
    refine ⟨fun b u hcause hread i hi => ⟨_, exec_sleepEnd hw hi, ?_⟩, fun hcause hawake => ⟨_, exec_waitlineWake_awake hw hawake, ?_⟩⟩
    · rw [State.finishWatch_of_readPieces harr hcause hread, State.core_modCore_self]
      exact ⟨SMap.getD_put_self .., Core.cnt_tokDone_self ..⟩
    · rw [State.finishWatch_of_cause harr hcause, State.core_modCore_self]
      exact ⟨rfl, Core.tokOf_tokDone_self .., rfl⟩
  case starts =>
    intro x hx hrel hstart
    rw [exec_copyComplete_waiting hx hrel hstart]
    congr 2
    rw [Bool.and_eq_true, Core.engineFree_iff, List.isEmpty_iff]
    exact propext (by tauto)
  case transfers =>
    intro x hx hready hsent hfree hnet
    have hturn : (x.isNet && s.netWaits x) = false := by
      cases hkind : x.isNet
      · rfl
      · exact hnet hkind
    cases hparts : x.parts with
    | none =>
      have hcount : x.parts.getD (s.partsOf core x) = s.partsOf core x := by rw [hparts, Option.getD_none]
      exact ⟨exec_copyComplete_moves hx hready hsent hfree hturn hcount, exec_copyComplete_last hx hready hsent hfree hturn hcount⟩
    | some n =>
      have hcount : x.parts.getD (s.partsOf core x) = n := by rw [hparts, Option.getD_some]
      exact ⟨exec_copyComplete_moves hx hready hsent hfree hturn hcount, exec_copyComplete_last hx hready hsent hfree hturn hcount⟩
  case held =>
    intro x hx hstart hheld
    exact exec_copyComplete_held hx hstart hheld

end Sys2Proof.Proofs
end

section
/-! PROOF. O25: CHK, FORK and the probes of an idle core (R121, R214, R348, R349). -/
namespace Sys2Proof.Machine
open Sys2Proof

/-- A change of any core that leaves chunks and release buffers alone keeps an arrival possible. -/
theorem State.arrivalOk_modCore {s : State} {a : Option Arrival} (h : s.arrivalOk a) (t : Nat) (f : Core → Core)
    (hchunk : ∀ c, (f c).chunk = c.chunk) (hrel : ∀ c, (f c).relCount = c.relCount) : (s.modCore t f).arrivalOk a := by
  by_cases ht : t = s.issue.core
  · subst ht
    exact State.arrivalOk_modCur h f (hchunk _) (hrel _)
  · have hcur : (s.modCore t f).cur = s.cur := State.core_modCore_ne s f ht
    exact State.arrivalOk_of h rfl rfl (congrArg Core.chunk hcur) (congrArg Core.relCount hcur)

theorem State.arrivalOk_takeFork {s : State} {a : Option Arrival} (h : s.arrivalOk a) (t : Nat) (entry : Word) : (s.takeFork t entry).arrivalOk a := by
  have hreserved := State.arrivalOk_modCore h t (fun c => { c with reserved := some s.issue.core }) (fun _ => rfl) fun _ => rfl
  exact State.arrivalOk_modCur hreserved _ rfl rfl

theorem State.arrivalOk_landProbe {s : State} {a : Option Arrival} (h : s.arrivalOk a) (pd : BitVec 4) (b : Bool) : (s.landProbe pd b).arrivalOk a := by
  unfold State.landProbe
  split
  · exact h
  · exact State.arrivalOk_modCur h _ rfl rfl

theorem State.forkTarget_eq (s : State) (b : BitVec 5) (dyn : BitVec 1) (mem : BitVec 2) : s.forkTarget b dyn mem =
    s.issue.core / 4 * 4 + (if dyn = 1 then (s.cur.rP (b.toNat % 16)).toNat % 4 else mem.toNat) := by
  simp [State.forkTarget, bits]

theorem exec_chk_equal {o : OpInfo} {s : State} (hguard : s.guard0 o = true) (harr : s.arrivalOk o.arr) {r : ChkArgs}
    (heq : s.cur.readFile r.fa r.a.toNat = s.cur.readFile r.fb r.b.toNat) : exec (.chk o r) s = .next (s.arrival o.arr) := by
  rw [exec_chk, execChk]
  refine State.runNow_true hguard ?_ harr
  rw [heq, bne_self_eq_false]
  rfl

theorem exec_fork_idle {o : OpInfo} {s : State} (hguard : s.guard0 o = true) (harr : s.arrivalOk o.arr) {r : ForkArgs}
    (hidle : s.idleCore (s.forkTarget r.b r.dyn r.mem) = true) :
    exec (.fork o r) s = .next ((s.takeFork (s.forkTarget r.b r.dyn r.mem) (s.relTarget r.entry)).arrival o.arr) := by
  rw [exec_fork, execFork]
  refine State.runNow_true hguard ?_ (State.arrivalOk_takeFork harr ..)
  dsimp only
  rw [hidle]
  rfl

theorem exec_fprobe_answers {o : OpInfo} {s : State} (hguard : s.guard0 o = true) (harr : s.arrivalOk o.arr) (r : FprobeArgs) :
    exec (.fprobe o r) s = .next ((s.landProbe r.pd (s.idleCore (s.forkTarget r.b r.dyn r.mem))).arrival o.arr) := by
  rw [exec_fprobe, execFprobe]
  exact State.runNow_true hguard rfl (State.arrivalOk_landProbe harr ..)

theorem exec_fprobeF_answers {o : OpInfo} {s : State} (hguard : s.guard0 o = true) (harr : s.arrivalOk o.arr) (r : FprobeArgs) :
    exec (.fprobeF o r) s = .next (((if s.idleCore (s.forkTarget r.b r.dyn r.mem) then s.takeFork (s.forkTarget r.b r.dyn r.mem) (s.relTarget r.entry)
      else s).landProbe r.pd (s.idleCore (s.forkTarget r.b r.dyn r.mem))).arrival o.arr) := by
  rw [exec_fprobeF, execFprobeF]
  refine State.runNow_true hguard rfl (State.arrivalOk_landProbe ?_ ..)
  split
  · exact State.arrivalOk_takeFork harr ..
  · exact harr

end Sys2Proof.Machine

namespace Sys2Proof.Proofs
open Sys2Proof Sys2Proof.Machine

/-- Settles O25: each operation retires at issue with its one effect, which leaves the arrival possible; the target of a fork is the model's
`State.forkTarget`. -/
theorem forkAndCheckResults : Obligations.ForkAndCheckResults := by
  unfold Obligations.ForkAndCheckResults
  intro o s hguard harr target idle taken probe
  have htarget (b : BitVec 5) (dyn : BitVec 1) (mem : BitVec 2) : target b dyn mem = s.forkTarget b dyn mem := (s.forkTarget_eq b dyn mem).symm
  refine ⟨fun r heq => exec_chk_equal hguard harr heq, fun r => ?_, fun r => ?_⟩
  · rw [htarget]
    exact fun hidle => exec_fork_idle hguard harr hidle
  · rw [htarget]
    exact ⟨exec_fprobe_answers hguard harr r, exec_fprobeF_answers hguard harr r⟩

end Sys2Proof.Proofs
end

section
/-! SUPPORT. The registers of a tile (R101, R103, R294): the levels of a flat number, and the core that begins with them. -/
namespace Sys2Proof.Machine
open Sys2Proof

/-! Maps that list what a range of keys gives. -/

theorem SMap.get?_map_key {α : Type} (f : Nat → α) (l : List Nat) (i : Nat) :
    SMap.get? (l.map fun n => (n, f n)) i = if i ∈ l then some (f i) else none := by
  induction l with
  | nil => rfl
  | cons n l ih =>
    rw [List.map_cons, SMap.get?_cons, ih]
    by_cases h : n = i
    · rw [if_pos h, if_pos (h ▸ List.mem_cons_self), h]
    · rw [if_neg h]
      simp only [List.mem_cons, Ne.symm h, false_or]

/-- A run of keys is put into a map, whose other keys keep their values. -/
theorem SMap.getD_foldl_put {α : Type} [DecidableEq α] (d : α) (f : Nat → α) (a n : Nat) (m : SMap α) (r : Nat) :
    SMap.getD ((List.range n).foldl (fun m i => SMap.put d m (a + i) (f i)) m) r d = if a ≤ r ∧ r < a + n then f (r - a) else m.getD r d := by
  induction n with
  | zero => rw [if_neg (by omega)]; rfl
  | succ n ih =>
    rw [List.range_succ, List.foldl_append, List.foldl_cons, List.foldl_nil]
    by_cases h : a + n = r
    · rw [← h, SMap.getD_put_self, if_pos (by omega), Nat.add_sub_cancel_left]
    · rw [SMap.getD_put_ne _ _ _ _ h, ih]
      exact if_congr (by omega) rfl rfl

/-! The levels of a flat number (R101). -/

/-- What is left of a flat number above the levels `qs` of kind and bound, and the values of those levels. -/
def levelSplit (flat : Nat) (qs : List (Nat × Nat)) : Nat × List Nat :=
  qs.foldr (fun q r => if q.1 = 2 then (r.1, q.2 :: r.2) else (r.1 / q.2, r.1 % q.2 :: r.2)) (flat, [])

theorem Launch.levelRegs_eq (l : Launch) (flat : Nat) : l.levelRegs flat = (levelSplit flat (l.kernel.kinds.zip l.bounds)).2 := rfl

theorem levelSplit_cons (flat : Nat) (q : Nat × Nat) (qs : List (Nat × Nat)) : levelSplit flat (q :: qs) =
    if q.1 = 2 then ((levelSplit flat qs).1, q.2 :: (levelSplit flat qs).2)
    else ((levelSplit flat qs).1 / q.2, (levelSplit flat qs).1 % q.2 :: (levelSplit flat qs).2) := rfl

theorem length_levelSplit (flat : Nat) (qs : List (Nat × Nat)) : (levelSplit flat qs).2.length = qs.length := by
  induction qs with
  | nil => rfl
  | cons q qs ih => rw [levelSplit_cons]; split <;> simp [ih]

/-- A T level gives its bound. -/
theorem levelSplit_time (flat : Nat) {qs : List (Nat × Nat)} {i b : Nat} (h : qs[i]? = some (2, b)) : (levelSplit flat qs).2[i]? = some b := by
  induction qs generalizing i with
  | nil => cases h
  | cons q qs ih =>
    rw [levelSplit_cons]
    cases i with
    | zero =>
      obtain rfl : q = (2, b) := by simpa using h
      rfl
    | succ i =>
      have hi : (levelSplit flat qs).2[i]? = some b := ih (by simpa using h)
      split <;> exact hi

section Spatial
variable {qs : List (Nat × Nat)} (hspace : ∀ q ∈ qs, q.1 ≠ 2) (flat : Nat)
include hspace

/-- A spatial level gives an index below its bound. -/
theorem levelSplit_lt (hpos : ∀ q ∈ qs, 0 < q.2) : ∀ x ∈ (levelSplit flat qs).2.zip (qs.map Prod.snd), x.1 < x.2 := by
  induction qs with
  | nil => simp [levelSplit]
  | cons q qs ih =>
    rw [levelSplit_cons, if_neg (hspace q (.head _))]
    intro x hx
    rcases List.mem_cons.mp hx with rfl | hx
    · exact Nat.mod_lt _ (hpos q (.head _))
    · exact ih (fun q hq => hspace q (.tail _ hq)) (fun q hq => hpos q (.tail _ hq)) x hx

/-- The indices, the last fastest, give the flat number back. -/
theorem levelSplit_flat : ((qs.map Prod.snd).zip (levelSplit flat qs).2).foldl (fun x q => x * q.1 + q.2) (levelSplit flat qs).1 = flat := by
  induction qs with
  | nil => rfl
  | cons q qs ih =>
    rw [levelSplit_cons, if_neg (hspace q (.head _)), List.map_cons, List.zip_cons_cons, List.foldl_cons, Nat.div_add_mod']
    exact ih fun q hq => hspace q (.tail _ hq)

/-- Above all levels the number of tiles is left over. -/
theorem levelSplit_left : (levelSplit flat qs).1 = flat / (qs.map Prod.snd).prod := by
  induction qs with
  | nil => simp [levelSplit]
  | cons q qs ih =>
    rw [levelSplit_cons, if_neg (hspace q (.head _)), ih fun q hq => hspace q (.tail _ hq), List.map_cons, List.prod_cons, Nat.div_div_eq_div_mul,
      Nat.mul_comm]

end Spatial

theorem product_eq_prod (l : List Nat) : product l = l.prod := List.prod_eq_foldl.symm

/-! A tile begins (R103). -/

/-- Values of s24 to s31 with which a tile begins. -/
def Launch.tileRegs (l : Launch) (flat : Nat) : List Word :=
  (List.range 6).map (fun i => BitVec.ofNat 64 ((l.levelRegs flat).getD i 0)) ++ [l.arga, l.argb]

/-- The core that begins a tile of a chunk. -/
def Core.beginTile (c : Core) (l : Launch) (k : Chunk) (flat : Nat) : Core :=
  { c.enter l.kernel.entry (l.tileRegs flat) with chunk := some { k with cur := flat, next := flat + 1, started := true } }

theorem State.startTile_eq {s : State} {core : Nat} {k : Chunk} {l : Launch} (flat : Nat) (hchunk : (s.core core).chunk = some k)
    (hl : s.launchOf k.launch = some l) : s.startTile core flat = s.modCore core fun c => c.beginTile l k flat := by
  unfold State.startTile
  rw [hchunk]
  dsimp only
  rw [hl]
  rfl

/-- A core with a chunk runs from the entry of a kernel, its segment fresh, with the registers of a tile. -/
structure Core.TileBegun (l : Launch) (flat : Nat) (c : Core) : Prop where
  run : c.run = .running
  pc : c.pc = l.kernel.entry
  ckaddr : c.seg.ckaddr = l.kernel.entry
  count : c.seg.count = 0
  levels : ∀ i < 6, c.rS (24 + i) = BitVec.ofNat 64 ((l.levelRegs flat).getD i 0)
  arga : c.rS 30 = l.arga
  argb : c.rS 31 = l.argb

theorem Core.rS_beginTile (c : Core) (l : Launch) (k : Chunk) (flat r : Nat) :
    (c.beginTile l k flat).rS r = if 24 ≤ r ∧ r < 24 + 8 then (l.tileRegs flat).getD (r - 24) 0 else c.rS r :=
  SMap.getD_foldl_put 0 (fun i => (l.tileRegs flat).getD i 0) 24 8 c.arch.s r

theorem Core.tileBegun_beginTile (c : Core) (l : Launch) (k : Chunk) (flat : Nat) : (c.beginTile l k flat).TileBegun l flat := by
  refine ⟨rfl, rfl, rfl, rfl, fun i hi => ?_, ?_, ?_⟩
  · rw [Core.rS_beginTile, if_pos (by omega), Nat.add_sub_cancel_left, Launch.tileRegs, List.getD_append _ _ _ _ (by simpa using hi)]
    simp [List.getD_eq_getElem?_getD, hi]
  · rw [Core.rS_beginTile, if_pos (by omega)]
    rfl
  · rw [Core.rS_beginTile, if_pos (by omega)]
    rfl

/-- The core as the first tile run of a chunk of a kernel finds it. -/
def Core.blank (c : Core) (k : Kernel) : Core :=
  { c with
    arch := {}, seg := {}, grp := {}, e := [], svc := {}, tiles := [], accs := [], b0 := {}, b1 := {}, cb0 := {}, cb1 := {}
    loads := [], atoms := [], cmds := [], mq := [], aq := [], dq := [], watches := [], lbuf := [], kernel := k, latdecl := k.latdecl.setWidth 64, keepErr := false, hostSlow := false
    eprof := setBits c.eprof 0 32 k.cap.toNat, earm := true, preempt := none, reserved := none, arrived := [] }

def Core.withEprof (c : Core) (e : Word) : Core := { c with eprof := e }

theorem State.core_setLeak (s : State) (core : Nat) : ∃ e, (s.setLeak core).core core = (s.core core).withEprof e := ⟨_, State.core_modCore_self ..⟩

theorem State.core_freshCore (s : State) (core : Nat) (k : Kernel) : ∃ e, (s.freshCore core k).core core = ((s.core core).blank k).withEprof e := by
  obtain ⟨e, he⟩ := (s.modCore core fun c => c.blank k).core_setLeak core
  rw [State.core_modCore_self] at he
  exact ⟨e, he⟩

theorem State.core_beginChunk {s : State} {core : Nat} {k : Chunk} {l : Launch} (hl : s.launchOf k.launch = some l) :
    ∃ e, (s.beginChunk core k).core core = (((s.core core).blank l.kernel).withEprof e).beginTile l { k with root := core } k.lo := by
  obtain ⟨d, hd⟩ := s.core_freshCore core l.kernel
  obtain ⟨e, he⟩ := ((s.freshCore core l.kernel).modCore core fun c => { c with chunk := some { k with root := core } }).core_setLeak core
  rw [State.core_modCore_self, hd] at he
  refine ⟨e, ?_⟩
  unfold State.beginChunk
  rw [hl]
  dsimp only
  rw [State.startTile_eq (k := { k with root := core }) (l := l) k.lo ((congrArg Core.chunk he).trans rfl) hl, State.core_modCore_self, he]
  rfl

end Sys2Proof.Machine
end

section
/-! SUPPORT. The Distributor's events at a core (R102, R103, R106, R107, R109 to R111, R116 to R118): a placement, the start of a chunk, what
a core that has finished does next. -/
namespace Sys2Proof.Machine
open Sys2Proof State

/-! Placement (R106, R109, R116, R118). -/

/-- The split of a launch reads registers, points of cores and powered clusters alone. -/
theorem State.splitLaunch_congr {s t : State} (hcores : t.cores = s.cores) (hio : t.io = s.io) (hpow : t.pkg.powered = s.pkg.powered) (l : Launch) :
    t.splitLaunch l = s.splitLaunch l := by
  have hget (o : Nat) : t.ioGet o = s.ioGet o := by rw [State.ioGet, hio]; rfl
  have hbits (o lo w : Nat) : t.ioBits o lo w = s.ioBits o lo w := by rw [State.ioBits, hget]; rfl
  have heligible (ctx : Nat) : t.eligible ctx = s.eligible ctx := by
    simp only [State.eligible, State.ctxPart, State.partEn, State.partOf, State.coreOn, hget, hbits, hpow]
    rfl
  have hweight (c : Nat) : t.weight l c = s.weight l c := by simp only [State.weight, State.core, hcores, hbits]
  simp only [State.splitLaunch, heligible, hweight, hbits]

/-- The credits after a placement of a launch, which ends a round or does not (R109). -/
def State.creditsAfter (s : State) (l : Launch) (round : Bool) : SMap Nat :=
  let m : SMap Nat := if round then (List.range 64).map fun n => (n, s.shareOf n) else s.pkg.credits
  m.ins l.ctx (m.getD l.ctx 1 - 1)

theorem State.getD_creditsAfter_self (s : State) {l : Launch} (round : Bool) (hctx : l.ctx < 64) :
    (s.creditsAfter l round).getD l.ctx 0 = (if round then s.shareOf l.ctx else s.pkg.credits.getD l.ctx 1) - 1 := by
  rw [State.creditsAfter, SMap.getD_ins_self]
  cases round
  · rfl
  · simp [SMap.getD, SMap.get?_map_key, hctx]

theorem State.getD_creditsAfter_ne (s : State) {l : Launch} {n : Nat} (hn : n < 64) (hne : n ≠ l.ctx) :
    (s.creditsAfter l true).getD n 0 = s.shareOf n := by
  rw [State.creditsAfter, SMap.getD_ins_ne _ _ _ hne.symm]
  simp [SMap.getD, SMap.get?_map_key, hn]

/-- The package with a placement paid. -/
def State.paid (s : State) (l : Launch) (round : Bool) : State := s.modPkg fun p => { p with credits := s.creditsAfter l round }

theorem State.paid_eq (s : State) (l : Launch) (round : Bool) :
    ((if round then s.newRound else s).modPkg fun p => { p with credits := p.credits.ins l.ctx (p.credits.getD l.ctx 1 - 1) }) = s.paid l round := by
  cases round <;> rfl

theorem State.splitLaunch_paid (s : State) (l : Launch) (round : Bool) : (s.paid l round).splitLaunch l = s.splitLaunch l :=
  State.splitLaunch_congr rfl rfl rfl l

/-- A launch of the number `id` is as the change of that number leaves one. -/
theorem State.launches_modLaunch (s : State) (id : Nat) (f : Launch → Launch) : ∀ k ∈ (s.modLaunch id f).pkg.launches, k.id = id → ∃ j, k = f j := by
  intro k hk hkid
  obtain ⟨j, -, rfl⟩ := List.mem_map.mp hk
  split at hkid
  · next h => exact ⟨j, if_pos h⟩
  · contradiction

/-- A launch that is no gang queues its chunks. -/
def State.queueChunks (s : State) (l : Launch) (chunks : List (Nat × Nat × Nat)) : State :=
  chunks.foldl (fun s q => s.modCore q.1 fun c => { c with queue := c.queue ++ [l.chunk q] }) s

theorem State.pkg_queueChunks (s : State) (l : Launch) (chunks : List (Nat × Nat × Nat)) : (s.queueChunks l chunks).pkg = s.pkg := by
  induction chunks generalizing s with
  | nil => rfl
  | cons q chunks ih => exact ih _

/-- The queue of each core has its chunks at its end. -/
theorem State.queue_queueChunks (s : State) (l : Launch) (chunks : List (Nat × Nat × Nat)) (c : Nat) :
    ((s.queueChunks l chunks).core c).queue = (s.core c).queue ++ (chunks.filter fun q => q.1 == c).map l.chunk := by
  induction chunks generalizing s with
  | nil => simp [State.queueChunks]
  | cons q chunks ih =>
    refine (ih _).trans ?_
    by_cases h : q.1 = c
    · subst h
      simp
    · rw [State.core_modCore_ne _ _ h]
      simp [h]

/-- A gang reserves its participants. -/
def State.reserveAll (s : State) (id : Nat) (cores : List Nat) : State :=
  cores.foldl (fun s c => s.modCore c fun k => { k with reserved := some (gangMark id) }) s

theorem State.pkg_reserveAll (s : State) (id : Nat) (cores : List Nat) : (s.reserveAll id cores).pkg = s.pkg := by
  induction cores generalizing s with
  | nil => rfl
  | cons c cores ih => exact ih _

theorem State.reserved_reserveAll (s : State) (id : Nat) {cores : List Nat} {c : Nat} (h : c ∈ cores) :
    ((s.reserveAll id cores).core c).reserved = some (gangMark id) := by
  refine foldl_reaches (I := fun _ => True) (P := fun (u : State) c => (u.core c).reserved = some (gangMark id)) (key := fun c => c) (fun _ _ _ => trivial)
    (fun u c _ => ?_) (fun u x c _ hne hP => ?_) cores trivial (.inl (by simpa using h))
  · rw [State.core_modCore_self]
  · rwa [State.core_modCore_ne _ _ (Ne.symm hne)]

/-- A gang takes barriers, whose PHASE reads 0 from then on. -/
def State.takeBars (s : State) (id : Nat) (cores bars : List Nat) : State :=
  bars.foldl (fun s g => (s.ioField (0x17008 + 64 * g) 40 24 0).modPkg fun p => { p with bars := p.bars.ins g ⟨id, cores, 0, []⟩ }) s

theorem State.takeBars_keeps (s : State) (id : Nat) (cores bars : List Nat) : (s.takeBars id cores bars).cores = s.cores ∧
    (s.takeBars id cores bars).pkg.launches = s.pkg.launches ∧ (s.takeBars id cores bars).pkg.credits = s.pkg.credits := by
  induction bars generalizing s with
  | nil => exact ⟨rfl, rfl, rfl⟩
  | cons g bars ih => exact ih _

theorem State.takeBars_taken (s : State) (id : Nat) (cores : List Nat) {bars : List Nat} {g : Nat} (h : g ∈ bars) :
    (s.takeBars id cores bars).pkg.bars.get? g = some ⟨id, cores, 0, []⟩ ∧ (s.takeBars id cores bars).barPhase g = 0 := by
  refine foldl_reaches (I := fun _ => True) (P := fun (u : State) g => u.pkg.bars.get? g = some ⟨id, cores, 0, []⟩ ∧ u.barPhase g = 0) (key := fun g => g)
    (fun _ _ _ => trivial) (fun u g _ => ⟨SMap.get?_ins_self .., ?_⟩) (fun u x g _ hne hP => ⟨?_, ?_⟩) bars trivial (.inl (by simpa using h))
  · exact (State.barPhase_modPkg _ _ g).trans (State.ioBits_ioField_self u _ 0 (by omega))
  · exact (SMap.get?_ins_ne _ _ (Ne.symm hne)).trans hP.1
  · rw [State.barPhase_modPkg, State.barPhase, State.ioGet_ioField_ne _ _ _ _ (by omega)]
    exact hP.2

theorem State.place_chunks {s : State} {l : Launch} {round : Bool} (h : s.choose = some (l, round)) (hgang : l.gang = false) : s.place =
    ((s.paid l round).modLaunch l.id fun k =>
      { k with placed := true, started := true, working := (s.splitLaunch l).1.map Prod.fst, tails := (s.splitLaunch l).2 }).queueChunks l (s.splitLaunch l).1 := by
  unfold State.place
  rw [h]
  dsimp only
  rw [State.paid_eq, State.splitLaunch_paid, if_neg (by rw [hgang]; decide)]
  rfl

/-- The state in which a gang has been listed and its participants are reserved. -/
def State.gangReserved (s : State) (l : Launch) (round : Bool) : State :=
  ((s.paid l round).modLaunch l.id fun k =>
    { k with placed := true, members := (s.splitLaunch l).1, working := (s.splitLaunch l).1.map Prod.fst }).reserveAll l.id ((s.splitLaunch l).1.map Prod.fst)

theorem State.barsOf_gangReserved (s : State) (l : Launch) (round : Bool) : (s.gangReserved l round).barsOf l.ctx = s.barsOf l.ctx := by
  have hio (u : State) (cores : List Nat) : (u.reserveAll l.id cores).io = u.io := by
    induction cores generalizing u with
    | nil => rfl
    | cons c cores ih => exact ih _
  simp only [State.barsOf, State.ioGet, State.gangReserved, hio]
  rfl

theorem State.place_gang {s : State} {l : Launch} {round : Bool} (h : s.choose = some (l, round)) (hgang : l.gang = true) : s.place =
    (s.gangReserved l round).takeBars l.id ((s.splitLaunch l).1.map Prod.fst) (s.barsOf l.ctx) := by
  unfold State.place
  rw [h]
  dsimp only
  rw [State.paid_eq, State.splitLaunch_paid, if_pos hgang, ← s.barsOf_gangReserved l round]
  rfl

/-! A chunk begins (R103, R110, R111). -/

theorem Core.mem_queue_of_nextChunk {c : Core} {k : Chunk} (h : c.nextChunk = some k) : k ∈ c.queue := by
  have hpick (l : List Chunk) (b : Option Chunk)
      (h : l.foldl (fun b k => match b with | some j => if j.prio < k.prio then some k else b | none => some k) b = some k) : b = some k ∨ k ∈ l := by
    induction l generalizing b with
    | nil => exact .inl h
    | cons j l ih =>
      rcases ih _ h with hb | hk
      · dsimp only at hb
        split at hb
        · split at hb
          · exact .inr (by cases hb; exact .head _)
          · exact .inl hb
        · exact .inr (by cases hb; exact .head _)
      · exact .inr (.tail _ hk)
  exact (hpick c.queue none h).resolve_left (by simp)

theorem exec_chunkStart_begins {s : State} {core : Nat} {k : Chunk} {l : Launch} (hnext : (s.core core).nextChunk = some k)
    (hidle : (s.core core).idle = true) (hfresh : k.started = false) (hcmp : core < 256) (hl : s.launchOf k.launch = some l)
    (hroom : s.makeRoom core l.kernel.bmask none = (true, s)) :
    exec (.chunkStart core) s = .next ((s.modCore core fun c => c.dequeue k).beginChunk core k) := by
  have hcan : ((s.core core).idle && !k.started && !isCtl core) = true := by
    rw [hidle, hfresh, isCtl, decide_eq_false (by omega)]
    rfl
  have hqueued : (s.core core).queue.contains k = true := List.contains_iff_mem.mpr (Core.mem_queue_of_nextChunk hnext)
  rw [exec_chunkStart, execChunkStart, State.chunkBegin, hnext]
  dsimp only
  rw [if_pos hcan, hl]
  dsimp only
  rw [hroom]
  dsimp only
  rw [hqueued]
  rfl

/-! A core that parks with a cause and nothing else (R224, R229). -/

/-- A core parks rolled back, its cause in its record unless it meets an error in what it restores from (R238). -/
theorem State.core_park (s : State) (c : Nat) {t : TrapInfo} (haddr : Word) (kind : Nat) (htoken : t.token = none) (hstale : t.stale = none) :
    ∃ reserved trec, ((s.core c).keepErr = false → trec.cause = t.cause) ∧
      (s.park c t haddr kind).core c = { { s.core c with reserved }.rollback with run := .parked, trec, keepErr := false } := by
  have hplain : (s.parkCause c t kind).1.token = none ∧ (s.parkCause c t kind).1.stale = none := by
    unfold State.parkCause
    split
    · exact ⟨rfl, rfl⟩
    · exact ⟨htoken, hstale⟩
  obtain ⟨r, hr⟩ := s.core_freeForks c c
  have h := (s.park_parks c t haddr kind).core
  rw [State.parkedCore, Core.stopped_plain _ hplain.1 hplain.2, hr] at h
  exact ⟨r, _, fun hkeep => congrArg (fun q : TrapInfo × Nat => q.1.cause) (State.parkCause_ok (.inl hkeep) t), h⟩

/-! A core that has finished (R107, R113, R235). -/

/-- The tail tile that a core takes for a chunk of a launch, where one is left. -/
def Launch.tailFor (l : Launch) (core : Nat) : Option (List Nat × Nat × Nat) := l.tails.find? fun t => t.1.contains core && decide (t.2.1 < t.2.2)

/-- The launch with the first tile of a pool taken. -/
def Launch.takeTail (l : Launch) (p : List Nat × Nat × Nat) : Launch :=
  { l with tails := l.tails.map fun x => if x = p then (p.1, p.2.1 + 1, p.2.2) else x }

theorem Launch.not_mem_takeTail (l : Launch) (p : List Nat × Nat × Nat) : p ∉ (l.takeTail p).tails := by
  intro hp
  obtain ⟨x, -, hx⟩ := List.mem_map.mp hp
  split at hx
  · have := congrArg (fun q : List Nat × Nat × Nat => q.2.1) hx
    dsimp only at this
    omega
  · contradiction

/-- The state in which a core begins a tail tile. -/
def State.takeTail (s : State) (core : Nat) (k : Chunk) (l : Launch) (p : List Nat × Nat × Nat) : State :=
  ((s.modLaunch l.id fun q => q.takeTail p).modCore core fun c => { c with chunk := some { k with hi := p.2.1 + 1 } }).startTile core p.2.1

theorem State.core_takeTail {s : State} (core : Nat) {k : Chunk} {l : Launch} (hl : s.launchOf k.launch = some l) (p : List Nat × Nat × Nat) : (s.takeTail core k l p).core core =
    (s.core core).beginTile l { k with hi := p.2.1 + 1 } p.2.1 := by
  let u := (s.modLaunch l.id fun q => q.takeTail p).modCore core fun c => { c with chunk := some { k with hi := p.2.1 + 1 } }
  have hcore : u.core core = { s.core core with chunk := some { k with hi := p.2.1 + 1 } } := State.core_modCore_self ..
  have hlaunch : u.launchOf k.launch = some (l.takeTail p) := by
    refine (s.launchOf_modLaunch l.id k.launch (f := fun q => q.takeTail p) fun _ => rfl).trans ?_
    rw [hl, Option.map_some, if_pos rfl]
  have hstart : s.takeTail core k l p = u.modCore core fun c => c.beginTile (l.takeTail p) { k with hi := p.2.1 + 1 } p.2.1 :=
    State.startTile_eq p.2.1 (congrArg Core.chunk hcore) hlaunch
  rw [hstart, State.core_modCore_self, hcore]
  rfl

/-- The tile that a core takes is in no pool of its launch any more. -/
theorem State.launches_takeTail (s : State) (core : Nat) (k : Chunk) (l : Launch) (p : List Nat × Nat × Nat) :
    ∀ j ∈ (s.takeTail core k l p).pkg.launches, j.id = l.id → p ∉ j.tails := by
  intro j hj hid
  rw [State.takeTail, (State.onlyCore_startTile _ core _).pkg] at hj
  obtain ⟨i, rfl⟩ := s.launches_modLaunch _ _ j hj hid
  exact i.not_mem_takeTail p

/-- The core when its chunk has ended. -/
def Core.ended (c : Core) : Core := { c with chunk := none, run := .idle, wins := [], stash := [], cmds := [], svc := {}, preempt := none }

section Finished
variable {s : State} {core : Nat} {k : Chunk} (hchunk : (s.core core).chunk = some k)
include hchunk

variable (hrun : (s.core core).run = .idle) (hdrain : (s.core core).draining = false)
include hrun hdrain

theorem exec_tailTileRequest_takes {l : Launch} {p : List Nat × Nat × Nat} (hl : s.launchOf k.launch = some l) (hforked : k.forked = none)
    (hstatus : l.status = none) (htail : l.tailFor core = some p) : exec (.tailTileRequest core) s = .next
      (if (s.core core).preempt.isSome then (s.takeTail core k l p).modCore core fun c => { c with run := .rolling, seg := { c.seg with restart := true } }
       else s.takeTail core k l p) := by
  rw [exec_tailTileRequest, execTailTileRequest, State.askTail]
  simp only [hchunk]
  rw [if_neg (by simp [hrun, hdrain]), hl]
  dsimp only
  rw [if_neg (by simp [hforked, hstatus]), show l.tails.find? _ = _ from htail]
  rfl

/-- A core with no tile left for it ends its chunk. -/
theorem exec_tailTileRequest_ends
    (hnone : ∀ l, s.launchOf k.launch = some l → k.forked.isSome = true ∨ l.status.isSome = true ∨ l.tailFor core = none) :
    exec (.tailTileRequest core) s = .next (s.endChunk core) := by
  rw [exec_tailTileRequest, execTailTileRequest, State.askTail]
  simp only [hchunk]
  rw [if_neg (by simp [hrun, hdrain])]
  split
  · rfl
  · next l hl =>
    have hno : (if k.forked.isSome = true ∨ l.status.isSome = true then none
        else l.tails.find? fun t => t.1.contains core && decide (t.2.1 < t.2.2)) = none := by
      split
      · rfl
      · next h => exact ((hnone l hl).resolve_left fun hf => h (.inl hf)).resolve_left fun hs => h (.inr hs)
    rw [hno]

omit hrun hdrain

/-- A core whose stash is back ends its chunk. -/
theorem State.core_endChunk_flushed {va : Nat} {u : State} (hflush : s.flushStash core = ((0, va), u)) :
    (s.endChunk core).core core = (u.core core).ended := by
  have hbars (v : State) (id c : Nat) : (v.freeBars id).core c = v.core c := by
    unfold State.freeBars
    split <;> rfl
  have hended : ((u.loosen core).modCore core Core.ended).core core = (u.core core).ended := State.core_modCore_self ..
  unfold State.endChunk
  rw [hchunk]
  dsimp only
  rw [hflush]
  dsimp only
  rw [if_neg (by simp), hbars]
  split <;> exact hended

/-- A core whose stash cannot go back parks with the cause, and keeps its chunk. -/
theorem State.core_endChunk_kept {c : Cause} {va : Nat} {u : State} (hflush : s.flushStash core = ((c, va), u)) (hc : c ≠ 0)
    (hkeep : (u.core core).keepErr = false) : ((s.endChunk core).core core).run = .parked ∧ ((s.endChunk core).core core).trec.cause = c ∧
      ((s.endChunk core).core core).chunk = (u.core core).chunk := by
  unfold State.endChunk
  rw [hchunk]
  dsimp only
  rw [hflush]
  dsimp only
  rw [if_pos hc, State.core_modCore_self]
  obtain ⟨reserved, trec, hcause, hpark⟩ := u.core_park core (t := { cause := c, faddr := BitVec.ofNat 64 va }) (u.core core).pc 1 rfl rfl
  rw [hpark]
  exact ⟨rfl, hcause hkeep, (Core.rolledBack_rollback _).chunk⟩

end Finished

end Sys2Proof.Machine
end

section
/-! PROOF. O38: placement of launches, start of chunks, tail tiles (R101-R103, R106, R107, R109-R111, R116-R118). -/
namespace Sys2Proof.Proofs
open Sys2Proof Sys2Proof.Machine

/-- The levels of a flat number (R101). -/
theorem levelRegs_results (l : Launch) (flat : Nat) (hlen : l.kernel.kinds.length = l.bounds.length) (hpos : ∀ b ∈ l.bounds, 0 < b) :
    (l.levelRegs flat).length = l.bounds.length ∧ (∀ i : Nat, l.kernel.kinds[i]? = some 2 → (l.levelRegs flat)[i]? = l.bounds[i]?) ∧
    ((∀ k ∈ l.kernel.kinds, k ≠ 2) → (∀ q ∈ (l.levelRegs flat).zip l.bounds, q.1 < q.2) ∧
      (flat < product l.bounds → ((l.bounds.zip (l.levelRegs flat)).foldl (fun x q => x * q.1 + q.2) 0) = flat)) := by
  have hbounds : (l.kernel.kinds.zip l.bounds).map Prod.snd = l.bounds := List.map_snd_zip hlen.ge
  have hzip (q : Nat × Nat) (hq : q ∈ l.kernel.kinds.zip l.bounds) : q.1 ∈ l.kernel.kinds ∧ q.2 ∈ l.bounds := List.of_mem_zip hq
  rw [Launch.levelRegs_eq]
  refine ⟨?_, fun i hi => ?_, fun hkinds => ?_⟩
  · rw [length_levelSplit, List.length_zip, hlen, Nat.min_self]
  · obtain ⟨hlt, -⟩ := List.getElem?_eq_some_iff.mp hi
    have hb : l.bounds[i]? = some (l.bounds[i]'(hlen ▸ hlt)) := List.getElem?_eq_getElem _
    rw [hb]
    exact levelSplit_time flat (List.getElem?_zip_eq_some.mpr ⟨hi, hb⟩)
  · have hspace (q : Nat × Nat) (hq : q ∈ l.kernel.kinds.zip l.bounds) : q.1 ≠ 2 := hkinds _ (hzip q hq).1
    have hlt := levelSplit_lt hspace flat fun q hq => hpos _ (hzip q hq).2
    have hflat := levelSplit_flat hspace flat
    have hleft := levelSplit_left hspace flat
    rw [hbounds] at hlt hflat hleft
    refine ⟨hlt, fun hfew => ?_⟩
    rw [product_eq_prod] at hfew
    rwa [hleft, Nat.div_eq_of_lt hfew] at hflat

section Placement
variable {s : State} {l : Launch} {round : Bool} (h : s.choose = some (l, round))
include h

/-- A launch that is no gang queues its chunks (R106, R109). -/
theorem placementDecision_chunks (hctx : l.ctx < 64) (hgang : l.gang = false) : ∃ t, exec .placementDecision s = .next t ∧
    t.pkg.credits.getD l.ctx 0 = (if round then s.shareOf l.ctx else s.pkg.credits.getD l.ctx 1) - 1 ∧
    (∀ q ∈ (s.splitLaunch l).1, ∃ k ∈ (t.core q.1).queue, k.launch = l.id ∧ k.lo = q.2.1 ∧ k.hi = q.2.2 ∧ k.started = false) ∧
    ∀ k ∈ t.pkg.launches, k.id = l.id → k.placed = true ∧ k.tails = (s.splitLaunch l).2 := by
  refine ⟨_, congrArg Host.Outcome.next (State.place_chunks h hgang), ?_, fun q hq => ?_, fun k hk hid => ?_⟩
  · rw [State.pkg_queueChunks]
    exact s.getD_creditsAfter_self round hctx
  · refine ⟨l.chunk q, ?_, rfl, rfl, rfl, rfl⟩
    rw [State.queue_queueChunks]
    exact List.mem_append_right _ (List.mem_map_of_mem (List.mem_filter.mpr ⟨hq, beq_self_eq_true _⟩))
  · rw [State.pkg_queueChunks] at hk
    obtain ⟨j, rfl⟩ := State.launches_modLaunch _ _ _ k hk hid
    exact ⟨rfl, rfl⟩

/-- A gang reserves its participants and takes its barriers (R116, R118). -/
theorem placementDecision_gang (hgang : l.gang = true) : ∃ t, exec .placementDecision s = .next t ∧
    (∀ q ∈ (s.splitLaunch l).1, (t.core q.1).reserved = some (1000 + l.id)) ∧
    (∀ g ∈ s.barsOf l.ctx, t.pkg.bars.get? g = some ⟨l.id, (s.splitLaunch l).1.map Prod.fst, 0, []⟩ ∧ t.barPhase g = 0) ∧
    ∀ k ∈ t.pkg.launches, k.id = l.id → k.placed = true ∧ k.members = (s.splitLaunch l).1 := by
  obtain ⟨hcores, hlaunches, -⟩ := (s.gangReserved l round).takeBars_keeps l.id ((s.splitLaunch l).1.map Prod.fst) (s.barsOf l.ctx)
  refine ⟨_, congrArg Host.Outcome.next (State.place_gang h hgang), fun q hq => ?_, fun g hg => State.takeBars_taken _ _ _ hg, fun k hk hid => ?_⟩
  · rw [State.core, hcores]
    exact State.reserved_reserveAll _ l.id (List.mem_map_of_mem hq)
  · rw [hlaunches, State.gangReserved, State.pkg_reserveAll] at hk
    obtain ⟨j, rfl⟩ := State.launches_modLaunch _ _ _ k hk hid
    exact ⟨rfl, rfl⟩

/-- At the end of a round every other context has its SHARE again (R109). -/
theorem placementDecision_round (hround : round = true) : ∃ t, exec .placementDecision s = .next t ∧
    ∀ n < 64, n ≠ l.ctx → t.pkg.credits.getD n 0 = s.shareOf n := by
  subst hround
  refine ⟨_, exec_placementDecision s, fun n hn hne => ?_⟩
  have hcredits : s.place.pkg.credits = s.creditsAfter l true := by
    cases hgang : l.gang
    · rw [State.place_chunks h hgang, State.pkg_queueChunks]
      rfl
    · rw [State.place_gang h hgang, (State.takeBars_keeps ..).2.2, State.gangReserved, State.pkg_reserveAll]
      rfl
  rw [hcredits]
  exact s.getD_creditsAfter_ne hn hne

end Placement

/-- Settles O38: the levels of a flat number are its digits in a mixed radix (`levelSplit`); a placement lists its launch and changes the queues
or the reservations of the cores that the split names; a chunk or a tail tile begins with `Core.beginTile`, and a core with no tile left ends
its chunk or parks. -/
theorem distributorResults : Obligations.DistributorResults := by
  unfold Obligations.DistributorResults
  refine ⟨levelRegs_results, fun s => ?_⟩
  intro entered
  have hentered {t : State} {core flat : Nat} {l : Launch} (hbegun : (t.core core).TileBegun l flat) : entered t core l flat :=
    ⟨hbegun.run, hbegun.pc, hbegun.ckaddr, hbegun.count, hbegun.levels, hbegun.arga, hbegun.argb⟩
  refine ⟨fun l round h hctx => ⟨placementDecision_round h, placementDecision_chunks h hctx, placementDecision_gang h⟩, ?start, ?finished⟩
  case start =>
    intro core k l hnext hchunk hres hrun hfresh hcmp hl hfree hone
    have hidle : (s.core core).idle = true := by rw [Core.idle, hchunk, hres, hrun]; rfl
    obtain ⟨e, he⟩ := State.core_beginChunk (s := s.modCore core fun c => c.dequeue k) (core := core) hl
    rw [State.core_modCore_self] at he
    refine ⟨_, exec_chunkStart_begins hnext hidle hfresh hcmp hl (State.makeRoom_stays hfree hone), hentered ?_, ?_⟩
    · rw [he]
      exact Core.tileBegun_beginTile ..
    rw [he]
    refine ⟨rfl, rfl, fun r hr => ?_, fun _ => rfl, fun _ => rfl, rfl, rfl⟩
    exact (Core.rS_beginTile _ _ _ _ r).trans (if_neg (by omega))
  case finished =>
    intro core k hchunk hrun hdrain
    refine ⟨fun l p hl hforked hstatus htail => ?_, fun hnone c va u hflush => ?_⟩
    · have hexec := exec_tailTileRequest_takes hchunk hrun hdrain hl hforked hstatus htail
      have hcore := State.core_takeTail core hl p
      have hbegun := Core.tileBegun_beginTile (s.core core) l { k with hi := p.2.1 + 1 } p.2.1
      split at hexec
      · next hpre =>
        refine ⟨_, hexec, s.launches_takeTail core k l p, ?_⟩
        rw [State.core_modCore_self, hcore, if_neg (by rw [Option.isSome_iff_ne_none] at hpre; exact hpre)]
        exact ⟨rfl, hbegun.pc, hbegun.ckaddr, rfl⟩
      · next hpre =>
        refine ⟨_, hexec, s.launches_takeTail core k l p, ?_⟩
        rw [hcore, if_pos (by simpa using hpre)]
        exact ⟨rfl, hbegun.pc, hbegun.ckaddr, rfl⟩
    · have hexec : exec (.tailTileRequest core) s = .next (s.endChunk core) := by
        refine exec_tailTileRequest_ends hchunk hrun hdrain fun l hl => (hnone l hl).imp_right (Or.imp_right fun hp => ?_)
        refine List.find?_eq_none.mpr fun p hmem hcan => hp p hmem ?_
        simpa using hcan
      refine ⟨fun hc => ?_, fun hc hkeep => ⟨_, hexec, State.core_endChunk_kept hchunk hflush hc hkeep⟩⟩
      subst hc
      refine ⟨_, hexec, ?_⟩
      rw [State.core_endChunk_flushed hchunk hflush]
      exact ⟨rfl, rfl, rfl⟩

end Sys2Proof.Proofs
end

section
/-! SUPPORT. A switched-out chunk comes back (R113, R116, R224, R235): what its image gives, and the core that goes on from it. -/
namespace Sys2Proof.Machine
open Sys2Proof

/-! Runs of bytes in an image. -/

theorem length_wordsBytes (k n : Nat) (f : Nat → Nat) : (wordsBytes k n f).length = k * n := by
  simp [wordsBytes, Nat.mul_comm]

/-- Entry `r` of a run of entries stands at its place. -/
theorem take_drop_wordsBytes {k n r : Nat} (f : Nat → Nat) (hr : r < n) (rest : List Byte) :
    ((wordsBytes k n f ++ rest).drop (k * r)).take k = bytesOf k (f r) := by
  have hsucc (n : Nat) : wordsBytes k (n + 1) f = wordsBytes k n f ++ bytesOf k (f n) := by simp [wordsBytes, List.range_succ]
  induction n generalizing rest with
  | zero => omega
  | succ n ih =>
    rw [hsucc, List.append_assoc]
    by_cases h : r < n
    · exact ih h _
    · obtain rfl : r = n := by omega
      rw [List.drop_left' (length_wordsBytes k r f), List.take_left' (bytesOf_length k _)]

/-- The registers s0 to s31 stand first in an image (R235). -/
theorem imageAt_headImage (c : Core) {r : Nat} (hr : r < 32) : imageAt c.headImage (8 * r) 8 = (c.seg.ck.s.getD r 0).toNat := by
  obtain ⟨rest, hrest⟩ : ∃ rest, c.headImage = (wordsBytes 8 32 (fun i => (c.seg.ck.s.getD i 0).toNat) ++ rest).take 16384 := by
    unfold Core.headImage Core.copyBytes Arch.copyBytes
    simp only [List.append_assoc]
    exact ⟨_, rfl⟩
  rw [hrest, imageAt, List.drop_take, List.take_take, Nat.min_eq_left (by omega), take_drop_wordsBytes _ hr, natOf_bytesOf]
  exact Nat.mod_eq_of_lt (BitVec.isLt _)

theorem getD_regsAt {w : Nat} (b : List Byte) (off k : Nat) {n r : Nat} (hr : r < n) :
    (regsAt b off k n : SMap (BitVec w)).getD r 0 = BitVec.ofNat w (imageAt b (off + k * r) k) := by
  have h := SMap.getD_foldl_put 0 (fun i => BitVec.ofNat w (imageAt b (off + k * i) k)) 0 n [] r
  simp only [Nat.zero_add] at h
  rw [regsAt, h, if_pos ⟨Nat.zero_le _, hr⟩, Nat.sub_zero]

theorem Arch.s_ofImage (b : List Byte) (a : Arch) : (Arch.ofImage b a).1.s = regsAt b 0 8 32 := rfl

/-! What an image leaves of a core's record. -/

/-- Of a core's record `m` keeps what the image does not hold. -/
structure Saved.SameRun (r m : Saved) : Prop where
  chunk : m.chunk = r.chunk
  kernel : m.kernel = r.kernel
  ckaddr : m.ckaddr = r.ckaddr
  posts : m.posts = r.posts
  replayed : m.replayed = r.replayed

theorem Saved.SameRun.trans {r m q : Saved} (h : r.SameRun m) (k : m.SameRun q) : r.SameRun q :=
  ⟨k.chunk.trans h.chunk, k.kernel.trans h.kernel, k.ckaddr.trans h.ckaddr, k.posts.trans h.posts, k.replayed.trans h.replayed⟩

theorem Saved.sameRun_ofTail (b : List Byte) (r : Saved) : r.SameRun (r.ofTail b) := by
  unfold Saved.ofTail
  split
  exact ⟨rfl, rfl, rfl, rfl, rfl⟩

theorem State.sameRun_readImage (s : State) (core : Nat) (r : Saved) : r.SameRun (s.readImage core r).1 := by
  unfold State.readImage
  extract_lets ctx base
  split
  extract_lets kp
  split
  extract_lets x y arch
  have hx : r.SameRun x := ⟨rfl, rfl, rfl, rfl, rfl⟩
  have hy : r.SameRun y := by
    dsimp only [y]
    split
    · exact hx.trans (x.sameRun_ofTail _)
    · exact hx
  clear_value y
  iterate 5 split
  exact ⟨hy.chunk, hy.kernel, hy.ckaddr, hy.posts, hy.replayed⟩

/-! The core that goes on. -/

/-- Increments posted while a chunk was out (R343). -/
def Arch.posted (a : Arch) (posts : SMap Half) : Arch := posts.foldl (fun a q => a.flagAdd q.1 q.2) a

/-- Posts change their flags alone. -/
theorem Arch.posted_eq (a : Arch) (posts : SMap Half) : ∃ f, a.posted posts = { a with f } ∧ ∀ i, (∀ q ∈ posts, q.1 ≠ i) → f.getD i 0 = a.f.getD i 0 := by
  induction posts generalizing a with
  | nil => exact ⟨a.f, rfl, fun _ _ => rfl⟩
  | cons q posts ih =>
    obtain ⟨f, hf, hkeep⟩ := ih (a.flagAdd q.1 q.2)
    refine ⟨f, hf, fun i hi => (hkeep i fun p hp => hi p (.tail _ hp)).trans ?_⟩
    exact SMap.getD_put_ne _ _ _ _ (hi q (.head _))

/-- A core goes on with a switched-out chunk: what its image gives, at its checkpoint. -/
def Core.goesOn (c : Core) (r : Saved) : Core :=
  let keep := c.sp.filter fun q => !r.kernel.bmask.getLsbD (q.1 / 65536)
  let kp := c.spPoison.filter fun q => !r.kernel.bmask.getLsbD (q.1 / 2048)
  { c with
    run := .running, pc := r.ckaddr, arch := r.arch.posted r.posts, e := r.e
    seg := { ckaddr := r.ckaddr, ck := r.arch.posted r.posts, log := r.log, rolls := r.rolls, restart := true, rdvDone := r.rdvDone, replayed := r.replayed }
    tiles := r.tiles, accs := r.accs, b0 := r.b0, b1 := r.b1, cb0 := r.b0, cb1 := r.b1, wins := r.wins, arrived := r.arrived
    svc := { base := r.svbase, tcmp := r.tcmp, queue := r.sq, trap := r.strap }
    sp := r.banks.foldl (fun m q => m.ins q.1 q.2) keep, spPoison := r.spPoison.foldl (fun m q => m.ins q.1 ()) kp
    chunk := some r.chunk, resident := c.resident.filter fun x => x.chunk != r.chunk }

/-- A core has a chunk and what its image `m` gives, at its checkpoint. -/
structure Core.Restored (m : Saved) (c : Core) : Prop where
  pc : c.pc = m.ckaddr
  chunk : c.chunk = some m.chunk
  ckaddr : c.seg.ckaddr = m.ckaddr
  arch : c.arch = m.arch.posted m.posts
  e : c.e = m.e
  tiles : c.tiles = m.tiles
  accs : c.accs = m.accs
  b0 : c.b0 = m.b0
  b1 : c.b1 = m.b1
  log : c.seg.log = m.log
  replayed : c.seg.replayed = m.replayed
  wins : c.wins = m.wins
  base : c.svc.base = m.svbase
  tcmp : c.svc.tcmp = m.tcmp
  trap : c.svc.trap = m.strap

theorem Core.restored_goesOn (c : Core) (m : Saved) (e : Word) : ((c.goesOn m).withEprof e).Restored m :=
  ⟨rfl, rfl, rfl, rfl, rfl, rfl, rfl, rfl, rfl, rfl, rfl, rfl, rfl, rfl, rfl⟩

/-- A rollback of such a core, which has written nothing yet, leaves it where it is; so does the end of a reservation. -/
theorem Core.restored_rollback (c : Core) (m : Saved) (e : Word) (reserved : Option Nat) :
    ({ (c.goesOn m).withEprof e with reserved } : Core).rollback.Restored m :=
  ⟨rfl, rfl, rfl, rfl, rfl, rfl, rfl, rfl, rfl, rfl, rfl, rfl, rfl, rfl, rfl⟩

/-- The state in which a switched-out chunk goes on from its image. -/
def State.resumed (s : State) (core : Nat) (m : Saved) : State := ((s.freshCore core m.kernel).modCore core fun c => c.goesOn m).setLeak core

theorem State.restore_eq (s : State) (core : Nat) (r : Saved) : s.restore core r =
    let q := s.readImage core r
    if q.2.1 then (q.2.2.resumed core q.1).park core { cause := 0x141#10 } q.1.ckaddr 1 else q.2.2.resumed core q.1 := by
  unfold State.restore
  generalize s.readImage core r = q
  rfl

theorem State.core_resumed (s : State) (core : Nat) (m : Saved) :
    ∃ d e, (s.resumed core m).core core = ((((s.core core).blank m.kernel).withEprof d).goesOn m).withEprof e := by
  obtain ⟨d, hd⟩ := s.core_freshCore core m.kernel
  obtain ⟨e, he⟩ := ((s.freshCore core m.kernel).modCore core fun c => c.goesOn m).core_setLeak core
  rw [State.core_modCore_self, hd] at he
  exact ⟨d, e, he⟩

/-- The core of a chunk that has come back: it runs, or has parked with 0x141 when its image is hurt (R142; log 37). -/
theorem State.restore_restored (s : State) (core : Nat) (r : Saved) :
    let k := (s.restore core r).core core
    k.Restored (s.readImage core r).1 ∧ k.run = (if (s.readImage core r).2.1 then .parked else .running) ∧
      ((s.readImage core r).2.1 = true → k.trec.cause = 0x141#10) := by
  rw [State.restore_eq]
  generalize s.readImage core r = q
  obtain ⟨d, e, hcore⟩ := q.2.2.core_resumed core q.1
  cases hhurt : q.2.1
  · simp only [hhurt, Bool.false_eq_true, if_false, hcore]
    exact ⟨Core.restored_goesOn .., rfl, fun h => nomatch h⟩
  · have hkeep : ((q.2.2.resumed core q.1).core core).keepErr = false := by rw [hcore]; rfl
    obtain ⟨reserved, trec, hcause, hpark⟩ := (q.2.2.resumed core q.1).core_park core (t := { cause := 0x141#10 }) q.1.ckaddr 1 rfl rfl
    simp only [hhurt, if_true, hpark, hcore]
    have h := Core.restored_rollback (((q.2.2.core core).blank q.1.kernel).withEprof d) q.1 e reserved
    exact ⟨⟨h.pc, h.chunk, h.ckaddr, h.arch, h.e, h.tiles, h.accs, h.b0, h.b1, h.log, h.replayed, h.wins, h.base, h.tcmp, h.trap⟩, trivial, fun _ => hcause hkeep⟩

end Sys2Proof.Machine
end

section
/-! SUPPORT. Pre-emption requests and the end of a grace (R113, R116, R224, R235): what each does to the cores that it reaches. -/
namespace Sys2Proof.Machine
open Sys2Proof State

/-! The cores of a pre-emption request. -/

/-- A core but for its reservation, which the rollback of another core may end (R121). -/
def Core.freed (c : Core) : Core := { c with reserved := none }

/-- A rendezvous in its hold. -/
def Core.inRdv (c : Core) : Bool := c.grp.n == 0 && c.grp.holds.any Hold.isRdv

/-- A core that a request can still reach. -/
def Core.canBeAsked (c : Core) : Bool := c.chunk.isSome && c.preempt.isNone

/-- `d` is the core `c` after a request with a grace: with none it has rolled back, unless it stood in a rendezvous. -/
def Core.Asked (grace : Nat) (c d : Core) : Prop :=
  d.preempt = some grace ∧ (grace ≠ 0 ∨ c.run ≠ .running ∨ c.inRdv = true → d.run = c.run ∧ d.seg = c.seg) ∧
    (grace = 0 → c.run = .running → c.inRdv = false → c.keepErr = false → d.run = .rolling ∧ d.pc = c.seg.ckaddr ∧ d.arch = c.seg.ck)

theorem Core.asked_freed_iff (grace : Nat) (c d : Core) : Core.Asked grace c.freed d.freed ↔ Core.Asked grace c d := Iff.rfl

theorem Core.canBeAsked_freed (c : Core) : c.freed.canBeAsked = c.canBeAsked := rfl

theorem Core.Asked.not_canBeAsked {grace : Nat} {c d : Core} (h : Core.Asked grace c d) : d.canBeAsked = false := by
  rw [Core.canBeAsked, h.1]
  simp

theorem Core.rollback_keeps (c : Core) : c.rollback.preempt = c.preempt ∧ c.rollback.cmds = c.cmds.filter (·.released) := by
  unfold Core.rollback
  extract_lets dropped d seg
  have hd : d.withoutData = dropped.withoutData := dropped.unwindUndo.withoutData_unwindPool.trans dropped.withoutData_unwindUndo
  exact ⟨(congrArg Core.preempt hd :), (congrArg Core.cmds hd :)⟩

/-- Parking a core leaves the others as they are, but for reservations. -/
theorem State.freed_park_ne (s : State) {c j : Nat} (h : j ≠ c) (t : TrapInfo) (haddr : Word) (kind : Nat) :
    ((s.park c t haddr kind).core j).freed = (s.core j).freed := by
  obtain ⟨r, hr⟩ := s.core_freeForks c j
  rw [(s.park_parks c t haddr kind).other j h, hr]
  rfl

theorem State.freed_preemptRoll_ne (s : State) {c j : Nat} (h : j ≠ c) : ((s.preemptRoll c).core j).freed = (s.core j).freed := by
  have hpark := s.freed_park_ne h { cause := 0x1C7#10 } (s.core c).pc 3
  unfold State.preemptRoll
  extract_lets t
  split
  · exact hpark
  · rw [State.core_modCore_ne _ _ h.symm]
    exact hpark

/-- A core that rolls back for a pre-emption keeps the request, and what it has released; nothing keeping it from that, it stands stopped at
its checkpoint. -/
theorem State.core_preemptRoll (s : State) (c : Nat) :
    ((s.preemptRoll c).core c).preempt = (s.core c).preempt ∧
    ((s.core c).keepErr = false → ((s.preemptRoll c).core c).run = .rolling ∧ ((s.preemptRoll c).core c).pc = (s.core c).seg.ckaddr ∧
      ((s.preemptRoll c).core c).arch = (s.core c).seg.ck ∧ ((s.preemptRoll c).core c).cmds = (s.core c).cmds.filter (·.released)) := by
  obtain ⟨reserved, trec, -, hpark⟩ := s.core_park c (t := { cause := 0x1C7#10 }) (s.core c).pc 3 rfl rfl
  have hback := Core.rolledBack_rollback { s.core c with reserved }
  obtain ⟨hpre, hcmds⟩ := Core.rollback_keeps { s.core c with reserved }
  unfold State.preemptRoll
  dsimp only
  cases hkeep : (s.core c).keepErr
  · rw [if_neg (by decide), State.core_modCore_self, hpark]
    exact ⟨hpre, fun _ => ⟨rfl, hback.pc, hback.arch, hcmds⟩⟩
  · rw [if_pos rfl, hpark]
    exact ⟨hpre, fun h => nomatch h⟩

/-- A request reaches one core. -/
def State.askCore (grace : Nat) (s : State) (c : Nat) : State :=
  if (s.core c).canBeAsked then
    let t := s.modCore c fun k => { k with preempt := some grace }
    if grace = 0 ∧ (s.core c).run = .running ∧ !(s.core c).inRdv then t.preemptRoll c else t
  else s

theorem State.askPreempt_eq (s : State) (core : Nat) : s.askPreempt core =
    if !s.wantsPreempt core then s else (s.preemptGroup core).foldl (State.askCore (s.ioBits 0x6808 0 20)) s := rfl

theorem State.freed_askCore_ne (grace : Nat) (s : State) {c j : Nat} (h : j ≠ c) : ((s.askCore grace c).core j).freed = (s.core j).freed := by
  unfold State.askCore
  extract_lets t
  have ht : t.core j = s.core j := State.core_modCore_ne _ _ h.symm
  split
  · split
    · rw [State.freed_preemptRoll_ne _ h, ht]
    · rw [ht]
  · rfl

theorem State.core_askCore (grace : Nat) (s : State) {c : Nat} (h : (s.core c).canBeAsked = true) :
    Core.Asked grace (s.core c) ((s.askCore grace c).core c) := by
  unfold State.askCore
  extract_lets t
  have ht : t.core c = { s.core c with preempt := some grace } := State.core_modCore_self ..
  rw [if_pos h]
  split
  case isTrue hroll =>
    obtain ⟨hgrace, hrun, hrdv⟩ := hroll
    obtain ⟨hpre, hback⟩ := t.core_preemptRoll c
    rw [ht] at hpre hback
    refine ⟨hpre, fun hno => ?_, fun _ _ _ hkeep => ?_⟩
    · rcases hno with h | h | h
      · exact absurd hgrace h
      · exact absurd hrun h
      · rw [h] at hrdv
        cases hrdv
    · obtain ⟨hrolling, hpc, harch, -⟩ := hback hkeep
      exact ⟨hrolling, hpc, harch⟩
  case isFalse hstay =>
    rw [ht]
    refine ⟨rfl, fun _ => ⟨rfl, rfl⟩, fun hgrace hrun hrdv _ => absurd ⟨hgrace, hrun, by rw [hrdv]; rfl⟩ hstay⟩

theorem State.askCore_of_not {grace : Nat} {s : State} {c : Nat} (h : (s.core c).canBeAsked = false) : s.askCore grace c = s :=
  if_neg (by rw [h]; decide)

/-- A request that reaches a list of cores leaves one that it cannot reach. -/
theorem State.freed_askCores_of_not (grace : Nat) (l : List Nat) {s : State} {j : Nat} (h : (s.core j).canBeAsked = false) :
    ((l.foldl (State.askCore grace) s).core j).freed = (s.core j).freed := by
  induction l generalizing s with
  | nil => rfl
  | cons c l ih =>
    have hstep : ((s.askCore grace c).core j).freed = (s.core j).freed := by
      by_cases hj : j = c
      · subst hj
        rw [State.askCore_of_not h]
      · exact s.freed_askCore_ne grace hj
    refine (ih ?_).trans hstep
    rw [← Core.canBeAsked_freed, hstep]
    exact h

theorem State.freed_askCores_ne (grace : Nat) {l : List Nat} (s : State) {j : Nat} (h : j ∉ l) :
    ((l.foldl (State.askCore grace) s).core j).freed = (s.core j).freed := by
  induction l generalizing s with
  | nil => rfl
  | cons c l ih =>
    rw [List.mem_cons, not_or] at h
    exact (ih _ h.2).trans (s.freed_askCore_ne grace h.1)

theorem State.core_askCores (grace : Nat) {l : List Nat} {s : State} {j : Nat} (hj : j ∈ l) (h : (s.core j).canBeAsked = true) :
    Core.Asked grace (s.core j) ((l.foldl (State.askCore grace) s).core j) := by
  induction l generalizing s with
  | nil => cases hj
  | cons c l ih =>
    by_cases hc : j = c
    · subst hc
      have hasked := s.core_askCore grace h
      have hstay := State.freed_askCores_of_not grace l hasked.not_canBeAsked
      rwa [← Core.asked_freed_iff, List.foldl_cons, hstay, Core.asked_freed_iff]
    · have hstep := s.freed_askCore_ne grace hc
      have hrest := ih ((List.mem_cons.mp hj).resolve_left hc) (s := s.askCore grace c) (by rw [← Core.canBeAsked_freed, hstep]; exact h)
      rw [← Core.asked_freed_iff, hstep, Core.asked_freed_iff] at hrest
      exact hrest

/-- The cores that stop with a chunk are those whose chunk stops with it. -/
theorem State.mem_preemptGroup {s : State} {core : Nat} {k : Chunk} (hchunk : (s.core core).chunk = some k) {d : Nat} {j : Chunk}
    (hj : (s.core d).chunk = some j) : d ∈ s.preemptGroup core ↔ k.together j = true := by
  have hlisted : d ∈ s.cores.map Prod.fst := by
    by_contra h
    rw [State.core_of_not_mem h] at hj
    cases hj
  unfold State.preemptGroup
  rw [hchunk]
  dsimp only
  rw [List.mem_filter, hj]
  exact and_iff_right hlisted

theorem Chunk.together_self (k : Chunk) : k.together k = true := by simp [Chunk.together]

theorem Chunk.together_iff (k j : Chunk) : k.together j = true ↔ j.launch = k.launch ∧ (k.gang = true ∨ j.root = k.root) := by simp [Chunk.together]

end Sys2Proof.Machine
end

section
/-! SUPPORT. Switching out and in (R111, R113, R116, R235): when a core's grace is over, and when its chunk can come back. -/
namespace Sys2Proof.Machine
open Sys2Proof

/-! The end of a grace, and the switch-out. -/

theorem State.nextIsCk_not_graceOver {s : State} {core : Nat} (hn : (s.core core).grp.n = 0) (hck : s.nextIsCk core = true) : s.graceOver core = false := by
  simp [State.graceOver, hn, hck]

theorem State.graceOver_of {s : State} {core : Nat} (hpre : (s.core core).preempt = some 0) (hck : (s.core core).grp.n ≠ 0 ∨ s.nextIsCk core = false) :
    s.graceOver core = true := by
  simpa [State.graceOver, hpre] using hck

theorem exec_preemptGraceExpire_running {s : State} {core : Nat} (hrun : (s.core core).run = .running) : exec (.preemptGraceExpire core) s =
    .next (if (s.core core).grp.holds.isEmpty && s.graceOver core && !(s.core core).seg.exitDone then s.graceExpire core else s) := by
  rw [exec_preemptGraceExpire, execPreemptGraceExpire, hrun]

theorem exec_preemptGraceExpire_rolling {s : State} {core : Nat} (hrun : (s.core core).run = .rolling) :
    exec (.preemptGraceExpire core) s = .next (s.switchOut core) := by
  rw [exec_preemptGraceExpire, execPreemptGraceExpire, hrun]

/-- A core that still runs what it has released is not switched out. -/
theorem State.switchOut_busy {s : State} {core : Nat} (h : (s.core core).cmds ≠ []) : s.switchOut core = s := by
  unfold State.switchOut
  dsimp only
  split
  · rfl
  · exact if_pos (.inr (.inl (by simpa using h)))

/-- A core that has stopped, with nothing under way and a granule for its context. -/
structure State.ReadyOut (s : State) (core : Nat) (k : Chunk) : Prop where
  chunk : (s.core core).chunk = some k
  run : (s.core core).run = .rolling
  cmds : (s.core core).cmds = []
  posts : (s.core core).seg.posts = []
  keyOp : s.pkg.keyOp = []
  granule : (s.ioGet (0xFC00 + 8 * k.ctx)).getLsbD 0 = true

/-- The core when its chunk has been switched out. -/
def Core.switchedOut (c : Core) (k : Chunk) (mask : Half) : Core :=
  { c with
    resident := c.saved k mask :: c.resident, queue := k :: c.queue, chunk := none, run := .idle, wins := [], stash := []
    svc := {}, preempt := none, seg := {}, arch := {} }

theorem State.ReadyOut.switchOut_eq {s : State} {core : Nat} {k : Chunk} (h : s.ReadyOut core k) : s.switchOut core =
    if !s.keyUsable (s.ownOf k.ctx) then s.park core { cause := 0x202#10 } (s.core core).pc 1
    else
      let q := s.flushStash core
      if q.1.1 ≠ 0 then q.2.park core { cause := q.1.1, faddr := BitVec.ofNat 64 q.1.2 } (s.core core).pc 1
      else
        let mask : Half := if (s.core core).kernel.bmask &&& q.2.nextMask core = 0 then 0 else (s.core core).kernel.bmask
        (q.2.saveImage core k.ctx mask).modCore core fun c => c.switchedOut k mask := by
  obtain ⟨hchunk, hrun, hcmds, hposts, hkey, hgranule⟩ := h
  unfold State.switchOut
  dsimp only
  rw [hchunk]
  dsimp only
  rw [if_neg (by simp [hrun, hcmds, hposts, hkey]), if_neg (by simp [hgranule])]
  rfl

/-! Room for the banks of a chunk that comes back (R111). -/

/-- Chunks whose banks are saved, do not overlap `mask` or are those of the chunk itself, all but one of the others saved, need nothing. -/
theorem foldl_roomStep_own (core : Nat) {mask : Half} {own : Chunk} (s : State) (l : List Saved) (kept : Bool)
    (hfree : ∀ x ∈ l, x.savedMask ≠ 0 ∨ x.kernel.bmask &&& mask = 0 ∨ x.chunk = own)
    (hone : (l.filter fun x => decide (x.savedMask = 0 ∧ x.kernel.bmask ≠ 0 ∧ x.chunk ≠ own)).length + kept.toNat ≤ 1) :
    ∃ k, l.foldl (roomStep core mask (some own)) (true, kept, s) = (true, k, s) := by
  induction l generalizing kept with
  | nil => exact ⟨kept, rfl⟩
  | cons r l ih =>
    rw [List.foldl_cons]
    have hrest : ∀ x ∈ l, x.savedMask ≠ 0 ∨ x.kernel.bmask &&& mask = 0 ∨ x.chunk = own := fun x hx => hfree x (.tail _ hx)
    by_cases hr : r.savedMask = 0 ∧ r.kernel.bmask ≠ 0 ∧ r.chunk ≠ own
    · rw [List.filter_cons_of_pos (by simpa using hr), List.length_cons] at hone
      obtain rfl : kept = false := by
        cases kept
        · rfl
        · simp only [Bool.toNat_true] at hone; omega
      obtain ⟨hmask, hbanks, hother⟩ := hr
      have hopen : ¬ (r.savedMask ≠ 0 ∨ r.kernel.bmask = 0 ∨ some own = some r.chunk) := by
        rintro (h | h | h)
        · exact h hmask
        · exact hbanks h
        · exact hother (Option.some.inj h).symm
      have hstep : roomStep core mask (some own) (true, false, s) r = (true, true, s) :=
        (if_neg hopen).trans (if_pos ⟨((hfree r (.head _)).resolve_left fun h => h hmask).resolve_right hother, rfl⟩)
      rw [hstep]
      exact ih true hrest (by simp only [Bool.toNat_true, Bool.toNat_false] at hone ⊢; omega)
    · have hdone : r.savedMask ≠ 0 ∨ r.kernel.bmask = 0 ∨ some own = some r.chunk := by
        by_contra h
        push Not at h
        exact hr ⟨h.1, h.2.1, fun he => h.2.2 (congrArg some he.symm)⟩
      have hstep : roomStep core mask (some own) (true, kept, s) r = (true, kept, s) := if_pos hdone
      rw [hstep]
      rw [List.filter_cons_of_neg (by simpa using hr)] at hone
      exact ih kept hrest hone

theorem State.makeRoom_own {s : State} {core : Nat} {mask : Half} {own : Chunk}
    (hfree : ∀ x ∈ (s.core core).resident, x.savedMask ≠ 0 ∨ x.kernel.bmask &&& mask = 0 ∨ x.chunk = own)
    (hone : ((s.core core).resident.filter fun x => decide (x.savedMask = 0 ∧ x.kernel.bmask ≠ 0 ∧ x.chunk ≠ own)).length ≤ 1) :
    s.makeRoom core mask (some own) = (true, s) := by
  obtain ⟨k, hk⟩ := foldl_roomStep_own core s _ false hfree hone
  rw [State.makeRoom_eq, hk]

/-! The switch-in (R113, R116). -/

theorem SMap.get?_of_mem {α : Type} {m : SMap α} (hm : m.Sorted = true) {q : Nat × α} (hq : q ∈ m) : m.get? q.1 = some q.2 := by
  induction m with
  | nil => cases hq
  | cons p m ih =>
    obtain ⟨k, v⟩ := p
    obtain ⟨hlow, hrest⟩ := SMap.sorted_cons.mp hm
    rw [SMap.get?_cons]
    rcases List.mem_cons.mp hq with rfl | hq
    · exact if_pos rfl
    · rw [if_neg (Nat.ne_of_lt (hlow q hq))]
      exact ih hrest hq

/-- A list that names each core once lists every core as it is read. -/
theorem State.core_of_mem {s : State} (hcores : s.cores.Sorted = true) {q : Nat × Core} (hq : q ∈ s.cores) : s.core q.1 = q.2 := by
  rw [State.core, SMap.getD, SMap.get?_of_mem hcores hq, Option.getD_some]

theorem foldl_stays {α σ : Type} {f : σ → α → σ} {s : σ} {l : List α} (h : ∀ x ∈ l, f s x = s) : l.foldl f s = s := by
  induction l with
  | nil => rfl
  | cons x l ih => rw [List.foldl_cons, h x (.head _), ih fun y hy => h y (.tail _ hy)]

theorem Core.mem_resident_of_returning {c : Core} {r : Saved} (h : c.returning = some r) : r ∈ c.resident := by
  unfold Core.returning at h
  split at h
  · cases h
  · split at h
    · split at h
      · exact List.mem_of_find?_eq_some h
      · cases h
    · cases h

theorem Core.returning_of_chunk {c : Core} {k : Chunk} (h : c.chunk = some k) : c.returning = none := by
  simp [Core.returning, Core.idle, h]

/-- A chunk that resumes together with `k` is on some core. -/
def State.groupOnCore (s : State) (k : Chunk) : Bool := s.cores.any fun q => match q.2.chunk with | some j => k.together j | none => false

theorem State.groupOnCore_eq_false {s : State} (hcores : s.cores.Sorted = true) {k : Chunk} (h : ∀ d j, (s.core d).chunk = some j → k.together j = false) :
    s.groupOnCore k = false := by
  refine List.any_eq_false.mpr fun q hq => ?_
  split
  · next j hj => rw [h q.1 j (by rw [State.core_of_mem hcores hq, hj])]; decide
  · decide

/-- The cores that hold switched-out chunks which resume together with `k`. -/
def State.resumeGroup (s : State) (k : Chunk) : List Nat := (s.cores.map Prod.fst).filter fun c => (s.core c).resident.any fun x => k.together x.chunk

/-- The chunks that resume together with `k` can all come back. -/
def State.resumeReady (s : State) (k : Chunk) : Bool :=
  (s.resumeGroup k).all (fun c => match (s.core c).returning with | some q => k.together q.chunk | none => false) && !s.groupOnCore k

/-- Room on core `c` for the banks of the chunk that comes back there. -/
def roomFor (q : Bool × State) (c : Nat) : Bool × State :=
  match (q.2.core c).returning with
  | some x => let (ok, s) := q.2.makeRoom c x.kernel.bmask (some x.chunk); (q.1 && ok, s)
  | none => q

/-- The chunk of core `c` comes back. -/
def State.comeBack (s : State) (c : Nat) : State :=
  match (s.core c).returning with
  | some q => (s.modCore c fun k => k.dequeue q.chunk).restore c q
  | none => s

theorem State.switchIn_eq {s : State} {core : Nat} {r : Saved} (hreturn : (s.core core).returning = some r) : s.switchIn core =
    if !s.resumeReady r.chunk ∨ !s.pkg.keyOp.isEmpty ∨ !s.keyUsable (s.ownOf r.chunk.ctx) then s
    else
      let q := (s.resumeGroup r.chunk).foldl roomFor (true, s)
      if !q.1 then q.2 else (s.resumeGroup r.chunk).foldl State.comeBack q.2 := by
  unfold State.switchIn
  rw [hreturn]
  rfl

theorem State.switchIn_groupOnCore {s : State} {core : Nat} {r : Saved} (hreturn : (s.core core).returning = some r) (h : s.groupOnCore r.chunk = true) :
    s.switchIn core = s := by
  rw [State.switchIn_eq hreturn, if_pos (.inl (by simp [State.resumeReady, h]))]

theorem State.comeBack_none (s : State) {c : Nat} (h : (s.core c).returning = none) : s.comeBack c = s := by rw [State.comeBack, h]

theorem State.comeBack_some (s : State) {c : Nat} {r : Saved} (h : (s.core c).returning = some r) :
    s.comeBack c = (s.modCore c fun k => k.dequeue r.chunk).restore c r := by rw [State.comeBack, h]

/-- A core whose chunk has come back stays as it is. -/
theorem State.comeBack_comeBack (s : State) (c : Nat) : (s.comeBack c).comeBack c = s.comeBack c := by
  cases hreturn : (s.core c).returning with
  | none => rw [s.comeBack_none hreturn, s.comeBack_none hreturn]
  | some r =>
    rw [s.comeBack_some hreturn]
    exact State.comeBack_none _ (Core.returning_of_chunk (State.restore_restored _ c r).1.chunk)

/-- The one core of its group switches its chunk in. -/
theorem State.switchIn_alone {s : State} {core : Nat} {r : Saved} (hreturn : (s.core core).returning = some r)
    (hother : ∀ d, d ≠ core → ∀ x ∈ (s.core d).resident, r.chunk.together x.chunk = false) (hkey : s.pkg.keyOp = [])
    (hgone : s.groupOnCore r.chunk = false) (hroom : s.makeRoom core r.kernel.bmask (some r.chunk) = (true, s))
    (husable : s.keyUsable (s.ownOf r.chunk.ctx) = true) :
    s.switchIn core = (s.modCore core fun c => c.dequeue r.chunk).restore core r := by
  have hself : core ∈ s.resumeGroup r.chunk := by
    have hmem := Core.mem_resident_of_returning hreturn
    refine List.mem_filter.mpr ⟨?_, List.any_eq_true.mpr ⟨r, hmem, r.chunk.together_self⟩⟩
    by_contra h
    rw [State.core_of_not_mem h] at hmem
    cases hmem
  have honly : ∀ c ∈ s.resumeGroup r.chunk, c = core := by
    intro c hc
    by_contra hne
    obtain ⟨x, hx, htogether⟩ := List.any_eq_true.mp (List.mem_filter.mp hc).2
    rw [hother c hne x hx] at htogether
    cases htogether
  have hready : s.resumeReady r.chunk = true := by
    rw [State.resumeReady, hgone, Bool.not_false, Bool.and_true]
    refine List.all_eq_true.mpr fun c hc => ?_
    rw [honly c hc, hreturn]
    exact r.chunk.together_self
  have hmake : (s.resumeGroup r.chunk).foldl roomFor (true, s) = (true, s) :=
    foldl_stays fun c hc => by rw [honly c hc, roomFor, hreturn]; simp only [hroom, Bool.and_self]
  rw [State.switchIn_eq hreturn, if_neg (by simp [hready, hkey, husable]), hmake]
  dsimp only
  rw [if_neg (by decide)]
  obtain ⟨c, l, hgroup⟩ := List.exists_cons_of_ne_nil (List.ne_nil_of_mem hself)
  rw [hgroup] at honly ⊢
  obtain rfl := honly c (.head _)
  rw [List.foldl_cons, foldl_stays fun d hd => by rw [honly d (.tail _ hd), State.comeBack_comeBack], s.comeBack_some hreturn]

end Sys2Proof.Machine
end

section
/-! PROOF. O39, pre-emption, switching out and coming back (R111, R113, R116, R224, R228, R235, R349): it fails for a list of cores that
names one twice. On lists that name each core once, as `SMap.ins` keeps them (`SMap.sorted_ins`), what it says of each event holds. -/
namespace Sys2Proof.Proofs
open Sys2Proof Machine

/-! A list that names core 0 twice. The core read is the first, from which the chunk is out; the second, which no read reaches, has it. -/

/-- The chunk of core 0. -/
def outChunk : Chunk := { launch := 4, ctx := 0, prio := 0, lo := 0, hi := 6, next := 1, cur := 0, gang := false, started := true }

/-- What core 0 keeps of it. -/
def outSaved : Saved :=
  { chunk := outChunk, kernel := {}, arch := {}, ckaddr := 64, tiles := [], accs := [], b0 := {}, b1 := {}, log := [], wins := [], svbase := 0
    tcmp := 0, sq := [], banks := [], savedMask := 0, spPoison := [], parked := false, posts := [], rolls := 0, arrived := [], rdvDone := false
    replayed := false, e := [] }

/-- The state whose list names core 0 twice. -/
def coreTwice : State :=
  ({ State.reset with cores := [(0, { queue := [outChunk], resident := [outSaved] }), (0, { chunk := some outChunk })] } : State).ioField 0x2000 6 1 1

theorem returning_coreTwice : (coreTwice.core 0).returning = some outSaved := by decide +kernel

theorem core_coreTwice_ne {d : Nat} (h : d ≠ 0) : coreTwice.core d = Core.reset d :=
  State.core_of_not_mem (by simpa [coreTwice, State.ioField, State.ioSet] using h)

theorem core_coreTwice_zero : coreTwice.core 0 = { queue := [outChunk], resident := [outSaved] } := rfl

theorem chunk_coreTwice (d : Nat) : (coreTwice.core d).chunk = none := by
  by_cases h : d = 0
  · rw [h, core_coreTwice_zero]
  · rw [core_coreTwice_ne h]; rfl

/-- The chunk does not come back: the second entry counts as a core that has it. -/
theorem exec_chunkSwitchIn_coreTwice : exec (.chunkSwitchIn 0) coreTwice = .next coreTwice := by
  rw [exec_chunkSwitchIn, execChunkSwitchIn, State.switchIn_groupOnCore returning_coreTwice (by decide +kernel)]

/-- Refutes O39: a switch-in asks every entry of the list of cores whether it has a chunk that resumes with the one to come back, so that in
`coreTwice` core 0 stays without its chunk, though none of the cores that the statement's hypotheses read has one. -/
theorem not_preemptionResults : ¬ Obligations.PreemptionResults := by
  unfold Obligations.PreemptionResults
  intro h
  obtain ⟨hevents, -⟩ := h
  obtain ⟨-, -, -, -, -, hin, -⟩ := hevents coreTwice 0
  have hback := hin outSaved returning_coreTwice
    (fun d hd x hx => by rw [core_coreTwice_ne hd] at hx; exact nomatch hx) rfl
    (fun d j hj => by rw [chunk_coreTwice] at hj; cases hj)
    (by decide +kernel) (by decide +kernel) (by decide +kernel)
  rw [exec_chunkSwitchIn_coreTwice] at hback
  have hchunk := congrArg (fun t : State => (t.core 0).chunk) (Host.Outcome.next.inj hback)
  exact nomatch (chunk_coreTwice 0).symm.trans (hchunk.trans (State.restore_restored ..).1.chunk)

/-! What a request does. -/

/-- A request reaches the core and those whose chunks stop with its own (R113, R116). -/
theorem exec_preemptRequest_asked {s : State} {core : Nat} {k : Chunk} (hchunk : (s.core core).chunk = some k) (hpre : (s.core core).preempt = none)
    (hqueue : ∃ q ∈ (s.core core).queue, k.prio < q.prio) (hrun : (s.core core).run = .running ∨ (s.core core).run = .parked) :
    ∃ t, exec (.preemptRequest core) s = .next t ∧ Core.Asked (s.ioBits 0x6808 0 20) (s.core core) (t.core core) ∧
      ∀ d j, (s.core d).chunk = some j → (s.core d).preempt = none →
        (t.core d).preempt = if j.launch = k.launch ∧ (k.gang = true ∨ j.root = k.root) then some (s.ioBits 0x6808 0 20) else none := by
  have hwants : s.wantsPreempt core = true := by
    simp only [State.wantsPreempt, hchunk, hpre, Option.isNone_none, Bool.and_true, Bool.and_eq_true, Bool.or_eq_true, beq_iff_eq]
    exact ⟨hrun, .inl (List.any_eq_true.mpr (hqueue.imp fun q hq => ⟨hq.1, decide_eq_true hq.2⟩))⟩
  refine ⟨_, by rw [exec_preemptRequest, execPreemptRequest, State.askPreempt_eq, hwants, Bool.not_true, if_neg (by decide)], ?_, fun d j hj hd => ?_⟩
  · exact State.core_askCores _ ((State.mem_preemptGroup hchunk hchunk).mpr k.together_self) (by simp [Core.canBeAsked, hchunk, hpre])
  · split
    case isTrue h =>
      have hmem := (State.mem_preemptGroup hchunk hj).mpr ((k.together_iff j).mpr h)
      exact (State.core_askCores _ hmem (by simp [Core.canBeAsked, hj, hd])).1
    case isFalse h =>
      have hmem := mt (fun hm => (k.together_iff j).mp ((State.mem_preemptGroup hchunk hj).mp hm)) h
      exact (congrArg Core.preempt (State.freed_askCores_ne _ s hmem)).trans hd

/-! What the end of a grace does. -/

/-- A core stops at a ck bundle that stands next, instead. -/
theorem exec_preemptGraceExpire_nextIsCk {s : State} {core : Nat} (hrun : (s.core core).run = .running) (hn : (s.core core).grp.n = 0)
    (hck : s.nextIsCk core = true) : exec (.preemptGraceExpire core) s = .next s := by
  rw [exec_preemptGraceExpire_running hrun, State.nextIsCk_not_graceOver hn hck, Bool.and_false, Bool.false_and, if_neg (by decide)]

/-- An EXIT whose commit is still to come is not rolled back. -/
theorem exec_preemptGraceExpire_exiting {s : State} {core : Nat} (hrun : (s.core core).run = .running) (hexit : (s.core core).seg.exiting = true)
    (hpre : (s.core core).preempt = some 0) : exec (.preemptGraceExpire core) s = .next s := by
  have hstays : s.graceExpire core = s := by
    unfold State.graceExpire
    dsimp only
    rw [if_pos ⟨hrun, hpre⟩, if_pos hexit]
  rw [exec_preemptGraceExpire_running hrun, hstays, ite_self]

/-- A core whose grace is over rolls back, and waits for what it has released (R113, R224). -/
theorem exec_preemptGraceExpire_rolls {s : State} {core : Nat} (hrun : (s.core core).run = .running) (hpre : (s.core core).preempt = some 0)
    (hholds : (s.core core).grp.holds = []) (hck : (s.core core).grp.n ≠ 0 ∨ s.nextIsCk core = false) (hkeep : (s.core core).keepErr = false)
    (hexiting : (s.core core).seg.exiting = false) (hexit : (s.core core).seg.exitDone = false) (hcmds : ∃ x ∈ (s.core core).cmds, x.released = true) :
    ∃ t, exec (.preemptGraceExpire core) s = .next t ∧ (t.core core).run = .rolling ∧ (t.core core).pc = (s.core core).seg.ckaddr ∧
      (t.core core).arch = (s.core core).seg.ck := by
  obtain ⟨hrolling, hpc, harch, hreleased⟩ := (s.core_preemptRoll core).2 hkeep
  have hbusy : ((s.preemptRoll core).core core).cmds ≠ [] := by
    obtain ⟨x, hx, hrel⟩ := hcmds
    rw [hreleased]
    exact List.ne_nil_of_mem (List.mem_filter.mpr ⟨hx, hrel⟩)
  have hexpire : s.graceExpire core = s.preemptRoll core := by
    unfold State.graceExpire
    dsimp only
    rw [if_pos ⟨hrun, hpre⟩, hexiting, if_neg (by decide), State.switchOut_busy hbusy]
  refine ⟨_, ?_, hrolling, hpc, harch⟩
  rw [exec_preemptGraceExpire_running hrun, hexpire, hholds, State.graceOver_of hpre hck, hexit, if_pos (by decide)]

/-- A stopped core whose OWN slot is not usable parks (log 82). -/
theorem exec_preemptGraceExpire_parks {s : State} {core : Nat} {k : Chunk} (h : s.ReadyOut core k) (husable : s.keyUsable (s.ownOf k.ctx) = false) :
    exec (.preemptGraceExpire core) s = .next (s.park core { cause := 0x202#10 } (s.core core).pc 1) := by
  rw [exec_preemptGraceExpire_rolling h.run, h.switchOut_eq, husable, if_pos (by decide)]

/-- A stopped core is switched out (R113, R235). -/
theorem exec_preemptGraceExpire_switchedOut {s : State} {core : Nat} {k : Chunk} (h : s.ReadyOut core k)
    (husable : s.keyUsable (s.ownOf k.ctx) = true) (hwins : (s.core core).wins = []) :
    ∃ t r rest, exec (.preemptGraceExpire core) s = .next t ∧ (t.core core).chunk = none ∧ (t.core core).run = .idle ∧
      (t.core core).resident = r :: rest ∧ r.chunk = k ∧ ∃ q, (t.core core).queue = k :: q := by
  have hflush : s.flushStash core = ((0, 0), s) := by rw [State.flushStash, hwins]; rfl
  rw [exec_preemptGraceExpire_rolling h.run, h.switchOut_eq, husable, if_neg (by decide), hflush]
  dsimp only
  rw [if_neg (by decide)]
  generalize (if (s.core core).kernel.bmask &&& s.nextMask core = 0 then 0 else (s.core core).kernel.bmask : Half) = mask
  have hcore := (s.saveImage core k.ctx mask).core_modCore_self core fun c => c.switchedOut k mask
  exact ⟨_, _, _, rfl, by rw [hcore]; rfl, by rw [hcore]; rfl, by rw [hcore]; rfl, rfl, _, by rw [hcore]; rfl⟩

/-! What a switch-in does. -/

/-- On a list that names each core once a switched-out chunk comes back, when nothing that resumes with it stands elsewhere (R113, R116;
log 114). -/
theorem exec_chunkSwitchIn_restores {s : State} {core : Nat} {r : Saved} (hcores : s.cores.Sorted = true) (hreturn : (s.core core).returning = some r)
    (hother : ∀ d, d ≠ core → ∀ x ∈ (s.core d).resident, r.chunk.together x.chunk = false) (hkey : s.pkg.keyOp = [])
    (hgone : ∀ d j, (s.core d).chunk = some j → r.chunk.together j = false)
    (hfree : ∀ x ∈ (s.core core).resident, x.savedMask ≠ 0 ∨ x.kernel.bmask &&& r.kernel.bmask = 0 ∨ x.chunk = r.chunk)
    (hone : ((s.core core).resident.filter fun x => decide (x.savedMask = 0 ∧ x.kernel.bmask ≠ 0 ∧ x.chunk ≠ r.chunk)).length ≤ 1)
    (husable : s.keyUsable (s.ownOf r.chunk.ctx) = true) :
    exec (.chunkSwitchIn core) s = .next ((s.modCore core fun x => x.dequeue r.chunk).restore core r) := by
  have hroom := State.makeRoom_own hfree hone
  rw [exec_chunkSwitchIn, execChunkSwitchIn,
    State.switchIn_alone hreturn hother hkey (State.groupOnCore_eq_false hcores hgone) hroom husable]

/-- A restored core holds what the image gives, at the checkpoint; no post reaches a flag but its own (R113, R224, R235, R343; log 37). -/
theorem restore_holds_image (s : State) (core : Nat) (r : Saved) :
    let m := (s.readImage core r).1
    let hurt := (s.readImage core r).2.1
    let c := (s.restore core r).core core
    c.run = (if hurt then .parked else .running) ∧ (hurt = true → c.trec.cause = 0x141#10) ∧ c.pc = r.ckaddr ∧ c.chunk = some r.chunk ∧
      c.Restored m ∧ c.arch.s = m.arch.s ∧ c.arch.x = m.arch.x ∧ c.arch.v = m.arch.v ∧ c.arch.shadow = m.arch.shadow ∧ c.arch.lands = m.arch.lands ∧
      c.arch.seed = m.arch.seed ∧ c.seg.replayed = r.replayed ∧ ∀ f < 16, (∀ q ∈ r.posts, q.1 ≠ f) → c.rF f = m.arch.f.getD f 0 := by
  obtain ⟨hcore, hrun, hcause⟩ := s.restore_restored core r
  have hsame := s.sameRun_readImage core r
  obtain ⟨f, hposted, hflags⟩ := (s.readImage core r).1.arch.posted_eq r.posts
  have harch := hcore.arch
  rw [hsame.posts, hposted] at harch
  refine ⟨hrun, hcause, hcore.pc.trans hsame.ckaddr, hcore.chunk.trans (congrArg some hsame.chunk), hcore, ?_, ?_, ?_, ?_, ?_, ?_,
    hcore.replayed.trans hsame.replayed, fun i _ hi => ?_⟩
  case refine_7 => exact (congrArg (fun a : Arch => a.f.getD i 0) harch).trans (hflags i hi)
  all_goals rw [harch]

/-- The registers s0 to s31 of an image are those of the checkpoint (R235). -/
theorem headImage_sRegisters (c : Core) (a : Arch) {r : Nat} (hr : r < 32) :
    imageAt c.headImage (8 * r) 8 = (c.seg.ck.s.getD r 0).toNat ∧ (Arch.ofImage c.headImage a).1.s.getD r 0 = c.seg.ck.s.getD r 0 := by
  have himage := imageAt_headImage c hr
  refine ⟨himage, ?_⟩
  rw [Arch.s_ofImage, getD_regsAt _ _ _ hr, Nat.zero_add, himage, BitVec.ofNat_toNat, BitVec.setWidth_eq]

end Sys2Proof.Proofs
end

section
/-! SUPPORT. Shadowed buffers and stash windows (R134, R415, R422-R424): what a publication waits for, the exchange of the copies, and the
change of a window whose operands pass the checks. -/
namespace Sys2Proof.Machine
open Sys2Proof

/-! Publication (R134, R422). -/

/-- A publication of a shadowed buffer waits at the boundary of its group, when the segment withheld nothing before its bundle. -/
theorem exec_cpub_holds {o : OpInfo} {s : State} (hguard : s.guard0 o = true) (harr : s.arrivalOk o.arr) {r : CpubArgs} {w : Word}
    (hplan : s.cur.kernel.plan[r.buf.toNat]? = some w) (hshadow : w.getLsbD 32 = true) (hrel : s.cur.withheldIn s.issue.relN = false) :
    exec (.cpub o r) s = .next ((s.hold (.cpub r.buf.toNat s.seq)).arrival o.arr) := by
  rw [exec_cpub, execCpub]
  refine State.runNow_true hguard ?_ (State.arrivalOk_hold harr _)
  simp only [hplan, hshadow, hrel]
  rfl

/-- The exchange concerns the copies of its own buffer alone. -/
theorem Core.shadow_swapShadow (c : Core) (buf k : Nat) :
    (c.swapShadow buf).arch.shadow.getD k false = if k = buf then !c.arch.shadow.getD k false else c.arch.shadow.getD k false := by
  rw [Core.swapShadow]
  split
  case isTrue h => rw [h, SMap.getD_put_self]
  case isFalse h => rw [SMap.getD_put_ne _ _ _ _ (Ne.symm h)]

theorem bits_low (x w : Nat) : bits x 0 w = x % 2 ^ w := by rw [bits, Nat.pow_zero, Nat.div_one]

/-- A check that finds nothing. -/
theorem raiseIf_bind {b : Bool} {x : Cause} (h : b = false) {α : Type} {f : Unit → Except TrapInfo α} : (raiseIf b x >>= f) = f () := by
  rw [h]; rfl

/-! A change of a window (R423). -/

namespace State

variable (s : State) (r : StmapArgs)

/-- The global address of the window that a stmap describes in its d register. -/
def namedGva : Nat := bits (dWord (s.cur.rD r.a.toNat) 0).toNat 0 52

/-- The window itself: one of size 0 is disabled. -/
def namedWindow : Window :=
  let d := s.cur.rD r.a.toNat
  let size := bits (dWord d 2).toNat 0 15
  { gva := BitVec.ofNat 64 (s.namedGva r), spbase := bits (dWord d 1).toNat 0 20, size, en := size != 0 }

theorem namedWindow_en : (s.namedWindow r).en = ((s.namedWindow r).size != 0) := rfl

/-- The window that it replaces. -/
def oldWindow : Window := (s.cur.wins.get? r.win.toNat).getD {}

/-- The windows that the operations of the bundle see: those that stood before it. -/
def winsBefore : SMap Window := s.issue.wins.getD s.cur.wins

/-- The written bytes of an enabled window go back (R424). -/
def giveBack (old : Window) : (Cause × Nat) × State := if old.en then s.flushWindow s.issue.core old true else ((0, 0), s)

/-- Window `i` changes from `old` to `w`: the sectors of the old one leave the stash, and the bundle's commands keep the windows `before`. -/
def putWindow (i : Nat) (old w : Window) (before : SMap Window) : State :=
  let gone := if old.en then s.cur.sectorsIn old else []
  let first := match s.issue.since with | some (q, _) => q | none => s.seq
  ({ s with issue := { s.issue with wins := some before } } : State).modCur fun c => { c with
    wins := c.wins.put {} i w, stash := c.stash.filter fun e => !gone.contains e.1
    cmds := c.cmds.map fun k => if first ≤ k.seq ∧ k.wins = none then { k with wins := some before } else k }

/-- What a stmap does once its operands have passed the checks. -/
def changeWindow : Res :=
  if s.oldWindow r = s.namedWindow r then .ok s
  else
    let f := s.giveBack (s.oldWindow r)
    if f.1.1 = 0 then .ok (f.2.putWindow r.win.toNat (s.oldWindow r) (s.namedWindow r) s.winsBefore) else trapA f.1.1 f.1.2

/-- The operands pass the checks: a checkpoint bundle, a window in place that meets no other, banks that the kernel has. -/
structure StmapOk : Prop where
  ck : s.issue.ck = true
  gva : s.namedGva r % 64 = 0
  base : (s.namedWindow r).spbase % 64 = 0
  size : (s.namedWindow r).size ≤ 16384
  fits : (s.namedWindow r).spbase + 64 * (s.namedWindow r).size ≤ 2 ^ 20
  apart : (s.namedWindow r).size ≠ 0 → ∀ q ∈ s.winsBefore, q.1 ≠ r.win.toNat → q.2.en = true → q.2.meets (s.namedWindow r) = false
  banks : (s.namedWindow r).size ≠ 0 → s.issue.core < 256 → ∀ b < 16, b * 65536 < (s.namedWindow r).spbase + 64 * (s.namedWindow r).size →
    (s.namedWindow r).spbase < (b + 1) * 65536 → s.cur.kernel.bmask.getLsbD b = true

end State

namespace State.StmapOk

variable {s : State} {r : StmapArgs} (h : s.StmapOk r)
include h

theorem placed : (s.namedGva r % 64 != 0 || (s.namedWindow r).spbase % 64 != 0 ||
    decide (16384 < (s.namedWindow r).size) || decide (2 ^ 20 < (s.namedWindow r).spbase + 64 * (s.namedWindow r).size)) = false := by
  simp only [h.gva, h.base, Nat.not_lt.mpr h.size, Nat.not_lt.mpr h.fits, bne_self_eq_false, decide_false, Bool.or_false]

theorem meetsNone : ((s.namedWindow r).en && s.winsBefore.any fun q => q.1 != r.win.toNat && q.2.en && q.2.meets (s.namedWindow r)) = false := by
  by_cases hsize : (s.namedWindow r).size = 0
  · simp [s.namedWindow_en r, hsize]
  · rw [Bool.and_eq_false_iff, List.any_eq_false]
    refine .inr fun q hq => ?_
    have hq := h.apart hsize q hq
    simpa using hq

theorem inBanks : ((s.namedWindow r).en && !isCtl s.issue.core && (List.range 16).any fun b =>
    decide (b * 65536 < (s.namedWindow r).spbase + 64 * (s.namedWindow r).size ∧ (s.namedWindow r).spbase < (b + 1) * 65536) &&
      !s.cur.kernel.bmask.getLsbD b) = false := by
  by_cases hsize : (s.namedWindow r).size = 0
  · simp [s.namedWindow_en r, hsize]
  by_cases hctl : s.issue.core < 256
  · rw [Bool.and_eq_false_iff, List.any_eq_false]
    refine .inr fun b hb => ?_
    have hb := h.banks hsize hctl b (List.mem_range.mp hb)
    simpa using hb
  · simp [isCtl, Nat.not_lt.mp hctl]

end State.StmapOk

/-- A stmap whose operands pass the checks ends in the change of its window. -/
theorem exec_stmap_changes {o : OpInfo} {s t : State} {r : StmapArgs} (hguard : s.guard0 o = true) (hok : s.StmapOk r)
    (hchange : s.changeWindow r = .ok t) (harr : t.arrivalOk o.arr) : exec (.stmap o r) s = .next (t.arrival o.arr) := by
  rw [exec_stmap, execStmap]
  refine State.runNow_true hguard ?_ harr
  have hck : (!s.issue.ck) = false := by rw [hok.ck]; rfl
  refine Eq.trans ?_ hchange
  refine (raiseIf_bind hck).trans ((raiseIf_bind hok.placed).trans ((raiseIf_bind hok.meetsNone).trans ((raiseIf_bind hok.inBanks).trans ?_)))
  unfold State.changeWindow State.giveBack State.oldWindow
  generalize (s.cur.wins.get? r.win.toNat).getD {} = old
  refine if_congr Iff.rfl rfl ?_
  -- both sides go on from what the flush has left
  generalize (if old.en = true then s.flushWindow s.issue.core old true else ((0, 0), s)) = back
  obtain ⟨⟨cause, va⟩, u⟩ := back
  simp only [Option.isNone_iff_eq_none]
  by_cases hcause : cause = 0
  · subst hcause; rfl
  · rw [if_neg hcause, raiseAt, if_pos (bne_iff_ne.mpr hcause)]
    rfl

namespace State

variable {s t : State} {r : StmapArgs}

theorem namedGva_eq (s : State) (r : StmapArgs) : s.namedGva r = (dWord (s.cur.rD r.a.toNat) 0).toNat % 2 ^ 52 := bits_low ..

theorem namedWindow_eq (s : State) (r : StmapArgs) :
    let d := s.cur.rD r.a.toNat
    let size := (dWord d 2).toNat % 2 ^ 15
    s.namedWindow r = { gva := BitVec.ofNat 64 ((dWord d 0).toNat % 2 ^ 52), spbase := (dWord d 1).toNat % 2 ^ 20, size, en := size != 0 } := by
  simp only [namedWindow, namedGva_eq, bits_low]

/-- A stmap of the window that stands changes nothing. -/
theorem changeWindow_same (h : s.oldWindow r = s.namedWindow r) : s.changeWindow r = .ok s := if_pos h

/-- Once the written bytes of the old window have all gone back, the new one takes its place. -/
theorem changeWindow_other (h : s.oldWindow r ≠ s.namedWindow r) (hback : (s.giveBack (s.oldWindow r)).1.1 = 0) :
    s.changeWindow r = .ok ((s.giveBack (s.oldWindow r)).2.putWindow r.win.toNat (s.oldWindow r) (s.namedWindow r) s.winsBefore) :=
  (if_neg h).trans (if_pos hback)

theorem arrivalOk_putWindow {a : Option Arrival} (h : t.arrivalOk a) (i : Nat) (old w : Window) (before : SMap Window) :
    (t.putWindow i old w before).arrivalOk a :=
  State.arrivalOk_modCur (State.arrivalOk_issue h { t.issue with wins := some before } rfl) _ rfl rfl

end State

end Sys2Proof.Machine

namespace Sys2Proof.Proofs
open Sys2Proof Sys2Proof.Machine

/-- Settles O23: a publication is held (`exec_cpub_holds`); a stmap whose operands pass the checks is the change of its window
(`exec_stmap_changes`), which is none, or follows a flush that has given the old window's bytes back. -/
theorem windowResults : Obligations.WindowResults := by
  unfold Obligations.WindowResults
  intro o s hguard harr
  refine ⟨fun r w => exec_cpub_holds hguard harr, Core.shadow_swapShadow, fun r => ?_⟩
  intro d gva sb size w old hck hgva hbase hsize hfits before hapart hbanks
  have hw : s.namedWindow r = w := s.namedWindow_eq r
  have hok : s.StmapOk r := by
    refine ⟨hck, (s.namedGva_eq r).symm ▸ hgva, ?_, ?_, ?_, ?_, ?_⟩ <;> rw [hw]
    exacts [hbase, hsize, hfits, hapart, hbanks]
  refine ⟨fun hsame => exec_stmap_changes hguard hok (State.changeWindow_same (hsame.trans hw.symm)) harr, ?_⟩
  intro hother f t gone first hback ht
  have hchange := State.changeWindow_other (fun h => hother (h.trans hw)) hback
  rw [hw] at hchange
  exact exec_stmap_changes hguard hok hchange (State.arrivalOk_putWindow ht ..)

end Sys2Proof.Proofs
end

section
/-! SUPPORT. Events of the memory hierarchy (R139, R140, R143-R147, R462): the end of a slice's retirement, what the scrubber forgets and
poisons, and what an injection changes. -/
namespace Sys2Proof.Machine
open Sys2Proof

/-! Slice retirement (R145). -/

/-- A slice with a set of fewer than 2 usable ways that still lives has to retire. -/
theorem State.sliceDue_of {s : State} {slice : Nat} (hset : ∃ q ∈ s.blaze, q.1 / 8192 = slice ∧ (s.usable q.1).length < 2)
    (hlive : (s.ioGet (0x8210 + 8 * (slice / 64))).getLsbD (slice % 64) = true) : s.sliceDue slice = true := by
  obtain ⟨q, hq, hslice, hways⟩ := hset
  rw [State.sliceDue, hlive, Bool.and_true, List.any_eq_true]
  exact ⟨q, hq, by simp [hslice, hways]⟩

/-- A retirement ends with the slice's live bit cleared, which no step after it sets again, and with a record. -/
theorem State.retireSlice_due {s : State} {slice : Nat} (hslice : slice < 192) (hdue : s.sliceDue slice = true) :
    ((s.retireSlice slice).ioGet (0x8210 + 8 * (slice / 64))).getLsbD (slice % 64) = false ∧
      ∃ q r, (s.retireSlice slice).recq = q ++ [r] ∧ r.typ = 2 := by
  unfold State.retireSlice
  -- the lists' entries play no part: no check of this proof is to count them out
  generalize List.range 4096 = places, List.range 256 = regions
  extract_lets live s1 s2 o s3 next
  rw [hdue, Bool.not_true, if_neg (by decide)]
  have hcleared : (s3.ioGet o).getLsbD (slice % 64) = false := by
    rw [show s3.ioGet o = _ from State.ioGet_ioSet_self .., getLsbD_setBits _ _ _ _ (Nat.mod_lt _ (by decide)), if_pos (by omega), Nat.zero_testBit]
  split
  next s4 _ hmap =>
  have hkept : s4.ioGet o = s3.ioGet o := by
    rw [show s4 = _ from (congrArg Prod.fst hmap).symm]
    refine List.foldlRecOn (motive := fun q : State × Nat => q.1.ioGet o = s3.ioGet o) places _ rfl fun q hq i _ => ?_
    dsimp only
    split
    · exact (State.ioGet_ioSet_ne _ _ (by omega)).trans hq
    · exact hq
  exact ⟨(congrArg (fun v : Word => v.getLsbD (slice % 64)) hkept).trans hcleared, _, _, rfl, rfl⟩

/-! The scrubber (R143, R144, R146, R470). -/

/-- A map without the keys of a kind lists none of them. -/
theorem SMap.has_filter_eq_false {α : Type} (m : SMap α) (p : Nat → Bool) {i : Nat} (hi : p i = false) :
    SMap.has (m.filter fun q => p q.1) i = false := by
  rw [← Bool.not_eq_true, SMap.has_iff_mem]
  intro hmem
  obtain ⟨q, hq, rfl⟩ := List.mem_map.mp hmem
  exact absurd (List.mem_filter.mp hq).2 (by rw [hi]; decide)

theorem SMap.has_del_ne {α : Type} (m : SMap α) {i j : Nat} (h : j ≠ i) : (m.del i).has j = m.has j := by
  rw [SMap.has_del, decide_eq_false h.symm, Bool.not_false, Bool.true_and]

theorem wayNo_div (sn : Nat) {w : Nat} (hw : w < 16) : wayNo sn w / 16 = sn := by rw [wayNo]; omega

/-- A scrub of a set ends with no count of corrected errors for any of its ways. -/
theorem exec_patrolScrub_l2set (s : State) (slice set : Nat) : ∃ t, exec (.patrolScrub (.l2set slice set)) s = .next t ∧
    ∀ w < 16, t.wayCnt.has (wayNo (setNo slice set) w) = false := by
  rw [exec_patrolScrub, execPatrolScrub]
  dsimp only
  generalize (List.range 16).foldl _ s = u
  refine ⟨_, rfl, fun w hw => ?_⟩
  exact SMap.has_filter_eq_false _ (fun n => n / 16 != setNo slice set) (by rw [wayNo_div _ hw]; exact bne_self_eq_false _)

/-- A sector whose line no way holds is not in L2. -/
theorem State.inL2_of_lineOf {s : State} {k : Nat} (h : s.lineOf (k / 2) = none) : s.inL2 k = false := by rw [State.inL2, h]

theorem State.SameHome.lineOf {s t : State} (h : State.SameHome s t) (line : Nat) : t.lineOf line = s.lineOf line := by
  rw [State.lineOf, State.lineOf, h.wayOf, h.home, h.l2]

/-- An uncorrectable word of HBM that L2 does not hold is replaced, and its sector is poisoned. -/
theorem State.scrubWord_lost {s : State} {pa : Nat} (herr : s.hbmErr.has (pa / 8) = true) (hline : s.lineOf (pa / 64) = none) :
    (s.scrubWord pa).hbmErr = s.hbmErr.del (pa / 8) ∧ (s.scrubWord pa).hbmCor.has (pa / 8) = false ∧
      (s.scrubWord pa).poison = s.poison.ins (pa / 32) () ∧ (s.scrubWord pa).mem = s.mem := by
  unfold State.scrubWord
  extract_lets word sec s1 s2 s3
  have hs1 : s1.hbmErr = s.hbmErr ∧ s1.hbmCor.has word = false ∧ s1.poison = s.poison ∧ s1.mem = s.mem ∧ State.SameHome s s1 := by
    subst s1
    split
    case isTrue => exact ⟨rfl, SMap.has_del_self .., rfl, rfl, ⟨rfl, rfl, rfl, rfl, rfl⟩⟩
    case isFalse h => exact ⟨rfl, eq_false_of_ne_true h, rfl, rfl, ⟨rfl, rfl, rfl, rfl, rfl⟩⟩
  obtain ⟨herr1, hcor1, hpoison1, hmem1, hhome1⟩ := hs1
  have hl2 : s2.inL2 sec = false := by
    refine State.inL2_of_lineOf ?_
    have hhome2 : State.SameHome s s2 := ⟨hhome1.mem, hhome1.io, hhome1.l2, hhome1.blaze, hhome1.deck⟩
    rw [hhome2.lineOf, Nat.div_div_eq_div_mul]
    exact hline
  have hs3 : s3 = { s2 with poison := s2.poison.ins sec () } := if_neg (by rw [hl2]; decide)
  rw [if_pos (herr1 ▸ herr), hs3]
  exact ⟨congrArg (SMap.del · word) herr1, hcor1, congrArg (SMap.ins · sec ()) hpoison1, hmem1⟩

/-! Error injection (R462). -/

/-- A field of a register below SMAP leaves every line in its place. -/
theorem State.lineOf_ioField (s : State) {o : Nat} (lo w v line : Nat) (ho : o < 0xC000) : (s.ioField o lo w v).lineOf line = s.lineOf line := by
  have hhome : (s.ioField o lo w v).home line = s.home line := by
    rw [State.home, State.home, s.ioGet_ioField_ne lo w v (by omega)]
  have hway : (s.ioField o lo w v).wayOf line = s.wayOf line := by rw [State.wayOf, State.wayOf, hhome]; rfl
  rw [State.lineOf, State.lineOf, hway, hhome]
  rfl

theorem exec_errorInject_unlocked {s : State} (hlock : (s.ioGet 0x8308).getLsbD 7 = false) : exec .errorInject s = .next s.inject := by
  rw [exec_errorInject, execErrorInject, hlock, if_neg (by decide)]

/-- An injection into HBM marks its word as uncorrectable or corrected, as bit 1 asks. -/
theorem State.inject_hbm {s : State} (hsel : s.ioBits 0x8308 2 2 = 1) (htier : tierOf (s.ioBits 0x8300 3 49 * 8) = .hbm) :
    s.inject = if (s.ioGet 0x8308).getLsbD 1 then { s.ioField 0x8308 8 1 0 with hbmErr := s.hbmErr.ins (s.ioBits 0x8300 3 49 * 8 / 8) () }
      else { s.ioField 0x8308 8 1 0 with hbmCor := s.hbmCor.ins (s.ioBits 0x8300 3 49 * 8 / 8) () } := by
  unfold State.inject
  extract_lets pa c u valid
  rw [show u.ioBits 0x8308 2 2 = 1 from (s.ioBits_ioField_disjoint 0x8308 0 (.inr (by decide))).trans hsel]
  exact if_neg (not_not_intro htier)

/-- An injection into a line that L2 does not hold sets MISS and marks no word. -/
theorem State.inject_absent {s : State} (hsel : s.ioBits 0x8308 2 2 = 0) (hline : s.lineOf (s.ioBits 0x8300 3 49 * 8 / 64) = none) :
    s.inject = (s.ioField 0x8308 8 1 0).ioField 0x8308 8 1 1 := by
  unfold State.inject
  extract_lets pa c u valid
  have hvalid : valid = false := by
    subst valid
    rw [show u.lineOf (pa / 64) = none from (s.lineOf_ioField 8 1 0 _ (by decide)).trans hline]
  rw [show u.ioBits 0x8308 2 2 = 0 from (s.ioBits_ioField_disjoint 0x8308 0 (.inr (by decide))).trans hsel]
  exact if_pos (by rw [hvalid]; rfl)

end Sys2Proof.Machine

namespace Sys2Proof.Proofs
open Sys2Proof Sys2Proof.Machine

/-- Settles O42: a retirement, a scrub and an injection come to what `retireSlice_due`, `scrubWord_lost`, `inject_hbm` and `inject_absent` say;
an error of a core's own words or lines is one change of that core. -/
theorem memoryEventResults : Obligations.MemoryEventResults := by
  unfold Obligations.MemoryEventResults
  intro s
  refine ⟨?_, fun _ _ => rfl, exec_patrolScrub_l2set s, ?_, ?_, ?_, ?_, rfl, ?_, ?_⟩
  · intro slice hslice hset hlive
    obtain ⟨hcleared, q, r, hrecq, htyp⟩ := State.retireSlice_due hslice (State.sliceDue_of hset hlive)
    exact ⟨_, q, r, exec_sliceRetireComplete slice s, hcleared, hrecq, htyp⟩
  · intro pa herr hline
    obtain ⟨herrs, hcor, hpoison, hmem⟩ := State.scrubWord_lost herr hline
    refine ⟨_, exec_patrolScrub (.hbmWord pa) s, ?_, hcor, ?_, hmem, fun w hw => ?_⟩
    · rw [herrs, SMap.has_del_self]
    · rw [hpoison, SMap.has_ins_self]
    · rw [herrs, SMap.has_del_ne _ hw]
  · intro core word bad
    refine ⟨_, exec_patrolScrub (.spWord core word bad) s, ?_, rfl⟩
    rw [State.core_modCore_self]
    cases bad <;> exact SMap.has_ins_self ..
  · intro core line
    refine ⟨_, exec_patrolScrub (.parity core line) s, ?_⟩
    rw [State.core_modCore_self]
    refine ⟨SMap.has_del_self .., SMap.has_del_self .., rfl, rfl, fun j hj => SMap.has_del_ne _ hj⟩
  · intro core
    refine ⟨_, exec_patrolScrub (.kept core) s, ?_⟩
    rw [State.core_modCore_self]
    exact ⟨rfl, rfl⟩
  · intro hlock hsel pa htier
    have hdone : ((s.ioField 0x8308 8 1 0).ioGet 0x8308).getLsbD 8 = false := State.getLsbD_ioGet_ioField s 0x8308 8 1 0 (by decide)
    refine ⟨_, exec_errorInject_unlocked hlock, ?_⟩
    rw [State.inject_hbm hsel htier]
    cases (s.ioGet 0x8308).getLsbD 1 <;> exact ⟨hdone, rfl, rfl⟩
  · intro hlock hsel hline
    refine ⟨_, exec_errorInject_unlocked hlock, ?_⟩
    rw [State.inject_absent hsel hline]
    exact ⟨State.getLsbD_ioGet_ioField _ 0x8308 8 1 1 (by decide), rfl, rfl⟩

end Sys2Proof.Proofs
end

section
/-! SUPPORT. The record of the bundle at issue through the memory system (R30, R126, R133, R136-R147, R152, R167): L2, recalls, links,
page walks and TLBs leave it as it is. -/
namespace Sys2Proof.Machine
open Sys2Proof

namespace State

/-! Folds. -/

theorem issue_foldl {α : Type} {f : State → α → State} (hf : ∀ u x, (f u x).issue = u.issue) (l : List α) (s : State) :
    (l.foldl f s).issue = s.issue := by
  induction l generalizing s with
  | nil => rfl
  | cons x l ih => exact (ih (f s x)).trans (hf s x)

/-- The same for a fold whose value holds the state in a part of it. -/
theorem issue_foldlIn {α β : Type} (view : β → State) {f : β → α → β} (hf : ∀ q x, (view (f q x)).issue = (view q).issue)
    (l : List α) (q : β) : (view (l.foldl f q)).issue = (view q).issue := by
  induction l generalizing q with
  | nil => rfl
  | cons x l ih => exact (ih (f q x)).trans (hf q x)

theorem issue_cond {s t u : State} {c : Prop} [Decidable c] (ht : t.issue = s.issue) (hu : u.issue = s.issue) :
    (if c then t else u).issue = s.issue := by
  split
  · exact ht
  · exact hu

variable (s : State)

/-! Charges, records, retired frames. -/

@[simp] theorem issue_charge (ctx k n : Nat) : (s.charge ctx k n).issue = s.issue := by unfold charge; split <;> rfl
@[simp] theorem issue_lineRecord (kind flags owner ctx line way : Nat) : (s.lineRecord kind flags owner ctx line way).issue = s.issue := rfl
@[simp] theorem issue_wdrop : s.wdrop.issue = s.issue := rfl
@[simp] theorem issue_overflowed (r : Nat) : (s.overflowed r).issue = s.issue := rfl
@[simp] theorem issue_retireFrame (pa : Nat) : (s.retireFrame pa).1.issue = s.issue := by
  unfold retireFrame
  dsimp only
  split
  · rfl
  · split <;> rfl

/-! Sectors: what stands below L2, and copies elsewhere. -/

@[simp] theorem issue_keepBelow (k : Nat) : (s.keepBelow k).issue = s.issue := by unfold keepBelow; split <;> rfl
@[simp] theorem issue_showBelow (k : Nat) : (s.showBelow k).issue = s.issue := by
  unfold showBelow
  split
  · rfl
  · split <;> rfl
@[simp] theorem issue_encrypt (sector slot : Nat) : (s.encrypt sector slot).issue = s.issue := by unfold encrypt; split <;> rfl
@[simp] theorem issue_storeBelow (sec slot : Nat) : (s.storeBelow sec slot).issue = s.issue := s.issue_encrypt sec slot
@[simp] theorem issue_snoopNow (line : Nat) : (s.snoopNow line).issue = s.issue := by
  unfold snoopNow
  split
  · dsimp only
    split <;> rfl
  · rfl
@[simp] theorem issue_wake (line : Nat) : (s.wake line).issue = s.issue := rfl
@[simp] theorem issue_dropCopies (sector writer : Nat) (own : Bool) : (s.dropCopies sector writer own).issue = s.issue := by
  unfold dropCopies
  dsimp only
  rw [issue_wake]
  split
  · rfl
  · exact issue_snoopNow ..

/-! Lines: fills, writebacks, disabled ways. -/

@[simp] theorem issue_fillSector (line i : Nat) (a : L2Acc) : (s.fillSector line i a).issue = s.issue := by
  unfold fillSector
  extract_lets sec s1 s2 s3 s4 s5 v
  have h1 : s1.issue = s.issue := s.issue_charge ..
  have h2 : s2.issue = s.issue := (s1.issue_keepBelow sec).trans h1
  have h4 : s4.issue = s.issue := by unfold s4; split <;> exact h1
  have h5 : s5.issue = s.issue := by unfold s5; split <;> exact h4
  split
  · exact h2
  · split
    · exact h2
    · split
      · exact h5
      · exact (s5.issue_keepBelow sec).trans h5
@[simp] theorem issue_refetch (n line i flags : Nat) (a : L2Acc) : (s.refetch n line i flags a).issue = s.issue := by simp [refetch]
@[simp] theorem issue_noteCor (n : Nat) (l : L2Line) (skip ctx : Nat) : (s.noteCor n l skip ctx).issue = s.issue :=
  issue_foldl (fun _ _ => by rfl) _ s
@[simp] theorem issue_writeBack (n : Nat) (l : L2Line) (chargeTo : Nat) : (s.writeBack n l chargeTo).issue = s.issue := by
  refine issue_foldl (fun u i => ?_) [0, 1] s
  split
  · dsimp only
    split <;> simp
  · rfl
@[simp] theorem issue_dropLine (n : Nat) : (s.dropLine n).issue = s.issue := by
  unfold dropLine
  split <;> simp
@[simp] theorem issue_disableWay (n : Nat) : (s.disableWay n).issue = s.issue := s.issue_dropLine n

/-! Decks: the apply of a region and what its reads find. -/

@[simp] theorem issue_deckFill (line ctx : Nat) : (s.deckFill line ctx).issue = s.issue := by
  refine issue_foldl (fun u i => ?_) [0, 1] s
  split
  · rfl
  · split <;> simp
@[simp] theorem issue_applyKey (op fxp ctx r key : Nat) (d : DeckVal) : (s.applyKey op fxp ctx r key d).issue = s.issue := by
  unfold applyKey
  extract_lets w sec line s1 s2
  have h1 : s1.issue = s.issue := by
    refine (issue_dropCopies ..).trans ?_
    split <;> simp
  have h2 : s2.issue = s.issue := by
    unfold s2
    split
    · split <;> exact h1
    · split
      dsimp only
      split <;> exact h1
  clear_value line
  split <;> exact h2
@[simp] theorem issue_applyCheck (ctx sec : Nat) : (s.applyCheck ctx sec).2.issue = s.issue := by
  unfold applyCheck
  split
  · rfl
  · split
    · rfl
    · split
      · split
        · rfl
        · exact issue_refetch ..
      · rfl
theorem issue_applyOne (r slice : Nat) : (s.applyOne r slice).2.issue = s.issue := by
  unfold applyOne
  extract_lets op fxp ctx k deck nrun s1 s2
  have h2 : s2.issue = s.issue := by
    refine (issue_foldl (fun u q => ?_) _ s1).trans (s.issue_charge ..)
    split <;> rfl
  clear_value s2
  split
  next runs bad _ =>
  extract_lets runs' all s3 secs
  have h3 : s3.issue = s.issue := (issue_foldl (fun u line => u.issue_deckFill line ctx) _ s2).trans h2
  clear_value s3
  split
  next found s4 hread =>
  have h4 : s4.issue = s.issue := by
    rw [show s4 = _ from (congrArg Prod.snd hread).symm]
    split
    · exact h3
    · refine (issue_foldlIn Prod.snd (fun q x => ?_) secs ([], s3)).trans h3
      exact q.2.issue_applyCheck ctx x.1
  extract_lets us s5 s6 s7 keys
  have h5 : s5.issue = s.issue := by unfold s5; split <;> exact h4
  clear_value s5
  have h6 : s6.issue = s.issue := by
    unfold s6
    split
    · refine (issue_foldl (fun u q => ?_) us s5).trans h5
      dsimp only
      rw [issue_lineRecord]
      split <;> simp
    · exact (issue_foldl (α := Nat × DeckVal) (fun u q => u.issue_applyKey op fxp ctx r q.1 q.2) all s5).trans h5
  refine (issue_foldl (fun u line => ?_) keys s7).trans h6
  split
  · rfl
  · split <;> rfl
@[simp] theorem issue_applyRest (line : Nat) : (s.applyRest line).2.issue = s.issue := by
  refine issue_foldlIn Prod.snd (fun q r => ?_) (s.rgnsFor line) ([], s)
  exact q.2.issue_applyOne r (s.home line)

/-! Containment: lost lines and disabled ways. -/

@[simp] theorem issue_loseCore (n tag owner bad : Nat) (scrub : Bool) (ctx : Nat) : (s.loseCore n tag owner bad scrub ctx).issue = s.issue := by
  unfold loseCore
  extract_lets s1 s2
  have h1 : s1.issue = s.issue := by unfold s1; split <;> simp
  have h3 := (s2.issue_retireFrame (tag * 64)).trans ((s1.issue_disableWay n).trans h1)
  split
  next heq => rwa [heq] at h3
@[simp] theorem issue_poisonBad (l : L2Line) : (s.poisonBad l).issue = s.issue := issue_foldl (fun _ _ => by rfl) _ s
@[simp] theorem issue_countUp (n line flags ctx : Nat) : (s.countUp n line flags ctx).2.issue = s.issue := by
  unfold countUp
  dsimp only
  split <;> rfl
@[simp] theorem issue_wayGone (n line flags ctx : Nat) : (s.wayGone n line flags ctx).issue = s.issue := by
  unfold wayGone
  split
  · dsimp only
    split <;> simp
  · simp
theorem issue_settle (fuel : Nat) (found : List Nat) : (settle fuel found s).issue = s.issue := by
  induction fuel generalizing found s with
  | zero => rfl
  | succ fuel ih =>
    cases found with
    | nil => rfl
    | cons sec rest =>
      unfold settle
      split
      next => exact ih s rest
      next n l _ =>
        have hcount := s.issue_countUp n l.tag (2 * 2 ^ (sec % 2)) 64
        dsimp only
        split
        · simp [ih]
        · split
          · split
            next heq => rw [ih]; rwa [heq] at hcount
            next heq => rw [heq] at hcount; simpa [ih] using hcount
          · exact ih s rest
@[simp] theorem issue_applyRegion (r slice : Nat) : (s.applyRegion r slice).issue = s.issue := (issue_settle ..).trans (s.issue_applyOne r slice)
@[simp] theorem issue_applyLine (line : Nat) : (s.applyLine line).issue = s.issue := by
  have hregions := issue_foldl (fun u r => u.issue_applyRegion r (u.home line)) (s.rgnsFor line) s
  unfold applyLine
  split
  · rfl
  · split
    · dsimp only
      split <;> exact hregions
    · rfl
@[simp] theorem issue_loseLine (n : Nat) (scrub : Bool) (ctx : Nat) : (s.loseLine n scrub ctx).issue = s.issue := by
  unfold loseLine
  split <;> simp
@[simp] theorem issue_countCorrected (n line flags ctx : Nat) : (s.countCorrected n line flags ctx).issue = s.issue := by
  have hcount := s.issue_countUp n line flags ctx
  unfold countCorrected
  split
  next heq => rwa [heq] at hcount
  next heq =>
    rw [heq] at hcount
    rw [issue_wayGone]
    split
    · exact (issue_applyLine ..).trans hcount
    · exact hcount
@[simp] theorem issue_evict (n : Nat) : (s.evict n).issue = s.issue := by
  unfold evict
  split
  · rfl
  · extract_lets s1
    have h1 : s1.issue = s.issue := s.issue_applyLine _
    split
    · exact h1
    · split
      · simp [h1]
      · dsimp only
        rw [issue_foldl (fun u i => u.issue_countCorrected ..)]
        simp [h1]

/-! Slice retirement. -/

@[simp] theorem issue_retireSlice (slice : Nat) : (s.retireSlice slice).issue = s.issue := by
  unfold retireSlice
  -- the lists' entries play no part: no check of this proof is to count them out
  generalize List.range 4096 = places, List.range 256 = regions
  extract_lets live s1 s2 o s3 next
  have h1 : s1.issue = s.issue := issue_foldl (fun u r => by split <;> simp) regions s
  clear_value s1
  have h2 : s2.issue = s.issue := (issue_foldl (fun u q => by split <;> simp) _ s1).trans h1
  clear_value s2
  split
  · rfl
  · split
    next s4 _ hmap =>
    have h4 : s4.issue = s3.issue := by
      rw [show s4 = _ from (congrArg Prod.fst hmap).symm]
      refine issue_foldlIn Prod.fst (fun q i => ?_) _ (s3, slice)
      dsimp only
      split
      · exact ioSet_issue ..
      · rfl
    exact h4.trans h2

/-! Accesses to a line (R136, R137, R138, R145). -/

@[simp] theorem issue_sweepDone : s.sweepDone.issue = s.issue := by
  refine issue_foldl (fun u q => ?_) _ s
  dsimp only
  split <;> simp
theorem issue_victim {t : State} {sn w : Nat} {cands : List Nat} (hway : s.victim sn cands = some (w, t)) : t.issue = s.issue := by
  unfold victim at hway
  dsimp only at hway
  split at hway
  · cases hway; rfl
  · split at hway <;> cases hway
    rfl
theorem issue_wayFor {t : State} {line w : Nat} {resv : Bool} (hway : s.wayFor line resv = some (w, t)) : t.issue = s.issue := by
  unfold wayFor at hway
  dsimp only at hway
  split at hway
  · obtain ⟨x, -, hx⟩ := Option.map_eq_some_iff.mp hway
    cases hx; rfl
  · exact s.issue_victim hway
theorem issue_allocateIn (fuel line : Nat) (a : L2Acc) : (allocateIn fuel line a s).issue = s.issue := by
  induction fuel generalizing s with
  | zero => rfl
  | succ fuel ih =>
    unfold allocateIn
    split
    · rfl
    next hway =>
      have hfound := s.issue_wayFor hway
      dsimp only
      split <;> simp [ih, readySlice, hfound]
@[simp] theorem issue_allocate (line : Nat) (a : L2Acc) : (s.allocate line a).issue = s.issue :=
  (issue_allocateIn ..).trans (s.issue_retireSlice _)
@[simp] theorem issue_checkErr (line i : Nat) (a : L2Acc) : (s.checkErr line i a).issue = s.issue := by
  unfold checkErr
  dsimp only
  repeat' split
  all_goals simp
@[simp] theorem issue_needSector (line i : Nat) (a : L2Acc) : (s.needSector line i a).issue = s.issue := by
  unfold needSector
  extract_lets sec s1 s2 blind s3
  have h2 : s2.issue = s.issue := by unfold s2; split <;> rfl
  have h3 : s3.issue = s.issue := by unfold s3; split <;> simp [h2]
  refine issue_cond rfl (issue_cond rfl ?_)
  split
  · exact h3
  · exact issue_cond h3 ((s3.issue_fillSector line i a).trans h3)
@[simp] theorem issue_mergeBelow (line i : Nat) (a : L2Acc) : (s.mergeBelow line i a).issue = s.issue := by
  unfold mergeBelow
  extract_lets sec s0 kept s1 s2 s3
  have h1 : s1.issue = s.issue := by unfold s1; split <;> rfl
  have h2 : s2.issue = s.issue := by unfold s2; split <;> exact h1
  have h3 : s3.issue = s.issue := by unfold s3; split <;> exact h2
  split
  · exact s.issue_storeBelow ..
  · exact (s3.issue_encrypt ..).trans h3
@[simp] theorem issue_wroteSector (line i : Nat) (a : L2Acc) : (s.wroteSector line i a).issue = s.issue := by
  unfold wroteSector
  extract_lets sec one s1 s2 s3
  have h1 : s1.issue = s.issue := by unfold s1; split <;> rfl
  repeat' split
  all_goals simp [s2, s3, h1]
@[simp] theorem issue_spillLine (line : Nat) (a : L2Acc) : (s.spillLine line a).issue = s.issue :=
  issue_foldl (fun u i => by split <;> simp) [0, 1] s
@[simp] theorem issue_l2Access (line : Nat) (a : L2Acc) : (s.l2Access line a).issue = s.issue := by
  unfold l2Access
  extract_lets s1 s2 s3 hit kept s4 s5 gone lost s6 s7 s8 s9
  have h1 : s1.issue = s.issue := s.issue_retireSlice _
  have h2 : s2.issue = s.issue := by unfold s2; split <;> simp [h1]
  have h3 : s3.issue = s.issue := (s2.issue_applyLine line).trans h2
  have h4 : s4.issue = s.issue := by unfold s4; split <;> simp [h3]
  have h5 : s5.issue = s.issue := (s4.issue_needSector line 0 a).trans h4
  have h6 : s6.issue = s.issue := by unfold s6; split <;> simp [h5]
  have h7 : s7.issue = s.issue := (s6.issue_needSector line 1 a).trans h6
  have h8 : s8.issue = s.issue := by unfold s8; split <;> simp [h7]
  have h9 : s9.issue = s.issue := by
    clear_value s8
    unfold s9
    split <;> exact h8
  split
  · simp [h3]
  · split <;> simp [h9]
@[simp] theorem issue_l2Read (pa n ctx key u : Nat) : (s.l2Read pa n ctx key u).issue = s.issue := by
  unfold l2Read
  split
  · exact issue_foldl (fun u l => u.issue_l2Access l _) _ s
  · rfl
@[simp] theorem issue_l2Put (pa mask : Nat) (b : List Byte) (a : L2Acc) : (s.l2Put pa mask b a).issue = s.issue := by
  unfold l2Put
  extract_lets n whole s1
  have h1 : s1.issue = s.issue := by
    unfold s1
    split
    · exact issue_foldl (fun u l => u.issue_l2Access l _) _ s
    · rfl
  split <;> exact h1

/-! Recalls, links and the accesses of an agent (R29-R31, R133, R152). -/

@[simp] theorem issue_spScan (core sa n : Nat) : (s.spScan core sa n).issue = s.issue := by
  refine issue_foldl (fun u k => ?_) _ s
  dsimp only
  split <;> rfl
@[simp] theorem issue_stashPut (core pa key : Nat) (r : Recalled) : (s.stashPut core pa key r).issue = s.issue := by
  unfold stashPut
  dsimp only
  repeat' split
  all_goals simp [l2Write]
@[simp] theorem issue_recall (sector except : Nat) : (s.recall sector except).issue = s.issue := by
  refine issue_foldl (fun u q => ?_) _ s
  split
  · rfl
  · refine issue_foldl (fun v e => ?_) _ u
    split <;> simp
@[simp] theorem issue_hostTouch (pa n : Nat) (excl : Bool) : (s.hostTouch pa n excl).issue = s.issue := by
  unfold hostTouch
  split
  · refine issue_foldl (fun u l => ?_) _ s
    unfold hostEnter
    dsimp only
    split <;> rfl
  · rfl
@[simp] theorem issue_fetchData (a : Agent) (pa n key u : Nat) : (s.fetchData a pa n key u).2.issue = s.issue := by
  unfold fetchData
  dsimp only
  split
  · rfl
  · split
    · rfl
    · simp only [issue_hostTouch, issue_l2Read]
      exact issue_foldl (fun v k => v.issue_recall k a.id) _ s
@[simp] theorem issue_performWrite (a : Agent) (pa mask : Nat) (b : List Byte) (key : Nat) : (s.performWrite a pa mask b key).2.issue = s.issue := by
  have hcopies := issue_foldl (fun u k => u.issue_dropCopies k a.id false) (sectorsOf pa b.length) s
  unfold performWrite
  dsimp only
  repeat' split
  all_goals simp [l2Write, hostOver, hcopies]

/-! Translation (R125-R129). -/

theorem issue_walkL2 (ctx va fuel level base : Nat) : (walkL2 ctx va fuel level base s).2.issue = s.issue := by
  induction fuel generalizing level base s with
  | zero => rfl
  | succ fuel ih =>
    have hread := s.issue_fetchData ⟨1000, ctx, false⟩ (base + 8 * levelIndex level va) 8 (s.ptkOf ctx) 2
    unfold walkL2
    split
    next heq =>
      rw [heq] at hread
      dsimp only
      repeat' split
      any_goals exact hread
      exact (ih ..).trans hread
@[simp] theorem issue_tlbAdd (unit core ctx va : Nat) (l : Leaf) : (s.tlbAdd unit core ctx va l).issue = s.issue := by
  unfold tlbAdd
  extract_lets key set rivals s1
  have h1 : s1.issue = s.issue := issue_cond rfl (by split <;> rfl)
  exact h1
@[simp] theorem issue_xlatePage (w : Who) (k : AccKind) (va : Nat) : (s.xlatePage w k va).2.issue = s.issue := by
  unfold xlatePage
  dsimp only
  split
  · rfl
  split
  · rfl
  split
  · rfl
  split
  · rfl
  split
  · exact issue_tlbAdd ..
  split
  · rfl
  next base _ _ _ _ _ _ =>
  have hwalk := s.issue_walkL2 w.ctx va 3 1 base
  split
  next heq => rwa [heq] at hwalk
  next heq => rw [heq] at hwalk; simpa using hwalk

end State
end Sys2Proof.Machine
end

section
/-! SUPPORT. Returning atomics (R153-R158, R382, R383): what a translation leaves of who accesses, what each operation writes and returns,
what it does at its home, and what its issue leaves on either sequencer. -/
namespace Sys2Proof.Machine
open Sys2Proof

/-! Translation leaves who accesses. -/

theorem State.keepsWork_xlate (s : State) (w : Who) (k : AccKind) (va n : Nat) : State.KeepsWork s (s.xlate w k va n).2 := by
  have hfirst := s.keepsWork_xlatePage w k va
  unfold State.xlate
  dsimp only
  split
  next heq => rwa [heq] at hfirst
  next t heq =>
    rw [heq] at hfirst
    split
    · exact hfirst
    · have hsecond := t.keepsWork_xlatePage w k ((va + min n (65536 - va % 65536)) % 2 ^ 64)
      split
      next heq => rw [heq] at hsecond; exact hfirst.trans hsecond
      next heq => rw [heq] at hsecond; exact hfirst.trans hsecond

@[simp] theorem State.issue_xlate (s : State) (w : Who) (k : AccKind) (va n : Nat) : (s.xlate w k va n).2.issue = s.issue := by
  have hfirst := s.issue_xlatePage w k va
  unfold State.xlate
  dsimp only
  split
  next heq => rwa [heq] at hfirst
  next t heq =>
    rw [heq] at hfirst
    split
    · exact hfirst
    · have hsecond := t.issue_xlatePage w k ((va + min n (65536 - va % 65536)) % 2 ^ 64)
      split
      next heq => rw [heq] at hsecond; exact hsecond.trans hfirst
      next heq => rw [heq] at hsecond; exact hsecond.trans hfirst

/-- A translation that succeeds adds its pages to what the bundle has touched. -/
theorem State.xlateR_ok {s t : State} {k : AccKind} {va n : Nat} {ps : List Piece} (h : s.xlateR k va n = .ok (ps, t)) :
    ∃ v, s.xlate s.who k va n = (.ok ps, v) ∧ t = v.touch ((pagesOf va n).map .page) := by
  unfold State.xlateR at h
  split at h
  · cases h
  next v heq =>
    cases h
    exact ⟨v, heq, rfl⟩

theorem State.who_of_keepsWork {s t : State} (h : State.KeepsWork s t) (hcore : t.issue.core = s.issue.core) (hsvc : t.issue.svc = s.issue.svc) :
    t.who = s.who := by
  have hchunk : (t.core s.issue.core).chunk = (s.core s.issue.core).chunk := by
    have hwork := congrArg Core.chunk (h.work s.issue.core)
    exact hwork
  simp only [State.who, State.ctxOf, hcore, hsvc, hchunk]

theorem State.issue_xlateR {s t : State} {k : AccKind} {va n : Nat} {ps : List Piece} (h : s.xlateR k va n = .ok (ps, t)) :
    t.issue.core = s.issue.core ∧ t.issue.svc = s.issue.svc := by
  obtain ⟨v, hv, rfl⟩ := State.xlateR_ok h
  have hissue : v.issue = s.issue := by simpa [hv] using s.issue_xlate s.who k va n
  simp [State.touch, hissue]

theorem State.who_xlateR {s t : State} {k : AccKind} {va n : Nat} {ps : List Piece} (h : s.xlateR k va n = .ok (ps, t)) : t.who = s.who := by
  obtain ⟨hcore, hsvc⟩ := State.issue_xlateR h
  obtain ⟨v, hv, rfl⟩ := State.xlateR_ok h
  have hwork := s.keepsWork_xlate s.who k va n
  rw [hv] at hwork
  exact State.who_of_keepsWork (hwork.update rfl) hcore hsvc

/-! What the operations write and return (R157, R158). -/

theorem aopResult_old {aop : Nat} (h : aop ≠ 11) (old a : Nat) : aopResult aop old a = old := if_neg h

theorem pickS_min (e a b : Nat) : pickS e false a b = if sgn e a ≤ sgn e b then a else b := by simp [pickS]

theorem pickS_max (e a b : Nat) : pickS e true a b = if sgn e a ≤ sgn e b then b else a := by
  unfold pickS
  by_cases h : sgn e a ≤ sgn e b <;> simp [h]

/-- The operations of one form (R382), with their codes and the values that they write. -/
def atomicOps : List ((OpInfo → Atomic → Instr) × Nat × (Nat → Nat → Nat → Nat → Option Nat)) := [
  (.atomAdd, 0, fun w a _ old => some ((old + a) % 2 ^ w)),
  (.atomAnd, 1, fun _ a _ old => some (old &&& a)),
  (.atomOr, 2, fun _ a _ old => some (old ||| a)),
  (.atomXor, 3, fun _ a _ old => some (old ^^^ a)),
  (.atomSmin, 4, fun w a _ old => some (if sgn w old ≤ sgn w a then old else a)),
  (.atomSmax, 5, fun w a _ old => some (if sgn w old ≤ sgn w a then a else old)),
  (.atomUmin, 6, fun _ a _ old => some (Min.min old a)),
  (.atomUmax, 7, fun _ a _ old => some (Max.max old a)),
  (.atomSwap, 8, fun _ a _ _ => some a),
  (.atomCas, 9, fun _ a b old => if old = a then some b else none)]

theorem exec_atomicOps (o : OpInfo) (r : Atomic) (s : State) : ∀ p ∈ atomicOps, exec (p.1 o r) s = s.atomW o r p.2.1 := by
  simp only [atomicOps, List.forall_mem_cons]
  exact ⟨rfl, rfl, rfl, rfl, rfl, rfl, rfl, rfl, rfl, rfl, by simp⟩

theorem code_atomicOps : ∀ p ∈ atomicOps, p.2.1 < 10 := by simp [atomicOps]

theorem aopNew_atomicOps (w a b old : Nat) : ∀ p ∈ atomicOps, p.2.2 w a b old = aopNew p.2.1 w old a b 0 := by
  simp only [atomicOps, List.forall_mem_cons]
  exact ⟨rfl, rfl, rfl, rfl, congrArg some (pickS_min ..).symm, congrArg some (pickS_max ..).symm, rfl, rfl, rfl, rfl, by simp⟩

/-- The lowest bit that FFCS finds: clear in memory and set in its operand. -/
theorem find_clear_eq_none {a old : Nat} (h : ∀ i < 64, a.testBit i = true → old.testBit i = true) :
    (List.range 64).find? (fun i => a.testBit i && !old.testBit i) = none := by
  rw [List.find?_eq_none]
  intro i hi
  have := h i (List.mem_range.mp hi)
  simpa using this

theorem find_clear_eq_some {a old i : Nat} (hi : i < 64) (ha : a.testBit i = true) (hold : old.testBit i = false)
    (hlow : ∀ k < i, a.testBit k = true → old.testBit k = true) :
    (List.range 64).find? (fun i => a.testBit i && !old.testBit i) = some i := by
  rw [List.find?_range_eq_some]
  refine ⟨by simp [ha, hold], List.mem_range.mpr hi, fun k hk => ?_⟩
  cases hak : a.testBit k
  · rfl
  · rw [hlow k hk hak]; rfl

/-- What R158 says of FFCS, bit by bit, determines its new value and its result. -/
theorem ffcs_eq {new : Nat → Nat → Nat → Option Nat} {res : Nat → Nat → Nat}
    (hfull : ∀ a b old, (∀ i < 64, a.testBit i = true → old.testBit i = true) → new a b old = none ∧ res a old = 64)
    (hfound : ∀ a b old i, i < 64 → a.testBit i = true → old.testBit i = false → (∀ k < i, a.testBit k = true → old.testBit k = true) →
      new a b old = some (old ||| 2 ^ i) ∧ res a old = i) (a b old : Nat) :
    new a b old = aopNew 11 64 old a b 0 ∧ res a old = aopResult 11 old a := by
  by_cases hbits : ∃ i, i < 64 ∧ a.testBit i = true ∧ old.testBit i = false
  · obtain ⟨⟨hi, ha, hold⟩, hmin⟩ := Nat.find_spec hbits, @Nat.find_min _ _ hbits
    have hlow : ∀ k < Nat.find hbits, a.testBit k = true → old.testBit k = true := fun k hk hak =>
      Bool.of_not_eq_false fun hok => hmin hk ⟨hk.trans hi, hak, hok⟩
    simp only [aopNew, aopResult, find_clear_eq_some hi ha hold hlow]
    exact hfound a b old _ hi ha hold hlow
  · have hall : ∀ i < 64, a.testBit i = true → old.testBit i = true := fun i hi ha =>
      Bool.of_not_eq_false fun hold => hbits ⟨i, hi, ha, hold⟩
    simp only [aopNew, aopResult, find_clear_eq_none hall]
    exact hfull a b old hall

theorem popCount_ofNat (x : Nat) : popCount (BitVec.ofNat 64 x) = ((List.range 64).filter fun i => x.testBit i).length := by
  unfold popCount ones
  congr 1
  refine List.filter_congr fun i hi => ?_
  rw [BitVec.getLsbD_ofNat, decide_eq_true (List.mem_range.mp hi), Bool.true_and]

/-! An operation at its home (R152, R153). -/

/-- The write of an operation that has read its home: nothing but the touch of a host line, or one write that is performed. -/
def State.AtomicWrites (x : State) (g : Agent) (pa key w : Nat) (new : Option Nat) (y : State) : Prop :=
  match new with
  | some n => (x.hostTouch pa (w / 8) true).performWrite g pa (2 ^ (w / 8) - 1) (bytesOf (w / 8) n) key = (0, y)
  | none => y = x.hostTouch pa (w / 8) true

theorem State.issue_atomicWrites {x y : State} {g : Agent} {pa key w : Nat} {new : Option Nat} (h : x.AtomicWrites g pa key w new y) :
    y.issue = x.issue := by
  cases new with
  | none => exact h ▸ x.issue_hostTouch ..
  | some n =>
    have hwrite := State.issue_performWrite (x.hostTouch pa (w / 8) true) g pa (2 ^ (w / 8) - 1) (bytesOf (w / 8) n) key
    rw [State.AtomicWrites] at h
    rw [h] at hwrite
    exact hwrite.trans (x.issue_hostTouch ..)

theorem State.isoCause_zero {s : State} {pa : Nat} (h : tierOf pa = .tier2 → s.iso = false) : s.isoCause pa 0 = 0 := by
  refine if_neg ?_
  rintro ⟨-, htier, hiso⟩
  simp [h htier] at hiso

theorem State.performAtomic_ok {s t u : State} {g : Agent} {pa key aop w a b lim : Nat} {bs : List Byte}
    (hlate : s.hostLate g.id pa = false) (hread : s.fetchData { g with id := 1000 } pa (w / 8) key 2 = ((0, bs), t))
    (hiso : tierOf pa = .tier2 → t.iso = false) (hwrite : t.AtomicWrites g pa key w (aopNew aop w (natOf bs) a b lim) u) :
    s.performAtomic g pa key aop w a b lim = ((0, BitVec.ofNat 64 (aopResult aop (natOf bs) a)), u) := by
  unfold State.performAtomic
  simp only [hlate, hread, State.isoCause_zero hiso, Bool.and_false, Bool.false_eq_true, if_false, ne_eq, not_true]
  cases hnew : aopNew aop w (natOf bs) a b lim with
  | none =>
    rw [hnew] at hwrite
    exact congrArg _ (Eq.symm hwrite)
  | some n =>
    rw [hnew, State.AtomicWrites] at hwrite
    simp only [hwrite]
    rfl

/-! The issue of an atomic (R177, R179, R192, R383). -/

/-- R159's check passes: the operation is one of R382, or its context may use it. -/
theorem atomic_allowed {s : State} {aop : Nat} (hallowed : 10 ≤ aop → s.who.ctx < 64 → (s.ioGet (0xA800 + 8 * s.who.ctx)).getLsbD 0 = true) :
    (decide (10 ≤ aop) && s.who.ctx < 64 && !(s.ioGet (0xA800 + 8 * s.who.ctx)).getLsbD 0) = false := by
  cases hop : decide (10 ≤ aop) with
  | false => rfl
  | true =>
    cases hctx : decide (s.who.ctx < 64) with
    | false => rfl
    | true => rw [hallowed (of_decide_eq_true hop) (of_decide_eq_true hctx)]; rfl

/-- At the boundary of its group an atomic waits for what is to be performed before it; within the group nothing stalls (R192, R208; log 107). -/
theorem atomic_ready {t : State} {cls : Nat} {ps : List Piece} (hreads : t.cur.grp.n = 0 → t.cur.readReady t.seq cls ps = true)
    (hflight : t.cur.grp.n = 0 → t.meetsFlight t.issue.core true ps = false) :
    (t.mayStall && (!t.cur.atomReady t.seq cls ps || t.meetsFlight t.issue.core true ps)) = false := by
  by_cases hgroup : t.cur.grp.n = 0
  · simp [Core.atomReady, hgroup, hreads, hflight]
  · simp [State.mayStall, hgroup]

/-- An atomic leaves with its result, the number that `u` gives it, and its place in the replay log, which a first run adds to. -/
def State.atomicSent (x u : State) (o : OpInfo) (tok dst pa : Nat) (e : Replay) (v : Word) : State :=
  x.modCur fun c =>
    let c := c.arrivalDue o.arr u.seq
    { c with seg := { c.seg with log := (if u.cur.seg.logPos < u.cur.seg.log.length then c.seg.log else c.seg.log ++ [e]), logPos := c.seg.logPos + 1 },
             atoms := c.atoms ++ [{ seq := u.seq, tok, dst, res := v, cause := 0, relN := x.issue.relN, arr := o.arr, pa }] }

section Issued
variable {o : OpInfo} {s t : State} {d base ix : BitVec 5} {disp : Word} {aop w cls tok lim : Nat} {p : Piece} {ps : List Piece}
  (hguard : s.guard0 o = true) (harr : s.arrivalOk o.arr)
  (hallowed : 10 ≤ aop → s.who.ctx < 64 → (s.ioGet (0xA800 + 8 * s.who.ctx)).getLsbD 0 = true)
  (haligned : (s.gpr .s base + disp).toNat % (w / 8) = 0)
  (hpage : s.xlateR .atomic (s.gpr .s base + disp).toNat (w / 8) = .ok (p :: ps, t))
include hguard harr hallowed haligned hpage

/-- On the service sequencer it performs at issue, and its result is there at once. -/
theorem atomic_service {t' : State} {res : Word} (hsvc : t.issue.svc = true) (hflight : t.meetsFlight t.issue.core true (p :: ps) = false)
    (hperf : t.performAtomic (agentOf s.issue.core s.who.ctx) p.pa p.key aop w ((s.gpr .s ix).toNat % 2 ^ w) ((s.gpr .s d).toNat % 2 ^ w) lim = ((0, res), t'))
    (hkept : t'.lostSince t t.who.ctx (· == p.pa / 64) = false) :
    s.atomic o d base ix disp aop w cls tok lim = .next ((t'.touch [.home p.pa (w / 8) p.key]).landG .s d res) := by
  refine State.runLate_true hguard harr ?_
  rw [← (State.issue_xlateR hpage).1, ← State.who_xlateR hpage] at hperf
  simp only [atomic_allowed hallowed, haligned, bne_self_eq_false, raiseIf, raiseAt, Bool.false_eq_true, if_false, hpage, hsvc, if_true, hflight, hperf,
    hkept, ne_eq, not_true, bind, Except.bind]

section Main
variable {u : State} {e : Replay} (hsvc : t.issue.svc = false)
  (hready : (t.mayStall && (!t.cur.atomReady t.seq cls (p :: ps) || t.meetsFlight t.issue.core true (p :: ps))) = false)
  (htok : t.tokAdd tok 1 = .ok u)
include hsvc hready htok

/-- A replay takes the logged result, and memory is not touched (R383). -/
theorem atomic_replay (hlog : u.cur.seg.log[u.cur.seg.logPos]? = some e) (haddr : e.addr.toNat = (s.gpr .s base + disp).toNat)
    (hwidth : e.w64 = decide (w = 64)) (hop : e.aop = aop) :
    s.atomic o d base ix disp aop w cls tok lim = .next (({ u with seq := u.seq + 1 } : State).atomicSent u o tok d.toNat p.pa e e.res) := by
  have hsome : u.cur.seg.logPos < u.cur.seg.log.length := (List.getElem?_eq_some_iff.mp hlog).1
  have hsame : ¬(e.addr ≠ BitVec.ofNat 64 (s.gpr .s base + disp).toNat ∨ e.w64 ≠ decide (w = 64) ∨ e.aop ≠ aop) := by
    simp [← haddr, hwidth, hop]
  refine State.runLate_true hguard harr ?_
  simp only [atomic_allowed hallowed, haligned, bne_self_eq_false, raiseIf, raiseAt, Bool.false_eq_true, if_false, hpage, hsvc, hready, htok, State.keep_ok,
    hlog, hsame, State.nextSeq, State.atomicSent, hsome, if_true, bind, Except.bind]

/-- A first run performs at issue and logs its result (R383). -/
theorem atomic_first {u' : State} {res : Word} (hlog : u.cur.seg.log[u.cur.seg.logPos]? = none) (hroom : u.cur.seg.log.length < 8)
    (hperf : ({ u with seq := u.seq + 1 } : State).performAtomic (agentOf s.issue.core s.who.ctx) p.pa p.key aop w ((s.gpr .s ix).toNat % 2 ^ w)
      ((s.gpr .s d).toNat % 2 ^ w) lim = ((0, res), u'))
    (hkept : u'.lostSince { u with seq := u.seq + 1 } ({ u with seq := u.seq + 1 } : State).who.ctx (· == p.pa / 64) = false)
    (hissue : u'.issue = u.issue) :
    s.atomic o d base ix disp aop w cls tok lim = .next ((u'.touch [.home p.pa (w / 8) p.key]).atomicSent u o tok d.toNat p.pa
      ⟨BitVec.ofNat 64 (s.gpr .s base + disp).toNat, decide (w = 64), aop, res⟩ res) := by
  have hnone : ¬u.cur.seg.logPos < u.cur.seg.log.length := Nat.not_lt.mpr (List.getElem?_eq_none_iff.mp hlog)
  have hfree : decide (8 ≤ u.cur.seg.log.length) = false := decide_eq_false (Nat.not_le.mpr hroom)
  refine State.runLate_true hguard harr ?_
  rw [← (State.issue_xlateR hpage).1, ← State.who_xlateR hpage] at hperf
  simp only [atomic_allowed hallowed, haligned, bne_self_eq_false, raiseIf, raiseAt, Bool.false_eq_true, if_false, hpage, hsvc, hready, htok, State.keep_ok,
    hlog, hfree, State.nextSeq, hperf, hkept, if_true, bind, Except.bind]
  have hrel : (u'.touch [.home p.pa (w / 8) p.key]).issue.relN = u.issue.relN := by simp [State.touch, hissue]
  simp only [State.atomicSent, hrel, hnone, if_false]

end Main

end Issued

end Sys2Proof.Machine

namespace Sys2Proof.Proofs
open Sys2Proof Sys2Proof.Machine

/-- Settles O14: a replay or a first run on the main sequencer, or the service sequencer's own. What the statement says of an operation's value
and result is what the model's codes 0 to 12 give. -/
theorem atomicResults : Obligations.AtomicResults := by
  unfold Obligations.AtomicResults
  intro o s ev d base ix disp aop w cls tok new res hguard harr hform hallowed va a b g haligned p ps t hpage answered written hreads hflight
  have hmodel : ∃ lim, exec ev s = s.atomic o d base ix disp aop w cls tok lim ∧ (∀ a b old, new a b old = aopNew aop w old a b lim) ∧
      ∀ a old, res a old = aopResult aop old a := by
    rcases hform with ⟨r, q, hq, rfl, rfl, rfl, rfl, rfl, rfl, rfl, rfl, rfl, rfl, rfl⟩ | ⟨r, rfl, rfl, rfl, rfl, rfl, rfl, rfl, rfl, rfl, rfl, rfl⟩ |
      ⟨r, rfl, rfl, rfl, rfl, rfl, rfl, rfl, rfl, rfl, hfull, hfound⟩ | ⟨r, rfl, rfl, rfl, rfl, rfl, rfl, rfl, rfl, rfl, rfl, rfl⟩
    · exact ⟨0, exec_atomicOps o r s q hq, fun a b old => aopNew_atomicOps _ a b old q hq, fun a old => (aopResult_old (by have := code_atomicOps q hq; omega) old a).symm⟩
    · exact ⟨0, rfl, fun _ _ _ => rfl, fun _ _ => rfl⟩
    · exact ⟨0, rfl, fun a b old => (ffcs_eq hfull hfound a b old).1, fun a old => (ffcs_eq hfull hfound a 0 old).2⟩
    · refine ⟨r.lim.toNat, rfl, fun a b old => ?_, fun _ _ => rfl⟩
      simp only [← popCount_ofNat]
      rfl
  obtain ⟨lim, hexec, hnew, hres⟩ := hmodel
  obtain rfl : new = fun a b old => aopNew aop w old a b lim := by funext a b old; exact hnew a b old
  obtain rfl : res = fun a old => aopResult aop old a := by funext a old; exact hres a old
  rw [hexec]
  refine ⟨fun hsvc u htok => ?_, fun hsvc bs t' hread u' hwrite ⟨hlate, hiso, hkept⟩ => ?_⟩
  · have hready := atomic_ready (hreads hsvc) (fun hgroup => hflight (.inr hgroup))
    refine ⟨fun e hlog haddr hwidth hop => ?_, fun hlog hroom bs t' hread u' hwrite ⟨hlate, hiso, hkept⟩ => ?_⟩
    · exact atomic_replay hguard harr hallowed haligned hpage hsvc hready htok hlog haddr hwidth hop
    · have hperf := State.performAtomic_ok hlate hread hiso hwrite
      have hissue : u'.issue = u.issue := by
        have hfetch := State.issue_fetchData { u with seq := u.seq + 1 } { g with id := 1000 } p.pa (w / 8) p.key 2
        rw [hread] at hfetch
        exact (State.issue_atomicWrites hwrite).trans hfetch
      exact atomic_first hguard harr hallowed haligned hpage hsvc hready htok hlog hroom hperf hkept hissue
  · exact atomic_service hguard harr hallowed haligned hpage hsvc (hflight (.inl hsvc)) (State.performAtomic_ok hlate hread hiso hwrite) hkept

end Sys2Proof.Proofs
end

section
/-! SUPPORT. Misaligned atomics (R154, R384): the check of alignment, the active elements of a vector atomic, and the trap that each takes. -/
namespace Sys2Proof.Machine
open Sys2Proof

/-! Traps of an operation that has touched nothing. -/

theorem State.runLate_trap {s : State} {o : OpInfo} {f : State → Res} {x : TrapInfo} (hguard : s.guard0 o = true) (harr : s.arrivalOk o.arr)
    (hf : f s = .error x) (hdid : x.did = []) : s.runLate o f = .next (s.takeTrap { x with slot := BitVec.ofNat 4 (slotNum o.slot) }) := by
  rw [← finish_error hdid]
  simp [State.runLate, hguard, State.arriveCheck_ok harr, hf, bind, Except.bind]

theorem State.runEach_trap {s : State} {o : OpInfo} {f : State → Res} {x : TrapInfo} (hf : f s = .error x) (hdid : x.did = []) :
    s.runEach o f = .next (s.takeTrap { x with slot := BitVec.ofNat 4 (slotNum o.slot) }) := by
  rw [← finish_error hdid]
  simp [State.runEach, hf, bind, Except.bind]

/-! Alignment (R154). -/

theorem atomic_misaligned {o : OpInfo} {s : State} {d base ix : BitVec 5} {disp : Word} {aop w cls tok lim : Nat} (hguard : s.guard0 o = true)
    (harr : s.arrivalOk o.arr) (hallowed : 10 ≤ aop → s.who.ctx < 64 → (s.ioGet (0xA800 + 8 * s.who.ctx)).getLsbD 0 = true)
    (hodd : (s.gpr .s base + disp).toNat % (w / 8) ≠ 0) : s.atomic o d base ix disp aop w cls tok lim =
      .next (s.takeTrap { cause := 0x082#10, faddr := s.gpr .s base + disp, slot := BitVec.ofNat 4 (slotNum o.slot) }) := by
  have hraise : ((s.gpr .s base + disp).toNat % (w / 8) != 0) = true := bne_iff_ne.mpr hodd
  refine State.runLate_trap (x := { cause := 0x082#10, faddr := s.gpr .s base + disp }) hguard harr ?_ rfl
  simp only [atomic_allowed hallowed, hraise, raiseIf, raiseAt, Bool.false_eq_true, if_false, if_true, trapA, BitVec.ofNat_toNat, BitVec.setWidth_eq,
    bind, Except.bind]

/-- The bits of a sum of distinct powers of two. -/
theorem testBit_foldl_two_pow (p : Nat → Bool) (n i : Nat) :
    (((List.range n).filter p).foldl (fun t j => t + 2 ^ j) 0).testBit i = (decide (i < n) && p i) := by
  have hlt (n : Nat) : ((List.range n).filter p).foldl (fun t j => t + 2 ^ j) 0 < 2 ^ n := by
    induction n with
    | zero => simp
    | succ n ih =>
      rw [List.range_succ, List.filter_append, List.foldl_append, Nat.pow_succ]
      cases hp : p n <;> simp [hp] <;> omega
  induction n with
  | zero => simp
  | succ n ih =>
    rw [List.range_succ, List.filter_append, List.foldl_append]
    cases hp : p n with
    | false =>
      simp only [hp, List.filter_cons, List.filter_nil, Bool.false_eq_true, if_false, List.foldl_nil, ih]
      by_cases hi : i = n
      · simp [hi, hp]
      · simp [show i < n + 1 ↔ i < n by omega]
    | true =>
      simp only [hp, List.filter_cons, List.filter_nil, if_true, List.foldl_cons, List.foldl_nil]
      rw [Nat.add_comm, ← Nat.mul_one (2 ^ n), Nat.two_pow_add_eq_or_of_lt (hlt n), Nat.mul_one, Nat.testBit_or, ih, Nat.testBit_two_pow]
      by_cases hi : i = n
      · simp [hi, hp]
      · simp [show i < n + 1 ↔ i < n by omega, Ne.symm hi]

theorem State.testBit_guardList (s : State) (o : OpInfo) (e n j : Nat) : (s.guardList o e n).testBit j = (decide (j < n) && s.guardE o e j) :=
  testBit_foldl_two_pow (s.guardE o e) n j

theorem State.guardList_ne_zero {s : State} {o : OpInfo} {e n : Nat} (h : ∃ j, j < n ∧ s.guardE o e j = true) : s.guardList o e n ≠ 0 := by
  obtain ⟨j, hj, hg⟩ := h
  intro hzero
  have hbit := s.testBit_guardList o e n j
  simp [hzero, hj, hg] at hbit

/-- The vector atomics with their codes (R384); Lean's compiler does not build constructors of so large an inductive. -/
noncomputable def vamoOps : List ((OpInfo → VAtomic → Instr) × Nat) :=
  [(.vamoAdd, 0), (.vamoAnd, 1), (.vamoOr, 2), (.vamoXor, 3), (.vamoSmin, 4), (.vamoSmax, 5), (.vamoUmin, 6), (.vamoUmax, 7), (.vamoSwap, 8)]

theorem exec_vamoOps (o : OpInfo) (r : VAtomic) (s : State) : ∀ p ∈ vamoOps, exec (p.1 o r) s = s.vamo o r p.2 := by
  simp only [vamoOps, List.forall_mem_cons]
  exact ⟨rfl, rfl, rfl, rfl, rfl, rfl, rfl, rfl, rfl, by simp⟩

theorem vamo_misaligned {o : OpInfo} {s : State} {r : VAtomic} {aop : Nat} (hactive : s.guardList o (widthOf r.w) (256 / widthOf r.w) ≠ 0)
    (hodd : (v64 (s.cur.rV r.base.toNat) + imm64 r.disp).toNat % 32 ≠ 0) : s.vamo o r aop =
      .next (s.takeTrap { cause := 0x082#10, faddr := v64 (s.cur.rV r.base.toNat) + imm64 r.disp, slot := BitVec.ofNat 4 (slotNum o.slot) }) := by
  have hraise : ((v64 (s.cur.rV r.base.toNat) + imm64 r.disp).toNat % 32 != 0) = true := bne_iff_ne.mpr hodd
  refine State.runEach_trap (x := { cause := 0x082#10, faddr := v64 (s.cur.rV r.base.toNat) + imm64 r.disp }) ?_ rfl
  simp only [hactive, hraise, raiseAt, if_false, if_true, trapA, BitVec.ofNat_toNat, BitVec.setWidth_eq, bind, Except.bind]

end Sys2Proof.Machine

namespace Sys2Proof.Proofs
open Sys2Proof Sys2Proof.Machine

/-- Settles O59: the check of alignment is the first after R159's, and a size of 4, 8 or 32 bytes divides a sector, a line and a page. -/
theorem atomicAlignment : Obligations.AtomicAlignment := by
  unfold Obligations.AtomicAlignment
  refine ⟨fun o s harr => ⟨fun f hf r hguard hodd => ?_, fun hallowed hguard => ⟨fun f hf r hodd => ?_, fun r hodd => ?_⟩, fun f hf r hactive hodd => ?_⟩,
    fun a w hw hal i hi => ?_⟩
  · obtain ⟨p, hp, rfl⟩ : ∃ p ∈ atomicOps, p.1 = f := List.mem_map.mp hf
    rw [exec_atomicOps o r s p hp]
    have hcode := code_atomicOps p hp
    refine atomic_misaligned hguard harr (fun h => by omega) ?_
    rwa [show aopWidth r.w / 8 = if r.w = 1 then 8 else 4 by unfold aopWidth; split <;> rfl]
  · simp only [List.mem_cons, List.not_mem_nil, or_false] at hf
    rcases hf with rfl | rfl
    · exact atomic_misaligned (lim := 0) hguard harr (fun _ => hallowed) hodd
    · exact atomic_misaligned (lim := 0) hguard harr (fun _ => hallowed) hodd
  · exact atomic_misaligned (lim := r.lim.toNat) hguard harr (fun _ => hallowed) hodd
  · obtain ⟨p, hp, rfl⟩ : ∃ p ∈ vamoOps, p.1 = f := List.mem_map.mp hf
    rw [exec_vamoOps o r s p hp]
    exact vamo_misaligned (State.guardList_ne_zero hactive) hodd
  · simp only [List.mem_cons, List.not_mem_nil, or_false] at hw
    rcases hw with rfl | rfl | rfl <;> omega

end Sys2Proof.Proofs
end

section
/-! SUPPORT. Updates of memory that a segment withholds (R160, R161, R165, R172, R177, R380, R384-R386): entries of the release buffer, a piece
of a store, a vector atomic, and the pairs of a region. -/
namespace Sys2Proof.Machine
open Sys2Proof

/-! Entries of the release buffer (R220). -/

theorem Core.release_ok {c : Core} (h : c.relCount < 512) (r : Rel) : c.release r = .ok { c with seg := { c.seg with rel := c.seg.rel ++ [r] } } :=
  if_neg (Nat.not_le.mpr h)

/-- An entry stands at the end of the release buffer of the core at issue. -/
def State.withheldAlso (s : State) (r : Rel) : State :=
  s.setCore s.issue.core { s.cur with seg := { s.cur.seg with rel := s.cur.seg.rel ++ [r] } }

theorem State.cur_withheldAlso (s : State) (r : Rel) : (s.withheldAlso r).cur = { s.cur with seg := { s.cur.seg with rel := s.cur.seg.rel ++ [r] } } :=
  s.cur_setCore _

theorem State.relCount_withheldAlso (s : State) {r : Rel} (h : r.takesEntry = true) : (s.withheldAlso r).cur.relCount = s.cur.relCount + 1 := by
  simp only [State.cur_withheldAlso, Core.relCount, Core.withheld, List.filter_append, List.length_append]
  simp [h]

theorem State.linkFor_ok {s : State} {p : Piece} (h : s.linkCause p.pa = 0) : s.linkFor p = .ok () := if_pos h

/-! A piece of a store (R172, R177, R380). -/

theorem State.storePieces_withheld {s : State} {p : Piece} {val mask cls : Nat} (hsvc : s.issue.svc = false) (hwin : s.cur.winOfVa p.va = none)
    (hlink : s.linkCause p.pa = 0) (hroom : s.cur.relCount < 512) : s.storePieces [p] val mask cls =
      .ok (s.withheldAlso (.store (p.pa - p.pa % 32) p.key cls (BitVec.ofNat 256 (bits val (8 * p.off) (8 * p.n) * 2 ^ (8 * (p.pa % 32))))
        (BitVec.ofNat 32 (bits mask p.off p.n * 2 ^ (p.pa % 32))))) := by
  simp only [State.storePieces, List.foldl_cons, List.foldl_nil, Core.winSector, hwin, hsvc, State.linkFor_ok hlink, Core.release_ok hroom, State.keep_ok,
    Bool.false_eq_true, if_false, bind, Except.bind, State.withheldAlso]

/-- A byte of the entry's mask is set when the piece has it and the mask of the access names it. -/
theorem getLsbD_storeMask (mask off n sh : Nat) {i : Nat} (hi : i < 32) : (BitVec.ofNat 32 (bits mask off n * 2 ^ sh)).getLsbD i =
    (decide (sh ≤ i ∧ i < sh + n) && mask.testBit (off + (i - sh))) := by
  rw [BitVec.getLsbD_ofNat, Nat.testBit_mul_two_pow, testBit_bits, decide_eq_true hi]
  by_cases hlo : sh ≤ i
  · simp [hlo, show i - sh < n ↔ i < sh + n by omega]
  · simp [hlo]

/-- A byte of the piece stands in the entry's value at its place in the sector. -/
theorem byte_storeValue (val off : Nat) {n sh i : Nat} (hi : i < n) (hfit : sh + n ≤ 32) :
    (BitVec.ofNat 256 (bits val (8 * off) (8 * n) * 2 ^ (8 * sh))).toNat / 2 ^ (8 * (sh + i)) % 256 = val / 2 ^ (8 * (off + i)) % 256 := by
  refine Nat.eq_of_testBit_eq fun j => ?_
  rw [show 256 = 2 ^ 8 from rfl, BitVec.toNat_ofNat]
  simp only [Nat.testBit_mod_two_pow, Nat.testBit_div_two_pow, Nat.testBit_mul_two_pow, testBit_bits]
  by_cases hj : j < 8
  · have hplace : j + 8 * (sh + i) - 8 * sh = j + 8 * i := by omega
    rw [hplace, show 8 * off + (j + 8 * i) = j + 8 * (off + i) by ring]
    simp [hj, show j + 8 * (sh + i) < 256 by omega, show 8 * sh ≤ j + 8 * (sh + i) by omega, show j + 8 * i < 8 * n by omega]
  · simp [hj]

/-! A vector atomic (R160, R384). -/

/-- The active elements of a vector atomic as its entry has them. -/
theorem State.ofNat_guardList {s : State} {o : OpInfo} {e n : Nat} {m : BitVec 32} (hm : ∀ j < 32, m.getLsbD j = (decide (j < n) && s.guardE o e j)) :
    BitVec.ofNat 32 (s.guardList o e n) = m := by
  refine BitVec.eq_of_getLsbD_eq fun j hj => ?_
  rw [hm j hj, BitVec.getLsbD_ofNat, State.testBit_guardList, decide_eq_true hj, Bool.true_and]

theorem vamo_withheld {o : OpInfo} {r : VAtomic} {s t u : State} {q : Piece} {qs : List Piece} {aop : Nat}
    (hactive : s.guardList o (widthOf r.w) (256 / widthOf r.w) ≠ 0)
    (haligned : (v64 (s.cur.rV r.base.toNat) + imm64 r.disp).toNat % 32 = 0)
    (hpage : s.xlateR .atomic (v64 (s.cur.rV r.base.toNat) + imm64 r.disp).toNat 32 = .ok (q :: qs, t)) (hlink : t.linkCause q.pa = 0)
    (hroom : t.cur.relCount < 512)
    (hu : u = t.withheldAlso (.vamo q.pa q.key r.cls.toNat aop (widthOf r.w) ((t.cur.rV r.d.toNat).setWidth 256)
      (BitVec.ofNat 32 (s.guardList o (widthOf r.w) (256 / widthOf r.w)))))
    (harr : u.arrivalOk o.arr) : s.vamo o r aop = .next (u.arrival o.arr) := by
  refine State.runEach_ok ?_ harr
  simp only [hactive, haligned, hpage, raiseAt, bne_self_eq_false, Bool.false_eq_true, if_false, State.linkFor_ok hlink, Core.release_ok hroom,
    State.keep_ok, bind, Except.bind, hu, State.withheldAlso]

/-! Pairs (R161, R165, R385, R386). -/

theorem State.withholdPair_ok {s : State} (hroom : s.cur.relCount < 512) (at' : Nat × Nat) (rgn cls : Nat) (v : Word) :
    s.withholdPair at' rgn cls v = .ok (s.withheldAlso (.pair at'.1 at'.2 rgn cls v)) := by
  simp only [State.withholdPair, Core.release_ok hroom, bind, Except.bind, State.withheldAlso]

/-- Where the release buffer has room for all pairs they are withheld in order. -/
theorem State.foldl_withholdPair {α : Type} (at' : α → Nat × Nat) (rgn cls : Nat) (v : α → Word) {l : List α} {s : State}
    (hroom : s.cur.relCount + l.length ≤ 512) :
    l.foldl (fun (q : Res) p => q.bind fun x => x.withholdPair (at' p) rgn cls (v p)) (.ok s) =
      .ok (l.foldl (fun x p => x.withheldAlso (.pair (at' p).1 (at' p).2 rgn cls (v p))) s) := by
  induction l generalizing s with
  | nil => rfl
  | cons p l ih =>
    rw [List.length_cons] at hroom
    have hone := State.withholdPair_ok (s := s) (by omega) (at' p) rgn cls (v p)
    have hrest : (s.withheldAlso (.pair (at' p).1 (at' p).2 rgn cls (v p))).cur.relCount + l.length ≤ 512 := by
      rw [State.relCount_withheldAlso s rfl]; omega
    rw [List.foldl_cons, List.foldl_cons, ← ih hrest, ← hone]
    rfl

theorem State.pairCheck_ok {s t : State} {q : Piece} {qs : List Piece} {g va : Nat} (haligned : va % opWidth (s.rgnOp g) = 0) (hvalid : s.rgnV g = true)
    (hctx : s.rgnCtx g = s.who.ctx) (hlow : s.rgnBase g ≤ va) (hhigh : va < s.rgnBase g + 64 * s.rgnLines g)
    (hpage : s.xlateR .store va (opWidth (s.rgnOp g)) = .ok (q :: qs, t)) (hcached : l2Cached q.pa = true) (hlink : t.linkCause q.pa = 0) :
    s.pairCheck g va = .ok ((q.pa, q.key), t) := by
  have hin : decide (va < s.rgnBase g ∨ s.rgnBase g + 64 * s.rgnLines g ≤ va) = false := decide_eq_false (by omega)
  simp only [State.pairCheck, haligned, hvalid, hctx, hin, hpage, hcached, State.linkFor_ok hlink, raiseAt, bne_self_eq_false, Bool.not_true,
    Bool.false_eq_true, if_false, State.keep_ok, bind, Except.bind]

theorem upd_withheld {o : OpInfo} {r : UpdArgs} {s t u : State} {at' : Nat × Nat} (hguard : s.guard0 o = true)
    (hpair : s.pairCheck r.rgn.toNat (s.gpr .s r.base + (if r.idx = 1 then s.gpr .s r.ix else 0) + imm64 r.disp).toNat = .ok (at', t))
    (hroom : t.cur.relCount < 512) (hu : u = t.withheldAlso (.pair at'.1 at'.2 r.rgn.toNat r.cls.toNat (t.gpr .s r.d)))
    (harr : u.arrivalOk o.arr) : exec (.upd o r) s = .next (u.arrival o.arr) := by
  rw [exec_upd, execUpd]
  refine State.runNow_true hguard ?_ harr
  simp only [hpair, State.withholdPair_ok hroom, State.keep_ok, bind, Except.bind, hu]

/-- A chain of steps that succeeds does so with other steps that succeed alike. -/
theorem foldl_bind_ok_of {ε α β : Type} {f f' : α → β → Except ε β} (hstep : ∀ a b c, f a b = .ok c → f' a b = .ok c) {l : List α} {b c : β}
    (h : l.foldl (fun (q : Except ε β) a => q.bind (f a)) (.ok b) = .ok c) : l.foldl (fun (q : Except ε β) a => q.bind (f' a)) (.ok b) = .ok c := by
  have herror (x : ε) (l : List α) : l.foldl (fun (q : Except ε β) a => q.bind (f a)) (.error x) = .error x := by
    induction l with
    | nil => rfl
    | cons a l ih => exact ih
  induction l generalizing b with
  | nil => exact h
  | cons a l ih =>
    rw [List.foldl_cons, Except.bind] at h ⊢
    cases hfirst : f a b with
    | error x => rw [hfirst, herror] at h; cases h
    | ok b' =>
      rw [hfirst] at h
      rw [hstep a b b' hfirst]
      exact ih h

/-- One pair of a vector update is checked after those of the elements before it, and stands with them. -/
def State.checkPair (g w : Nat) (ix : Vec) (j : Nat) (q : List (Nat × Nat × Nat) × State) : Except TrapInfo (List (Nat × Nat × Nat) × State) :=
  (q.2.pairCheck g (q.2.rgnBase g + elem 32 ix j * w)).map fun y => (q.1 ++ [(j, y.1)], y.2)

/-- A check that passes has no cause that would keep what the bundle touched before it. -/
theorem State.keep_checkPair {g w : Nat} {ix : Vec} {j : Nat} {q q' : List (Nat × Nat × Nat) × State} (h : State.checkPair g w ix j q = .ok q') :
    (q.2.keep (q.2.pairCheck g (q.2.rgnBase g + elem 32 ix j * w))).map (fun y => (q.1 ++ [(j, y.1)], y.2)) = .ok q' := by
  rw [State.checkPair] at h
  cases hpair : q.2.pairCheck g (q.2.rgnBase g + elem 32 ix j * w) with
  | error x => rw [hpair] at h; cases h
  | ok y => rwa [hpair] at h

theorem vupd_withheld {o : OpInfo} {r : VUpdArgs} {s t u : State} {pas : List (Nat × Nat × Nat)} (hguard : s.anyGuard o = true)
    (hvalid : s.rgnV r.rgn.toNat = true)
    (hchecks : ((List.range (128 / opWidth (s.rgnOp r.rgn.toNat))).filter fun j => s.guardE o (8 * opWidth (s.rgnOp r.rgn.toNat)) j).foldl
      (fun (q : Except TrapInfo (List (Nat × Nat × Nat) × State)) j =>
        q.bind (State.checkPair r.rgn.toNat (opWidth (s.rgnOp r.rgn.toNat)) (s.cur.rV r.base.toNat) j)) (.ok ([], s)) = .ok (pas, t))
    (hroom : t.cur.relCount + pas.length ≤ 512)
    (hu : u = pas.foldl (fun x p => x.withheldAlso (.pair p.2.1 p.2.2 r.rgn.toNat r.cls.toNat
      (BitVec.ofNat 64 (elem (8 * opWidth (s.rgnOp r.rgn.toNat)) (s.cur.rV r.d.toNat) p.1)))) t)
    (harr : u.arrivalOk o.arr) : exec (.vupd o r) s = .next (u.arrival o.arr) := by
  have hkept := foldl_bind_ok_of (fun _ _ _ => State.keep_checkPair) hchecks
  have hfree : decide (512 < t.cur.relCount + pas.length) = false := decide_eq_false (by omega)
  have hall := State.foldl_withholdPair Prod.snd r.rgn.toNat r.cls.toNat
    (fun p => BitVec.ofNat 64 (elem (8 * opWidth (s.rgnOp r.rgn.toNat)) (s.cur.rV r.d.toNat) p.1)) hroom
  rw [exec_vupd, execVupd]
  refine State.vec_live hguard ?_ harr
  simp only [Except.bind] at hkept hall
  simp only [hvalid, hkept, hfree, hall, raiseIf, Bool.not_true, Bool.false_eq_true, if_false, State.keep_ok, bind, Except.bind, hu]

end Sys2Proof.Machine

namespace Sys2Proof.Proofs
open Sys2Proof Sys2Proof.Machine

/-- Settles O15: once its checks have passed each of them adds its entry, or its entries in order, to the release buffer of the core at issue. -/
theorem memoryUpdatesAreWithheld : Obligations.MemoryUpdatesAreWithheld := by
  unfold Obligations.MemoryUpdatesAreWithheld
  refine ⟨?_, ?_, fun o s => ⟨?_, ?_⟩⟩
  · intro s p val mask cls hsvc hwin hlink hroom hn hfit t hstore
    rw [State.storePieces_withheld hsvc hwin hlink hroom] at hstore
    cases hstore
    refine ⟨rfl, rfl, by rw [State.cur_withheldAlso], _, _, ?_, fun i hi => getLsbD_storeMask mask p.off p.n _ hi, fun i hi => byte_storeValue val p.off hi hfit⟩
    rw [State.cur_withheldAlso, show p.pa / 32 * 32 = p.pa - p.pa % 32 by omega]
  · intro p hp o r s t q qs m e va hm hne haligned hpage hlink hroom t' harr
    have hlist : BitVec.ofNat 32 (s.guardList o (widthOf r.w) (256 / widthOf r.w)) = m := State.ofNat_guardList hm
    have hactive : s.guardList o (widthOf r.w) (256 / widthOf r.w) ≠ 0 := fun hzero => hne (by rw [← hlist, hzero]; rfl)
    rw [exec_vamoOps o r s p hp]
    subst hlist
    exact vamo_withheld hactive haligned hpage hlink hroom rfl harr
  · intro r t q qs hguard g w va haligned hvalid hctx hlow hhigh hpage hcached hlink hroom t' harr
    exact upd_withheld hguard (State.pairCheck_ok haligned hvalid hctx hlow hhigh hpage hcached hlink) hroom rfl harr
  · intro r t pas hguard g w js hvalid hchecks hroom t' harr
    exact vupd_withheld hguard hvalid hchecks hroom rfl harr

end Sys2Proof.Proofs
end

section
/-! SUPPORT. Memory in its canonical form (R172, R174, R178): what the memory system keeps of it, from a write at a physical address to the pairs of
a region and the decks. -/
set_option Elab.async false
namespace Sys2Proof.Machine
open Sys2Proof
namespace State
variable {s : State}

/-! Folds. -/

theorem memOk_foldl {α : Type} {f : State → α → State} (hf : ∀ u x, u.memOk → (f u x).memOk) (l : List α) {s : State} (h : s.memOk) :
    (l.foldl f s).memOk := by
  induction l generalizing s with
  | nil => exact h
  | cons x l ih => exact ih (hf s x h)
theorem memOk_foldlIn {α β : Type} (view : β → State) {f : β → α → β} (hf : ∀ q x, (view q).memOk → (view (f q x)).memOk)
    (l : List α) {q : β} (h : (view q).memOk) : (view (l.foldl f q)).memOk := by
  induction l generalizing q with
  | nil => exact h
  | cons x l ih => exact ih (hf q x h)

/-! Writes. -/

theorem memOk_writePhys (h : s.memOk) (a : Nat) (b : List Byte) : (s.writePhys a b).memOk := writePhys_wf h a b

/-! Charges, records, retired frames. -/

@[simp] theorem mem_charge (s : State) (ctx k n : Nat) : (s.charge ctx k n).mem = s.mem := by unfold charge; split <;> rfl
@[simp] theorem mem_record (s : State) (kind flags owner req unit set way pa : Nat) : (s.record kind flags owner req unit set way pa).mem = s.mem := rfl
@[simp] theorem mem_lineRecord (s : State) (kind flags owner ctx line way : Nat) : (s.lineRecord kind flags owner ctx line way).mem = s.mem := rfl
@[simp] theorem mem_wdrop (s : State) : s.wdrop.mem = s.mem := rfl
@[simp] theorem mem_overflowed (s : State) (r : Nat) : (s.overflowed r).mem = s.mem := rfl
@[simp] theorem mem_retireFrame (s : State) (pa : Nat) : (s.retireFrame pa).1.mem = s.mem := by
  unfold retireFrame
  dsimp only
  split
  · rfl
  · split <;> rfl

/-! Sectors: what stands below L2, and copies elsewhere. -/

@[simp] theorem mem_keepBelow (s : State) (k : Nat) : (s.keepBelow k).mem = s.mem := by unfold keepBelow; split <;> rfl
theorem memOk_showBelow (h : s.memOk) (k : Nat) : (s.showBelow k).memOk := by
  unfold showBelow
  grind [memOk, memOk_writePhys]
@[simp] theorem mem_encrypt (s : State) (sector slot : Nat) : (s.encrypt sector slot).mem = s.mem := by unfold encrypt; split <;> rfl
@[simp] theorem mem_storeBelow (s : State) (sec slot : Nat) : (s.storeBelow sec slot).mem = s.mem := s.mem_encrypt sec slot
@[simp] theorem mem_send (s : State) (ch : Nat) (b : List Byte) : (s.send ch b).mem = s.mem := rfl
@[simp] theorem mem_wake (s : State) (line : Nat) : (s.wake line).mem = s.mem := rfl
@[simp] theorem mem_snoopNow (s : State) (line : Nat) : (s.snoopNow line).mem = s.mem := by
  unfold snoopNow
  grind [mem_send]
@[simp] theorem mem_dropCopies (s : State) (sector writer : Nat) (own : Bool) : (s.dropCopies sector writer own).mem = s.mem := by
  unfold dropCopies
  grind [mem_wake, mem_snoopNow, invalidate]

/-! Lines: fills, writebacks, disabled ways. -/

theorem memOk_fillSector (h : s.memOk) (line i : Nat) (a : L2Acc) : (s.fillSector line i a).memOk := by
  unfold fillSector
  grind [memOk, memOk_writePhys, mem_charge, mem_lineRecord, mem_keepBelow]
theorem memOk_refetch (h : s.memOk) (n line i flags : Nat) (a : L2Acc) : (s.refetch n line i flags a).memOk := by
  unfold refetch
  grind [memOk, memOk_showBelow, memOk_fillSector, mem_lineRecord]
theorem memOk_noteCor (h : s.memOk) (n : Nat) (l : L2Line) (skip ctx : Nat) : (s.noteCor n l skip ctx).memOk :=
  memOk_foldl (fun _ _ hu => by exact hu) _ h
theorem memOk_writeBack (h : s.memOk) (n : Nat) (l : L2Line) (chargeTo : Nat) : (s.writeBack n l chargeTo).memOk := by
  refine memOk_foldl (fun u i hu => ?_) [0, 1] h
  grind [memOk, mem_charge, mem_wdrop, mem_storeBelow]
theorem memOk_dropLine (h : s.memOk) (n : Nat) : (s.dropLine n).memOk := by
  unfold dropLine
  grind [memOk, memOk_showBelow, mem_wake]
theorem memOk_disableWay (h : s.memOk) (n : Nat) : (s.disableWay n).memOk := memOk_dropLine h n

/-! Decks: the apply of a region and what its reads find. -/

theorem memOk_deckFill (h : s.memOk) (line ctx : Nat) : (s.deckFill line ctx).memOk := by
  refine memOk_foldl (fun u i hu => ?_) [0, 1] h
  grind [memOk, memOk_fillSector]
theorem memOk_applyKey (h : s.memOk) (op fxp ctx r key : Nat) (d : DeckVal) : (s.applyKey op fxp ctx r key d).memOk := by
  unfold applyKey
  grind [memOk, memOk_writePhys, mem_dropCopies, mem_keepBelow, mem_overflowed]
theorem memOk_applyCheck (h : s.memOk) (ctx sec : Nat) : (s.applyCheck ctx sec).2.memOk := by
  unfold applyCheck
  grind [memOk, memOk_refetch]
theorem memOk_applyOne (h : s.memOk) (r slice : Nat) : (s.applyOne r slice).2.memOk := by
  unfold applyOne
  extract_lets op fxp ctx k deck nrun s1 s2
  have h2 : s2.memOk := memOk_foldl (fun u q hu => by grind [memOk, mem_lineRecord]) _ (by grind [memOk, mem_charge])
  clear_value s2
  split
  next runs bad _ =>
  extract_lets runs' all s3 secs
  have h3 : s3.memOk := memOk_foldl (fun u line hu => memOk_deckFill hu line ctx) _ h2
  clear_value s3
  split
  next found s4 hread =>
  have h4 : s4.memOk := by
    rw [show s4 = _ from (congrArg Prod.snd hread).symm]
    split
    · exact h3
    · exact memOk_foldlIn Prod.snd (q := ([], s3)) (fun q x hq => memOk_applyCheck hq ctx x.1) secs h3
  extract_lets us s5 s6 s7 keys
  have h5 : s5.memOk := by grind [memOk, mem_overflowed]
  clear_value s5
  have h6 : s6.memOk := by
    unfold s6
    split
    · refine memOk_foldl (fun u q hu => ?_) us h5
      grind [memOk, memOk_deckFill, mem_lineRecord, mem_dropCopies, mem_keepBelow]
    · exact memOk_foldl (α := Nat × DeckVal) (fun u q hu => memOk_applyKey hu op fxp ctx r q.1 q.2) all h5
  refine memOk_foldl (fun u line hu => ?_) keys (s := s7) h6
  grind [memOk]
theorem memOk_applyRest (h : s.memOk) (line : Nat) : (s.applyRest line).2.memOk := by
  refine memOk_foldlIn Prod.snd (q := ([], s)) (fun q r hq => ?_) (s.rgnsFor line) h
  exact memOk_applyOne hq r (s.home line)

/-! Containment: lost lines and disabled ways. -/

theorem memOk_loseCore (h : s.memOk) (n tag owner bad : Nat) (scrub : Bool) (ctx : Nat) : (s.loseCore n tag owner bad scrub ctx).memOk := by
  unfold loseCore
  grind [memOk, memOk_noteCor, memOk_writeBack, memOk_disableWay, mem_retireFrame, mem_lineRecord]
theorem memOk_poisonBad (h : s.memOk) (l : L2Line) : (s.poisonBad l).memOk := memOk_foldl (fun _ _ hu => by exact hu) _ h
theorem memOk_countUp (h : s.memOk) (n line flags ctx : Nat) : (s.countUp n line flags ctx).2.memOk := by
  unfold countUp
  grind [memOk, mem_lineRecord]
theorem memOk_wayGone (h : s.memOk) (n line flags ctx : Nat) : (s.wayGone n line flags ctx).memOk := by
  unfold wayGone
  grind [memOk, memOk_noteCor, memOk_poisonBad, memOk_loseCore, memOk_writeBack, memOk_disableWay, mem_lineRecord]
theorem memOk_settle (h : s.memOk) (fuel : Nat) (found : List Nat) : (settle fuel found s).memOk := by
  induction fuel generalizing found s with
  | zero => exact h
  | succ fuel ih =>
    cases found with
    | nil => exact h
    | cons sec rest =>
      unfold settle
      grind [memOk_poisonBad, memOk_loseCore, memOk_applyRest, memOk_countUp, memOk_wayGone]
theorem memOk_applyRegion (h : s.memOk) (r slice : Nat) : (s.applyRegion r slice).memOk := memOk_settle (memOk_applyOne h r slice) ..
theorem memOk_applyLine (h : s.memOk) (line : Nat) : (s.applyLine line).memOk := by
  have hregions : ((s.rgnsFor line).foldl (fun s r => s.applyRegion r (s.home line)) s).memOk :=
    memOk_foldl (fun u r hu => memOk_applyRegion hu r (u.home line)) (s.rgnsFor line) h
  unfold applyLine
  grind [memOk]
theorem memOk_loseLine (h : s.memOk) (n : Nat) (scrub : Bool) (ctx : Nat) : (s.loseLine n scrub ctx).memOk := by
  unfold loseLine
  grind [memOk_poisonBad, memOk_applyLine, memOk_loseCore]
theorem memOk_countCorrected (h : s.memOk) (n line flags ctx : Nat) : (s.countCorrected n line flags ctx).memOk := by
  unfold countCorrected
  grind [memOk_countUp, memOk_applyLine, memOk_wayGone]
theorem memOk_evict (h : s.memOk) (n : Nat) : (s.evict n).memOk := by
  unfold evict
  split
  · exact h
  · extract_lets s1
    have h1 : s1.memOk := memOk_applyLine h _
    split
    · exact h1
    · split
      · exact memOk_loseLine h1 ..
      · exact memOk_foldl (fun u i hu => memOk_countCorrected hu ..) _ (memOk_dropLine (memOk_writeBack h1 ..) n)

/-! Slice retirement. -/

theorem memOk_retireSlice (h : s.memOk) (slice : Nat) : (s.retireSlice slice).memOk := by
  unfold retireSlice
  -- the lists' entries play no part: no check of this proof is to count them out
  generalize List.range 4096 = places, List.range 256 = regions
  extract_lets live s1 s2 o s3 next
  have h1 : s1.memOk := memOk_foldl (fun u r hu => by grind [memOk_applyRegion]) regions h
  clear_value s1
  have h2 : s2.memOk := memOk_foldl (fun u q hu => by grind [memOk_evict]) _ h1
  clear_value s2
  split
  · exact h
  · split
    next s4 _ hmap =>
    have h4 : s4.memOk := by
      rw [show s4 = _ from (congrArg Prod.fst hmap).symm]
      refine memOk_foldlIn Prod.fst (fun q i hq => ?_) _ (q := (s3, slice)) h2
      grind [memOk, ioSet_mem]
    exact h4

/-! Accesses to a line (R136, R137, R138, R145). -/

theorem memOk_sweepDone (h : s.memOk) : s.sweepDone.memOk := by
  refine memOk_foldl (fun u q hu => ?_) _ h
  have hshown : ((({ u with poison := u.poison.del q.1 } : State).showBelow q.1).wake (q.1 / 2)).memOk := memOk_showBelow (by exact hu) _
  grind [memOk]
theorem mem_victim {t : State} {sn w : Nat} {cands : List Nat} (hway : s.victim sn cands = some (w, t)) : t.mem = s.mem := by
  unfold victim at hway
  grind
theorem mem_wayFor {t : State} {line w : Nat} {resv : Bool} (hway : s.wayFor line resv = some (w, t)) : t.mem = s.mem := by
  unfold wayFor at hway
  grind [mem_victim, Option.map_eq_some_iff]
theorem memOk_allocateIn (h : s.memOk) (fuel line : Nat) (a : L2Acc) : (allocateIn fuel line a s).memOk := by
  induction fuel generalizing s with
  | zero => exact h
  | succ fuel ih =>
    unfold allocateIn
    grind [memOk, mem_wayFor, memOk_evict, memOk_retireSlice, readySlice]
theorem memOk_allocate (h : s.memOk) (line : Nat) (a : L2Acc) : (s.allocate line a).memOk := memOk_allocateIn (memOk_retireSlice h _) ..
theorem memOk_checkErr (h : s.memOk) (line i : Nat) (a : L2Acc) : (s.checkErr line i a).memOk := by
  unfold checkErr
  grind [memOk_countCorrected, memOk_loseLine, memOk_refetch]
theorem memOk_needSector (h : s.memOk) (line i : Nat) (a : L2Acc) : (s.needSector line i a).memOk := by
  unfold needSector
  grind [memOk, forgetWords, memOk_checkErr, memOk_fillSector]
theorem memOk_mergeBelow (h : s.memOk) (line i : Nat) (a : L2Acc) : (s.mergeBelow line i a).memOk := by
  unfold mergeBelow
  grind [memOk, mem_storeBelow, mem_lineRecord, memOk_writePhys, mem_encrypt]
theorem memOk_wroteSector (h : s.memOk) (line i : Nat) (a : L2Acc) : (s.wroteSector line i a).memOk := by
  unfold wroteSector
  grind [memOk, memOk_mergeBelow, mem_storeBelow, mem_keepBelow]
theorem memOk_spillLine (h : s.memOk) (line : Nat) (a : L2Acc) : (s.spillLine line a).memOk :=
  memOk_foldl (fun u i hu => by grind [memOk, memOk_mergeBelow, mem_charge]) [0, 1] h
theorem memOk_l2Access (h : s.memOk) (line : Nat) (a : L2Acc) : (s.l2Access line a).memOk := by
  unfold l2Access
  extract_lets s1 s2 s3 hit kept s4 s5 gone lost s6 s7 s8 s9
  have h3 : s3.memOk := by grind [readySlice, memOk_retireSlice, memOk_sweepDone, memOk_applyLine]
  have h5 : s5.memOk := by grind [memOk_allocate, memOk_needSector]
  clear_value s5
  have h7 : s7.memOk := by grind [memOk_allocate, memOk_needSector]
  clear_value s7
  have h8 : s8.memOk := by grind [memOk_allocate, memOk_needSector]
  clear_value s8
  grind [memOk, memOk_spillLine, memOk_wroteSector]
theorem memOk_l2Read (h : s.memOk) (pa n ctx key u : Nat) : (s.l2Read pa n ctx key u).memOk := by
  unfold l2Read
  split
  · exact memOk_foldl (fun u l hu => memOk_l2Access hu l _) _ h
  · exact h
theorem memOk_l2Put (h : s.memOk) (pa mask : Nat) (b : List Byte) (a : L2Acc) : (s.l2Put pa mask b a).memOk := by
  unfold l2Put
  extract_lets n whole s1
  have h1 : s1.memOk := by
    unfold s1
    split
    · exact memOk_foldl (fun u l hu => memOk_l2Access hu l _) _ h
    · exact h
  split
  · exact h1
  · exact writeMasked_wf h1 pa mask b
theorem memOk_l2Write (h : s.memOk) (pa mask : Nat) (b : List Byte) (ctx key : Nat) (owner : Option Nat) (through resv : Bool) :
    (s.l2Write pa mask b ctx key owner through resv).memOk := memOk_l2Put h ..
theorem memOk_deckRoom (h : s.memOk) (r slice : Nat) : (s.deckRoom r slice).memOk := by
  have hdrop (u : State) (hu : u.memOk) (l : List Nat) : (l.foldl (fun s k => s.dropCopies k 1000 false) u).memOk :=
    memOk_foldl (fun v k hv => by grind [memOk, mem_dropCopies]) l hu
  unfold deckRoom
  grind [memOk, mem_charge, memOk_l2Put, memOk_applyRegion]
theorem memOk_pairRoom (h : s.memOk) (key slot r ctx : Nat) : (s.pairRoom key slot r ctx).memOk := by
  unfold pairRoom
  grind [memOk_deckRoom, memOk_allocate]
theorem memOk_takePair (h : s.memOk) (key slot r v ctx : Nat) : (s.takePair key slot r v ctx).memOk := by
  have hroom (u : State) (hu : u.memOk) : ((u.pairRoom key slot r ctx).pairRoom key slot r ctx).memOk := memOk_pairRoom (memOk_pairRoom hu ..) ..
  have hready : (s.readySlice (key / 64)).memOk := memOk_retireSlice h _
  unfold takePair
  grind [memOk, mem_charge]

/-! Recalls, links and the accesses of an agent (R29-R31, R133, R152). -/

theorem memOk_spScan (h : s.memOk) (core sa n : Nat) : (s.spScan core sa n).memOk := by
  refine memOk_foldl (fun u k hu => ?_) _ h
  grind [memOk, mem_record, setCore_mem]
theorem memOk_stashPut (h : s.memOk) (core pa key : Nat) (r : Recalled) : (s.stashPut core pa key r).memOk := by
  unfold stashPut
  grind [memOk, mem_dropCopies, memOk_l2Write]
theorem memOk_recall (h : s.memOk) (sector except : Nat) : (s.recall sector except).memOk := by
  refine memOk_foldl (fun u q hu => ?_) _ h
  split
  · exact hu
  · refine memOk_foldl (fun v e hv => ?_) _ hu
    grind [memOk, memOk_spScan, memOk_stashPut, setCore_mem]
theorem memOk_hostTouch (h : s.memOk) (pa n : Nat) (excl : Bool) : (s.hostTouch pa n excl).memOk := by
  unfold hostTouch
  split
  · refine memOk_foldl (fun u l hu => ?_) _ h
    grind [memOk, hostEnter, mem_wake]
  · exact h
theorem memOk_fetchData (h : s.memOk) (a : Agent) (pa n key u : Nat) : (s.fetchData a pa n key u).2.memOk := by
  have hrecall : ((sectorsOf pa n).foldl (fun s k => s.recall k a.id) s).memOk := memOk_foldl (fun u k hu => memOk_recall hu k a.id) _ h
  unfold fetchData
  grind [memOk, hostOver, modCore_mem, memOk_l2Read, memOk_hostTouch]
theorem memOk_performWrite (h : s.memOk) (a : Agent) (pa mask : Nat) (b : List Byte) (key : Nat) : (s.performWrite a pa mask b key).2.memOk := by
  have hcopies : ((sectorsOf pa b.length).foldl (fun s k => s.dropCopies k a.id false) s).memOk :=
    memOk_foldl (fun u k hu => by grind [memOk, mem_dropCopies]) _ h
  unfold performWrite
  grind [memOk, hostOver, modCore_mem, mem_wdrop, memOk_l2Write, memOk_hostTouch]
theorem memOk_admitPair (h : s.memOk) (pa key r : Nat) (v : Word) (ctx : Nat) : (s.admitPair pa key r v ctx).memOk :=
  memOk_takePair (by rwa [memOk, mem_dropCopies]) ..

/-! Translation (R125-R129). -/

theorem memOk_walkL2 (h : s.memOk) (ctx va fuel level base : Nat) : (walkL2 ctx va fuel level base s).2.memOk := by
  induction fuel generalizing level base s with
  | zero => exact h
  | succ fuel ih =>
    unfold walkL2
    grind [memOk_fetchData]
@[simp] theorem mem_tlbAdd (s : State) (unit core ctx va : Nat) (l : Leaf) : (s.tlbAdd unit core ctx va l).mem = s.mem := by
  unfold tlbAdd
  grind
theorem memOk_xlatePage (h : s.memOk) (w : Who) (k : AccKind) (va : Nat) : (s.xlatePage w k va).2.memOk := by
  unfold xlatePage
  grind [memOk, mem_tlbAdd, memOk_walkL2]
theorem memOk_xlate (h : s.memOk) (w : Who) (k : AccKind) (va n : Nat) : (s.xlate w k va n).2.memOk := by
  unfold xlate
  grind [memOk_xlatePage]
@[simp] theorem mem_touch (s : State) (l : List Touch) : (s.touch l).mem = s.mem := rfl
theorem memOk_xlateR {t : State} {k : AccKind} {va n : Nat} {ps : List Piece} (h : s.memOk) (hx : s.xlateR k va n = .ok (ps, t)) : t.memOk := by
  unfold xlateR at hx
  grind [memOk, memOk_xlate, mem_touch, endsAfter]

end State
end Sys2Proof.Machine
end

section
/-! SUPPORT. Memory in its canonical form: how a core stops with a cause, takes back what a bundle had begun, posts, fetches and reads its descriptors
(R183, R219, R224, R229, R230, R297). -/
set_option Elab.async false
namespace Sys2Proof.Machine
open Sys2Proof
namespace State
variable {s : State}

theorem mem_foldl {α : Type} {f : State → α → State} (hf : ∀ u x, (f u x).mem = u.mem) (l : List α) (s : State) : (l.foldl f s).mem = s.mem := by
  induction l generalizing s with
  | nil => rfl
  | cons x l ih => exact (ih (f s x)).trans (hf s x)
/-- An operation that follows another ends with a value when both do. -/
theorem bind_eq_ok {ε α β : Type} {x : Except ε α} {f : α → Except ε β} {b : β} : (x >>= f) = .ok b ↔ ∃ a, x = .ok a ∧ f a = .ok b := by
  cases x <;> simp [bind, Except.bind]
theorem except_bind_eq_ok {ε α β : Type} {x : Except ε α} {f : α → Except ε β} {b : β} : x.bind f = .ok b ↔ ∃ a, x = .ok a ∧ f a = .ok b := bind_eq_ok
theorem except_map_eq_ok {ε α β : Type} {x : Except ε α} {f : α → β} {b : β} : x.map f = .ok b ↔ ∃ a, x = .ok a ∧ f a = b := by
  cases x <;> simp [Except.map]
/-- The same for a chain of operations that a cause ends: what each of them keeps, the chain keeps. -/
theorem foldlBind_keeps {ε α β : Type} {P : β → Prop} {f : α → β → Except ε β} {l : List α} (hf : ∀ {q q' : β}, ∀ x ∈ l, P q → f x q = .ok q' → P q')
    {q q' : β} (h : P q) (hl : l.foldl (fun (r : Except ε β) x => r.bind (f x)) (.ok q) = .ok q') : P q' := by
  induction l generalizing q with
  | nil => cases hl; exact h
  | cons x l ih =>
    rw [List.foldl_cons, Except.bind] at hl
    cases hx : f x q with
    | error e =>
      have herror (l : List α) : l.foldl (fun (r : Except ε β) x => r.bind (f x)) (.error e) = .error e := by
        induction l with
        | nil => rfl
        | cons y l ih => exact ih
      rw [hx] at hl
      cases (herror l).symm.trans hl
    | ok u =>
      rw [hx] at hl
      exact ih (fun y hy => hf y (List.mem_cons_of_mem _ hy)) (hf x List.mem_cons_self h hx) hl
theorem memOk_foldlBind {ε α : Type} {f : α → State → Except ε State} (hf : ∀ {x u v}, u.memOk → f x u = .ok v → v.memOk) {l : List α}
    {s t : State} (h : s.memOk) (hl : l.foldl (fun (r : Except ε State) x => r.bind (f x)) (.ok s) = .ok t) : t.memOk :=
  foldlBind_keeps (P := State.memOk) (fun _ _ hu hv => hf hu hv) h hl

/-! How a core stops with a cause (R224, R229, R230). -/

@[simp] theorem mem_freeForks (s : State) (c : Nat) : (s.freeForks c).mem = s.mem := (s.freeForks_keeps c).2.2
@[simp] theorem mem_packageFatal (s : State) (c : Cause) : (s.packageFatal c).mem = s.mem := (s.packageFatal_keeps c).2
@[simp] theorem mem_park (s : State) (c : Nat) (t : TrapInfo) (haddr : Word) (kind : Nat) : (s.park c t haddr kind).mem = s.mem := by
  unfold park
  grind [mem_freeForks, setCore_mem, mem_packageFatal]
@[simp] theorem mem_parkSvc (s : State) (c : Nat) (t : TrapInfo) (haddr : Word) : (s.parkSvc c t haddr).mem = s.mem := rfl
@[simp] theorem mem_chkReplay (s : State) (c : Nat) : (s.chkReplay c).mem = s.mem := by
  unfold chkReplay
  grind [mem_park, mem_freeForks, modCore_mem]
@[simp] theorem mem_takeTrap (s : State) (t : TrapInfo) : (s.takeTrap t).mem = s.mem := by
  unfold takeTrap
  grind [mem_park, mem_parkSvc, mem_chkReplay, modCore_mem]
@[simp] theorem mem_resume (s : State) (c : Nat) : (s.resume c).mem = s.mem := rfl
@[simp] theorem mem_spend (s : State) (core n : Nat) (svc : Bool) : (s.spend core n svc).mem = s.mem := by
  unfold spend
  simp

/-! Results and tokens (R202, R204). -/

@[simp] theorem mem_landG (s : State) (sl : Slot) (d : BitVec 5) (v : Word) : (s.landG sl d v).mem = s.mem := by
  unfold landG
  grind [modCur_mem, land_mem]
@[simp] theorem mem_landP (s : State) (u : LatUnit) (pd : BitVec 4) (v mask : Word) : (s.landP u pd v mask).mem = s.mem := by
  unfold landP
  grind [land_mem]
theorem mem_tokAdd {t : State} {k n : Nat} (ht : s.tokAdd k n = .ok t) : t.mem = s.mem := by
  unfold tokAdd at ht
  grind [modCur_mem, trapC]

/-! The stash (R132, R133). -/

theorem memOk_stashFill (h : s.memOk) (core : Nat) (who : Who) (k : Nat) (w : Window) : (s.stashFill core who k w).2.memOk := by
  unfold stashFill
  grind [memOk, memOk_xlatePage, memOk_fetchData, setCore_mem]
theorem memOk_stashServe {k : Nat} {w : Window} {b : Bool} {t : State} (h : s.memOk) (hq : s.stashServe k w = .ok (b, t)) : t.memOk := by
  unfold stashServe at hq
  grind [memOk, memOk_stashFill, mem_touch, endsAfter]
theorem memOk_stashOpen {t : State} {sa n : Nat} (h : s.memOk) (ht : s.stashOpen sa n = .ok t) : t.memOk := by
  refine memOk_foldlBind (fun {k u v} hu hv => ?_) h ht
  grind [memOk_stashServe, except_map_eq_ok]
theorem memOk_stashTouch {t : State} {sa n : Nat} (h : s.memOk) (ht : s.stashTouch sa n = .ok t) : t.memOk := by
  unfold stashTouch at ht
  grind [memOk, memOk_stashOpen, memOk_spScan, mem_touch, except_map_eq_ok]
theorem memOk_stashReach (h : s.memOk) (core : Nat) (who : Who) (sa n : Nat) (scan : Bool) : (s.stashReach core who sa n scan).2.memOk := by
  have hfold := memOk_foldlIn Prod.snd (q := ((0 : Cause), s)) (f := fun (q : Cause × State) k =>
    if q.1 ≠ 0 then q
    else match (q.2.core core).winOfSp (k * 32) with
      | none => q
      | some (_, w) => match q.2.stashFill core who k w with
        | (.error t, s) => (t.cause, s)
        | (.ok _, s) => (0, s)) (fun q k hq => by grind [memOk_stashFill]) (sectorsOf sa n) h
  unfold stashReach
  grind [memOk_spScan]
theorem mem_spStore {t : State} {k bmask : Nat} {val : BitVec 256} {poisoned : Bool} (ht : s.spStore k val bmask poisoned = .ok t) : t.mem = s.mem := by
  unfold spStore at ht
  grind [setCore_mem, bind_eq_ok]
@[simp] theorem mem_sdcAdd (s : State) (core line : Nat) : (s.sdcAdd core line).mem = s.mem := by
  unfold sdcAdd
  grind [modCore_mem]
theorem memOk_loadGlobal (h : s.memOk) (core : Nat) (rel : List Rel) (p : Piece) (u : Nat) (small : Bool) : (s.loadGlobal core rel p u small).2.memOk := by
  have hadd (l : List Nat) (u : State) : (l.foldl (fun s l => s.sdcAdd core l) u).mem = u.mem := mem_foldl (fun v l => v.mem_sdcAdd core l) l u
  unfold loadGlobal
  grind [memOk, memOk_fetchData]
theorem memOk_loadPiece (h : s.memOk) (w : Who) (rel : List Rel) (p : Piece) (u : Nat) (small : Bool) : (s.loadPiece w rel p u small).2.memOk := by
  unfold loadPiece
  grind [memOk_loadGlobal, memOk_stashFill, memOk_spScan]
theorem memOk_stashFor {t : State} {ps : List Piece} (h : s.memOk) (ht : s.stashFor ps = .ok t) : t.memOk := by
  induction ps generalizing s with
  | nil => cases ht; exact h
  | cons p ps ih =>
    unfold stashFor at ht
    grind [memOk_stashServe, except_bind_eq_ok]
theorem memOk_redoOne (h : s.memOk) (t : Touch) : (s.redoOne t).memOk := by
  unfold redoOne
  grind [memOk_xlatePage, memOk_stashFill, memOk_spScan, memOk_l2Read, memOk_loadPiece, memOk_fetchData, memOk_performWrite]
theorem memOk_redo (h : s.memOk) (l : List Touch) : (s.redo l).memOk := memOk_foldl (fun _ t hu => memOk_redoOne hu t) l h

/-! Posts and arrivals (R183, R199, R340-R344). -/

@[simp] theorem mem_postOwn (s : State) (core : Nat) (p : Post) : (s.postOwn core p).mem = s.mem := by
  unfold postOwn
  grind [modCore_mem]
@[simp] theorem mem_drainPosts (n : Nat) (s : State) (core : Nat) : (drainPosts n s core).mem = s.mem := by
  induction n generalizing s with
  | zero => rfl
  | succ n ih =>
    unfold drainPosts
    grind [modCore_mem]
@[simp] theorem mem_flagInc (s : State) (f n : Nat) : (s.flagInc f n).mem = s.mem := by
  unfold flagInc
  grind [modCur_mem, mem_postOwn]
@[simp] theorem mem_flagPut (s : State) (f : Nat) (v : Half) : (s.flagPut f v).mem = s.mem := by
  unfold flagPut
  grind [modCur_mem, mem_postOwn]
theorem mem_arriveNow {t : State} {a : Option Arrival} (ht : s.arriveNow a = .ok t) : t.mem = s.mem := by
  unfold arriveNow at ht
  grind [mem_flagInc, barArrive, setCore_mem, bind_eq_ok]
@[simp] theorem mem_arriveLate (s : State) (core : Nat) (a : Option Arrival) (seq relN bundle : Nat) : (s.arriveLate core a seq relN bundle).mem = s.mem := by
  unfold arriveLate
  grind [modCore_mem, mem_postOwn]

/-! Instruction words (R297, R313). -/

@[simp] theorem mem_icacheAdd (s : State) (core line : Nat) (b : List Byte) : (s.icacheAdd core line b).mem = s.mem := by
  unfold icacheAdd
  grind [modCore_mem]
theorem memOk_refetchLine (h : s.memOk) (core ctx line key : Nat) : (s.refetchLine core ctx line key).2.memOk := by
  unfold refetchLine
  grind [memOk, memOk_recall, memOk_l2Read, mem_icacheAdd]
theorem memOk_fetchLine (h : s.memOk) (core ctx line key : Nat) : (s.fetchLine core ctx line key).2.memOk := by
  unfold fetchLine
  grind [memOk, memOk_refetchLine]
theorem memOk_fetchBytes (h : s.memOk) (w : Who) (va n : Nat) : (s.fetchBytes w va n).2.memOk := by
  unfold fetchBytes
  grind [memOk, memOk_xlatePage, memOk_fetchLine, memOk_hostTouch, hostOver, modCore_mem]
theorem memOk_fetchWord (h : s.memOk) (w : Who) (va : Nat) : (s.fetchWord w va).2.memOk := by
  unfold fetchWord
  grind [memOk_fetchBytes]

end State
end Sys2Proof.Machine
end

section
/-! SUPPORT. Outcomes that keep memory canonical: the operations that reach it through no access, from the scalar forms to the vector ones (R313-R370). -/
set_option Elab.async false
namespace Sys2Proof.Machine
open Sys2Proof

/-- Memory stands in its canonical form in the state that an outcome gives, if it gives one. -/
def OutcomeOk (o : Host.Outcome State Fault Refusal) : Prop := ∀ t, o = .next t → t.memOk

namespace State
variable {s : State}

theorem outcomeOk_next (h : s.memOk) : OutcomeOk (.next s) := fun _ ht => by cases ht; exact h

/-! The ways in which an operation runs. -/

theorem outcomeOk_finish {o : OpInfo} {r : Res} (h : s.memOk) (hr : ∀ t, r = .ok t → t.memOk) : OutcomeOk (finish o s r) := by
  unfold finish
  split
  · exact outcomeOk_next (hr _ rfl)
  · exact outcomeOk_next (by rw [memOk, mem_takeTrap]; exact memOk_redo h _)
theorem keep_eq_ok {α : Type} {r : Except TrapInfo α} {a : α} : s.keep r = .ok a ↔ r = .ok a := by
  unfold keep
  split <;> simp
theorem memOk_arriveKept {t : State} {a : Option Arrival} (h : s.memOk) (ht : s.keep (s.arriveNow a) = .ok t) : t.memOk := by
  rwa [memOk, mem_arriveNow (keep_eq_ok.mp ht)]
theorem outcomeOk_runNow {o : OpInfo} {f : State → Res} (h : s.memOk) (hf : ∀ t, f s = .ok t → t.memOk) : OutcomeOk (s.runNow o f) := by
  refine outcomeOk_finish h fun t ht => ?_
  grind [bind_eq_ok, memOk_arriveKept]
theorem outcomeOk_runEach {o : OpInfo} {f : State → Res} (h : s.memOk) (hf : ∀ t, f s = .ok t → t.memOk) : OutcomeOk (s.runEach o f) := by
  refine outcomeOk_finish h fun t ht => ?_
  obtain ⟨u, hu, hlast⟩ := bind_eq_ok.mp ht
  exact memOk_arriveKept (hf u hu) hlast
theorem outcomeOk_runLate {o : OpInfo} {f : State → Res} (h : s.memOk) (hf : ∀ t, f s = .ok t → t.memOk) : OutcomeOk (s.runLate o f) := by
  refine outcomeOk_finish h fun t ht => ?_
  split at ht
  · obtain ⟨-, -, ht⟩ := bind_eq_ok.mp ht
    exact hf t ht
  · rwa [memOk, mem_arriveNow ht]
theorem outcomeOk_vec {o : OpInfo} {f : State → Res} (h : s.memOk) (hf : ∀ t, f s = .ok t → t.memOk) : OutcomeOk (s.vec o f) :=
  outcomeOk_runEach h fun t ht => by
    split at ht
    · exact hf t ht
    · cases ht; exact h

/-! Scalar and index operations (R315-R328, R333-R335). -/

theorem outcomeOk_alu (h : s.memOk) (o : OpInfo) (d : BitVec 5) (v : State → Word) : OutcomeOk (s.alu o d v) :=
  outcomeOk_runNow h fun t ht => by cases ht; rwa [memOk, mem_landG]
theorem outcomeOk_predOp (h : s.memOk) (o : OpInfo) (r : PredLogic) (f : Word → Word → Word) : OutcomeOk (s.predOp o r f) :=
  outcomeOk_runNow h fun t ht => by cases ht; rwa [memOk, mem_landP]
theorem outcomeOk_execCmp (h : s.memOk) (o : OpInfo) (r : CmpReg) : OutcomeOk (execCmp o r s) :=
  outcomeOk_runNow h fun t ht => by cases ht; rwa [memOk, mem_landP]
theorem outcomeOk_execCmpImm (h : s.memOk) (o : OpInfo) (r : CmpImm) : OutcomeOk (execCmpImm o r s) :=
  outcomeOk_runNow h fun t ht => by cases ht; rwa [memOk, mem_landP]
theorem outcomeOk_execXfr (h : s.memOk) (o : OpInfo) (r : Xfer) : OutcomeOk (execXfr o r s) :=
  outcomeOk_runNow h fun t ht => by grind [memOk, land_mem, bind_eq_ok]
@[simp] theorem mem_jump (s : State) (t : Word) (leaves : Bool) : (s.jump t leaves).mem = s.mem := rfl
theorem mem_jumpReg {t : State} {a : Word} {leaves : Bool} (ht : s.jumpReg a leaves = .ok t) : t.mem = s.mem := by
  unfold jumpReg at ht
  grind [mem_jump]
theorem memOk_setUpLoop {t : State} {lv n fin : Nat} (h : s.memOk) (ht : s.setUpLoop lv n fin = .ok t) : t.memOk := by
  unfold setUpLoop at ht
  grind [memOk, memOk_fetchWord, modCur_mem, mem_jump, bind_eq_ok]
theorem outcomeOk_execMtcfg (h : s.memOk) (o : OpInfo) (r : MtcfgArgs) : OutcomeOk (execMtcfg o r s) :=
  outcomeOk_runNow h fun t ht => by grind [memOk, land_mem, setCore_mem, stallNow_mem, bind_eq_ok]
theorem outcomeOk_fieldOp (h : s.memOk) (o : OpInfo) (r : DescField) (f : Word → Word → Nat → Nat → Word) : OutcomeOk (s.fieldOp o r f) :=
  outcomeOk_runNow h fun t ht => by grind [memOk, mem_landG, bind_eq_ok]
theorem outcomeOk_execCadv (h : s.memOk) (o : OpInfo) (r : CadvArgs) : OutcomeOk (execCadv o r s) :=
  outcomeOk_runNow h fun t ht => by cases ht; rwa [memOk, mem_landP, mem_landG]

/-! Synchronisation and fork operations (R338-R349). -/

theorem outcomeOk_execNop (h : s.memOk) (o : OpInfo) : OutcomeOk (execNop o s) := outcomeOk_runNow h fun t ht => by cases ht; exact h
theorem outcomeOk_execCall (h : s.memOk) (o : OpInfo) (r : Disp) : OutcomeOk (execCall o r s) :=
  outcomeOk_runNow h fun t ht => by cases ht; rwa [memOk, mem_jump, mem_landG]
@[simp] theorem mem_hold (s : State) (k : Hold) : (s.hold k).mem = s.mem := by
  unfold hold
  grind [modCur_mem]
theorem outcomeOk_execWait (h : s.memOk) (o : OpInfo) (r : WaitArgs) : OutcomeOk (execWait o r s) :=
  outcomeOk_runNow h fun t ht => by grind [memOk, mem_hold, bind_eq_ok]
@[simp] theorem mem_dropPost (s : State) (ctx : Nat) : (s.dropPost ctx).mem = s.mem := by
  unfold dropPost
  grind [ioSet_mem]
@[simp] theorem mem_deliverPost (s : State) (ctx target flag n : Nat) : (s.deliverPost ctx target flag n).mem = s.mem := by
  unfold deliverPost
  grind [modCore_mem, mem_dropPost]
theorem mem_remotePost {t : State} {target : Int} {flag n : Nat} (ht : s.remotePost target flag n = .ok t) : t.mem = s.mem := by
  unfold remotePost at ht
  grind [mem_deliverPost, setCore_mem, bind_eq_ok]
theorem outcomeOk_remotePost (h : s.memOk) (o : OpInfo) (target : State → Int) (flag n : Nat) :
    OutcomeOk (s.runNow o fun s => s.remotePost (target s) flag n) :=
  outcomeOk_runNow h fun t ht => by rwa [memOk, mem_remotePost ht]
theorem mem_barArrive {t : State} {g : Nat} (ht : s.barArrive g = .ok t) : t.mem = s.mem := by
  unfold barArrive at ht
  grind [setCore_mem, bind_eq_ok]
theorem outcomeOk_execBwait (h : s.memOk) (o : OpInfo) (r : BarrArgs) : OutcomeOk (execBwait o r s) :=
  outcomeOk_runNow h fun t ht => by grind [memOk, mem_hold, bind_eq_ok]
@[simp] theorem mem_sendArrival (s : State) (core g : Nat) : (s.sendArrival core g).mem = s.mem := rfl
@[simp] theorem mem_arriveRdv (s : State) (core g : Nat) : (s.arriveRdv core g).mem = s.mem := rfl
theorem outcomeOk_execRdv (h : s.memOk) (o : OpInfo) (r : BarrArgs) : OutcomeOk (execRdv o r s) :=
  outcomeOk_runNow h fun t ht => by grind [memOk, mem_hold, mem_arriveRdv, bind_eq_ok]
theorem outcomeOk_execFence (h : s.memOk) (o : OpInfo) (r : FenceArgs) : OutcomeOk (execFence o r s) :=
  outcomeOk_runNow h fun t ht => by grind [memOk, mem_hold, modCur_mem]
theorem outcomeOk_execChk (h : s.memOk) (o : OpInfo) (r : ChkArgs) : OutcomeOk (execChk o r s) :=
  outcomeOk_runNow h fun t ht => by grind [bind_eq_ok]
@[simp] theorem mem_takeFork (s : State) (t : Nat) (entry : Word) : (s.takeFork t entry).mem = s.mem := rfl
@[simp] theorem mem_landProbe (s : State) (pd : BitVec 4) (b : Bool) : (s.landProbe pd b).mem = s.mem := by
  unfold landProbe
  split <;> rfl
theorem outcomeOk_execFork (h : s.memOk) (o : OpInfo) (r : ForkArgs) : OutcomeOk (execFork o r s) :=
  outcomeOk_runNow h fun t ht => by grind [memOk, mem_takeFork, bind_eq_ok]
theorem outcomeOk_execFprobeF (h : s.memOk) (o : OpInfo) (r : FprobeArgs) : OutcomeOk (execFprobeF o r s) :=
  outcomeOk_runNow h fun t ht => by grind [memOk, mem_takeFork, mem_landProbe]

/-! Vector operations (R351-R371). -/

@[simp] theorem mem_landRange (s : State) (u : LatUnit) (o : OpInfo) (d : BitVec 5) (e lo n : Nat) (v : Vec) : (s.landRange u o d e lo n v).mem = s.mem := by
  unfold landRange
  dsimp only
  split <;> rfl
@[simp] theorem mem_landAllE (s : State) (u : LatUnit) (o : OpInfo) (d : BitVec 5) (e : Nat) (v : Vec) : (s.landAllE u o d e v).mem = s.mem := mem_landRange ..
@[simp] theorem mem_landFirst (s : State) (u : LatUnit) (o : OpInfo) (d : BitVec 5) (e v : Nat) : (s.landFirst u o d e v).mem = s.mem := mem_landRange ..
@[simp] theorem mem_landCmp (s : State) (u : LatUnit) (o : OpInfo) (pd : BitVec 4) (e : Nat) (c : Nat → Bool) : (s.landCmp u o pd e c).mem = s.mem := mem_landP ..
@[simp] theorem mem_draw (s : State) (str k : Nat) : (s.draw str k).2.mem = s.mem := rfl
@[simp] theorem mem_drawFor (s : State) (m : Mode) (str : BitVec 4) (n : Nat) (live : Bool) : (s.drawFor m str n live).2.mem = s.mem := by
  unfold drawFor
  split <;> rfl
section Vec
variable (h : s.memOk) (o : OpInfo)
include h

theorem outcomeOk_vecLand (u : State → LatUnit) (d : BitVec 5) (e : State → Nat) (v : State → Vec) :
    OutcomeOk (s.vec o fun s => .ok (s.landAllE (u s) o d (e s) (v s))) :=
  outcomeOk_vec h fun t ht => by cases ht; rwa [memOk, mem_landAllE]
theorem outcomeOk_vWiden (r : VInt3) (high : Bool) : OutcomeOk (s.vWiden o r high) :=
  outcomeOk_vec h fun t ht => by grind [memOk, mem_landAllE, bind_eq_ok]
theorem outcomeOk_vShiftK (r : VIntK) (f : Nat → Nat → Nat → Nat) : OutcomeOk (s.vShiftK o r f) :=
  outcomeOk_vec h fun t ht => by grind [memOk, mem_landAllE, bind_eq_ok]
theorem outcomeOk_execVcmp (r : VCmp) : OutcomeOk (execVcmp o r s) :=
  outcomeOk_vec h fun t ht => by cases ht; rwa [memOk, mem_landCmp]
theorem outcomeOk_vReduce (r : VInt2) (f : Nat → Nat → Nat → Nat) : OutcomeOk (s.vReduce o r f) :=
  outcomeOk_vec h fun t ht => by grind [memOk, mem_landFirst]
theorem outcomeOk_vPermK (r : VIntK) (f : Nat → (Nat → Nat) → Nat → Nat) : OutcomeOk (s.vPermK o r f) :=
  outcomeOk_vec h fun t ht => by grind [memOk, mem_landAllE, bind_eq_ok]
theorem outcomeOk_execVext (r : VExt) : OutcomeOk (execVext o r s) :=
  outcomeOk_vec h fun t ht => by grind [memOk, mem_landAllE, bind_eq_ok]
theorem outcomeOk_execVrnd (r : VRndArgs) : OutcomeOk (execVrnd o r s) :=
  outcomeOk_vec h fun t ht => by grind [memOk, mem_landAllE, mem_draw]
theorem outcomeOk_vFloat (d a b : BitVec 5) (fmt : BitVec 4) (rm : BitVec 3) (sat : BitVec 1) (str : BitVec 4) (ok : List Nat)
    (f : Bool → FVal → FVal → FVal → RVal) : OutcomeOk (s.vFloat o d a b fmt rm sat str ok f) :=
  outcomeOk_vec h fun t ht => by grind [memOk, mem_landAllE, mem_drawFor, bind_eq_ok]
theorem outcomeOk_vCodes (d a b : BitVec 5) (fmt : BitVec 4) (f : Fmt → Nat → Nat → Nat) : OutcomeOk (s.vCodes o d a b fmt f) :=
  outcomeOk_vec h fun t ht => by grind [memOk, mem_landAllE, bind_eq_ok]
theorem outcomeOk_execVfcmp (r : VFCmp) : OutcomeOk (execVfcmp o r s) :=
  outcomeOk_vec h fun t ht => by grind [memOk, mem_landCmp, bind_eq_ok]
theorem outcomeOk_execVcvt (r : VCvt) : OutcomeOk (execVcvt o r s) :=
  outcomeOk_vec h fun t ht => by grind [memOk, mem_landAllE, mem_landRange, mem_drawFor, bind_eq_ok]
theorem outcomeOk_quantise (r : VQnt) (fmt : Nat) : OutcomeOk (s.quantise o r fmt) :=
  outcomeOk_runNow h fun t ht => by grind [memOk, landV_mem, land_mem, mem_drawFor, bind_eq_ok]
theorem outcomeOk_execVdqnt (r : VDqnt) : OutcomeOk (execVdqnt o r s) :=
  outcomeOk_vec h fun t ht => by grind [memOk, mem_landAllE, mem_drawFor, bind_eq_ok]
theorem outcomeOk_execVrfadd (r : VRed) : OutcomeOk (execVrfadd o r s) :=
  outcomeOk_vec h fun t ht => by grind [memOk, mem_landFirst, mem_drawFor, bind_eq_ok]
theorem outcomeOk_vReduceF (r : VRed) (max : Bool) : OutcomeOk (s.vReduceF o r max) :=
  outcomeOk_vec h fun t ht => by grind [memOk, mem_landFirst, bind_eq_ok]
theorem outcomeOk_execVscanfadd (r : VRed) : OutcomeOk (execVscanfadd o r s) :=
  outcomeOk_vec h fun t ht => by grind [memOk, mem_landAllE, mem_drawFor, bind_eq_ok]

end Vec
end State
end Sys2Proof.Machine
end

section
/-! SUPPORT. Outcomes that keep memory canonical: loads, stores, atomics, queues, and the matrix engine (R374-R409). -/
set_option Elab.async false
namespace Sys2Proof.Machine
open Sys2Proof
namespace State
variable {s : State}

theorem of_keep_ok {α : Type} {r : Except TrapInfo α} {a : α} (h : s.keep r = .ok a) : r = .ok a := keep_eq_ok.mp h
theorem of_bind_ok {ε α β : Type} {x : Except ε α} {f : α → Except ε β} {b : β} (h : (x >>= f) = .ok b) : ∃ a, x = .ok a ∧ f a = .ok b := bind_eq_ok.mp h
/-! Memory access (R374-R381). -/

/-- A chain of operations that a cause ends, over a value whose part `view` is the state. -/
theorem memOk_foldlBindIn {ε α β : Type} (view : β → State) {f : α → β → Except ε β} (hf : ∀ {x q q'}, (view q).memOk → f x q = .ok q' → (view q').memOk)
    {l : List α} {q q' : β} (h : (view q).memOk) (hl : l.foldl (fun (r : Except ε β) x => r.bind (f x)) (.ok q) = .ok q') : (view q').memOk :=
  foldlBind_keeps (P := fun q => (view q).memOk) (fun _ _ hq hq' => hf hq hq') h hl
theorem memOk_xlateTouched {t : State} {k : AccKind} {va n mask : Nat} {ps : List Piece} (h : s.memOk)
    (ht : s.xlateTouched k va n mask = .ok (ps, t)) : t.memOk := by
  refine memOk_foldlBindIn Prod.snd (q := ([], s)) (fun {k q q'} hq hq' => ?_) h ht
  grind [→ memOk_xlateR]
theorem ok_bind {ε α β : Type} (a : α) (f : α → Except ε β) : (Except.ok a >>= f) = f a := rfl
theorem memOk_storePieces {t : State} {ps : List Piece} {val mask cls : Nat} (h : s.memOk) (ht : s.storePieces ps val mask cls = .ok t) : t.memOk := by
  refine memOk_foldlBind (fun {p u v} hu hv => ?_) h ht
  dsimp only at hv
  split at hv
  · rw [ok_bind] at hv
    grind [memOk, memOk_performWrite, endsAfter, setCore_mem, → of_bind_ok]
  · split at hv
    · cases hv
    next b x hserve =>
      rw [ok_bind] at hv
      cases b with
      | false => grind [memOk, memOk_performWrite, endsAfter, setCore_mem, → of_bind_ok]
      | true => rw [memOk, mem_spStore (of_keep_ok hv)]; exact memOk_stashServe hu hserve
theorem memOk_startLoad {t : State} {o : OpInfo} {ps : List Piece} {dst : LoadDst} {tok cls u : Nat} (h : s.memOk)
    (ht : s.startLoad o ps dst tok cls u = .ok t) : t.memOk := by
  obtain ⟨x, hx, ht⟩ := of_bind_ok ht
  obtain ⟨y, hy, ht⟩ := of_bind_ok ht
  have hy' : y.memOk := memOk_stashFor (by rwa [memOk, mem_tokAdd (of_keep_ok hx)]) hy
  cases ht
  exact hy'
theorem memOk_readPieces (h : s.memOk) (w : Who) (rel : List Rel) (u : Nat) (small : Bool) (ps : List Piece) : (s.readPieces w rel u small ps).2.memOk := by
  refine memOk_foldlIn Prod.snd (q := ((0, []), s)) (fun q p hq => ?_) ps h
  exact memOk_loadPiece hq w rel p u small
theorem outcomeOk_execLdsp (h : s.memOk) (o : OpInfo) (r : SpLoad) : OutcomeOk (execLdsp o r s) :=
  outcomeOk_runNow h fun t ht => by grind [memOk, → memOk_stashTouch, mem_landG, land_mem, → of_bind_ok]
theorem outcomeOk_execStsp (h : s.memOk) (o : OpInfo) (r : SpStore) : OutcomeOk (execStsp o r s) :=
  outcomeOk_runNow h fun t ht => by grind [memOk, → mem_spStore, → of_bind_ok]
theorem outcomeOk_execVldsp (h : s.memOk) (o : OpInfo) (r : VSp) : OutcomeOk (execVldsp o r s) :=
  outcomeOk_runEach h fun t ht => by 
    dsimp only at ht
    split at ht
    · cases ht; exact h
    · obtain ⟨ps, -, ht⟩ := of_bind_ok ht
      obtain ⟨u, hu, ht⟩ := of_bind_ok ht
      obtain ⟨-, -, ht⟩ := of_bind_ok ht
      have hu' : u.memOk := memOk_foldlBind (fun hu hv => memOk_stashTouch hu hv) h hu
      cases ht
      exact hu'
theorem outcomeOk_execVstsp (h : s.memOk) (o : OpInfo) (r : VSp) : OutcomeOk (execVstsp o r s) :=
  outcomeOk_runEach h fun t ht => by 
    dsimp only at ht
    split at ht
    · cases ht; exact h
    · obtain ⟨ps, -, ht⟩ := of_bind_ok ht
      exact memOk_foldlBind (fun hu hv => by rwa [memOk, mem_spStore hv]) h ht
theorem memOk_svcLoad {t : State} {ps : List Piece} {d : BitVec 5} {n u : Nat} {sx : Bool} (h : s.memOk) (ht : s.svcLoad ps d n u sx = .ok t) : t.memOk := by
  unfold svcLoad at ht
  split at ht
  · cases ht; exact h
  · obtain ⟨x, hx, ht⟩ := of_bind_ok ht
    have hread (w : Who) (rel : List Rel) := memOk_readPieces (memOk_stashFor h hx) w rel u true ps
    grind [memOk, endsAfter, mem_landG, mem_touch]
theorem outcomeOk_execLd (h : s.memOk) (o : OpInfo) (r : GlLoad) : OutcomeOk (execLd o r s) :=
  outcomeOk_runLate h fun t ht => by grind [→ memOk_xlateR, → memOk_svcLoad, → memOk_startLoad, → of_bind_ok]
theorem outcomeOk_execSt (h : s.memOk) (o : OpInfo) (r : SpStore) : OutcomeOk (execSt o r s) :=
  outcomeOk_runNow h fun t ht => by grind [→ memOk_xlateR, → memOk_storePieces, → of_bind_ok]
theorem outcomeOk_execVld (h : s.memOk) (o : OpInfo) (r : VLoad) : OutcomeOk (execVld o r s) :=
  outcomeOk_finish h fun t ht => by grind [memOk, → mem_arriveNow, → memOk_xlateTouched, → memOk_startLoad, → of_bind_ok]
theorem outcomeOk_execVst (h : s.memOk) (o : OpInfo) (r : VSp) : OutcomeOk (execVst o r s) :=
  outcomeOk_runEach h fun t ht => by grind [→ memOk_xlateTouched, → memOk_storePieces, → of_bind_ok]
theorem outcomeOk_execPref (h : s.memOk) (o : OpInfo) (r : PrefArgs) : OutcomeOk (execPref o r s) :=
  outcomeOk_runNow h fun t ht => by grind [memOk, memOk_xlatePage, mem_touch, memOk_l2Read, mem_sdcAdd]

/-! Atomics and updates (R153-R165, R382-R386). -/

theorem memOk_performAtomic (h : s.memOk) (g : Agent) (pa key aop w a b lim : Nat) : (s.performAtomic g pa key aop w a b lim).2.memOk := by
  unfold performAtomic
  have hread := memOk_fetchData h { g with id := 1000 } pa (w / 8) key 2
  dsimp only
  split
  · exact h
  · split
    · exact hread
    · split
      · exact memOk_hostTouch hread ..
      · split
        next heq => exact congrArg Prod.snd heq ▸ memOk_performWrite (memOk_hostTouch hread ..) ..
        next heq => exact congrArg Prod.snd heq ▸ memOk_performWrite (memOk_hostTouch hread ..) ..
theorem outcomeOk_atomic (h : s.memOk) (o : OpInfo) (d base ix : BitVec 5) (disp : Word) (aop w cls tok lim : Nat) :
    OutcomeOk (s.atomic o d base ix disp aop w cls tok lim) :=
  outcomeOk_runLate h fun t ht => by
    obtain ⟨-, -, ht⟩ := of_bind_ok ht
    obtain ⟨-, -, ht⟩ := of_bind_ok ht
    obtain ⟨⟨ps, u⟩, hpage, ht⟩ := of_bind_ok ht
    have hu : u.memOk := memOk_xlateR h hpage
    dsimp only at ht
    split at ht
    · cases ht; exact hu
    · generalize (if u.issue.svc = true then _ else _ : Bool) = waits at ht
      split at ht
      · cases ht; exact hu
      · split at ht
        · grind [memOk, memOk_performAtomic, endsAfter, mem_landG, mem_touch]
        · obtain ⟨v, hv, ht⟩ := of_bind_ok ht
          have hv' : v.memOk := by rwa [memOk, mem_tokAdd (of_keep_ok hv)]
          split at ht
          · grind [memOk, endsAfter, modCur_mem, nextSeq]
          · grind [memOk, memOk_performAtomic, endsAfter, modCur_mem, mem_touch, nextSeq, → of_bind_ok]
theorem outcomeOk_vamo (h : s.memOk) (o : OpInfo) (r : VAtomic) (aop : Nat) : OutcomeOk (s.vamo o r aop) :=
  outcomeOk_runEach h fun t ht => by grind [memOk, → memOk_xlateR, setCore_mem, → of_bind_ok]
theorem memOk_finishLoad (h : s.memOk) (core : Nat) (l : PLoad) : (s.finishLoad core l).memOk := by
  unfold finishLoad
  grind [memOk, memOk_readPieces, mem_park, modCore_mem, mem_arriveLate]
@[simp] theorem mem_finishAtom (s : State) (core : Nat) (p : PAtom) : (s.finishAtom core p).mem = s.mem := by
  unfold finishAtom
  simp
theorem memOk_performVamo (h : s.memOk) (g : Agent) (pa key aop w : Nat) (val : BitVec 256) (mask : BitVec 32) :
    (s.performVamo g pa key aop w val mask).memOk := by
  have hread := memOk_fetchData h { g with id := 1000 } pa 32 key 2
  unfold performVamo
  dsimp only
  split
  · split <;> exact hread
  · refine memOk_foldl (fun u i hu => ?_) _ hread
    grind [memOk_performWrite]
theorem memOk_pairCheck {t : State} {rgn va : Nat} {p : Nat × Nat} (h : s.memOk) (ht : s.pairCheck rgn va = .ok (p, t)) : t.memOk := by
  obtain ⟨-, -, ht⟩ := of_bind_ok ht
  obtain ⟨-, -, ht⟩ := of_bind_ok ht
  obtain ⟨-, -, ht⟩ := of_bind_ok ht
  obtain ⟨-, -, ht⟩ := of_bind_ok ht
  obtain ⟨⟨ps, u⟩, hpage, ht⟩ := of_bind_ok ht
  have hu : u.memOk := memOk_xlateR h hpage
  dsimp only at ht
  split at ht
  · cases ht
  · obtain ⟨-, -, ht⟩ := of_bind_ok ht
    obtain ⟨-, -, ht⟩ := of_bind_ok ht
    cases ht
    exact hu
theorem mem_withholdPair {t : State} {p : Nat × Nat} {rgn cls : Nat} {v : Word} (ht : s.withholdPair p rgn cls v = .ok t) : t.mem = s.mem := by
  unfold withholdPair at ht
  grind [setCore_mem, → of_bind_ok]
theorem outcomeOk_execUpd (h : s.memOk) (o : OpInfo) (r : UpdArgs) : OutcomeOk (execUpd o r s) :=
  outcomeOk_runNow h fun t ht => by grind [memOk, → memOk_pairCheck, → mem_withholdPair, → of_bind_ok, → of_keep_ok]
theorem outcomeOk_execVupd (h : s.memOk) (o : OpInfo) (r : VUpdArgs) : OutcomeOk (execVupd o r s) :=
  outcomeOk_vec h fun t ht => by
    obtain ⟨-, -, ht⟩ := of_bind_ok ht
    obtain ⟨⟨pas, u⟩, hchecks, ht⟩ := of_bind_ok ht
    obtain ⟨-, -, ht⟩ := of_bind_ok ht
    have hu : u.memOk := by
      refine memOk_foldlBindIn Prod.snd (q := ([], s)) (fun {j q q'} hq hq' => ?_) h hchecks
      obtain ⟨p, hp, rfl⟩ := except_map_eq_ok.mp hq'
      exact memOk_pairCheck hq (of_keep_ok hp)
    exact memOk_foldlBind (fun hx hy => by rwa [memOk, mem_withholdPair hy]) hu ht

/-! Address and data queues (R336, R337, R387). -/

theorem memOk_pushAddrs {t : State} {o : OpInfo} {addrs : List Nat} {z tok cls u : Nat} (h : s.memOk)
    (ht : s.pushAddrs o addrs z tok cls u = .ok t) : t.memOk := by
  obtain ⟨⟨es, x⟩, hpages, ht⟩ := of_bind_ok ht
  obtain ⟨-, -, ht⟩ := of_bind_ok ht
  obtain ⟨y, hy, ht⟩ := of_bind_ok ht
  have hx : x.memOk := by
    refine memOk_foldlBindIn Prod.snd (q := ([], s)) (fun {a q q'} hq hq' => ?_) h hpages
    grind [→ memOk_xlateR, → of_bind_ok]
  have hy' : y.memOk := by rwa [memOk, mem_tokAdd (of_keep_ok hy)]
  split at ht
  · rwa [memOk, mem_arriveNow ht]
  · obtain ⟨z, hz, ht⟩ := of_bind_ok ht
    have hz' : z.memOk := memOk_foldlBind (fun hu hv => memOk_stashFor hu hv) hy' hz
    cases ht
    exact hz'
theorem outcomeOk_execAqps (h : s.memOk) (o : OpInfo) (r : AqRun) : OutcomeOk (execAqps o r s) :=
  outcomeOk_runLate h fun t ht => by grind [→ memOk_pushAddrs, → of_bind_ok]
@[simp] theorem mem_queueRead (s : State) (core : Nat) : (s.queueRead core).mem = s.mem := by
  unfold queueRead
  grind [modCore_mem, mem_arriveLate]
theorem memOk_queueFill (h : s.memOk) (core : Nat) : (s.queueFill core).memOk := by
  unfold queueFill
  grind [memOk, memOk_readPieces, mem_park, modCore_mem]
theorem outcomeOk_execDqpop (h : s.memOk) (o : OpInfo) (r : DqPop) : OutcomeOk (execDqpop o r s) :=
  outcomeOk_runNow h fun t ht => by
    dsimp only at ht
    split at ht
    · cases ht; exact h
    · obtain ⟨-, -, ht⟩ := of_bind_ok ht
      obtain ⟨-, -, ht⟩ := of_bind_ok ht
      obtain ⟨-, -, ht⟩ := of_bind_ok ht
      split at ht
      · cases ht
      · cases ht; exact h

/-! The squarer array and the tile unit (R240-R254, R391-R404). -/

@[simp] theorem mem_mRetire (s : State) (core : Nat) (m : PMat) : (s.mRetire core m).mem = s.mem := mem_arriveLate ..
@[simp] theorem mem_sideCarStep (s : State) (core : Nat) : (s.sideCarStep core).mem = s.mem := by
  unfold sideCarStep
  grind [setCore_mem]
@[simp] theorem mem_fillStart (s : State) (core : Nat) : (s.fillStart core).mem = s.mem := by
  unfold fillStart
  grind [setCore_mem]
@[simp] theorem mem_fillDone (s : State) (core : Nat) : (s.fillDone core).mem = s.mem := by
  unfold fillDone
  grind [setCore_mem, mem_mRetire]
@[simp] theorem mem_passStart (s : State) (core : Nat) : (s.passStart core).mem = s.mem := by
  unfold passStart
  grind [setCore_mem, mem_spend]
@[simp] theorem mem_passDrain (s : State) (core : Nat) : (s.passDrain core).mem = s.mem := by
  unfold passDrain
  grind [setCore_mem, mem_mRetire]
@[simp] theorem mem_tileUnitDone (s : State) (core : Nat) : (s.tileUnitDone core).mem = s.mem := by
  unfold tileUnitDone
  grind [setCore_mem, mem_mRetire]
@[simp] theorem mem_engineReport (s : State) (core : Nat) : (s.engineReport core).mem = s.mem := by
  unfold engineReport
  grind [mem_park]
theorem outcomeOk_mIssue (h : s.memOk) (o : OpInfo) (shape : MatOp) (chk : State → Except TrapInfo (MatOp × Core)) : OutcomeOk (s.mIssue o shape chk) :=
  outcomeOk_runLate h fun t ht => by grind [memOk, stallNow_mem, setCore_mem, modCur_mem, nextSeq, → of_bind_ok]
theorem outcomeOk_arrayWait {o : OpInfo} {f : State → Out} (h : s.memOk) (hf : OutcomeOk (f s)) : OutcomeOk (s.arrayWait o f) := by
  unfold arrayWait
  split
  · exact outcomeOk_next h
  · exact hf
theorem outcomeOk_execMswap (h : s.memOk) (o : OpInfo) : OutcomeOk (execMswap o s) := outcomeOk_runNow h fun t ht => by cases ht; exact h

/-! Rows of tiles, and the scale slot (R371, R405-R407). -/

theorem outcomeOk_rowRead (h : s.memOk) (o : OpInfo) (d t : BitVec 5) (row part : Nat) (w : BitVec 2) : OutcomeOk (s.rowRead o d t row part w) :=
  outcomeOk_vec h fun t ht => by grind [memOk, stallNow_mem, mem_landAllE, → of_bind_ok]
theorem outcomeOk_rowWrite (h : s.memOk) (o : OpInfo) (d : BitVec 5) (t row part : Nat) (w : BitVec 2) : OutcomeOk (s.rowWrite o d t row part w) :=
  outcomeOk_vec h fun t ht => by grind [memOk, stallNow_mem, setCore_mem, land_mem, → of_bind_ok]
theorem outcomeOk_execKld (h : s.memOk) (o : OpInfo) (r : KMem) : OutcomeOk (execKld o r s) :=
  outcomeOk_vec h fun t ht => by
    obtain ⟨ps, -, ht⟩ := of_bind_ok ht
    obtain ⟨u, hu, ht⟩ := of_bind_ok ht
    have hu' : u.memOk := memOk_foldlBind (fun hx hy => memOk_stashTouch hx hy) h hu
    cases ht
    refine memOk_foldl (fun x p hx => ?_) ps hu'
    grind [memOk, land_mem]
theorem outcomeOk_execKst (h : s.memOk) (o : OpInfo) (r : KMem) : OutcomeOk (execKst o r s) :=
  outcomeOk_vec h fun t ht => by
    obtain ⟨ps, -, ht⟩ := of_bind_ok ht
    refine memOk_foldlBind (fun {p u v} hu hv => ?_) h ht
    grind [memOk, → mem_spStore]
@[simp] theorem mem_kLand (s : State) (o : OpInfo) (d : BitVec 4) (v : Vec) (field : Nat) : (s.kLand o d v field).mem = s.mem := by
  unfold kLand
  grind [land_mem]
@[simp] theorem mem_kSpares (s : State) (o : OpInfo) (d : BitVec 4) (spares : Vec) (bad : BitVec 4) : (s.kSpares o d spares bad).mem = s.mem := by
  unfold kSpares
  grind [land_mem, mem_kLand]
theorem outcomeOk_execKmov (h : s.memOk) (o : OpInfo) (r : KPair) : OutcomeOk (execKmov o r s) :=
  outcomeOk_vec h fun t ht => by grind [memOk, land_mem, mem_kLand]
theorem outcomeOk_execKfill (h : s.memOk) (o : OpInfo) (r : KfillArgs) : OutcomeOk (execKfill o r s) :=
  outcomeOk_vec h fun t ht => by grind [memOk, land_mem, mem_kLand]
theorem outcomeOk_kSpares (h : s.memOk) (o : OpInfo) (d : BitVec 4) (spares : State → Vec) (bad : State → BitVec 4) :
    OutcomeOk (s.vec o fun s => .ok (s.kSpares o d (spares s) (bad s))) :=
  outcomeOk_vec h fun t ht => by cases ht; rwa [memOk, mem_kSpares]

end State
end Sys2Proof.Machine
end

section
/-! SUPPORT. Entry of a command (R220, R414): its parts, each a step of its own. -/
set_option Elab.async false
namespace Sys2Proof.Machine
open Sys2Proof

/-! Entry of a command, in its parts (R414). -/

/-- The tile that a command writes gets its copy for a rollback. -/
def Core.keepTile (c : Core) (k : Cmd) : Except TrapInfo Core := match k.writesTile with | some t => c.cowTile t | none => .ok c
/-- The place of what a command publishes at its commit, or of the command itself when it is deferred. -/
def Core.placeCmd (c : Core) (k : Cmd) (core seq : Nat) : Except TrapInfo Core :=
  if k.deferred then c.release (.cmd seq) else if dPv k.desc && dPcore k.desc != core then c.release (.late seq true)
    else .ok (if dHv k.desc then { c with seg := { c.seg with rel := c.seg.rel ++ [.late seq false] } } else c)
/-- The place of the barrier arrival that a command makes when it retires. -/
def Core.placeArrival (c : Core) (k : Cmd) (a : Option Arrival) (seq : Nat) : Except TrapInfo Core :=
  match k.deferred, a with | false, some (.barrier g) => c.release (.due seq g.toNat) | _, _ => .ok c
/-- A command as it stands in its engine. -/
def State.enteredCmd (s : State) (o : OpInfo) (k : Cmd) (ixAddr : Nat) (srcTile : Option Nat) (c : Core) : Cmd :=
  let k := { k with seq := s.seq, relN := s.issue.relN, arr := if k.deferred then none else o.arr, site := (s.issue.haddr, c.seg.count) }
  let k := match srcTile, k.kind with
    | some t, .tsti _ _ trl _ => { k with src := tileImage (c.tcfg t) (c.tcfgWord t) (c.tile t) trl, captured := true }
    | some t, _ => { k with src := k.sources.flatMap fun (o : Int) => (c.tile t).take o.toNat (2 ^ dEsz k.desc), captured := true }
    | none, _ => k
  { k with index := [ixAddr] }
/-- A command takes a staging buffer of its engine. -/
def Core.stage (c : Core) (k : Cmd) (staged : Bool) : Core :=
  if staged then (if k.eng = 0 then { c with seg := { c.seg with staged0 := c.seg.staged0 + 1 } } else { c with seg := { c.seg with staged1 := c.seg.staged1 + 1 } }) else c
/-- The state in which a command has entered its engine. -/
def State.entered (s : State) (o : OpInfo) (k : Cmd) (ixAddr : Nat) (srcTile : Option Nat) (c : Core) : State :=
  let k' := s.enteredCmd o k ixAddr srcTile c
  let c' := c.stage k' (k.deferred && srcTile.isSome)
  { (s.setCore s.issue.core { c' with cmds := c'.cmds ++ [k'] }) with seq := s.seq + 1 }
/-- What follows the entry: a deferred command has retired, another starts. -/
def State.startEntered (s : State) (o : OpInfo) (k : Cmd) (ixAddr : Nat) : Res :=
  if k.deferred then s.arriveNow o.arr
  else
    let reads := s.cur.readTouches k ixAddr
    let s' := s.beginCmd s.issue.core k.seq
    if s'.cur.cmds.any fun x => x.seq == k.seq && x.bad == 0x1C3#10 then s.endsAfter { cause := 0x1C3#10 } reads else .ok (s'.touch reads)

theorem State.enterCmd_eq (s : State) (o : OpInfo) (k : Cmd) (ixAddr : Nat) (srcTile : Option Nat) (sas : List Nat) :
    s.enterCmd o k ixAddr srcTile sas =
      if (s.mayStall && s.cur.engineFull k.eng) || (match srcTile with | some t => s.cur.tileBlocked s.issue.since t false | none => false) ||
        (match k.writesTile with | some t => s.cur.tileBlocked s.issue.since t true | none => false) then .ok s.stallNow
      else (do
        raiseIf ((k.deferred && srcTile.isSome) && (if k.eng = 0 then s.cur.seg.staged0 else s.cur.seg.staged1) == 2) 0x0C5#10
        let s ← s.tokAdd k.tok 1
        let c ← s.cur.undoForAll sas
        let c ← c.keepTile k
        let c ← c.placeCmd k s.issue.core s.seq
        let c ← c.placeArrival k o.arr s.seq
        (s.entered o k ixAddr srcTile c).startEntered o (s.enteredCmd o k ixAddr srcTile c) ixAddr) := by
  unfold enterCmd
  refine if_congr Iff.rfl rfl ?_
  refine bind_congr fun _ => bind_congr fun u => bind_congr fun c1 => ?_
  extract_lets -underBinder jp1
  have hplace (c : Core) : jp1 c = (do
      let c ← c.placeCmd k u.issue.core u.seq
      let c ← c.placeArrival k o.arr u.seq
      (u.entered o k ixAddr srcTile c).startEntered o (u.enteredCmd o k ixAddr srcTile c) ixAddr) := by
    unfold jp1
    extract_lets -underBinder post jp2
    have harrival (c : Core) : jp2 c = (do
        let c ← c.placeArrival k o.arr u.seq
        (u.entered o k ixAddr srcTile c).startEntered o (u.enteredCmd o k ixAddr srcTile c) ixAddr) := by
      unfold jp2
      extract_lets -underBinder jp3
      have hlast (c : Core) : jp3 c = (u.entered o k ixAddr srcTile c).startEntered o (u.enteredCmd o k ixAddr srcTile c) ixAddr := by
        rfl
      clear_value jp3
      obtain rfl : jp3 = _ := funext hlast
      unfold Core.placeArrival
      cases k.deferred with
      | true => rfl
      | false => rcases o.arr with _ | _ | _ <;> rfl
    clear_value jp2
    obtain rfl : jp2 = _ := funext harrival
    unfold Core.placeCmd
    split
    · rfl
    · split <;> rfl
  clear_value jp1
  obtain rfl : jp1 = _ := funext hplace
  unfold Core.keepTile
  cases k.writesTile <;> rfl
end Sys2Proof.Machine
end

section
/-! SUPPORT. Outcomes that keep memory canonical: the copy engines, tile images and saved cores (R116, R410-R426). -/
set_option Elab.async false
namespace Sys2Proof.Machine
open Sys2Proof
namespace State
variable {s : State}

theorem of_ite_eq {α : Type} {c : Prop} [Decidable c] {a b x : α} (h : (if c then a else b) = x) : a = x ∨ b = x := by
  split at h
  · exact .inl h
  · exact .inr h

/-! The copy engines: entry of a command (R410-R414, R420, R424). -/

theorem memOk_openSources (h : s.memOk) (core : Nat) (k : Cmd) (ixAddr : Nat) : (s.openSources core k ixAddr).2.memOk := by
  unfold openSources
  dsimp only
  generalize hindex : (if k.words = 0 then ((0, s) : Cause × State) else _) = q0
  have hq0 : q0.2.memOk := by
    rw [← hindex]
    split
    · exact h
    · exact memOk_stashReach h ..
  split
  · exact hq0
  · refine memOk_foldlIn Prod.snd (fun q e hq => ?_) _ hq0
    have hreach := memOk_stashReach hq core (q.2.mainWho core) ((q.2.core core).spVis e.1) e.2 true
    split
    · exact hq
    · split <;> simpa [*] using hreach
@[simp] theorem mem_windowsFor (s : State) (core : Nat) (k : Cmd) : (s.windowsFor core k).mem = s.mem := by
  unfold windowsFor
  grind [modCore_mem]
@[simp] theorem mem_windowsBack (s s0 : State) (core : Nat) : (s.windowsBack s0 core).mem = s.mem := modCore_mem ..
theorem memOk_beginCmd (h : s.memOk) (core seq : Nat) : (s.beginCmd core seq).memOk := by
  unfold beginCmd
  grind [memOk, mem_windowsFor, mem_windowsBack, memOk_openSources, modCore_mem]
@[simp] theorem mem_entered (s : State) (o : OpInfo) (k : Cmd) (ixAddr : Nat) (srcTile : Option Nat) (c : Core) :
    (s.entered o k ixAddr srcTile c).mem = s.mem := by
  simp [entered]
theorem memOk_startEntered {t : State} {o : OpInfo} {k : Cmd} {ixAddr : Nat} (h : s.memOk) (ht : s.startEntered o k ixAddr = .ok t) : t.memOk := by
  have hbegun := memOk_beginCmd h s.issue.core k.seq
  unfold startEntered endsAfter at ht
  grind [memOk, mem_arriveNow, mem_touch]
theorem memOk_enterCmd {t : State} {o : OpInfo} {k : Cmd} {ixAddr : Nat} {srcTile : Option Nat} {sas : List Nat} (h : s.memOk)
    (ht : s.enterCmd o k ixAddr srcTile sas = .ok t) : t.memOk := by
  rw [enterCmd_eq] at ht
  obtain ht | ht := of_ite_eq ht
  · cases ht; exact h
  · obtain ⟨-, -, ht⟩ := of_bind_ok ht
    obtain ⟨u, hu, ht⟩ := of_bind_ok ht
    obtain ⟨c1, -, ht⟩ := of_bind_ok ht
    obtain ⟨c2, -, ht⟩ := of_bind_ok ht
    obtain ⟨c3, -, ht⟩ := of_bind_ok ht
    obtain ⟨c4, -, ht⟩ := of_bind_ok ht
    exact memOk_startEntered (s := u.entered o k ixAddr srcTile c4) (by rw [memOk, mem_entered, mem_tokAdd hu]; exact h) ht
theorem outcomeOk_copyOp (h : s.memOk) (o : OpInfo) (kind : CmdKind) (d cls : BitVec 4) (tok : BitVec 3) (u : Nat) (ssp dsp : List Nat)
    (ix : Option (BitVec 4)) : OutcomeOk (s.copyOp o kind d cls tok u ssp dsp ix) :=
  outcomeOk_finish h fun t ht => by
    split at ht
    · rwa [memOk, mem_arriveNow ht]
    · obtain ⟨-, -, ht⟩ := of_bind_ok ht
      obtain ⟨-, -, ht⟩ := of_bind_ok ht
      obtain ⟨-, -, ht⟩ := of_bind_ok ht
      obtain ⟨-, -, ht⟩ := of_bind_ok ht
      obtain ⟨-, -, ht⟩ := of_bind_ok ht
      exact memOk_enterCmd h ht
theorem outcomeOk_execTldi (h : s.memOk) (o : OpInfo) (r : TileLoad) : OutcomeOk (execTldi o r s) :=
  outcomeOk_finish h fun t ht => by grind [memOk, → mem_arriveNow, → memOk_enterCmd, → of_bind_ok]
theorem outcomeOk_execTsti (h : s.memOk) (o : OpInfo) (r : TileStore) : OutcomeOk (execTsti o r s) :=
  outcomeOk_finish h fun t ht => by grind [memOk, → mem_arriveNow, → memOk_enterCmd, → of_bind_ok]
theorem outcomeOk_execStfl (h : s.memOk) (o : OpInfo) (r : StflArgs) : OutcomeOk (execStfl o r s) :=
  outcomeOk_finish h fun t ht => by grind [memOk, → mem_arriveNow, → memOk_enterCmd, → of_bind_ok]

/-! The copy engines: completion of a command (R415, R416, R427). -/

theorem memOk_engineStore (h : s.memOk) (g : Agent) (r : Nat × Nat × List (Byte × Bool)) : (s.engineStore g r).2.memOk := by
  have hwrite := memOk_performWrite h g r.1 (2 ^ (r.2.2.map Prod.fst).length - 1) (r.2.2.map Prod.fst) r.2.1
  unfold engineStore
  grind [memOk]
theorem memOk_engineXlate (h : s.memOk) (core : Nat) (acc : AccKind) (stream : Bool) (m : PageMemo) (va n : Nat) :
    (s.engineXlate core acc stream m va n).2.memOk := by
  unfold engineXlate
  grind [memOk_xlate]
theorem memOk_engineLoadEl (h : s.memOk) (core u : Nat) (stream : Bool) (m : PageMemo) (va n : Nat) :
    (s.engineLoadEl core u stream m va n).2.memOk := by
  have hpages := memOk_engineXlate h core .load stream m va n
  unfold engineLoadEl
  split
  next heq => rw [heq] at hpages; exact hpages
  next heq =>
  rw [heq] at hpages
  refine memOk_foldlIn Prod.snd (fun q p hq => ?_) _ hpages
  grind [memOk_stashFill, memOk_fetchData, memOk_spScan]
theorem memOk_engineDest (h : s.memOk) (core : Nat) (k : Cmd) (space : Nat) (stream : Bool) (m : PageMemo) (at_ : Int) (n : Nat) :
    (s.engineDest core k space stream m at_ n).2.memOk := by
  have hpages := memOk_engineXlate h core .store stream m (wrapI 64 at_) n
  unfold engineDest
  split
  · split
    next heq => rw [heq] at hpages; exact hpages
    next heq =>
    rw [heq] at hpages
    refine memOk_foldlIn Prod.snd (fun q p hq => ?_) _ hpages
    grind [memOk_stashFill]
  · grind
  · exact h
theorem memOk_gather (h : s.memOk) (core : Nat) (k : Cmd) (srcs dests : List Int) (ssp dsp n : Nat) :
    (s.gather core k srcs dests ssp dsp n).2.memOk := by
  refine memOk_foldlIn Prod.snd (fun q e hq => ?_) _ h
  grind [memOk_engineLoadEl, memOk_engineDest]
theorem memOk_engineSp (h : s.memOk) (core : Nat) (m : SMap Bool) (r : Nat × Nat × List (Byte × Bool)) : (s.engineSp core m r).2.memOk := by
  refine memOk_foldlIn Prod.snd (fun q k hq => ?_) _ h
  grind [memOk, memOk_stashReach, modCore_mem]
theorem memOk_untilCause {α : Type} {f : State → α → (Cause × Nat) × State} (hf : ∀ u x, u.memOk → (f u x).2.memOk) (l : List α)
    {s : State} (h : s.memOk) : (untilCause l f s).2.memOk := by
  refine memOk_foldlIn Prod.snd (fun q x hq => ?_) _ h
  grind
theorem memOk_scatterRuns (h : s.memOk) (core : Nat) (k : Cmd) (dsp : Nat) (runs : List (Nat × Nat × List (Byte × Bool))) (vas : List Nat) :
    (s.scatterRuns core k dsp runs vas).2.memOk := by
  unfold scatterRuns
  split
  · refine memOk_untilCause (fun u r hu => ?_) _ h
    grind [memOk, modCore_mem, hostOver, memOk_engineStore]
  · exact memOk_untilCause (fun u r hu => memOk_engineSp hu ..) _ h
  · exact memOk_untilCause (fun u r hu => memOk_engineSp hu ..) _ h
  · rwa [memOk, modCore_mem]
theorem mem_queueEvent {t : State} {core : Nat} {e : Nat × Nat × Nat × Nat} (ht : s.queueEvent core e = some t) : t.mem = s.mem := by
  unfold queueEvent at ht
  grind [setCore_mem]
@[simp] theorem mem_eventFor (s : State) (core ctx : Nat) (e : Nat × Nat × Nat × Nat) (tok : Nat) (released : Bool) :
    (s.eventFor core ctx e tok released).mem = s.mem := by
  unfold eventFor
  grind [modCore_mem, → mem_queueEvent]
@[simp] theorem mem_prune (s : State) : s.prune.mem = s.mem := rfl
@[simp] theorem mem_endCmd (s : State) (core : Nat) (k : Cmd) (cause : Cause) (first bytes : Nat) : (s.endCmd core k cause first bytes).mem = s.mem := by
  unfold endCmd
  rw [mem_prune, mem_arriveLate]
  grind [modCore_mem]
theorem memOk_stashPlace (h : s.memOk) (core k : Nat) : (s.stashPlace core k).2.memOk := by
  unfold stashPlace
  grind [memOk_stashFill]
theorem memOk_flushSector (h : s.memOk) (core k : Nat) (inv : Bool) : (s.flushSector core k inv).2.memOk := by
  have hplace := memOk_stashPlace h core k
  unfold flushSector
  grind [memOk, memOk_spScan, memOk_stashPut, setCore_mem, modCore_mem]
theorem memOk_flushWindow (h : s.memOk) (core : Nat) (w : Window) (inv : Bool) : (s.flushWindow core w inv).2.memOk := by
  refine memOk_foldlIn Prod.snd (fun q k hq => ?_) _ h
  exact memOk_flushSector hq core k inv
theorem memOk_flushWins (h : s.memOk) (core : Nat) (wins : List Nat) (inv : Bool) : (s.flushWins core wins inv).2.memOk := by
  have hwindow (u : State) (hu : u.memOk) (l : List Nat) : (untilCause l (fun s k =>
        let n := match (s.core core).stash.get? k with | some t => if t.mask = 0 then 0 else 32 | none => 0
        let (c, s) := s.flushSector core k inv
        ((c, if c = 0 then n else 0), s)) u).2.memOk :=
    memOk_untilCause (fun v k hv => memOk_flushSector hv core k inv) l hu
  refine memOk_untilCause (fun u i hu => ?_) wins h
  split
  · split
    · exact hwindow u hu _
    · exact hu
  · exact hu
@[simp] theorem mem_endOr (s s0 : State) (core : Nat) (k : Cmd) (cause : Cause) (first bytes : Nat) :
    (s.endOr s0 core k cause first bytes).mem = s.mem := by
  unfold endOr
  grind [mem_endCmd, mem_park, modCore_mem]
theorem memOk_gatherFor (h : s.memOk) (core : Nat) (k : Cmd) : (s.gatherFor core k).2.memOk := by
  unfold gatherFor
  split <;> exact memOk_gather h ..
theorem memOk_copyDone (h : s.memOk) (core : Nat) (k : Cmd) : (s.copyDone core k).memOk := by
  have hwins : (s.windowsFor core k).memOk := by rwa [memOk, mem_windowsFor]
  have hgathered := memOk_gatherFor hwins core k
  unfold copyDone
  dsimp only
  split
  · rw [memOk, mem_endOr, mem_windowsBack]; exact memOk_flushWins hwins ..
  · rw [memOk, mem_endOr, mem_windowsBack, modCore_mem]; exact hgathered
  · rw [memOk, mem_endOr, mem_windowsBack]; exact memOk_scatterRuns hgathered ..
  · exact h
  · exact h
  · rw [memOk, mem_endOr, mem_windowsBack, modCore_mem]; exact memOk_scatterRuns hgathered ..
theorem memOk_startDeferred (h : s.memOk) (core seq : Nat) : (s.startDeferred core seq).memOk := by
  unfold startDeferred
  grind [memOk, memOk_beginCmd, modCore_mem]

/-! Descriptor moves, publication, windows and hints (R421-R425). -/

theorem outcomeOk_execDld (h : s.memOk) (o : OpInfo) (r : DescMove) : OutcomeOk (execDld o r s) :=
  outcomeOk_runNow h fun t ht => by
    obtain ⟨⟨a, n, w⟩, -, ht⟩ := of_bind_ok ht
    obtain ⟨u, hu, ht⟩ := of_bind_ok ht
    obtain ⟨-, -, ht⟩ := of_bind_ok ht
    have hu' : u.memOk := memOk_foldlBind (fun hx hy => memOk_stashTouch hx hy) h hu
    cases ht
    exact hu'
theorem outcomeOk_execDst (h : s.memOk) (o : OpInfo) (r : DescMove) : OutcomeOk (execDst o r s) :=
  outcomeOk_runNow h fun t ht => by
    obtain ⟨⟨a, n, w⟩, -, ht⟩ := of_bind_ok ht
    exact memOk_foldlBind (fun hx hy => by rwa [memOk, mem_spStore hy]) h ht
theorem outcomeOk_execCpub (h : s.memOk) (o : OpInfo) (r : CpubArgs) : OutcomeOk (execCpub o r s) :=
  outcomeOk_runNow h fun t ht => by grind [memOk, mem_hold, → of_bind_ok]
theorem outcomeOk_execStmap (h : s.memOk) (o : OpInfo) (r : StmapArgs) : OutcomeOk (execStmap o r s) :=
  outcomeOk_runNow h fun t ht => by
    dsimp only at ht
    obtain ⟨-, -, ht⟩ := of_bind_ok ht
    obtain ⟨-, -, ht⟩ := of_bind_ok ht
    obtain ⟨-, -, ht⟩ := of_bind_ok ht
    obtain ⟨-, -, ht⟩ := of_bind_ok ht
    split at ht
    · cases ht; exact h
    · have hflush (w : Window) := memOk_flushWindow h s.issue.core w true
      obtain ⟨-, -, ht⟩ := of_bind_ok ht
      cases ht
      rw [memOk, modCur_mem]
      split
      · exact hflush _
      · exact h
theorem outcomeOk_execChint (h : s.memOk) (o : OpInfo) (r : ChintArgs) : OutcomeOk (execChint o r s) :=
  outcomeOk_runNow h fun t ht => by
    dsimp only at ht
    generalize hpages : List.foldl _ _ _ = q at ht
    have hq : q.2.memOk := by
      rw [← hpages]
      refine memOk_foldlIn Prod.snd (fun q i hq => ?_) _ h
      grind [memOk_xlatePage]
    split at ht <;> cases ht <;> exact hq

/-! The image of a core (R138, R235). -/

theorem memOk_saveBytes (h : s.memOk) (ctx pa : Nat) (b : List (Byte × Bool)) : (s.saveBytes ctx pa b).memOk := by
  refine memOk_foldl (fun u i hu => ?_) _ h
  refine memOk_foldl (fun v j hv => ?_) _ ?_
  · grind [memOk]
  · exact memOk_l2Write (by rwa [memOk, mem_dropCopies, mem_dropCopies]) ..
theorem memOk_loadBytes (h : s.memOk) (ctx pa n : Nat) : (s.loadBytes ctx pa n).2.memOk :=
  memOk_foldlIn Prod.snd (fun _ _ hq => memOk_l2Read hq ..) _ h
theorem memOk_saveBanks (h : s.memOk) (core ctx : Nat) (mask : Half) : (s.saveBanks core ctx mask).memOk := by
  unfold saveBanks
  -- the bytes of a bank play no part
  generalize List.range 65536 = places
  refine memOk_foldl (fun u i hu => memOk_saveBytes hu ..) _ ?_
  exact memOk_foldl (fun u a hu => memOk_spScan hu ..) _ h
theorem memOk_saveImage (h : s.memOk) (core ctx : Nat) (mask : Half) : (s.saveImage core ctx mask).memOk := by
  refine memOk_saveBanks (memOk_saveBytes (memOk_saveBytes ?_ ..) ..) ..
  refine memOk_foldl (fun u a hu => memOk_saveBytes hu ..) _ ?_
  refine memOk_foldl (fun u a hu => memOk_saveBytes hu ..) _ ?_
  exact memOk_saveBytes h ..
/-- The state of a pair that is known by its parts. -/
theorem memOk_of_eq {α : Type} {q : α × State} {a : α} {t : State} (heq : q = (a, t)) (hq : q.2.memOk) : t.memOk := by rwa [heq] at hq
theorem memOk_of_eq₂ {α β : Type} {q : α × β × State} {a : α} {b : β} {t : State} (heq : q = (a, b, t)) (hq : q.2.2.memOk) : t.memOk := by
  rwa [heq] at hq
theorem memOk_readImage (h : s.memOk) (core : Nat) (r : Saved) : (s.readImage core r).2.2.memOk := by
  unfold readImage
  extract_lets ctx base
  split
  next head s1 hhead =>
  have h1 := memOk_of_eq hhead (memOk_loadBytes h ..)
  split
  extract_lets kp r1 r2 arch
  split
  next tiles s2 htiles =>
  have h2 := memOk_of_eq htiles (by
    refine memOk_foldlIn Prod.snd (fun q b hq => ?_) _ h1
    split
    next hload => exact memOk_of_eq hload (memOk_loadBytes hq ..))
  split
  next accs hurt s3 haccs =>
  have h3 := memOk_of_eq₂ haccs (by
    refine memOk_foldlIn (fun q : SMap Acc × Bool × State => q.2.2) (fun q b hq => ?_) _ h2
    split
    next hload => exact memOk_of_eq hload (memOk_loadBytes hq ..))
  split
  next b0 s4 hb0 =>
  have h4 := memOk_of_eq hb0 (memOk_loadBytes h3 ..)
  split
  next b1 s5 hb1 =>
  have h5 := memOk_of_eq hb1 (memOk_loadBytes h4 ..)
  split
  next banks poison s6 hbanks =>
  have h6 := memOk_of_eq₂ hbanks (by
    refine memOk_foldlIn (fun q : SMap Byte × SMap Unit × State => q.2.2) (fun q b hq => ?_) _ h5
    split
    next hload => exact memOk_of_eq hload (memOk_loadBytes hq ..))
  exact h6
end State
end Sys2Proof.Machine
end

section
/-! SUPPORT. Outcomes that keep memory canonical: released entries at their home, the fabric, the host and the expander (R20-R49, R178-R183). -/
set_option Elab.async false
namespace Sys2Proof.Machine
open Sys2Proof
namespace State
variable {s : State}

/-! Messages and registers of the package. -/

@[simp] theorem mem_msi (s : State) (v : Nat) : (s.msi v).mem = s.mem := by
  unfold msi
  split <;> rfl
@[simp] theorem mem_alert (s : State) (kind : Nat) : (s.alert kind).mem = s.mem := by
  unfold alert
  split <;> rfl
@[simp] theorem mem_ioField (s : State) (o lo w v : Nat) : (s.ioField o lo w v).mem = s.mem := ioSet_mem ..
@[simp] theorem mem_ioCount (s : State) (o lo w : Nat) : (s.ioCount o lo w).mem = s.mem := ioSet_mem ..
@[simp] theorem mem_notice (s : State) (core i : Nat) : (s.notice core i).mem = s.mem := modCore_mem ..

/-! Released operations at their homes (R152, R174-R186). -/

@[simp] theorem mem_dropFlight (s : State) (k : Nat) : (s.dropFlight k).mem = s.mem := rfl
@[simp] theorem mem_snoopHost (s : State) (pa n : Nat) : (s.snoopHost pa n).2.mem = s.mem := by
  have hsend (l : List Nat) : (l.foldl (fun s l =>
      if s.pkg.snooped.has l then s
      else (s.send chSnoop (bytesOf 8 (l * 64))).modPkg fun p => { p with snooped := p.snooped.ins l () }) s).mem = s.mem :=
    mem_foldl (fun u l => by split <;> rfl) l s
  unfold snoopHost
  dsimp only
  split
  · rfl
  · exact hsend _
@[simp] theorem mem_relFail (s : State) (f : Flight) (c : Cause) : (s.relFail f c).mem = s.mem := by
  unfold relFail
  grind [mem_park]
theorem memOk_performRel (h : s.memOk) (f : Flight) : (s.performRel f).memOk := by
  unfold performRel
  grind [memOk, memOk_performWrite, mem_relFail, memOk_performVamo, hostOver, modCore_mem]
theorem memOk_sliceAccess (h : s.memOk) (k : Nat) : (s.sliceAccess k).memOk := by
  unfold sliceAccess
  grind [memOk, memOk_performRel, mem_snoopHost, mem_dropFlight]
theorem memOk_pairAdmit (h : s.memOk) (k : Nat) : (s.pairAdmit k).memOk := by
  unfold pairAdmit
  grind [memOk, memOk_admitPair, mem_relFail, mem_dropFlight]
@[simp] theorem mem_postArrives (s : State) (k : Nat) : (s.postArrives k).mem = s.mem := by
  unfold postArrives
  grind [mem_deliverPost, mem_eventFor, mem_dropFlight]

/-! Ports and OFT (R15-R25, R438). -/

@[simp] theorem mem_portDown (s : State) (p : Nat) : (s.portDown p).mem = s.mem := by
  unfold portDown
  grind [mem_ioField]
@[simp] theorem mem_portOff (s : State) (p : Nat) : (s.portOff p).mem = s.mem := by simp [portOff]
@[simp] theorem mem_oftSend (s : State) (kind port core cls cmd node win esz off count : Nat) (data : List (Byte × Bool)) :
    (s.oftSend kind port core cls cmd node win esz off count data).mem = s.mem := by
  unfold oftSend
  split <;> rfl
theorem memOk_ite {c : Prop} [Decidable c] {a b : State} (ha : a.memOk) (hb : b.memOk) : (if c then a else b).memOk := by
  split
  · exact ha
  · exact hb
theorem memOk_netSend (h : s.memOk) (core : Nat) (k : Cmd) : (s.netSend core k).memOk := by
  unfold netSend
  refine memOk_ite h ?_
  split
  · rwa [memOk, mem_endCmd]
  · exact h
  next p hport =>
  extract_lets s1 n win sent
  have hmem (u : State) : (sent u).mem = u.mem := modCore_mem ..
  split
  · split
    next g s3 hgather =>
    have h3 : s3.memOk := memOk_of_eq hgather (memOk_gatherFor (by rw [memOk, mem_windowsFor]; exact h) ..)
    extract_lets s4 s5
    have h5 : s5.memOk := by
      rw [memOk, mem_foldl fun u r => mem_foldl (fun v f => mem_oftSend ..) .., mem_windowsBack]
      exact h3
    exact memOk_ite (by rwa [memOk, mem_endOr]) (by rwa [memOk, hmem, mem_oftSend])
  · rw [memOk, hmem, mem_foldl (fun u r => mem_oftSend ..)]; exact h
theorem memOk_getDone (h : s.memOk) (core : Nat) (k : Cmd) (cause : Cause) : (s.getDone core k cause).memOk := by
  unfold getDone
  dsimp only
  rw [memOk, mem_endOr, mem_windowsBack]
  refine memOk_scatterRuns (memOk_gather ?_ ..) ..
  rwa [memOk, mem_windowsFor]
theorem memOk_window (h : s.memOk) (win off n e : Nat) (put : Bool) : (s.window win off n e put).2.memOk := by
  unfold window
  generalize (if put then 2 else 1 : Nat) = field, (if put then AccKind.store else AccKind.load) = kind
  dsimp only
  split
  · exact h
  · split
    · exact h
    · refine memOk_foldlIn Prod.snd (fun q x hq => ?_) _ h
      grind [memOk_xlate]
@[simp] theorem mem_answer (s : State) (kind port : Nat) (f : OftFrame) (last : Bool) (c : Cause) (data : List (Byte × Bool)) :
    (s.answer kind port f last c data).mem = s.mem := mem_oftSend ..
@[simp] theorem mem_incDone (s : State) (i : NetInc) : (s.incDone i).mem = s.mem := by simp [incDone]
@[simp] theorem mem_settleIncs (s : State) (f : OftFrame) : (s.settleIncs f).mem = s.mem := mem_foldl (fun u i => u.mem_incDone i) ..
@[simp] theorem mem_failFrame (s : State) (port : Nat) (f : OftFrame) (c : Cause) : (s.failFrame port f c).mem = s.mem := by simp [failFrame]
theorem memOk_putFrame (h : s.memOk) (port : Nat) (f : OftFrame) (win off : Nat) (data : List (Byte × Bool)) (e : Nat) (last : Bool)
    (post : Option (BitVec 9 × BitVec 4)) : (s.putFrame port f win off data e last post).memOk := by
  have hwindow := memOk_window h win off data.length e true
  have hstore (ctx : Nat) (l : List (Nat × Nat × List (Byte × Bool))) (u : State) (hu : u.memOk) :
      (l.foldl (fun (q : Cause × State) r => if q.1 ≠ 0 then q else q.2.engineStore ⟨1000, ctx, false⟩ r) (0, u)).2.memOk := by
    refine memOk_foldlIn Prod.snd (fun q r hq => ?_) l hu
    split
    · exact hq
    · exact memOk_engineStore hq ..
  unfold putFrame
  refine memOk_ite h (memOk_ite (by rwa [memOk, mem_failFrame]) ?_)
  have hstored := hstore (s.window win off data.length e true).1.2.1
    (joinRuns ((s.window win off data.length e true).1.2.2.map fun p => (p.pa, p.key, (data.drop p.off).take p.n))) _ hwindow
  refine memOk_ite (by rwa [memOk, mem_failFrame]) (memOk_ite hstored ?_)
  split
  · exact hstored
  · rwa [memOk, mem_answer]
theorem memOk_getFrame (h : s.memOk) (port : Nat) (f : OftFrame) (win off n e : Nat) (last : Bool) : (s.getFrame port f win off n e last).memOk := by
  unfold getFrame
  refine memOk_ite h ?_
  split
  next c ctx ps s1 hwindow =>
  have h1 : s1.memOk := memOk_of_eq hwindow (memOk_window h ..)
  split
  next bad data s2 hread =>
  have h2 : s2.memOk := by
    refine memOk_of_eq hread (memOk_foldlIn Prod.snd (fun q p hq => ?_) ps h1)
    grind [memOk_fetchData]
  extract_lets c' fs s3
  have h3 : s3.memOk := by rwa [memOk, mem_foldl fun v q => v.mem_answer ..]
  exact memOk_ite (by rwa [memOk, mem_failFrame]) h3
theorem memOk_oftPerform (h : s.memOk) (port : Nat) (f : OftFrame) : (s.oftPerform port f).memOk := by
  have hsettled : (s.settleIncs f).memOk := by rwa [memOk, mem_settleIncs]
  unfold oftPerform
  grind [memOk, memOk_putFrame, memOk_getFrame, memOk_getDone, mem_endCmd, modCore_mem, tighten, modPkg_mem]
theorem memOk_oftDrain (h : s.memOk) (n : Nat) : (oftDrain n s).memOk := by
  induction n generalizing s with
  | zero => exact h
  | succ n ih =>
    unfold oftDrain
    split
    · exact h
    · exact ih (memOk_oftPerform (by exact h) ..)
theorem outcomeOk_execOftFrameReceive (h : s.memOk) (port : BitVec 3) (f : PortFrame) : OutcomeOk (execOftFrameReceive port f s) := by
  refine outcomeOk_next ?_
  grind [memOk, mem_ioField, mem_ioCount, memOk_oftDrain, modPkg_mem]
theorem outcomeOk_execOftAckTimeout (h : s.memOk) (k : Nat) : OutcomeOk (execOftAckTimeout k s) := by
  refine outcomeOk_next ?_
  grind [memOk, mem_endCmd, memOk_getDone, modPkg_mem]
theorem outcomeOk_execCopyComplete (h : s.memOk) (core k : Nat) : OutcomeOk (execCopyComplete core k s) := by
  refine outcomeOk_next ?_
  grind [memOk, memOk_beginCmd, mem_spend, modCore_mem, memOk_netSend, memOk_copyDone]

/-! The host port (R28-R31). -/

@[simp] theorem mem_hostFinds (s : State) (k : Nat) : (s.hostFinds k).mem = s.mem := by
  unfold hostFinds
  grind [mem_lineRecord]
theorem memOk_hostRead (h : s.memOk) (pa n : Nat) (key : Option (BitVec 512)) : (s.hostRead pa n key).2.memOk := by
  unfold hostRead
  extract_lets secs s1 s2 s3 s4 s5 iso s6
  have h1 : s1.memOk := memOk_foldl (fun u l hu => memOk_retireSlice hu _) _ h
  have h2 : s2.memOk := by grind [memOk_sweepDone]
  clear_value s2
  have h3 : s3.memOk := memOk_foldl (fun u k hu => memOk_recall hu k 1000) _ h2
  clear_value s3
  have h4 : s4.memOk := memOk_foldl (fun u l hu => memOk_applyLine hu l) _ h3
  clear_value s4
  have h5 : s5.memOk := memOk_foldl (fun u k hu => by grind [memOk_checkErr]) _ h4
  clear_value s5
  show s6.memOk
  unfold s6
  split
  · exact h5
  · rw [memOk, mem_foldl mem_hostFinds]; exact h5
theorem outcomeOk_execHostMemRead (h : s.memOk) (pa : BitVec 52) (n : Nat) : OutcomeOk (execHostMemRead pa n s) := by
  unfold execHostMemRead
  have hread (key : Option (BitVec 512)) := memOk_hostRead h (s.hdm pa) n key
  grind [outcomeOk_next, memOk, mem_send, holdFor, modPkg_mem]
theorem outcomeOk_execHostMemWrite (h : s.memOk) (pa : BitVec 52) (data : List Byte) : OutcomeOk (execHostMemWrite pa data s) := by
  unfold execHostMemWrite
  grind [outcomeOk_next, memOk, mem_ioCount, holdFor, modPkg_mem, memOk_performWrite]
theorem outcomeOk_execBackInvalidateResponse (h : s.memOk) (line : BitVec 46) : OutcomeOk (execBackInvalidateResponse line s) := by
  refine outcomeOk_next ?_
  grind [memOk, memOk_sliceAccess, modPkg_mem]
theorem outcomeOk_execHostLineCacheFill (h : s.memOk) (line : BitVec 46) (excl : Bool) (data : List Byte) : OutcomeOk (execHostLineCacheFill line excl data s) := by
  unfold execHostLineCacheFill
  grind [outcomeOk_next, memOk, memOk_writePhys, modPkg_mem, hostEnter, mem_wake]
@[simp] theorem mem_failLoad (s : State) (core : Nat) (l : PLoad) (cause : Cause) : (s.failLoad core l cause).mem = s.mem := by simp [failLoad]
@[simp] theorem mem_hostFail (s : State) (core : Nat) (cause : Cause) (a : HostAcc) : (s.hostFail core cause a).mem = s.mem := by
  cases a <;> simp [hostFail]
theorem outcomeOk_execHostLinkDown (h : s.memOk) : OutcomeOk (execHostLinkDown s) := by
  refine outcomeOk_next (memOk_foldl (fun u q hu => memOk_foldl (fun v a hv => ?_) _ hu) _ (by exact h))
  cases a <;> simpa [memOk] using hv
theorem memOk_streamOn (h : s.memOk) (n : Nat) : (s.streamOn n).memOk := memOk_fetchData h ..

/-! The expander port (R43-R48). -/

@[simp] theorem mem_endIsolation (s : State) : s.endIsolation.mem = s.mem := by
  unfold endIsolation
  split <;> simp
@[simp] theorem mem_retrain (s : State) : s.retrain.mem = s.mem := by
  unfold retrain
  split <;> simp
theorem outcomeOk_execTier2ReadResponse (h : s.memOk) (pa : BitVec 52) (poison : Bool) : OutcomeOk (execTier2ReadResponse pa poison s) := by
  refine outcomeOk_next (memOk_ite h ?_)
  have hread := memOk_l2Read h (pa.toNat / 64 * 64) 64 (s.lineReader (pa.toNat / 64)).1 (s.lineReader (pa.toNat / 64)).2 2
  refine memOk_ite ?_ hread
  rw [memOk, mem_lineRecord]
  refine memOk_foldl (fun u i hu => ?_) _ hread
  exact (congrArg (fun m => Memory.wf m = true) (u.mem_keepBelow _)).mpr hu

end State
end Sys2Proof.Machine
end

section
/-! SUPPORT. Outcomes that keep memory canonical: power, and the Distributor (R77-R123). -/
set_option Elab.async false
namespace Sys2Proof.Machine
open Sys2Proof
namespace State
variable {s : State}

theorem mem_ite {c : Prop} [Decidable c] {a b t : State} (ha : a.mem = t.mem) (hb : b.mem = t.mem) : (if c then a else b).mem = t.mem := by
  split
  · exact ha
  · exact hb

/-! Power (R77-R97). -/

@[simp] theorem mem_idleCycle (s : State) : s.idleCycle.mem = s.mem := rfl
@[simp] theorem mem_energyStall (s : State) (core : Nat) : (s.energyStall core).mem = s.mem := by
  unfold energyStall
  split <;> simp
@[simp] theorem mem_capCause (s : State) (p active : Nat) : (s.capCause p active).mem = s.mem := by simp [capCause]
@[simp] theorem mem_partNotice (s : State) (p : Nat) (fell : Bool) : (s.partNotice p fell).mem = s.mem := by
  unfold partNotice
  extract_lets s1
  have h1 : s1.mem = s.mem := mem_foldl (fun u c => u.mem_notice ..) _ s
  split <;> simp [h1]
@[simp] theorem mem_ceilingStep (s : State) (cores : List Nat) (lower : Bool) (cause : Nat) : (s.ceilingStep cores lower cause).mem = s.mem := by
  unfold ceilingStep
  extract_lets movable move ctl parts key
  have hmove (u : State) (l : List Nat) : (move u l).mem = u.mem := mem_foldl (fun v c => by split <;> simp) l u
  clear_value move
  split
  · exact hmove ..
  · split <;> simp [hmove]
@[simp] theorem mem_railEff (s : State) (r : Nat) : (s.railEff r).mem = s.mem := mem_ioField ..
theorem outcomeOk_execRailCeilingLowerStep (h : s.memOk) (rail : RailCurrent) : OutcomeOk (execRailCeilingLowerStep rail s) := by
  refine outcomeOk_next ?_
  grind [memOk, mem_ceilingStep, modPkg_mem]
theorem outcomeOk_execPhaseFail (h : s.memOk) (rail : BitVec 3) : OutcomeOk (execPhaseFail rail s) := by
  refine outcomeOk_next (memOk_ite h ?_)
  rw [memOk, mem_foldl fun u c => u.mem_notice ..]
  simpa [memOk] using h
@[simp] theorem mem_sensorRead (s : State) (die : BitVec 2) (temp : BitVec 8) : (s.sensorRead die temp).mem = s.mem := by simp [sensorRead]
@[simp] theorem mem_setLeak (s : State) (core : Nat) : (s.setLeak core).mem = s.mem := modCore_mem ..
@[simp] theorem mem_recompute (s : State) (used : Nat) : (s.recompute used).mem = s.mem := by
  unfold recompute
  extract_lets l reg gs first s1 s2
  have h2 : s2.mem = s.mem := by
    refine (mem_foldl (fun u q => ?_) _ s1).trans (modPkg_mem ..)
    dsimp only
    split <;> simp
  rw [mem_foldl fun u c => u.mem_setLeak c, h2]

/-! Launches (R34, R99-R110, R294, R330). -/

theorem memOk_readVa (h : s.memOk) (ctx va n : Nat) : (s.readVa ctx va n).2.memOk := by
  have hpages := memOk_xlate h ⟨ctx, true, 265⟩ .load va n
  unfold readVa
  split
  next heq => exact memOk_of_eq heq hpages
  next ps s1 heq =>
  have h1 := memOk_of_eq heq hpages
  split
  next c b s2 hread =>
  refine memOk_of_eq₂ hread (memOk_foldlIn (fun q : Cause × List Byte × State => q.2.2) (fun q p hq => ?_) ps h1)
  exact memOk_fetchData hq ..
theorem memOk_readDesc (h : s.memOk) (ctx va : Nat) : (s.readDesc ctx va).2.memOk := by
  unfold readDesc
  grind [memOk_readVa]
theorem memOk_readKernel (h : s.memOk) (ctx va : Nat) : (s.readKernel ctx va).2.memOk := by
  unfold readKernel
  grind [memOk_readVa, memOk_readDesc]
theorem memOk_enterRecord (h : s.memOk) (b : List Byte) (ctx : Nat) : (s.enterRecord b ctx).memOk := by
  unfold enterRecord
  grind [memOk, memOk_readKernel, modPkg_mem]
theorem memOk_acceptLaunch (h : s.memOk) (rec : Word) (ctx : Nat) : (s.acceptLaunch rec ctx).2.memOk := by
  have hread := memOk_fetchData h distributor rec.toNat 128 64 2
  unfold acceptLaunch
  grind [memOk_enterRecord]
@[simp] theorem mem_modLaunch (s : State) (id : Nat) (f : Launch → Launch) : (s.modLaunch id f).mem = s.mem := rfl
@[simp] theorem mem_newRound (s : State) : s.newRound.mem = s.mem := rfl
@[simp] theorem mem_place (s : State) : s.place.mem = s.mem := by
  unfold place
  split
  · rfl
  next l round hchosen =>
  have hround : (if round then s.newRound else s).mem = s.mem := by split <;> rfl
  extract_lets s1 s2
  split
  extract_lets cores s3 s4 s5
  split
  · refine (mem_foldl (fun u g => by simp) _ s4).trans ((mem_foldl (fun u c => modCore_mem ..) cores s3).trans ?_)
    exact hround
  · exact (mem_foldl (fun u q => modCore_mem ..) _ s5).trans hround

/-! Tile runs and the end of chunks (R101-R107, R133, R235). -/

@[simp] theorem mem_startTile (s : State) (core flat : Nat) : (s.startTile core flat).mem = s.mem := by
  unfold startTile
  grind [modCore_mem]
@[simp] theorem mem_freshCore (s : State) (core : Nat) (k : Kernel) : (s.freshCore core k).mem = s.mem := by simp [freshCore]
@[simp] theorem mem_beginChunk (s : State) (core : Nat) (k : Chunk) : (s.beginChunk core k).mem = s.mem := by
  unfold beginChunk
  split <;> simp
theorem memOk_flushStash (h : s.memOk) (core : Nat) : (s.flushStash core).2.memOk := by
  refine memOk_foldlIn Prod.snd (fun q w hq => ?_) _ h
  exact memOk_flushWindow hq ..
theorem memOk_closeWindows (h : s.memOk) (core : Nat) : (s.closeWindows core).memOk := by
  rw [memOk, closeWindows, modCore_mem]
  exact memOk_flushStash h core
@[simp] theorem mem_freeBars (s : State) (id : Nat) : (s.freeBars id).mem = s.mem := by
  unfold freeBars
  split <;> rfl
@[simp] theorem mem_loosen (s : State) (core : Nat) : (s.loosen core).mem = s.mem := rfl
theorem memOk_endChunk (h : s.memOk) (core : Nat) : (s.endChunk core).memOk := by
  have hflush := memOk_flushStash h core
  unfold endChunk
  grind [memOk, modCore_mem, mem_park, mem_loosen, mem_modLaunch, mem_freeBars]
theorem memOk_askTail (h : s.memOk) (core : Nat) : (s.askTail core).memOk := by
  unfold askTail
  grind [memOk, memOk_endChunk, modCore_mem, mem_startTile, mem_modLaunch]
@[simp] theorem mem_tileDone (s : State) (core : Nat) : (s.tileDone core).mem = s.mem := by
  unfold tileDone
  grind [modCore_mem, mem_startTile]
@[simp] theorem mem_startFork (s : State) (core target : Nat) (entry : Word) (regs : List Word) : (s.startFork core target entry regs).mem = s.mem := by
  unfold startFork
  grind [modCore_mem, mem_freshCore, mem_setLeak]

/-! Completion and barriers (R40-R42, R117-R119). -/

theorem memOk_completionLine (h : s.memOk) (l : Launch) (status : Nat) : (s.completionLine l status).memOk := by
  have hpage := memOk_xlate h ⟨l.ctx, false, 265⟩ .store l.caddr.toNat 64
  unfold completionLine
  grind [memOk_performWrite]
theorem memOk_complete (h : s.memOk) (l : Launch) : (s.complete l).memOk := by
  have hline := memOk_completionLine h l (l.status.getD 0)
  unfold complete
  grind [memOk, mem_msi, modPkg_mem]
@[simp] theorem mem_phaseDone (s : State) (g : Nat) (b : Barrier) : (s.phaseDone g b).mem = s.mem := by
  unfold phaseDone
  generalize (0xFFFFFFFF : Nat) = top
  extract_lets arr first last o late s1 s2 s3 rest s4 d dbar
  have h2 : s2.mem = s.mem := (mem_ioField ..).trans ((mem_ioField ..).trans ((mem_ioField ..).trans (ioSet_mem ..)))
  have h3 : s3.mem = s.mem := (mem_foldl (fun u j => ioSet_mem ..) _ s2).trans h2
  have h4 : s4.mem = s.mem := (modPkg_mem ..).trans h3
  exact mem_ite ((mem_foldl (fun u a => ioSet_mem ..) arr s4).trans h4) h4
@[simp] theorem mem_barrierArrives (s : State) (k : Nat) : (s.barrierArrives k).mem = s.mem := by
  unfold barrierArrives
  grind [mem_phaseDone, mem_freeBars, modPkg_mem, mem_dropFlight]

/-! Termination (R233). -/

theorem memOk_dropChunk (h : s.memOk) (core : Nat) : (s.dropChunk core).memOk := by
  have hclosed := memOk_closeWindows h core
  unfold dropChunk
  grind [memOk, modCore_mem, mem_loosen]
theorem memOk_terminate (h : s.memOk) (ctx : Nat) (cause : Cause) : (s.terminate ctx cause).memOk := by
  unfold terminate
  extract_lets eff s1 s2 gone s3 s4
  have h2 : s2.memOk := by
    refine memOk_foldl (fun u q hu => ?_) s.cores (s := s1) (by rw [memOk, modPkg_mem, mem_ioField]; exact h)
    grind [memOk, memOk_dropChunk, mem_park, modCore_mem]
  rw [memOk, mem_ioField]
  exact h2
theorem memOk_termGo (h : s.memOk) (ctx : Nat) (cause : Cause) : (s.termGo ctx cause).memOk :=
  memOk_ite h (memOk_terminate (by rwa [memOk, mem_ioField]) ..)
@[simp] theorem mem_termDone (s : State) (ctx : Nat) : (s.termDone ctx).mem = s.mem := by
  unfold termDone
  grind [modPkg_mem, mem_ioField]

/-! Chunks begin; pre-emption and switched-out state (R110-R116, R235). -/

theorem memOk_makeRoom (h : s.memOk) (core : Nat) (mask : Half) (self : Option Chunk) : (s.makeRoom core mask self).2.memOk := by
  unfold makeRoom
  split
  next ok kept s1 hsaved =>
  refine memOk_of_eq₂ hsaved (memOk_foldlIn (fun q : Bool × Bool × State => q.2.2) (fun q r hq => ?_) _ h)
  grind [memOk, memOk_termGo, memOk_saveBanks, modCore_mem]
theorem memOk_chunkBegin (h : s.memOk) (core : Nat) : (s.chunkBegin core).memOk := by
  unfold chunkBegin
  grind [memOk, memOk_makeRoom, mem_beginChunk, modCore_mem]
theorem memOk_beginGang (h : s.memOk) (id : Nat) : (s.beginGang id).memOk := by
  unfold beginGang
  split
  · exact h
  next l hl =>
  refine memOk_ite ?_ h
  split
  next ok s1 hroom =>
  have h1 : s1.memOk := by
    refine memOk_of_eq hroom (memOk_foldlIn Prod.snd (fun q m hq => ?_) _ h)
    exact memOk_makeRoom hq ..
  refine memOk_ite h1 ?_
  rw [memOk, mem_foldl fun u q => u.mem_beginChunk ..]
  exact h1
@[simp] theorem mem_preemptRoll (s : State) (core : Nat) : (s.preemptRoll core).mem = s.mem := by
  unfold preemptRoll
  grind [mem_park, modCore_mem]
@[simp] theorem mem_askPreempt (s : State) (core : Nat) : (s.askPreempt core).mem = s.mem := by
  unfold askPreempt
  split
  · rfl
  · refine mem_foldl (fun u c => ?_) _ s
    grind [mem_preemptRoll, modCore_mem]
theorem memOk_switchOut (h : s.memOk) (core : Nat) : (s.switchOut core).memOk := by
  have hflush := memOk_flushStash h core
  unfold switchOut
  grind [memOk, memOk_closeWindows, memOk_termGo, mem_park, memOk_saveImage, modCore_mem]
theorem memOk_graceExpire (h : s.memOk) (core : Nat) : (s.graceExpire core).memOk := by
  unfold graceExpire
  grind [memOk, memOk_switchOut, mem_preemptRoll]
theorem memOk_restore (h : s.memOk) (core : Nat) (r : Saved) : (s.restore core r).memOk := by
  unfold restore
  split
  next r' hurt s1 himage =>
  have h1 : s1.memOk := memOk_of_eq₂ himage (memOk_readImage h core r)
  extract_lets add s2 s3 s4
  have h4 : s4.memOk := by rw [memOk, mem_setLeak, modCore_mem, mem_freshCore]; exact h1
  exact memOk_ite (by rwa [memOk, mem_park]) h4
theorem memOk_switchIn (h : s.memOk) (core : Nat) : (s.switchIn core).memOk := by
  unfold switchIn
  split
  · exact h
  next r hr =>
  extract_lets group ready
  refine memOk_ite h ?_
  split
  next ok s1 hroom =>
  have h1 : s1.memOk := by
    refine memOk_of_eq hroom (memOk_foldlIn Prod.snd (fun q c hq => ?_) group h)
    grind [memOk_makeRoom]
  refine memOk_ite h1 (memOk_foldl (fun u c hu => ?_) group h1)
  grind [memOk, memOk_restore, modCore_mem]

end State
end Sys2Proof.Machine
end

section
/-! SUPPORT. Outcomes that keep memory canonical: faults, trust, registers, streams and the system slot (R30-R76, R230-R235, R427-R435). -/
set_option Elab.async false
namespace Sys2Proof.Machine
open Sys2Proof

theorem SMap.sorted_filter {α : Type} (f : Nat × α → Bool) {m : SMap α} (h : m.Sorted = true) : SMap.Sorted (m.filter f) = true := by
  induction m with
  | nil => rfl
  | cons p r ih =>
    obtain ⟨hp, hr⟩ := SMap.sorted_cons.mp h
    rw [List.filter_cons]
    split
    · exact SMap.sorted_cons.mpr ⟨fun q hq => hp q (List.mem_of_mem_filter hq), ih hr⟩
    · exact ih hr
theorem Memory.wf_filter (f : Host.Cell → Bool) {m : List Host.Cell} (h : Memory.wf m = true) : Memory.wf (m.filter f) = true := by
  obtain ⟨hsorted, hvalues⟩ := (SMap.wf_iff 0 m).mp h
  exact (SMap.wf_iff 0 _).mpr ⟨SMap.sorted_filter f hsorted, fun q hq => hvalues q (List.mem_of_mem_filter hq)⟩

namespace State
variable {s : State}

/-! The fault-service queue (R230-R232). -/

theorem memOk_fsqRoom (h : s.memOk) : s.fsqRoom.2.memOk := by
  unfold fsqRoom
  split
  · exact h
  · exact memOk_fetchData h ..
theorem memOk_fsqWrite (h : s.memOk) (r : FsqRec) : (s.fsqWrite r).memOk := by
  unfold fsqWrite
  grind [memOk, memOk_performWrite, modPkg_mem]
theorem memOk_fsqNext (h : s.memOk) : s.fsqNext.memOk := by
  unfold fsqNext
  split
  · exact h
  next r rest hq =>
  extract_lets s1 s2
  have h2 : s2.memOk := memOk_ite (by rw [memOk, modPkg_mem]; exact h) h
  have hroom := memOk_fsqRoom h2
  clear_value s2
  grind [memOk, memOk_fsqWrite, modCore_mem, mem_ioCount]
theorem memOk_fsqHeld (h : s.memOk) (core : Nat) : (s.fsqHeld core).memOk := by
  have hroom := memOk_fsqRoom h
  unfold fsqHeld
  grind [memOk, memOk_fsqWrite, modCore_mem]
theorem memOk_fsqEnable (h : s.memOk) : s.fsqEnable.memOk := by
  rw [memOk, fsqEnable, modPkg_mem]
  exact memOk_fetchData (by rwa [memOk, mem_ioField]) ..
@[simp] theorem mem_resumeCore (s : State) (core : Nat) : (s.resumeCore core).mem = s.mem := by
  unfold resumeCore
  grind [modCore_mem, mem_resume]

/-! Containment, scrubbing, injection (R143-R147, R462, R463, R470). -/

@[simp] theorem mem_stopNext (s : State) : s.stopNext.mem = s.mem := by
  unfold stopNext
  split
  · rfl
  · refine mem_foldl (fun u q => ?_) _ _
    exact mem_ite (mem_park ..) rfl
theorem memOk_scrubWay (h : s.memOk) (n : Nat) : (s.scrubWay n).memOk := by
  unfold scrubWay
  split
  · exact h
  · refine memOk_ite (memOk_loseLine h ..) (memOk_foldl (fun u i hu => ?_) _ (memOk_foldl (fun u i hu => ?_) _ h))
    · exact memOk_countCorrected (by exact hu) ..
    · exact memOk_refetch hu ..
@[simp] theorem mem_scrubWord (s : State) (pa : Nat) : (s.scrubWord pa).mem = s.mem := by
  unfold scrubWord
  grind [mem_lineRecord]
theorem memOk_scrubSet (h : s.memOk) (ways : List Nat) (sn : Nat) : (ways.foldl (fun s w => s.scrubWay (wayNo sn w)) s).memOk :=
  memOk_foldl (fun _ w hu => memOk_scrubWay hu (wayNo sn w)) ways h
theorem outcomeOk_execPatrolScrub (h : s.memOk) (t : ScrubTarget) : OutcomeOk (execPatrolScrub t s) := by
  refine outcomeOk_next ?_
  split
  · generalize List.range 16 = ways
    exact memOk_scrubSet h ways _
  · rwa [memOk, mem_scrubWord]
  · rwa [memOk, modCore_mem]
  · rwa [memOk, modCore_mem]
  · rwa [memOk, modCore_mem]
@[simp] theorem mem_inject (s : State) : s.inject.mem = s.mem := by
  unfold inject
  grind [mem_ioField]

/-! Watches, launches, handlers (R329, R330, R435). -/

theorem memOk_finishWatch (h : s.memOk) (core : Nat) (w : Watch) : (s.finishWatch core w).memOk := by
  have hread := memOk_readPieces h (s.mainWho core) (s.seenBy core w.relN) 2 false [⟨w.va, w.pa, 8, 0, w.key⟩]
  unfold finishWatch
  grind [memOk, modCore_mem, mem_arriveLate]
theorem outcomeOk_execWaitlineWake (h : s.memOk) (core k : Nat) : OutcomeOk (execWaitlineWake core k s) := by
  refine outcomeOk_next ?_
  grind [memOk_finishWatch]
theorem outcomeOk_execWaitlineTimeout (h : s.memOk) (core k : Nat) : OutcomeOk (execWaitlineTimeout core k s) := by
  refine outcomeOk_next ?_
  grind [memOk_finishWatch]
theorem memOk_answerLaunch (h : s.memOk) (core : Nat) : (s.answerLaunch core).memOk := by
  unfold answerLaunch
  grind [memOk, memOk_acceptLaunch, modCore_mem]
@[simp] theorem mem_timerFires (s : State) (core : Nat) : (s.timerFires core).mem = s.mem := modCore_mem ..
@[simp] theorem mem_startHandler (s : State) (core : Nat) : (s.startHandler core).mem = s.mem := by
  unfold startHandler
  grind [modCore_mem]

/-! Reset, boot and recovery (R26, R50-R58, R74). -/

theorem memOk_belowL2 (h : s.memOk) : s.belowL2.memOk := by
  refine memOk_foldl (fun u q hu => memOk_showBelow hu _) _ (memOk_foldl (fun u q hu => memOk_showBelow hu _) _ ?_)
  exact memOk_foldl (fun u q hu => by exact hu) _ h
theorem memOk_packageReset (h : s.memOk) : s.packageReset.memOk := by
  refine memOk_ite ?_ ?_
  · exact Memory.wf_filter _ (memOk_belowL2 h)
  · exact Memory.wf_filter _ h
theorem outcomeOk_execPowerLoss (h : s.memOk) : OutcomeOk (execPowerLoss s) := outcomeOk_next (Memory.wf_filter _ h)
@[simp] theorem mem_newAttKey (s : State) : s.newAttKey.mem = s.mem := by
  unfold newAttKey
  grind [modPkg_mem, ioSet_mem, free]
@[simp] theorem mem_attReady (s : State) : s.attReady.2.mem = s.mem := by
  unfold attReady
  exact mem_ite rfl s.mem_newAttKey
@[simp] theorem mem_bootDone (s : State) : s.bootDone.mem = s.mem := by
  unfold bootDone
  rw [mem_foldl fun u i => modCore_mem ..]
  simp
theorem memOk_imageStart (h : s.memOk) (img : BootImage) (id : Nat) : (s.imageStart img id).memOk := by
  unfold imageStart
  -- the slices' numbers play no part
  generalize List.range 192 = slices
  extract_lets head old m s1 s2
  have h2 : s2.memOk := memOk_ite (memOk_foldl (fun u k hu => memOk_retireSlice hu k) slices (by exact h)) h
  exact memOk_ite (by rwa [memOk, mem_bootDone]) h2
@[simp] theorem mem_bootFail (s : State) (id err : Nat) : (s.bootFail id err).mem = s.mem := by simp [bootFail]
theorem outcomeOk_execBootImageVerify (h : s.memOk) (img : BootImage) : OutcomeOk (execBootImageVerify img s) := by
  refine outcomeOk_next (memOk_ite h (memOk_ite (memOk_imageStart h ..) ?_))
  rwa [memOk, mem_bootFail]
@[simp] theorem mem_mailStatus (s : State) (st : Nat) : (s.mailStatus st).mem = s.mem := rfl
@[simp] theorem mem_mailWrite (s : State) (off : Nat) (v : Word) : (s.mailWrite off v).mem = s.mem := by
  unfold mailWrite
  grind [modPkg_mem]
theorem memOk_hostHands (h : s.memOk) (d : List Byte) : (s.hostHands d).memOk := wf_writeMap h ..
theorem outcomeOk_execBootFromHost (h : s.memOk) (img : List Byte) : OutcomeOk (execBootFromHost img s) := by
  have hhands := memOk_hostHands h img
  refine outcomeOk_next (memOk_ite h (memOk_ite ?_ ?_))
  · rwa [memOk, mem_mailStatus, mem_ioField]
  · rw [memOk, mem_mailStatus]
    exact memOk_imageStart (by rwa [memOk, modPkg_mem, mem_ioField, mem_ioField, mem_ioField]) ..
theorem outcomeOk_execVerifyAndWriteFlash (h : s.memOk) (img : List Byte) : OutcomeOk (execVerifyAndWriteFlash img s) := by
  have hhands := memOk_hostHands h img
  refine outcomeOk_next (memOk_ite h ?_)
  extract_lets s1 img id e
  refine memOk_ite (by rwa [memOk, mem_mailStatus]) (memOk_packageReset (by exact hhands))

/-! Attestation, keys, management, the dump (R59-R74). -/

@[simp] theorem mem_vendor (s : State) (b : List Byte) : (s.vendor b).mem = s.mem := rfl
@[simp] theorem mem_report (s : State) (nonce : BitVec 256) : (s.report nonce).mem = s.mem := rfl
theorem outcomeOk_execAttestationRequest (h : s.memOk) (nonce : BitVec 256) : OutcomeOk (execAttestationRequest nonce s) := by
  have hready : s.attReady.2.memOk := by rwa [memOk, mem_attReady]
  refine outcomeOk_next (memOk_ite h ?_)
  grind [memOk, mem_report, mem_vendor]
@[simp] theorem mem_keyCmd (s : State) (k cmd : Nat) : (s.keyCmd k cmd).mem = s.mem := by
  unfold keyCmd
  grind [modPkg_mem, mem_ioField]
@[simp] theorem mem_keyLanded (s : State) (k : Nat) : (s.keyLanded k).mem = s.mem := rfl
theorem memOk_keyDone (h : s.memOk) (k : Nat) : (s.keyDone k).memOk := by
  unfold keyDone
  split
  · exact h
  next cmd hcmd =>
  refine memOk_ite h ?_
  refine memOk_oftDrain ?_ _
  have h1 : ((s.ioField (keyReg k) 7 1 0).ioField (keyReg k) 6 1 (if cmd = 3 then 0 else 1)).memOk := by rwa [memOk, mem_ioField, mem_ioField]
  refine memOk_ite (memOk_foldl (fun u i hu => ?_) _ (by exact h1)) (memOk_ite h1 h1)
  rwa [memOk, ioSet_mem]
theorem outcomeOk_execCap (h : s.memOk) (msg : BitVec 384) : OutcomeOk (execCap msg s) := by
  refine outcomeOk_next (memOk_ite h ?_)
  rw [memOk, mem_vendor, mem_recompute, modPkg_mem]
  exact h
theorem outcomeOk_execThermalCeilingStep (h : s.memOk) (die : BitVec 2) (temp : BitVec 8) : OutcomeOk (execThermalCeilingStep die temp s) := by
  refine outcomeOk_next ?_
  grind [memOk, mem_sensorRead, mem_packageFatal, mem_ceilingStep]
theorem memOk_dumpWrite (h : s.memOk) (pa : Nat) (b : List Byte) : (s.dumpWrite pa b).memOk := by
  refine memOk_foldl (fun u k hu => memOk_ite ?_ ?_) _ h
  · exact (congrArg (fun m => Memory.wf m = true) (u.mem_snoopNow _)).mpr hu
  · exact memOk_writePhys ((congrArg (fun m => Memory.wf m = true) (u.mem_snoopNow _)).mpr hu) ..
theorem memOk_writeDump (h : s.memOk) (base : Nat) : (s.writeDump base).memOk := by
  unfold writeDump
  -- which cores and ways there are plays no part
  generalize List.range 264 = cores, List.range (192 * 8192) = sets, List.range (192 * 8192 * 16) = ways
  refine memOk_dumpWrite (memOk_dumpWrite (memOk_dumpWrite (memOk_foldl (fun u c hu => ?_) cores (memOk_foldl (fun u c hu => ?_) cores h)) ..) ..) ..
  · exact memOk_dumpWrite hu ..
  · exact memOk_dumpWrite hu ..
theorem memOk_finishDump (h : s.memOk) : s.finishDump.memOk := by
  unfold finishDump
  extract_lets base s1
  have h1 : s1.memOk := by
    unfold s1
    exact memOk_writeDump (memOk_dumpWrite h base (bytesOf 8 0)) base
  clear_value s1
  split
  next ready s2 hready =>
  have h2 : s2.memOk := memOk_of_eq hready (by rwa [memOk, mem_attReady])
  extract_lets signs magic head s3 sig s4
  refine memOk_ite ?_ ?_
  · rw [memOk, mem_alert, mem_msi, mem_ioField]
    exact memOk_dumpWrite (memOk_dumpWrite (by exact h2) ..) ..
  · rw [memOk, mem_ioField]
    exact memOk_dumpWrite (by exact h2) ..

/-! Registers (R5, R6, R162). -/

theorem memOk_regionWrite (h : s.memOk) (r w : Nat) (v : Word) : (s.regionWrite r w v).memOk := by
  unfold regionWrite
  generalize List.range 192 = slices
  extract_lets was s1 o s2 want
  have h1 : s1.memOk := memOk_ite (memOk_foldl (fun u k hu => memOk_ite (memOk_applyRegion hu ..) hu) slices h) h
  rwa [memOk, mem_ioField, ioSet_mem]
@[simp] theorem mem_tlbLose (s : State) (n : Nat) : (s.tlbLose n).mem = s.mem := rfl
theorem memOk_ioEffect (h : s.memOk) (o : Nat) (old v : Word) : (s.ioEffect o old v).memOk := by
  have hfield (a lo w x : Nat) : (s.ioField a lo w x).memOk := by rwa [memOk, mem_ioField]
  unfold ioEffect
  refine memOk_ite (memOk_ite (hfield ..) (memOk_ite (by rwa [memOk, mem_retrain]) h)) ?_
  refine memOk_ite (memOk_ite (by rwa [memOk, mem_endIsolation]) h) ?_
  refine memOk_ite (hfield ..) ?_
  refine memOk_ite (memOk_ite (by rw [memOk, mem_inject]; exact hfield ..) h) ?_
  refine memOk_ite (memOk_ite (memOk_fsqEnable h) h) ?_
  split
  · have hcleared (c : Prop) [Decidable c] (p : Nat) : (if c then s.portClr p else s).memOk := memOk_ite (hfield ..) h
    exact memOk_ite (by rw [memOk, mem_portOff]; exact hcleared ..) (hcleared ..)
  split
  · exact memOk_ite (memOk_streamOn h _) h
  split
  · rwa [memOk, mem_keyCmd]
  split
  · rwa [memOk, mem_railEff]
  split
  · rwa [memOk, ioSet_mem]
  split
  · exact h
  split
  · exact memOk_ite (by rwa [memOk, mem_resumeCore]) h
  split
  · exact memOk_ite (memOk_termGo h ..) h
  · exact h
theorem memOk_ioWrite (h : s.memOk) (o : Nat) (v : Word) : (s.ioWrite o v).memOk := by
  unfold ioWrite
  split
  · exact h
  · split
    · exact memOk_regionWrite h ..
    · exact memOk_ite h (memOk_ioEffect (by rwa [memOk, ioSet_mem]) ..)
theorem memOk_hostWrite (h : s.memOk) (off : Nat) (v : Word) : (s.hostWrite off v).memOk :=
  memOk_ite (by rwa [memOk, mem_mailWrite]) (memOk_ite h (memOk_ite h (memOk_ioWrite h ..)))
theorem outcomeOk_execRegionRegisterWrite (h : s.memOk) (off : Nat) (v : Word) : OutcomeOk (execRegionRegisterWrite off v s) := by
  refine outcomeOk_next ?_
  split
  · exact memOk_regionWrite h ..
  · exact h

/-! Launch streams (R33-R39). -/

theorem memOk_caddrOk (h : s.memOk) (ctx a : Nat) : (s.caddrOk ctx a).2.memOk := by
  have hpage := memOk_xlate h ⟨ctx, false, 256⟩ .store a 64
  unfold caddrOk
  grind
theorem memOk_validate (h : s.memOk) (b : List Byte) (ctx : Nat) : (s.validate b ctx).2.memOk := by
  unfold validate
  extract_lets f
  split
  · exact h
  split
  · exact h
  split
  · exact h
  split
  next at' s1 hpage =>
  have h1 := memOk_of_eq hpage (memOk_xlate h ..)
  split
  next d s2 hdesc =>
  have h2 := memOk_of_eq hdesc (memOk_readDesc h1 ..)
  clear_value f
  grind [memOk_caddrOk]
theorem memOk_reject (h : s.memOk) (b : List Byte) (ctx status : Nat) : (s.reject b ctx status).memOk := by
  have hline := memOk_completionLine h (launchOfRecord b ctx) status
  exact memOk_ite (by rwa [memOk, mem_msi]) hline
@[simp] theorem mem_stopStream (s : State) (n : Nat) : (s.stopStream n).mem = s.mem := by simp [stopStream]
theorem memOk_streamStep (h : s.memOk) (n : Nat) (head : Word) : (s.streamStep n head).memOk := by
  rw [memOk, streamStep, modPkg_mem]
  exact memOk_performWrite h ..
theorem memOk_serveStream {t : State} {n : Nat} {head : Word} (h : s.memOk) (ht : s.serveStream n head = some t) : t.memOk := by
  unfold serveStream at ht
  extract_lets base ctl failed at ht
  have hfailed {u : State} (hu : u.memOk) (hf : failed u = some t) : t.memOk := by
    obtain hf | hf := of_ite_eq hf <;> cases hf
    exact hu
  clear_value failed
  obtain ht | ht := of_ite_eq ht
  · cases ht
  split at ht
  next c tail s1 htail =>
  have h1 := memOk_of_eq htail (memOk_fetchData h ..)
  obtain ht | ht := of_ite_eq ht
  · exact hfailed h1 ht
  obtain ht | ht := of_ite_eq ht
  · cases ht
  split at ht
  next c b s2 hrecord =>
  have h2 := memOk_of_eq hrecord (memOk_fetchData h1 ..)
  extract_lets seq at ht
  obtain ht | ht := of_ite_eq ht
  · exact hfailed h2 ht
  obtain ht | ht := of_ite_eq ht
  · obtain ht | ht := of_ite_eq ht <;> cases ht
    rwa [memOk, mem_stopStream]
  split at ht
  next st s3 hvalid =>
  have h3 := memOk_of_eq hvalid (memOk_validate h2 ..)
  obtain ht | ht := of_ite_eq ht
  · cases ht; exact memOk_streamStep (memOk_reject h3 ..) ..
  obtain ht | ht := of_ite_eq ht
  · cases ht; exact memOk_streamStep h3 ..
  obtain ht | ht := of_ite_eq ht
  · cases ht
  · cases ht; exact memOk_streamStep (memOk_enterRecord h3 ..) ..
theorem memOk_streamMove {t : State} (h : s.memOk) (ht : s.streamMove = some t) : t.memOk := by
  unfold streamMove at ht
  split at ht
  · cases ht
  · obtain ⟨q, -, hq⟩ := List.exists_of_findSome?_eq_some ht
    exact memOk_serveStream h hq

/-! System registers and maintenance (R329-R331, R429-R437). -/

theorem mem_sysWrite {t : State} {n : Nat} {v : Word} (ht : s.sysWrite n v = .ok t) : t.mem = s.mem := by
  unfold sysWrite at ht
  extract_lets keep at ht
  split at ht
  · obtain ht | ht := of_ite_eq ht <;> cases ht
    exact modCur_mem ..
  · obtain ht | ht := of_ite_eq ht <;> cases ht
    exact modCur_mem ..
  · obtain ht | ht := of_ite_eq ht <;> cases ht
    exact modCur_mem ..
  all_goals cases ht
  · exact modCur_mem ..
  · exact modCur_mem ..
  · exact modCur_mem ..
  · rfl
theorem outcomeOk_execMfsr (h : s.memOk) (o : OpInfo) (r : SrMove) : OutcomeOk (execMfsr o r s) :=
  outcomeOk_runNow h fun t ht => by
    split at ht
    · cases ht
    · cases ht; rwa [memOk, mem_landG]
theorem outcomeOk_execMtsr (h : s.memOk) (o : OpInfo) (r : SrMove) : OutcomeOk (execMtsr o r s) :=
  outcomeOk_runNow h fun t ht => by
    obtain ⟨-, -, ht⟩ := of_bind_ok ht
    rwa [memOk, mem_sysWrite ht]
theorem memOk_cleanLine (h : s.memOk) (n : Nat) : (s.cleanLine n).memOk := by
  unfold cleanLine
  split
  · exact h
  · refine memOk_ite (memOk_loseLine h ..) (memOk_foldl (fun u i hu => ?_) _ (memOk_writeBack h ..))
    exact memOk_countCorrected hu ..
theorem memOk_wbCtx (h : s.memOk) (ctx : Nat) : (s.wbCtx ctx).memOk := by
  refine memOk_foldl (fun u q hu => memOk_ite (memOk_cleanLine hu _) hu) _ (memOk_foldl (fun u q hu => memOk_ite (memOk_applyLine hu _) hu) _ h)
theorem memOk_sysDo (h : s.memOk) (op : SysOp) : (s.sysDo op).memOk := by
  cases op with
  | ioRead off d n => rwa [memOk, sysDo, mem_landG]
  | ioWrite off v => exact memOk_ioWrite h ..
  | eret c => rwa [memOk, sysDo, mem_resumeCore]
  | tlbi ctx va => exact h
  | icinv => rwa [memOk, sysDo, modCur_mem]
  | icinvPkg => exact h
  | sdcinv => rwa [memOk, sysDo, modCur_mem]
  | wbctx n => exact memOk_wbCtx h n
theorem memOk_whenDone {t : State} {op : SysOp} (h : s.memOk) (ht : s.whenDone op = .ok t) : t.memOk := by
  obtain ht | ht := of_ite_eq ht
  · cases ht; rwa [memOk, mem_hold]
  · cases ht; exact memOk_sysDo h op
theorem memOk_sysLate (h : s.memOk) (core : Nat) (op : SysOp) : (s.sysLate core op).memOk := by
  unfold sysLate
  split
  · rwa [memOk, modCore_mem]
  · exact memOk_sysDo (s := { s with issue := { core } }) h op
theorem outcomeOk_execMfsrIo (h : s.memOk) (o : OpInfo) (r : IoMove) : OutcomeOk (execMfsrIo o r s) :=
  outcomeOk_runNow h fun t ht => by grind [→ memOk_whenDone, → of_bind_ok]
theorem outcomeOk_execMtsrIo (h : s.memOk) (o : OpInfo) (r : IoMove) : OutcomeOk (execMtsrIo o r s) :=
  outcomeOk_runNow h fun t ht => by grind [→ memOk_whenDone, → of_bind_ok]
theorem outcomeOk_execTrap (h : s.memOk) (o : OpInfo) (r : TrapArgs) : OutcomeOk (execTrap o r s) := outcomeOk_runNow h fun t ht => by cases ht
theorem outcomeOk_execEret (h : s.memOk) (o : OpInfo) : OutcomeOk (execEret o s) :=
  outcomeOk_runNow h fun t ht => by grind [→ memOk_whenDone, → of_bind_ok]
theorem outcomeOk_execSret (h : s.memOk) (o : OpInfo) : OutcomeOk (execSret o s) :=
  outcomeOk_runNow h fun t ht => by grind [memOk, modCur_mem, → of_bind_ok]
/-- An operation whose effect waits for the earlier ones, after a check of its privilege. -/
theorem outcomeOk_checkedWhenDone (h : s.memOk) (o : OpInfo) (chk : State → Except TrapInfo Unit) (op : State → SysOp) :
    OutcomeOk (s.runNow o fun s => do chk s; s.whenDone (op s)) :=
  outcomeOk_runNow h fun t ht => by grind [→ memOk_whenDone, → of_bind_ok]
theorem outcomeOk_whenDone (h : s.memOk) (o : OpInfo) (op : State → SysOp) : OutcomeOk (s.runNow o fun s => s.whenDone (op s)) :=
  outcomeOk_runNow h fun _ ht => memOk_whenDone h ht
theorem outcomeOk_tlbi (h : s.memOk) (o : OpInfo) (ctx va : Option Nat) : OutcomeOk (s.tlbi o ctx va) :=
  outcomeOk_checkedWhenDone h o (fun s => raiseIf (!s.supervisor) 0x200#10) fun _ => .tlbi ctx va
theorem outcomeOk_execWaitline (h : s.memOk) (o : OpInfo) (r : WaitlineArgs) : OutcomeOk (execWaitline o r s) :=
  outcomeOk_runLate h fun t ht => by
    obtain ⟨-, -, ht⟩ := of_bind_ok ht
    obtain ⟨-, -, ht⟩ := of_bind_ok ht
    obtain ⟨⟨ps, u⟩, hpage, ht⟩ := of_bind_ok ht
    have hu : u.memOk := memOk_xlateR h hpage
    obtain ht | ht := of_ite_eq ht
    · cases ht; exact hu
    · obtain ⟨v, hv, ht⟩ := of_bind_ok ht
      have hv' : v.memOk := by rwa [memOk, mem_tokAdd (of_keep_ok hv)]
      grind [memOk, memOk_readPieces, modCur_mem, mem_touch, nextSeq]
theorem outcomeOk_execLaunch (h : s.memOk) (o : OpInfo) (r : LaunchArgs) : OutcomeOk (execLaunch o r s) :=
  outcomeOk_runNow h fun t ht => by grind [memOk, mem_hold, → of_bind_ok]
theorem outcomeOk_execExit (h : s.memOk) (o : OpInfo) : OutcomeOk (execExit o s) := outcomeOk_runNow h fun t ht => by cases ht; exact h

end State
end Sys2Proof.Machine
end

section
/-! SUPPORT. Outcomes that keep memory canonical: every event, and every operation of a slot. -/
set_option Elab.async false
namespace Sys2Proof.Machine
open Sys2Proof
namespace State
variable {s : State}

/-! Every event but the issue of a bundle, and every operation of a slot. -/

theorem outcomeOk_nextMem {t : State} (h : s.memOk) (ht : t.mem = s.mem) : OutcomeOk (.next t) := outcomeOk_next (by rwa [memOk, ht])
theorem outcomeOk_runNowOk {o : OpInfo} {f : State → State} (h : s.memOk) (hf : (f s).mem = s.mem) : OutcomeOk (s.runNow o fun s => .ok (f s)) :=
  outcomeOk_runNow h fun t ht => by cases ht; rwa [memOk, hf]
section Families
variable (h : s.memOk) (o : OpInfo)
include h

theorem outcomeOk_aluRRR (r : RRR) (f : Word → Word → Word) : OutcomeOk (s.aluRRR o r f) := outcomeOk_alu h o r.d _
theorem outcomeOk_aluImm (r : RImm) (f : Word → Word → Word) : OutcomeOk (s.aluImm o r f) := outcomeOk_alu h o r.d _
theorem outcomeOk_aluShift (r : RShift) (f : Word → Nat → Word) : OutcomeOk (s.aluShift o r f) := outcomeOk_alu h o r.d _
theorem outcomeOk_atomW (r : Atomic) (aop : Nat) : OutcomeOk (s.atomW o r aop) := outcomeOk_atomic h o r.d r.base r.a _ aop _ _ _ 0
theorem outcomeOk_vInt3 (r : VInt3) (f : Nat → Nat → Nat → Nat) : OutcomeOk (s.vInt3 o r f) := outcomeOk_vecLand h o (fun _ => .vint) r.d _ _
theorem outcomeOk_vInt4 (r : VInt3) (f : Nat → Nat → Nat → Nat → Nat) : OutcomeOk (s.vInt4 o r f) := outcomeOk_vecLand h o (fun _ => .vint) r.d _ _
theorem outcomeOk_vInt2 (r : VInt2) (f : Nat → Nat → Nat) : OutcomeOk (s.vInt2 o r f) := outcomeOk_vecLand h o (fun _ => .vint) r.d _ _
theorem outcomeOk_vScan (r : VInt2) (f : Nat → Nat → Nat → Nat) : OutcomeOk (s.vScan o r f) := outcomeOk_vecLand h o (fun _ => .vint) r.d _ _
theorem outcomeOk_vPerm (r : VInt3) (f : Nat → (Nat → Nat) → (Nat → Nat) → Nat → Nat) : OutcomeOk (s.vPerm o r f) :=
  outcomeOk_vecLand h o (fun _ => .vint) r.d _ _
theorem outcomeOk_vFp3 (r : VFp3) (f : Bool → FVal → FVal → FVal → RVal) : OutcomeOk (s.vFp3 o r f) := outcomeOk_vFloat h o r.d r.a r.b _ _ _ _ _ f
theorem outcomeOk_vFp2 (r : VFp2) (ok : List Nat) (f : FVal → RVal) : OutcomeOk (s.vFp2 o r ok f) := outcomeOk_vFloat h o r.d r.a r.a _ _ _ _ ok _

end Families

@[simp] theorem mem_portClr (s : State) (p : Nat) : (s.portClr p).mem = s.mem := ioSet_mem ..
@[simp] theorem mem_arrayEnabled (s : State) (core : Nat) : (s.arrayEnabled core).mem = s.mem := modCore_mem ..
@[simp] theorem mem_arrayGate (s : State) (core : Nat) : (s.arrayGate core).mem = s.mem := modCore_mem ..
theorem outcomeOk_execClusterPowerUp (h : s.memOk) (n : BitVec 6) : OutcomeOk (execClusterPowerUp n s) := outcomeOk_nextMem h (mem_ite rfl rfl)
theorem outcomeOk_execOftPutFlagIncrement (h : s.memOk) (k : Nat) : OutcomeOk (execOftPutFlagIncrement k s) := by
  refine outcomeOk_nextMem h ?_
  grind [modPkg_mem, mem_incDone]
theorem outcomeOk_execOftRetransmit (h : s.memOk) (k : Nat) : OutcomeOk (execOftRetransmit k s) := by
  refine outcomeOk_nextMem h ?_
  grind [mem_send]
theorem outcomeOk_execPortLinkUp (h : s.memOk) (port : BitVec 3) (full : Bool) : OutcomeOk (execPortLinkUp port full s) :=
  outcomeOk_nextMem h (mem_ite (by simp) rfl)
theorem outcomeOk_execPortFailover (h : s.memOk) (node : BitVec 12) (cls : BitVec 4) (port : BitVec 3) : OutcomeOk (execPortFailover node cls port s) := by
  refine outcomeOk_nextMem h ?_
  grind [modPkg_mem]
theorem outcomeOk_execHostAccessTimeout (h : s.memOk) (core k : Nat) : OutcomeOk (execHostAccessTimeout core k s) := by
  refine outcomeOk_nextMem h ?_
  grind [mem_hostFail, modCore_mem]
theorem outcomeOk_execHostLinkTrain (h : s.memOk) (width : BitVec 5) (rate : BitVec 8) : OutcomeOk (execHostLinkTrain width rate s) :=
  outcomeOk_nextMem h (mem_ite rfl rfl)
theorem outcomeOk_execStreamEnable (h : s.memOk) (n : BitVec 6) : OutcomeOk (execStreamEnable n s) :=
  outcomeOk_next (memOk_ite h (memOk_streamOn (by rwa [memOk, mem_ioField]) _))
theorem outcomeOk_execLaunchComplete (h : s.memOk) (k : Nat) : OutcomeOk (execLaunchComplete k s) := by
  refine outcomeOk_next ?_
  grind [memOk_complete]
theorem outcomeOk_execExpPortIsolate (h : s.memOk) : OutcomeOk (execExpPortIsolate s) := outcomeOk_nextMem h (mem_ite (by simp) rfl)
theorem outcomeOk_execExpPoisonSweepDone (h : s.memOk) : OutcomeOk (execExpPoisonSweepDone s) := outcomeOk_next (memOk_ite (memOk_sweepDone h) h)
theorem outcomeOk_execExpLinkChange (h : s.memOk) (up : Bool) (speed : BitVec 2) (capacity : Nat) : OutcomeOk (execExpLinkChange up speed capacity s) :=
  outcomeOk_nextMem h (mem_ite (mem_ite (by simp) rfl) (by simp))
theorem outcomeOk_execPackageFatal (h : s.memOk) (cause : Cause) : OutcomeOk (execPackageFatal cause s) := outcomeOk_nextMem h (mem_ite (by simp) rfl)
theorem outcomeOk_execDumpWritten (h : s.memOk) : OutcomeOk (execDumpWritten s) := outcomeOk_next (memOk_ite (memOk_finishDump h) h)
theorem outcomeOk_execRailOvercurrent (h : s.memOk) (rail : BitVec 3) : OutcomeOk (execRailOvercurrent rail s) := outcomeOk_nextMem h (mem_ite rfl rfl)
theorem outcomeOk_execRailCeilingRaiseStep (h : s.memOk) (rail : BitVec 3) : OutcomeOk (execRailCeilingRaiseStep rail s) :=
  outcomeOk_nextMem h (mem_ite (by simp) rfl)
theorem outcomeOk_execPreemptGraceExpire (h : s.memOk) (core : Nat) : OutcomeOk (execPreemptGraceExpire core s) := by
  refine outcomeOk_next ?_
  split
  · exact memOk_switchOut h core
  · exact memOk_ite (memOk_graceExpire h core) h
  · exact h
theorem outcomeOk_execErrorInject (h : s.memOk) : OutcomeOk (execErrorInject s) := outcomeOk_nextMem h (mem_ite rfl (by simp))
theorem outcomeOk_execStallBundle (h : s.memOk) (core : Nat) : OutcomeOk (execStallBundle core s) :=
  outcomeOk_nextMem h (mem_ite (mem_ite (by simp) (modCore_mem ..)) rfl)
theorem outcomeOk_execStretchCycle (h : s.memOk) (core : Nat) : OutcomeOk (execStretchCycle core s) :=
  outcomeOk_nextMem h (mem_ite (modCore_mem ..) rfl)
theorem outcomeOk_execFsqEnable (h : s.memOk) : OutcomeOk (execFsqEnable s) :=
  outcomeOk_next (memOk_ite h (memOk_fsqEnable (by rwa [memOk, mem_ioField])))
theorem outcomeOk_execDqEntryFilled (h : s.memOk) (core : Nat) : OutcomeOk (execDqEntryFilled core s) := by
  refine outcomeOk_next ?_
  grind [memOk_queueFill]
theorem outcomeOk_execGlobalLoadComplete (h : s.memOk) (core k : Nat) : OutcomeOk (execGlobalLoadComplete core k s) := by
  refine outcomeOk_next ?_
  grind [memOk_finishLoad]
theorem outcomeOk_execAtomicComplete (h : s.memOk) (core k : Nat) : OutcomeOk (execAtomicComplete core k s) := by
  refine outcomeOk_nextMem h ?_
  grind [mem_finishAtom]

end State

/-- The steps that issue a bundle: they run the operations of its slots. -/
def Instr.issuesBundle : Instr → Bool
  | .bundleIssue _ | .serviceBundleIssue _ | .checkpointBoundOverrun _ => true
  | _ => false
theorem Row.instr_issuesBundle (r : Row) (o : OpInfo) (ex : Bool) (b : BitVec 20) (p : BitVec 24) : Instr.issuesBundle (r.instr o ex b p) = false := by
  cases r <;> rfl

namespace State
variable {s : State}

theorem outcomeOk_execOther (h : s.memOk) {i : Instr} (hi : Instr.issuesBundle i = false) : OutcomeOk (exec i s) := by
  cases i with
  | packageReset => exact outcomeOk_next (memOk_packageReset h)
  | bootImageVerify _ => exact outcomeOk_execBootImageVerify h _
  | clusterPowerUp _ => exact outcomeOk_execClusterPowerUp h _
  | arrayPowerGate _ | arrayEnable _ | portLinkDown _ | portStatClr _ | portDisable _ | hostSnoop _ | expIsolationEnd | expRetrain | keyLoad _
  | keyGen _ | keyZero _ | setEndpointId _ | getEndpointId | getMessageTypeSupport | i3cDynamicAddressAssignment _ | readTelemetry | dumpStatus
  | alertAcknowledge _ | rotWatchdogExpire | thermalTrip | dumpRelease | settlingWindowEnd _ | grantRecompute _ | placementDecision
  | preemptRequest _ | gangWaitTimeout _ | barrierArrival _ | blazeMapSave | handlerStart _ | serviceTimer _ | coreResume _
  | contextTerminationDone _ | bankFillStart _ | bankFillDone _ | sideCarComputeDone _ | passStart _ | passDrainDone _ | tileUnitOpDone _
  | engineCauseReport _ | queueLoaderRead _ | remotePostDeliver _ => exact outcomeOk_nextMem h (by simp)
  | oftFrameReceive _ _ => exact outcomeOk_execOftFrameReceive h _ _
  | oftPutFlagIncrement _ => exact outcomeOk_execOftPutFlagIncrement h _
  | oftRetransmit _ => exact outcomeOk_execOftRetransmit h _
  | oftAckTimeout _ => exact outcomeOk_execOftAckTimeout h _
  | portLinkUp _ _ => exact outcomeOk_execPortLinkUp h _ _
  | portFailover _ _ _ => exact outcomeOk_execPortFailover h _ _ _
  | hostMemRead _ _ => exact outcomeOk_execHostMemRead h _ _
  | hostMemWrite _ _ => exact outcomeOk_execHostMemWrite h _ _
  | backInvalidateResponse _ => exact outcomeOk_execBackInvalidateResponse h _
  | hostAccessTimeout _ _ => exact outcomeOk_execHostAccessTimeout h _ _
  | hostLinkDown => exact outcomeOk_execHostLinkDown h
  | hostLinkTrain _ _ => exact outcomeOk_execHostLinkTrain h _ _
  | streamEnable _ => exact outcomeOk_execStreamEnable h _
  | launchComplete _ => exact outcomeOk_execLaunchComplete h _
  | expPortIsolate => exact outcomeOk_execExpPortIsolate h
  | expPoisonSweepDone => exact outcomeOk_execExpPoisonSweepDone h
  | expLinkChange _ _ _ => exact outcomeOk_execExpLinkChange h _ _ _
  | tier2ReadResponse _ _ => exact outcomeOk_execTier2ReadResponse h _ _
  | bootFromHost _ => exact outcomeOk_execBootFromHost h _
  | verifyAndWriteFlash _ => exact outcomeOk_execVerifyAndWriteFlash h _
  | attestationRequest _ => exact outcomeOk_execAttestationRequest h _
  | keyCommandComplete _ => exact outcomeOk_next (memOk_keyDone h ..)
  | cap _ => exact outcomeOk_execCap h _
  | packageFatal _ => exact outcomeOk_execPackageFatal h _
  | dumpWritten => exact outcomeOk_execDumpWritten h
  | railOvercurrent _ => exact outcomeOk_execRailOvercurrent h _
  | railCeilingLowerStep _ => exact outcomeOk_execRailCeilingLowerStep h _
  | railCeilingRaiseStep _ => exact outcomeOk_execRailCeilingRaiseStep h _
  | phaseFail _ => exact outcomeOk_execPhaseFail h _
  | thermalCeilingStep _ _ => exact outcomeOk_execThermalCeilingStep h _ _
  | chunkStart _ => exact outcomeOk_next (memOk_chunkBegin h ..)
  | tailTileRequest _ => exact outcomeOk_next (memOk_askTail h ..)
  | preemptGraceExpire _ => exact outcomeOk_execPreemptGraceExpire h _
  | chunkSwitchIn _ => exact outcomeOk_next (memOk_switchIn h ..)
  | checkpointBoundOverrun _ | bundleIssue _ | serviceBundleIssue _ => cases hi
  | gangStart _ => exact outcomeOk_next (memOk_beginGang h ..)
  | homeSliceAccess _ => exact outcomeOk_next (memOk_sliceAccess h ..)
  | sliceRetireComplete _ => exact outcomeOk_next (memOk_retireSlice h ..)
  | l2FillReturn _ => exact outcomeOk_next (memOk_l2Read h ..)
  | patrolScrub _ => exact outcomeOk_execPatrolScrub h _
  | errorInject => exact outcomeOk_execErrorInject h
  | updatePairAdmit _ => exact outcomeOk_next (memOk_pairAdmit h ..)
  | regionRegisterWrite _ _ => exact outcomeOk_execRegionRegisterWrite h _ _
  | stallBundle _ => exact outcomeOk_execStallBundle h _
  | stretchCycle _ => exact outcomeOk_execStretchCycle h _
  | contextTerminate _ _ => exact outcomeOk_next (memOk_termGo h ..)
  | fsqEnable => exact outcomeOk_execFsqEnable h
  | copyComplete _ _ => exact outcomeOk_execCopyComplete h _ _
  | dqEntryFilled _ => exact outcomeOk_execDqEntryFilled h _
  | globalLoadComplete _ _ => exact outcomeOk_execGlobalLoadComplete h _ _
  | atomicComplete _ _ => exact outcomeOk_execAtomicComplete h _ _
  | waitlineWake _ _ => exact outcomeOk_execWaitlineWake h _ _
  | waitlineTimeout _ _ => exact outcomeOk_execWaitlineTimeout h _ _
  | launchAnswer _ => exact outcomeOk_next (memOk_answerLaunch h ..)
  | registerWrite _ _ => exact outcomeOk_next (memOk_hostWrite h ..)
  | nop _ => exact outcomeOk_execNop h _
  | add _ _ | sub _ _ | and _ _ | or _ _ | xor _ _ | andn _ _ | shl _ _ | shr _ _ | sra _ _ | rol _ _ | mul _ _ | mulhs _ _ | mulhu _ _ | min _ _
  | max _ _ | minu _ _ | maxu _ _ | addw _ _ | subw _ _ => unfold exec; exact outcomeOk_aluRRR h _ _ _
  | movr _ _ | mov _ _ | movhi _ _ | mftcfg _ _ | popc _ _ | clz _ _ | ctz _ _ | bscan _ _ | bscanc _ _ => unfold exec; exact outcomeOk_alu h _ _ _
  | addImm _ _ | andImm _ _ | orImm _ _ | xorImm _ _ | mulImm _ _ => unfold exec; exact outcomeOk_aluImm h _ _ _
  | shlImm _ _ | shrImm _ _ | sraImm _ _ => unfold exec; exact outcomeOk_aluShift h _ _ _
  | cmp _ _ => exact outcomeOk_execCmp h _ _
  | cmpImm _ _ => exact outcomeOk_execCmpImm h _ _
  | pand _ _ => unfold exec execPand; exact outcomeOk_predOp h _ _ _
  | por _ _ => unfold exec execPor; exact outcomeOk_predOp h _ _ _
  | pxor _ _ => unfold exec execPxor; exact outcomeOk_predOp h _ _ _
  | pandn _ _ => unfold exec execPandn; exact outcomeOk_predOp h _ _ _
  | xfr _ _ => exact outcomeOk_execXfr h _ _
  | br _ _ => unfold exec execBr; exact outcomeOk_runNowOk h (by simp)
  | brz _ _ => unfold exec execBrz; exact outcomeOk_runNowOk h (mem_ite rfl rfl)
  | brnz _ _ => unfold exec execBrnz; exact outcomeOk_runNowOk h (mem_ite rfl rfl)
  | fwait _ _ => unfold exec execFwait; exact outcomeOk_runNowOk h (by simp)
  | fwaitC _ _ => unfold exec execFwaitC; exact outcomeOk_runNowOk h (by simp)
  | fwaitEq _ _ => unfold exec execFwaitEq; exact outcomeOk_runNowOk h (by simp)
  | fpost _ _ => unfold exec execFpost; exact outcomeOk_runNowOk h (by simp)
  | fset _ _ => unfold exec execFset; exact outcomeOk_runNowOk h (by simp)
  | fprobe _ _ => unfold exec execFprobe; exact outcomeOk_runNowOk h (by simp)
  | call _ _ => exact outcomeOk_execCall h _ _
  | ret _ => unfold exec execRet; exact outcomeOk_runNow h fun t ht => by rwa [memOk, mem_jumpReg ht]
  | jr _ _ => unfold exec execJr; exact outcomeOk_runNow h fun t ht => by rwa [memOk, mem_jumpReg ht]
  | loop _ _ => unfold exec execLoop; exact outcomeOk_runNow h fun _ ht => memOk_setUpLoop h ht
  | loopi _ _ => unfold exec execLoopi; exact outcomeOk_runNow h fun _ ht => memOk_setUpLoop h ht
  | mtcfg _ _ => exact outcomeOk_execMtcfg h _ _
  | dfpk _ _ => unfold exec execDfpk; exact outcomeOk_fieldOp h _ _ _
  | dfex _ _ => unfold exec execDfex; exact outcomeOk_fieldOp h _ _ _
  | dfexS _ _ => unfold exec execDfexS; exact outcomeOk_fieldOp h _ _ _
  | ldsp _ _ => exact outcomeOk_execLdsp h _ _
  | stsp _ _ => exact outcomeOk_execStsp h _ _
  | ld _ _ => exact outcomeOk_execLd h _ _
  | st _ _ => exact outcomeOk_execSt h _ _
  | atomAdd _ _ | atomAnd _ _ | atomOr _ _ | atomXor _ _ | atomSmin _ _ | atomSmax _ _ | atomUmin _ _ | atomUmax _ _ | atomSwap _ _ | atomCas _ _ =>
     unfold exec; exact outcomeOk_atomW h _ _ _
  | atomBfi _ _ => unfold exec execAtomBfi; exact outcomeOk_atomic h _ _ _ _ _ _ _ _ _ _
  | atomFfcs _ _ => unfold exec execAtomFfcs; exact outcomeOk_atomic h _ _ _ _ _ _ _ _ _ _
  | atomPlset _ _ => unfold exec execAtomPlset; exact outcomeOk_atomic h _ _ _ _ _ _ _ _ _ _
  | upd _ _ => exact outcomeOk_execUpd h _ _
  | pref _ _ => exact outcomeOk_execPref h _ _
  | waitline _ _ => exact outcomeOk_execWaitline h _ _
  | launch _ _ => exact outcomeOk_execLaunch h _ _
  | exit _ => exact outcomeOk_execExit h _
  | mfsr _ _ => exact outcomeOk_execMfsr h _ _
  | mfsrIo _ _ => exact outcomeOk_execMfsrIo h _ _
  | mtsr _ _ => exact outcomeOk_execMtsr h _ _
  | mtsrIo _ _ => exact outcomeOk_execMtsrIo h _ _
  | trap _ _ => exact outcomeOk_execTrap h _ _
  | eret _ => exact outcomeOk_execEret h _
  | sret _ => exact outcomeOk_execSret h _
  | tlbiAll _ _ | tlbiCtx _ _ | tlbiPage _ _ => exact outcomeOk_tlbi h _ _ _
  | cmntIcinv _ _ => unfold exec execCmntIcinv; exact outcomeOk_whenDone h _ _
  | cmntSdcinv _ _ => unfold exec execCmntSdcinv; exact outcomeOk_whenDone h _ _
  | cmntIcinvPkg _ _ =>
    unfold exec execCmntIcinvPkg; exact outcomeOk_checkedWhenDone h _ (fun s => raiseIf (!s.supervisor) 0x200#10) fun _ => .icinvPkg
  | cmntWbctx _ r =>
    unfold exec execCmntWbctx; exact outcomeOk_checkedWhenDone h _ (fun s => raiseIf (!s.supervisor) 0x200#10) fun s => .wbctx ((s.gpr .s r.a).toNat % 64)
  | cadv _ _ => exact outcomeOk_execCadv h _ _
  | aqp _ _ => unfold exec execAqp; exact outcomeOk_runLate h fun _ ht => memOk_pushAddrs h ht
  | aqpIdx _ _ => unfold exec execAqpIdx; exact outcomeOk_runLate h fun _ ht => memOk_pushAddrs h ht
  | aqps _ _ => exact outcomeOk_execAqps h _ _
  | vadd _ _ | vsub _ _ | vmul _ _ | vmulhs _ _ | vmulhu _ _ | vmin _ _ | vmax _ _ | vminu _ _ | vmaxu _ _ | vadds _ _ | vsubs _ _ | vaddus _ _
  | vsubus _ _ | vand _ _ | vor _ _ | vxor _ _ | vandn _ _ | vmulq _ _ | vshl _ _ | vshr _ _ | vsra _ _ | vrol _ _ =>
    unfold exec; exact outcomeOk_vInt3 h _ _ _
  | vabs _ _ | vneg _ _ | vmov _ _ => unfold exec; exact outcomeOk_vInt2 h _ _ _
  | vmac _ _ | vmacs _ _ => unfold exec; exact outcomeOk_vInt4 h _ _ _
  | vsel _ _ => unfold exec execVsel; exact outcomeOk_vecLand h _ _ _ _ _
  | vscanaddx _ _ => unfold exec execVscanaddx; exact outcomeOk_vecLand h _ _ _ _ _
  | vrev _ _ => unfold exec execVrev; exact outcomeOk_vecLand h _ _ _ _ _
  | vbcast _ _ => unfold exec execVbcast; exact outcomeOk_vecLand h _ _ _ _ _
  | vscanadd _ _ | vscanmax _ _ | vscanmin _ _ | vscanmaxu _ _ | vscanminu _ _ => unfold exec; exact outcomeOk_vScan h _ _ _
  | vperm _ _ | vzipl _ _ | vziph _ _ | vuzpe _ _ | vuzpo _ _ => unfold exec; exact outcomeOk_vPerm h _ _ _
  | vmacwl _ _ | vmacwh _ _ => exact outcomeOk_vWiden h _ _ _
  | vshlImm _ _ | vshrImm _ _ | vsraImm _ _ | vrolImm _ _ => exact outcomeOk_vShiftK h _ _ _
  | vcmp _ _ => exact outcomeOk_execVcmp h _ _
  | vfcmp _ _ => exact outcomeOk_execVfcmp h _ _
  | vfadd _ _ | vfsub _ _ | vfmul _ _ | vfdiv _ _ | vfma _ _ | vfms _ _ | vfnma _ _ | vfnms _ _ => unfold exec; exact outcomeOk_vFp3 h _ _ _
  | vfsqrt _ _ | vrcp _ _ | vrsqrt _ _ | vexp2 _ _ | vlog2 _ _ | vsinpi _ _ | vcospi _ _ | vtanh _ _ | vsigm _ _ =>
    unfold exec; exact outcomeOk_vFp2 h _ _ _ _
  | vfmin _ _ => unfold exec execVfmin; exact outcomeOk_vCodes h _ _ _ _ _ _
  | vfmax _ _ => unfold exec execVfmax; exact outcomeOk_vCodes h _ _ _ _ _ _
  | vfabs _ _ => unfold exec execVfabs; exact outcomeOk_vCodes h _ _ _ _ _ _
  | vfneg _ _ => unfold exec execVfneg; exact outcomeOk_vCodes h _ _ _ _ _ _
  | vcvt _ _ => exact outcomeOk_execVcvt h _ _
  | vqntE2m1s _ _ | vqntE4m3 _ _ | vqntE5m2 _ _ => exact outcomeOk_quantise h _ _ _
  | vdqnt _ _ => exact outcomeOk_execVdqnt h _ _
  | vradd _ _ => unfold exec execVradd; exact outcomeOk_vReduce h _ _ _
  | vrmin _ _ => unfold exec execVrmin; exact outcomeOk_vReduce h _ _ _
  | vrmax _ _ => unfold exec execVrmax; exact outcomeOk_vReduce h _ _ _
  | vrminu _ _ => unfold exec execVrminu; exact outcomeOk_vReduce h _ _ _
  | vrmaxu _ _ => unfold exec execVrmaxu; exact outcomeOk_vReduce h _ _ _
  | vrand _ _ => unfold exec execVrand; exact outcomeOk_vReduce h _ _ _
  | vror _ _ => unfold exec execVror; exact outcomeOk_vReduce h _ _ _
  | vrxor _ _ => unfold exec execVrxor; exact outcomeOk_vReduce h _ _ _
  | vrfadd _ _ => exact outcomeOk_execVrfadd h _ _
  | vrfmin _ _ => unfold exec execVrfmin; exact outcomeOk_vReduceF h _ _ _
  | vrfmax _ _ => unfold exec execVrfmax; exact outcomeOk_vReduceF h _ _ _
  | vscanfadd _ _ => exact outcomeOk_execVscanfadd h _ _
  | vrot _ _ => unfold exec execVrot; exact outcomeOk_vPermK h _ _ _
  | vsplat _ _ => unfold exec execVsplat; exact outcomeOk_vPermK h _ _ _
  | vext _ _ => exact outcomeOk_execVext h _ _
  | vrnd _ _ => exact outcomeOk_execVrnd h _ _
  | vtrd _ _ | vtrdReg _ _ => exact outcomeOk_rowRead h _ _ _ _ _ _
  | vtwr _ _ | vtwrReg _ _ => exact outcomeOk_rowWrite h _ _ _ _ _ _
  | vldsp _ _ => exact outcomeOk_execVldsp h _ _
  | vstsp _ _ => exact outcomeOk_execVstsp h _ _
  | vld _ _ => exact outcomeOk_execVld h _ _
  | vst _ _ => exact outcomeOk_execVst h _ _
  | vamoAdd _ _ | vamoAnd _ _ | vamoOr _ _ | vamoXor _ _ | vamoSmin _ _ | vamoSmax _ _ | vamoUmin _ _ | vamoUmax _ _ | vamoSwap _ _ =>
     exact outcomeOk_vamo h _ _ _
  | vupd _ _ => exact outcomeOk_execVupd h _ _
  | dqpop _ _ => exact outcomeOk_execDqpop h _ _
  | mldb _ _ => unfold exec execMldb; exact outcomeOk_arrayWait h (outcomeOk_mIssue h _ _ _)
  | mma _ _ => unfold exec execMma; exact outcomeOk_arrayWait h (outcomeOk_mIssue h _ _ _)
  | mmas _ _ => unfold exec execMmas; exact outcomeOk_arrayWait h (outcomeOk_mIssue h _ _ _)
  | mswap _ => exact outcomeOk_execMswap h _
  | mdrain _ _ => unfold exec execMdrain; exact outcomeOk_mIssue h _ _ _
  | mzacc _ _ => unfold exec execMzacc; exact outcomeOk_mIssue h _ _ _
  | mcv _ _ => unfold exec execMcv; exact outcomeOk_mIssue h _ _ _
  | mtrn _ _ => unfold exec execMtrn; exact outcomeOk_mIssue h _ _ _
  | mfill _ _ => unfold exec execMfill; exact outcomeOk_mIssue h _ _ _
  | mtcpy _ _ => unfold exec execMtcpy; exact outcomeOk_mIssue h _ _ _
  | kld _ _ => exact outcomeOk_execKld h _ _
  | kst _ _ => exact outcomeOk_execKst h _ _
  | kmov _ _ => exact outcomeOk_execKmov h _ _
  | kfill _ _ => exact outcomeOk_execKfill h _ _
  | kspr _ _ => unfold exec execKspr; exact outcomeOk_kSpares h _ _ _ _
  | ksprReg _ _ => unfold exec execKsprReg; exact outcomeOk_kSpares h _ _ _ _
  | cpy _ _ | gath _ _ | scat _ _ | cnput _ _ | cnget _ _ => exact outcomeOk_copyOp h _ _ _ _ _ _ _ _ _
  | tldi _ _ => exact outcomeOk_execTldi h _ _
  | tsti _ _ => exact outcomeOk_execTsti h _ _
  | cpub _ _ => exact outcomeOk_execCpub h _ _
  | stmap _ _ => exact outcomeOk_execStmap h _ _
  | stfl _ _ => exact outcomeOk_execStfl h _ _
  | chint _ _ => exact outcomeOk_execChint h _ _
  | dld _ _ => exact outcomeOk_execDld h _ _
  | dst _ _ => exact outcomeOk_execDst h _ _
  | wait _ _ => exact outcomeOk_execWait h _ _
  | rpost _ _ => unfold exec execRpost; exact outcomeOk_remotePost h _ _ _ _
  | rpostRel _ _ => unfold exec execRpostRel; exact outcomeOk_remotePost h _ _ _ _
  | rpostPred _ _ => unfold exec execRpostPred; exact outcomeOk_remotePost h _ _ _ _
  | barr _ _ => unfold exec execBarr; exact outcomeOk_runNow h fun t ht => by rwa [memOk, mem_barArrive ht]
  | bwait _ _ => exact outcomeOk_execBwait h _ _
  | rdv _ _ => exact outcomeOk_execRdv h _ _
  | fence _ _ => exact outcomeOk_execFence h _ _
  | chk _ _ => exact outcomeOk_execChk h _ _
  | fork _ _ => exact outcomeOk_execFork h _ _
  | fprobeF _ _ => exact outcomeOk_execFprobeF h _ _
  | hostLineCacheFill _ _ _ => exact outcomeOk_execHostLineCacheFill h _ _ _
  | powerLoss => exact outcomeOk_execPowerLoss h
theorem outcomeOk_slotRun (h : s.memOk) (q : SlotOp) : OutcomeOk (q.run s) := by
  rw [SlotOp.run_eq_exec]
  exact outcomeOk_execOther h (Row.instr_issuesBundle ..)
/-- The event that ends a bundle's turn is one of the steps, or nothing. -/
theorem ownEvent_cases (i : Instr) (s : State) : (Instr.issuesBundle i = false ∧ ownEvent i s = exec i s) ∨ ownEvent i s = .next s := by
  unfold ownEvent
  split
  case h_20 => exact .inr rfl
  all_goals exact .inl ⟨rfl, rfl⟩
theorem outcomeOk_ownEvent (h : s.memOk) (i : Instr) : OutcomeOk (ownEvent i s) := by
  obtain ⟨hi, he⟩ | he := ownEvent_cases i s
  · exact he ▸ outcomeOk_execOther h hi
  · exact he ▸ outcomeOk_next h
end State
end Sys2Proof.Machine
end

section
/-! SUPPORT. Outcomes that keep memory canonical: the sequencers and the step (R195-R219, R226, R338). -/
set_option Elab.async false
namespace Sys2Proof.Machine
open Sys2Proof
namespace State
variable {s : State}

/-! What a bundle waits for, its fetch and its operations (R208, R217, R226, R338). -/

theorem memOk_holdDone {core : Nat} {svc : Bool} {k : Hold} {t : State} (h : s.memOk) (ht : s.holdDone core svc k = some (.ok t)) : t.memOk := by
  have keeps {c : Prop} [Decidable c] {u : State} (hu : u.memOk) (ht : (if c then some (.ok u : Except TrapInfo State) else none) = some (.ok t)) : t.memOk := by
    split at ht <;> cases ht
    exact hu
  have keeps' {c : Prop} [Decidable c] {u : State} (hu : u.memOk) (ht : (if c then none else some (.ok u : Except TrapInfo State)) = some (.ok t)) :
      t.memOk := by
    split at ht <;> cases ht
    exact hu
  cases k with
  | tokens set baddr count =>
    replace ht := of_ite_eq ht
    rcases ht with ht | ht
    · cases ht
    split at ht <;> cases ht
    exact h
  | flagGe f n | flagEq f n | barrier g | rdv g => exact keeps h ht
  | flagGeSub f n => exact keeps (u := s.setCore core _) h ht
  | fence kinds scope cls seq => exact keeps' h ht
  | cpub buf seq => exact keeps' (u := s.setCore core _) h ht
  | launch _ _ _ => cases ht
  | sys op seq => exact keeps' (memOk_sysLate h core op) ht
theorem memOk_holdsGo {core : Nat} {svc : Bool} {l left : List Hold} {t : State} (h : s.memOk) (ht : s.holdsGo core svc l = .ok (t, left)) : t.memOk := by
  refine memOk_foldlBindIn Prod.fst (q := (s, [])) (fun {k q q'} hq hq' => ?_) h ht
  split at hq'
  · cases hq'; exact hq
  next u hu => cases hq'; exact memOk_holdDone hq (by split at hu <;> [cases hu; exact hu])
  · cases hq'
theorem memOk_fetchWords (h : s.memOk) (n : Nat) (w : Who) (va : Nat) : (fetchWords n s w va).2.memOk := by
  induction n generalizing s va with
  | zero => exact h
  | succ n ih =>
    rw [fetchWords]
    split
    next heq => exact memOk_of_eq heq (memOk_fetchWord h w va)
    next heq =>
      have hword := memOk_of_eq heq (memOk_fetchWord h w va)
      split
      next hrest => exact memOk_of_eq hrest (ih hword _)
      next hrest => exact memOk_of_eq hrest (ih hword _)
theorem memOk_fetchBundle (h : s.memOk) (w : Who) (a : Word) : (s.fetchBundle w a).2.memOk := by
  unfold fetchBundle
  split
  next heq => exact memOk_of_eq heq (memOk_fetchWord h w _)
  next heq =>
    have hword := memOk_of_eq heq (memOk_fetchWord h w _)
    dsimp only
    split
    · exact hword
    split
    next hrest => exact memOk_of_eq hrest (memOk_fetchWords hword _ w _)
    next hrest => exact memOk_of_eq hrest (memOk_fetchWords hword _ w _)
theorem memOk_nextWords (h : s.memOk) (core : Nat) : (s.nextWords core).2.memOk := by
  unfold nextWords wordsAt
  split
  · exact h
  · exact memOk_fetchBundle h _ _
theorem memOk_runOps {l : List SlotOp} {ts us : List TrapInfo} {t : State} (h : s.memOk) (ht : runOps l s ts = .next (t, us)) : t.memOk := by
  induction l generalizing s ts with
  | nil => cases ht; exact h
  | cons q l ih =>
    rw [runOps] at ht
    split at ht
    next u hu =>
      have hu := outcomeOk_slotRun h q u hu
      split at ht
      · cases ht; exact hu
      split at ht
      · exact ih (by exact h) ht
      · exact ih hu ht
    · cases ht
    · cases ht
@[simp] theorem mem_stalled (s : State) (core : Nat) : (s.stalled core).mem = s.mem := rfl
@[simp] theorem mem_issued (s : State) (core : Nat) (ws : List Word32) (b : Bundle) (l : List (SlotOp × Uses)) : (s.issued core ws b l).mem = s.mem :=
  (modCore_mem ..).trans (mem_spend ..)

/-! Commit (R217, R218). -/

theorem memOk_releaseOne (h : s.memOk) (core : Nat) (r : Rel) : (s.releaseOne core r).memOk := by
  unfold releaseOne
  split
  · rwa [memOk, mem_sendArrival]
  · exact memOk_startDeferred h core _
  · extract_lets send
    have hsend : ∀ u r, (send u r).mem = u.mem := fun _ _ => rfl
    clear_value send
    grind [memOk]
  · rwa [memOk, mem_prune]
theorem memOk_commit (h : s.memOk) (core : Nat) (addr : Word) : (s.commit core addr).memOk := by
  unfold commit
  extract_lets g
  split
  next t marks heq =>
  have ht : t.memOk := memOk_of_eq (q := Prod.swap (g.rel.foldl _ (s, []))) (congrArg Prod.swap heq)
    (memOk_foldlIn Prod.fst (q := (s, [])) (fun q r hq => memOk_releaseOne hq core r) g.rel h)
  exact memOk_foldl (fun u f hu => by rwa [memOk, mem_startFork]) g.forks (by rwa [memOk, modCore_mem])
theorem mem_stopAtCommit {core : Nat} {t : State} (ht : s.stopAtCommit core = some t) : t.mem = s.mem := by
  unfold stopAtCommit at ht
  grind [modCore_mem, mem_park]
@[simp] theorem mem_rdvGo (s : State) (core : Nat) (g : Option Nat) : (s.rdvGo core g).mem = s.mem := by
  unfold rdvGo
  grind [mem_arriveRdv]
@[simp] theorem mem_rdvStop (s : State) (core : Nat) : (s.rdvStop core).mem = s.mem := by
  unfold rdvStop
  exact mem_ite (mem_park ..) ((modCore_mem ..).trans (mem_freeForks ..))

/-! The issue of a bundle, and what a sequencer does in its turn. -/

theorem outcomeOk_quiet (h : s.memOk) : OutcomeOk (.next s.quiet) := outcomeOk_nextMem h (quiet_mem s)
theorem outcomeOk_trapped (h : s.memOk) (t : TrapInfo) : OutcomeOk (.next (s.takeTrap t).quiet) := outcomeOk_quiet (by rwa [memOk, mem_takeTrap])

theorem outcomeOk_fault (f : Fault) : OutcomeOk (.fault f) := fun _ ht => by cases ht
theorem outcomeOk_refused (f : Refusal) : OutcomeOk (.refused f) := fun _ ht => by cases ht
theorem outcomeOk_runBundle {s0 : State} (h0 : s0.memOk) (h : s.memOk) (core : Nat) (ws : List Word32) (b : Bundle) (l : List (SlotOp × Uses)) :
    OutcomeOk (s.runBundle s0 core ws b l) := by
  unfold runBundle
  extract_lets pushes group
  split
  · exact outcomeOk_fault _
  · exact outcomeOk_refused _
  next t ts heq =>
    have ht : t.memOk := memOk_runOps h heq
    split
    · exact outcomeOk_nextMem h0 (mem_ite ((mem_stalled ..).trans (modCore_mem ..)) ((quiet_mem _).trans (modCore_mem ..)))
    split
    · exact outcomeOk_trapped (memOk_redo h _) _
    · exact outcomeOk_quiet (by rwa [memOk, mem_issued])
theorem outcomeOk_issueBundle (h : s.memOk) (core : Nat) : OutcomeOk (s.issueBundle core) := by
  unfold issueBundle
  extract_lets c0 src s1 iss
  have h1 : s1.memOk := h
  clear_value s1
  split
  next heq => exact outcomeOk_trapped (memOk_of_eq heq (memOk_nextWords h1 core)) _
  next ws s2 heq =>
  have h2 : s2.memOk := memOk_of_eq heq (memOk_nextWords h1 core)
  split
  · exact outcomeOk_trapped h2 _
  next b hb =>
  extract_lets ds c s3 l ops group rdv same s4 s5 back
  have h3 : s3.memOk := h2
  have h4 : s4.memOk := memOk_ite h3 (memOk_commit h3 core _)
  have h5 : s5.memOk := by rwa [memOk, mem_rdvGo]
  clear_value s3 group rdv same s4 s5
  split
  · exact outcomeOk_nextMem h ((mem_stalled ..).trans (mem_ite (modCore_mem ..) rfl))
  split
  · exact outcomeOk_trapped h3 _
  split
  · exact outcomeOk_trapped h3 _
  split
  · split
    · exact outcomeOk_trapped h3 _
    · exact outcomeOk_runBundle h h3 _ _ _ _
  split
  · exact outcomeOk_nextMem h (mem_stalled ..)
  · exact outcomeOk_trapped h3 _
  split
  next u hu =>
    refine outcomeOk_quiet ?_
    split at hu
    · rwa [memOk, mem_stopAtCommit hu]
    split at hu <;> cases hu
    exact memOk_graceExpire h4 core
  exact outcomeOk_runBundle (s0 := back) (memOk_ite h h5) (by exact h5) _ _ _ _
theorem outcomeOk_exitStep (h : s.memOk) (core : Nat) : OutcomeOk (s.exitStep core) := by
  unfold exitStep
  extract_lets pc s1 s2 s3 s4 c
  have h2 : s2.memOk := memOk_commit h core pc
  have h4 : s4.memOk := by rwa [memOk, mem_tileDone, modCore_mem]
  clear_value s4
  split
  · exact outcomeOk_nextMem h (mem_stalled ..)
  · exact outcomeOk_trapped (s := s1) h _
  split
  · refine outcomeOk_next ?_
    cases hu : s4.stopAtCommit core with
    | none => exact h4
    | some u => exact (congrArg Memory.wf (mem_stopAtCommit hu)).trans h4
  split
  next hu => exact outcomeOk_nextMem h4 ((modCore_mem ..).trans (mem_stopAtCommit hu))
  · exact outcomeOk_next h4
theorem memOk_runAhead (h : s.memOk) (core : Nat) (ready : State → Bool) (n : Nat) : (runAhead core ready n s).memOk := by
  induction n generalizing s with
  | zero => exact h
  | succ n ih =>
    rw [runAhead]
    split
    · exact h
    split
    next t ht =>
      obtain ⟨i, -, hi⟩ := List.exists_of_findSome?_eq_some ht
      split at hi
      next u hu =>
        split at hi <;> cases hi
        exact ih (outcomeOk_ownEvent h i _ hu)
      · cases hi
    split
    · exact ih (by rwa [memOk, mem_idleCycle, modCore_mem])
    · exact h
theorem outcomeOk_mainTurn (h : s.memOk) (core : Nat) : OutcomeOk (s.mainTurn core) := by
  unfold mainTurn
  extract_lets c s1 s2 fresh
  have h1 : s1.memOk := h
  have h2 : s2.memOk := memOk_runAhead h1 ..
  clear_value s1 s2
  split
  · exact outcomeOk_next h
  split
  · exact outcomeOk_nextMem h (modCore_mem ..)
  split
  · exact outcomeOk_next h1
  split
  · split
    · exact outcomeOk_next h2
    split
    · exact outcomeOk_next (memOk_graceExpire h2 core)
    · exact outcomeOk_issueBundle h2 core
  split
  · exact outcomeOk_next h1
  split
  · exact outcomeOk_nextMem h1 (mem_ite ((modCore_mem ..).trans (mem_park ..)) (mem_park ..))
  next t left heq =>
  extract_lets s3
  have h3 : s3.memOk := memOk_holdsGo (t := t) h1 heq
  clear_value s3
  split
  · split
    · exact outcomeOk_nextMem h3 (mem_rdvStop ..)
    split
    · exact outcomeOk_next (memOk_switchOut (by rwa [memOk, mem_preemptRoll]) core)
    · exact outcomeOk_next h3
  split
  · exact outcomeOk_exitStep h3 core
  split
  · exact outcomeOk_nextMem h3 (mem_energyStall ..)
  split
  · exact outcomeOk_next h3
  split
  · exact outcomeOk_next (memOk_graceExpire h3 core)
  · exact outcomeOk_issueBundle h3 core
theorem outcomeOk_svcTurn (h : s.memOk) (core : Nat) : OutcomeOk (s.svcTurn core) := by
  unfold svcTurn
  extract_lets c
  split
  · exact outcomeOk_next h
  split
  · exact outcomeOk_next h
  next t left heq =>
  have ht : t.memOk := memOk_holdsGo h heq
  extract_lets s1 src s2
  have h2 : s2.memOk := ht
  clear_value s2
  split
  · exact outcomeOk_next ht
  split
  next hf => exact outcomeOk_trapped (memOk_of_eq hf (memOk_fetchBundle h2 ..)) _
  next ws s3 hf =>
  have h3 : s3.memOk := memOk_of_eq hf (memOk_fetchBundle h2 ..)
  extract_lets hd
  split
  · exact outcomeOk_trapped h3 _
  next b hb =>
  extract_lets ds s4 l
  have h4 : s4.memOk := h3
  clear_value s4
  split
  · exact outcomeOk_trapped h4 _
  split
  · exact outcomeOk_trapped h4 _
  split
  · exact outcomeOk_fault _
  · exact outcomeOk_refused _
  next u ts hrun =>
  have hu : u.memOk := memOk_runOps h4 hrun
  split
  · exact outcomeOk_next h
  split
  · exact outcomeOk_trapped (memOk_redo h4 _) _
  · extract_lets pc
    exact outcomeOk_quiet (by rwa [memOk, modCore_mem, mem_spend])
theorem outcomeOk_execCheckpointBoundOverrun (h : s.memOk) (core : Nat) : OutcomeOk (execCheckpointBoundOverrun core s) := by
  unfold execCheckpointBoundOverrun
  split
  · exact outcomeOk_mainTurn h _
  · exact outcomeOk_next h
theorem outcomeOk_exec (h : s.memOk) (i : Instr) : OutcomeOk (exec i s) := by
  cases hi : Instr.issuesBundle i with
  | false => exact outcomeOk_execOther h hi
  | true =>
    unfold Instr.issuesBundle at hi
    split at hi
    case h_1 core => exact outcomeOk_mainTurn h _
    case h_2 core => exact outcomeOk_svcTurn h _
    case h_3 core => exact outcomeOk_execCheckpointBoundOverrun h _
    case h_4 => cases hi

/-! The package's own moves, and the step. -/

theorem memOk_ownMove {t : State} (h : s.memOk) (ht : s.ownMove = some t) : t.memOk := by
  unfold ownMove at ht
  split at ht
  · cases ht; exact memOk_fsqNext h
  split at ht
  · cases ht; rwa [memOk, mem_stopNext]
  split at ht
  · cases ht; exact memOk_fsqHeld h _
  split at ht
  · cases ht; rwa [memOk, mem_drainPosts]
  · exact memOk_streamMove h ht
theorem outcomeOk_firstMove {l : List Instr} {o : Out} (h : s.memOk) (ho : s.firstMove l = some o) : OutcomeOk o := by
  induction l with
  | nil => cases ho
  | cons i l ih =>
    rw [firstMove] at ho
    have hi := outcomeOk_exec h i
    split at ho
    next t ht =>
      split at ho
      · exact ih ho
      · cases ho; rwa [ht] at hi
    · cases ho; exact hi
theorem outcomeOk_takeTurn (h : s.memOk) (core : Nat) : OutcomeOk (s.takeTurn core) := by
  unfold takeTurn
  extract_lets s1 busy
  have hmain : OutcomeOk (exec (.bundleIssue core) s1) := outcomeOk_exec (s := s1) h _
  split
  next t ht =>
    have ht : t.memOk := hmain t ht
    split
    · exact outcomeOk_exec ht _
    · exact outcomeOk_next ht
  · exact hmain
theorem outcomeOk_goOn (h : s.memOk) : OutcomeOk s.goOn := by
  unfold goOn
  split
  · split
    · exact outcomeOk_exec h _
    · exact outcomeOk_next h
  split
  next ht => exact outcomeOk_next (memOk_ownMove h ht)
  split
  next ho => exact outcomeOk_firstMove h ho
  split
  · exact outcomeOk_takeTurn (memOk_ite (by rwa [memOk, mem_idleCycle]) h) _
  · exact outcomeOk_nextMem h (mem_idleCycle _)
theorem outcomeOk_step (h : s.memOk) : OutcomeOk (step s) := by
  unfold step advance
  split
  · split
    · exact outcomeOk_fault _
    split
    · exact outcomeOk_nextMem h (passTime_mem _)
    · exact outcomeOk_exec (by exact h) _
  · exact outcomeOk_goOn (by exact h)
end State
end Sys2Proof.Machine

namespace Sys2Proof.Proofs
open Sys2Proof Sys2Proof.Machine

/-- Settles O52: the step's cases end in operations that write memory by `writePhys` alone, filter it, or leave it. -/
theorem memoryStaysCanonical : Obligations.MemoryStaysCanonical := by
  unfold Obligations.MemoryStaysCanonical
  intro s t h ht
  exact State.outcomeOk_step h t ht

end Sys2Proof.Proofs
end

section
/-! SUPPORT. Global loads and stores at issue (R172, R374, R377, R378, R380). -/
set_option Elab.async false
namespace Sys2Proof.Machine
open Sys2Proof

/-! The mask of a vector register (R378). -/

theorem spread_succ (n m : Nat) : spread (n + 1) m = 2 ^ (8 * n) * (if m.testBit n then 255 else 0) + spread n m := by
  unfold spread
  rw [List.range_succ, List.filter_append, List.foldl_append]
  cases hm : m.testBit n
  · simp [hm]
  · simp [hm]; ring
theorem spread_lt (n m : Nat) : spread n m < 2 ^ (8 * n) := by
  induction n with
  | zero => exact Nat.one_pos
  | succ n ih =>
    have hle : 2 ^ (8 * n) * (if m.testBit n then 255 else 0) ≤ 2 ^ (8 * n) * 255 := Nat.mul_le_mul_left _ (by split <;> decide)
    rw [spread_succ, Nat.mul_succ, Nat.pow_add]
    omega
/-- Each byte of the mask stands eight times in it. -/
theorem testBit_spread (n m i : Nat) : (spread n m).testBit i = (decide (i / 8 < n) && m.testBit (i / 8)) := by
  induction n with
  | zero => simp [spread]
  | succ n ih =>
    rw [spread_succ, Nat.testBit_two_pow_mul_add _ (spread_lt n m), ih]
    split
    next hi => simp [show i / 8 < n by omega, show i / 8 < n + 1 by omega]
    next hi =>
      rw [Nat.not_lt] at hi
      by_cases hlast : i / 8 = n
      · subst hlast
        have hbyte : Nat.testBit 255 (i - 8 * (i / 8)) = true := by
          rw [show (255 : Nat) = 2 ^ 8 - 1 from rfl, Nat.testBit_two_pow_sub_one]
          simp
          omega
        cases hm : m.testBit (i / 8) <;> simp [hbyte]
      · have habove : Nat.testBit 255 (i - 8 * n) = false := by
          rw [show (255 : Nat) = 2 ^ 8 - 1 from rfl, Nat.testBit_two_pow_sub_one]
          simp
          omega
        rw [show decide (i / 8 < n + 1) = false by simp; omega]
        cases hm : m.testBit n <;> simp [habove]
theorem getLsbD_spread (n m : Nat) {i : Nat} (hi : i < 1024) :
    (BitVec.ofNat 1024 (spread n m)).getLsbD i = (decide (i / 8 < n) && m.testBit (i / 8)) := by
  rw [BitVec.getLsbD_ofNat, testBit_spread]
  simp [hi]

/-! Global loads and stores at issue (R374, R377, R380). -/

/-- A load that waits with its pieces. -/
def State.queuedLoad (s : State) (o : OpInfo) (dst : LoadDst) (ps : List Piece) (tok cls u : Nat) : State :=
  ({ s with seq := s.seq + 1 } : State).modCur fun c => { c.arrivalDue o.arr s.seq with
    loads := c.loads ++ [{ seq := s.seq, tok, dst, pieces := ps, cls, u, relN := s.issue.relN, arr := o.arr, site := (s.issue.haddr, s.cur.seg.count) }] }

section
variable {s t t1 t2 : State} {o : OpInfo}

theorem State.startLoad_ok {ps : List Piece} {dst : LoadDst} {tok cls u : Nat} (htok : s.tokAdd tok 1 = .ok t1) (hstash : t1.stashFor ps = .ok t2) :
    s.startLoad o ps dst tok cls u = .ok (t2.queuedLoad o dst ps tok cls u) := by
  unfold State.startLoad
  rw [htok]
  change (do let s ← t1.stashFor ps; _) = _
  rw [hstash]
  rfl
theorem State.svcLoad_ok {ps : List Piece} {d : BitVec 5} {n u : Nat} {sx : Bool} {l : List (Nat × List Byte)}
    (hmeets : s.meetsFlight s.issue.core false ps = false) (hstash : s.stashFor ps = .ok t1)
    (hread : t1.readPieces t1.who (t1.flyingOf t1.issue.core) u true ps = ((0, l), t2)) :
    s.svcLoad ps d n u sx = .ok ((t2.touch (ps.map fun p => .piece p u true)).landG .s d (loadValue sx n (bytesOf n (placed l)))) := by
  simp only [State.svcLoad, hmeets, hstash, hread, bind, Except.bind, Bool.false_eq_true, if_false, ne_eq, not_true_eq_false]

section
variable {r : GlLoad} {ps : List Piece} (hg : s.guard0 o = true) (harr : s.arrivalOk o.arr)
  (hx : s.xlateR .load (s.scalarAddr r.am r.z r.base r.ix r.disp).toNat (2 ^ r.z.toNat) = .ok (ps, t))
include hg harr hx

theorem exec_ld_main (hsvc : t.issue.svc = false) (htok : t.tokAdd r.tok.toNat 1 = .ok t1) (hstash : t1.stashFor ps = .ok t2) :
    exec (.ld o r) s = .next (t2.queuedLoad o (.s r.d.toNat r.z.toNat (r.sx == 1)) ps r.tok.toNat r.cls.toNat r.u.toNat) := by
  rw [exec_ld, execLd]
  refine State.runLate_true hg harr ?_
  simp only [sizeOf, hx, hsvc, bind, Except.bind, Bool.false_eq_true, if_false]
  exact State.startLoad_ok htok hstash
theorem exec_ld_svc {l : List (Nat × List Byte)} (hsvc : t.issue.svc = true) (hmeets : t.meetsFlight t.issue.core false ps = false)
    (hstash : t.stashFor ps = .ok t1) (hread : t1.readPieces t1.who (t1.flyingOf t1.issue.core) r.u.toNat true ps = ((0, l), t2)) :
    exec (.ld o r) s = .next ((t2.touch (ps.map fun p => .piece p r.u.toNat true)).landG .s r.d
      (loadValue (r.sx == 1) (2 ^ r.z.toNat) (bytesOf (2 ^ r.z.toNat) (placed l)))) := by
  rw [exec_ld, execLd]
  refine State.runLate_true hg harr ?_
  simp only [sizeOf, hx, hsvc, bind, Except.bind, if_true]
  exact State.svcLoad_ok hmeets hstash hread

end

theorem exec_st_ok {r : SpStore} {ps : List Piece} (hg : s.guard0 o = true)
    (hx : s.xlateR .store (s.scalarAddr r.am r.z r.base r.ix r.disp).toNat (2 ^ r.z.toNat) = .ok (ps, t))
    (hstore : t.storePieces ps (t.gpr .s r.d).toNat (2 ^ 2 ^ r.z.toNat - 1) r.cls.toNat = .ok t1) (harr : t1.arrivalOk o.arr) :
    exec (.st o r) s = .next (t1.arrival o.arr) := by
  rw [exec_st, execSt]
  refine State.runNow_true hg ?_ harr
  simp only [sizeOf, hx, bind, Except.bind]
  exact hstore
theorem exec_vld_idle {r : VLoad} (harr : s.arrivalOk o.arr) (hmask : s.activeBytes o (8 * 2 ^ r.g.toNat) (32 * 2 ^ r.sz.toNat) = 0) :
    exec (.vld o r) s = .next (s.arrival o.arr) := by
  rw [exec_vld, execVld]
  simp only [lenOf, widthOf, hmask, if_true, State.arriveNow_ok harr, finish]
theorem exec_vld_active {r : VLoad} {ps : List Piece} (harr : s.arrivalOk o.arr)
    (hmask : s.activeBytes o (8 * 2 ^ r.g.toNat) (32 * 2 ^ r.sz.toNat) ≠ 0)
    (hx : s.xlateTouched .load (s.vectorAddr r.base r.ix r.idx r.disp).toNat (32 * 2 ^ r.sz.toNat)
      (s.activeBytes o (8 * 2 ^ r.g.toNat) (32 * 2 ^ r.sz.toNat)) = .ok (ps, t))
    (htok : t.tokAdd r.tok.toNat 1 = .ok t1) (hstash : t1.stashFor ps = .ok t2) :
    exec (.vld o r) s = .next (t2.queuedLoad o
      (.v r.d.toNat (BitVec.ofNat 1024 (spread (32 * 2 ^ r.sz.toNat) (s.activeBytes o (8 * 2 ^ r.g.toNat) (32 * 2 ^ r.sz.toNat)))))
      ps r.tok.toNat r.cls.toNat r.u.toNat) := by
  rw [exec_vld, execVld]
  simp only [lenOf, widthOf, hmask, if_false, State.arriveCheck_ok harr, hx, bind, Except.bind, State.startLoad_ok htok hstash, finish]
  rfl
theorem exec_vst_idle {r : VSp} (harr : s.arrivalOk o.arr) (hmask : s.activeBytes o (8 * 2 ^ r.g.toNat) (32 * 2 ^ r.sz.toNat) = 0) :
    exec (.vst o r) s = .next (s.arrival o.arr) := by
  rw [exec_vst, execVst]
  refine State.runEach_ok ?_ harr
  simp only [lenOf, widthOf, hmask, if_true]
theorem exec_vst_active {r : VSp} {ps : List Piece} (hmask : s.activeBytes o (8 * 2 ^ r.g.toNat) (32 * 2 ^ r.sz.toNat) ≠ 0)
    (hx : s.xlateTouched .store (s.vectorAddr r.base r.ix r.idx r.disp).toNat (32 * 2 ^ r.sz.toNat)
      (s.activeBytes o (8 * 2 ^ r.g.toNat) (32 * 2 ^ r.sz.toNat)) = .ok (ps, t))
    (hstore : t.storePieces ps (t.cur.rV r.d.toNat).toNat (s.activeBytes o (8 * 2 ^ r.g.toNat) (32 * 2 ^ r.sz.toNat)) r.cls.toNat = .ok t1)
    (harr : t1.arrivalOk o.arr) : exec (.vst o r) s = .next (t1.arrival o.arr) := by
  rw [exec_vst, execVst]
  refine State.runEach_ok ?_ harr
  simp only [lenOf, widthOf, hmask, if_false, hx, bind, Except.bind]
  exact hstore

end
end Sys2Proof.Machine

namespace Sys2Proof.Proofs
open Sys2Proof Sys2Proof.Machine

/-- Settles O13: each access, its checks passed, is its shared operation (startLoad, svcLoad, storePieces) on what the translation left. -/
theorem globalAccessResults : Obligations.GlobalAccessResults := by
  unfold Obligations.GlobalAccessResults
  intro o s harr queued
  refine ⟨fun r ps t t1 t2 hg hx => ⟨fun _ hsvc htok hstash => exec_ld_main hg harr hx hsvc htok hstash,
      fun hsvc hmeets hstash l hread => exec_ld_svc hg harr hx hsvc hmeets hstash hread⟩,
    fun r ps t t1 hg hx hstore harr1 => exec_st_ok hg hx hstore harr1, ?_, ?_⟩
  · intro r _ n mask
    refine ⟨exec_vld_idle harr, fun ps t t1 t2 hmask hx htok hstash => ⟨_, fun i hi => getLsbD_spread n mask hi, exec_vld_active harr hmask hx htok hstash⟩⟩
  · intro r _ n mask
    exact ⟨exec_vst_idle harr, fun ps t t1 hmask hx hstore harr1 => exec_vst_active hmask hx hstore harr1⟩

end Sys2Proof.Proofs
end

section
/-! SUPPORT. A line that stands whole in L2 (R136, R142-R145, R168): what an access leaves of it and of memory. -/
set_option Elab.async false
namespace Sys2Proof.Machine
open Sys2Proof

/-! A line that stands whole in L2 (R136, R142-R145, R168): what an access to it leaves of it and of memory. -/

namespace State

/-- A line with both sectors valid, no pending update and no error anywhere in L2, at a slice that lives on. -/
structure LineStands (line : Nat) (s : State) : Prop where
  err : s.l2Err = []
  cor : s.l2Cor = []
  lives : s.sliceDue (s.home line) = false
  stands : ∃ n l, s.lineOf line = some (n, l) ∧ l.valid = 3 ∧ l.u = false

/-- What decides where a line stands, and the errors of L2. -/
structure SameLines (s t : State) : Prop extends SameHome s t where
  err : t.l2Err = s.l2Err
  cor : t.l2Cor = s.l2Cor

theorem SameLines.refl (s : State) : SameLines s s := ⟨⟨rfl, rfl, rfl, rfl, rfl⟩, rfl, rfl⟩
theorem SameLines.trans {s t u : State} (h : SameLines s t) (k : SameLines t u) : SameLines s u :=
  ⟨⟨k.mem.trans h.mem, k.io.trans h.io, k.l2.trans h.l2, k.blaze.trans h.blaze, k.deck.trans h.deck⟩, k.err.trans h.err, k.cor.trans h.cor⟩
theorem SameLines.cond {s t u : State} (c : Prop) [Decidable c] (ht : SameLines s t) (hu : SameLines s u) : SameLines s (if c then t else u) := by
  split
  · exact ht
  · exact hu
theorem SameLines.lineOf {s t : State} (h : SameLines s t) (line : Nat) : t.lineOf line = s.lineOf line := by
  rw [State.lineOf, State.lineOf, h.wayOf, h.home, h.l2]
theorem LineStands.of_same {s t : State} {line : Nat} (hs : s.LineStands line) (h : SameLines s t) : t.LineStands line :=
  ⟨h.err.trans hs.err, h.cor.trans hs.cor, by rw [h.home, h.sliceDue]; exact hs.lives, by rw [h.lineOf]; exact hs.stands⟩

theorem lineOf_some {s : State} {line n : Nat} {l : L2Line} :
    s.lineOf line = some (n, l) ↔ ∃ w, s.wayOf line = some w ∧ wayNo (setNo (s.home line) (l2Set line)) w = n ∧ s.l2.get? n = some l := by
  unfold lineOf
  cases s.wayOf line with
  | none => simp
  | some w =>
    simp only [Option.map_eq_some_iff, Prod.mk.injEq, Option.some.injEq]
    constructor
    · rintro ⟨k, hk, rfl, rfl⟩; exact ⟨w, rfl, rfl, hk⟩
    · rintro ⟨w, rfl, rfl, hk⟩; exact ⟨l, hk, rfl, rfl⟩
theorem tag_of_lineOf {s : State} {line n : Nat} {l : L2Line} (h : s.lineOf line = some (n, l)) : l.tag = line := by
  obtain ⟨w, hw, rfl, hl⟩ := lineOf_some.mp h
  have hfound := List.find?_some hw
  rw [hl] at hfound
  exact eq_of_beq hfound
/-- A change of a line in its way, its tag kept, moves no line. -/
theorem lineOf_put {s : State} {line n : Nat} {l k : L2Line} (h : s.lineOf line = some (n, l)) (htag : k.tag = l.tag) :
    ({ s with l2 := s.l2.ins n k } : State).lineOf line = some (n, k) := by
  obtain ⟨w, hw, rfl, hl⟩ := lineOf_some.mp h
  refine lineOf_some.mpr ⟨w, ?_, rfl, SMap.get?_ins_self ..⟩
  have hsame (v : Nat) : (match (s.l2.ins (wayNo (setNo (s.home line) (l2Set line)) w) k).get? (wayNo (setNo (s.home line) (l2Set line)) v) with
      | some l => l.tag == line | none => false) = (match s.l2.get? (wayNo (setNo (s.home line) (l2Set line)) v) with | some l => l.tag == line | none => false) := by
    by_cases hv : wayNo (setNo (s.home line) (l2Set line)) v = wayNo (setNo (s.home line) (l2Set line)) w
    · rw [hv, SMap.get?_ins_self, hl]; simp only [htag]
    · rw [SMap.get?_ins_ne _ _ (Ne.symm hv)]
  exact (congrArg (fun p => (List.range 16).find? p) (funext hsame)).trans hw
theorem LineStands.put {s : State} {line n : Nat} {l k : L2Line} (hs : s.LineStands line) (h : s.lineOf line = some (n, l)) (htag : k.tag = l.tag)
    (hvalid : k.valid = 3) (hu : k.u = false) : ({ s with l2 := s.l2.ins n k } : State).LineStands line :=
  ⟨hs.err, hs.cor, hs.lives, n, k, lineOf_put h htag, hvalid, hu⟩

theorem readySlice_of_stands {s : State} {line : Nat} (h : s.LineStands line) : s.readySlice line = s := retireSlice_of_lives h.lives
theorem applyLine_of_stands {s : State} {line : Nat} (h : s.LineStands line) : s.applyLine line = s := by
  obtain ⟨n, l, hl, -, hu⟩ := h.stands
  simp only [applyLine, hl, hu, Bool.false_eq_true, if_false]
theorem forgetWords_same {s : State} (herr : s.l2Err = []) (hcor : s.l2Cor = []) (l : List Nat) : SameLines s (s.forgetWords l) := by
  have hdel : l.foldl SMap.del ([] : SMap Unit) = [] := by
    induction l with
    | nil => rfl
    | cons w l ih => exact ih
  refine ⟨⟨rfl, rfl, rfl, rfl, rfl⟩, ?_, ?_⟩
  · change l.foldl SMap.del s.l2Err = _
    rw [herr, hdel]
  · change l.foldl SMap.del s.l2Cor = _
    rw [hcor, hdel]
theorem checkErr_of_stands {s : State} {line : Nat} (h : s.LineStands line) (i : Nat) (a : L2Acc) : s.checkErr line i a = s := by
  obtain ⟨n, l, hl, -, -⟩ := h.stands
  have herr : errIn s.l2Err (line * 2 + i) = false := by rw [h.err]; rfl
  have hcor : errIn s.l2Cor (line * 2 + i) = false := by rw [h.cor]; rfl
  simp only [checkErr, hl, herr, hcor, Bool.and_false, Bool.false_eq_true, if_false, Bool.not_false, if_true]
theorem needSector_same {s : State} {line i : Nat} (h : s.LineStands line) (hi : i < 2) (a : L2Acc) : SameLines s (s.needSector line i a) := by
  unfold needSector
  extract_lets sec src s1 blind s2
  refine .cond _ (.refl s) (.cond _ ((forgetWords_same h.err h.cor _).trans ⟨⟨rfl, rfl, rfl, rfl, rfl⟩, rfl, rfl⟩) ?_)
  have h1 : SameLines s s1 := .cond _ (forgetWords_same h.err h.cor _) (.refl s)
  have hs1 := h.of_same h1
  clear_value s1
  have h2 : s2 = s1 := by
    unfold s2
    split
    · rfl
    · exact checkErr_of_stands hs1 i a
  obtain ⟨n, l, hl, hvalid, -⟩ := hs1.stands
  have hbit : l.valid.getLsbD i = true := by
    rw [hvalid]
    obtain rfl | rfl : i = 0 ∨ i = 1 := by omega
    · rfl
    · rfl
  rw [h2, hl]
  simp only [hbit, Bool.true_or, if_true]
  exact h1
theorem storeBelow_same (s : State) (sec slot : Nat) : SameLines s (s.storeBelow sec slot) := by
  unfold storeBelow encrypt
  split <;> exact ⟨⟨rfl, rfl, rfl, rfl, rfl⟩, rfl, rfl⟩
theorem keepBelow_same (s : State) (k : Nat) : SameLines s (s.keepBelow k) := by
  unfold keepBelow
  exact .cond _ (.refl s) ⟨⟨rfl, rfl, rfl, rfl, rfl⟩, rfl, rfl⟩

/-- The line stands, and memory holds `m`. -/
def StandsOver (line : Nat) (m : SMap Byte) (s : State) : Prop := s.LineStands line ∧ s.mem = m
theorem StandsOver.of_same {line : Nat} {m : SMap Byte} {s t : State} (h : s.StandsOver line m) (k : SameLines s t) : t.StandsOver line m :=
  ⟨h.1.of_same k, k.mem.trans h.2⟩

theorem wroteSector_stands {s : State} {line i : Nat} {m : SMap Byte} (h : s.StandsOver line m) (hi : i < 2) (a : L2Acc) :
    (s.wroteSector line i a).StandsOver line m := by
  obtain ⟨n, l, hl, hvalid, hu⟩ := h.1.stands
  have hbit : l.valid.getLsbD i = true := by
    rw [hvalid]
    obtain rfl | rfl : i = 0 ∨ i = 1 := by omega
    · rfl
    · rfl
  unfold wroteSector
  rw [hl]
  extract_lets sec one s1 s2 s3
  have h1 : SameLines s s1 := .cond _ ⟨⟨rfl, rfl, rfl, rfl, rfl⟩, rfl, rfl⟩ (.refl s)
  clear_value s1
  have h2 : SameLines s s2 := h1.trans (storeBelow_same ..)
  have h3 : SameLines s s3 := h1.trans (keepBelow_same ..)
  have hs2 := h.of_same h2
  have hs3 := h.of_same h3
  simp only [hbit, Bool.not_true, Bool.and_false, Bool.false_eq_true, if_false]
  split
  · exact h
  split
  · exact ⟨hs2.1.put (k := { l with dirty := l.dirty &&& ~~~one }) ((h2.lineOf line).trans hl) rfl hvalid hu, hs2.2⟩
  · refine ⟨hs3.1.put ((h3.lineOf line).trans hl) ?_ ?_ ?_, hs3.2⟩
    · rfl
    · change l.valid ||| one = 3
      unfold one
      rw [hvalid]
      obtain rfl | rfl : i = 0 ∨ i = 1 := by omega
      · rfl
      · rfl
    · exact hu
theorem l2Access_stands {s : State} {line : Nat} {m : SMap Byte} (h : s.StandsOver line m) {a : L2Acc} (htier : tierOf (line * 64) = .hbm)
    (hresv : a.resv = false) : (s.l2Access line a).StandsOver line m := by
  have hit {t : State} (ht : t.LineStands line) : (t.wayOf line).isSome = true ∧ (t.wayOf line).isNone = false := by
    obtain ⟨n, l, hl, -, -⟩ := ht.stands
    obtain ⟨w, hw, -, -⟩ := lineOf_some.mp hl
    exact ⟨by rw [hw]; rfl, by rw [hw]; rfl⟩
  unfold l2Access
  extract_lets s1 s2 s3 found kept s4 s5 gone lost s6 s7 s8 s9
  have hs3 : s3 = s := by
    have h1 : s1 = s := readySlice_of_stands h.1
    have h2 : s2 = s := by
      unfold s2
      rw [h1, htier]
      simp only [reduceCtorEq, decide_false, Bool.and_false, Bool.false_eq_true, if_false]
    exact (congrArg (State.applyLine · line) h2).trans (applyLine_of_stands h.1)
  have hfound : found = true := by
    unfold found
    rw [hs3]
    exact (hit h.1).1
  have hstay (t : State) (ht : t.StandsOver line m) : gone t = false := by
    unfold gone
    simp only [(hit ht.1).2, Bool.and_false]
  have h4 : s4.StandsOver line m := by
    unfold s4
    rw [hfound, hs3]
    exact h
  have h5 : s5.StandsOver line m := h4.of_same (needSector_same h4.1 (by decide) a)
  have h6 : s6.StandsOver line m := by
    unfold s6 lost
    rw [hstay s5 h5]
    exact h5
  have h7 : s7.StandsOver line m := h6.of_same (needSector_same h6.1 (by decide) a)
  have h8 : s8.StandsOver line m := by
    unfold s8
    rw [hstay s7 h7, Bool.and_false]
    exact h7
  have h9 : s9.StandsOver line m := by
    obtain ⟨n, l, hl, hvalid, hu⟩ := h8.1.stands
    have hall (x : BitVec 2) : 3 ||| x = 3 := by revert x; decide
    unfold s9
    rw [hl]
    exact ⟨h8.1.put hl rfl (by dsimp only; rw [hvalid, hall]) hu, h8.2⟩
  rw [hresv]
  simp only [Bool.false_and, Bool.false_eq_true, if_false]
  split
  · exact wroteSector_stands (wroteSector_stands h9 (by decide) a) (by decide) a
  · exact h9
end State
end Sys2Proof.Machine
end

section
/-! SUPPORT. Reads and writes of a sector whose line stands, and the other things that a write at a home does (R43, R136, R180, R424). -/
set_option Elab.async false
namespace Sys2Proof.Machine
open Sys2Proof

theorem linesOf_within {pa n : Nat} (h : pa % 64 + n ≤ 64) : linesOf pa n = if n = 0 then [] else [pa / 64] := by
  unfold linesOf
  split
  · rfl
  · rw [show (pa + n - 1) / 64 - pa / 64 + 1 = 1 by omega]
    rfl
theorem tierOf_sector {p pa : Nat} (hp : p % 32 = 0) (hlo : p ≤ pa) (hhi : pa < p + 32) : tierOf pa = tierOf p := by
  unfold tierOf
  congr 1 <;> [skip; congr 1 <;> [skip; congr 1]] <;> simp only [eq_iff_iff] <;> omega
theorem tierOf_line {pa : Nat} (h : tierOf pa = .hbm) : tierOf (pa / 64 * 64) = .hbm := by
  have hlow : pa < 0x006000000000 := by
    unfold tierOf at h
    split at h
    · assumption
    · split at h <;> [cases h; split at h <;> cases h]
  exact if_pos (by omega)

/-- The elements of a sector stand within it. -/
theorem element_within {i w : Nat} (h : i < 256 / w) : i * (w / 8) < 32 ∧ i * (w / 8) + w / 8 ≤ 32 := by
  have hw : w ≠ 0 := by rintro rfl; simp at h
  have hbits : (i + 1) * w ≤ 256 := (Nat.mul_le_mul_right w h).trans (Nat.div_mul_le_self ..)
  have hbytes : 8 * ((i + 1) * (w / 8)) ≤ (i + 1) * w := by
    rw [Nat.mul_left_comm]
    exact Nat.mul_le_mul_left _ (Nat.mul_div_le w 8)
  simp only [Nat.add_mul, Nat.one_mul] at hbytes hbits
  obtain hzero | hpos := Nat.eq_zero_or_pos (w / 8)
  · rw [hzero]; omega
  · omega

namespace State

theorem l2Read_stands {s : State} {pa n : Nat} {m : SMap Byte} (h : s.StandsOver (pa / 64) m) (htier : tierOf pa = .hbm) (hn : pa % 64 + n ≤ 64)
    (ctx key u : Nat) : (s.l2Read pa n ctx key u).StandsOver (pa / 64) m := by
  unfold l2Read
  rw [linesOf_within hn]
  by_cases hzero : n = 0
  · simp only [hzero, if_true, List.foldl_nil, ite_self]
    exact h
  · simp only [l2Cached, htier, hzero, if_true, if_false, List.foldl_cons, List.foldl_nil]
    exact l2Access_stands h (tierOf_line htier) rfl
theorem l2Put_stands {s : State} {pa mask : Nat} {b : List Byte} {a : L2Acc} {m : SMap Byte} (h : s.StandsOver (pa / 64) m) (htier : tierOf pa = .hbm)
    (hn : pa % 64 + b.length ≤ 64) (hresv : a.resv = false) : (s.l2Put pa mask b a).StandsOver (pa / 64) (writeMasked m pa mask b) := by
  unfold l2Put
  extract_lets n whole s1
  have h1 : s1.StandsOver (pa / 64) m := by
    unfold s1 n
    rw [linesOf_within hn]
    by_cases hzero : b.length = 0
    · simp only [hzero, if_true, List.foldl_nil, ite_self]
      exact h
    · simp only [l2Cached, htier, hzero, if_true, if_false, List.foldl_cons, List.foldl_nil]
      exact l2Access_stands h (tierOf_line htier) hresv
  clear_value s1
  rw [htier, if_neg (by simp)]
  exact ⟨⟨h1.1.err, h1.1.cor, h1.1.lives, h1.1.stands⟩, by dsimp only; rw [h1.2]⟩
theorem l2Put_host {s : State} {pa mask : Nat} {b : List Byte} {a : L2Acc} (htier : tierOf pa = .host) :
    s.l2Put pa mask b a = { s with mem := writeMasked s.mem pa mask b } := by
  simp only [l2Put, l2Cached, htier, Bool.false_eq_true, if_false, reduceCtorEq, false_and]

/-! Copies, links and the cache of host lines leave L2 and memory alone. -/

theorem SameLines.foldl {α : Type} {f : State → α → State} (hf : ∀ u x, SameLines u (f u x)) (l : List α) (s : State) : SameLines s (l.foldl f s) := by
  induction l generalizing s with
  | nil => exact .refl s
  | cons x l ih => exact (hf s x).trans (ih (f s x))
theorem dropCopies_same (s : State) (sector writer : Nat) (own : Bool) : SameLines s (s.dropCopies sector writer own) := by
  have hsnoop (u : State) (line : Nat) : SameLines u (u.snoopNow line) := by
    unfold snoopNow
    refine .cond _ ?_ (.refl u)
    extract_lets v
    have hv : SameLines u v := .cond _ (.refl u) ⟨⟨rfl, rfl, rfl, rfl, rfl⟩, rfl, rfl⟩
    exact hv.trans ⟨⟨rfl, rfl, rfl, rfl, rfl⟩, rfl, rfl⟩
  have hinv : SameLines s (s.invalidate sector writer own) := ⟨⟨rfl, rfl, rfl, rfl, rfl⟩, rfl, rfl⟩
  refine (SameLines.cond (writer = 264) hinv (hinv.trans (hsnoop _ (sector / 2)))).trans (u := s.dropCopies sector writer own) ?_
  exact ⟨⟨rfl, rfl, rfl, rfl, rfl⟩, rfl, rfl⟩
theorem hostTouch_same (s : State) (pa n : Nat) (excl : Bool) : SameLines s (s.hostTouch pa n excl) := by
  unfold hostTouch
  refine .cond _ (.foldl (fun u l => ?_) _ s) (.refl s)
  unfold hostEnter
  dsimp only
  split <;> exact ⟨⟨rfl, rfl, rfl, rfl, rfl⟩, rfl, rfl⟩
theorem spScan_same (s : State) (core sa n : Nat) : SameLines s (s.spScan core sa n) := by
  refine .foldl (fun u k => ?_) _ s
  exact .cond _ (.refl u) ⟨⟨rfl, rfl, rfl, rfl, rfl⟩, rfl, rfl⟩

/-! What stays in one sector. -/

/-- Memory is `m` outside the sector at `p`, and the sector's line stands in L2 when HBM holds it. -/
structure SectorOnly (p : Nat) (m : SMap Byte) (s : State) : Prop where
  line : tierOf p = .hbm → s.LineStands (p / 64)
  outside : ∀ a, ¬ (p ≤ a ∧ a < p + 32) → SMap.getD s.mem a 0 = SMap.getD m a 0

theorem SectorOnly.of_same {p : Nat} {m : SMap Byte} {s t : State} (h : SectorOnly p m s) (k : SameLines s t) : SectorOnly p m t :=
  ⟨fun hp => (h.line hp).of_same k, fun a ha => by rw [k.mem]; exact h.outside a ha⟩
theorem SectorOnly.foldl {α : Type} {p : Nat} {m : SMap Byte} {f : State → α → State} {l : List α} (hf : ∀ u, ∀ x ∈ l, SectorOnly p m u → SectorOnly p m (f u x))
    {s : State} (h : SectorOnly p m s) : SectorOnly p m (l.foldl f s) := by
  induction l generalizing s with
  | nil => exact h
  | cons x l ih => exact ih (fun u y hy => hf u y (List.mem_cons_of_mem _ hy)) (hf s x List.mem_cons_self h)

section Sector
variable {p : Nat} {m : SMap Byte} {s : State} (hp : p % 32 = 0) (hwhere : tierOf p = .hbm ∨ tierOf p = .host)
include hp hwhere

theorem l2Put_sector (h : SectorOnly p m s) {pa mask : Nat} {b : List Byte} {a : L2Acc} (hlo : p ≤ pa) (hlt : pa < p + 32) (hhi : pa + b.length ≤ p + 32)
    (hresv : a.resv = false) : SectorOnly p m (s.l2Put pa mask b a) := by
  have htier : tierOf pa = tierOf p := tierOf_sector hp hlo hlt
  have hline : pa / 64 = p / 64 := by omega
  have hout (x : Nat) (hx : ¬ (p ≤ x ∧ x < p + 32)) : SMap.getD (writeMasked s.mem pa mask b) x 0 = SMap.getD m x 0 := by
    rw [getD_writeMasked, if_neg (by omega)]
    exact h.outside x hx
  obtain hhbm | hhost := hwhere
  · obtain ⟨hstands, hmem⟩ := l2Put_stands (mask := mask) (b := b) (a := a) ⟨hline ▸ h.line hhbm, rfl⟩ (htier.trans hhbm) (by omega) hresv
    exact { line := fun _ => hline ▸ hstands, outside := fun x hx => by rw [hmem]; exact hout x hx }
  · rw [l2Put_host (htier.trans hhost)]
    exact { line := fun hhbm => by (rw [hhost] at hhbm; cases hhbm), outside := hout }
theorem performWrite_sector (h : SectorOnly p m s) (g : Agent) {pa mask : Nat} {b : List Byte} (key : Nat) (hlo : p ≤ pa) (hlt : pa < p + 32)
    (hhi : pa + b.length ≤ p + 32) : SectorOnly p m (s.performWrite g pa mask b key).2 := by
  have htier : tierOf pa = tierOf p := tierOf_sector hp hlo hlt
  have hnear : tierOf pa ≠ .tier2 := by
    rw [htier]
    obtain hw | hw := hwhere <;> rw [hw] <;> simp
  unfold performWrite
  extract_lets link s1
  have h1 : SectorOnly p m s1 := h.of_same (.foldl (fun u k => dropCopies_same ..) _ s)
  clear_value s1
  split
  · exact h
  split
  · exact h.of_same ⟨⟨rfl, rfl, rfl, rfl, rfl⟩, rfl, rfl⟩
  split
  · exact h
  split
  next hiso => simp [hnear] at hiso
  · exact (l2Put_sector hp hwhere h1 hlo hlt hhi rfl).of_same (hostTouch_same ..)
theorem stashPut_sector (h : SectorOnly p m s) (core key : Nat) (r : Recalled) (hr : r.1 = 0 ∨ r.2.1.length = 32) :
    SectorOnly p m (s.stashPut core p key r) := by
  unfold stashPut
  extract_lets ctx s1 s2
  have h1 : SectorOnly p m s1 := h.of_same (dropCopies_same ..)
  split
  · exact h
  next hne =>
    have h2 : SectorOnly p m s2 := l2Put_sector hp hwhere h1 (Nat.le_refl p) (by omega) (by have := hr.resolve_left hne; omega) rfl
    split
    · exact h2.of_same ⟨⟨rfl, rfl, rfl, rfl, rfl⟩, rfl, rfl⟩
    · exact h2
omit hp hwhere in
theorem answerRecall_bytes (c : Core) (k : Nat) (t : StashSector) : (c.answerRecall k t).1.1 = 0 ∨ (c.answerRecall k t).1.2.1.length = 32 := by
  unfold Core.answerRecall
  split
  · split
    · exact .inr (bytesOf_length ..)
    · exact .inl rfl
  · exact .inr (bytesOf_length ..)
theorem recall_sector (h : SectorOnly p m s) (except : Nat) : SectorOnly p m (s.recall (p / 32) except) := by
  have hback : p / 32 * 32 = p := by omega
  refine .foldl (fun u q _ hu => ?_) h
  split
  · exact hu
  refine .foldl (fun v e _ hv => ?_) hu
  split
  · extract_lets v1
    have h1 : SectorOnly p m v1 := hv.of_same (spScan_same ..)
    clear_value v1
    have hbytes := answerRecall_bytes (v1.core q.1) e.1 e.2
    revert hbytes
    generalize (v1.core q.1).answerRecall e.1 e.2 = answer
    obtain ⟨r, c⟩ := answer
    intro hbytes
    have h2 : SectorOnly p m (v1.setCore q.1 c) := h1.of_same ⟨⟨rfl, rfl, rfl, rfl, rfl⟩, rfl, rfl⟩
    rw [hback]
    exact stashPut_sector hp hwhere h2 _ _ r hbytes
  · exact hv
theorem fetchData_sector (h : SectorOnly p m s) (g : Agent) (key u : Nat) : SectorOnly p m (s.fetchData g p 32 key u).2 := by
  have hsector : sectorsOf p 32 = [p / 32] := by
    unfold sectorsOf
    rw [if_neg (by decide), show (p + 32 - 1) / 32 - p / 32 + 1 = 1 by omega]
    rfl
  unfold fetchData
  extract_lets link s1 s2
  have h1 : SectorOnly p m s1 := by
    unfold s1
    rw [hsector]
    exact recall_sector hp hwhere h g.id
  have h2 : SectorOnly p m s2 := by
    refine SectorOnly.of_same ?_ (hostTouch_same ..)
    obtain hhbm | hhost := hwhere
    · have ⟨hstands, hmem⟩ := l2Read_stands (n := 32) ⟨h1.line hhbm, rfl⟩ hhbm (by omega) g.ctx key u
      exact ⟨fun _ => hstands, fun x hx => by rw [hmem]; exact h1.outside x hx⟩
    · rw [l2Read, l2Cached, hhost, if_neg (by decide)]
      exact h1
  clear_value s1 s2
  split
  · exact h
  split
  · exact h.of_same ⟨⟨rfl, rfl, rfl, rfl, rfl⟩, rfl, rfl⟩
  · exact h2
theorem performVamo_sector (h : SectorOnly p m s) (g : Agent) (key aop w : Nat) (val : BitVec 256) (mask : BitVec 32) :
    SectorOnly p m (s.performVamo g p key aop w val mask) := by
  have hread := fetchData_sector hp hwhere h { g with id := 1000 } key 2
  unfold performVamo
  revert hread
  generalize s.fetchData { g with id := 1000 } p 32 key 2 = q
  obtain ⟨⟨c, bs⟩, t⟩ := q
  intro hread
  dsimp only at hread ⊢
  split
  · split
    · exact hread.of_same ⟨⟨rfl, rfl, rfl, rfl, rfl⟩, rfl, rfl⟩
    · exact hread
  refine .foldl (fun u i hi hu => ?_) hread
  split
  · split
    · exact hu
    · obtain ⟨hlt, hend⟩ := element_within (List.mem_range.mp hi)
      exact performWrite_sector hp hwhere hu g key (by omega) (by omega) (by rw [bytesOf_length]; omega)
  · exact hu
end Sector
end State
end Sys2Proof.Machine
end

section
/-! SUPPORT. A released store or VAMO at the home of its sector: memory byte by byte (R174, R178, R379, R384). -/
set_option Elab.async false
namespace Sys2Proof.Machine
open Sys2Proof State

/-- The home of a sector: host memory while the host link is up, or a line of HBM that stands whole in L2. -/
def State.HomeReady (s : State) (pa : Nat) : Prop :=
  (tierOf pa = .host ∧ s.pkg.hostUp = true) ∨ (tierOf pa = .hbm ∧ s.LineStands (pa / 64))

section Sector
variable {s : State} {pa : Nat} (hal : pa % 32 = 0) (h : s.HomeReady pa)
include h

theorem linkCause_of_homeReady : s.linkCause pa = 0 := by
  obtain ⟨hhost, hup⟩ | ⟨hhbm, -⟩ := h
  · simp only [linkCause, hhost, hup, if_true]
  · exact s.linkCause_hbm hhbm
include hal
/-- A write of a sector at its home ends without a cause, and memory changes by its bytes alone. -/
theorem performWrite_sector_mem (g : Agent) (mask : BitVec 32) (val : BitVec 256) (key : Nat) (hlate : s.hostLate g.id pa = false) :
    (s.performWrite g pa mask.toNat (bytesOf 32 val.toNat) key).1 = 0 ∧
    ∀ a, SMap.getD (s.performWrite g pa mask.toNat (bytesOf 32 val.toNat) key).2.mem a 0 = SMap.getD (writeMasked s.mem pa mask.toNat (bytesOf 32 val.toNat)) a 0 := by
  unfold performWrite
  extract_lets link s1
  have h1 : SameLines s s1 := .foldl (fun u k => dropCopies_same ..) _ s
  clear_value s1
  have hlink : link = 0 := linkCause_of_homeReady h
  rw [hlink, hlate, if_neg (by simp), if_neg (by simp), bytesOf_length]
  split
  next hzero =>
    have hmask : mask.toNat = 0 := by rwa [Nat.mod_eq_of_lt mask.isLt] at hzero
    refine ⟨rfl, fun a => ?_⟩
    rw [getD_writeMasked, hmask, if_neg (by simp)]
  obtain ⟨hhost, -⟩ | ⟨hhbm, hline⟩ := h
  · rw [hhost, if_neg (by simp)]
    refine ⟨rfl, fun a => ?_⟩
    rw [(hostTouch_same ..).mem, l2Write, l2Put_host hhost]
    dsimp only
    rw [h1.mem]
  · rw [hhbm, if_neg (by simp)]
    refine ⟨rfl, fun a => ?_⟩
    have hput := (l2Put_stands (mask := mask.toNat) (b := bytesOf 32 val.toNat)
      (a := { ctx := g.ctx, key, secs := 0, owner := if g.through ∨ 64 ≤ g.ctx then none else some g.ctx, through := g.through, resv := false })
      (StandsOver.of_same ⟨hline, rfl⟩ h1) hhbm (by rw [bytesOf_length]; omega) rfl).2
    rw [(hostTouch_same ..).mem, l2Write, hput]
omit h in
theorem getD_writeSector (mask : BitVec 32) (val : BitVec 256) (a : Nat) :
    SMap.getD (writeMasked s.mem pa mask.toNat (bytesOf 32 val.toNat)) a 0 =
      if pa ≤ a ∧ a < pa + 32 ∧ mask.getLsbD (a - pa) = true then BitVec.ofNat 8 (bits val.toNat (8 * (a - pa)) 8) else SMap.getD s.mem a 0 := by
  rw [getD_writeMasked, bytesOf_length, BitVec.testBit_toNat]
  split
  · rw [getD_bytesOf _ _ (by omega)]
  · rfl

end Sector

section Home
variable {s t : State} {k seq core ctx pa : Nat} {rel : Rel} {time : Word} (hk : s.flight[k]? = some ⟨seq, core, ctx, rel, time⟩)
  (hready : s.flightReady k = true) (hal : pa % 32 = 0) (hfree : s.pkg.hostHeld.has (pa / 64) = false) (hhome : s.HomeReady pa)
  (hexec : exec (.homeSliceAccess k) s = .next t)
include hk hready hal hfree hhome hexec

theorem storeArrives_mem {key cls : Nat} {val : BitVec 256} {mask : BitVec 32} (hrel : rel = .store pa key cls val mask) (hlate : s.hostLate core pa = false)
    (a : Nat) : SMap.getD t.mem a 0 =
      if pa ≤ a ∧ a < pa + 32 ∧ mask.getLsbD (a - pa) = true then BitVec.ofNat 8 (bits val.toNat (8 * (a - pa)) 8) else SMap.getD s.mem a 0 := by
  subst hrel
  have hdrop : SameLines s (s.dropFlight k) := ⟨⟨rfl, rfl, rfl, rfl, rfl⟩, rfl, rfl⟩
  have hhome1 : (s.dropFlight k).HomeReady pa := hhome.imp id fun hhbm => ⟨hhbm.1, hhbm.2.of_same hdrop⟩
  have hwrite := performWrite_sector_mem hal hhome1 (agentOf core ctx) mask val key hlate
  generalize hw : (s.dropFlight k).performWrite (agentOf core ctx) pa mask.toNat (bytesOf 32 val.toNat) key = q at hwrite
  obtain ⟨c, u⟩ := q
  obtain ⟨rfl, hmem⟩ := hwrite
  rw [exec_homeSliceAccess_performs hk hready (pa := pa) rfl hfree] at hexec
  obtain rfl := Host.Outcome.next.inj hexec
  rw [performRel_store _ hw, if_pos rfl, hmem, getD_writeSector hal]
  rfl
theorem vamoArrives_outside {key cls aop w : Nat} {val : BitVec 256} {mask : BitVec 32} (hrel : rel = .vamo pa key cls aop w val mask) {a : Nat}
    (ha : ¬ (pa ≤ a ∧ a < pa + 32)) : SMap.getD t.mem a 0 = SMap.getD s.mem a 0 := by
  subst hrel
  have hwhere : tierOf pa = .hbm ∨ tierOf pa = .host := hhome.symm.imp And.left And.left
  have hstart : SectorOnly pa s.mem s := by
    refine ⟨fun hhbm => ?_, fun _ _ => rfl⟩
    obtain ⟨hhost, -⟩ | ⟨-, hline⟩ := hhome
    · rw [hhost] at hhbm; cases hhbm
    · exact hline
  have hdrop : SameLines s (s.dropFlight k) := ⟨⟨rfl, rfl, rfl, rfl, rfl⟩, rfl, rfl⟩
  rw [exec_homeSliceAccess_performs hk hready (pa := pa) rfl hfree] at hexec
  obtain rfl := Host.Outcome.next.inj hexec
  rw [performRel_vamo _ (linkCause_of_homeReady (s := s.dropFlight k) (hhome.imp id fun hhbm => ⟨hhbm.1, hhbm.2.of_same hdrop⟩))]
  split
  · rw [mem_relFail]
    exact hstart.outside a ha
  · exact (performVamo_sector hal hwhere (hstart.of_same hdrop) ..).outside a ha
end Home
end Sys2Proof.Machine
end

section
/-! SUPPORT. Frames of the stores and vector atomics at issue (R172, R219, R376, R378, R380). -/
set_option Elab.async false
namespace Sys2Proof.Machine
open Sys2Proof State

/-! Registers and memory that a store leaves at issue (R219, R376, R378, R380). -/

/-- From `s` to `t` the core at issue keeps its registers, tokens, pc and tiles; its flags under a condition. -/
structure State.KeepsRegs (flags : Prop) (s t : State) : Prop where
  core : t.issue.core = s.issue.core
  svc : t.issue.svc = s.issue.svc
  regS : t.cur.arch.s = s.cur.arch.s
  regX : t.cur.arch.x = s.cur.arch.x
  regV : t.cur.arch.v = s.cur.arch.v
  regK : t.cur.arch.k = s.cur.arch.k
  tok : t.cur.arch.tok = s.cur.arch.tok
  pc : t.cur.pc = s.cur.pc
  tiles : t.cur.tiles = s.cur.tiles
  accs : t.cur.accs = s.cur.accs
  regF : flags → t.cur.arch.f = s.cur.arch.f

/-- Memory, registers of the package, what is on its way and the core's scratchpad stay as well. -/
structure State.KeepsAll (flags : Prop) (s t : State) : Prop extends State.KeepsRegs flags s t where
  mem : t.mem = s.mem
  io : t.io = s.io
  flight : t.flight = s.flight
  sp : t.cur.sp = s.cur.sp

section
variable {flags : Prop} {s t u : State}

theorem State.KeepsRegs.refl (s : State) : KeepsRegs flags s s := ⟨rfl, rfl, rfl, rfl, rfl, rfl, rfl, rfl, rfl, rfl, fun _ => rfl⟩
theorem State.KeepsRegs.trans (h : KeepsRegs flags s t) (k : KeepsRegs flags t u) : KeepsRegs flags s u :=
  ⟨k.core.trans h.core, k.svc.trans h.svc, k.regS.trans h.regS, k.regX.trans h.regX, k.regV.trans h.regV, k.regK.trans h.regK, k.tok.trans h.tok,
    k.pc.trans h.pc, k.tiles.trans h.tiles, k.accs.trans h.accs, fun hf => (k.regF hf).trans (h.regF hf)⟩
theorem State.KeepsAll.refl (s : State) : KeepsAll flags s s := ⟨.refl s, rfl, rfl, rfl, rfl⟩
theorem State.KeepsAll.trans (h : KeepsAll flags s t) (k : KeepsAll flags t u) : KeepsAll flags s u :=
  ⟨h.toKeepsRegs.trans k.toKeepsRegs, k.mem.trans h.mem, k.io.trans h.io, k.flight.trans h.flight, k.sp.trans h.sp⟩
/-- A core in the place of the one at issue. -/
theorem State.KeepsAll.setCore {c : Core} (ha : ∃ l, c.arch = { s.cur.arch with lands := l }) (hpc : c.pc = s.cur.pc) (ht : c.tiles = s.cur.tiles) (hacc : c.accs = s.cur.accs)
    (hsp : c.sp = s.cur.sp) : KeepsAll flags s (s.setCore s.issue.core c) := by
  have hcur : (s.setCore s.issue.core c).cur = c := State.core_setCore_self ..
  obtain ⟨l, ha⟩ := ha
  rw [← hcur] at ha hpc ht hacc hsp
  exact ⟨⟨rfl, rfl, (congrArg Arch.s ha :), (congrArg Arch.x ha :), (congrArg Arch.v ha :), (congrArg Arch.k ha :), (congrArg Arch.tok ha :), hpc, ht,
    hacc, fun _ => (congrArg Arch.f ha :)⟩, rfl, rfl, rfl, hsp⟩
/-- What keeps a core's work keeps its registers. -/
theorem State.KeepsWork.keepsRegs (h : KeepsWork s t) (hcore : t.issue.core = s.issue.core) (hsvc : t.issue.svc = s.issue.svc) : KeepsRegs flags s t := by
  have hwork : t.cur.work = s.cur.work := by
    rw [State.cur, hcore]
    exact h.work _
  have harch : t.cur.work.arch = s.cur.work.arch := by rw [hwork]
  have hpc : t.cur.work.pc = s.cur.work.pc := by rw [hwork]
  have htiles : t.cur.work.tiles = s.cur.work.tiles := by rw [hwork]
  have haccs : t.cur.work.accs = s.cur.work.accs := by rw [hwork]
  exact ⟨hcore, hsvc, congrArg Arch.s harch, congrArg Arch.x harch, congrArg Arch.v harch, congrArg Arch.k harch, congrArg Arch.tok harch, hpc, htiles,
    haccs, fun _ => congrArg Arch.f harch⟩

theorem Core.release_keeps {c d : Core} {r : Rel} (h : c.release r = .ok d) :
    d.arch = c.arch ∧ d.pc = c.pc ∧ d.tiles = c.tiles ∧ d.accs = c.accs ∧ d.sp = c.sp ∧ d.wins = c.wins := by
  unfold Core.release at h
  split at h
  · cases h
  · cases h; exact ⟨rfl, rfl, rfl, rfl, rfl, rfl⟩
theorem State.keepsAll_release {c : Core} {r : Rel} (h : s.cur.release r = .ok c) : KeepsAll flags s (s.setCore s.issue.core c) := by
  obtain ⟨ha, hpc, ht, hacc, hsp, -⟩ := Core.release_keeps h
  exact .setCore ⟨_, ha⟩ hpc ht hacc hsp
theorem State.keepsAll_touch (l : List Touch) : KeepsAll flags s (s.touch l) := by
  exact ⟨⟨rfl, rfl, rfl, rfl, rfl, rfl, rfl, rfl, rfl, rfl, fun _ => rfl⟩, rfl, rfl, rfl, rfl⟩
theorem State.keepsAll_postOwn (hsome : ¬ flags) (p : Post) : KeepsAll flags s (s.postOwn s.issue.core p) := by
  have happly : KeepsAll flags s (s.modCore s.issue.core fun c => c.applyPost p) := by
    have hcur : (s.modCore s.issue.core fun c => c.applyPost p).cur = s.cur.applyPost p := State.core_modCore_self ..
    refine ⟨⟨rfl, rfl, ?_, ?_, ?_, ?_, ?_, ?_, ?_, ?_, fun hf => absurd hf hsome⟩, rfl, rfl, rfl, ?_⟩
    all_goals
      rw [hcur]
      unfold Core.applyPost
      dsimp only
      split <;> split <;> rfl
  unfold State.postOwn
  split
  · exact happly
  · exact .setCore ⟨_, rfl⟩ rfl rfl rfl rfl
/-- An arrival posts to a flag, or is withheld. -/
theorem State.keepsAll_arriveNow {a : Option Arrival} (hsvc : s.issue.svc = false) (ht : s.arriveNow a = .ok t) : KeepsAll (a = none) s t := by
  match a with
  | none => cases ht; exact .refl s
  | some (.flag f) =>
    cases ht
    unfold State.flagInc
    rw [hsvc]
    exact (State.keepsAll_postOwn (by simp) _).trans ⟨⟨rfl, rfl, rfl, rfl, rfl, rfl, rfl, rfl, rfl, rfl, fun _ => rfl⟩, rfl, rfl, rfl, rfl⟩
  | some (.barrier g) =>
    obtain ⟨_, -, ht⟩ := of_bind_ok ht
    obtain ⟨c, hc, ht⟩ := of_bind_ok ht
    cases ht
    exact State.keepsAll_release hc

theorem State.lands_postOwn (s : State) (p : Post) : (s.postOwn s.issue.core p).cur.arch.lands = s.cur.arch.lands := by
  have happly (c : Core) : (c.applyPost p).arch.lands = c.arch.lands := by
    unfold Core.applyPost
    dsimp only
    split <;> split <;> rfl
  unfold State.postOwn
  split
  · rw [show (s.modCore s.issue.core fun c => c.applyPost p).cur = s.cur.applyPost p from State.core_modCore_self .., happly]
  · have hcur := State.core_modCore_self s s.issue.core fun c => { c with seg := { c.seg with posts := insertPost p c.seg.posts } }
    exact (congrArg (fun c : Core => c.arch.lands) hcur :)
/-- An arrival leaves the results in flight as they are. -/
theorem State.lands_arriveNow {a : Option Arrival} (hsvc : s.issue.svc = false) (ht : s.arriveNow a = .ok t) : t.cur.arch.lands = s.cur.arch.lands := by
  match a with
  | none => cases ht; rfl
  | some (.flag f) =>
    cases ht
    unfold State.flagInc
    rw [hsvc]
    exact State.lands_postOwn s _
  | some (.barrier g) =>
    obtain ⟨_, -, ht⟩ := of_bind_ok ht
    obtain ⟨c, hc, ht⟩ := of_bind_ok ht
    cases ht
    rw [show (s.setCore s.issue.core c).cur = c from State.core_setCore_self .., (Core.release_keeps hc).1]

/-! The operation at issue ended without a trap. -/

theorem State.trap_takeTrap (s : State) (x : TrapInfo) : (s.takeTrap x).issue.trap = some x := rfl
theorem finish_ok {o : OpInfo} {r : Res} (hf : finish o s r = .next t) (htrap : t.issue.trap = none) : r = .ok t := by
  unfold finish at hf
  split at hf
  · cases hf; rfl
  · cases hf
    rw [State.trap_takeTrap] at htrap
    cases htrap
theorem State.runNow_ended {o : OpInfo} {f : State → Res} (hg : s.guard0 o = true) (hf : s.runNow o f = .next t) (htrap : t.issue.trap = none) :
    ∃ u, f s = .ok u ∧ u.arriveNow o.arr = .ok t := by
  have hok := finish_ok hf htrap
  rw [hg, if_pos rfl] at hok
  obtain ⟨u, hu, ht⟩ := of_bind_ok hok
  exact ⟨u, hu, of_keep_ok ht⟩
theorem State.runEach_ended {o : OpInfo} {f : State → Res} (hf : s.runEach o f = .next t) (htrap : t.issue.trap = none) :
    ∃ u, f s = .ok u ∧ u.arriveNow o.arr = .ok t := by
  obtain ⟨u, hu, ht⟩ := of_bind_ok (finish_ok hf htrap)
  exact ⟨u, hu, of_keep_ok ht⟩

/-! Pieces of a store. -/

theorem Core.winSector_none {c : Core} (h : c.wins = []) (p : Piece) : c.winSector p = none := by
  unfold Core.winSector Core.winOfVa
  rw [h]
  rfl
theorem State.issue_stashFill (s : State) (core : Nat) (who : Who) (k : Nat) (w : Window) : (s.stashFill core who k w).2.issue = s.issue := by
  unfold State.stashFill
  dsimp only
  split
  · rfl
  have hpage := s.issue_xlatePage who .load (w.gva.toNat + (k * 32 - w.spbase))
  split
  next heq => rwa [heq] at hpage
  next pa key t heq =>
  rw [heq] at hpage
  split
  · exact hpage
  split
  · exact hpage
  next c hundo =>
  have hread := ((t.setCore core c).issue_fetchData (agentOf core who.ctx) pa 32 key 2).trans hpage
  split
  · exact hread
  · exact hread
theorem State.keepsRegs_stashServe {k : Nat} {w : Window} {b : Bool} (h : s.stashServe k w = .ok (b, t)) : KeepsRegs flags s t := by
  have hwork := s.keepsWork_stashFill s.issue.core s.who k w
  have hissue := s.issue_stashFill s.issue.core s.who k w
  unfold State.stashServe at h
  split at h
  · cases h
  next u heq =>
    rw [heq] at hwork hissue
    split at h
    · cases h
    · cases h
      exact (hwork.keepsRegs (congrArg Issue.core hissue) (congrArg Issue.svc hissue)).trans (State.keepsAll_touch _).toKeepsRegs
theorem Core.undoFor_keeps {c d : Core} {k : Nat} (h : c.undoFor k = .ok d) :
    d.arch = c.arch ∧ d.pc = c.pc ∧ d.tiles = c.tiles ∧ d.accs = c.accs ∧ d.sp = c.sp := by
  unfold Core.undoFor at h
  split at h
  · cases h; exact ⟨rfl, rfl, rfl, rfl, rfl⟩
  · split at h
    · cases h
    · cases h; exact ⟨rfl, rfl, rfl, rfl, rfl⟩
/-- The mask with which the bytes of a sector land: theirs, and two marks above the sector. -/
def landMask (bmask : Nat) (poisoned window : Bool) : Vec :=
  BitVec.ofNat 1024 (spread 32 bmask + (if poisoned then 2 ^ 256 else 0) + (if window then 2 ^ 257 else 0))
theorem getLsbD_landMask (bmask : Nat) (poisoned window : Bool) {i : Nat} (hi : i < 256) : (landMask bmask poisoned window).getLsbD i = bmask.testBit (i / 8) := by
  have hsum : spread 32 bmask + (if poisoned then 2 ^ 256 else 0) + (if window then 2 ^ 257 else 0) =
      2 ^ 256 * ((if poisoned then 1 else 0) + if window then 2 else 0) + spread 32 bmask := by
    rw [show 2 ^ 257 = 2 ^ 256 * 2 by rw [← Nat.pow_succ]]
    generalize 2 ^ 256 = above
    cases poisoned <;> cases window <;> simp <;> ring
  rw [landMask, BitVec.getLsbD_ofNat, hsum, Nat.testBit_two_pow_mul_add _ (spread_lt 32 bmask), if_pos hi, testBit_spread]
  simp [show i < 1024 by omega, show i / 8 < 32 by omega]
/-- A store of bytes of the own scratchpad is one result in flight to its sector (R376, R379). -/
theorem State.spStore_lands {k bmask : Nat} {val : BitVec 256} {poisoned : Bool} (hsvc : s.issue.svc = false) (h : s.spStore k val bmask poisoned = .ok t) :
    KeepsAll flags s t ∧ ∃ x : Landing, t.cur.arch.lands = s.cur.arch.lands ++ [x] ∧ x.left = 1 ∧ x.dst = .sp k ∧
      ∀ i < 256, x.mask.getLsbD i = bmask.testBit (i / 8) := by
  unfold State.spStore at h
  rw [hsvc] at h
  obtain ⟨c, hc, ht⟩ := of_bind_ok h
  obtain ⟨ha, hpc, htiles, hacc, hsp⟩ := Core.undoFor_keeps hc
  change Except.ok (s.setCore s.issue.core (c.landIn 1 (.sp k) (val.setWidth 1024) (landMask bmask poisoned (s.cur.winOfSp (k * 32)).isSome))) = _ at ht
  revert ht
  generalize hm : landMask bmask poisoned (s.cur.winOfSp (k * 32)).isSome = m
  intro ht
  cases ht
  have hbits : ∀ i < 256, m.getLsbD i = bmask.testBit (i / 8) := fun i hi => hm ▸ getLsbD_landMask _ _ _ hi
  have hcur : (s.setCore s.issue.core (c.landIn 1 (.sp k) (val.setWidth 1024) m)).cur = c.landIn 1 (.sp k) (val.setWidth 1024) m := State.core_setCore_self ..
  have hland : (c.landIn 1 (.sp k) (val.setWidth 1024) m).arch = { s.cur.arch with lands := s.cur.arch.lands ++ [⟨1, .sp k, val.setWidth 1024, m⟩] } := by
    rw [Core.landIn_arch, ha]
  refine ⟨.setCore ⟨_, hland⟩ hpc htiles hacc hsp, ⟨1, .sp k, val.setWidth 1024, m⟩, ?_, rfl, rfl, hbits⟩
  rw [hcur, hland]
/-- The pieces of a store on a main sequencer, one by one. -/
theorem State.storePieces_keeps {ps : List Piece} {val mask cls : Nat} (hsvc : s.issue.svc = false) (h : s.storePieces ps val mask cls = .ok t) :
    KeepsRegs flags s t ∧ (s.cur.wins = [] → KeepsAll flags s t) := by
  have hall := foldlBind_keeps (P := fun u => KeepsRegs flags s u ∧ (s.cur.wins = [] → KeepsAll flags s u ∧ u.cur.wins = [])) (fun {u v} p _ hu hv => ?_)
    ⟨.refl s, fun hw => ⟨.refl s, hw⟩⟩ h
  · exact ⟨hall.1, fun hw => (hall.2 hw).1⟩
  obtain ⟨hregs, hkeep⟩ := hu
  have husvc : u.issue.svc = false := hregs.svc.trans hsvc
  -- the piece is withheld when no window serves it
  have hwithheld {x : Rel} (hv : (do u.keep (u.linkFor p); let c ← u.keep (u.cur.release x); .ok (u.setCore u.issue.core c)) = Except.ok (ε := TrapInfo) v) :
      KeepsRegs flags s v ∧ (s.cur.wins = [] → KeepsAll flags s v ∧ v.cur.wins = []) := by
    obtain ⟨_, -, hv⟩ := of_bind_ok hv
    obtain ⟨c, hc, hv⟩ := of_bind_ok hv
    cases hv
    have hrel : KeepsAll flags u (u.setCore u.issue.core c) := State.keepsAll_release (of_keep_ok hc)
    refine ⟨hregs.trans hrel.toKeepsRegs, fun hnone => ?_⟩
    obtain ⟨hall, hwins⟩ := hkeep hnone
    obtain ⟨-, -, -, -, -, hcwins⟩ := Core.release_keeps (of_keep_ok hc)
    refine ⟨hall.trans hrel, ?_⟩
    rw [show (u.setCore u.issue.core c).cur = c from State.core_setCore_self .., hcwins, hwins]
  dsimp only at hv
  split at hv
  next hnone =>
    rw [ok_bind] at hv
    dsimp only at hv
    rw [if_neg (by simp [husvc])] at hv
    exact hwithheld hv
  next k w hwin =>
  have hnever : ¬ s.cur.wins = [] := fun hnone => by
    rw [Core.winSector_none (hkeep hnone).2] at hwin
    cases hwin
  split at hv
  · cases hv
  next b u1 hserve =>
  have hserved : KeepsRegs flags u u1 := State.keepsRegs_stashServe hserve
  rw [ok_bind] at hv
  cases b with
  | false =>
    rw [if_neg (by decide)] at hv
    dsimp only at hv
    rw [if_neg (by simp [husvc])] at hv
    exact hwithheld hv
  | true =>
    obtain ⟨hstored, -⟩ := State.spStore_lands (flags := flags) (hserved.svc.trans husvc) (of_keep_ok hv)
    exact ⟨(hregs.trans hserved).trans hstored.toKeepsRegs, fun hnone => absurd hnone hnever⟩

/-! The stores and vector atomics, ended without a trap (R376, R378-R380, R384). -/

theorem State.keepsRegs_xlateTouched {k : AccKind} {va n mask : Nat} {ps : List Piece} (h : s.xlateTouched k va n mask = .ok (ps, t)) :
    t.issue.core = s.issue.core ∧ t.issue.svc = s.issue.svc := by
  refine foldlBind_keeps (P := fun q : List Piece × State => q.2.issue.core = s.issue.core ∧ q.2.issue.svc = s.issue.svc) (fun {q q'} x _ hq hq' => ?_) ⟨rfl, rfl⟩ h
  dsimp only at hq'
  split at hq'
  · cases hq'; exact hq
  split at hq'
  · cases hq'
  next hx =>
    cases hq'
    obtain ⟨hcore, hsvc⟩ := State.issue_xlateR hx
    exact ⟨hcore.trans hq.1, hsvc.trans hq.2⟩

section
variable {o : OpInfo} (hsvc : s.issue.svc = false) (htrap : t.issue.trap = none)
include hsvc htrap

omit htrap in
/-- Pieces that are stored, then the arrival. -/
theorem stored_keeps {ps : List Piece} {val mask cls : Nat} {v : State} (hstore : s.storePieces ps val mask cls = .ok v) (harr : v.arriveNow o.arr = .ok t) :
    KeepsRegs (o.arr = none) s t ∧ (s.cur.wins = [] → KeepsAll (o.arr = none) s t) := by
  obtain ⟨hregs, hall⟩ := State.storePieces_keeps (flags := o.arr = none) hsvc hstore
  have harrive : KeepsAll (o.arr = none) v t := State.keepsAll_arriveNow (hregs.svc.trans hsvc) harr
  exact ⟨hregs.trans harrive.toKeepsRegs, fun hwins => (hall hwins).trans harrive⟩
omit hsvc in
theorem exec_st_keeps {r : SpStore} {ps : List Piece} (hu : u.issue.svc = false) (hg : s.guard0 o = true)
    (hx : s.xlateR .store (s.scalarAddr r.am r.z r.base r.ix r.disp).toNat (2 ^ r.z.toNat) = .ok (ps, u)) (hexec : exec (.st o r) s = .next t) :
    KeepsRegs (o.arr = none) u t ∧ (u.cur.wins = [] → KeepsAll (o.arr = none) u t) := by
  rw [exec_st, execSt] at hexec
  obtain ⟨v, hv, harr⟩ := State.runNow_ended hg hexec htrap
  simp only [sizeOf, hx, bind, Except.bind] at hv
  exact stored_keeps hu hv harr
theorem exec_vst_keeps {r : VSp} (hexec : exec (.vst o r) s = .next t) :
    (s.activeBytes o (8 * 2 ^ r.g.toNat) (32 * 2 ^ r.sz.toNat) = 0 → KeepsAll (o.arr = none) s t) ∧
    ∀ ps, s.activeBytes o (8 * 2 ^ r.g.toNat) (32 * 2 ^ r.sz.toNat) ≠ 0 →
      s.xlateTouched .store (s.vectorAddr r.base r.ix r.idx r.disp).toNat (32 * 2 ^ r.sz.toNat) (s.activeBytes o (8 * 2 ^ r.g.toNat) (32 * 2 ^ r.sz.toNat)) =
        .ok (ps, u) → KeepsRegs (o.arr = none) u t ∧ (u.cur.wins = [] → KeepsAll (o.arr = none) u t) := by
  rw [exec_vst, execVst] at hexec
  obtain ⟨v, hv, harr⟩ := State.runEach_ended hexec htrap
  refine ⟨fun hmask => ?_, fun ps hmask hx => ?_⟩
  · simp only [lenOf, widthOf, hmask, if_true] at hv
    cases hv
    exact State.keepsAll_arriveNow hsvc harr
  · simp only [lenOf, widthOf, hmask, if_false, hx, bind, Except.bind] at hv
    exact stored_keeps ((State.keepsRegs_xlateTouched hx).2.trans hsvc) hv harr
theorem vamo_keeps {r : VAtomic} {aop : Nat} {ps : List Piece} (hactive : s.guardList o (widthOf r.w) (256 / widthOf r.w) ≠ 0)
    (hx : s.xlateR .atomic (v64 (s.cur.rV r.base.toNat) + imm64 r.disp).toNat 32 = .ok (ps, u)) (hexec : s.vamo o r aop = .next t) :
    KeepsAll (o.arr = none) u t := by
  have hu : u.issue.svc = false := (State.issue_xlateR hx).2.trans hsvc
  obtain ⟨v, hv, harr⟩ := State.runEach_ended hexec htrap
  suffices hkeep : KeepsAll (o.arr = none) u v from hkeep.trans (State.keepsAll_arriveNow (hkeep.svc.trans hu) harr)
  simp only [hactive, if_false] at hv
  obtain ⟨_, -, hv⟩ := of_bind_ok hv
  obtain ⟨⟨qs, w⟩, hw, hv⟩ := of_bind_ok hv
  obtain ⟨rfl, rfl⟩ := Prod.mk.inj (Except.ok.inj (hw.symm.trans hx))
  dsimp only at hv
  split at hv
  · cases hv; exact .refl _
  · obtain ⟨_, -, hv⟩ := of_bind_ok hv
    obtain ⟨c, hc, hv⟩ := of_bind_ok hv
    cases hv
    exact State.keepsAll_release (of_keep_ok hc)
theorem exec_stsp_keeps {r : SpStore} (hg : s.guard0 o = true) (hexec : exec (.stsp o r) s = .next t) :
    let pa := s.cur.spVis (s.scalarAddr r.am r.z r.base r.ix r.disp).toNat
    KeepsAll (o.arr = none) s t ∧ ∃ x : Landing, t.cur.arch.lands = s.cur.arch.lands ++ [x] ∧ x.left = 1 ∧ x.dst = .sp (pa / 32) ∧
      ∀ i < 256, x.mask.getLsbD i = ((2 ^ 2 ^ r.z.toNat - 1) * 2 ^ (pa % 32)).testBit (i / 8) := by
  intro pa
  rw [exec_stsp, execStsp] at hexec
  obtain ⟨v, hv, harr⟩ := State.runNow_ended hg hexec htrap
  obtain ⟨_, -, hv⟩ := of_bind_ok hv
  obtain ⟨_, -, hv⟩ := of_bind_ok hv
  obtain ⟨hkeep, x, hlands, hx⟩ := State.spStore_lands (flags := o.arr = none) hsvc hv
  have hvsvc : v.issue.svc = false := hkeep.svc.trans hsvc
  exact ⟨hkeep.trans (State.keepsAll_arriveNow hvsvc harr), x, (State.lands_arriveNow hvsvc harr).trans hlands, hx⟩
omit hsvc htrap in
theorem spPieces_places {sa n mask : Nat} {ps : List (Nat × Nat)} (h : s.spPieces sa n mask = .ok ps) :
    ∀ q ∈ ps, q.1 < n / 32 ∧ q.2 = s.cur.spVis ((sa + 32 * q.1) % 2 ^ 64) := by
  obtain ⟨_, -, h⟩ := of_bind_ok h
  refine foldlBind_keeps (P := fun l : List (Nat × Nat) => ∀ q ∈ l, q.1 < n / 32 ∧ q.2 = s.cur.spVis ((sa + 32 * q.1) % 2 ^ 64)) (fun {l l'} i hi hl hl' => ?_)
    (fun _ hq => (List.not_mem_nil hq).elim) h
  dsimp only at hl'
  split at hl'
  · cases hl'; exact hl
  · obtain ⟨_, -, hl'⟩ := of_bind_ok hl'
    cases hl'
    intro q hq
    obtain hq | hq := List.mem_append.mp hq
    · exact hl q hq
    · obtain rfl := List.mem_singleton.mp hq
      exact ⟨List.mem_range.mp hi, rfl⟩
theorem exec_vstsp_keeps {r : VSp} (hexec : exec (.vstsp o r) s = .next t) :
    let n := 32 * 2 ^ r.sz.toNat
    let mask := s.activeBytes o (8 * 2 ^ r.g.toNat) n
    let sa := (s.vectorAddr r.base r.ix r.idx r.disp).toNat
    KeepsAll (o.arr = none) s t ∧ ∃ l : List Landing, t.cur.arch.lands = s.cur.arch.lands ++ l ∧ ∀ x ∈ l, ∃ i < n / 32,
      x.dst = .sp (s.cur.spVis ((sa + 32 * i) % 2 ^ 64) / 32) ∧ x.left = 1 ∧ ∀ j < 256, x.mask.getLsbD j = (bits mask (32 * i) 32).testBit (j / 8) := by
  intro n mask sa
  rw [exec_vstsp, execVstsp] at hexec
  obtain ⟨v, hv, harr⟩ := State.runEach_ended hexec htrap
  suffices hkeep : KeepsAll (o.arr = none) s v ∧ ∃ l : List Landing, v.cur.arch.lands = s.cur.arch.lands ++ l ∧ ∀ x ∈ l, ∃ i < n / 32,
      x.dst = .sp (s.cur.spVis ((sa + 32 * i) % 2 ^ 64) / 32) ∧ x.left = 1 ∧ ∀ j < 256, x.mask.getLsbD j = (bits mask (32 * i) 32).testBit (j / 8) by
    obtain ⟨hkeep, l, hlands, hl⟩ := hkeep
    have hvsvc : v.issue.svc = false := hkeep.svc.trans hsvc
    exact ⟨hkeep.trans (State.keepsAll_arriveNow hvsvc harr), l, (State.lands_arriveNow hvsvc harr).trans hlands, hl⟩
  dsimp only at hv
  split at hv
  · cases hv
    exact ⟨.refl s, [], (List.append_nil _).symm, fun _ hx => (List.not_mem_nil hx).elim⟩
  obtain ⟨ps, hps, hv⟩ := of_bind_ok hv
  have hplaces := spPieces_places hps
  refine foldlBind_keeps (P := fun u => KeepsAll (o.arr = none) s u ∧ ∃ l : List Landing, u.cur.arch.lands = s.cur.arch.lands ++ l ∧ ∀ x ∈ l, ∃ i < n / 32,
      x.dst = .sp (s.cur.spVis ((sa + 32 * i) % 2 ^ 64) / 32) ∧ x.left = 1 ∧ ∀ j < 256, x.mask.getLsbD j = (bits mask (32 * i) 32).testBit (j / 8))
    (fun {u w} q hq hu hw => ?_) ⟨.refl s, [], (List.append_nil _).symm, fun _ hx => (List.not_mem_nil hx).elim⟩ hv
  obtain ⟨hkeep, l, hlands, hl⟩ := hu
  obtain ⟨hi, hplace⟩ := hplaces q hq
  obtain ⟨hstored, x, hx, hleft, hdst, hmask⟩ := State.spStore_lands (flags := o.arr = none) (hkeep.svc.trans hsvc) hw
  refine ⟨hkeep.trans hstored, l ++ [x], by rw [hx, hlands, List.append_assoc], fun y hy => ?_⟩
  obtain hy | hy := List.mem_append.mp hy
  · exact hl y hy
  · obtain rfl := List.mem_singleton.mp hy
    exact ⟨q.1, hi, by rw [hdst, hplace], hleft, hmask⟩

end
end
end Sys2Proof.Machine

namespace Sys2Proof.Proofs
open Sys2Proof Sys2Proof.Machine

/-- Settles O57: at issue a store is withheld or lands in the scratchpad; at its home it is one masked write of a sector. -/
theorem storeFrames : Obligations.StoreFrames := by
  unfold Obligations.StoreFrames
  refine ⟨?_, fun s t k seq core ctx pa rel time hk hready hal hfree hwhere hexec => ?_⟩
  · intro o s t u _ hsvc regs same htrap
    have hregs {u : State} (h : State.KeepsRegs (o.arr = none) u t) : regs u := ⟨h.regS, h.regX, h.regV, h.regK, h.tok, h.pc, h.tiles, h.accs, h.regF⟩
    have hsame {u : State} (h : State.KeepsAll (o.arr = none) u t) : same u := ⟨h.mem, h.io, h.flight, h.sp, hregs h.toKeepsRegs⟩
    refine ⟨?_, ?_, ?_, ?_, ?_⟩
    · intro r ps a hg hx hexec
      obtain ⟨hr, hall⟩ := exec_st_keeps htrap ((State.issue_xlateR hx).2.trans hsvc) hg hx hexec
      exact ⟨hregs hr, fun hwins => hsame (hall hwins)⟩
    · intro r ps _ n mask hexec
      obtain ⟨hidle, hactive⟩ := exec_vst_keeps (u := u) hsvc htrap hexec
      refine ⟨fun hmask => hsame (hidle hmask), fun hmask hx => ?_⟩
      obtain ⟨hr, hall⟩ := hactive ps hmask hx
      exact ⟨hregs hr, fun hwins => hsame (hall hwins)⟩
    · intro f hf r ps va hactive hx hexec
      obtain ⟨p, hp, rfl⟩ : ∃ p ∈ vamoOps, p.1 = f := List.mem_map.mp hf
      rw [exec_vamoOps o r s p hp] at hexec
      exact hsame (vamo_keeps hsvc htrap (State.guardList_ne_zero hactive) hx hexec)
    · intro r sa hg hexec
      obtain ⟨hall, x, hlands, hleft, hdst, hmask⟩ := exec_stsp_keeps hsvc htrap hg hexec
      refine ⟨hsame hall, x, hlands, hleft, hdst, fun i hi hbit => ?_⟩
      rw [hmask i hi, Nat.testBit_mul_two_pow, Nat.testBit_two_pow_sub_one] at hbit
      simp only [Bool.and_eq_true, decide_eq_true_eq] at hbit
      exact ⟨hbit.1, (Nat.sub_lt_iff_lt_add' hbit.1).mp hbit.2⟩
    · intro r _ n mask sa hexec
      obtain ⟨hall, l, hlands, hl⟩ := exec_vstsp_keeps hsvc htrap hexec
      refine ⟨hsame hall, l, hlands, fun x hx => ?_⟩
      obtain ⟨i, hi, hdst, hleft, hmask⟩ := hl x hx
      refine ⟨i, hi, hdst, hleft, fun j hj hbit => ?_⟩
      rw [hmask j hj, testBit_bits] at hbit
      simp only [Bool.and_eq_true] at hbit
      exact hbit.2
  · have hhome : s.HomeReady pa := hwhere.imp id fun ⟨hhbm, herr, hcor, hlives, hstands⟩ => ⟨hhbm, herr, hcor, hlives, hstands⟩
    exact ⟨fun key cls val mask hrel hlate => storeArrives_mem hk hready hal hfree hhome hexec hrel hlate,
      fun ⟨key, cls, aop, w, val, mask, hrel⟩ a ha => vamoArrives_outside hk hready hal hfree hhome hexec hrel ha⟩

end Sys2Proof.Proofs
end

section
/-! SUPPORT. Traps, waits on a line, launches and returns (R329-R331, R432-R434). -/
set_option Elab.async false
namespace Sys2Proof.Machine
open Sys2Proof

/-! Traps, waits on a line, launches and returns (R329-R331, R432-R434). -/

section
variable {o : OpInfo} {s t : State} (hg : s.guard0 o = true)
include hg

theorem exec_trap_eq (r : TrapArgs) :
    exec (.trap o r) s = .next (s.takeTrap { cause := 0x3C0#10 + r.imm.setWidth 10, slot := BitVec.ofNat 4 (slotNum o.slot) }) := by
  rw [exec_trap, execTrap, State.runNow_trap (x := { cause := 0x3C0#10 + r.imm.setWidth 10 }) hg rfl, List.drop_nil, State.redo_nil]

/-- The watch that a waitline leaves, by what the read of its line found. -/
def State.watchOf (s : State) (o : OpInfo) (r : WaitlineArgs) (p : Piece) (a : Nat) (cause : Cause) (l : List (Nat × List Byte)) : Watch :=
  { seq := s.seq, tok := r.tok.toNat, dst := r.d.toNat, pa := p.pa, va := a, asleep := cause == 0 && BitVec.ofNat 64 (placed l) == s.gpr .s r.ix,
    cause, tmo := r.tmo, relN := s.issue.relN, arr := o.arr, cls := r.cls.toNat, key := p.key }
theorem exec_waitline_eq {r : WaitlineArgs} {p : Piece} {ps : List Piece} {t1 t2 : State} {cause : Cause} {l : List (Nat × List Byte)}
    (harr : s.arrivalOk o.arr) (hsup : s.supervisor = true) (hal : (s.gpr .s r.base + imm64 r.disp).toNat % 64 = 0)
    (hx : s.xlateR .load (s.gpr .s r.base + imm64 r.disp).toNat 8 = .ok (p :: ps, t))
    (hgo : t.cur.grp.n = 0 → t.cur.watches.length < 8 ∧ (∀ w ∈ t.cur.watches, w.tok ≠ r.tok.toNat) ∧ t.cur.readsDone t.seq r.cls.toNat (p :: ps) = true ∧
      t.meetsFlight t.issue.core false (p :: ps) = false)
    (htok : t.tokAdd r.tok.toNat 1 = .ok t1) (hread : t1.readPieces t1.who (t1.seenBy t1.issue.core t1.issue.relN) 2 false (p :: ps) = ((cause, l), t2)) :
    exec (.waitline o r) s = .next (({ (t2.touch ((p :: ps).map fun p => .piece p 2 false)) with seq := t2.seq + 1 } : State).modCur fun k =>
      { k.arrivalDue o.arr t2.seq with watches := k.watches ++ [t2.watchOf o r p (s.gpr .s r.base + imm64 r.disp).toNat cause l] }) := by
  have hstay : (t.mayStall && (decide (8 ≤ t.cur.watches.length) || t.cur.watches.any (fun w => w.tok == r.tok.toNat) ||
      !t.cur.readsDone t.seq r.cls.toNat (p :: ps) || t.meetsFlight t.issue.core false (p :: ps))) = false := by
    by_cases hn : t.cur.grp.n = 0
    · obtain ⟨hfew, hnew, hdone, hflight⟩ := hgo hn
      have hany : t.cur.watches.any (fun w => w.tok == r.tok.toNat) = false := by
        simp only [List.any_eq_false, beq_iff_eq]
        exact hnew
      simp only [hany, hdone, hflight, decide_eq_false (Nat.not_le.mpr hfew), Bool.or_false, Bool.not_true, Bool.and_false]
    · rw [State.mayStall, beq_eq_false_iff_ne.mpr hn, Bool.false_and]
  rw [exec_waitline, execWaitline]
  refine State.runLate_true hg harr ?_
  simp only [hsup, raiseIf, raiseAt, hal, hx, hstay, htok, hread, bind, Except.bind, State.keep_ok, Bool.not_true, Bool.false_eq_true, if_false, bne_self_eq_false]
  rfl
theorem exec_launch_eq {r : LaunchArgs} (harr : s.arrivalOk o.arr) (hsup : s.supervisor = true) (hal : (s.gpr .s r.a).toNat % 128 = 0) :
    exec (.launch o r) s = .next ((s.hold (.launch (s.gpr .s r.a) ((s.gpr .s r.b).toNat % 64) r.d.toNat)).arrival o.arr) := by
  rw [exec_launch, execLaunch]
  refine State.runNow_true hg ?_ (State.arrivalOk_hold harr _)
  simp only [hsup, raiseIf, raiseAt, hal, bind, Except.bind, Bool.not_true, Bool.false_eq_true, if_false, bne_self_eq_false]
theorem exec_exit_eq (harr : s.arrivalOk o.arr) :
    exec (.exit o) s = .next (({ s with issue := { s.issue with exit := true } } : State).arrival o.arr) := by
  rw [exec_exit, execExit]
  exact State.runNow_true hg rfl (State.arrivalOk_issue harr _ rfl)
theorem exec_eret_eq (hsup : s.supervisor = true) (hcore : s.cur.fscore.toNat ≤ 263) (hparked : (s.core s.cur.fscore.toNat).run = .parked)
    (hdone : s.unperformed s.issue.core = false) (harr : (s.resumeCore s.cur.fscore.toNat).arrivalOk o.arr) :
    exec (.eret o) s = .next ((s.resumeCore s.cur.fscore.toNat).arrival o.arr) := by
  rw [exec_eret, execEret]
  refine State.runNow_true hg ?_ harr
  simp only [hsup, raiseIf, hparked, decide_eq_false (Nat.not_lt.mpr hcore), State.whenDone, hdone, bind, Except.bind, Bool.not_true, Bool.false_eq_true,
    if_false, bne_self_eq_false, Bool.or_false, Bool.and_false]
  rfl
theorem exec_sret_eq (harr : s.arrivalOk o.arr) (hsvc : s.issue.svc = true) :
    exec (.sret o) s = .next ((s.modCur fun c => { c with svc := { c.svc with busy := false } }).arrival o.arr) := by
  rw [exec_sret, execSret]
  refine State.runNow_true hg ?_ (State.arrivalOk_modCur harr _ rfl rfl)
  simp only [hsvc, raiseIf, bind, Except.bind, Bool.not_true, Bool.false_eq_true, if_false]

end
end Sys2Proof.Machine

namespace Sys2Proof.Proofs
open Sys2Proof Sys2Proof.Machine

/-- Settles O28: each operation, its checks passed, is one change of the core or of what its bundle holds. -/
theorem controlResults : Obligations.ControlResults := by
  unfold Obligations.ControlResults
  intro o s hg harr
  refine ⟨exec_trap_eq hg, ?_, fun r hsup hal => exec_launch_eq hg harr hsup hal, exec_exit_eq hg harr, ?_, exec_sret_eq hg harr⟩
  · intro r p ps t t1 t2 cause l a hsup hal hx hgo htok hread
    exact exec_waitline_eq hg harr hsup hal hx hgo htok hread
  · intro c hsup hcore hparked hdone harr1
    exact exec_eret_eq hg hsup hcore hparked hdone harr1

end Sys2Proof.Proofs
end

section
/-! SUPPORT. Waits, barriers, fences, flags and posts (R183, R199, R338-R347). -/
set_option Elab.async false
namespace Sys2Proof.Machine
open Sys2Proof

/-! Barriers (R344-R346). -/

section
variable {s : State} {g : Nat}

theorem State.barCheck_ok {member : Bool} (hgranted : s.barGranted g = true) (hmember : member = true → s.cur.gangMember = true) :
    s.barCheck g member = .ok () := by
  cases member with
  | false => simp [State.barCheck, raiseIf, hgranted, bind, Except.bind]
  | true => simp [State.barCheck, raiseIf, hgranted, hmember, bind, Except.bind]
theorem State.barArrive_ok (hgranted : s.barGranted g = true) (hmember : s.cur.gangMember = true) (hroom : s.cur.relCount < 512) :
    s.barArrive g = .ok (s.setCore s.issue.core { s.cur with seg := { s.cur.seg with rel := s.cur.seg.rel ++ [.arrive g] } }) := by
  simp only [State.barArrive, State.barCheck_ok hgranted fun _ => hmember, Core.release_ok hroom, bind, Except.bind]
theorem State.arrivalOk_arriveRdv {a : Option Arrival} (h : s.arrivalOk a) : (s.arriveRdv s.issue.core g).arrivalOk a := by
  have hcounted : (s.modCur fun c => { c with arrived := c.arrived.put 0 g (c.arrived.getD g 0 + 1) }).arrivalOk a :=
    State.arrivalOk_modCur h _ rfl rfl
  have hsent : (s.sendArrival s.issue.core g).arrivalOk a := State.arrivalOk_of hcounted rfl rfl rfl rfl
  exact State.arrivalOk_modCur hsent _ rfl rfl

end

/-! Waits (R338, R339, R341, R344, R346, R347). -/

section
variable {o : OpInfo} {s : State} (hg : s.guard0 o = true) (harr : s.arrivalOk o.arr)
include hg harr

theorem exec_wait_eq {r : WaitArgs} (hfree : ∀ k ∈ s.cur.cmds, k.deferred = true → k.released = false → k.tok ∉ waitSet r) :
    exec (.wait o r) s = .next ((s.hold (.tokens (waitSet r) s.issue.haddr s.cur.seg.count)).arrival o.arr) := by
  have hnone : s.cur.waitsWithheld (waitSet r) = false := by
    simp only [Core.waitsWithheld, List.any_eq_false, Bool.and_eq_true, Bool.not_eq_true', List.contains_iff_mem]
    exact fun k hk ⟨⟨hdeferred, hreleased⟩, hset⟩ => hfree k hk hdeferred hreleased hset
  rw [exec_wait, execWait]
  refine State.runNow_true hg ?_ (State.arrivalOk_hold harr _)
  simp only [hnone, raiseIf, Bool.false_eq_true, if_false, bind, Except.bind]
theorem exec_fwait_eq (r : FwaitArgs) : exec (.fwait o r) s = .next ((s.hold (.flagGe r.f.toNat r.n.toNat)).arrival o.arr) := by
  rw [exec_fwait, execFwait]
  exact State.runNow_true hg rfl (State.arrivalOk_hold harr _)
theorem exec_fwaitC_eq (r : FwaitArgs) : exec (.fwaitC o r) s = .next ((s.hold (.flagGeSub r.f.toNat r.n.toNat)).arrival o.arr) := by
  rw [exec_fwaitC, execFwaitC]
  exact State.runNow_true hg rfl (State.arrivalOk_hold harr _)
theorem exec_fwaitEq_eq (r : FwaitArgs) : exec (.fwaitEq o r) s = .next ((s.hold (.flagEq r.f.toNat r.n.toNat)).arrival o.arr) := by
  rw [exec_fwaitEq, execFwaitEq]
  exact State.runNow_true hg rfl (State.arrivalOk_hold harr _)
omit harr in
theorem exec_barr_eq {r : BarrArgs} {t : State} (harrive : s.barArrive r.g.toNat = .ok t) (ht : t.arrivalOk o.arr) :
    exec (.barr o r) s = .next (t.arrival o.arr) := by
  rw [exec_barr, execBarr]
  exact State.runNow_true hg harrive ht
theorem exec_bwait_eq {r : BarrArgs} (hgranted : s.barGranted r.g.toNat = true) (hnone : Rel.arrive r.g.toNat ∉ s.cur.seg.rel) :
    exec (.bwait o r) s = .next ((s.hold (.barrier r.g.toNat)).arrival o.arr) := by
  have hwithholds : s.cur.withholds r.g.toNat = false := by
    simp only [Core.withholds, List.any_eq_false, beq_iff_eq]
    exact fun x hx heq => hnone (heq ▸ hx)
  rw [exec_bwait, execBwait]
  refine State.runNow_true hg ?_ (State.arrivalOk_hold harr _)
  simp only [State.barCheck_ok (member := false) hgranted (fun h => absurd h (by decide)), hwithholds, raiseIf, Bool.false_eq_true, if_false, bind, Except.bind]
theorem exec_rdv_eq {r : BarrArgs} (hgranted : s.barGranted r.g.toNat = true) (hmember : s.cur.gangMember = true) (hck : s.issue.ck = true) :
    exec (.rdv o r) s = .next (((if s.cur.seg.rdvDone then s else s.arriveRdv s.issue.core r.g.toNat).hold (.rdv r.g.toNat)).arrival o.arr) := by
  rw [exec_rdv, execRdv]
  refine State.runNow_true hg ?_ (State.arrivalOk_hold ?_ _)
  · simp only [State.barCheck_ok hgranted fun _ => hmember, hck, raiseIf, Bool.not_true, Bool.false_eq_true, if_false, bind, Except.bind]
  · split
    · exact harr
    · exact State.arrivalOk_arriveRdv harr
/-- A fence that orders nothing, and one of the service sequencer, is done at issue (R347). -/
theorem exec_fence_idle {r : FenceArgs} (h : s.issue.svc = true ∨ r.kind = 0 ∨ (~~~r.ncls).toNat = 0) : exec (.fence o r) s = .next (s.arrival o.arr) := by
  rw [exec_fence, execFence]
  exact State.runNow_true hg (if_pos h) harr
theorem exec_fence_marks {r : FenceArgs} (h : ¬(s.issue.svc = true ∨ r.kind = 0 ∨ (~~~r.ncls).toNat = 0)) :
    exec (.fence o r) s = .next (((s.modCur fun c =>
      { c with seg := { c.seg with rel := c.seg.rel ++ [.mark (r.kind.toNat + if r.scope.toNat = 4 then 32 else 0) (~~~r.ncls).toNat] } }).hold
        (.fence r.kind.toNat r.scope.toNat (~~~r.ncls).toNat s.seq)).arrival o.arr) := by
  rw [exec_fence, execFence]
  refine State.runNow_true hg (if_neg h) (State.arrivalOk_hold (State.arrivalOk_modCur harr _ rfl ?_) _)
  simp [Core.relCount, Core.withheld, Rel.takesEntry]

end

/-! Flags of the core itself (R183, R199, R340, R342). -/

section
variable {s : State}

theorem State.arrivalOk_postOwn {a : Option Arrival} (h : s.arrivalOk a) (p : Post) : (s.postOwn s.issue.core p).arrivalOk a := by
  unfold State.postOwn
  split
  · refine State.arrivalOk_modCur h _ ?_ ?_ <;> unfold Core.applyPost <;> dsimp only <;> split <;> rfl
  · exact State.arrivalOk_modCur h _ rfl rfl
theorem State.arrivalOk_flagInc {a : Option Arrival} (h : s.arrivalOk a) (f n : Nat) : (s.flagInc f n).arrivalOk a := by
  unfold State.flagInc
  split
  · exact State.arrivalOk_modCur h _ rfl rfl
  · exact State.arrivalOk_issue (State.arrivalOk_postOwn h _) _ rfl
theorem State.arrivalOk_flagPut {a : Option Arrival} (h : s.arrivalOk a) (f : Nat) (v : Half) : (s.flagPut f v).arrivalOk a := by
  unfold State.flagPut
  split
  · exact State.arrivalOk_modCur h _ rfl rfl
  dsimp only
  split
  · refine State.arrivalOk_modCur h _ ?_ ?_ <;> unfold Core.applyPost <;> dsimp only <;> split <;> rfl
  · exact State.arrivalOk_postOwn h _

theorem exec_fpost_eq {o : OpInfo} (hg : s.guard0 o = true) (harr : s.arrivalOk o.arr) (r : FpostArgs) :
    exec (.fpost o r) s = .next ((s.flagInc r.f.toNat (r.n.toNat + 1)).arrival o.arr) := by
  rw [exec_fpost, execFpost]
  exact State.runNow_true hg rfl (State.arrivalOk_flagInc harr ..)
theorem exec_fset_eq {o : OpInfo} (hg : s.guard0 o = true) (harr : s.arrivalOk o.arr) (r : FsetArgs) :
    exec (.fset o r) s = .next ((s.flagPut r.f.toNat r.v).arrival o.arr) := by
  rw [exec_fset, execFset]
  exact State.runNow_true hg rfl (State.arrivalOk_flagPut harr ..)

theorem Core.busyBelow_mono {c : Core} {m n : Nat} (h : m ≤ n) (hn : c.busyBelow n = false) : c.busyBelow m = false := by
  simp only [Core.busyBelow, Bool.or_eq_false_iff, List.any_eq_false, Bool.and_eq_true, decide_eq_true_eq, not_and] at hn ⊢
  obtain ⟨⟨⟨⟨⟨⟨hloads, hatoms⟩, hcmds⟩, hmq⟩, haq⟩, hdq⟩, hwatches⟩ := hn
  exact ⟨⟨⟨⟨⟨⟨fun x hx hlt => hloads x hx (by omega), fun x hx hlt => hatoms x hx (by omega)⟩, fun x hx hlt => hcmds x hx (by omega)⟩,
    fun x hx hlt => hmq x hx (by omega)⟩, fun x hx hlt => haq x hx (by omega)⟩, fun x hx hnone hlt => hdq x hx hnone (by omega)⟩,
    fun x hx hlt => hwatches x hx (by omega)⟩
theorem State.publishBelow_mono {core m n : Nat} (h : m ≤ n) (hn : s.publishBelow core n = false) : s.publishBelow core m = false := by
  simp only [State.publishBelow, List.any_eq_false, Bool.and_eq_true, decide_eq_true_eq] at hn ⊢
  exact fun x hx ⟨⟨hcore, hlt⟩, hkind⟩ => hn x hx ⟨⟨hcore, by omega⟩, hkind⟩
theorem Core.withheldIn_none {c : Core} (h : c.withheld = []) (n : Nat) : c.withheldIn n = false := by
  rw [Core.withheld, List.filter_eq_nil_iff] at h
  rw [Core.withheldIn, List.any_eq_false]
  exact fun x hx => h x (List.mem_of_mem_take hx)
/-- Nothing of the core outstanding or withheld, and no own post waits: a post of the bundle at issue is ready. -/
def State.PostsFree (s : State) : Prop :=
  s.cur.withheld = [] ∧ s.cur.busyBelow s.seq = false ∧ s.publishBelow s.issue.core s.seq = false ∧ ∀ q k, s.issue.since = some (q, k) → q ≤ s.seq
theorem State.postReady_ownPost (h : s.PostsFree) (f : Nat) (set : Bool) (v : Half) : s.postReady s.issue.core (s.ownPost f set v) = true := by
  obtain ⟨hwithheld, hbusy, hpublish, hsince⟩ := h
  have hupto : (s.ownPost f set v).upto ≤ s.seq := by
    dsimp only [State.ownPost]
    split
    next q k heq => exact hsince q k heq
    · exact Nat.le_refl _
  have hnone : (s.ownPost f set v).withheld = false := Core.withheldIn_none hwithheld _
  have hcore : (s.core s.issue.core).busyBelow (s.ownPost f set v).upto = false := Core.busyBelow_mono hupto hbusy
  rw [State.postReady, hnone, hcore, State.publishBelow_mono hupto hpublish]
  rfl

theorem Core.rF_flagForeign (c : Core) (f : Nat) (n : Half) :
    (c.flagForeign f n).rF f = c.rF f + n ∧ (c.flagForeign f n).seg.ck.f.getD f 0 = c.seg.ck.f.getD f 0 + n :=
  ⟨SMap.getD_put_self .., SMap.getD_put_self ..⟩
theorem Core.rF_applyPost_add {c : Core} {p : Post} (hadd : p.set = false) (hopen : p.committed = false) :
    (c.applyPost p).rF p.flag = c.rF p.flag + p.n ∧ ∀ g, g ≠ p.flag → (c.applyPost p).rF g = c.rF g := by
  simp only [Core.applyPost, hadd, hopen, Bool.false_eq_true, if_false]
  exact ⟨SMap.getD_put_self .., fun g hne => SMap.getD_put_ne _ _ _ _ hne.symm⟩
theorem Core.rF_applyPost_set {c : Core} {p : Post} (hset : p.set = true) (hopen : p.committed = false) :
    (c.applyPost p).rF p.flag = p.n ∧ ∀ g, g ≠ p.flag → (c.applyPost p).rF g = c.rF g := by
  simp only [Core.applyPost, hset, hopen, Bool.false_eq_true, if_true, if_false]
  exact ⟨SMap.getD_put_self .., fun g hne => SMap.getD_put_ne _ _ _ _ hne.symm⟩

section
variable (hsvc : s.issue.svc = false) (hposts : s.cur.seg.posts = []) (hfree : s.PostsFree)
include hsvc hposts hfree

theorem State.rF_flagInc (f n : Nat) :
    (s.flagInc f n).cur.rF f = s.cur.rF f + BitVec.ofNat 16 n ∧ ∀ g, g ≠ f → (s.flagInc f n).cur.rF g = s.cur.rF g := by
  have hempty : (s.core s.issue.core).seg.posts.isEmpty = true := List.isEmpty_iff.mpr hposts
  have hcur : (s.flagInc f n).cur = s.cur.applyPost (s.ownPost f false (BitVec.ofNat 16 n)) := by
    rw [State.flagInc, if_neg (by simp [hsvc]), State.postOwn, hempty, State.postReady_ownPost hfree, if_pos (by rfl)]
    exact s.core_modCore_self s.issue.core fun c => c.applyPost _
  rw [hcur]
  exact Core.rF_applyPost_add rfl rfl
theorem State.rF_flagPut {f : Nat} (v : Half) (hincs : s.issue.incs.getD f 0 = 0) :
    (s.flagPut f v).cur.rF f = v ∧ ∀ g, g ≠ f → (s.flagPut f v).cur.rF g = s.cur.rF g := by
  have hempty : s.cur.seg.posts.isEmpty = true := List.isEmpty_iff.mpr hposts
  have hcur : (s.flagPut f v).cur = s.cur.applyPost { s.ownPost f true v with n := v } := by
    rw [State.flagPut, if_neg (by simp [hsvc])]
    dsimp only
    rw [hempty, State.postReady_ownPost hfree, if_pos (by rfl), State.cur_modCur, hincs, show v + (0 : Half) = v from BitVec.add_zero v]
  rw [hcur]
  exact Core.rF_applyPost_set rfl rfl

end
theorem State.rF_flagInc_svc (hsvc : s.issue.svc = true) (f n : Nat) :
    (s.flagInc f n).cur.rF f = s.cur.rF f + BitVec.ofNat 16 n ∧ (s.flagInc f n).cur.seg.ck.f.getD f 0 = s.cur.seg.ck.f.getD f 0 + BitVec.ofNat 16 n := by
  rw [State.flagInc, if_pos hsvc, State.cur_modCur]
  exact Core.rF_flagForeign ..

/-! Posts to other cores (R199, R343). -/

/-- The chunk that a post reaches: the run of a control core's post, or a running chunk of the context. -/
def Core.takesPost (c : Core) (ctx : Nat) (k : Chunk) : Prop := c.chunk = some k ∧ if ctx = 64 then c.run ≠ .parked else k.ctx = ctx
theorem State.deliverPost_takes {ctx target : Nat} {k : Chunk} (f n : Nat) (htarget : target < 256) (h : (s.core target).takesPost ctx k) :
    s.deliverPost ctx target f n = s.modCore target fun c => c.flagForeign f (BitVec.ofNat 16 n) := by
  obtain ⟨hchunk, htakes⟩ := h
  have hctl : isCtl target = false := by simp [isCtl]; omega
  unfold State.deliverPost
  dsimp only
  rw [hctl, if_neg (by decide), if_pos]
  rw [hchunk, Option.any_some]
  split at htakes
  next hctx => simpa [hctx] using htakes
  next hctx => simpa [hctx] using htakes

theorem State.remotePost_svc {target : Int} (hlo : 0 ≤ target) (hhi : target ≤ 263) (hsvc : s.issue.svc = true) (f n : Nat) :
    s.remotePost target f n = .ok (s.deliverPost s.who.ctx target.toNat f n) := by
  have hin : ¬(target < 0 ∨ 263 < target) := by omega
  simp only [State.remotePost, raiseIf, decide_eq_false hin, hsvc, Bool.false_eq_true, if_false, if_true, bind, Except.bind]
theorem State.remotePost_main {target : Int} (hlo : 0 ≤ target) (hhi : target ≤ 263) (hsvc : s.issue.svc = false) (hroom : s.cur.relCount < 512)
    (f n : Nat) : s.remotePost target f n =
      .ok (s.setCore s.issue.core { s.cur with seg := { s.cur.seg with rel := s.cur.seg.rel ++ [.post target.toNat f n] } }) := by
  have hin : ¬(target < 0 ∨ 263 < target) := by omega
  simp only [State.remotePost, raiseIf, decide_eq_false hin, hsvc, Core.release_ok hroom, Bool.false_eq_true, if_false, bind, Except.bind]

end

/-- The forms of a post to another core, with the target that each names. -/
def IsRemotePost (o : OpInfo) (s : State) (ev : Instr) (target : Int) (f n : Nat) : Prop :=
  (∃ r : RpostArgs, ev = .rpost o r ∧ target = ((r.thi.toNat * 32 + r.tlo.toNat : Nat) : Int) ∧ f = r.f.toNat ∧ n = r.n.toNat + 1) ∨
    (∃ r : RpostArgs, ev = .rpostRel o r ∧ target = (s.issue.core : Int) + sgn 10 (r.thi.toNat * 32 + r.tlo.toNat) ∧ f = r.f.toNat ∧ n = r.n.toNat + 1) ∨
    ∃ r : RpostPred, ev = .rpostPred o r ∧ target = (((s.cur.rP r.p.toNat).toNat % 512 : Nat) : Int) ∧ f = r.f.toNat ∧ n = r.n.toNat + 1
theorem exec_remotePost {o : OpInfo} {s t : State} {ev : Instr} {target : Int} {f n : Nat} (h : IsRemotePost o s ev target f n) (hg : s.guard0 o = true)
    (hpost : s.remotePost target f n = .ok t) (harr : t.arrivalOk o.arr) : exec ev s = .next (t.arrival o.arr) := by
  obtain ⟨r, rfl, rfl, rfl, rfl⟩ | ⟨r, rfl, rfl, rfl, rfl⟩ | ⟨r, rfl, rfl, rfl, rfl⟩ := h
  · rw [exec_rpost, execRpost]
    exact State.runNow_true hg hpost harr
  · rw [exec_rpostRel, execRpostRel]
    exact State.runNow_true hg hpost harr
  · rw [exec_rpostPred, execRpostPred]
    exact State.runNow_true hg (by rw [bits_low]; exact hpost) harr

end Sys2Proof.Machine

namespace Sys2Proof.Proofs
open Sys2Proof Sys2Proof.Machine

/-- Settles O24: a wait adds its condition to those of its group; a post of the core itself takes effect when none of its operations is
outstanding or withheld; one to another core is withheld, or reaches its target. -/
theorem waitAndPostResults : Obligations.WaitAndPostResults := by
  unfold Obligations.WaitAndPostResults
  refine ⟨fun o s hg harr => ?_, fun o s hg harr => ?_⟩
  · intro held
    refine ⟨?_, fun r => ⟨exec_fwait_eq hg harr r, exec_fwaitC_eq hg harr r, exec_fwaitEq_eq hg harr r⟩, ?_, fun r => exec_bwait_eq hg harr, ?_, fun r => ⟨?_, ?_⟩⟩
    · rintro r set rfl hfree
      exact exec_wait_eq hg harr hfree
    · intro r hgranted hmember hroom t ht
      exact exec_barr_eq hg (State.barArrive_ok hgranted hmember hroom) ht
    · intro r hgranted hmember hck t
      exact exec_rdv_eq hg harr hgranted hmember hck
    · rintro (hsvc | hkind | hall)
      · exact exec_fence_idle hg harr (.inl hsvc)
      · exact exec_fence_idle hg harr (.inr (.inl hkind))
      · exact exec_fence_idle hg harr (.inr (.inr (by simp [hall])))
    · intro hsvc hkind hsome
      refine exec_fence_marks hg harr ?_
      rintro (h | h | h)
      · simp [hsvc] at h
      · exact hkind h
      · rw [BitVec.toNat_not] at h
        exact hsome (BitVec.eq_of_toNat_eq (by rw [BitVec.toNat_allOnes]; have := r.ncls.isLt; omega))
  · refine ⟨exec_fpost_eq hg harr, exec_fset_eq hg harr, ?_,
      fun f n hsvc => State.rF_flagInc_svc hsvc f n, ?_, ?_⟩
    · intro f n hsvc hwithheld hposts hbusy hpublish hsince
      have hfree : s.PostsFree := ⟨hwithheld, hbusy, hpublish, hsince⟩
      obtain ⟨hsame, hothers⟩ := State.rF_flagInc hsvc hposts hfree f n
      exact ⟨hsame, hothers, fun v hincs => State.rF_flagPut hsvc hposts hfree v hincs⟩
    · intro ev target f n hev hlo hhi
      refine ⟨?_, fun hsvc ht => exec_remotePost hev hg (State.remotePost_svc hlo hhi hsvc f n) ht⟩
      intro hsvc hroom t ht
      exact exec_remotePost hev hg (State.remotePost_main hlo hhi hsvc hroom f n) ht
    · intro ctx target f n k htarget hchunk htakes
      rw [State.deliverPost_takes f n htarget ⟨hchunk, htakes⟩, State.core_modCore_self]
      exact Core.rF_flagForeign ..

end Sys2Proof.Proofs
end

section
/-! SUPPORT. Entry of a command, and the copy slots whose checks pass (R220, R410-R420, R424). -/
set_option Elab.async false
namespace Sys2Proof.Machine
open Sys2Proof

/-! Entry of a checked command (R220, R414). -/

section
variable (s : State) (o : OpInfo) (k : Cmd) (ix : Nat) (tile : Option Nat) (c : Core)

/-- What a command keeps of its descriptor and of its place when it enters: all but its captured source and its index. -/
theorem State.enteredCmd_fields : let k' := s.enteredCmd o k ix tile c
    k'.seq = s.seq ∧ k'.tok = k.tok ∧ k'.kind = k.kind ∧ k'.desc = k.desc ∧ k'.deferred = k.deferred ∧ k'.started = k.started ∧
      k'.arr = (if k.deferred then none else o.arr) ∧ k'.index = [ix] := by
  unfold State.enteredCmd
  extract_lets k1 k2
  have hsame : k2.seq = s.seq ∧ k2.tok = k.tok ∧ k2.kind = k.kind ∧ k2.desc = k.desc ∧ k2.deferred = k.deferred ∧ k2.started = k.started ∧
      k2.arr = (if k.deferred then none else o.arr) := by
    dsimp only [k2]
    split <;> exact ⟨rfl, rfl, rfl, rfl, rfl, rfl, rfl⟩
  obtain ⟨hseq, htok, hkind, hdesc, hdeferred, hstarted, harr⟩ := hsame
  exact ⟨hseq, htok, hkind, hdesc, hdeferred, hstarted, harr, rfl⟩
theorem Core.stage_keeps (staged : Bool) : (c.stage k staged).cmds = c.cmds ∧ (c.stage k staged).seg.rel = c.seg.rel := by
  unfold Core.stage
  split
  · split <;> exact ⟨rfl, rfl⟩
  · exact ⟨rfl, rfl⟩
theorem State.cur_entered : let k' := s.enteredCmd o k ix tile c
    (s.entered o k ix tile c).cur.cmds = c.cmds ++ [k'] ∧ (s.entered o k ix tile c).cur.seg.rel = c.seg.rel := by
  intro k'
  obtain ⟨hcmds, hrel⟩ := Core.stage_keeps k' c (k.deferred && tile.isSome)
  have hcur : (s.entered o k ix tile c).cur =
      { c.stage k' (k.deferred && tile.isSome) with cmds := (c.stage k' (k.deferred && tile.isSome)).cmds ++ [k'] } := s.cur_setCore _
  rw [hcur]
  exact ⟨congrArg (· ++ [k']) hcmds, hrel⟩

end

theorem State.issue_tokAdd {s t : State} {k n : Nat} (h : s.tokAdd k n = .ok t) : t.issue = s.issue := by
  unfold State.tokAdd at h
  dsimp only at h
  split at h
  · cases h
  · cases h
    rfl
/-- A command that its engine, its tiles, the staging buffers and the limits of its segment let in. -/
theorem State.enterCmd_ok {s s1 : State} {o : OpInfo} {k : Cmd} {ix : Nat} {tile : Option Nat} {sas : List Nat} {c1 c2 c3 c4 : Core}
    (hengine : s.cur.grp.n = 0 → s.cur.engineFull k.eng = false) (hsource : ∀ t, tile = some t → s.cur.tileBlocked s.issue.since t false = false)
    (hdest : ∀ t, k.writesTile = some t → s.cur.tileBlocked s.issue.since t true = false)
    (hstaged : k.deferred = true → tile.isSome = true → (if k.eng = 0 then s.cur.seg.staged0 else s.cur.seg.staged1) ≠ 2)
    (htok : s.tokAdd k.tok 1 = .ok s1) (hundo : s1.cur.undoForAll sas = .ok c1) (htile : c1.keepTile k = .ok c2)
    (hplace : c2.placeCmd k s1.issue.core s1.seq = .ok c3) (harrival : c3.placeArrival k o.arr s1.seq = .ok c4) :
    s.enterCmd o k ix tile sas = (s1.entered o k ix tile c4).startEntered o (s1.enteredCmd o k ix tile c4) ix := by
  have hbuffer : (k.deferred && tile.isSome && (if k.eng = 0 then s.cur.seg.staged0 else s.cur.seg.staged1) == 2) = false := by
    simp only [Bool.and_eq_false_iff, beq_eq_false_iff_ne]
    cases hd : k.deferred with
    | false => exact .inl (.inl rfl)
    | true =>
      cases ht : tile.isSome with
      | false => exact .inl (.inr rfl)
      | true => exact .inr (hstaged hd ht)
  rw [State.enterCmd_eq, if_neg]
  case hnc =>
    rw [Bool.not_eq_true]
    simp only [Bool.or_eq_false_iff]
    refine ⟨⟨?_, ?_⟩, ?_⟩
    · by_cases hn : s.cur.grp.n = 0
      · rw [hengine hn, Bool.and_false]
      · rw [State.mayStall, beq_eq_false_iff_ne.mpr hn, Bool.false_and]
    · split
      next t => exact hsource t rfl
      · rfl
    · split
      next t heq => exact hdest t heq
      · rfl
  simp only [hbuffer, raiseIf, htok, hundo, htile, hplace, harrival, bind, Except.bind, Bool.false_eq_true, if_false]
/-- A command whose first reads meet no limit of the segment starts. -/
theorem State.startEntered_begins {t : State} {o : OpInfo} {k : Cmd} {ix : Nat} (hnow : k.deferred = false)
    (hclean : ∀ x ∈ (t.beginCmd t.issue.core k.seq).cur.cmds, x.seq = k.seq → x.bad ≠ 0x1C3#10) :
    t.startEntered o k ix = .ok ((t.beginCmd t.issue.core k.seq).touch (t.cur.readTouches k ix)) := by
  have hnone : (t.beginCmd t.issue.core k.seq).cur.cmds.any (fun x => x.seq == k.seq && x.bad == 0x1C3#10) = false := by
    simp only [List.any_eq_false, Bool.and_eq_true, beq_iff_eq, not_and]
    exact hclean
  simp only [State.startEntered, hnow, hnone, Bool.false_eq_true, if_false]

/-! A command without an index and without an own-scratchpad source reads nothing when it starts (R414). -/

/-- Whether a command has an own-scratchpad source is a matter of its kind and its descriptor. -/
theorem Core.startElems_none {c d : Core} {j k : Cmd} (hkind : j.kind = k.kind) (hdesc : j.desc = k.desc) (h : c.startElems k = none) :
    d.startElems j = none := by
  unfold Core.startElems at h ⊢
  rw [hkind, hdesc]
  split at h
  · split at h
    · exact absurd h (Option.some_ne_none _)
    next hspc => exact if_neg hspc
  · rfl
  · rfl
  · split at h
    · exact absurd h (Option.some_ne_none _)
    next hssp => exact if_neg hssp
section
variable {k : Cmd} (hwords : k.words = 0) (helems : ∀ (c : Core) (j : Cmd), j.kind = k.kind → j.desc = k.desc → c.startElems j = none)
include hwords helems

theorem Core.startReads_nothing (c : Core) (ix n : Nat) : c.startReads k ix n 0 = { k with started := true, bad := 0, index := [] } := by
  have hnone : c.startElems { k with started := true, bad := 0, index := [] } = none := helems c _ rfl rfl
  have hbytes : c.spTake ix (4 * 0) = [] := rfl
  simp only [Core.startReads, hwords, hbytes, List.any_nil, List.range_zero, List.map_nil, Bool.false_eq_true, if_false, ne_eq, not_true, false_and, or_self, hnone]
theorem State.openSources_nothing (s : State) (core ix : Nat) : s.openSources core k ix = ((0, 0), s) := by
  have hnone : (s.core core).startElems ((s.core core).startReads k ix 0 0) = none := by
    rw [Core.startReads_nothing hwords helems]
    exact helems _ _ rfl rfl
  simp only [State.openSources, if_pos hwords, ne_eq, not_true, if_false, hnone, Option.getD_none, List.foldl_nil]

end
theorem State.windowsFor_keeps (s : State) (core : Nat) (k : Cmd) :
    (s.windowsFor core k).mem = s.mem ∧ (s.windowsFor core k).issue = s.issue ∧ ((s.windowsFor core k).core core).cmds = (s.core core).cmds := by
  unfold State.windowsFor
  split
  · exact ⟨rfl, rfl, rfl⟩
  · exact ⟨rfl, rfl, by rw [State.core_modCore_self]⟩
theorem State.beginCmd_nothing {s : State} {core : Nat} {l : List Cmd} {k : Cmd} (hcmds : (s.core core).cmds = l ++ [k]) (hnew : ∀ x ∈ l, x.seq ≠ k.seq)
    (hwords : k.words = 0) (helems : ∀ (c : Core) (j : Cmd), j.kind = k.kind → j.desc = k.desc → c.startElems j = none) :
    (s.beginCmd core k.seq).mem = s.mem ∧ (s.beginCmd core k.seq).issue = s.issue ∧
      ∃ hid : SMap Bool, ((s.beginCmd core k.seq).core core).cmds = l ++ [{ k with started := true, bad := 0, index := [], hid }] := by
  have hfind : (s.core core).cmds.find? (fun x => x.seq == k.seq) = some k := by
    have hmiss : l.find? (fun x => x.seq == k.seq) = none := List.find?_eq_none.mpr fun x hx => by simpa using hnew x hx
    rw [hcmds, List.find?_append, hmiss, Option.none_or, List.find?_cons_of_pos (p := fun x : Cmd => x.seq == k.seq) (beq_self_eq_true k.seq)]
  obtain ⟨j, hj⟩ : ∃ j, j = { k with index := List.replicate k.words 0 } := ⟨_, rfl⟩
  have hfields : j.words = 0 ∧ j.kind = k.kind ∧ j.desc = k.desc := by subst hj; exact ⟨hwords, rfl, rfl⟩
  obtain ⟨hjwords, hkind, hdesc⟩ := hfields
  have hjelems (c : Core) (x : Cmd) (hx : x.kind = j.kind) (hd : x.desc = j.desc) : c.startElems x = none :=
    helems c x (hx.trans hkind) (hd.trans hdesc)
  obtain ⟨hmem, hissue, hkept⟩ := s.windowsFor_keeps core j
  have hbegin : s.beginCmd core k.seq = ((s.windowsFor core j).windowsBack s core).modCore core fun c => { c with cmds := c.cmds.map fun x =>
      if x.seq = k.seq then { c.startReads j (k.index.headD 0) 0 0 with hid := ((s.windowsFor core j).windowsBack s core).shadowOf core j } else x } := by
    rw [State.beginCmd, hfind]
    dsimp only
    rw [← hj, State.openSources_nothing hjwords hjelems]
  have hback : (((s.windowsFor core j).windowsBack s core).core core).cmds = l ++ [k] := by
    rw [State.windowsBack, State.core_modCore_self]
    exact hkept.trans hcmds
  rw [hbegin]
  refine ⟨hmem, hissue, ((s.windowsFor core j).windowsBack s core).shadowOf core j, ?_⟩
  rw [State.core_modCore_self]
  dsimp only
  rw [hback, List.map_append, List.map_singleton, if_pos rfl, Core.startReads_nothing hjwords hjelems, List.map_congr_left fun x hx => if_neg (hnew x hx),
    List.map_id', hj]

/-! Copy commands, tile images and flushes, whose checks pass (R410-R412, R418-R420, R424). -/

/-- The command of a copy operation as its descriptor gives it, before it enters its engine. -/
def State.copyCmd (s : State) (o : OpInfo) (kind : CmdKind) (d cls : BitVec 4) (tok : BitVec 3) (u : Nat) : Cmd :=
  { seq := 0, eng := engineOf o.slot, tok := tok.toNat, cls := cls.toNat, u, kind, desc := s.cur.rD d.toNat,
    index := List.replicate (dCount (s.cur.rD d.toNat) 1) 0, deferred := decide (dDsp (s.cur.rD d.toNat) ∈ [0, 2, 4]) }
/-- The address of the index words. -/
def State.indexAddr (s : State) (ix : Option (BitVec 4)) : Nat := match ix with | some r => (dWord (s.cur.rD r.toNat) 0).toNat % 2 ^ 20 | none => 0

section
variable {o : OpInfo} {s t : State} (hg : s.guard0 o = true) (harr : s.arrivalOk o.arr)
include hg harr

theorem State.copyOp_ok {kind : CmdKind} {d cls : BitVec 4} {tok : BitVec 3} {u : Nat} {ssp dsp : List Nat} {ix : Option (BitVec 4)}
    (hdesc : s.cur.descBad (s.copyCmd o kind d cls tok u) ssp dsp ix.isSome = false)
    (hindex : s.cur.sideCheck (isCtl s.issue.core) 1
      (if ix.isSome then (List.range (dCount (s.cur.rD d.toNat) 1)).map fun i => ((s.indexAddr ix + 4 * i : Nat) : Int) else []) 4 = .ok ())
    (hsource : s.cur.sideCheck (isCtl s.issue.core) (dSsp (s.cur.rD d.toNat)) (s.copyCmd o kind d cls tok u).sources (2 ^ dEsz (s.cur.rD d.toNat)) = .ok ())
    (hdest : s.cur.sideCheck (isCtl s.issue.core) (dDsp (s.cur.rD d.toNat)) (s.copyCmd o kind d cls tok u).dests (2 ^ dEsz (s.cur.rD d.toNat)) = .ok ())
    (henter : s.enterCmd o (s.copyCmd o kind d cls tok u) (s.indexAddr ix)
      (if dSsp (s.cur.rD d.toNat) = 3 then some (tileOf (dSaddr (s.cur.rD d.toNat))) else none)
      (if dDsp (s.cur.rD d.toNat) = 1 then (s.copyCmd o kind d cls tok u).dests.map Int.toNat else []) = .ok t) :
    s.copyOp o kind d cls tok u ssp dsp ix = .next t := by
  have hdeferred : (dDsp (s.cur.rD d.toNat) == 0 || dDsp (s.cur.rD d.toNat) == 2 || dDsp (s.cur.rD d.toNat) == 4) =
      decide (dDsp (s.cur.rD d.toNat) ∈ [0, 2, 4]) := by
    simp [Bool.or_assoc, beq_eq_decide]
  rw [State.copyCmd] at hdesc hsource hdest henter
  unfold State.copyOp
  dsimp only
  rw [hdeferred]
  simp only [hg, State.arriveCheck_ok harr, Bool.not_true, Bool.false_eq_true, if_false, bind, Except.bind, hdesc, raiseIf]
  cases ix with
  | none =>
    dsimp only [State.indexAddr] at hindex henter ⊢
    rw [hindex, hsource, hdest, henter]
    rfl
  | some r =>
    dsimp only [State.indexAddr] at hindex henter ⊢
    rw [hindex, hsource, hdest, henter]
    rfl
theorem exec_tldi_ok {r : TileLoad} (hcheck : s.imageCheck (dWord (s.cur.rD r.base.toNat) 0 + imm64 r.disp) (r.spc == 1)
      (imageOffs (tileLen (s.cur.tcfg r.t.toNat)) (r.trl == 1)) = .ok ())
    (henter : s.enterCmd o
      { seq := 0, eng := engineOf o.slot, tok := r.tok.toNat, cls := r.cls.toNat, u := r.u.toNat
        kind := .tldi r.t.toNat (dWord (s.cur.rD r.base.toNat) 0 + imm64 r.disp) (r.trl == 1) (r.spc == 1), desc := 0, deferred := false } 0 none [] = .ok t) :
    exec (.tldi o r) s = .next t := by
  rw [exec_tldi, execTldi]
  simp only [hg, State.arriveCheck_ok harr, hcheck, reuse, henter, Bool.not_true, Bool.false_eq_true, if_false, bind, Except.bind]
  rfl
theorem exec_tsti_ok {r : TileStore} (hcheck : s.imageCheck (dWord (s.cur.rD r.base.toNat) 0 + imm64 r.disp) (r.spc == 1)
      ((List.range ((if r.trl = 1 then 32768 else 16384) / 32)).map (32 * ·)) = .ok ())
    (henter : s.enterCmd o
      { seq := 0, eng := engineOf o.slot, tok := r.tok.toNat, cls := r.cls.toNat, u := 2
        kind := .tsti r.t.toNat (dWord (s.cur.rD r.base.toNat) 0 + imm64 r.disp) (r.trl == 1) (r.spc == 1), desc := 0, deferred := r.spc == 0 } 0
      (some r.t.toNat) (if r.spc = 1 then (List.range ((if r.trl = 1 then 32768 else 16384) / 32)).map fun i =>
        (dWord (s.cur.rD r.base.toNat) 0 + imm64 r.disp).toNat + 32 * i else []) = .ok t) :
    exec (.tsti o r) s = .next t := by
  rw [exec_tsti, execTsti]
  simp only [hg, State.arriveCheck_ok harr, hcheck, henter, Bool.not_true, Bool.false_eq_true, if_false, bind, Except.bind]
  rfl
theorem exec_stfl_ok {r : StflArgs} (henter : s.enterCmd o
      { seq := 0, eng := engineOf o.slot, tok := r.tok.toNat, cls := r.cls.toNat, u := 2
        kind := .stfl (if r.all = 1 then List.range 8 else [r.win.toNat]) (r.inv == 1), desc := 0, deferred := true } 0 none [] = .ok t) :
    exec (.stfl o r) s = .next t := by
  rw [exec_stfl, execStfl]
  simp only [hg, State.arriveCheck_ok harr, henter, Bool.not_true, Bool.false_eq_true, if_false, bind, Except.bind]
  rfl

end
/-- The pieces of an image by rows and bytes of a row. -/
theorem imageOffs_rows (v : Word32) (trl : BitVec 1) : imageOffs (tileLen v) (trl == 1) =
    (List.range ((rowBytes v * tcfgRows v + 31) / 32)).map (32 * ·) ++ if trl = 1 then (List.range 512).map (16384 + 32 * ·) else [] := by
  simp only [imageOffs, tileLen, Nat.mul_comm (tcfgRows v), beq_iff_eq]

end Sys2Proof.Machine

namespace Sys2Proof.Proofs
open Sys2Proof Sys2Proof.Machine

/-- Settles O21: a checked command enters its engine by the parts of `enterCmd`, and each operation is its checks, then that entry. -/
theorem copyCommandResults : Obligations.CopyCommandResults := by
  unfold Obligations.CopyCommandResults
  refine ⟨?_, fun o s hg harr => ?_⟩
  · intro o s s1 k ix tile sas c1 c2 c3 c4 c post hengine hsource hdest hstaged htok hundo htile hplace harrival
    have hplace' : c2.placeCmd k s1.issue.core s1.seq = .ok c3 := by
      rw [State.issue_tokAdd htok]
      exact hplace
    have henter := State.enterCmd_ok (o := o) (ix := ix) hengine hsource hdest hstaged htok hundo htile hplace' harrival
    obtain ⟨hseq, htok', hkind, hdesc, hdeferred, hstarted, harr, hindex⟩ := s1.enteredCmd_fields o k ix tile c4
    obtain ⟨hcmds, hrel⟩ := s1.cur_entered o k ix tile c4
    have hmem : s1.mem = s.mem := State.mem_tokAdd htok
    refine ⟨s1.entered o k ix tile c4, s1.enteredCmd o k ix tile c4, rfl, hmem, rfl, hrel, hcmds, hseq, htok', hkind, hdesc, hdeferred, hstarted, ?_, ?_⟩
    · intro hlate
      rw [henter, State.startEntered, hdeferred, hlate, if_pos rfl]
      exact ⟨harr.trans (if_pos hlate), rfl⟩
    · intro hnow
      refine ⟨harr.trans (if_neg (by simp [hnow])), ?_, ?_⟩
      · intro hclean
        rw [← hseq] at hclean ⊢
        rw [henter]
        exact State.startEntered_begins (hdeferred.trans hnow) hclean
      · intro hnew hwords helems
        rw [← hseq] at hnew ⊢
        obtain ⟨hmem', hissue, hid, hbegun⟩ := State.beginCmd_nothing hcmds hnew (by rw [Cmd.words, hkind, hdesc]; exact hwords)
          fun c j hj hd => Core.startElems_none hj hd helems
        exact ⟨hmem'.trans hmem, hid, by rw [State.cur, hissue]; exact hbegun⟩
  · refine ⟨?_, fun r t2 => ?_, fun r t2 => ?_, fun r t2 henter => exec_stfl_ok hg harr henter⟩
    · rintro ev kind d cls tok u ssp dsp ix t2 hev desc n deferred k ixWord words hbad hindex hsource hdest henter
      have hcopy : s.copyOp o kind d cls tok u ssp dsp ix = .next t2 := State.copyOp_ok hg harr hbad hindex hsource hdest henter
      obtain ⟨r, rfl, rfl, rfl, rfl, rfl, rfl, rfl, rfl, rfl⟩ | ⟨r, rfl, rfl, rfl, rfl, rfl, rfl, rfl, rfl, rfl⟩ |
        ⟨r, rfl, rfl, rfl, rfl, rfl, rfl, rfl, rfl, rfl⟩ | ⟨r, rfl, rfl, rfl, rfl, rfl, rfl, rfl, rfl, rfl⟩ |
        ⟨r, rfl, rfl, rfl, rfl, rfl, rfl, rfl, rfl, rfl⟩ := hev
      · exact hcopy
      · exact hcopy
      · exact hcopy
      · exact hcopy
      · exact hcopy
    · intro a m offs hcheck henter
      exact exec_tldi_ok hg harr (by rw [imageOffs_rows]; exact hcheck) henter
    · intro a hcheck henter
      have hpieces : (if r.trl = 1 then 1024 else 512) = (if r.trl = 1 then 32768 else 16384) / 32 := by split <;> rfl
      rw [hpieces] at hcheck
      exact exec_tsti_ok hg harr hcheck henter

end Sys2Proof.Proofs
end
